-- ==== Sys2Proof/Word.lean ====
section
/-!
DEFINITION. The word types of the block: bytes, 32-bit register words and the 36-bit words of Ohmette-36.
-/
namespace Sys2Proof

/-- One byte of an addressed memory. -/
abbrev Byte := BitVec 8

/-- One Ohmette-36 word (R155). -/
abbrev Word36 := BitVec 36

end Sys2Proof
end

