-- ==== Sys2Proof/Syntax.lean ====
section
/-!
DEFINITION. The commands of the block, one constructor per row of spec/opcode_table.json, and the types of their operands.
-/
namespace Sys2Proof

/-- An Ohmette-36 core: a tile core or a hub core (R154). -/
inductive CoreId where
  | tile (t : Nat)
  | hub (c : Nat)
deriving DecidableEq, Repr

/-- A register block (R555, R558). The unit number selects one of several like blocks. -/
inductive Blk where
  | system | identity | window | fault | beat | place | hbm | dvorar | eth | sched | stash | cipher
  | mulch | cloche | firewall | sieve | host | plotStat | seq | tile | dvport
deriving DecidableEq, Repr

/-- Who accesses a register (R542): an indirect window, BAR0 of PF0, a core, the I3C target, a plot's BAR0. -/
inductive Req where
  | iw (w : Nat)
  | bar0
  | core (c : CoreId)
  | i3c
  | plotFn (f : Nat)
deriving DecidableEq, Repr

/-- Whose HBM access an error meets (R206). -/
inductive HbmReq where
  | row (t slot : Nat)
  | core (c : CoreId)
  | stream (t k : Nat)
  | scrub
deriving DecidableEq, Repr

/-- A Dvorar transport packet (R282). For an ACK, `addr` is the SACK bitmap. -/
structure DvPkt where
  op : Nat
  epoch : Nat
  last : Bool
  xlate : Bool
  src : Nat
  dst : Nat
  cn : Nat
  origin : Nat
  psn : Nat
  beat : Nat
  len : Nat
  addr : Nat
  space : Nat
  aux : Nat
  opid : Nat
  data : List Byte
deriving DecidableEq, Repr


/-- A member's placement block as the domain's fault manager reads it (R238, R239). `asked`: it has written PLACE_VALID 1 since
the last COMMIT tick. -/
structure Place where
  mid : Nat
  bed : Nat
  strips : Nat
  stretches : Nat
  strip : Nat
  stretch : Nat
  len : Nat
  spare : Option Nat
  asked : Bool
deriving DecidableEq, Repr

/-- What a member learns of its domain from the tick tree: at the close of formation, at a join, and when the tree is rebuilt
(R49-R52, R55). `delay` is TREE_DELAY, `time` the domain time, `period` in µs; `base` is the time and the beat from which the
schedule counts, `last` the time of the latest tick, and `debt` what DEBT, OVR_RUN and the standing of a persistent overrun are
(R84, R85). -/
structure DomInfo where
  parent : Option Nat
  children : List Nat
  depth : Nat
  treeDepth : Nat
  delay : Nat
  master : Nat
  members : List Nat
  standby : List Nat
  beat : Nat
  time : Nat
  period : Nat
  running : Bool
  halted : Bool
  attempt : Nat
  base : Nat × Nat := (0, 0)
  last : Nat := 0
  debt : Nat × Nat × Bool := (0, 0, false)
deriving DecidableEq, Repr

/-- What a JOIN symbol, or the answer to one, brings (R51). -/
inductive JoinMsg where
  /-- A request on its way to the master: the port it came by, DOMAIN_ID, MID_REQ, STANDBY_REQ; where the module would lie
  and its link delay from the master. -/
  | request (port dom mid : Nat) (standby : Bool) (depth delay : Nat)
  /-- The master has admitted this module. -/
  | admitted (info : DomInfo)
  /-- The master has refused it, with REFUSE_CAUSE. -/
  | refused (cause : Nat)
  /-- A member is told of a module that joins at the next tick: its MID, whether it is standby, and TREE_DELAY and the depth of the
  tree with it. -/
  | joining (mid : Nat) (standby : Bool) (delay depth : Nat)
deriving DecidableEq, Repr

/-- What the fault manager takes up (R445, R447). -/
inductive Report where
  /-- The n-th report that a unit of this module has raised; `committed`: a failing line or word was committed data that
  nothing refills. -/
  | waiting (n : Nat) (committed : Bool)
  /-- An error that a check corrected, by a Trellis resend too: unit, index, sub-index, check, address (R470). -/
  | corrected (unit index sub check addr : Nat)
  /-- A check of a tile fails outside the completion of a row: slot, check, line, and who read the line: 0 a row, 1 the tile's
  core, 2 a Furrow, 3 the exchange port (R96); `committed` as above. -/
  | tile (t slot check line req : Nat) (committed : Bool)
  /-- Register-file parity of a core. -/
  | coreRegs (c : CoreId)
  /-- A packet has failed parity at a router after 4 resends. -/
  | router (half x y : Nat)
  /-- A cipher core's copies disagree, or its parity fails (R434). -/
  | cipherCore (c : Nat)
  /-- An uncorrectable error of another unit. -/
  | unit (unit index sub check addr : Nat)
  /-- A copy of the log fails. -/
  | logCopy (c : Nat)
deriving DecidableEq, Repr

/-- What passes between a covered member and its spare (R456). -/
inductive MirrorMsg where
  /-- A mirrored write arrives at the spare. -/
  | write (addr : Nat) (bytes : List Byte)
  /-- The covered member's placement block and its open and frozen stream entries arrive at the spare: stream, entry, and the
  speculative records that the entry holds. -/
  | cover (place : Place) (ents : List (Nat × Nat × List Nat))
  /-- The spare has acknowledged a write of this member. -/
  | acked
deriving DecidableEq, Repr

/-- The end of a digest round, or of a sweep: at the master the digests of the other members (REP_BED index, strip, stretch,
digest) or the beds that failed there; at another member, what the master's fault manager has decided (R465, R466). -/
inductive BedMsg where
  | digests (ds : List (Nat × Nat × Nat × List Byte))
  | failed (beds : List Nat)
  | paused (beat : Nat)
  | resumed
  /-- BED_IDs of a pruned bed and of the bed that its homes move to. -/
  | pruned (bed home : Nat)
deriving DecidableEq, Repr

/-- How the copy of a tile to a spare ends (R450). -/
inductive CopyEnd where
  /-- Every line came across; the Furrow ring lines (stream, batch, line) that failed parity are to be delivered again. -/
  | good (ring : List (Nat × Nat × Nat))
  /-- An inbound PLAIN-window line failed parity. -/
  | inbound
  /-- Another line failed parity. -/
  | lost (line : Nat)
  /-- The spare itself faults: check, slot, line. -/
  | spareFault (check line : Nat)
deriving DecidableEq, Repr

/-! ## What drives say (spec/12) -/

/-- A drive that enumeration finds: port, rate (R418), lanes, BDF. -/
structure DriveInfo where
  port : Nat
  rate : Nat
  width : Nat
  bdf : Nat
deriving DecidableEq, Repr

/-- What a drive reports once its controller is enabled (R399): serial number, volatile write cache, log2 of MDTS, active
namespace list, Identify Controller data. -/
structure DriveId where
  serial : Nat
  vwc : Bool
  mdts : Nat
  nsids : List Nat
  identify : List Byte
deriving DecidableEq, Repr

/-- What a namespace reports (R400): metadata, data size, blocks, power-fail atomic write unit in blocks (NAWUPF + 1, or
AWUPF + 1), atomic boundary in blocks (NABSPF + 1, or 0 for none). -/
structure NsInfo where
  metadata : Bool
  size : Nat
  blocks : Nat
  unit : Nat
  boundary : Nat
deriving DecidableEq, Repr

/-! ## Boot and measurements from the outside (spec/17, spec/19) -/

/-- The three margin reads of one copy of a fuse word (R526); a word or copy that no entry names reads 0 at every margin. -/
structure FuseRead where
  word : Nat
  copy : Nat
  low : Nat
  nom : Nat
  high : Nat
deriving DecidableEq, Repr

/-- What the boot self-test finds (R42): words of TILE_WORKING, HBM_WORKING, words of PC_WORKING, bridge channels, hub ports. -/
structure SelfTest where
  tiles : List Nat
  hbm : Nat
  pcs : List Nat
  bridge : Nat
  hubports : Nat
deriving DecidableEq, Repr

/-! ## What Mulch engines say to each other (spec/15) -/

/-- CUT(c) with the slot and the volume of the checkpoint (0 A, 1 B), or a member's acknowledgement at the master (R479, R483). -/
inductive CutMsg where
  | cut (beat slot volume : Nat)
  | ack (mid : Nat)
deriving DecidableEq, Repr

/-- A page that may be written once (R482): its member and bed index, strip, stretch, page, digest. -/
structure PageDigest where
  mid : Nat
  bed : Nat
  strip : Nat
  stretch : Nat
  page : Nat
  digest : List Byte
deriving DecidableEq, Repr

/-- The digests of the other members at the master, or the master's assignment at another member: each page that another
image holds, with the writer's bed index, strip and stretch (R482). -/
inductive AssignMsg where
  | gathered (ps : List PageDigest)
  | assigned (refs : List (Nat × Nat × Nat × Nat))
deriving DecidableEq, Repr

/-- Who learns that an image is held (R481, R483, R484): this member, whose seal the neighbour has acknowledged; the master, of
another member; the neighbour, whose slot holds the image of `src` from a page of its HBM on, for a volume of its own. -/
inductive ImageMsg where
  | sealAcked
  | member (mid : Nat)
  | landed (src page len volume : Nat)
deriving DecidableEq, Repr

/-- Who learns that an image is durable (R483, R484): the neighbour, whose commands for the image of `src` have ended; this
member, of its own image; the master, of another member's. -/
inductive DurableMsg where
  | flushed (src : Nat)
  | image
  | member (mid : Nat)
deriving DecidableEq, Repr

/-- What a member learns with a COMMIT tick that its own state does not tell: CRIT_MID and CRIT_TILE (R85); at another member
than the master, whether the domain stops (R56) and a new period in µs (R86); the
placement blocks of the other members (R239); the streams whose HOME moves here from a pruned bed (R466). -/
structure TickInfo where
  critMid : Nat
  critTile : Nat
  stop : Bool
  period : Option Nat
  places : List Place
  homes : List Nat
deriving DecidableEq, Repr

/-- The offset of a lane instruction: of a short form in lanes, of a long form in bytes (R169, R171). -/
inductive LaneOff where
  | short (o : Nat)
  | long (imm : Nat)
deriving DecidableEq, Repr

/-- Whether the form is long. -/
def LaneOff.isLong : LaneOff → Bool
  | .short _ => false
  | .long _ => true

/-- The commands of the block: one constructor per row of spec/opcode_table.json. -/
inductive Instr where
  /-- R20: A write to a register field that has no behaviour of its own sets RW fields and ignores RO and RZ bits. -/
  | registerWrite (r : Req) (b : Blk) (unit : Nat) (off : Nat) (v : BitVec 32)
  /-- R539: A write to an SQ register clears its status bits only when the written sequence equals the current one. -/
  | sqStatusWrite (r : Req) (b : Blk) (unit : Nat) (off : Nat) (v : BitVec 32)
  /-- R538: A write to a set alias ORs the value into the RW fields in one indivisible read-modify-write. -/
  | aliasSet (r : Req) (b : Blk) (unit : Nat) (off : Nat) (v : BitVec 32)
  /-- R538: A write to a clear alias clears the given bits of the RW fields indivisibly. -/
  | aliasClear (r : Req) (b : Blk) (unit : Nat) (off : Nat) (v : BitVec 32)
  /-- R538: A write to a toggle alias inverts the given bits of the RW fields indivisibly. -/
  | aliasToggle (r : Req) (b : Blk) (unit : Nat) (off : Nat) (v : BitVec 32)
  /-- R540: A write to a TV field writes all three copies; fuse-reset TV fields ignore it. -/
  | tvFieldWrite (r : Req) (b : Blk) (unit : Nat) (off : Nat) (v : BitVec 32)
  /-- R540: Every 1 ms each TV field is voted, a minority copy is rewritten, and the disagreement is reported. -/
  | tvVoteScrub (b : Blk) (n : Nat) (idx : Nat)
  /-- R542: A read of the lower register of a wide counter pair captures the counter and latches its upper part for that requester. -/
  | counterPairLowRead (r : Req) (b : Blk) (unit : Nat) (off : Nat)
  /-- R42: The boot self-test completes and sets the working fields and SERVICE_LEVEL in one update. -/
  | bootSelfTestDone (halves : Nat) (t : SelfTest)
  /-- R50: Writing BEAT_CTRL.FORM starts formation of a beat domain with this module as founder. -/
  | form
  /-- R50: A FORM control symbol arrives and the receiver joins formation, taking its tree parent from the link. -/
  | formSymbol (port : Nat) (dom : Nat) (founder : Nat) (depth : Nat)
  /-- R49: 100 µs after the last join, formation closes and the domain-formed event is raised. -/
  | formationClose (info : Option DomInfo)
  /-- R51: A JOIN symbol reaches the master, which admits the module at the next tick or refuses it. -/
  | joinSymbol (m : JoinMsg)
  /-- R51: Writing JOIN_EN from 0 to 1 lets the module attempt to join again. -/
  | joinEnWrite (v : Bool)
  /-- R56: Writing BEAT_CTRL.RUN starts the domain, stops it at the next COMMIT tick, or resumes it with a RESTART tick. -/
  | runWrite (v : Bool)
  /-- R56: Writing BEAT_CTRL.DISSOLVE, here or at another member, ends a stopped or halted domain at every member. -/
  | dissolve
  /-- R86: Writing NEXT_PERIOD and PERIOD_AT schedules a period change at the first zero-debt tick at or after PERIOD_AT. -/
  | nextPeriodWrite (us : Nat) (at_ : Nat)
  /-- R57: A DONE symbol from a child arrives; a member reports DONE upward, and the master with all DONEs computes the application time and sends TICK. -/
  | doneSymbol (port : Nat) (beat : Nat)
  /-- R57: All DONE conditions of a member hold and it sends DONE(n) to its tree parent. -/
  | memberDoneReady
  /-- R58: A TICK symbol arrives at a member and is forwarded down the tick tree to await its application time. -/
  | tickSymbol (port : Nat) (beat : Nat) (kind : Nat) (time : Nat)
  /-- R60: At its application time the START tick of beat 0 swaps in the armed tables and starts the first beat. -/
  | startTick
  /-- R80: At its application time a COMMIT tick commits the beat's outputs, releases exports and tokens, advances BEATNO, and swaps armed banks. -/
  | commitTick (info : TickInfo)
  /-- R81: At its application time an ABORT tick restores LOGGED windows, discards exports and notes, zeroes counters and rewinds streams. -/
  | abortTick (cause : Nat) (halt : Option Nat)
  /-- R82: At its application time a RESTART tick replays the running tables of the current BEATNO without committing. -/
  | restartTick
  /-- R265: Every 1,024 fabric cycles a parent sends a TIME symbol on each tick-tree link. -/
  | timeDisciplineSend
  /-- R52: A TIME symbol arrives and the child disciplines its DTIME to its parent. -/
  | timeSymbol (port : Nat) (time : Nat)
  /-- R66: TBL_CMD ARM checks the next bank and, if it passes, sets ARMED and locks the bank. -/
  | arm (t : Nat)
  /-- R66: TBL_CMD ARM_SAME arms the running table again as the next table. -/
  | armSame (t : Nat)
  /-- R66: TBL_CMD DISARM clears ARMED if it reaches the sequencer before tile cycle 0 of the next tick. -/
  | disarm (t : Nat) (late : Bool)
  /-- R68: An ARM that becomes visible to a sequencer holding an open beat swaps the bank and starts the table within that beat. -/
  | armVisibleOpenBeat (t : Nat)
  /-- R100: A matrix row issues and computes D = A·B by anchored sums through pre-pass, value pass and drain. -/
  | matrixRow (t : Nat)
  /-- R107: A vector row issues and applies its VOP across COUNT elements in F36. -/
  | vectorRow (t : Nat)
  /-- R75: A move row issues and copies or converts lines between slices and HBM. -/
  | moveRow (t : Nat)
  /-- R76: An exchange row issues and sends bytes to another tile's slice over the Trellis or Dvorar. -/
  | exchangeRow (t : Nat)
  /-- R78: An anchor-exchange row issues and sends anchors or AP-160 partials for combining at the destination. -/
  | anchorExchangeRow (t : Nat)
  /-- R77: A wait row issues and holds later rows until its condition holds. -/
  | waitRow (t : Nat)
  /-- R92: A wait row's condition becomes true and the next row may issue 2 cycles later. -/
  | waitConditionMet (t : Nat)
  /-- R79: A mark row of kind NOTE queues its value for delivery at commit. -/
  | markNote (t : Nat)
  /-- R79: A mark row of kind EXPORT copies bytes into commit-gate staging, waiting while staging is full. -/
  | markExport (t : Nat)
  /-- R79: A mark row of kind STAMP writes BEATNO and its slot number to an output window. -/
  | markStamp (t : Nat)
  /-- R90: A matrix, vector or move row writes its last line or receives its last write acknowledgement and completes. -/
  | rowComplete (t : Nat) (slot : Nat) (chk : Nat) (line : Nat)
  /-- R110: The acknowledgement of an exchange or anchor-exchange row returns and the row completes. -/
  | exchangeAck (t : Nat) (slot : Nat)
  /-- R112: An inbound exchange packet is written into output windows, or discarded as table error 8, and the arrival counter advances. -/
  | exchangePacketArrive (n : Nat)
  /-- R111: A packet held because its BEATNO was ahead is written once the destination applies the matching tick. -/
  | heldPacketRelease (t : Nat) (n : Nat)
  /-- R147: An arriving anchor array entry is combined into the destination anchor by signed maximum. -/
  | anchorMaxCombine (n : Nat)
  /-- R147: An arriving AP-160 partial is aligned and added into the destination partial on the agreed anchor. -/
  | valueAddCombine (n : Nat)
  /-- R119: Writing PERF_CLR zeroes every performance counter and WRAP flag of the tile. -/
  | perfClr (t : Nat)
  /-- R169: Integer add. -/
  | add (c : CoreId) (long : Bool) (rd : Nat) (rs : Nat) (rt : Nat)
  /-- R169: Integer subtract. -/
  | sub (c : CoreId) (long : Bool) (rd : Nat) (rs : Nat) (rt : Nat)
  /-- R169: Bitwise AND. -/
  | and (c : CoreId) (long : Bool) (rd : Nat) (rs : Nat) (rt : Nat)
  /-- R169: Bitwise OR. -/
  | or (c : CoreId) (long : Bool) (rd : Nat) (rs : Nat) (rt : Nat)
  /-- R169: Bitwise XOR. -/
  | xor (c : CoreId) (long : Bool) (rd : Nat) (rs : Nat) (rt : Nat)
  /-- R174: Shift left by register amount. -/
  | shl (c : CoreId) (long : Bool) (rd : Nat) (rs : Nat) (rt : Nat)
  /-- R174: Logical shift right by register amount. -/
  | shr (c : CoreId) (long : Bool) (rd : Nat) (rs : Nat) (rt : Nat)
  /-- R174: Arithmetic shift right by register amount. -/
  | sar (c : CoreId) (long : Bool) (rd : Nat) (rs : Nat) (rt : Nat)
  /-- R174: Signed compare less than. -/
  | cmplt (c : CoreId) (long : Bool) (rd : Nat) (rs : Nat) (rt : Nat)
  /-- R174: Unsigned compare less than. -/
  | cmpltu (c : CoreId) (long : Bool) (rd : Nat) (rs : Nat) (rt : Nat)
  /-- R170: Integer multiply modulo 2^36. -/
  | mul (c : CoreId) (long : Bool) (rd : Nat) (rs : Nat) (rt : Nat)
  /-- R170: High part of the signed 72-bit product. -/
  | mulhi (c : CoreId) (rd : Nat) (rs : Nat) (rt : Nat)
  /-- R170: High part of the unsigned 72-bit product. -/
  | mulhiu (c : CoreId) (rd : Nat) (rs : Nat) (rt : Nat)
  /-- R174: Signed division, with IQF on zero divisor or overflow. -/
  | div (c : CoreId) (rd : Nat) (rs : Nat) (rt : Nat)
  /-- R174: Unsigned division, with IQF on zero divisor. -/
  | divu (c : CoreId) (rd : Nat) (rs : Nat) (rt : Nat)
  /-- R174: Signed remainder. -/
  | rem (c : CoreId) (rd : Nat) (rs : Nat) (rt : Nat)
  /-- R174: Unsigned remainder. -/
  | remu (c : CoreId) (rd : Nat) (rs : Nat) (rt : Nat)
  /-- R170: Signed minimum. -/
  | min (c : CoreId) (long : Bool) (rd : Nat) (rs : Nat) (rt : Nat)
  /-- R170: Signed maximum. -/
  | max (c : CoreId) (long : Bool) (rd : Nat) (rs : Nat) (rt : Nat)
  /-- R170: Unsigned minimum. -/
  | minu (c : CoreId) (rd : Nat) (rs : Nat) (rt : Nat)
  /-- R170: Unsigned maximum. -/
  | maxu (c : CoreId) (rd : Nat) (rs : Nat) (rt : Nat)
  /-- R170: Count leading zeros. -/
  | clz (c : CoreId) (rd : Nat) (rs : Nat)
  /-- R170: Count one bits. -/
  | popc (c : CoreId) (rd : Nat) (rs : Nat)
  /-- R170: Multiply and add modulo 2^36. -/
  | madd (c : CoreId) (rd : Nat) (rs : Nat) (rt : Nat) (ru : Nat)
  /-- R170: Add sign-extended immediate. -/
  | addi (c : CoreId) (long : Bool) (rd : Nat) (rs : Nat) (imm : Nat)
  /-- R170: Load sign-extended immediate. -/
  | movi (c : CoreId) (long : Bool) (rd : Nat) (imm : Nat)
  /-- R170: AND with zero-extended immediate. -/
  | andi (c : CoreId) (long : Bool) (rd : Nat) (rs : Nat) (imm : Nat)
  /-- R170: OR with zero-extended immediate. -/
  | ori (c : CoreId) (long : Bool) (rd : Nat) (rs : Nat) (imm : Nat)
  /-- R170: XOR with zero-extended immediate. -/
  | xori (c : CoreId) (rd : Nat) (rs : Nat) (imm : Nat)
  /-- R170: Signed compare with immediate. -/
  | cmplti (c : CoreId) (long : Bool) (rd : Nat) (rs : Nat) (imm : Nat)
  /-- R170: Unsigned compare with immediate. -/
  | cmpltiu (c : CoreId) (rd : Nat) (rs : Nat) (imm : Nat)
  /-- R170: Shift left by immediate. -/
  | shli (c : CoreId) (long : Bool) (rd : Nat) (rs : Nat) (imm : Nat)
  /-- R170: Logical shift right by immediate. -/
  | shri (c : CoreId) (long : Bool) (rd : Nat) (rs : Nat) (imm : Nat)
  /-- R170: Arithmetic shift right by immediate. -/
  | sari (c : CoreId) (long : Bool) (rd : Nat) (rs : Nat) (imm : Nat)
  /-- R170: Add immediate to sp. -/
  | addsp (c : CoreId) (imm : Nat)
  /-- R170: Load immediate into bits [35:15]. -/
  | ldhi (c : CoreId) (rd : Nat) (imm : Nat)
  /-- R170: PC plus immediate into a register. -/
  | pcrel (c : CoreId) (rd : Nat) (imm : Nat)
  /-- R171: Load a private-memory word. -/
  | ldw (c : CoreId) (long : Bool) (rd : Nat) (rs : Nat) (imm : Nat)
  /-- R171: Store a private-memory word. -/
  | stw (c : CoreId) (long : Bool) (rd : Nat) (rs : Nat) (imm : Nat)
  /-- R169: Load a word at sp plus offset. -/
  | spwLoad (c : CoreId) (r : Nat) (off : Nat)
  /-- R169: Store a word at sp plus offset. -/
  | spwStore (c : CoreId) (r : Nat) (off : Nat)
  /-- R163: Load an external lane, zero-extended. -/
  | ldl (c : CoreId) (rd : Nat) (rs : Nat) (off : LaneOff)
  /-- R163: Load an external lane, sign-extended. -/
  | ldls (c : CoreId) (rd : Nat) (rs : Nat) (off : LaneOff)
  /-- R164: Posted store of an external lane. -/
  | stl (c : CoreId) (rd : Nat) (rs : Nat) (off : LaneOff)
  /-- R176: Load a binary32 lane and convert exactly to F36. -/
  | ldf (c : CoreId) (rd : Nat) (rs : Nat) (imm : Nat)
  /-- R176: Round F36 to binary32 and store a lane. -/
  | stf (c : CoreId) (rd : Nat) (rs : Nat) (imm : Nat)
  /-- R171: Atomic add to an external lane. -/
  | atadd (c : CoreId) (rd : Nat) (rs : Nat) (rt : Nat)
  /-- R171: Atomic swap of an external lane. -/
  | atswap (c : CoreId) (rd : Nat) (rs : Nat) (rt : Nat)
  /-- R171: Atomic compare and swap of an external lane. -/
  | atcas (c : CoreId) (rd : Nat) (rs : Nat) (rt : Nat) (ru : Nat)
  /-- R179: Restartable block load from external space into private memory with conversion to F36. -/
  | blkld (c : CoreId) (rd : Nat) (rs : Nat) (rt : Nat) (ru : Nat) (upto : Nat)
  /-- R179: Restartable block store from private memory into external space with rounding. -/
  | blkst (c : CoreId) (rd : Nat) (rs : Nat) (rt : Nat) (ru : Nat) (upto : Nat)
  /-- R179: Restartable word copy within private memory. -/
  | wcopy (c : CoreId) (rd : Nat) (rs : Nat) (rt : Nat) (upto : Nat)
  /-- R169: No operation. -/
  | nop (c : CoreId)
  /-- R169: Register move. -/
  | mov (c : CoreId) (rd : Nat) (rs : Nat)
  /-- R169: Integer negate. -/
  | neg (c : CoreId) (rd : Nat) (rs : Nat)
  /-- R169: Bitwise complement. -/
  | not (c : CoreId) (rd : Nat) (rs : Nat)
  /-- R177: Pop the return address and jump, or trap STACK. -/
  | ret (c : CoreId)
  /-- R177: Push the return address and jump to a register. -/
  | callr (c : CoreId) (rs : Nat)
  /-- R169: Jump to a register. -/
  | jr (c : CoreId) (rs : Nat)
  /-- R177: Push a register on the stack. -/
  | push (c : CoreId) (rs : Nat)
  /-- R177: Pop a register from the stack. -/
  | pop (c : CoreId) (rd : Nat)
  /-- R164: Retire only when every earlier external access is acknowledged. -/
  | fence (c : CoreId)
  /-- R169: Branch on a comparison of a register with zero. -/
  | bcz (c : CoreId) (cond : Nat) (rs : Nat) (off : Nat)
  /-- R169: Unconditional relative branch. -/
  | br (c : CoreId) (off : Nat)
  /-- R172: Compare equal and branch. -/
  | cbeq (c : CoreId) (rd : Nat) (rs : Nat) (imm : Nat)
  /-- R172: Compare not equal and branch. -/
  | cbne (c : CoreId) (rd : Nat) (rs : Nat) (imm : Nat)
  /-- R172: Compare signed less than and branch. -/
  | cblt (c : CoreId) (rd : Nat) (rs : Nat) (imm : Nat)
  /-- R172: Compare signed greater or equal and branch. -/
  | cbge (c : CoreId) (rd : Nat) (rs : Nat) (imm : Nat)
  /-- R172: Compare unsigned less than and branch. -/
  | cbltu (c : CoreId) (rd : Nat) (rs : Nat) (imm : Nat)
  /-- R172: Compare unsigned greater or equal and branch. -/
  | cbgeu (c : CoreId) (rd : Nat) (rs : Nat) (imm : Nat)
  /-- R172: Relative jump. -/
  | j (c : CoreId) (imm : Nat)
  /-- R177: Push the return address and jump relative. -/
  | call (c : CoreId) (imm : Nat)
  /-- R172: Read a system register. -/
  | mfs (c : CoreId) (rd : Nat) (info : Nat)
  /-- R172: Write a system register. -/
  | mts (c : CoreId) (rs : Nat) (info : Nat)
  /-- R186: A read of MSGVAL pops the oldest message from the core's queue. -/
  | msgvalPop (c : CoreId) (rd : Nat)
  /-- R197: Writing CTRCTL.CLR zeroes all core counters and their WRAP bits. -/
  | ctrctlClr (c : CoreId) (rs : Nat)
  /-- R172: Set bits of cw. -/
  | cwset (c : CoreId) (imm : Nat)
  /-- R172: Clear bits of cw. -/
  | cwclr (c : CoreId) (imm : Nat)
  /-- R172: Take vector TRAP with TVAL from the immediate. -/
  | trap (c : CoreId) (imm : Nat)
  /-- R183: Return from a handler, restoring PC, cw and cont. -/
  | eret (c : CoreId)
  /-- R172: Wait until an enabled interrupt is pending. -/
  | wfi (c : CoreId)
  /-- R175: F36 add. -/
  | fadd (c : CoreId) (long : Bool) (rd : Nat) (rs : Nat) (rt : Nat)
  /-- R175: F36 subtract. -/
  | fsub (c : CoreId) (long : Bool) (rd : Nat) (rs : Nat) (rt : Nat)
  /-- R175: F36 multiply. -/
  | fmul (c : CoreId) (long : Bool) (rd : Nat) (rs : Nat) (rt : Nat)
  /-- R175: F36 divide. -/
  | fdiv (c : CoreId) (rd : Nat) (rs : Nat) (rt : Nat)
  /-- R175: F36 square root. -/
  | fsqrt (c : CoreId) (rd : Nat) (rs : Nat)
  /-- R173: F36 fused multiply-add. -/
  | fma (c : CoreId) (rd : Nat) (rs : Nat) (rt : Nat) (ru : Nat)
  /-- R173: F36 minimum. -/
  | fmin (c : CoreId) (long : Bool) (rd : Nat) (rs : Nat) (rt : Nat)
  /-- R173: F36 maximum. -/
  | fmax (c : CoreId) (long : Bool) (rd : Nat) (rs : Nat) (rt : Nat)
  /-- R173: F36 negate. -/
  | fneg (c : CoreId) (long : Bool) (rd : Nat) (rs : Nat)
  /-- R173: F36 absolute value. -/
  | fabs (c : CoreId) (long : Bool) (rd : Nat) (rs : Nat)
  /-- R173: F36 compare with unordered result 3. -/
  | fcmp (c : CoreId) (rd : Nat) (rs : Nat) (rt : Nat)
  /-- R175: Convert int36 to F36. -/
  | fcvtfi (c : CoreId) (rd : Nat) (rs : Nat)
  /-- R175: Convert uint36 to F36. -/
  | fcvtfu (c : CoreId) (rd : Nat) (rs : Nat)
  /-- R175: Convert F36 to int36 truncating. -/
  | fcvtif (c : CoreId) (rd : Nat) (rs : Nat)
  /-- R175: Convert F36 to int36 rounding to nearest even. -/
  | fcvtifr (c : CoreId) (rd : Nat) (rs : Nat)
  /-- R175: Convert F36 to uint36 truncating. -/
  | fcvtuf (c : CoreId) (rd : Nat) (rs : Nat)
  /-- R176: Round F36 into a narrower format encoding. -/
  | fpack (c : CoreId) (rd : Nat) (rs : Nat) (fmt : Nat) (sat : Bool)
  /-- R176: Convert a narrow format encoding exactly to F36. -/
  | funpack (c : CoreId) (rd : Nat) (rs : Nat) (fmt : Nat) (sat : Bool)
  /-- R178: Table interpolation of one value. -/
  | tli (c : CoreId) (rd : Nat) (rs : Nat) (rt : Nat)
  /-- R179: Restartable table interpolation over an array. -/
  | tliv (c : CoreId) (rd : Nat) (rs : Nat) (rt : Nat) (ru : Nat) (upto : Nat)
  /-- R183: A synchronous trap saves EPC, ECW, ECONT and CAUSE and enters its vector. -/
  | trapEntry (c : CoreId) (n : Nat) (long : Bool) (tval : BitVec 36)
  /-- R184: A pending enabled interrupt is taken at an instruction or granule boundary. -/
  | interruptEntry (c : CoreId)
  /-- R186: The core TIMER reaches zero and TIMER becomes pending. -/
  | timerExpire (c : CoreId)
  /-- R186: A write to MSG_IN queues a message or is refused when the queue is full. -/
  | msgInWrite (src : Req) (dst : CoreId) (v : Nat)
  /-- R203: A write of CACHE_CTRL SIZE or a CRANGE register takes effect at the next tick and empties the cache. -/
  | cacheCtrlWrite (t : Nat) (r : Nat) (v : BitVec 32)
  /-- R203: Writing CACHE_CTRL.INV empties the cache at the next tick. -/
  | cacheInv (t : Nat)
  /-- R202: A cache miss fetches a 256-byte line from HBM and then serves the access. -/
  | cacheMissFill (t : Nat) (a : Nat)
  /-- R210: HBM_CTRL.APPLY installs MODE and SPARES, or sets APPLY_ERR. -/
  | hbmApply
  /-- R206: The controller corrects a single-bit error or reports an uncorrectable or parity error and fails the access. -/
  | hbmEccError (a : Nat) (kind : Nat) (req : HbmReq)
  /-- R215: A per-bank refresh falls due and runs. -/
  | hbmRefresh (st : Nat) (pc : Nat)
  /-- R216: A pseudo-channel's reserved slot opens and performs SLOT_OPS background operations. -/
  | reservedSlot (st : Nat) (pc : Nat) (cal : Bool)
  /-- R217: A scrub reads a stretch, corrects it and writes corrections back unless a foreground write intervened. -/
  | scrubOperation (st : Nat) (pc : Nat) (fixed : Nat)
  /-- R215: An idle pseudo-channel scrubs one 64-byte burst. -/
  | opportunisticScrub (st : Nat) (pc : Nat) (fixed : Nat)
  /-- R216: While no domain runs, each IDLE_PERIOD_US boundary stands in for a beat for slots, windows and lease counts. -/
  | idlePeriodTick
  /-- R222: Writing a stream's EN enables it at the next tick, cancels a pending enable, ends it, or returns it to idle. -/
  | furrowEn (t : Nat) (k : Nat) (on : Bool)
  /-- R222: Writing a stream's STOP ends a live stream at the next tick. -/
  | furrowStop (t : Nat) (k : Nat)
  /-- R223: A prefetcher issues the next chunk request of its eligible batch as its share allows. -/
  | furrowRequestIssue (t : Nat) (pf : Nat)
  /-- R224: A requested line lands in the ring, or the stream takes error 5 or 6. -/
  | furrowLineLand (t : Nat) (k : Nat) (b : Nat) (info : Nat) (res : Nat)
  /-- R239: Writing PLACE_VALID to 1 requests the placement check at the next COMMIT tick. -/
  | placeValidWrite (v : Bool)
  /-- R261: A flit arrives, is corrected and CRC-checked, and its packets are delivered or relayed and its symbol acted on. -/
  | flitRx (port : Nat) (bytes : List Byte) (fixed : List (Nat × Byte))
  /-- R262: A NAK arrives and the sender resends from the named FSEQ, retraining after four NAKs of one FSEQ. -/
  | nakSymbol (port : Nat) (fseq : Nat)
  /-- R267: A CREDIT symbol returns freed buffers of a virtual channel to the sender. -/
  | creditSymbol (port : Nat) (vc : Nat) (cum : Nat)
  /-- R272: An LSTATE symbol updates the link map, is flooded on, and may trigger route recomputation. -/
  | lstateSymbol (port : Nat) (mid : Nat) (of_ : Nat) (up : Bool) (seq : Nat)
  /-- R280: Every 8 µs the master sends PROBE to every active member. -/
  | probeSend
  /-- R280: A PROBE arrives and the target's fault manager answers or forwards it. -/
  | probeSymbol (port : Nat) (target : Nat) (origin : Nat) (tag : Nat)
  /-- R280: A PROBE_REPLY arrives and the master notes the member as reachable. -/
  | probeReply (port : Nat) (target : Nat) (origin : Nat) (tag : Nat)
  /-- R280: A PROBE goes unanswered within 8 µs; after two, the member is unreachable. -/
  | probeTimeout (mid : Nat)
  /-- R54: A member becomes unreachable; the beat aborts or commits, and the member-lost event is raised. -/
  | memberLost (lost : List (Nat × Option Nat)) (tree : Option DomInfo)
  /-- R277: A LANE_DROP request or confirm arrives and both ends move to the new lane mask. -/
  | laneDropSymbol (port : Nat) (mask : Nat) (confirm : Bool)
  /-- R277: After deskew on the remaining lanes, flits resume with a replay of unacknowledged data flits. -/
  | laneDeskewDone (port : Nat)
  /-- R277: A lane loses lock and the fault manager retires it. -/
  | laneLockLost (port : Nat) (lane : Nat)
  /-- R277: At the end of each 1 ms window, a lane whose corrected count exceeds LANE_CE_LIMIT is retired. -/
  | laneCeWindow (port : Nat)
  /-- R275: A NEG word arrives during NEGOTIATE. -/
  | negSymbol (port : Nat) (idx : Nat) (word : Nat)
  /-- R275: Both ends of an enabled link see signal and training starts. -/
  | linkSignalDetect (port : Nat)
  /-- R276: Negotiation ends with the link UP or in NOMATCH, raising link-up or negotiation-failed. -/
  | negotiationComplete (port : Nat) (delay : Nat)
  /-- R279: No flit passes CRC for 4 µs and the link retrains. -/
  | linkTimeout (port : Nat)
  /-- R279: Writing RETRAIN retrains the link. -/
  | retrain (port : Nat)
  /-- R279: A retrain not UP within 40 µs fails; after three failures the link retires. -/
  | retrainTimeout (port : Nat)
  /-- R272: Writing ROUTE_CTRL.SWAP makes the other routing bank active at the next tick. -/
  | routeSwap
  /-- R285: A transport WRITE packet arrives and is held, applied or discarded as a duplicate. -/
  | dvWrite (n : Nat)
  /-- R283: A transport EXCH packet arrives and is applied to the destination tile. -/
  | dvExch (n : Nat)
  /-- R283: A COMBINE_ANCHOR packet arrives and its anchors are combined at the destination. -/
  | combineAnchor (n : Nat)
  /-- R283: A COMBINE_VALUE packet arrives and its partials are added at the destination. -/
  | combineValue (n : Nat)
  /-- R287: A READ packet arrives and is performed after earlier packets, answered by READ_RESP. -/
  | dvRead (n : Nat)
  /-- R287: A READ_RESP packet arrives with read data or an error. -/
  | dvReadResp (n : Nat)
  /-- R285: An ACK packet advances the cumulative PSN and SACK state and may trigger fast retransmission. -/
  | dvAck (n : Nat)
  /-- R291: A PAGE_WAIT packet stops the RTO of the stalled PSN. -/
  | dvPageWait (n : Nat)
  /-- R291: A PAGE_RETRY packet tells the sender to resend from a PSN after RESEND_DELAY. -/
  | dvPageRetry (n : Nat)
  /-- R288: A NACK_ERR packet ends the operation with its cause. -/
  | dvNackErr (n : Nat)
  /-- R285: Within 1 µs of any packet applied, the receiver sends an ACK. -/
  | ackTimer (src : Nat) (origin : Nat) (cn : Nat)
  /-- R285: A connection's RTO expires, the packet is retransmitted and RTO doubles; at RETRY_LIMIT the connection errs. -/
  | rtoExpire (origin : Nat) (cn : Nat)
  /-- R285: A READ without response an RTO after its PSN was applied is sent again with a new PSN. -/
  | readRespTimeout (origin : Nat) (cn : Nat) (psn : Nat)
  /-- R291: 20 µs after a translation miss the target discards the connection's packets and sends PAGE_RETRY. -/
  | pageWaitTimeout (src : Nat) (origin : Nat) (cn : Nat)
  /-- R291: The paging service makes the translation valid and the stalled packet is performed. -/
  | pageResolved (src : Nat) (origin : Nat) (cn : Nat)
  /-- R291: RESEND_DELAY after PAGE_RETRY the sender resends from that PSN. -/
  | resendDelayExpire (origin : Nat) (cn : Nat)
  /-- R299: An Ethernet frame's last byte arrives and it is accepted into the ingress buffer or dropped. -/
  | frameRx (p : Nat) (bytes : List Byte) (phy : Bool)
  /-- R301: A Sieve pass starts, parses, looks up, scans, combines actions and hands the frame to its disposition. -/
  | sievePass (p : Nat) (par : Option (Nat × Nat))
  /-- R310: Writing GO checks the shadow configuration and swaps banks at a pass boundary. -/
  | sieveGo (mask : Nat) (cfg : Bool)
  /-- R310: Passes on the old banks end, BUSY clears and SWAP_DONE is set. -/
  | sieveSwapComplete
  /-- R308: Writing a table's EN checks its descriptor and banks or sets TBL_ERR. -/
  | tableEnWrite (t : Nat) (en : Bool) (units : Nat) (log2 : Nat)
  /-- R319: Writing SNAP copies a counter into the snapshot registers, clearing it if CNT_CLR. -/
  | snap (info : Nat) (clr : Bool)
  /-- R297: A write of PORT_MODE takes effect only while every port is disabled. -/
  | portModeWrite (m : Nat)
  /-- R345: Writing PORT_EN enables ports or discards queued frames of disabled ports. -/
  | portEnWrite (v : Nat)
  /-- R325: A port's PCS and FEC lock and training ends, raising the port-up event. -/
  | ethPortUp (p : Nat)
  /-- R345: An enabled port loses lock, its queued frames are discarded and the port-down event is raised. -/
  | ethPortDown (p : Nat)
  /-- R330: OPEN checks and loads an Ethernet context and sets it open. -/
  | ctxOpen (k : Nat) (mr : Bool)
  /-- R330: CLOSE closes a context and ends its operations with cause 7. -/
  | ctxClose (k : Nat) (mr : Bool)
  /-- R330: CLEAR returns a context in error to closed. -/
  | ctxClear (k : Nat) (mr : Bool)
  /-- R332: A UDP transport WRITE is checked against the region table and applied. -/
  | udpWrite (q : Nat)
  /-- R335: A UDP transport READ is checked and answered by READ_RESP packets. -/
  | udpRead (q : Nat)
  /-- R335: A UDP transport READ_RESP arrives with data or error. -/
  | udpReadResp (q : Nat)
  /-- R335: A UDP transport SEND is delivered to the next posted receive buffer. -/
  | udpSend (q : Nat)
  /-- R338: A UDP transport ACK advances the PSN state and counts CE_SEEN into CE_ECHOES. -/
  | udpAck (q : Nat)
  /-- R337: A UDP transport PAGE_WAIT stops the RTO of a PSN. -/
  | udpPageWait (q : Nat)
  /-- R337: A UDP transport PAGE_RETRY orders a resend from a PSN. -/
  | udpPageRetry (q : Nat)
  /-- R339: A UDP transport NACK_ERR ends an operation with its cause. -/
  | udpNackErr (q : Nat)
  /-- R337: An Ethernet connection's RTO expires and it retransmits or enters error. -/
  | rtoExpireE (k : Nat)
  /-- R341: A RoCEv2 SEND packet arrives and fills a buffer or draws an RNR NAK. -/
  | roceSend (q : Nat)
  /-- R341: A RoCEv2 RDMA WRITE packet is checked against the region and applied. -/
  | roceRdmaWrite (q : Nat)
  /-- R340: A RoCEv2 RDMA READ Request is answered by READ Response packets. -/
  | roceRdmaReadRequest (q : Nat)
  /-- R340: A RoCEv2 RDMA READ Response packet arrives. -/
  | roceReadResponse (q : Nat)
  /-- R340: A RoCEv2 Acknowledge or NAK arrives and advances or retries the queue pair. -/
  | roceAcknowledge (q : Nat)
  /-- R342: A CNP arrives and CE_ECHOES advances. -/
  | roceCnp (q : Nat)
  /-- R340: After an RNR NAK the requester retries once the RNR timer expires. -/
  | roceRnrTimer (k : Nat)
  /-- R346: A port ready to begin a frame chooses a queue by strict priority then finish tag. -/
  | schedDecision (p : Nat)
  /-- R343: A frame is queued on an egress queue, marked for ECN or dropped at QLIM. -/
  | egressEnqueue (n : Nat)
  /-- R343: A frame's last byte leaves the port and frees its egress buffer space. -/
  | frameTxDone (p : Nat)
  /-- R349: Every 75 hub cycles each shaper and policer adds RATE units. -/
  | shaperRefill
  /-- R352: Writing SHP_BURST applies staged RATE, BURST and MODE and resets the count by FILL. -/
  | shpBurstWrite (p : Nat) (q : Nat) (burst : Nat) (mode : Nat) (fill : Bool)
  /-- R351: Writing PEN claims or frees a bucket unit, switching its queue's FALLBACK. -/
  | policerPenWrite (p : Nat) (m : Nat) (unit : Nat) (pen : Bool) (rate : Nat)
  /-- R369: A ring doorbell write replaces the ring's latest-doorbell register. -/
  | ringDoorbell (fn : Nat) (r : Nat) (v : Nat)
  /-- R369: The hub samples a rung doorbell and accepts the PI, ignores it as stale, or records ring error 1. -/
  | doorbellSample (fn : Nat) (r : Nat)
  /-- R370: An event-queue doorbell advances CI and releases held records. -/
  | eqDoorbell (fn : Nat) (q : Nat) (v : Nat)
  /-- R365: The Preton fetches a batch of descriptors of a ring, or records ring error 2 on a PCIe error. -/
  | descriptorFetch (fn : Nat) (r : Nat) (ds : Option (List (List Byte)))
  /-- R366: A TX descriptor queues a frame on the ring's port and queue. -/
  | sendFrame (fn : Nat) (r : Nat) (dma : List Byte)
  /-- R366: An RX descriptor posts a receive buffer. -/
  | postBuf (fn : Nat) (r : Nat)
  /-- R366: An XFER WRITE descriptor starts a transport write. -/
  | xferWrite (fn : Nat) (r : Nat) (dma : List Byte)
  /-- R366: An XFER READ descriptor starts a transport read. -/
  | xferRead (fn : Nat) (r : Nat)
  /-- R366: An XFER SEND descriptor starts a transport SEND. -/
  | xferSend (fn : Nat) (r : Nat) (dma : List Byte)
  /-- R366: A DMA COPY descriptor copies bytes in ascending address order. -/
  | copy (fn : Nat) (r : Nat) (n : Nat) (dma : List Byte)
  /-- R367: A descriptor's work ends and its completion record is written to its event queue. -/
  | descriptorComplete (fn : Nat) (r : Nat) (info : Nat)
  /-- R374: MOD_TIME after the first unsignalled record, the queue's MSI-X message is sent. -/
  | msixModTimer (fn : Nat) (q : Nat)
  /-- R374: Unmasking a vector with its PBA bit set sends the message. -/
  | msixUnmask (fn : Nat) (v : Nat) (masked : Bool) (addr : Nat) (data : Nat)
  /-- R379: A staged delivery is accepted by its destination and the next delivery of the channel proceeds. -/
  | exportDeliver (ch : Nat)
  /-- R382: Writing MR_DB hands new management requests to the firmware. -/
  | mrDb (count : Nat) (writes : List (Nat × List Byte))
  /-- R383: Makes an absent plot READY. -/
  | plotCreate
  /-- R383: Installs or removes an HBM grant of a plot. -/
  | hbmGrant
  /-- R383: Creates a ring of a function. -/
  | ringCreate
  /-- R383: Destroys a ring whose fetched descriptors completed. -/
  | ringDestroy
  /-- R383: Returns a ring in error to service. -/
  | ringReset
  /-- R383: Creates an event queue. -/
  | eqCreate
  /-- R383: Destroys an event queue that no ring names. -/
  | eqDestroy
  /-- R246: Writes a closed or errored stream-table entry. -/
  | streamWrite
  /-- R378: Sets an export channel entry after checking it. -/
  | channelSet
  /-- R383: Writes a remote region table entry. -/
  | regionSet
  /-- R383: Writes an Ethernet context in state closed. -/
  | ctxWrite
  /-- R383: Opens a programmed Dvorar connection. -/
  | dconnOpen
  /-- R383: Closes a programmed Dvorar connection, ending operations with cause 7. -/
  | dconnClose
  /-- R385: Starts the quiesce protocol of a READY plot. -/
  | plotQuiesce
  /-- R385: At TIMEOUT_MS every still-running descriptor of the plot ends with cause 11. -/
  | quiesceTimeout (p : Nat)
  /-- R390: Freezes a quiesced plot and discards its held out-of-order packets. -/
  | plotFreeze
  /-- R391: Writes a frozen plot's state image. -/
  | plotSave
  /-- R392: Re-creates a plot from a state image, or rejects it. -/
  | plotRestore (dma : List Byte)
  /-- R387: Returns a quiesced or frozen plot to READY. -/
  | plotResume
  /-- R387: Removes a plot and releases its resources. -/
  | plotRemove
  /-- R384: A plot rings its mailbox doorbell and a mailbox-request event goes to the manager. -/
  | mbDb (p : Nat)
  /-- R384: The manager rings the reply doorbell and a mailbox-reply event goes to the plot. -/
  | mbReplyDb (p : Nat)
  /-- R388: An FLR of a plot quiesces it with a 90 ms timeout and removes it. -/
  | flrPlot (p : Nat)
  /-- R389: An FLR of PF0 acts as an FLR on every plot and ends the manager's ring work. -/
  | flrPf0
  /-- R359: Clearing VF Enable or lowering NumVFs acts on each vanished plot as an FLR. -/
  | vfDisable (n : Nat)
  /-- R400: Attaches a namespace to a slot after checks. -/
  | stashAttach (ns : Option NsInfo)
  /-- R417: Detaches a namespace slot. -/
  | stashDetach
  /-- R401: Sets or removes a Stash volume. -/
  | volumeSet
  /-- R397: Re-enumerates the root ports and drives. -/
  | stashRescan (mr : Bool) (found : List DriveInfo)
  /-- R417: Writes a drive's Identify Controller data to the data area. -/
  | stashIdentify
  /-- R404: A Stash READ descriptor is checked and cut into pieces. -/
  | stashRead (fn : Nat) (r : Nat)
  /-- R404: A Stash WRITE descriptor is checked and cut into pieces. -/
  | stashWrite (fn : Nat) (r : Nat)
  /-- R404: A Stash ZERO descriptor is checked and cut into Write Zeroes pieces. -/
  | stashZero (fn : Nat) (r : Nat)
  /-- R408: A Stash FLUSH waits for earlier writes and sends an NVMe Flush. -/
  | stashFlush (fn : Nat) (r : Nat)
  /-- R407: The arbiter submits the next permitted piece to a drive with room. -/
  | pieceSubmit (d : Nat) (dma : List Byte)
  /-- R411: A drive posts a piece's completion and the command completes when its pieces have ended. -/
  | pieceComplete (cmd : Nat) (idx : Nat) (sct : Nat) (sc : Nat) (data : List Byte) (par : Bool)
  /-- R413: A piece outstanding for CMD_TIMEOUT_MS is aborted and fails with cause 20. -/
  | pieceTimeout (cmd : Nat) (idx : Nat)
  /-- R413: An NVMe Abort not complete within 1 s resets the drive's controller. -/
  | abortTimeout (d : Nat)
  /-- R412: A drive's link goes down or it reports fatal status; its pieces fail with cause 18. -/
  | driveFail (d : Nat) (cause : Nat)
  /-- R399: A drive completes initialisation and the drive-ready event is raised. -/
  | driveReady (d : Nat) (x : DriveId)
  /-- R409: Writing Stash MODE changes the completion rule for later pieces. -/
  | stashModeWrite (m : Nat)
  /-- R410: After FORCE 0 pieces complete and flushes finish, MODE_CUR becomes SERVICE. -/
  | stashServiceFlushed
  /-- R429: AES-256-GCM encryption with tag. -/
  | gcmEnc (c : Nat) (pay : List Byte) (aad : List Byte) (cut : Option Nat)
  /-- R432: Two-pass GCM decryption releasing plaintext only on a matching tag. -/
  | gcmDec (c : Nat) (pay : List Byte) (aad : List Byte) (again : List Byte) (cut : Option Nat)
  /-- R429: GMAC tag generation. -/
  | gmacGen (c : Nat) (pay : List Byte) (cut : Option Nat)
  /-- R431: GMAC tag verification. -/
  | gmacVer (c : Nat) (pay : List Byte) (tag : List Byte) (cut : Option Nat)
  /-- R429: CMAC tag generation. -/
  | cmacGen (c : Nat) (pay : List Byte) (cut : Option Nat)
  /-- R431: CMAC tag verification. -/
  | cmacVer (c : Nat) (pay : List Byte) (tag : List Byte) (cut : Option Nat)
  /-- R423: The scheduler assigns a free core a pending command. -/
  | cipherAssign
  /-- R433: A cipher command ends and its result or completion record is written. -/
  | cipherComplete (c : Nat) (parity : Bool)
  /-- R437: Writing GO starts a register-mode command for the lock owner, or is ignored or refused. -/
  | cipherGo (w : Nat)
  /-- R436: A requester claims the cipher lock. -/
  | claim (w : Nat)
  /-- R436: The owner renews its lease. -/
  | renew (w : Nat)
  /-- R436: The owner releases the lock. -/
  | release (w : Nat)
  /-- R436: The lease expires when LCLK − STAMP reaches LEASE_BEATS with no command running. -/
  | lockExpire
  /-- R439: The signing unit derives the attestation key and signs the digest. -/
  | sign (w : Nat)
  /-- R441: Writes a label table entry. -/
  | labelSet
  /-- R441: Passes an SPDM request to the responder and returns its response. -/
  | spdmRelay
  /-- R440: SPDM GET_VERSION request. -/
  | getVersion (req : List Byte)
  /-- R440: SPDM GET_CAPABILITIES request. -/
  | getCapabilities (req : List Byte)
  /-- R440: SPDM NEGOTIATE_ALGORITHMS request. -/
  | negotiateAlgorithms (req : List Byte)
  /-- R440: SPDM GET_DIGESTS request. -/
  | getDigests (req : List Byte)
  /-- R440: SPDM GET_CERTIFICATE request. -/
  | getCertificate (req : List Byte)
  /-- R440: SPDM CHALLENGE request answered with a signature. -/
  | challenge (req : List Byte)
  /-- R440: SPDM GET_MEASUREMENTS request answered with signed measurement blocks. -/
  | getMeasurements (req : List Byte)
  /-- R440: Any other SPDM request is answered with ERROR UnsupportedRequest. -/
  | spdmUnsupported (req : List Byte)
  /-- R447: The fault manager classifies a detection report, logs it and chooses replay, retirement, abort or halt. -/
  | faultReport (x : Report)
  /-- R450: Rows issued by the faulted tile complete, the skip map is recorded, and the copy to the spare starts. -/
  | replayDrainDone (t : Nat)
  /-- R450: The copy to the spare ends, held packets are released and the spare resumes the segment. -/
  | spareCopyDone (t : Nat) (e : CopyEnd)
  /-- R463: After the table's last row a tile runs its Seedling kernel, a mismatch being a row fault. -/
  | seedlingRun (t : Nat) (ok : Bool)
  /-- R464: Every 2^GH_ROTATE_LOG2 beats a working tile is moved onto a spare for testing. -/
  | greenhouseRotate
  /-- R464: A Greenhouse test ends and the unit returns to service or is retired. -/
  | greenhouseResult (kind : Nat) (idx : Nat) (piece : Nat) (pass : Bool)
  /-- R465: At the round tick every member digests its ranges. -/
  | digestRound
  /-- R466: The master compares bed digests and prunes or pauses beds. -/
  | digestCompare (m : BedMsg)
  /-- R466: After SWEEP_BEATS of Seedling kernels, failing beds are pruned and the rest resume or stay paused. -/
  | sweepEnd (m : BedMsg)
  /-- R456: A covered member's mirrored write arrives at its spare and is staged. -/
  | mirrorWrite (m : MirrorMsg)
  /-- R456: Writing MIRROR_SYNC copies every mirror range whole and then sets SPARE_VALID. -/
  | mirrorSync
  /-- R459: After SPARE_ARM_US, or all spare tiles armed, the master sends the RESTART tick. -/
  | spareArmTimeout
  /-- R478: A step, timer, error-rate or command trigger starts a checkpoint, or is deferred. -/
  | checkpointTrigger
  /-- R479: A member receives CUT(c) and acknowledges it. -/
  | cutMessage (m : CutMsg)
  /-- R482: The master's writer assignment arrives and the member copies only pages it writes. -/
  | dedupAssign (m : AssignMsg)
  /-- R485: A write to a pending cutting is held while the cutting is copied to the cut buffer. -/
  | cowHold (a : Nat)
  /-- R485: A held cutting is copied, its pending mark cleared and the held write released. -/
  | cowCopyDone (c : Nat) (ns : Nat)
  /-- R483: The seal is acknowledged; once all images are held the checkpoint is held. -/
  | imageHeld (m : ImageMsg)
  /-- R484: The neighbour's FLUSH completes and the checkpoint becomes durable. -/
  | checkpointDurable (m : DurableMsg)
  /-- R488: A checkpoint fails with its cause and raises the checkpoint-failed event. -/
  | checkpointFail (cause : Nat) (mid : Nat)
  /-- R494: Command trigger for a checkpoint at the master. -/
  | mulchCheckpoint
  /-- R489: Restores a member image onto this member. -/
  | mulchRestore
  /-- R494: Cancels the running checkpoint with cause 2. -/
  | mulchCancel
  /-- R491: Sets a stream's SUPPRESS_POS. -/
  | suppressSet
  /-- R489: A restore ends and its response and restore-ended event are written. -/
  | restoreEnd (cause : Nat) (image : List Byte) (refs : List (Nat × List Byte))
  /-- R500: The gate starts a count frame when the wire falls idle after a COMMIT tick that changed a total. -/
  | countFrameSend
  /-- R500: Every 1 ms without a frame the gate sends a refresh frame. -/
  | countRefresh
  /-- R502: The Cloche accepts a count frame and adds its increments, closing the interval on a new EPOCH. -/
  | countFrame (bad : Bool)
  /-- R501: The record port receives an acknowledgement frame and releases held token deliveries. -/
  | ackFrameRx (bad : Bool)
  /-- R503: Every 4 µs each metered channel's energy is accumulated. -/
  | energySample (es : List Nat) (range : Bool)
  /-- R505: CTIME reaches a multiple of L and the Cloche signs and emits energy and token records. -/
  | intervalClose
  /-- R506: The Cloche sends an acknowledgement, a new record or a ring record at a frame boundary. -/
  | recordFrameSend
  /-- R512: The record port receives a record frame and delivers, stores, overflows or drops it. -/
  | recordFrameRx (bad : Bool)
  /-- R514: The record port reads back an overflow block and verifies its GMAC tag. -/
  | overflowReadback
  /-- R501: A write of METER_HOLD takes effect at the next COMMIT tick. -/
  | meterHoldWrite (v : Bool)
  /-- R510: The Cloche reset pin is asserted; it saves state within 1 ms and resets. -/
  | clReset
  /-- R564: VCL falls below 3.0 V and the Cloche saves its state and stops. -/
  | vclLow
  /-- R510: The Cloche restarts, resumes its interval marked RESUMED and sends its acknowledgement and certificate records. -/
  | clocheRestart (cfw : Option Nat)
  /-- R583: Raising CL_PROG_EN with the Cloche in reset connects its flash to the programmer. -/
  | clProgEn (word : Option Nat)
  /-- R522: The boot sequencer reads fuses, selects a bank, verifies stage-1 and starts hub core 0. -/
  | hubAoResetRelease (rs : List FuseRead) (temp : Nat) (bad : List Nat)
  /-- R522: Stage-1 verifies the main image and the compartments start, or the other bank is forced. -/
  | mainImageVerified (bad : List Nat)
  /-- R527: FUSE_RETRY repeats the fuse reads and continues boot if all are accepted. -/
  | fuseRetry (rs : List FuseRead) (temp : Nat) (bad : List Nat)
  /-- R551: In STAGE 4 it restarts the boot sequencer. -/
  | recoveryReboot (rs : List FuseRead) (temp : Nat) (bad : List Nat)
  /-- R530: A trap in compartment mode restarts the compartment on a spare core. -/
  | compartmentRestart (c : Nat) (vector : Nat) (busy : Bool)
  /-- R552: Writes image data into a non-running bank. -/
  | fwWrite
  /-- R552: Verifies the images of a bank. -/
  | fwVerify (bad : List Nat)
  /-- R532: Moves the compartments one at a time to the new images by handover. -/
  | liveUpdate
  /-- R521: Writes the older selector copy for a bank. -/
  | bootSelect (bad : List Nat)
  /-- R537: Steps or slews MTIME to a UTC time. -/
  | timeSet
  /-- R532: The old compartment reaches a safe point, writes its handover record and stops. -/
  | handoverSafePoint (ok : Bool)
  /-- R544: A read of IW_DATA performs a read at the window address. -/
  | iwDataRead (r : Req) (met : Nat)
  /-- R544: A write of IW_DATA performs a write at the window address. -/
  | iwDataWrite (r : Req) (v : BitVec 32) (met : Nat)
  /-- R545: Writing CORE_HOLD or HUB_HOLD holds or releases cores. -/
  | coreHoldWrite (r : Req) (k : Nat) (v : BitVec 32)
  /-- R547: Writing RST_CTRL.HUB_MAIN resets hub main, hub PHY and host interface. -/
  | hubMain (bad : List Nat)
  /-- R547: Writing WEST_HOLD or EAST_HOLD holds a half's core and store domains in reset. -/
  | halfHoldWrite (w : Bool) (e : Bool)
  /-- R548: PERST#, hot reset or link down resets the host-interface domain. -/
  | hostInterfaceReset
  /-- R581: The module reset input resets hub main, PHY, host interface and both halves. -/
  | mrst (low : Bool) (bad : List Nat)
  /-- R566: PWROK falls and the module-reset domains are reset at once. -/
  | pwrokFall
  /-- R566: A main rail leaves its range while PWROK is high and resets those domains. -/
  | mainRailFault
  /-- R547: The hub always-on supply becomes valid and every non-Cloche domain resets. -/
  | hubAoPowerValid
  /-- R534: An MCTP control message arrives over I3C. -/
  | mctpControl (inst : Nat) (cmd : Nat) (data : List Byte)
  /-- R535: PLDM GetTID. -/
  | getTid (inst : Nat)
  /-- R535: PLDM GetPLDMTypes. -/
  | getPldmTypes (inst : Nat)
  /-- R535: PLDM GetPLDMVersion. -/
  | getPldmVersion (inst : Nat) (ty : Nat)
  /-- R535: PLDM GetPLDMCommands. -/
  | getPldmCommands (inst : Nat) (ty : Nat)
  /-- R535: PLDM GetPDR. -/
  | getPdr (inst : Nat) (handle : Nat)
  /-- R535: PLDM GetSensorReading. -/
  | getSensorReading (inst : Nat) (id : Nat)
  /-- R535: PLDM PollForPlatformEventMessage. -/
  | pollForPlatformEventMessage (inst : Nat) (ack : Nat)
  /-- R536: Vendor-defined command returning records from the management event area. -/
  | readEvents (start : Nat)
  /-- R535: Every 10 ms the PLDM sensors are updated. -/
  | sensorUpdate (vals : List Nat)
  /-- R577: I3C private write 0xF2 and read return the interlock state and SAFE cause. -/
  | safeStateQuery
  /-- R575: Every 1 ms the interlock samples both flow inputs and updates its state. -/
  | flowSample (a : Bool) (b : Bool)
  /-- R576: At the next tick, or P after entry, both halves go to step 6 and every link is held DOWN. -/
  | flowFaultDeadline
  /-- R572: A die or stack reaches its trip temperature and the module enters SAFE. -/
  | thermalTrip (cause : Nat)
  /-- R570: At the end of each 1 ms window the power limit steps both halves down or up. -/
  | powerWindow (watts : Nat)
  /-- R570: Each millisecond a hot half steps down or a cooled half steps up, and hot HBM is paced. -/
  | thermalSample (west : Nat) (east : Nat) (hbm : List Nat)
  /-- R584: Sets PLIMIT, STEP_MAX, D and TJ_THROTTLE. -/
  | powerSet
  /-- R584: Returns power, step and interlock settings and counts. -/
  | powerGet
  /-- R523: The PCIe host link completes training at a supported rate, so SERVICE_LEVEL can reach 1 and BAR2 and BAR4 begin to respond. -/
  | pcieLinkTrained (rate : Nat) (width : Nat) (flit : Bool)
  /-- R359: Setting VF Enable, or raising NumVFs, in PF0's SR-IOV capability makes the covered virtual functions enumerate. -/
  | vfEnable (n : Nat)
  /-- R515: When no valid record-wire frame has arrived for 1 ms, ALIVE falls, CL_EVT is set and the Cloche-alive-changed event is raised. -/
  | clocheAliveLapse
  /-- R582: A TCK edge on the IEEE 1149.1 chain, while TEST_EN is high and MRST# is low, advances the TAP and runs BYPASS, IDCODE, SAMPLE/PRELOAD, EXTEST, HIGHZ or CLAMP. -/
  | tapClock (testEn : Bool) (tms : Bool) (tdi : Bool) (pins : List Bool)
deriving DecidableEq, Repr

end Sys2Proof
end

