-- ==== Sys2Proof/Decode.lean ====
section
/-!
DEFINITION. What a table word spells. No row of spec/opcode_table.json gives its command bits: commands come to the block as
register accesses, symbols, frames and events, and none of them is an encoded word.
-/
namespace Sys2Proof

/-- No word spells a command. -/
def decodeTableWord (_nbits _w : Nat) : Option Instr := none

end Sys2Proof
end

