-- ==== Sys2Proof/Config.lean ====
section
/-!
DEFINITION. What the spec leaves open: uninterpreted constants with no body (log entry 3).
-/
namespace Sys2Proof

/-- A free number: the value the spec does not fix, drawn with the state's counter (log entry 3). -/
opaque Config.freeNat : Nat → Nat

/-- The byte a memory location holds before anything has written it (R589), by contents stamp and key. -/
opaque Config.freeByte : Nat → Nat → Byte

/-- The word a private-memory location holds before anything has written it (R589). -/
opaque Config.freeWord : Nat → Nat → Word36

/-- Whether a result's tininess is judged after the rounding; IEEE 754 lets each implementation choose (R157; log entry 9). -/
opaque Config.tinyAfter : Bool

/-- Whether (infinity × zero) + NaN raises INV; IEEE 754 lets each implementation choose (R175; log entry 9). -/
opaque Config.fmaInvalidNan : Bool

/-- The set of the slice cache that a 256-byte HBM line falls in, by partition code (R202; log entry 10). -/
opaque Config.cacheSet : Nat → Nat → Nat

/-- The hash of SRC_MID, ORIGIN and CN that spreads connections over ports (R271; log entry 18). -/
opaque Config.routeHash : Nat → Nat → Nat → Nat

/-- The cabling of the bed: 32 MID + port of the other end of a port of a module (R272; log entry 24). -/
opaque Config.linkEnd : Nat → Nat → Nat

/-- The parity bytes [255:248] of a flit over its bytes [247:0]: RS(128,124) over GF(2^8), of which the spec gives neither the
field polynomial nor the generator (R259; log entry 17). -/
opaque Config.fecParity : List Byte → BitVec 64

/-- The meter key that the Cloche generates at manufacture, and its certificate chain in DER (R508). -/
opaque Config.clocheKey : Nat
opaque Config.clocheChain : List Byte

/-- CLOCHE_ID and MODULE_SERIAL of the Cloche certificate (R508), and the anti-rollback count of its key store (R509). -/
opaque Config.clocheId : Nat
opaque Config.clocheSerial : Nat
opaque Config.clocheRollback : Nat

/-- Vozekan's firmware key accepts a signature (r, s) over a digest (R520): digest, r, s. -/
opaque Config.fwSigned : List Byte → Nat → Nat → Bool

/-- Digest of the boot ROM (R440). -/
opaque Config.romDigest : List Byte

/-- CTExponent and DataTransferSize of the SPDM responder (R440). -/
opaque Config.spdmTime : Nat
opaque Config.spdmSize : Nat

/-- Bytes of the compartment manifest at the head of a main image's body (R520). -/
opaque Config.manifestLen : List Byte → Nat

/-- PLDM versions by type, and the PDR repository by record handle (R535). -/
opaque Config.pldmVersion : Nat → Nat
opaque Config.pdr : Nat → List Byte

/-- Instruction register length, boundary register length, and the operation of each instruction code of the boundary-scan
chain: 0 BYPASS, 1 IDCODE, 2 SAMPLE/PRELOAD, 3 EXTEST, 4 HIGHZ, 5 CLAMP (R582). -/
opaque Config.irLen : Nat
opaque Config.bsrLen : Nat → Nat
opaque Config.tapCode : Nat → Nat

end Sys2Proof
end

