-- ==== Sys2Proof/Machine/Bits.lean ====
section
/-!
DEFINITION. Bit fields, sign extension, byte order and the sorted sparse maps that State is built from.
-/
namespace Sys2Proof

/-- Bits [lo + n - 1 : lo] of a number. -/
def bits (w lo n : Nat) : Nat := w / 2 ^ lo % 2 ^ n

/-- Bit `i` of a number. -/
def bitN (w i : Nat) : Bool := w / 2 ^ i % 2 == 1

/-- 1 for true. -/
def ofBool (b : Bool) : Nat := if b then 1 else 0

/-- A number with bits [lo + n - 1 : lo] replaced by the low `n` bits of `v`. -/
def setBits (w lo n v : Nat) : Nat :=
  w - bits w lo n * 2 ^ lo + v % 2 ^ n * 2 ^ lo

/-- The low `n` bits read as two's complement. -/
def sext (n v : Nat) : Int :=
  if v % 2 ^ n < 2 ^ (n - 1) then (v % 2 ^ n : Nat) else (v % 2 ^ n : Nat) - (2 ^ n : Nat)

/-- An integer modulo 2^n. -/
def wrap (n : Nat) (i : Int) : Nat := (i % (2 ^ n : Nat)).toNat

/-- A count that stops at its largest value (R560). -/
def satAdd (n v d : Nat) : Nat := if v + d < 2 ^ n then v + d else 2 ^ n - 1

/-- Ceiling of a quotient. -/
def ceilDiv (a b : Nat) : Nat := (a + b - 1) / b

/-- Bytes of a number, least significant first. -/
def leBytes : Nat → Nat → List Byte
  | 0, _ => []
  | n + 1, v => BitVec.ofNat 8 v :: leBytes n (v / 256)

/-- The number that bytes spell, least significant first. -/
def leNat : List Byte → Nat
  | [] => 0
  | b :: t => b.toNat + 256 * leNat t

/-- A number of `n` bytes at an offset of a byte string. -/
def fieldAt (bs : List Byte) (o n : Nat) : Nat := leNat ((bs.drop o).take n)

/-- Bytes of a number, most significant first (network order). -/
def beBytes (n v : Nat) : List Byte := (leBytes n v).reverse

/-- The number that bytes spell, most significant first. -/
def beNat (l : List Byte) : Nat := leNat l.reverse

/-- Population count of the low `n` bits. -/
def popCount : Nat → Nat → Nat
  | 0, _ => 0
  | n + 1, v => v % 2 + popCount n (v / 2)

/-- A sparse map in canonical form: keys strictly rising. -/
abbrev Cells (α : Type) := List (Nat × α)

/-- The value listed at a key. -/
def Cells.get? {α : Type} : Cells α → Nat → Option α
  | [], _ => none
  | (k, v) :: t, a => if a = k then some v else if a < k then none else Cells.get? t a

/-- A map with a key set. -/
def Cells.put {α : Type} : Cells α → Nat → α → Cells α
  | [], a, x => [(a, x)]
  | (k, v) :: t, a, x =>
    if a = k then (a, x) :: t
    else if a < k then (a, x) :: (k, v) :: t
    else (k, v) :: Cells.put t a x

/-- A map with a key removed. -/
def Cells.del {α : Type} : Cells α → Nat → Cells α
  | [], _ => []
  | (k, v) :: t, a => if a = k then t else if a < k then (k, v) :: t else (k, v) :: Cells.del t a

/-- A map without the keys of the half-open range [lo, hi). -/
def Cells.drop {α : Type} (m : Cells α) (lo hi : Nat) : Cells α :=
  m.filter (fun c => decide (c.1 < lo) || decide (hi ≤ c.1))

/-- The canonical form: keys strictly rising. -/
def Cells.wf {α : Type} : Cells α → Bool
  | [] => true
  | (k, _) :: t => t.all (fun c => decide (k < c.1)) && Cells.wf t

/-- The value at a key of a map whose unlisted keys hold `d`. -/
def Cells.getD {α : Type} (m : Cells α) (d : α) (a : Nat) : α := (m.get? a).getD d

/-- A map whose unlisted keys hold `d`, with a key set: a value equal to `d` is not listed. -/
def Cells.set {α : Type} [DecidableEq α] (m : Cells α) (d : α) (a : Nat) (x : α) : Cells α :=
  if x = d then m.del a else m.put a x

/-- The elements of a list that satisfy a test, up to the first, removed once. -/
def removeFirst {α : Type} (p : α → Bool) : List α → List α
  | [] => []
  | x :: t => if p x then t else x :: removeFirst p t

/-- An element put into a list in ascending order of a key, after those of an equal key. -/
def insertBy {α : Type} (key : α → Nat) (x : α) : List α → List α
  | [] => [x]
  | y :: t => if key x < key y then x :: y :: t else y :: insertBy key x t

/-- A list in ascending order of a key; elements of equal keys keep their order. -/
def sortBy {α : Type} (key : α → Nat) (l : List α) : List α := l.foldl (fun a x => insertBy key x a) []

/-- The positions of the bits set among the low `n` bits. -/
def bitsSet (n v : Nat) : List Nat := (List.range n).filter (fun i => bitN v i)

/-- A set of numbers held as a list without repeats. -/
def insertNat (n : Nat) (l : List Nat) : List Nat := if l.contains n then l else l ++ [n]

end Sys2Proof
end

