-- ==== Sys2Proof/Machine/Regs.lean ====
section
/-!
DEFINITION. The register fields of every register block (R41, R88, R89, R119, R232, R233, R238, R294, R295, R326, R354, R355,
R394, R395, R419, R443, R473, R496, R515, R531, R546, R551): place, width, access code, reset value and the
values a write may set (R22).
-/
namespace Sys2Proof.Machine

/-- Register access codes (R20). RZ bits belong to no field. -/
inductive Acc where
  | rw | ro | wo | sq | tv
deriving DecidableEq, Repr

/-- A Reset column (R21): one value, the unit's own number, the number modulo m, one value per index, index 0 only. -/
inductive ResetVal where
  | const (v : Nat)
  | own
  | modOf (m : Nat)
  | each (l : List Nat)
  | first (v : Nat)
deriving DecidableEq, Repr

/-- One field of a register block: word offset, two index levels with their strides in bytes, a third in bits. -/
structure Fld where
  id : Nat
  off : Nat
  lo : Nat
  w : Nat
  acc : Acc
  n1 : Nat := 1
  s1 : Nat := 0
  n2 : Nat := 1
  s2 : Nat := 0
  nb : Nat := 1
  sb : Nat := 0
  pair : Bool := false
  vmin : Nat := 0
  vmax : Nat := 2 ^ 64
  zero : Bool := false
  fuse : Bool := false
  reset : ResetVal := .const 0

/-- The values that a write may set: the stated range, and zero where the table names it beside the range. -/
def Fld.takes (f : Fld) (v : Nat) : Bool := decide (f.vmin ≤ v ∧ v ≤ f.vmax) || (f.zero && v == 0)

/-- The value a field holds when nothing has been written since its reset, by flat index (R21). -/
def Fld.dflt (f : Fld) (i : Nat) : Nat :=
  match f.reset with
  | .const v => v
  | .own => i
  | .modOf m => i % m
  | .each l => l.getD i 0
  | .first v => if i = 0 then v else 0

/-! ## identity -/

/-- R41: silicon stepping; 0x01 for this manual -/
def Rg.identity_STEPPING : Fld :=
  { id := 1, off := 0x0, lo := 0, w := 8, acc := .tv, fuse := true }

/-- R41: Ohmette-36 revision; 0x02 -/
def Rg.identity_ISA_REV : Fld :=
  { id := 2, off := 0x0, lo := 8, w := 8, acc := .tv, fuse := true }

/-- R41: 0x0001 = PRT9-A1200L, 0x0002 = PRT9-B1000L, others reserved -/
def Rg.identity_ORDER_CODE : Fld :=
  { id := 3, off := 0x0, lo := 16, w := 16, acc := .tv, fuse := true }

/-- R41: module serial number, bits [31:0] -/
def Rg.identity_SERIAL_LO : Fld :=
  { id := 4, off := 0x4, lo := 0, w := 32, acc := .tv, fuse := true }

/-- R41: module serial number, bits [63:32] -/
def Rg.identity_SERIAL_HI : Fld :=
  { id := 5, off := 0x8, lo := 0, w := 32, acc := .tv, fuse := true }

/-- R41: number of enabled tiles: 256 or 240 -/
def Rg.identity_TILES_ENABLED : Fld :=
  { id := 6, off := 0x10, lo := 0, w := 9, acc := .tv, fuse := true }

/-- R41: number of working tiles -/
def Rg.identity_TILES_WORKING : Fld :=
  { id := 7, off := 0x10, lo := 16, w := 9, acc := .ro }

/-- R41: bit n of word k set: tile t(32k + n) is enabled -/
def Rg.identity_TILE_ENABLED : Fld :=
  { id := 8, off := 0x20, lo := 0, w := 32, acc := .tv, n1 := 1, s1 := 0, n2 := 8, s2 := 4, fuse := true }

/-- R41: bit n of word k set: tile t(32k + n) is working -/
def Rg.identity_TILE_WORKING : Fld :=
  { id := 9, off := 0x40, lo := 0, w := 32, acc := .ro, n1 := 1, s1 := 0, n2 := 8, s2 := 4 }

/-- R41: bit s set: stack Hs is enabled -/
def Rg.identity_HBM_ENABLED : Fld :=
  { id := 10, off := 0x60, lo := 0, w := 6, acc := .tv, fuse := true }

/-- R41: bit 8 + s set: stack Hs is working -/
def Rg.identity_HBM_WORKING : Fld :=
  { id := 11, off := 0x60, lo := 8, w := 6, acc := .ro }

/-- R41: bit p set: pseudo-channel p of stack Hs is working -/
def Rg.identity_PC_WORKING : Fld :=
  { id := 12, off := 0x80, lo := 0, w := 32, acc := .ro, n1 := 1, s1 := 0, n2 := 6, s2 := 4 }

/-- R41: bit d set: link dl(d) is trained with at least 4 lanes -/
def Rg.identity_LINK_WORKING : Fld :=
  { id := 13, off := 0xa0, lo := 0, w := 24, acc := .ro }

/-- R41: bit y set: bridge channel of row y is working -/
def Rg.identity_BRIDGE_WORKING : Fld :=
  { id := 14, off := 0xa0, lo := 24, w := 8, acc := .ro }

/-- R41: bits [3:0] West ports at x = 2, 6, 9, 13; bits [7:4] East ports in the same order -/
def Rg.identity_HUBPORT_WORKING : Fld :=
  { id := 15, off := 0xa4, lo := 0, w := 8, acc := .ro }

/-- R41: 0 fuse-hold, 1 management and diagnostic, 2 compute, 3 reserved -/
def Rg.identity_SERVICE_LEVEL : Fld :=
  { id := 16, off := 0xa8, lo := 0, w := 2, acc := .ro }

/-- R41: West half meets the compute minimum of R38 -/
def Rg.identity_WEST_COMPUTE : Fld :=
  { id := 17, off := 0xa8, lo := 2, w := 1, acc := .ro }

/-- R41: East half meets the compute minimum of R38 -/
def Rg.identity_EAST_COMPUTE : Fld :=
  { id := 18, off := 0xa8, lo := 3, w := 1, acc := .ro }

/-- R41: set when any working field or SERVICE_LEVEL changes -/
def Rg.identity_MAP_CHANGED : Fld :=
  { id := 19, off := 0xac, lo := 0, w := 1, acc := .sq }

/-- R41: incremented, modulo 2^16, with every change -/
def Rg.identity_MAP_SEQ : Fld :=
  { id := 20, off := 0xac, lo := 16, w := 16, acc := .sq }

/-- The fields of the identity block. -/
def Rg.identityFlds : List Fld :=
  [Rg.identity_STEPPING, Rg.identity_ISA_REV, Rg.identity_ORDER_CODE, Rg.identity_SERIAL_LO, Rg.identity_SERIAL_HI, Rg.identity_TILES_ENABLED, Rg.identity_TILES_WORKING, Rg.identity_TILE_ENABLED, Rg.identity_TILE_WORKING, Rg.identity_HBM_ENABLED, Rg.identity_HBM_WORKING, Rg.identity_PC_WORKING, Rg.identity_LINK_WORKING, Rg.identity_BRIDGE_WORKING, Rg.identity_HUBPORT_WORKING, Rg.identity_SERVICE_LEVEL] ++
  [Rg.identity_WEST_COMPUTE, Rg.identity_EAST_COMPUTE, Rg.identity_MAP_CHANGED, Rg.identity_MAP_SEQ]

/-! ## beat -/

/-- R88: 1 runs the domain, 0 stops it (R56); acts at the master -/
def Rg.beat_RUN : Fld :=
  { id := 21, off := 0x0, lo := 0, w := 1, acc := .rw }

/-- R88: starts formation with this module as founder -/
def Rg.beat_FORM : Fld :=
  { id := 22, off := 0x0, lo := 1, w := 1, acc := .wo }

/-- R88: this module may take part in a domain -/
def Rg.beat_JOIN_EN : Fld :=
  { id := 23, off := 0x0, lo := 2, w := 1, acc := .rw }

/-- R88: ends the domain (R56) -/
def Rg.beat_DISSOLVE : Fld :=
  { id := 24, off := 0x0, lo := 3, w := 1, acc := .wo }

/-- R88: join as a standby member -/
def Rg.beat_STANDBY_REQ : Fld :=
  { id := 25, off := 0x0, lo := 4, w := 1, acc := .rw }

/-- R88: beat period in µs, 8 to 4,000 -/
def Rg.beat_PERIOD_US : Fld :=
  { id := 26, off := 0x4, lo := 0, w := 12, acc := .rw, vmin := 8, vmax := 4000, reset := .const 40 }

/-- R88: R86 -/
def Rg.beat_NEXT_PERIOD_US : Fld :=
  { id := 27, off := 0x8, lo := 0, w := 12, acc := .rw }

/-- R88: R86, bits [31:0] -/
def Rg.beat_PERIOD_AT_LO : Fld :=
  { id := 28, off := 0x10, lo := 0, w := 32, acc := .rw }

/-- R88: R86, bits [63:32] -/
def Rg.beat_PERIOD_AT_HI : Fld :=
  { id := 29, off := 0x14, lo := 0, w := 32, acc := .rw }

/-- R88: domain identifier -/
def Rg.beat_DOMAIN_ID : Fld :=
  { id := 30, off := 0x18, lo := 0, w := 32, acc := .rw }

/-- R88: requested module number -/
def Rg.beat_MID_REQ : Fld :=
  { id := 31, off := 0x1c, lo := 0, w := 8, acc := .rw }

/-- R88: module number held in the domain -/
def Rg.beat_MID : Fld :=
  { id := 32, off := 0x1c, lo := 8, w := 8, acc := .ro }

/-- R88: 0 none, 1 active member, 2 standby member, 3 master -/
def Rg.beat_ROLE : Fld :=
  { id := 33, off := 0x1c, lo := 16, w := 2, acc := .ro }

/-- R88: member count, 1 to 256 -/
def Rg.beat_MEMBERS : Fld :=
  { id := 34, off := 0x20, lo := 0, w := 9, acc := .ro }

/-- R88: tick-tree depth, 0 to 12 -/
def Rg.beat_DEPTH : Fld :=
  { id := 35, off := 0x20, lo := 9, w := 4, acc := .ro }

/-- R88: domain halted -/
def Rg.beat_HALTED : Fld :=
  { id := 36, off := 0x20, lo := 13, w := 1, acc := .ro }

/-- R88: formation in progress -/
def Rg.beat_FORMING : Fld :=
  { id := 37, off := 0x20, lo := 14, w := 1, acc := .ro }

/-- R88: the latest join of this module was refused (R51) -/
def Rg.beat_JOIN_REFUSED : Fld :=
  { id := 38, off := 0x20, lo := 15, w := 1, acc := .ro }

/-- R88: 0 MID in use, 1 MID requested twice, 2 tick tree too deep -/
def Rg.beat_REFUSE_CAUSE : Fld :=
  { id := 39, off := 0x20, lo := 16, w := 2, acc := .ro }

/-- R88: fabric cycles -/
def Rg.beat_TREE_DELAY : Fld :=
  { id := 40, off := 0x24, lo := 0, w := 24, acc := .ro }

/-- R88: fabric cycles -/
def Rg.beat_TICK_LEAD : Fld :=
  { id := 41, off := 0x28, lo := 0, w := 24, acc := .ro, reset := .const 1024 }

/-- R88: fabric cycles (R47) -/
def Rg.beat_BEAT_BUDGET : Fld :=
  { id := 42, off := 0x2c, lo := 0, w := 24, acc := .ro, reset := .const 62976 }

/-- R88: BEATNO bits [31:0] -/
def Rg.beat_BEATNO : Fld :=
  { id := 43, off := 0x30, lo := 0, w := 64, acc := .ro, pair := true }

/-- R88: DTIME bits [31:0] -/
def Rg.beat_DTIME : Fld :=
  { id := 44, off := 0x38, lo := 0, w := 64, acc := .ro, pair := true }

/-- R88: debt after the latest tick, in fabric cycles, saturating at 2^32 − 1 -/
def Rg.beat_DEBT : Fld :=
  { id := 45, off := 0x40, lo := 0, w := 32, acc := .ro }

/-- R88: R85, saturating at 127 -/
def Rg.beat_OVR_RUN : Fld :=
  { id := 46, off := 0x44, lo := 0, w := 7, acc := .ro }

/-- R88: R85 -/
def Rg.beat_CRIT_MID : Fld :=
  { id := 47, off := 0x44, lo := 8, w := 8, acc := .ro }

/-- R88: R85 -/
def Rg.beat_CRIT_TILE : Fld :=
  { id := 48, off := 0x44, lo := 16, w := 8, acc := .ro }

/-- R88: persistent-overrun events raised -/
def Rg.beat_OVR_EPISODES : Fld :=
  { id := 49, off := 0x48, lo := 0, w := 32, acc := .ro }

/-- R88: latest tick: 0 START, 1 COMMIT, 2 ABORT, 3 RESTART -/
def Rg.beat_LAST_KIND : Fld :=
  { id := 50, off := 0x4c, lo := 0, w := 2, acc := .ro }

/-- R88: set at every ABORT tick -/
def Rg.beat_ABORTED : Fld :=
  { id := 51, off := 0x4c, lo := 2, w := 1, acc := .sq }

/-- R88: incremented, modulo 2^16, at every ABORT tick -/
def Rg.beat_ABORT_SEQ : Fld :=
  { id := 52, off := 0x4c, lo := 16, w := 16, acc := .sq }

/-- R88: bit n set: MID 32k + n is a member -/
def Rg.beat_MEMBER : Fld :=
  { id := 53, off := 0x50, lo := 0, w := 32, acc := .ro, n1 := 1, s1 := 0, n2 := 8, s2 := 4 }

/-- R88: bit n set: MID 32k + n is a standby member -/
def Rg.beat_STANDBY : Fld :=
  { id := 54, off := 0x70, lo := 0, w := 32, acc := .ro, n1 := 1, s1 := 0, n2 := 8, s2 := 4 }

/-- The fields of the beat block. -/
def Rg.beatFlds : List Fld :=
  [Rg.beat_RUN, Rg.beat_FORM, Rg.beat_JOIN_EN, Rg.beat_DISSOLVE, Rg.beat_STANDBY_REQ, Rg.beat_PERIOD_US, Rg.beat_NEXT_PERIOD_US, Rg.beat_PERIOD_AT_LO, Rg.beat_PERIOD_AT_HI, Rg.beat_DOMAIN_ID, Rg.beat_MID_REQ, Rg.beat_MID, Rg.beat_ROLE, Rg.beat_MEMBERS, Rg.beat_DEPTH, Rg.beat_HALTED] ++
  [Rg.beat_FORMING, Rg.beat_JOIN_REFUSED, Rg.beat_REFUSE_CAUSE, Rg.beat_TREE_DELAY, Rg.beat_TICK_LEAD, Rg.beat_BEAT_BUDGET, Rg.beat_BEATNO, Rg.beat_DTIME, Rg.beat_DEBT, Rg.beat_OVR_RUN, Rg.beat_CRIT_MID, Rg.beat_CRIT_TILE, Rg.beat_OVR_EPISODES, Rg.beat_LAST_KIND, Rg.beat_ABORTED, Rg.beat_ABORT_SEQ] ++
  [Rg.beat_MEMBER, Rg.beat_STANDBY]

/-! ## seq -/

/-- R89: 1 ARM, 2 ARM_SAME, 3 DISARM (R66) -/
def Rg.seq_CMD : Fld :=
  { id := 55, off := 0x0, lo := 0, w := 2, acc := .wo }

/-- R89: next bank armed -/
def Rg.seq_ARMED : Fld :=
  { id := 56, off := 0x4, lo := 0, w := 1, acc := .ro }

/-- R89: the running table has rows not yet completed -/
def Rg.seq_RUNNING : Fld :=
  { id := 57, off := 0x4, lo := 1, w := 1, acc := .ro }

/-- R89: the tile has completed its table for this beat -/
def Rg.seq_DONE : Fld :=
  { id := 58, off := 0x4, lo := 2, w := 1, acc := .ro }

/-- R89: the latest DISARM succeeded -/
def Rg.seq_DISARM_OK : Fld :=
  { id := 59, off := 0x4, lo := 3, w := 1, acc := .ro }

/-- R89: R67 -/
def Rg.seq_ARM_ERR : Fld :=
  { id := 60, off := 0x4, lo := 4, w := 4, acc := .ro }

/-- R89: slot of the first error of the latest ARM, or of the failing row of the running table (R67) -/
def Rg.seq_ERR_ROW : Fld :=
  { id := 61, off := 0x4, lo := 8, w := 12, acc := .ro }

/-- R89: TABLE_ID of the running table -/
def Rg.seq_RUN_TABLE_ID : Fld :=
  { id := 62, off := 0x8, lo := 0, w := 32, acc := .ro }

/-- R89: TABLE_ID of the armed table; valid while ARMED is 1 -/
def Rg.seq_NEXT_TABLE_ID : Fld :=
  { id := 63, off := 0xc, lo := 0, w := 32, acc := .ro }

/-- R89: set when a commit delivers NOTE values -/
def Rg.seq_NOTE_NEW : Fld :=
  { id := 64, off := 0x10, lo := 0, w := 1, acc := .sq }

/-- R89: set when a delivery replaced values while NOTE_NEW was set; cleared with NOTE_NEW -/
def Rg.seq_NOTE_LOST : Fld :=
  { id := 65, off := 0x10, lo := 1, w := 1, acc := .sq }

/-- R89: NOTE values held, 0 to 64 -/
def Rg.seq_NOTE_COUNT : Fld :=
  { id := 66, off := 0x10, lo := 2, w := 7, acc := .ro }

/-- R89: incremented, modulo 2^16, at every delivery -/
def Rg.seq_NOTE_SEQ : Fld :=
  { id := 67, off := 0x10, lo := 16, w := 16, acc := .sq }

/-- R89: NOTE values of the latest committed beat that issued NOTE rows (R80), in slot order -/
def Rg.seq_NOTE : Fld :=
  { id := 68, off := 0x100, lo := 0, w := 32, acc := .ro, n1 := 1, s1 := 0, n2 := 64, s2 := 4 }

/-- The fields of the seq block. -/
def Rg.seqFlds : List Fld :=
  [Rg.seq_CMD, Rg.seq_ARMED, Rg.seq_RUNNING, Rg.seq_DONE, Rg.seq_DISARM_OK, Rg.seq_ARM_ERR, Rg.seq_ERR_ROW, Rg.seq_RUN_TABLE_ID, Rg.seq_NEXT_TABLE_ID, Rg.seq_NOTE_NEW, Rg.seq_NOTE_LOST, Rg.seq_NOTE_COUNT, Rg.seq_NOTE_SEQ, Rg.seq_NOTE]

/-! ## tile -/

/-- R119: number of this tile, 0 to 255 -/
def Rg.tile_TILE_NUM : Fld :=
  { id := 69, off := 0x0, lo := 0, w := 8, acc := .ro, reset := .own }

/-- R119: tile enabled (R34) -/
def Rg.tile_ENABLED : Fld :=
  { id := 70, off := 0x0, lo := 8, w := 1, acc := .tv, fuse := true }

/-- R119: tile working (R36) -/
def Rg.tile_WORKING : Fld :=
  { id := 71, off := 0x0, lo := 9, w := 1, acc := .ro }

/-- R119: tile stopped under R118 -/
def Rg.tile_HALTED_FAULT : Fld :=
  { id := 72, off := 0x0, lo := 10, w := 1, acc := .ro }

/-- R119: rows held by the hazard tracker, 0 to 16 -/
def Rg.tile_TRACKED : Fld :=
  { id := 73, off := 0x4, lo := 0, w := 5, acc := .ro }

/-- R119: exchange and anchor-exchange rows in the port, 0 to 16 -/
def Rg.tile_EXCH_OUT : Fld :=
  { id := 74, off := 0x4, lo := 5, w := 5, acc := .ro }

/-- R119: move rows running, 0 to 4 -/
def Rg.tile_MOVES : Fld :=
  { id := 75, off := 0x4, lo := 10, w := 3, acc := .ro }

/-- R119: bits [2:0] of the attempt number of R111 -/
def Rg.tile_ATTEMPT : Fld :=
  { id := 76, off := 0x4, lo := 13, w := 3, acc := .ro }

/-- R119: bit [3] of the attempt number -/
def Rg.tile_ATTEMPT_3 : Fld :=
  { id := 77, off := 0x4, lo := 16, w := 1, acc := .ro }

/-- R119: 1: performance counters count -/
def Rg.tile_PERF_EN : Fld :=
  { id := 78, off := 0x10, lo := 0, w := 1, acc := .rw }

/-- R119: zeroes every performance counter and WRAP flag -/
def Rg.tile_PERF_CLR : Fld :=
  { id := 79, off := 0x10, lo := 1, w := 1, acc := .wo }

/-- R119: tile cycles with the matrix array in a pre-pass, value pass or drain -/
def Rg.tile_CYC_MATRIX : Fld :=
  { id := 80, off := 0x20, lo := 0, w := 48, acc := .ro, pair := true }

/-- R119: tile cycles with a vector row running -/
def Rg.tile_CYC_VECTOR : Fld :=
  { id := 81, off := 0x28, lo := 0, w := 48, acc := .ro, pair := true }

/-- R119: tile cycles in which at least one slice request waited under R95 -/
def Rg.tile_CYC_CONFLICT : Fld :=
  { id := 82, off := 0x30, lo := 0, w := 48, acc := .ro, pair := true }

/-- R119: tile cycles in which the next row waited for a hazard or a full tracker -/
def Rg.tile_CYC_HAZARD : Fld :=
  { id := 83, off := 0x38, lo := 0, w := 48, acc := .ro, pair := true }

/-- R119: tile cycles in which the next row waited for room in its unit -/
def Rg.tile_CYC_UNIT : Fld :=
  { id := 84, off := 0x40, lo := 0, w := 48, acc := .ro, pair := true }

/-- R119: rows issued -/
def Rg.tile_ROWS : Fld :=
  { id := 85, off := 0x48, lo := 0, w := 48, acc := .ro, pair := true }

/-- R119: 64-byte units sent by the exchange port -/
def Rg.tile_EXCH_OUT_64 : Fld :=
  { id := 86, off := 0x50, lo := 0, w := 48, acc := .ro, pair := true }

/-- R119: 64-byte units received by the exchange port -/
def Rg.tile_EXCH_IN_64 : Fld :=
  { id := 87, off := 0x58, lo := 0, w := 48, acc := .ro, pair := true }

/-- R119: residue and duplication mismatches, saturating at 2^16 − 1 -/
def Rg.tile_RES_ERRS : Fld :=
  { id := 88, off := 0x60, lo := 0, w := 16, acc := .ro }

/-- R119: slice parity errors, saturating at 2^16 − 1 -/
def Rg.tile_PAR_ERRS : Fld :=
  { id := 89, off := 0x60, lo := 16, w := 16, acc := .ro }

/-- R119: bit k set: the counter at offset 0x020 + 8k has wrapped since it was last cleared -/
def Rg.tile_WRAP : Fld :=
  { id := 90, off := 0x64, lo := 0, w := 8, acc := .sq }

/-- R119: incremented, modulo 2^16, at every wrap -/
def Rg.tile_WRAP_SEQ : Fld :=
  { id := 91, off := 0x64, lo := 16, w := 16, acc := .sq }

/-- R232: SRC bits [31:0] -/
def Rg.tile_SRC_LO : Fld :=
  { id := 92, off := 0x800, lo := 0, w := 32, acc := .rw, n1 := 16, s1 := 64, n2 := 1, s2 := 0 }

/-- R232: SRC bits [38:32] -/
def Rg.tile_SRC_HI : Fld :=
  { id := 93, off := 0x804, lo := 0, w := 7, acc := .rw, n1 := 16, s1 := 64, n2 := 1, s2 := 0 }

/-- R232: R219 -/
def Rg.tile_SPACE : Fld :=
  { id := 94, off := 0x804, lo := 8, w := 2, acc := .rw, n1 := 16, s1 := 64, n2 := 1, s2 := 0 }

/-- R232: peer MID, for SPACE 2 -/
def Rg.tile_PEER : Fld :=
  { id := 95, off := 0x804, lo := 10, w := 8, acc := .rw, n1 := 16, s1 := 64, n2 := 1, s2 := 0 }

/-- R232: Dvorar virtual channel, for SPACE 2 -/
def Rg.tile_VC : Fld :=
  { id := 96, off := 0x804, lo := 18, w := 3, acc := .rw, n1 := 16, s1 := 64, n2 := 1, s2 := 0 }

/-- R232: R219 -/
def Rg.tile_CYCLIC : Fld :=
  { id := 97, off := 0x804, lo := 21, w := 1, acc := .rw, n1 := 16, s1 := 64, n2 := 1, s2 := 0 }

/-- R232: R219 -/
def Rg.tile_CHUNK_BYTES : Fld :=
  { id := 98, off := 0x808, lo := 0, w := 24, acc := .rw, n1 := 16, s1 := 64, n2 := 1, s2 := 0 }

/-- R232: signed, in bytes -/
def Rg.tile_STRIDE : Fld :=
  { id := 99, off := 0x80c, lo := 0, w := 32, acc := .rw, n1 := 16, s1 := 64, n2 := 1, s2 := 0 }

/-- R232: R219 -/
def Rg.tile_COUNT : Fld :=
  { id := 100, off := 0x810, lo := 0, w := 32, acc := .rw, n1 := 16, s1 := 64, n2 := 1, s2 := 0 }

/-- R232: R219 -/
def Rg.tile_PER_BEAT : Fld :=
  { id := 101, off := 0x814, lo := 0, w := 16, acc := .rw, n1 := 16, s1 := 64, n2 := 1, s2 := 0 }

/-- R232: R219 -/
def Rg.tile_LEAD : Fld :=
  { id := 102, off := 0x814, lo := 16, w := 4, acc := .rw, n1 := 16, s1 := 64, n2 := 1, s2 := 0 }

/-- R232: 1 to 16 -/
def Rg.tile_SLOTS : Fld :=
  { id := 103, off := 0x814, lo := 20, w := 5, acc := .rw, n1 := 16, s1 := 64, n2 := 1, s2 := 0 }

/-- R232: first ring line -/
def Rg.tile_LAND_BASE : Fld :=
  { id := 104, off := 0x818, lo := 0, w := 19, acc := .rw, n1 := 16, s1 := 64, n2 := 1, s2 := 0 }

/-- R232: START bits [31:0] -/
def Rg.tile_START_LO : Fld :=
  { id := 105, off := 0x820, lo := 0, w := 32, acc := .rw, n1 := 16, s1 := 64, n2 := 1, s2 := 0 }

/-- R232: START bits [63:32] -/
def Rg.tile_START_HI : Fld :=
  { id := 106, off := 0x824, lo := 0, w := 32, acc := .rw, n1 := 16, s1 := 64, n2 := 1, s2 := 0 }

/-- R232: R222 -/
def Rg.tile_EN : Fld :=
  { id := 107, off := 0x828, lo := 0, w := 1, acc := .rw, n1 := 16, s1 := 64, n2 := 1, s2 := 0 }

/-- R232: R222 -/
def Rg.tile_STOP : Fld :=
  { id := 108, off := 0x828, lo := 1, w := 1, acc := .wo, n1 := 16, s1 := 64, n2 := 1, s2 := 0 }

/-- R232: 0 idle, 1 EN written and not yet in effect, 2 live, 3 done, 4 error -/
def Rg.tile_STATE : Fld :=
  { id := 109, off := 0x82c, lo := 0, w := 3, acc := .ro, n1 := 16, s1 := 64, n2 := 1, s2 := 0 }

/-- R232: R229 -/
def Rg.tile_ERRCODE : Fld :=
  { id := 110, off := 0x82c, lo := 3, w := 4, acc := .ro, n1 := 16, s1 := 64, n2 := 1, s2 := 0 }

/-- R232: R224 -/
def Rg.tile_DELIVERED : Fld :=
  { id := 111, off := 0x830, lo := 0, w := 24, acc := .ro, n1 := 16, s1 := 64, n2 := 1, s2 := 0 }

/-- R232: b of the batch the current beat consumes, modulo 2^32 -/
def Rg.tile_BATCH : Fld :=
  { id := 112, off := 0x834, lo := 0, w := 32, acc := .ro, n1 := 16, s1 := 64, n2 := 1, s2 := 0 }

/-- R232: R225, saturating at 2^24 − 1 -/
def Rg.tile_LATE : Fld :=
  { id := 113, off := 0x838, lo := 0, w := 24, acc := .ro, n1 := 16, s1 := 64, n2 := 1, s2 := 0 }

/-- R232: cache partition, R200 codes 0 to 4; 5 to 7 reserved, and a write of 5 to 7 leaves the field unchanged (R22) -/
def Rg.tile_SIZE : Fld :=
  { id := 114, off := 0xc00, lo := 0, w := 3, acc := .rw, vmin := 0, vmax := 4 }

/-- R232: empties the cache at the next tick (R203) -/
def Rg.tile_INV : Fld :=
  { id := 115, off := 0xc00, lo := 3, w := 1, acc := .wo }

/-- R232: first 4 KiB unit of cacheable range k, k = 0 to 3 -/
def Rg.tile_CRANGE_BASE : Fld :=
  { id := 116, off := 0xc08, lo := 0, w := 27, acc := .rw, n1 := 4, s1 := 8, n2 := 1, s2 := 0 }

/-- R232: range k enabled -/
def Rg.tile_CRANGE_EN : Fld :=
  { id := 117, off := 0xc08, lo := 31, w := 1, acc := .rw, n1 := 4, s1 := 8, n2 := 1, s2 := 0 }

/-- R232: last 4 KiB unit of range k, inclusive -/
def Rg.tile_CRANGE_LIM : Fld :=
  { id := 118, off := 0xc0c, lo := 0, w := 27, acc := .rw, n1 := 4, s1 := 8, n2 := 1, s2 := 0 }

/-- R232: 32-byte accesses served by the cache -/
def Rg.tile_CACHE_HITS : Fld :=
  { id := 119, off := 0xc40, lo := 0, w := 48, acc := .ro, pair := true }

/-- R232: 256-byte lines fetched on a miss -/
def Rg.tile_CACHE_MISSES : Fld :=
  { id := 120, off := 0xc48, lo := 0, w := 48, acc := .ro, pair := true }

/-- R232: bit 0 CACHE_HITS, bit 1 CACHE_MISSES has wrapped -/
def Rg.tile_CWRAP : Fld :=
  { id := 121, off := 0xc50, lo := 0, w := 2, acc := .sq }

/-- R232: incremented, modulo 2^16, at every wrap -/
def Rg.tile_CWRAP_SEQ : Fld :=
  { id := 122, off := 0xc50, lo := 16, w := 16, acc := .sq }

/-- The fields of the tile block. -/
def Rg.tileFlds : List Fld :=
  [Rg.tile_TILE_NUM, Rg.tile_ENABLED, Rg.tile_WORKING, Rg.tile_HALTED_FAULT, Rg.tile_TRACKED, Rg.tile_EXCH_OUT, Rg.tile_MOVES, Rg.tile_ATTEMPT, Rg.tile_ATTEMPT_3, Rg.tile_PERF_EN, Rg.tile_PERF_CLR, Rg.tile_CYC_MATRIX, Rg.tile_CYC_VECTOR, Rg.tile_CYC_CONFLICT, Rg.tile_CYC_HAZARD, Rg.tile_CYC_UNIT] ++
  [Rg.tile_ROWS, Rg.tile_EXCH_OUT_64, Rg.tile_EXCH_IN_64, Rg.tile_RES_ERRS, Rg.tile_PAR_ERRS, Rg.tile_WRAP, Rg.tile_WRAP_SEQ, Rg.tile_SRC_LO, Rg.tile_SRC_HI, Rg.tile_SPACE, Rg.tile_PEER, Rg.tile_VC, Rg.tile_CYCLIC, Rg.tile_CHUNK_BYTES, Rg.tile_STRIDE, Rg.tile_COUNT] ++
  [Rg.tile_PER_BEAT, Rg.tile_LEAD, Rg.tile_SLOTS, Rg.tile_LAND_BASE, Rg.tile_START_LO, Rg.tile_START_HI, Rg.tile_EN, Rg.tile_STOP, Rg.tile_STATE, Rg.tile_ERRCODE, Rg.tile_DELIVERED, Rg.tile_BATCH, Rg.tile_LATE, Rg.tile_SIZE, Rg.tile_INV, Rg.tile_CRANGE_BASE] ++
  [Rg.tile_CRANGE_EN, Rg.tile_CRANGE_LIM, Rg.tile_CACHE_HITS, Rg.tile_CACHE_MISSES, Rg.tile_CWRAP, Rg.tile_CWRAP_SEQ]

/-! ## hbm -/

/-- R233: requested interleave mode (R208) -/
def Rg.hbm_MODE : Fld :=
  { id := 123, off := 0x0, lo := 0, w := 3, acc := .rw, reset := .const 3 }

/-- R233: requested spares per stack, 0 to 2; 3 reserved, and a write of 3 leaves the field unchanged (R22), so APPLY never installs it -/
def Rg.hbm_SPARES : Fld :=
  { id := 124, off := 0x0, lo := 4, w := 2, acc := .rw, vmin := 0, vmax := 2 }

/-- R233: installs MODE and SPARES (R210) -/
def Rg.hbm_APPLY : Fld :=
  { id := 125, off := 0x0, lo := 6, w := 1, acc := .wo }

/-- R233: mode in force -/
def Rg.hbm_MODE_CUR : Fld :=
  { id := 126, off := 0x4, lo := 0, w := 3, acc := .ro, reset := .const 3 }

/-- R233: spares in force -/
def Rg.hbm_SPARES_CUR : Fld :=
  { id := 127, off := 0x4, lo := 4, w := 2, acc := .ro }

/-- R233: the latest APPLY was refused -/
def Rg.hbm_APPLY_ERR : Fld :=
  { id := 128, off := 0x4, lo := 6, w := 1, acc := .ro }

/-- R233: scrubbing enabled -/
def Rg.hbm_SCRUB_EN : Fld :=
  { id := 129, off := 0x8, lo := 0, w := 1, acc := .rw, reset := .const 1 }

/-- R233: opportunistic scrubbing enabled (R215) -/
def Rg.hbm_OPPORTUNE : Fld :=
  { id := 130, off := 0x8, lo := 1, w := 1, acc := .rw, reset := .const 1 }

/-- R233: operations per reserved slot, 2 to 5 -/
def Rg.hbm_SLOT_OPS : Fld :=
  { id := 131, off := 0x8, lo := 2, w := 3, acc := .rw, vmin := 2, vmax := 5, reset := .const 5 }

/-- R233: slot period while no beats run, 8 to 4,000 (R216) -/
def Rg.hbm_IDLE_PERIOD_US : Fld :=
  { id := 132, off := 0xc, lo := 0, w := 12, acc := .rw, vmin := 8, vmax := 4000, reset := .const 40 }

/-- R233: corrected errors over all pseudo-channels -/
def Rg.hbm_CE_COUNT : Fld :=
  { id := 133, off := 0x10, lo := 0, w := 48, acc := .ro, pair := true }

/-- R233: uncorrectable errors, saturating at 2^16 − 1 -/
def Rg.hbm_UE_COUNT : Fld :=
  { id := 134, off := 0x18, lo := 0, w := 16, acc := .ro }

/-- R233: completed scrub passes (R218) -/
def Rg.hbm_SCRUB_PASSES : Fld :=
  { id := 135, off := 0x1c, lo := 0, w := 32, acc := .ro }

/-- R233: set when any PC_MAP entry changes (R211) -/
def Rg.hbm_MAP_CHANGED : Fld :=
  { id := 136, off := 0x20, lo := 0, w := 1, acc := .sq }

/-- R233: incremented, modulo 2^16, with every change -/
def Rg.hbm_MAP_SEQ : Fld :=
  { id := 137, off := 0x20, lo := 16, w := 16, acc := .sq }

/-- R233: physical pseudo-channel of logical pseudo-channel 4w + e of stack Hs -/
def Rg.hbm_PHYS : Fld :=
  { id := 138, off := 0x100, lo := 0, w := 5, acc := .ro, n1 := 6, s1 := 32, n2 := 8, s2 := 4, nb := 4, sb := 8, reset := .modOf 32 }

/-- R233: that logical pseudo-channel is a hole -/
def Rg.hbm_HOLE : Fld :=
  { id := 139, off := 0x100, lo := 5, w := 1, acc := .ro, n1 := 6, s1 := 32, n2 := 8, s2 := 4, nb := 4, sb := 8 }

/-- The fields of the hbm block. -/
def Rg.hbmFlds : List Fld :=
  [Rg.hbm_MODE, Rg.hbm_SPARES, Rg.hbm_APPLY, Rg.hbm_MODE_CUR, Rg.hbm_SPARES_CUR, Rg.hbm_APPLY_ERR, Rg.hbm_SCRUB_EN, Rg.hbm_OPPORTUNE, Rg.hbm_SLOT_OPS, Rg.hbm_IDLE_PERIOD_US, Rg.hbm_CE_COUNT, Rg.hbm_UE_COUNT, Rg.hbm_SCRUB_PASSES, Rg.hbm_MAP_CHANGED, Rg.hbm_MAP_SEQ, Rg.hbm_PHYS] ++
  [Rg.hbm_HOLE]

/-! ## place -/

/-- R238: bed identifier, common to every member -/
def Rg.place_BED_ID : Fld :=
  { id := 140, off := 0x0, lo := 0, w := 32, acc := .rw }

/-- R238: S, 1 to 64 -/
def Rg.place_STRIPS : Fld :=
  { id := 141, off := 0x4, lo := 0, w := 7, acc := .rw, reset := .const 1 }

/-- R238: G, 1 to 64; S × G must not exceed 64 -/
def Rg.place_STRETCHES : Fld :=
  { id := 142, off := 0x4, lo := 8, w := 7, acc := .rw, reset := .const 1 }

/-- R238: i of this member -/
def Rg.place_STRIP : Fld :=
  { id := 143, off := 0x4, lo := 16, w := 6, acc := .rw }

/-- R238: j of this member -/
def Rg.place_STRETCH : Fld :=
  { id := 144, off := 0x4, lo := 24, w := 6, acc := .rw }

/-- R238: STRETCH_LEN bits [31:0] -/
def Rg.place_STRETCH_LEN_LO : Fld :=
  { id := 145, off := 0x8, lo := 0, w := 32, acc := .rw }

/-- R238: STRETCH_LEN bits [47:32] -/
def Rg.place_STRETCH_LEN_HI : Fld :=
  { id := 146, off := 0xc, lo := 0, w := 16, acc := .rw }

/-- R238: MID of the standby member that replaces this member -/
def Rg.place_SPARE_MID : Fld :=
  { id := 147, off := 0x10, lo := 0, w := 8, acc := .rw }

/-- R238: SPARE_MID is valid -/
def Rg.place_SPARE_EN : Fld :=
  { id := 148, off := 0x10, lo := 8, w := 1, acc := .rw }

/-- R238: placement in force (R239) -/
def Rg.place_PLACE_VALID : Fld :=
  { id := 149, off := 0x14, lo := 0, w := 1, acc := .rw }

/-- R238: the latest check failed (R239) -/
def Rg.place_PLACE_BAD : Fld :=
  { id := 150, off := 0x14, lo := 1, w := 1, acc := .ro }

/-- R238: stream-table entries in state open, 0 to 4,096 -/
def Rg.place_STREAMS_OPEN : Fld :=
  { id := 151, off := 0x20, lo := 0, w := 13, acc := .ro }

/-- R238: set at every commit-gate error (R252) -/
def Rg.place_GATE_ERR : Fld :=
  { id := 152, off := 0x24, lo := 0, w := 1, acc := .sq }

/-- R238: incremented, modulo 2^16, at every commit-gate error -/
def Rg.place_GATE_SEQ : Fld :=
  { id := 153, off := 0x24, lo := 16, w := 16, acc := .sq }

/-- R238: stream field of the latest error's record -/
def Rg.place_ERR_STREAM : Fld :=
  { id := 154, off := 0x28, lo := 0, w := 16, acc := .ro }

/-- R238: code of the latest error (R252) -/
def Rg.place_ERR_CODE : Fld :=
  { id := 155, off := 0x28, lo := 16, w := 4, acc := .ro }

/-- R238: tokens this gate has released to their destinations -/
def Rg.place_RELEASED : Fld :=
  { id := 156, off := 0x30, lo := 0, w := 64, acc := .ro, pair := true }

/-- R238: speculative token records discarded by verdicts or errors -/
def Rg.place_DISCARDED : Fld :=
  { id := 157, off := 0x38, lo := 0, w := 64, acc := .ro, pair := true }

/-- The fields of the place block. -/
def Rg.placeFlds : List Fld :=
  [Rg.place_BED_ID, Rg.place_STRIPS, Rg.place_STRETCHES, Rg.place_STRIP, Rg.place_STRETCH, Rg.place_STRETCH_LEN_LO, Rg.place_STRETCH_LEN_HI, Rg.place_SPARE_MID, Rg.place_SPARE_EN, Rg.place_PLACE_VALID, Rg.place_PLACE_BAD, Rg.place_STREAMS_OPEN, Rg.place_GATE_ERR, Rg.place_GATE_SEQ, Rg.place_ERR_STREAM, Rg.place_ERR_CODE] ++
  [Rg.place_RELEASED, Rg.place_DISCARDED]

/-! ## dvport -/

/-- R294: the port may train -/
def Rg.dvport_EN : Fld :=
  { id := 158, off := 0x0, lo := 0, w := 1, acc := .rw, reset := .const 1 }

/-- R294: retrains the link (R279) -/
def Rg.dvport_RETRAIN : Fld :=
  { id := 159, off := 0x0, lo := 1, w := 1, acc := .wo }

/-- R294: 0 DOWN, 1 TRAINING, 2 NEGOTIATE, 3 UP, 4 RETRAIN, 5 NOMATCH, 6 RETIRED, 7 reserved -/
def Rg.dvport_STATE : Fld :=
  { id := 160, off := 0x4, lo := 0, w := 3, acc := .ro }

/-- R294: lane mask in use -/
def Rg.dvport_LANES : Fld :=
  { id := 161, off := 0x4, lo := 3, w := 8, acc := .ro }

/-- R294: version in use -/
def Rg.dvport_VERSION : Fld :=
  { id := 162, off := 0x4, lo := 11, w := 4, acc := .ro }

/-- R294: R267 -/
def Rg.dvport_CRED_ERR : Fld :=
  { id := 163, off := 0x4, lo := 15, w := 1, acc := .ro }

/-- R294: MID of the other end -/
def Rg.dvport_PEER_MID : Fld :=
  { id := 164, off := 0x4, lo := 16, w := 8, acc := .ro }

/-- R294: port of the other end -/
def Rg.dvport_PEER_PORT : Fld :=
  { id := 165, off := 0x4, lo := 24, w := 5, acc := .ro }

/-- R294: R276 -/
def Rg.dvport_NEG_ERR : Fld :=
  { id := 166, off := 0x4, lo := 29, w := 2, acc := .ro }

/-- R294: features in use -/
def Rg.dvport_FEATURES : Fld :=
  { id := 167, off := 0x8, lo := 0, w := 32, acc := .ro }

/-- R294: fabric cycles (R265) -/
def Rg.dvport_LINK_DELAY : Fld :=
  { id := 168, off := 0xc, lo := 0, w := 12, acc := .ro }

/-- R294: flit buffers of channel k (R267) -/
def Rg.dvport_CREDITS_VC : Fld :=
  { id := 169, off := 0x10, lo := 0, w := 11, acc := .rw, n1 := 8, s1 := 4, n2 := 1, s2 := 0, vmin := 1, vmax := 1023,
    reset := .const 128 }

/-- R294: corrected codewords per lane per 1 ms (R277) -/
def Rg.dvport_LANE_CE_LIMIT : Fld :=
  { id := 170, off := 0x30, lo := 0, w := 24, acc := .rw, reset := .const 65536 }

/-- R294: set at every change of STATE or LANES -/
def Rg.dvport_LINK_EVT : Fld :=
  { id := 171, off := 0x34, lo := 0, w := 1, acc := .sq }

/-- R294: incremented, modulo 2^16, at every such change -/
def Rg.dvport_LINK_SEQ : Fld :=
  { id := 172, off := 0x34, lo := 16, w := 16, acc := .sq }

/-- R294: data flits sent, retries included -/
def Rg.dvport_FLITS_TX : Fld :=
  { id := 173, off := 0x40, lo := 0, w := 48, acc := .ro, pair := true }

/-- R294: data flits accepted -/
def Rg.dvport_FLITS_RX : Fld :=
  { id := 174, off := 0x48, lo := 0, w := 48, acc := .ro, pair := true }

/-- R294: codewords corrected -/
def Rg.dvport_FEC_CORR : Fld :=
  { id := 175, off := 0x50, lo := 0, w := 48, acc := .ro, pair := true }

/-- R294: flits discarded under R261, saturating at 2^16 − 1 -/
def Rg.dvport_CRC_ERRS : Fld :=
  { id := 176, off := 0x58, lo := 0, w := 16, acc := .ro }

/-- R294: retrains, saturating at 2^16 − 1 -/
def Rg.dvport_RETRAINS : Fld :=
  { id := 177, off := 0x58, lo := 16, w := 16, acc := .ro }

/-- R294: NAKs acted on, saturating at 2^16 − 1 -/
def Rg.dvport_REPLAYS : Fld :=
  { id := 178, off := 0x5c, lo := 0, w := 16, acc := .ro }

/-- R294: reserved symbols received, saturating at 2^16 − 1 -/
def Rg.dvport_RSVD_SYMS : Fld :=
  { id := 179, off := 0x5c, lo := 16, w := 16, acc := .ro }

/-- R294: bit k set: the counter at 0x040 + 8k has wrapped -/
def Rg.dvport_WRAP : Fld :=
  { id := 180, off := 0x60, lo := 0, w := 3, acc := .sq }

/-- R294: incremented, modulo 2^16, at every wrap -/
def Rg.dvport_WRAP_SEQ : Fld :=
  { id := 181, off := 0x60, lo := 16, w := 16, acc := .sq }

/-- R294: corrected codewords of lane l in the latest 1 ms window -/
def Rg.dvport_LANE_CE : Fld :=
  { id := 182, off := 0x80, lo := 0, w := 24, acc := .ro, n1 := 8, s1 := 4, n2 := 1, s2 := 0 }

/-- The fields of the dvport block. -/
def Rg.dvportFlds : List Fld :=
  [Rg.dvport_EN, Rg.dvport_RETRAIN, Rg.dvport_STATE, Rg.dvport_LANES, Rg.dvport_VERSION, Rg.dvport_CRED_ERR, Rg.dvport_PEER_MID, Rg.dvport_PEER_PORT, Rg.dvport_NEG_ERR, Rg.dvport_FEATURES, Rg.dvport_LINK_DELAY, Rg.dvport_CREDITS_VC, Rg.dvport_LANE_CE_LIMIT, Rg.dvport_LINK_EVT, Rg.dvport_LINK_SEQ, Rg.dvport_FLITS_TX] ++
  [Rg.dvport_FLITS_RX, Rg.dvport_FEC_CORR, Rg.dvport_CRC_ERRS, Rg.dvport_RETRAINS, Rg.dvport_REPLAYS, Rg.dvport_RSVD_SYMS, Rg.dvport_WRAP, Rg.dvport_WRAP_SEQ, Rg.dvport_LANE_CE]

/-! ## dvorar -/

/-- R295: makes the other bank active at the next tick (R272) -/
def Rg.dvorar_SWAP : Fld :=
  { id := 183, off := 0x0, lo := 0, w := 1, acc := .wo }

/-- R295: 0 bank A, 1 bank B -/
def Rg.dvorar_ACTIVE : Fld :=
  { id := 184, off := 0x0, lo := 1, w := 1, acc := .ro }

/-- R295: the fault manager may compute routes (R272) -/
def Rg.dvorar_AUTO_EN : Fld :=
  { id := 185, off := 0x0, lo := 2, w := 1, acc := .rw, reset := .const 1 }

/-- R295: written by the fault manager (R292) -/
def Rg.dvorar_ALIAS_MID : Fld :=
  { id := 186, off := 0x4, lo := 0, w := 8, acc := .ro }

/-- R295: written by the fault manager -/
def Rg.dvorar_ALIAS_EN : Fld :=
  { id := 187, off := 0x4, lo := 8, w := 1, acc := .ro }

/-- R295: window per connection, 1 to 1,024 packets -/
def Rg.dvorar_SWIN : Fld :=
  { id := 188, off := 0x8, lo := 0, w := 11, acc := .rw, vmin := 1, vmax := 1024, reset := .const 256 }

/-- R295: initial RTO in µs, 1 to 255 -/
def Rg.dvorar_RTO_INIT : Fld :=
  { id := 189, off := 0x8, lo := 16, w := 8, acc := .rw, vmin := 1, vmax := 255, reset := .const 8 }

/-- R295: R285, 1 to 15 -/
def Rg.dvorar_RETRY_LIMIT : Fld :=
  { id := 190, off := 0x8, lo := 24, w := 4, acc := .rw, vmin := 1, vmax := 15, reset := .const 7 }

/-- R295: µs, 1 to 255 (R291) -/
def Rg.dvorar_RESEND_DELAY : Fld :=
  { id := 191, off := 0xc, lo := 0, w := 8, acc := .rw, vmin := 1, vmax := 255, reset := .const 20 }

/-- R295: 1 to 15 -/
def Rg.dvorar_PAGE_RETRIES : Fld :=
  { id := 192, off := 0xc, lo := 8, w := 4, acc := .rw, vmin := 1, vmax := 15, reset := .const 8 }

/-- R295: R290 -/
def Rg.dvorar_XLATE_EN : Fld :=
  { id := 193, off := 0xc, lo := 12, w := 1, acc := .rw }

/-- R295: MiB offset of the translation table in hub SRAM, 0 to 95 -/
def Rg.dvorar_RATT_BASE : Fld :=
  { id := 194, off := 0x10, lo := 0, w := 7, acc := .rw, vmin := 0, vmax := 95 }

/-- R295: transport packets retransmitted -/
def Rg.dvorar_RETRANSMITS : Fld :=
  { id := 195, off := 0x18, lo := 0, w := 48, acc := .ro, pair := true }

/-- R295: PAGE_RETRYs sent -/
def Rg.dvorar_PAGE_STALLS : Fld :=
  { id := 196, off := 0x20, lo := 0, w := 32, acc := .ro }

/-- R295: R271, saturating at 2^16 − 1 -/
def Rg.dvorar_NOROUTE : Fld :=
  { id := 197, off := 0x24, lo := 0, w := 16, acc := .ro }

/-- R295: R283, saturating at 2^16 − 1 -/
def Rg.dvorar_BADPKT : Fld :=
  { id := 198, off := 0x24, lo := 16, w := 16, acc := .ro }

/-- R295: RETRANSMITS has wrapped -/
def Rg.dvorar_RWRAP : Fld :=
  { id := 199, off := 0x28, lo := 0, w := 1, acc := .sq }

/-- R295: incremented, modulo 2^16, at every wrap -/
def Rg.dvorar_RWRAP_SEQ : Fld :=
  { id := 200, off := 0x28, lo := 16, w := 16, acc := .sq }

/-- R295: bank A entry for MID m (R270) -/
def Rg.dvorar_ROUTE_A : Fld :=
  { id := 201, off := 0x1000, lo := 0, w := 32, acc := .rw, n1 := 256, s1 := 4, n2 := 1, s2 := 0, reset := .const 1048575 }

/-- R295: bank B entry for MID m -/
def Rg.dvorar_ROUTE_B : Fld :=
  { id := 202, off := 0x1400, lo := 0, w := 32, acc := .rw, n1 := 256, s1 := 4, n2 := 1, s2 := 0, reset := .const 1048575 }

/-- The fields of the dvorar block. -/
def Rg.dvorarFlds : List Fld :=
  [Rg.dvorar_SWAP, Rg.dvorar_ACTIVE, Rg.dvorar_AUTO_EN, Rg.dvorar_ALIAS_MID, Rg.dvorar_ALIAS_EN, Rg.dvorar_SWIN, Rg.dvorar_RTO_INIT, Rg.dvorar_RETRY_LIMIT, Rg.dvorar_RESEND_DELAY, Rg.dvorar_PAGE_RETRIES, Rg.dvorar_XLATE_EN, Rg.dvorar_RATT_BASE, Rg.dvorar_RETRANSMITS, Rg.dvorar_PAGE_STALLS, Rg.dvorar_NOROUTE, Rg.dvorar_BADPKT] ++
  [Rg.dvorar_RWRAP, Rg.dvorar_RWRAP_SEQ, Rg.dvorar_ROUTE_A, Rg.dvorar_ROUTE_B]

/-! ## sieve -/

/-- R326: R297 -/
def Rg.sieve_PORT_MODE : Fld :=
  { id := 203, off := 0x0, lo := 0, w := 2, acc := .rw, reset := .const 1 }

/-- R326: bit p enables port ep(p) (R310) -/
def Rg.sieve_PORT_EN : Fld :=
  { id := 204, off := 0x0, lo := 8, w := 8, acc := .rw }

/-- R326: R310 -/
def Rg.sieve_CFG_LOADED : Fld :=
  { id := 205, off := 0x0, lo := 16, w := 1, acc := .ro }

/-- R326: 1,518 to 9,216 bytes -/
def Rg.sieve_MAX_FRAME : Fld :=
  { id := 206, off := 0x4, lo := 0, w := 14, acc := .rw, vmin := 1518, vmax := 9216, reset := .const 9216 }

/-- R326: MiB offset in hub SRAM, 0 to 61 -/
def Rg.sieve_SV_BASE : Fld :=
  { id := 207, off := 0x8, lo := 0, w := 7, acc := .rw, vmin := 0, vmax := 61 }

/-- R326: bit t swaps table t -/
def Rg.sieve_SWAP_MASK : Fld :=
  { id := 208, off := 0x10, lo := 0, w := 16, acc := .rw }

/-- R326: swap the configuration set -/
def Rg.sieve_SWAP_CFG : Fld :=
  { id := 209, off := 0x10, lo := 16, w := 1, acc := .rw }

/-- R326: R310 -/
def Rg.sieve_GO : Fld :=
  { id := 210, off := 0x10, lo := 17, w := 1, acc := .wo }

/-- R326: R310 -/
def Rg.sieve_BUSY : Fld :=
  { id := 211, off := 0x10, lo := 18, w := 1, acc := .ro }

/-- R326: bit t: bank B of table t is active -/
def Rg.sieve_ACTIVE_B : Fld :=
  { id := 212, off := 0x14, lo := 0, w := 16, acc := .ro }

/-- R326: configuration bank B is active -/
def Rg.sieve_CFG_B : Fld :=
  { id := 213, off := 0x14, lo := 16, w := 1, acc := .ro }

/-- R326: set when a swap completes -/
def Rg.sieve_SWAP_DONE : Fld :=
  { id := 214, off := 0x18, lo := 0, w := 1, acc := .sq }

/-- R326: R311 -/
def Rg.sieve_WR_IGNORED : Fld :=
  { id := 215, off := 0x18, lo := 1, w := 1, acc := .sq }

/-- R326: incremented, modulo 2^16, at every completed swap -/
def Rg.sieve_SWAP_SEQ : Fld :=
  { id := 216, off := 0x18, lo := 16, w := 16, acc := .sq }

/-- R326: R310, latest GO -/
def Rg.sieve_CFG_ERR : Fld :=
  { id := 217, off := 0x1c, lo := 0, w := 3, acc := .ro }

/-- R326: R310 -/
def Rg.sieve_CFG_ERR_IDX : Fld :=
  { id := 218, off := 0x1c, lo := 16, w := 12, acc := .ro }

/-- R326: port ep(p) is up -/
def Rg.sieve_UP : Fld :=
  { id := 219, off := 0x20, lo := 0, w := 1, acc := .ro, n1 := 8, s1 := 4, n2 := 1, s2 := 0 }

/-- R326: FEC of ep(p) is locked -/
def Rg.sieve_FEC_LOCK : Fld :=
  { id := 220, off := 0x20, lo := 1, w := 1, acc := .ro, n1 := 8, s1 := 4, n2 := 1, s2 := 0 }

/-- R326: program of the first pass -/
def Rg.sieve_ENTRY_PROG : Fld :=
  { id := 221, off := 0x20, lo := 8, w := 6, acc := .rw, n1 := 8, s1 := 4, n2 := 1, s2 := 0 }

/-- R326: R308: 0 none, 1 bank range, 3 table in use -/
def Rg.sieve_TBL_ERR : Fld :=
  { id := 222, off := 0x40, lo := 0, w := 2, acc := .ro }

/-- R326: table of the latest TBL_ERR -/
def Rg.sieve_TBL_ERR_T : Fld :=
  { id := 223, off := 0x40, lo := 2, w := 4, acc := .ro }

/-- R326: R305 -/
def Rg.sieve_LAST_REJECT : Fld :=
  { id := 224, off := 0x40, lo := 6, w := 3, acc := .ro }

/-- R326: table enabled (R308) -/
def Rg.sieve_TBL_EN : Fld :=
  { id := 225, off := 0x100, lo := 0, w := 1, acc := .rw, n1 := 16, s1 := 16, n2 := 1, s2 := 0 }

/-- R326: U: 0 one slot, 1 two, 2 four, 3 reserved -/
def Rg.sieve_UNITS : Fld :=
  { id := 226, off := 0x100, lo := 1, w := 2, acc := .rw, n1 := 16, s1 := 16, n2 := 1, s2 := 0, vmin := 0, vmax := 2 }

/-- R326: 0 to 19 -/
def Rg.sieve_BUCKETS_LOG2 : Fld :=
  { id := 227, off := 0x100, lo := 3, w := 5, acc := .rw, n1 := 16, s1 := 16, n2 := 1, s2 := 0, vmin := 0, vmax := 19 }

/-- R326: first slot of bank A -/
def Rg.sieve_BANK_A : Fld :=
  { id := 228, off := 0x104, lo := 0, w := 21, acc := .rw, n1 := 16, s1 := 16, n2 := 1, s2 := 0 }

/-- R326: first slot of bank B -/
def Rg.sieve_BANK_B : Fld :=
  { id := 229, off := 0x108, lo := 0, w := 21, acc := .rw, n1 := 16, s1 := 16, n2 := 1, s2 := 0 }

/-- R326: R309 -/
def Rg.sieve_MISS_ACTION : Fld :=
  { id := 230, off := 0x10c, lo := 0, w := 16, acc := .rw, n1 := 16, s1 := 16, n2 := 1, s2 := 0 }

/-- R326: R309 -/
def Rg.sieve_SEED1 : Fld :=
  { id := 231, off := 0x200, lo := 0, w := 32, acc := .rw, n1 := 16, s1 := 8, n2 := 1, s2 := 0 }

/-- R326: R309 -/
def Rg.sieve_SEED2 : Fld :=
  { id := 232, off := 0x204, lo := 0, w := 32, acc := .rw, n1 := 16, s1 := 8, n2 := 1, s2 := 0 }

/-- R326: 0 egress queue, 1 plot ring, 2 and 3 reserved -/
def Rg.sieve_MKIND : Fld :=
  { id := 233, off := 0x300, lo := 0, w := 2, acc := .rw, n1 := 16, s1 := 8, n2 := 1, s2 := 0, vmin := 0, vmax := 1 }

/-- R326: port -/
def Rg.sieve_MPORT : Fld :=
  { id := 234, off := 0x300, lo := 2, w := 3, acc := .rw, n1 := 16, s1 := 8, n2 := 1, s2 := 0 }

/-- R326: queue -/
def Rg.sieve_MQUEUE : Fld :=
  { id := 235, off := 0x300, lo := 5, w := 7, acc := .rw, n1 := 16, s1 := 8, n2 := 1, s2 := 0 }

/-- R326: plot -/
def Rg.sieve_MPLOT : Fld :=
  { id := 236, off := 0x300, lo := 12, w := 7, acc := .rw, n1 := 16, s1 := 8, n2 := 1, s2 := 0 }

/-- R326: ring -/
def Rg.sieve_MRING : Fld :=
  { id := 237, off := 0x300, lo := 19, w := 4, acc := .rw, n1 := 16, s1 := 8, n2 := 1, s2 := 0 }

/-- R326: session enabled; a disabled session drops its copies (R317) -/
def Rg.sieve_MEN : Fld :=
  { id := 238, off := 0x300, lo := 23, w := 1, acc := .rw, n1 := 16, s1 := 8, n2 := 1, s2 := 0 }

/-- R326: 0 whole frame, or 64 to 9,216 bytes -/
def Rg.sieve_TRUNC : Fld :=
  { id := 239, off := 0x304, lo := 0, w := 14, acc := .rw, n1 := 16, s1 := 8, n2 := 1, s2 := 0, vmin := 64, vmax := 9216, zero := true }

/-- R326: R319 -/
def Rg.sieve_CNT_IDX : Fld :=
  { id := 240, off := 0x400, lo := 0, w := 16, acc := .rw }

/-- R326: R319 -/
def Rg.sieve_CNT_CLR : Fld :=
  { id := 241, off := 0x400, lo := 16, w := 1, acc := .rw }

/-- R326: R319 -/
def Rg.sieve_SNAP : Fld :=
  { id := 242, off := 0x400, lo := 17, w := 1, acc := .wo }

/-- R326: PKTS of the latest snapshot -/
def Rg.sieve_SNAP_PKTS : Fld :=
  { id := 243, off := 0x408, lo := 0, w := 64, acc := .ro, pair := true }

/-- R326: BYTES of the latest snapshot -/
def Rg.sieve_SNAP_BYTES : Fld :=
  { id := 244, off := 0x410, lo := 0, w := 63, acc := .ro, pair := true }

/-- R326: WRAP of the latest snapshot -/
def Rg.sieve_SNAP_WRAP : Fld :=
  { id := 245, off := 0x414, lo := 31, w := 1, acc := .ro }

/-- R326: j = 0 FCS_DROPS, 1 LEN_DROPS, 2 MACCTL_DROPS, 3 INGRESS_FULL, 4 PARSE_REJECT, 5 NODISP, 6 RECIRC_LIMIT, 7 RECIRC_FULL, 8 PAR_DROP, 9 MARK_SKIP, 10 MIR_DROP, 11 DEST_DROP, 12 DUPHIT -/
def Rg.sieve_DROP : Fld :=
  { id := 246, off := 0x500, lo := 0, w := 64, acc := .ro, n1 := 13, s1 := 8, n2 := 1, s2 := 0, pair := true }

/-- R326: frames of ep(p) passing R299 -/
def Rg.sieve_RX_FRAMES : Fld :=
  { id := 247, off := 0x600, lo := 0, w := 64, acc := .ro, n1 := 8, s1 := 32, n2 := 1, s2 := 0, pair := true }

/-- R326: their bytes -/
def Rg.sieve_RX_BYTES : Fld :=
  { id := 248, off := 0x608, lo := 0, w := 64, acc := .ro, n1 := 8, s1 := 32, n2 := 1, s2 := 0, pair := true }

/-- R326: frames sent by ep(p) -/
def Rg.sieve_TX_FRAMES : Fld :=
  { id := 249, off := 0x610, lo := 0, w := 64, acc := .ro, n1 := 8, s1 := 32, n2 := 1, s2 := 0, pair := true }

/-- R326: their bytes -/
def Rg.sieve_TX_BYTES : Fld :=
  { id := 250, off := 0x618, lo := 0, w := 64, acc := .ro, n1 := 8, s1 := 32, n2 := 1, s2 := 0, pair := true }

/-- R326: key bytes 4w to 4w + 3 of ep(p), byte 4w in bits [31:24] -/
def Rg.sieve_TKEY : Fld :=
  { id := 251, off := 0x1000, lo := 0, w := 32, acc := .rw, n1 := 8, s1 := 64, n2 := 13, s2 := 4 }

/-- R326: entry 2i of ep(p) (R323) -/
def Rg.sieve_IND : Fld :=
  { id := 252, off := 0x2000, lo := 0, w := 16, acc := .rw, n1 := 8, s1 := 1024, n2 := 256, s2 := 4, nb := 2, sb := 16 }

/-- The fields of the sieve block. -/
def Rg.sieveFlds : List Fld :=
  [Rg.sieve_PORT_MODE, Rg.sieve_PORT_EN, Rg.sieve_CFG_LOADED, Rg.sieve_MAX_FRAME, Rg.sieve_SV_BASE, Rg.sieve_SWAP_MASK, Rg.sieve_SWAP_CFG, Rg.sieve_GO, Rg.sieve_BUSY, Rg.sieve_ACTIVE_B, Rg.sieve_CFG_B, Rg.sieve_SWAP_DONE, Rg.sieve_WR_IGNORED, Rg.sieve_SWAP_SEQ, Rg.sieve_CFG_ERR, Rg.sieve_CFG_ERR_IDX] ++
  [Rg.sieve_UP, Rg.sieve_FEC_LOCK, Rg.sieve_ENTRY_PROG, Rg.sieve_TBL_ERR, Rg.sieve_TBL_ERR_T, Rg.sieve_LAST_REJECT, Rg.sieve_TBL_EN, Rg.sieve_UNITS, Rg.sieve_BUCKETS_LOG2, Rg.sieve_BANK_A, Rg.sieve_BANK_B, Rg.sieve_MISS_ACTION, Rg.sieve_SEED1, Rg.sieve_SEED2, Rg.sieve_MKIND, Rg.sieve_MPORT] ++
  [Rg.sieve_MQUEUE, Rg.sieve_MPLOT, Rg.sieve_MRING, Rg.sieve_MEN, Rg.sieve_TRUNC, Rg.sieve_CNT_IDX, Rg.sieve_CNT_CLR, Rg.sieve_SNAP, Rg.sieve_SNAP_PKTS, Rg.sieve_SNAP_BYTES, Rg.sieve_SNAP_WRAP, Rg.sieve_DROP, Rg.sieve_RX_FRAMES, Rg.sieve_RX_BYTES, Rg.sieve_TX_FRAMES, Rg.sieve_TX_BYTES] ++
  [Rg.sieve_TKEY, Rg.sieve_IND]

/-! ## eth -/

/-- R354: destination port of the UDP transport -/
def Rg.eth_UDP_PORT : Fld :=
  { id := 253, off := 0x0, lo := 0, w := 16, acc := .rw, reset := .const 47800 }

/-- R354: context table, in 512 KiB units of hub SRAM, 0 to 191 -/
def Rg.eth_ECTX_BASE : Fld :=
  { id := 254, off := 0x4, lo := 0, w := 8, acc := .rw, vmin := 0, vmax := 191 }

/-- R354: region table, in 128 KiB units of hub SRAM, 0 to 767 -/
def Rg.eth_RRT_BASE : Fld :=
  { id := 255, off := 0x4, lo := 8, w := 10, acc := .rw, vmin := 0, vmax := 767 }

/-- R354: window, 1 to 1,024 packets -/
def Rg.eth_SWIN_E : Fld :=
  { id := 256, off := 0x8, lo := 0, w := 11, acc := .rw, vmin := 1, vmax := 1024, reset := .const 512 }

/-- R354: µs, 1 to 255 -/
def Rg.eth_RTO_INIT_E : Fld :=
  { id := 257, off := 0x8, lo := 16, w := 8, acc := .rw, vmin := 1, vmax := 255, reset := .const 64 }

/-- R354: 1 to 15; RoCEv2 contexts use at most 7 -/
def Rg.eth_RETRY_LIMIT_E : Fld :=
  { id := 258, off := 0x8, lo := 24, w := 4, acc := .rw, vmin := 1, vmax := 15, reset := .const 7 }

/-- R354: ms, 1 to 255 -/
def Rg.eth_RTO_MAX_E : Fld :=
  { id := 259, off := 0xc, lo := 0, w := 8, acc := .rw, vmin := 1, vmax := 255, reset := .const 8 }

/-- R354: µs, 1 to 255 -/
def Rg.eth_CNP_GAP : Fld :=
  { id := 260, off := 0xc, lo := 8, w := 8, acc := .rw, vmin := 1, vmax := 255, reset := .const 50 }

/-- R354: context of the command -/
def Rg.eth_CTX : Fld :=
  { id := 261, off := 0x10, lo := 0, w := 13, acc := .rw }

/-- R354: 1 OPEN, 2 CLOSE, 3 CLEAR (R330); writing a nonzero OP starts the command -/
def Rg.eth_OP : Fld :=
  { id := 262, off := 0x10, lo := 13, w := 2, acc := .wo }

/-- R354: a command is running -/
def Rg.eth_BUSY : Fld :=
  { id := 263, off := 0x10, lo := 16, w := 1, acc := .ro }

/-- R354: R330 -/
def Rg.eth_CMD_ERR : Fld :=
  { id := 264, off := 0x10, lo := 17, w := 2, acc := .ro }

/-- R354: set when a context enters state 2 -/
def Rg.eth_CERR : Fld :=
  { id := 265, off := 0x14, lo := 0, w := 1, acc := .sq }

/-- R354: incremented, modulo 2^16, at every such entry -/
def Rg.eth_CERR_SEQ : Fld :=
  { id := 266, off := 0x14, lo := 16, w := 16, acc := .sq }

/-- R354: latest context in error -/
def Rg.eth_CERR_CTX : Fld :=
  { id := 267, off := 0x18, lo := 0, w := 13, acc := .ro }

/-- R354: its cause (R339) -/
def Rg.eth_CERR_CAUSE : Fld :=
  { id := 268, off := 0x18, lo := 13, w := 6, acc := .ro }

/-- R354: j = 0 RX_APPLIED, 1 TX_PACKETS, 2 RETRANSMITS_E, 3 RX_DUP, 4 BADPEER, 5 HDR_DROPS, 6 ICRC_DROPS, 7 NOCTX, 8 RX_NOBUF, 9 ROCE_UNSUP, 10 CNP_TX, 11 CNP_RX, 12 PORTDOWN_DROPS -/
def Rg.eth_ECNT : Fld :=
  { id := 269, off := 0x100, lo := 0, w := 64, acc := .ro, n1 := 13, s1 := 8, n2 := 1, s2 := 0, pair := true }

/-- R354: MAC address of ep(p), bytes 2 to 5 in network order, byte 2 in [31:24] -/
def Rg.eth_MAC_LO : Fld :=
  { id := 270, off := 0x200, lo := 0, w := 32, acc := .rw, n1 := 8, s1 := 8, n2 := 1, s2 := 0 }

/-- R354: bytes 0 and 1, byte 0 in [15:8] -/
def Rg.eth_MAC_HI : Fld :=
  { id := 271, off := 0x204, lo := 0, w := 16, acc := .rw, n1 := 8, s1 := 8, n2 := 1, s2 := 0 }

/-- R354: queue of transport control packets (R337) -/
def Rg.eth_ACK_Q : Fld :=
  { id := 272, off := 0x204, lo := 16, w := 7, acc := .rw, n1 := 8, s1 := 8, n2 := 1, s2 := 0 }

/-- The fields of the eth block. -/
def Rg.ethFlds : List Fld :=
  [Rg.eth_UDP_PORT, Rg.eth_ECTX_BASE, Rg.eth_RRT_BASE, Rg.eth_SWIN_E, Rg.eth_RTO_INIT_E, Rg.eth_RETRY_LIMIT_E, Rg.eth_RTO_MAX_E, Rg.eth_CNP_GAP, Rg.eth_CTX, Rg.eth_OP, Rg.eth_BUSY, Rg.eth_CMD_ERR, Rg.eth_CERR, Rg.eth_CERR_SEQ, Rg.eth_CERR_CTX, Rg.eth_CERR_CAUSE] ++
  [Rg.eth_ECNT, Rg.eth_MAC_LO, Rg.eth_MAC_HI, Rg.eth_ACK_Q]

/-! ## sched -/

/-- R355: line rate in Mb/s: 800,000, 400,000 or 200,000 -/
def Rg.sched_PORT_RATE : Fld :=
  { id := 273, off := 0x0, lo := 0, w := 20, acc := .ro, reset := .each [400000, 400000, 400000, 400000] }

/-- R355: V of R347 -/
def Rg.sched_VTIME : Fld :=
  { id := 274, off := 0x4, lo := 0, w := 32, acc := .ro }

/-- R355: bucket unit claimed by mirror policer m (R351) -/
def Rg.sched_UNIT : Fld :=
  { id := 275, off := 0x100, lo := 0, w := 7, acc := .rw, n1 := 16, s1 := 8, n2 := 1, s2 := 0 }

/-- R355: policer m enabled -/
def Rg.sched_PEN : Fld :=
  { id := 276, off := 0x100, lo := 7, w := 1, acc := .rw, n1 := 16, s1 := 8, n2 := 1, s2 := 0 }

/-- R355: policer rate, Mb/s -/
def Rg.sched_PRATE : Fld :=
  { id := 277, off := 0x100, lo := 8, w := 20, acc := .rw, n1 := 16, s1 := 8, n2 := 1, s2 := 0 }

/-- R355: policer burst, bytes -/
def Rg.sched_PBURST : Fld :=
  { id := 278, off := 0x104, lo := 0, w := 24, acc := .rw, n1 := 16, s1 := 8, n2 := 1, s2 := 0 }

/-- R355: staged RATE, Mb/s (R352) -/
def Rg.sched_SHP_RATE : Fld :=
  { id := 279, off := 0x1000, lo := 0, w := 20, acc := .rw, n1 := 128, s1 := 32, n2 := 1, s2 := 0 }

/-- R355: bytes -/
def Rg.sched_BURST : Fld :=
  { id := 280, off := 0x1004, lo := 0, w := 24, acc := .rw, n1 := 128, s1 := 32, n2 := 1, s2 := 0 }

/-- R355: 0 unshaped, 1 token bucket, 2 credit, 3 reserved -/
def Rg.sched_MODE : Fld :=
  { id := 281, off := 0x1004, lo := 24, w := 2, acc := .rw, n1 := 128, s1 := 32, n2 := 1, s2 := 0, vmin := 0, vmax := 2 }

/-- R355: R352 -/
def Rg.sched_FILL : Fld :=
  { id := 282, off := 0x1004, lo := 26, w := 1, acc := .wo, n1 := 128, s1 := 32, n2 := 1, s2 := 0 }

/-- R355: 1 to 255; ignored for queues 0 to 3 -/
def Rg.sched_WEIGHT : Fld :=
  { id := 283, off := 0x1008, lo := 0, w := 8, acc := .rw, n1 := 128, s1 := 32, n2 := 1, s2 := 0, vmin := 1, vmax := 255, reset := .const 1 }

/-- R355: bytes (R348) -/
def Rg.sched_OVERHEAD : Fld :=
  { id := 284, off := 0x1008, lo := 8, w := 8, acc := .rw, n1 := 128, s1 := 32, n2 := 1, s2 := 0, reset := .const 20 }

/-- R355: 4 KiB units (R343) -/
def Rg.sched_QLIM : Fld :=
  { id := 285, off := 0x1008, lo := 16, w := 12, acc := .rw, n1 := 128, s1 := 32, n2 := 1, s2 := 0, reset := .const 64 }

/-- R355: R351 -/
def Rg.sched_FALLBACK : Fld :=
  { id := 286, off := 0x100c, lo := 0, w := 1, acc := .ro, n1 := 128, s1 := 32, n2 := 1, s2 := 0 }

/-- R355: R346 -/
def Rg.sched_ELIGIBLE : Fld :=
  { id := 287, off := 0x100c, lo := 1, w := 1, acc := .ro, n1 := 128, s1 := 32, n2 := 1, s2 := 0 }

/-- R355: the queue holds no frame -/
def Rg.sched_EMPTY : Fld :=
  { id := 288, off := 0x100c, lo := 2, w := 1, acc := .ro, n1 := 128, s1 := 32, n2 := 1, s2 := 0, reset := .const 1 }

/-- R355: count or credit in bytes, signed, saturating at ±2^23 -/
def Rg.sched_TOKENS : Fld :=
  { id := 289, off := 0x100c, lo := 8, w := 24, acc := .ro, n1 := 128, s1 := 32, n2 := 1, s2 := 0 }

/-- R355: 4 KiB units; 0 off (R344) -/
def Rg.sched_ECN_THRESH : Fld :=
  { id := 290, off := 0x1010, lo := 0, w := 12, acc := .rw, n1 := 128, s1 := 32, n2 := 1, s2 := 0 }

/-- R355: bytes queued -/
def Rg.sched_DEPTH : Fld :=
  { id := 291, off := 0x1014, lo := 0, w := 23, acc := .ro, n1 := 128, s1 := 32, n2 := 1, s2 := 0 }

/-- R355: frames dropped at enqueue, saturating at 2^32 − 1 -/
def Rg.sched_DROPS : Fld :=
  { id := 292, off := 0x1018, lo := 0, w := 32, acc := .ro, n1 := 128, s1 := 32, n2 := 1, s2 := 0 }

/-- The fields of the sched block. -/
def Rg.schedFlds : List Fld :=
  [Rg.sched_PORT_RATE, Rg.sched_VTIME, Rg.sched_UNIT, Rg.sched_PEN, Rg.sched_PRATE, Rg.sched_PBURST, Rg.sched_SHP_RATE, Rg.sched_BURST, Rg.sched_MODE, Rg.sched_FILL, Rg.sched_WEIGHT, Rg.sched_OVERHEAD, Rg.sched_QLIM, Rg.sched_FALLBACK, Rg.sched_ELIGIBLE, Rg.sched_EMPTY] ++
  [Rg.sched_TOKENS, Rg.sched_ECN_THRESH, Rg.sched_DEPTH, Rg.sched_DROPS]

/-! ## host -/

/-- R394: 1 16 GT/s, 2 32 GT/s, 3 64 GT/s -/
def Rg.host_RATE : Fld :=
  { id := 293, off := 0x0, lo := 0, w := 2, acc := .ro }

/-- R394: lanes: 4, 8 or 16 -/
def Rg.host_WIDTH : Fld :=
  { id := 294, off := 0x0, lo := 2, w := 5, acc := .ro }

/-- R394: flit mode in use -/
def Rg.host_FLIT : Fld :=
  { id := 295, off := 0x0, lo := 7, w := 1, acc := .ro }

/-- R394: requests written, modulo 256 (R382) -/
def Rg.host_MR_DB : Fld :=
  { id := 296, off := 0x4, lo := 0, w := 8, acc := .wo }

/-- R394: requests answered, modulo 256 -/
def Rg.host_MR_CI : Fld :=
  { id := 297, off := 0x4, lo := 8, w := 8, acc := .ro }

/-- R394: manager queue for device events (R375) -/
def Rg.host_MGR_EQ : Fld :=
  { id := 298, off := 0x4, lo := 16, w := 4, acc := .rw }

/-- R394: set at every ring error of any function -/
def Rg.host_RING_ERR : Fld :=
  { id := 299, off := 0x8, lo := 0, w := 1, acc := .sq }

/-- R394: incremented, modulo 2^16, at every ring error -/
def Rg.host_RING_ERR_SEQ : Fld :=
  { id := 300, off := 0x8, lo := 16, w := 16, acc := .sq }

/-- R394: R369, all functions, saturating at 2^32 − 1 -/
def Rg.host_DB_STALE : Fld :=
  { id := 301, off := 0xc, lo := 0, w := 32, acc := .ro }

/-- R394: R380 -/
def Rg.host_EXPORT_DROPS : Fld :=
  { id := 302, off := 0x10, lo := 0, w := 64, acc := .ro, pair := true }

/-- R394: commit-gate staging in use, in 32-byte units, 0 to 262,144 (full) -/
def Rg.host_STAGING_USED : Fld :=
  { id := 303, off := 0x18, lo := 0, w := 19, acc := .ro }

/-- R394: state of plot 8k + i (R364); plot 0 reads 1 -/
def Rg.host_PLOT_STATE : Fld :=
  { id := 304, off := 0x100, lo := 0, w := 3, acc := .ro, n1 := 16, s1 := 4, n2 := 1, s2 := 0, nb := 8, sb := 4, reset := .first 1 }

/-- R394: manager ring r -/
def Rg.host_F : Fld :=
  { id := 305, off := 0x200, lo := 0, w := 16, acc := .ro, n1 := 64, s1 := 4, n2 := 1, s2 := 0 }

/-- R394: manager ring r -/
def Rg.host_U : Fld :=
  { id := 306, off := 0x200, lo := 16, w := 16, acc := .ro, n1 := 64, s1 := 4, n2 := 1, s2 := 0 }

/-- R394: 0 absent, 1 running, 2 error, 3 latched by quiesce -/
def Rg.host_RSTATE : Fld :=
  { id := 307, off := 0x300, lo := 0, w := 2, acc := .ro, n1 := 64, s1 := 4, n2 := 1, s2 := 0 }

/-- R394: 1 or 2 (R369) -/
def Rg.host_RERR : Fld :=
  { id := 308, off := 0x300, lo := 2, w := 4, acc := .ro, n1 := 64, s1 := 4, n2 := 1, s2 := 0 }

/-- R394: CI of manager queue e -/
def Rg.host_EQ_CI : Fld :=
  { id := 309, off := 0x400, lo := 0, w := 16, acc := .ro, n1 := 16, s1 := 4, n2 := 1, s2 := 0 }

/-- R394: records dropped, saturating at 2^16 − 1 -/
def Rg.host_LOST : Fld :=
  { id := 310, off := 0x400, lo := 16, w := 16, acc := .ro, n1 := 16, s1 := 4, n2 := 1, s2 := 0 }

/-- The fields of the host block. -/
def Rg.hostFlds : List Fld :=
  [Rg.host_RATE, Rg.host_WIDTH, Rg.host_FLIT, Rg.host_MR_DB, Rg.host_MR_CI, Rg.host_MGR_EQ, Rg.host_RING_ERR, Rg.host_RING_ERR_SEQ, Rg.host_DB_STALE, Rg.host_EXPORT_DROPS, Rg.host_STAGING_USED, Rg.host_PLOT_STATE, Rg.host_F, Rg.host_U, Rg.host_RSTATE, Rg.host_RERR] ++
  [Rg.host_EQ_CI, Rg.host_LOST]

/-! ## plotStat -/

/-- R395: R364 -/
def Rg.plotStat_PLOT_STATE : Fld :=
  { id := 311, off := 0x0, lo := 0, w := 3, acc := .ro }

/-- R395: 1 to 127 -/
def Rg.plotStat_PLOT_NUM : Fld :=
  { id := 312, off := 0x0, lo := 8, w := 7, acc := .ro, reset := .own }

/-- R395: R384 -/
def Rg.plotStat_MB_DB : Fld :=
  { id := 313, off := 0x4, lo := 0, w := 1, acc := .wo }

/-- R395: the manager's mirror only; ignored from the plot -/
def Rg.plotStat_MB_REPLY_DB : Fld :=
  { id := 314, off := 0x4, lo := 1, w := 1, acc := .wo }

/-- R395: requests rung, modulo 2^16 -/
def Rg.plotStat_MB_REQ_COUNT : Fld :=
  { id := 315, off := 0x8, lo := 0, w := 16, acc := .ro }

/-- R395: replies rung, modulo 2^16 -/
def Rg.plotStat_MB_REPLY_COUNT : Fld :=
  { id := 316, off := 0x8, lo := 16, w := 16, acc := .ro }

/-- R395: ring r -/
def Rg.plotStat_F : Fld :=
  { id := 317, off := 0x100, lo := 0, w := 16, acc := .ro, n1 := 32, s1 := 4, n2 := 1, s2 := 0 }

/-- R395: ring r -/
def Rg.plotStat_U : Fld :=
  { id := 318, off := 0x100, lo := 16, w := 16, acc := .ro, n1 := 32, s1 := 4, n2 := 1, s2 := 0 }

/-- R395: as R394 -/
def Rg.plotStat_RSTATE : Fld :=
  { id := 319, off := 0x180, lo := 0, w := 2, acc := .ro, n1 := 32, s1 := 4, n2 := 1, s2 := 0 }

/-- R395: as R394 -/
def Rg.plotStat_RERR : Fld :=
  { id := 320, off := 0x180, lo := 2, w := 4, acc := .ro, n1 := 32, s1 := 4, n2 := 1, s2 := 0 }

/-- R395: CI of queue e -/
def Rg.plotStat_EQ_CI : Fld :=
  { id := 321, off := 0x200, lo := 0, w := 16, acc := .ro, n1 := 4, s1 := 4, n2 := 1, s2 := 0 }

/-- R395: records dropped, saturating at 2^16 − 1 -/
def Rg.plotStat_LOST : Fld :=
  { id := 322, off := 0x200, lo := 16, w := 16, acc := .ro, n1 := 4, s1 := 4, n2 := 1, s2 := 0 }

/-- R395: request, 64 bytes; RO in the manager's mirror -/
def Rg.plotStat_MB_REQ : Fld :=
  { id := 323, off := 0x800, lo := 0, w := 32, acc := .rw, n1 := 1, s1 := 0, n2 := 16, s2 := 4 }

/-- R395: reply, 64 bytes; RW in the manager's mirror -/
def Rg.plotStat_MB_REPLY : Fld :=
  { id := 324, off := 0x840, lo := 0, w := 32, acc := .ro, n1 := 1, s1 := 0, n2 := 16, s2 := 4 }

/-- The fields of the plotStat block. -/
def Rg.plotStatFlds : List Fld :=
  [Rg.plotStat_PLOT_STATE, Rg.plotStat_PLOT_NUM, Rg.plotStat_MB_DB, Rg.plotStat_MB_REPLY_DB, Rg.plotStat_MB_REQ_COUNT, Rg.plotStat_MB_REPLY_COUNT, Rg.plotStat_F, Rg.plotStat_U, Rg.plotStat_RSTATE, Rg.plotStat_RERR, Rg.plotStat_EQ_CI, Rg.plotStat_LOST, Rg.plotStat_MB_REQ, Rg.plotStat_MB_REPLY]

/-! ## stash -/

/-- R419: R397 -/
def Rg.stash_PORTS : Fld :=
  { id := 325, off := 0x0, lo := 0, w := 1, acc := .rw }

/-- R419: R409 -/
def Rg.stash_MODE : Fld :=
  { id := 326, off := 0x0, lo := 1, w := 2, acc := .rw, reset := .const 1 }

/-- R419: R410 -/
def Rg.stash_MODE_CUR : Fld :=
  { id := 327, off := 0x0, lo := 3, w := 2, acc := .ro, reset := .const 1 }

/-- R419: 1 to 1,023 (R407) -/
def Rg.stash_URG_MAX : Fld :=
  { id := 328, off := 0x4, lo := 0, w := 10, acc := .rw, vmin := 1, vmax := 1023, reset := .const 64 }

/-- R419: pieces outstanding per drive, 1 to 1,024 -/
def Rg.stash_QD : Fld :=
  { id := 329, off := 0x4, lo := 10, w := 11, acc := .rw, vmin := 1, vmax := 1024, reset := .const 256 }

/-- R419: 12 to 20 (R404) -/
def Rg.stash_PIECE_LOG2 : Fld :=
  { id := 330, off := 0x4, lo := 21, w := 5, acc := .rw, vmin := 12, vmax := 20, reset := .const 17 }

/-- R419: weight of class Ck, 1 to 255 -/
def Rg.stash_W_C : Fld :=
  { id := 331, off := 0x8, lo := 0, w := 8, acc := .rw, nb := 4, sb := 8, vmin := 1, vmax := 255, reset := .each [8, 4, 2, 1] }

/-- R419: 100 to 60,000 (R413) -/
def Rg.stash_CMD_TIMEOUT_MS : Fld :=
  { id := 332, off := 0xc, lo := 0, w := 16, acc := .rw, vmin := 100, vmax := 60000, reset := .const 8000 }

/-- R419: MiB offset of the Stash buffer in hub SRAM, 0 to 80 -/
def Rg.stash_BUF_BASE : Fld :=
  { id := 333, off := 0xc, lo := 16, w := 7, acc := .rw, vmin := 0, vmax := 80 }

/-- R419: set at every change of a DSTATE -/
def Rg.stash_DRV_EVT : Fld :=
  { id := 334, off := 0x10, lo := 0, w := 1, acc := .sq }

/-- R419: incremented, modulo 2^16, at every such change -/
def Rg.stash_DRV_SEQ : Fld :=
  { id := 335, off := 0x10, lo := 16, w := 16, acc := .sq }

/-- R419: drives numbered, 0 to 16 -/
def Rg.stash_DRIVES : Fld :=
  { id := 336, off := 0x14, lo := 0, w := 5, acc := .ro }

/-- R419: R397, saturating at 255 -/
def Rg.stash_EXCESS : Fld :=
  { id := 337, off := 0x14, lo := 5, w := 8, acc := .ro }

/-- R419: 0 absent, 1 initialising, 2 ready, 3 failed -/
def Rg.stash_DSTATE : Fld :=
  { id := 338, off := 0x100, lo := 0, w := 2, acc := .ro, n1 := 16, s1 := 32, n2 := 1, s2 := 0 }

/-- R419: np0 to np3 -/
def Rg.stash_DPORT : Fld :=
  { id := 339, off := 0x100, lo := 2, w := 2, acc := .ro, n1 := 16, s1 := 32, n2 := 1, s2 := 0 }

/-- R419: volatile write cache present -/
def Rg.stash_VWC : Fld :=
  { id := 340, off := 0x100, lo := 4, w := 1, acc := .ro, n1 := 16, s1 := 32, n2 := 1, s2 := 0 }

/-- R419: log2 of MDTS in bytes, 12 to 20; 20 for 1 MiB or more -/
def Rg.stash_MDTS_LOG2 : Fld :=
  { id := 341, off := 0x100, lo := 5, w := 5, acc := .ro, n1 := 16, s1 := 32, n2 := 1, s2 := 0 }

/-- R419: as in R418 -/
def Rg.stash_DRATE : Fld :=
  { id := 342, off := 0x100, lo := 10, w := 2, acc := .ro, n1 := 16, s1 := 32, n2 := 1, s2 := 0 }

/-- R419: lanes -/
def Rg.stash_DWIDTH : Fld :=
  { id := 343, off := 0x100, lo := 12, w := 5, acc := .ro, n1 := 16, s1 := 32, n2 := 1, s2 := 0 }

/-- R419: the drive's bus, device and function -/
def Rg.stash_BDF : Fld :=
  { id := 344, off := 0x104, lo := 0, w := 16, acc := .ro, n1 := 16, s1 := 32, n2 := 1, s2 := 0 }

/-- R419: pieces at the drive -/
def Rg.stash_OUTSTANDING : Fld :=
  { id := 345, off := 0x108, lo := 0, w := 11, acc := .ro, n1 := 16, s1 := 32, n2 := 1, s2 := 0 }

/-- R419: status code of the latest cause 21 -/
def Rg.stash_LAST_SC : Fld :=
  { id := 346, off := 0x108, lo := 11, w := 8, acc := .ro, n1 := 16, s1 := 32, n2 := 1, s2 := 0 }

/-- R419: its status code type -/
def Rg.stash_LAST_SCT : Fld :=
  { id := 347, off := 0x108, lo := 19, w := 3, acc := .ro, n1 := 16, s1 := 32, n2 := 1, s2 := 0 }

/-- R419: failed pieces, saturating at 2^16 − 1 -/
def Rg.stash_PIECE_ERRS : Fld :=
  { id := 348, off := 0x10c, lo := 0, w := 16, acc := .ro, n1 := 16, s1 := 32, n2 := 1, s2 := 0 }

/-- R419: R413, saturating at 2^16 − 1 -/
def Rg.stash_TIMEOUTS : Fld :=
  { id := 349, off := 0x10c, lo := 16, w := 16, acc := .ro, n1 := 16, s1 := 32, n2 := 1, s2 := 0 }

/-- R419: bytes read from the drive -/
def Rg.stash_READ_BYTES : Fld :=
  { id := 350, off := 0x110, lo := 0, w := 64, acc := .ro, n1 := 16, s1 := 32, n2 := 1, s2 := 0, pair := true }

/-- R419: bytes written or zeroed -/
def Rg.stash_WRITE_BYTES : Fld :=
  { id := 351, off := 0x118, lo := 0, w := 64, acc := .ro, n1 := 16, s1 := 32, n2 := 1, s2 := 0, pair := true }

/-- R419: slot in use -/
def Rg.stash_NS_VALID : Fld :=
  { id := 352, off := 0x400, lo := 0, w := 1, acc := .ro, n1 := 32, s1 := 16, n2 := 1, s2 := 0 }

/-- R419: drive -/
def Rg.stash_NS_DRIVE : Fld :=
  { id := 353, off := 0x400, lo := 1, w := 4, acc := .ro, n1 := 32, s1 := 16, n2 := 1, s2 := 0 }

/-- R419: 1 atomic-unit mode -/
def Rg.stash_ATOM : Fld :=
  { id := 354, off := 0x400, lo := 5, w := 1, acc := .ro, n1 := 32, s1 := 16, n2 := 1, s2 := 0 }

/-- R419: R400 -/
def Rg.stash_AUNIT_LOG2 : Fld :=
  { id := 355, off := 0x400, lo := 6, w := 5, acc := .ro, n1 := 32, s1 := 16, n2 := 1, s2 := 0 }

/-- R419: 1: 4,096-byte sectors; 0: 512 -/
def Rg.stash_SECTOR4K : Fld :=
  { id := 356, off := 0x400, lo := 11, w := 1, acc := .ro, n1 := 32, s1 := 16, n2 := 1, s2 := 0 }

/-- R419: namespace identifier -/
def Rg.stash_NSID : Fld :=
  { id := 357, off := 0x404, lo := 0, w := 32, acc := .ro, n1 := 32, s1 := 16, n2 := 1, s2 := 0 }

/-- R419: namespace size in logical blocks -/
def Rg.stash_NS_LBAS : Fld :=
  { id := 358, off := 0x408, lo := 0, w := 48, acc := .ro, n1 := 32, s1 := 16, n2 := 1, s2 := 0, pair := true }

/-- R419: volume in use -/
def Rg.stash_V_VALID : Fld :=
  { id := 359, off := 0x1000, lo := 0, w := 1, acc := .ro, n1 := 256, s1 := 32, n2 := 1, s2 := 0 }

/-- R419: namespace slot -/
def Rg.stash_V_SLOT : Fld :=
  { id := 360, off := 0x1000, lo := 1, w := 5, acc := .ro, n1 := 256, s1 := 32, n2 := 1, s2 := 0 }

/-- R419: R401 -/
def Rg.stash_V_OWNER : Fld :=
  { id := 361, off := 0x1000, lo := 6, w := 8, acc := .ro, n1 := 256, s1 := 32, n2 := 1, s2 := 0 }

/-- R419: read-only -/
def Rg.stash_V_RO : Fld :=
  { id := 362, off := 0x1000, lo := 14, w := 1, acc := .ro, n1 := 256, s1 := 32, n2 := 1, s2 := 0 }

/-- R419: FIRST_LBA -/
def Rg.stash_V_FIRST : Fld :=
  { id := 363, off := 0x1004, lo := 0, w := 48, acc := .ro, n1 := 256, s1 := 32, n2 := 1, s2 := 0, pair := true }

/-- R419: COUNT -/
def Rg.stash_V_COUNT : Fld :=
  { id := 364, off := 0x100c, lo := 0, w := 48, acc := .ro, n1 := 256, s1 := 32, n2 := 1, s2 := 0, pair := true }

/-- The fields of the stash block. -/
def Rg.stashFlds : List Fld :=
  [Rg.stash_PORTS, Rg.stash_MODE, Rg.stash_MODE_CUR, Rg.stash_URG_MAX, Rg.stash_QD, Rg.stash_PIECE_LOG2, Rg.stash_W_C, Rg.stash_CMD_TIMEOUT_MS, Rg.stash_BUF_BASE, Rg.stash_DRV_EVT, Rg.stash_DRV_SEQ, Rg.stash_DRIVES, Rg.stash_EXCESS, Rg.stash_DSTATE, Rg.stash_DPORT, Rg.stash_VWC] ++
  [Rg.stash_MDTS_LOG2, Rg.stash_DRATE, Rg.stash_DWIDTH, Rg.stash_BDF, Rg.stash_OUTSTANDING, Rg.stash_LAST_SC, Rg.stash_LAST_SCT, Rg.stash_PIECE_ERRS, Rg.stash_TIMEOUTS, Rg.stash_READ_BYTES, Rg.stash_WRITE_BYTES, Rg.stash_NS_VALID, Rg.stash_NS_DRIVE, Rg.stash_ATOM, Rg.stash_AUNIT_LOG2, Rg.stash_SECTOR4K] ++
  [Rg.stash_NSID, Rg.stash_NS_LBAS, Rg.stash_V_VALID, Rg.stash_V_SLOT, Rg.stash_V_OWNER, Rg.stash_V_RO, Rg.stash_V_FIRST, Rg.stash_V_COUNT]

/-! ## cipher -/

/-- R443: 0 free, 1 to 16 hub core 0 to 15, 17 the Cloche record port; others reserved -/
def Rg.cipher_OWNER : Fld :=
  { id := 365, off := 0x0, lo := 0, w := 5, acc := .ro }

/-- R443: R436 -/
def Rg.cipher_CLAIM : Fld :=
  { id := 366, off := 0x0, lo := 5, w := 1, acc := .wo }

/-- R443: R436 -/
def Rg.cipher_RENEW : Fld :=
  { id := 367, off := 0x0, lo := 6, w := 1, acc := .wo }

/-- R443: R436 -/
def Rg.cipher_RELEASE : Fld :=
  { id := 368, off := 0x0, lo := 7, w := 1, acc := .wo }

/-- R443: R436 -/
def Rg.cipher_CLOCHE_WAIT : Fld :=
  { id := 369, off := 0x0, lo := 8, w := 1, acc := .ro }

/-- R443: incremented, modulo 2^16, at every change of OWNER -/
def Rg.cipher_LOCK_SEQ : Fld :=
  { id := 370, off := 0x0, lo := 16, w := 16, acc := .ro }

/-- R443: LCLK at the latest claim or renewal -/
def Rg.cipher_STAMP : Fld :=
  { id := 371, off := 0x4, lo := 0, w := 32, acc := .ro }

/-- R443: R437 -/
def Rg.cipher_LCLK : Fld :=
  { id := 372, off := 0x8, lo := 0, w := 32, acc := .ro }

/-- R443: 1 to 255. Writes while OWNER is not 0 are ignored -/
def Rg.cipher_LEASE_BEATS : Fld :=
  { id := 373, off := 0xc, lo := 0, w := 8, acc := .rw, vmin := 1, vmax := 255, reset := .const 4 }

/-- R443: R435 -/
def Rg.cipher_GO : Fld :=
  { id := 374, off := 0x10, lo := 0, w := 1, acc := .wo }

/-- R443: a register-mode command runs -/
def Rg.cipher_BUSY : Fld :=
  { id := 375, off := 0x10, lo := 1, w := 1, acc := .ro }

/-- R443: signs the digest in 0x180 to 0x19C (R439) -/
def Rg.cipher_SIGN : Fld :=
  { id := 376, off := 0x10, lo := 2, w := 1, acc := .wo }

/-- R443: a register-mode command has ended -/
def Rg.cipher_RDONE : Fld :=
  { id := 377, off := 0x14, lo := 0, w := 1, acc := .sq }

/-- R443: R433 -/
def Rg.cipher_RCAUSE : Fld :=
  { id := 378, off := 0x14, lo := 1, w := 6, acc := .ro }

/-- R443: 0 done, 1 partial, 2 not started -/
def Rg.cipher_RSTATE : Fld :=
  { id := 379, off := 0x14, lo := 7, w := 2, acc := .ro }

/-- R443: the latest verification matched -/
def Rg.cipher_TAG_OK : Fld :=
  { id := 380, off := 0x14, lo := 9, w := 1, acc := .ro }

/-- R443: incremented, modulo 2^16, at every end -/
def Rg.cipher_RSEQ : Fld :=
  { id := 381, off := 0x14, lo := 16, w := 16, acc := .sq }

/-- R443: R433 -/
def Rg.cipher_RDONE_BYTES : Fld :=
  { id := 382, off := 0x18, lo := 0, w := 25, acc := .ro }

/-- R443: R436, saturating at 2^16 − 1 -/
def Rg.cipher_LOCK_VIOL : Fld :=
  { id := 383, off := 0x20, lo := 0, w := 16, acc := .ro }

/-- R443: R436, saturating at 2^16 − 1 -/
def Rg.cipher_TAKEOVERS : Fld :=
  { id := 384, off := 0x20, lo := 16, w := 16, acc := .ro }

/-- R443: label table, in 256 KiB units of hub SRAM, 0 to 383 -/
def Rg.cipher_LBL_BASE : Fld :=
  { id := 385, off := 0x24, lo := 0, w := 9, acc := .rw, vmin := 0, vmax := 383 }

/-- R443: bit k: cc(k) is working -/
def Rg.cipher_CORE_WORKING : Fld :=
  { id := 386, off := 0x28, lo := 0, w := 8, acc := .ro, reset := .const 255 }

/-- R443: 64-byte units processed, both passes counted -/
def Rg.cipher_UNITS_64 : Fld :=
  { id := 387, off := 0x40, lo := 0, w := 64, acc := .ro, pair := true }

/-- R443: commands completed -/
def Rg.cipher_COMMANDS : Fld :=
  { id := 388, off := 0x48, lo := 0, w := 64, acc := .ro, pair := true }

/-- R443: causes 25 and 31, saturating at 2^32 − 1 -/
def Rg.cipher_TAG_FAILS : Fld :=
  { id := 389, off := 0x50, lo := 0, w := 32, acc := .ro }

/-- R443: command image bytes 4k to 4k + 3, owner only -/
def Rg.cipher_CMD : Fld :=
  { id := 390, off := 0x100, lo := 0, w := 32, acc := .rw, n1 := 1, s1 := 0, n2 := 16, s2 := 4 }

/-- R443: label bytes 4k to 4k + 3, owner only; reads return 0 -/
def Rg.cipher_LABEL : Fld :=
  { id := 391, off := 0x140, lo := 0, w := 32, acc := .rw, n1 := 1, s1 := 0, n2 := 8, s2 := 4 }

/-- R443: digest to sign, owner only -/
def Rg.cipher_DIGEST : Fld :=
  { id := 392, off := 0x180, lo := 0, w := 32, acc := .rw, n1 := 1, s1 := 0, n2 := 8, s2 := 4 }

/-- R443: signature r then s, 48 bytes each -/
def Rg.cipher_SIG : Fld :=
  { id := 393, off := 0x1a0, lo := 0, w := 32, acc := .ro, n1 := 1, s1 := 0, n2 := 24, s2 := 4 }

/-- The fields of the cipher block. -/
def Rg.cipherFlds : List Fld :=
  [Rg.cipher_OWNER, Rg.cipher_CLAIM, Rg.cipher_RENEW, Rg.cipher_RELEASE, Rg.cipher_CLOCHE_WAIT, Rg.cipher_LOCK_SEQ, Rg.cipher_STAMP, Rg.cipher_LCLK, Rg.cipher_LEASE_BEATS, Rg.cipher_GO, Rg.cipher_BUSY, Rg.cipher_SIGN, Rg.cipher_RDONE, Rg.cipher_RCAUSE, Rg.cipher_RSTATE, Rg.cipher_TAG_OK] ++
  [Rg.cipher_RSEQ, Rg.cipher_RDONE_BYTES, Rg.cipher_LOCK_VIOL, Rg.cipher_TAKEOVERS, Rg.cipher_LBL_BASE, Rg.cipher_CORE_WORKING, Rg.cipher_UNITS_64, Rg.cipher_COMMANDS, Rg.cipher_TAG_FAILS, Rg.cipher_CMD, Rg.cipher_LABEL, Rg.cipher_DIGEST, Rg.cipher_SIG]

/-! ## fault -/

/-- R473: same-tile replay permitted (R448) -/
def Rg.fault_SEG_EN : Fld :=
  { id := 394, off := 0x0, lo := 0, w := 1, acc := .rw, reset := .const 1 }

/-- R473: spare-tile replay permitted -/
def Rg.fault_SPARE_EN : Fld :=
  { id := 395, off := 0x0, lo := 1, w := 1, acc := .rw, reset := .const 1 }

/-- R473: R463 -/
def Rg.fault_SEED_EN : Fld :=
  { id := 396, off := 0x0, lo := 2, w := 1, acc := .rw, reset := .const 1 }

/-- R473: R464 -/
def Rg.fault_GH_EN : Fld :=
  { id := 397, off := 0x0, lo := 3, w := 1, acc := .rw }

/-- R473: R465 -/
def Rg.fault_REP_EN : Fld :=
  { id := 398, off := 0x0, lo := 4, w := 1, acc := .rw }

/-- R473: R456 -/
def Rg.fault_MIRROR_SYNC : Fld :=
  { id := 399, off := 0x0, lo := 5, w := 1, acc := .wo }

/-- R473: this member's spare holds its mirror ranges -/
def Rg.fault_SPARE_VALID : Fld :=
  { id := 400, off := 0x0, lo := 6, w := 1, acc := .ro }

/-- R473: beats, 1 to 65,535 -/
def Rg.fault_FAULT_WINDOW : Fld :=
  { id := 401, off := 0x4, lo := 0, w := 16, acc := .rw, vmin := 1, vmax := 65535, reset := .const 4096 }

/-- R473: beats, 256 to 65,535 -/
def Rg.fault_SEED_EVERY : Fld :=
  { id := 402, off := 0x4, lo := 16, w := 16, acc := .rw, vmin := 256, vmax := 65535, reset := .const 4096 }

/-- R473: 1 to 255 -/
def Rg.fault_SWEEP_BEATS : Fld :=
  { id := 403, off := 0x8, lo := 0, w := 8, acc := .rw, vmin := 1, vmax := 255, reset := .const 16 }

/-- R473: 16 to 40 -/
def Rg.fault_GH_ROTATE_LOG2 : Fld :=
  { id := 404, off := 0x8, lo := 8, w := 6, acc := .rw, vmin := 16, vmax := 40, reset := .const 20 }

/-- R473: 1 to 4,095 -/
def Rg.fault_GH_BEATS : Fld :=
  { id := 405, off := 0x8, lo := 16, w := 12, acc := .rw, vmin := 1, vmax := 4095, reset := .const 64 }

/-- R473: 10 to 4,000 (R459) -/
def Rg.fault_SPARE_ARM_US : Fld :=
  { id := 406, off := 0xc, lo := 0, w := 12, acc := .rw, vmin := 10, vmax := 4000, reset := .const 400 }

/-- R473: beds in the replica set minus 1 -/
def Rg.fault_REP_COUNT : Fld :=
  { id := 407, off := 0x10, lo := 0, w := 2, acc := .rw }

/-- R473: 1 to 255 -/
def Rg.fault_DIG_STEPS : Fld :=
  { id := 408, off := 0x10, lo := 8, w := 8, acc := .rw, vmin := 1, vmax := 255, reset := .const 16 }

/-- R473: GB/s per member, 1 to 255 -/
def Rg.fault_DIG_RATE : Fld :=
  { id := 409, off := 0x10, lo := 16, w := 8, acc := .rw, vmin := 1, vmax := 255, reset := .const 64 }

/-- R473: beats per step; 0 disables rounds -/
def Rg.fault_STEP_BEATS : Fld :=
  { id := 410, off := 0x14, lo := 0, w := 32, acc := .rw }

/-- R473: BED_ID of replica k -/
def Rg.fault_REP_BED : Fld :=
  { id := 411, off := 0x18, lo := 0, w := 32, acc := .rw, n1 := 4, s1 := 4, n2 := 1, s2 := 0 }

/-- R473: bit n: tile t(32k + n) is a spare (R451) -/
def Rg.fault_SPARE_TILE : Fld :=
  { id := 412, off := 0x40, lo := 0, w := 32, acc := .rw, n1 := 8, s1 := 4, n2 := 1, s2 := 0 }

/-- R473: first 2 MiB HBM page of mirror range k -/
def Rg.fault_MIRROR_BASE : Fld :=
  { id := 413, off := 0x80, lo := 0, w := 18, acc := .rw, n1 := 8, s1 := 8, n2 := 1, s2 := 0 }

/-- R473: range k in use -/
def Rg.fault_MIRROR_EN : Fld :=
  { id := 414, off := 0x80, lo := 31, w := 1, acc := .rw, n1 := 8, s1 := 8, n2 := 1, s2 := 0 }

/-- R473: last page, inclusive -/
def Rg.fault_MIRROR_LIM : Fld :=
  { id := 415, off := 0x84, lo := 0, w := 18, acc := .rw, n1 := 8, s1 := 8, n2 := 1, s2 := 0 }

/-- R473: first page of digest range k -/
def Rg.fault_DIG_BASE : Fld :=
  { id := 416, off := 0xc0, lo := 0, w := 18, acc := .rw, n1 := 8, s1 := 8, n2 := 1, s2 := 0 }

/-- R473: range k in use -/
def Rg.fault_DIG_EN : Fld :=
  { id := 417, off := 0xc0, lo := 31, w := 1, acc := .rw, n1 := 8, s1 := 8, n2 := 1, s2 := 0 }

/-- R473: last page, inclusive -/
def Rg.fault_DIG_LIM : Fld :=
  { id := 418, off := 0xc4, lo := 0, w := 18, acc := .rw, n1 := 8, s1 := 8, n2 := 1, s2 := 0 }

/-- R473: records written (R469) -/
def Rg.fault_LOG_WR : Fld :=
  { id := 419, off := 0x100, lo := 0, w := 64, acc := .ro, pair := true }

/-- R473: records overwritten before being read by index, saturating -/
def Rg.fault_LOG_LOST : Fld :=
  { id := 420, off := 0x108, lo := 0, w := 32, acc := .ro }

/-- R473: bit c: copy c is working -/
def Rg.fault_LOG_COPIES : Fld :=
  { id := 421, off := 0x10c, lo := 0, w := 3, acc := .ro, reset := .const 7 }

/-- R473: index of the record shown at 0x400 -/
def Rg.fault_LOG_READ_IDX : Fld :=
  { id := 422, off := 0x110, lo := 0, w := 12, acc := .rw }

/-- R473: set at every fault record -/
def Rg.fault_FM_EVT : Fld :=
  { id := 423, off := 0x114, lo := 0, w := 1, acc := .sq }

/-- R473: incremented, modulo 2^16, at every fault record -/
def Rg.fault_FM_SEQ : Fld :=
  { id := 424, off := 0x114, lo := 16, w := 16, acc := .sq }

/-- R473: j = 0 SEG_REPLAYS, 1 SPARE_REPLAYS, 2 FAULT_ABORTS, 3 SEED_RUNS, 4 SEED_FAILS, 5 SEED_SKIPPED, 6 GH_RUNS, 7 GH_FAILS, 8 ROUNDS_SKIPPED, 9 SPARE_BUSY -/
def Rg.fault_FCNT : Fld :=
  { id := 425, off := 0x120, lo := 0, w := 64, acc := .ro, n1 := 10, s1 := 8, n2 := 1, s2 := 0, pair := true }

/-- R473: bytes 4k to 4k + 3 of the last record that failed to log (R471) -/
def Rg.fault_LAST_GASP : Fld :=
  { id := 426, off := 0x200, lo := 0, w := 32, acc := .tv, n1 := 1, s1 := 0, n2 := 64, s2 := 4 }

/-- R473: bytes 4k to 4k + 3 of the record at LOG_READ_IDX, voted across the working copies -/
def Rg.fault_LOG_REC : Fld :=
  { id := 427, off := 0x400, lo := 0, w := 32, acc := .ro, n1 := 1, s1 := 0, n2 := 64, s2 := 4 }

/-- The fields of the fault block. -/
def Rg.faultFlds : List Fld :=
  [Rg.fault_SEG_EN, Rg.fault_SPARE_EN, Rg.fault_SEED_EN, Rg.fault_GH_EN, Rg.fault_REP_EN, Rg.fault_MIRROR_SYNC, Rg.fault_SPARE_VALID, Rg.fault_FAULT_WINDOW, Rg.fault_SEED_EVERY, Rg.fault_SWEEP_BEATS, Rg.fault_GH_ROTATE_LOG2, Rg.fault_GH_BEATS, Rg.fault_SPARE_ARM_US, Rg.fault_REP_COUNT, Rg.fault_DIG_STEPS, Rg.fault_DIG_RATE] ++
  [Rg.fault_STEP_BEATS, Rg.fault_REP_BED, Rg.fault_SPARE_TILE, Rg.fault_MIRROR_BASE, Rg.fault_MIRROR_EN, Rg.fault_MIRROR_LIM, Rg.fault_DIG_BASE, Rg.fault_DIG_EN, Rg.fault_DIG_LIM, Rg.fault_LOG_WR, Rg.fault_LOG_LOST, Rg.fault_LOG_COPIES, Rg.fault_LOG_READ_IDX, Rg.fault_FM_EVT, Rg.fault_FM_SEQ, Rg.fault_FCNT] ++
  [Rg.fault_LAST_GASP, Rg.fault_LOG_REC]

/-! ## mulch -/

/-- R496: checkpoints enabled (R475) -/
def Rg.mulch_CK_EN : Fld :=
  { id := 428, off := 0x0, lo := 0, w := 1, acc := .rw }

/-- R496: 0 idle, 1 cut pending, 2 copying, 3 held, 4 storing, 5 restoring -/
def Rg.mulch_STATE : Fld :=
  { id := 429, off := 0x0, lo := 1, w := 3, acc := .ro }

/-- R496: neighbour MID -/
def Rg.mulch_MULCH_PEER : Fld :=
  { id := 430, off := 0x4, lo := 0, w := 8, acc := .rw }

/-- R496: GB/s, 1 to 255 -/
def Rg.mulch_MULCH_RATE : Fld :=
  { id := 431, off := 0x4, lo := 8, w := 8, acc := .rw, vmin := 1, vmax := 255, reset := .const 64 }

/-- R496: neighbour's Stash volume A -/
def Rg.mulch_VOL_A : Fld :=
  { id := 432, off := 0x4, lo := 16, w := 8, acc := .rw }

/-- R496: neighbour's Stash volume B -/
def Rg.mulch_VOL_B : Fld :=
  { id := 433, off := 0x4, lo := 24, w := 8, acc := .rw }

/-- R496: R478; 0 off -/
def Rg.mulch_CK_BEATS : Fld :=
  { id := 434, off := 0x8, lo := 0, w := 32, acc := .rw }

/-- R496: R478; 0 off -/
def Rg.mulch_CK_TIMER_S : Fld :=
  { id := 435, off := 0xc, lo := 0, w := 16, acc := .rw }

/-- R496: R478; 0 off -/
def Rg.mulch_CE_THRESH : Fld :=
  { id := 436, off := 0xc, lo := 16, w := 16, acc := .rw }

/-- R496: beats, 1 to 65,535 -/
def Rg.mulch_CE_WINDOW : Fld :=
  { id := 437, off := 0x10, lo := 0, w := 16, acc := .rw, vmin := 1, vmax := 65535, reset := .const 4096 }

/-- R496: first 2 MiB page of slot A in the neighbour's HBM -/
def Rg.mulch_LAND_A : Fld :=
  { id := 438, off := 0x14, lo := 0, w := 18, acc := .rw }

/-- R496: first page of slot B -/
def Rg.mulch_LAND_B : Fld :=
  { id := 439, off := 0x18, lo := 0, w := 18, acc := .rw }

/-- R496: pages per slot -/
def Rg.mulch_LAND_PAGES : Fld :=
  { id := 440, off := 0x1c, lo := 0, w := 18, acc := .rw }

/-- R496: first page of the cut buffer -/
def Rg.mulch_CUT_BASE : Fld :=
  { id := 441, off := 0x20, lo := 0, w := 18, acc := .rw }

/-- R496: last page, inclusive -/
def Rg.mulch_CUT_LIM : Fld :=
  { id := 442, off := 0x24, lo := 0, w := 18, acc := .rw }

/-- R496: first page of range k -/
def Rg.mulch_CK_BASE : Fld :=
  { id := 443, off := 0x40, lo := 0, w := 18, acc := .rw, n1 := 16, s1 := 8, n2 := 1, s2 := 0 }

/-- R496: R475; 6 and 7 reserved -/
def Rg.mulch_KIND : Fld :=
  { id := 444, off := 0x40, lo := 18, w := 3, acc := .rw, n1 := 16, s1 := 8, n2 := 1, s2 := 0, vmin := 0, vmax := 5 }

/-- R496: R482 -/
def Rg.mulch_DEDUP : Fld :=
  { id := 445, off := 0x40, lo := 21, w := 1, acc := .rw, n1 := 16, s1 := 8, n2 := 1, s2 := 0 }

/-- R496: range k in use -/
def Rg.mulch_CKR_EN : Fld :=
  { id := 446, off := 0x40, lo := 31, w := 1, acc := .rw, n1 := 16, s1 := 8, n2 := 1, s2 := 0 }

/-- R496: last page, inclusive -/
def Rg.mulch_CK_LIM : Fld :=
  { id := 447, off := 0x44, lo := 0, w := 18, acc := .rw, n1 := 16, s1 := 8, n2 := 1, s2 := 0 }

/-- R496: cut beat of the latest checkpoint -/
def Rg.mulch_CUT_BEAT : Fld :=
  { id := 448, off := 0x100, lo := 0, w := 64, acc := .ro, pair := true }

/-- R496: cut beat of the latest held checkpoint -/
def Rg.mulch_HELD_BEAT : Fld :=
  { id := 449, off := 0x108, lo := 0, w := 64, acc := .ro, pair := true }

/-- R496: cut beat of the latest durable checkpoint -/
def Rg.mulch_DURABLE_BEAT : Fld :=
  { id := 450, off := 0x110, lo := 0, w := 64, acc := .ro, pair := true }

/-- R496: set at every held, durable or failed checkpoint -/
def Rg.mulch_CK_EVT : Fld :=
  { id := 451, off := 0x118, lo := 0, w := 1, acc := .sq }

/-- R496: R488 -/
def Rg.mulch_FAIL_CAUSE : Fld :=
  { id := 452, off := 0x118, lo := 1, w := 3, acc := .ro }

/-- R496: slot of HELD_BEAT -/
def Rg.mulch_HELD_SLOT : Fld :=
  { id := 453, off := 0x118, lo := 4, w := 1, acc := .ro }

/-- R496: volume of DURABLE_BEAT -/
def Rg.mulch_DURABLE_VOL : Fld :=
  { id := 454, off := 0x118, lo := 5, w := 1, acc := .ro }

/-- R496: incremented, modulo 2^16, with CK_EVT -/
def Rg.mulch_CK_SEQ : Fld :=
  { id := 455, off := 0x118, lo := 16, w := 16, acc := .sq }

/-- R496: j = 0 CK_HELD, 1 CK_DURABLE, 2 CK_FAILED, 3 CK_DEFERRED, 4 COW_CUTTINGS, 5 COW_FULL, 6 PAGES_DEDUP, 7 SUPPRESSED -/
def Rg.mulch_MCNT : Fld :=
  { id := 456, off := 0x120, lo := 0, w := 64, acc := .ro, n1 := 8, s1 := 8, n2 := 1, s2 := 0, pair := true }

/-- R496: R486 -/
def Rg.mulch_COW_STALL_NS : Fld :=
  { id := 457, off := 0x160, lo := 0, w := 64, acc := .ro, pair := true }

/-- The fields of the mulch block. -/
def Rg.mulchFlds : List Fld :=
  [Rg.mulch_CK_EN, Rg.mulch_STATE, Rg.mulch_MULCH_PEER, Rg.mulch_MULCH_RATE, Rg.mulch_VOL_A, Rg.mulch_VOL_B, Rg.mulch_CK_BEATS, Rg.mulch_CK_TIMER_S, Rg.mulch_CE_THRESH, Rg.mulch_CE_WINDOW, Rg.mulch_LAND_A, Rg.mulch_LAND_B, Rg.mulch_LAND_PAGES, Rg.mulch_CUT_BASE, Rg.mulch_CUT_LIM, Rg.mulch_CK_BASE] ++
  [Rg.mulch_KIND, Rg.mulch_DEDUP, Rg.mulch_CKR_EN, Rg.mulch_CK_LIM, Rg.mulch_CUT_BEAT, Rg.mulch_HELD_BEAT, Rg.mulch_DURABLE_BEAT, Rg.mulch_CK_EVT, Rg.mulch_FAIL_CAUSE, Rg.mulch_HELD_SLOT, Rg.mulch_DURABLE_VOL, Rg.mulch_CK_SEQ, Rg.mulch_MCNT, Rg.mulch_COW_STALL_NS]

/-! ## cloche -/

/-- R515: R501 -/
def Rg.cloche_METER_HOLD : Fld :=
  { id := 458, off := 0x0, lo := 0, w := 1, acc := .rw, reset := .const 1 }

/-- R515: R514 -/
def Rg.cloche_OVF_EN : Fld :=
  { id := 459, off := 0x0, lo := 1, w := 1, acc := .rw }

/-- R515: a valid record-wire frame has arrived within the latest 1 ms -/
def Rg.cloche_ALIVE : Fld :=
  { id := 460, off := 0x4, lo := 0, w := 1, acc := .ro }

/-- R515: SEALED of the latest valid record -/
def Rg.cloche_SEALED : Fld :=
  { id := 461, off := 0x4, lo := 1, w := 1, acc := .ro }

/-- R515: drawn at each reset of the hub always-on domain (R498) -/
def Rg.cloche_EPOCH : Fld :=
  { id := 462, off := 0x8, lo := 0, w := 32, acc := .ro }

/-- R515: from the latest valid record -/
def Rg.cloche_CLOCHE_ID : Fld :=
  { id := 463, off := 0x10, lo := 0, w := 64, acc := .ro, pair := true }

/-- R515: from the latest valid record -/
def Rg.cloche_CFW_VERSION : Fld :=
  { id := 464, off := 0x18, lo := 0, w := 32, acc := .ro }

/-- R515: highest RSEQ delivered -/
def Rg.cloche_RSEQ_HIGH : Fld :=
  { id := 465, off := 0x20, lo := 0, w := 64, acc := .ro, pair := true }

/-- R515: first 2 MiB HBM page of the overflow region -/
def Rg.cloche_OVF_BASE : Fld :=
  { id := 466, off := 0x28, lo := 0, w := 18, acc := .rw }

/-- R515: pages in the overflow region -/
def Rg.cloche_OVF_PAGES : Fld :=
  { id := 467, off := 0x2c, lo := 0, w := 18, acc := .rw }

/-- R515: set when ALIVE changes -/
def Rg.cloche_CL_EVT : Fld :=
  { id := 468, off := 0x30, lo := 0, w := 1, acc := .sq }

/-- R515: incremented, modulo 2^16, with CL_EVT -/
def Rg.cloche_CL_SEQ : Fld :=
  { id := 469, off := 0x30, lo := 16, w := 16, acc := .sq }

/-- R515: valid record frames received -/
def Rg.cloche_RECORDS_RX : Fld :=
  { id := 470, off := 0x40, lo := 0, w := 64, acc := .ro, pair := true }

/-- R515: records ignored under R512 -/
def Rg.cloche_RECORDS_DUP : Fld :=
  { id := 471, off := 0x48, lo := 0, w := 64, acc := .ro, pair := true }

/-- R515: R513, R514, saturating at 2^32 − 1 -/
def Rg.cloche_RECORDS_DROPPED : Fld :=
  { id := 472, off := 0x50, lo := 0, w := 32, acc := .ro }

/-- R515: record-wire frames with a failing CRC, saturating at 2^16 − 1 -/
def Rg.cloche_WIRE_CRC_ERRS : Fld :=
  { id := 473, off := 0x54, lo := 0, w := 16, acc := .ro }

/-- R515: R514, saturating at 2^16 − 1 -/
def Rg.cloche_OVF_TAG_FAILS : Fld :=
  { id := 474, off := 0x54, lo := 16, w := 16, acc := .ro }

/-- R515: R498 -/
def Rg.cloche_TOTAL : Fld :=
  { id := 475, off := 0x100, lo := 0, w := 64, acc := .ro, n1 := 128, s1 := 8, n2 := 1, s2 := 0, pair := true }

/-- R515: meter ring of function f (R513) -/
def Rg.cloche_RING : Fld :=
  { id := 476, off := 0x500, lo := 0, w := 6, acc := .rw, n1 := 128, s1 := 4, n2 := 1, s2 := 0 }

/-- R515: METER_RING_f in use -/
def Rg.cloche_METER_EN : Fld :=
  { id := 477, off := 0x500, lo := 6, w := 1, acc := .rw, n1 := 128, s1 := 4, n2 := 1, s2 := 0 }

/-- The fields of the cloche block. -/
def Rg.clocheFlds : List Fld :=
  [Rg.cloche_METER_HOLD, Rg.cloche_OVF_EN, Rg.cloche_ALIVE, Rg.cloche_SEALED, Rg.cloche_EPOCH, Rg.cloche_CLOCHE_ID, Rg.cloche_CFW_VERSION, Rg.cloche_RSEQ_HIGH, Rg.cloche_OVF_BASE, Rg.cloche_OVF_PAGES, Rg.cloche_CL_EVT, Rg.cloche_CL_SEQ, Rg.cloche_RECORDS_RX, Rg.cloche_RECORDS_DUP, Rg.cloche_RECORDS_DROPPED, Rg.cloche_WIRE_CRC_ERRS] ++
  [Rg.cloche_OVF_TAG_FAILS, Rg.cloche_TOTAL, Rg.cloche_RING, Rg.cloche_METER_EN]

/-! ## firewall -/

/-- R531: blocks 0 to 31 allowed -/
def Rg.firewall_MASK_LO : Fld :=
  { id := 478, off := 0x0, lo := 0, w := 32, acc := .rw }

/-- R531: blocks 32 to 63 allowed -/
def Rg.firewall_MASK_HI : Fld :=
  { id := 479, off := 0x4, lo := 0, w := 32, acc := .rw }

/-- R531: first 64 KiB unit of hub SRAM window w -/
def Rg.firewall_WIN_BASE : Fld :=
  { id := 480, off := 0x8, lo := 0, w := 11, acc := .rw, n1 := 8, s1 := 8, n2 := 1, s2 := 0 }

/-- R531: last unit, inclusive -/
def Rg.firewall_WIN_LIM : Fld :=
  { id := 481, off := 0xc, lo := 0, w := 11, acc := .rw, n1 := 8, s1 := 8, n2 := 1, s2 := 0 }

/-- R531: reads allowed -/
def Rg.firewall_WIN_R : Fld :=
  { id := 482, off := 0xc, lo := 11, w := 1, acc := .rw, n1 := 8, s1 := 8, n2 := 1, s2 := 0 }

/-- R531: writes allowed -/
def Rg.firewall_WIN_W : Fld :=
  { id := 483, off := 0xc, lo := 12, w := 1, acc := .rw, n1 := 8, s1 := 8, n2 := 1, s2 := 0 }

/-- The fields of the firewall block. -/
def Rg.firewallFlds : List Fld :=
  [Rg.firewall_MASK_LO, Rg.firewall_MASK_HI, Rg.firewall_WIN_BASE, Rg.firewall_WIN_LIM, Rg.firewall_WIN_R, Rg.firewall_WIN_W]

/-! ## window -/

/-- R546: address bits [31:0] -/
def Rg.window_IW_ADDR_LO : Fld :=
  { id := 484, off := 0x0, lo := 0, w := 32, acc := .rw, n1 := 2, s1 := 256, n2 := 1, s2 := 0 }

/-- R546: address bits [39:32] -/
def Rg.window_IW_ADDR_HI : Fld :=
  { id := 485, off := 0x4, lo := 0, w := 8, acc := .rw, n1 := 2, s1 := 256, n2 := 1, s2 := 0 }

/-- R546: R543 -/
def Rg.window_IW_UNIT : Fld :=
  { id := 486, off := 0x4, lo := 8, w := 8, acc := .rw, n1 := 2, s1 := 256, n2 := 1, s2 := 0 }

/-- R546: R543 -/
def Rg.window_IW_SPACE : Fld :=
  { id := 487, off := 0x4, lo := 16, w := 4, acc := .rw, n1 := 2, s1 := 256, n2 := 1, s2 := 0 }

/-- R546: auto-increment (R544) -/
def Rg.window_INC : Fld :=
  { id := 488, off := 0x4, lo := 20, w := 1, acc := .rw, n1 := 2, s1 := 256, n2 := 1, s2 := 0 }

/-- R546: access port (R544) -/
def Rg.window_IW_DATA : Fld :=
  { id := 489, off := 0x8, lo := 0, w := 32, acc := .rw, n1 := 2, s1 := 256, n2 := 1, s2 := 0 }

/-- R546: bits [35:32] of a 36-bit word -/
def Rg.window_IW_DATA_HI : Fld :=
  { id := 490, off := 0xc, lo := 0, w := 4, acc := .rw, n1 := 2, s1 := 256, n2 := 1, s2 := 0 }

/-- R546: set at every failed access -/
def Rg.window_IW_ERR : Fld :=
  { id := 491, off := 0x10, lo := 0, w := 1, acc := .sq, n1 := 2, s1 := 256, n2 := 1, s2 := 0 }

/-- R546: code of the latest failure -/
def Rg.window_ERR_CODE : Fld :=
  { id := 492, off := 0x10, lo := 1, w := 3, acc := .ro, n1 := 2, s1 := 256, n2 := 1, s2 := 0 }

/-- R546: incremented, modulo 2^16, at every failure -/
def Rg.window_ERR_SEQ : Fld :=
  { id := 493, off := 0x10, lo := 16, w := 16, acc := .sq, n1 := 2, s1 := 256, n2 := 1, s2 := 0 }

/-- R546: bit n holds the core of tile t(32k + n) -/
def Rg.window_CORE_HOLD : Fld :=
  { id := 494, off := 0x200, lo := 0, w := 32, acc := .rw, n1 := 8, s1 := 4, n2 := 1, s2 := 0, reset := .const 4294967295 }

/-- R546: bit c holds hub core c -/
def Rg.window_HUB_HOLD : Fld :=
  { id := 495, off := 0x220, lo := 1, w := 15, acc := .rw, reset := .const 32767 }

/-- The fields of the window block. -/
def Rg.windowFlds : List Fld :=
  [Rg.window_IW_ADDR_LO, Rg.window_IW_ADDR_HI, Rg.window_IW_UNIT, Rg.window_IW_SPACE, Rg.window_INC, Rg.window_IW_DATA, Rg.window_IW_DATA_HI, Rg.window_IW_ERR, Rg.window_ERR_CODE, Rg.window_ERR_SEQ, Rg.window_CORE_HOLD, Rg.window_HUB_HOLD]

/-! ## system -/

/-- R551: bank booted: 0 A, 1 B -/
def Rg.system_BANK : Fld :=
  { id := 496, off := 0x0, lo := 0, w := 1, acc := .ro }

/-- R551: R522 -/
def Rg.system_FALLBACK : Fld :=
  { id := 497, off := 0x0, lo := 1, w := 1, acc := .ro }

/-- R551: 0 boot sequencer, 1 stage-1, 2 main firmware, 3 fuse-hold, 4 no image -/
def Rg.system_STAGE : Fld :=
  { id := 498, off := 0x0, lo := 2, w := 3, acc := .ro }

/-- R551: R522 -/
def Rg.system_CAUSE_A : Fld :=
  { id := 499, off := 0x0, lo := 8, w := 3, acc := .ro }

/-- R551: R522 -/
def Rg.system_CAUSE_B : Fld :=
  { id := 500, off := 0x0, lo := 11, w := 3, acc := .ro }

/-- R551: VERSION of the running main image -/
def Rg.system_FW_VERSION : Fld :=
  { id := 501, off := 0x4, lo := 0, w := 32, acc := .ro }

/-- R551: completed live updates -/
def Rg.system_LIVE_UPDATES : Fld :=
  { id := 502, off := 0x8, lo := 0, w := 32, acc := .ro }

/-- R551: R527 -/
def Rg.system_FUSE_RETRY : Fld :=
  { id := 503, off := 0xc, lo := 0, w := 1, acc := .wo }

/-- R551: restarts the boot sequencer; acts only in STAGE 4 -/
def Rg.system_RECOVERY_REBOOT : Fld :=
  { id := 504, off := 0xc, lo := 1, w := 1, acc := .wo }

/-- R551: R527 -/
def Rg.system_FUSE_HOLD : Fld :=
  { id := 505, off := 0x10, lo := 0, w := 1, acc := .ro }

/-- R551: logical word -/
def Rg.system_FH_WORD : Fld :=
  { id := 506, off := 0x10, lo := 1, w := 9, acc := .ro }

/-- R551: copy, 0 to 2 -/
def Rg.system_FH_COPY : Fld :=
  { id := 507, off := 0x10, lo := 10, w := 2, acc := .ro }

/-- R551: secret word: values read 0 -/
def Rg.system_FH_SECRET : Fld :=
  { id := 508, off := 0x10, lo := 12, w := 1, acc := .ro }

/-- R551: hub die, signed, 0.1 °C -/
def Rg.system_FH_TEMP : Fld :=
  { id := 509, off := 0x10, lo := 16, w := 16, acc := .ro }

/-- R551: low-margin read -/
def Rg.system_FH_LOW : Fld :=
  { id := 510, off := 0x14, lo := 0, w := 32, acc := .ro }

/-- R551: nominal read -/
def Rg.system_FH_NOM : Fld :=
  { id := 511, off := 0x18, lo := 0, w := 32, acc := .ro }

/-- R551: high-margin read -/
def Rg.system_FH_HIGH : Fld :=
  { id := 512, off := 0x1c, lo := 0, w := 32, acc := .ro }

/-- R551: R537 -/
def Rg.system_MTIME : Fld :=
  { id := 513, off := 0x20, lo := 0, w := 64, acc := .ro, pair := true }

/-- R551: R537 -/
def Rg.system_TIME_SET_DONE : Fld :=
  { id := 514, off := 0x28, lo := 0, w := 1, acc := .ro }

/-- R551: 0 none, 1 fast, 2 slow -/
def Rg.system_SLEW : Fld :=
  { id := 515, off := 0x28, lo := 1, w := 2, acc := .ro }

/-- R551: R547 -/
def Rg.system_WEST_HOLD : Fld :=
  { id := 516, off := 0x30, lo := 0, w := 1, acc := .rw }

/-- R551: R547 -/
def Rg.system_EAST_HOLD : Fld :=
  { id := 517, off := 0x30, lo := 1, w := 1, acc := .rw }

/-- R551: R547 -/
def Rg.system_HUB_MAIN : Fld :=
  { id := 518, off := 0x30, lo := 2, w := 1, acc := .wo }

/-- R551 -/
def Rg.system_WEST_IN_RESET : Fld :=
  { id := 519, off := 0x34, lo := 0, w := 1, acc := .ro, reset := .const 1 }

/-- R551 -/
def Rg.system_EAST_IN_RESET : Fld :=
  { id := 520, off := 0x34, lo := 1, w := 1, acc := .ro, reset := .const 1 }

/-- R551 -/
def Rg.system_HOST_IN_RESET : Fld :=
  { id := 521, off := 0x34, lo := 2, w := 1, acc := .ro, reset := .const 1 }

/-- R551: 0 power-on, 1 module reset input, 2 RST_CTRL -/
def Rg.system_HUB_MAIN_CAUSE : Fld :=
  { id := 522, off := 0x34, lo := 4, w := 2, acc := .ro }

/-- R551: saturating at 2^16 − 1 -/
def Rg.system_HOST_RESETS : Fld :=
  { id := 523, off := 0x34, lo := 16, w := 16, acc := .ro }

/-- R551: R548, saturating at 2^32 − 1 -/
def Rg.system_HOST_DROPS : Fld :=
  { id := 524, off := 0x38, lo := 0, w := 32, acc := .ro }

/-- The fields of the system block. -/
def Rg.systemFlds : List Fld :=
  [Rg.system_BANK, Rg.system_FALLBACK, Rg.system_STAGE, Rg.system_CAUSE_A, Rg.system_CAUSE_B, Rg.system_FW_VERSION, Rg.system_LIVE_UPDATES, Rg.system_FUSE_RETRY, Rg.system_RECOVERY_REBOOT, Rg.system_FUSE_HOLD, Rg.system_FH_WORD, Rg.system_FH_COPY, Rg.system_FH_SECRET, Rg.system_FH_TEMP, Rg.system_FH_LOW, Rg.system_FH_NOM] ++
  [Rg.system_FH_HIGH, Rg.system_MTIME, Rg.system_TIME_SET_DONE, Rg.system_SLEW, Rg.system_WEST_HOLD, Rg.system_EAST_HOLD, Rg.system_HUB_MAIN, Rg.system_WEST_IN_RESET, Rg.system_EAST_IN_RESET, Rg.system_HOST_IN_RESET, Rg.system_HUB_MAIN_CAUSE, Rg.system_HOST_RESETS, Rg.system_HOST_DROPS]

/-- The fields of a register block (R555, R558). -/
def blkFlds : Blk → List Fld
  | .system => Rg.systemFlds
  | .identity => Rg.identityFlds
  | .window => Rg.windowFlds
  | .fault => Rg.faultFlds
  | .beat => Rg.beatFlds
  | .place => Rg.placeFlds
  | .hbm => Rg.hbmFlds
  | .dvorar => Rg.dvorarFlds
  | .eth => Rg.ethFlds
  | .sched => Rg.schedFlds
  | .stash => Rg.stashFlds
  | .cipher => Rg.cipherFlds
  | .mulch => Rg.mulchFlds
  | .cloche => Rg.clocheFlds
  | .firewall => Rg.firewallFlds
  | .sieve => Rg.sieveFlds
  | .host => Rg.hostFlds
  | .plotStat => Rg.plotStatFlds
  | .seq => Rg.seqFlds
  | .tile => Rg.tileFlds
  | .dvport => Rg.dvportFlds

end Sys2Proof.Machine
end

