-- ==== Sys2Proof/Machine/State.lean ====
section
/-!
DEFINITION. The state of the block as plain data, the state after reset, and the reasons a command can stop.
-/
namespace Sys2Proof.Machine

/-- The model's own stops. Nothing the spec describes ends in one. -/
inductive Fault where
  /-- Raised by no command: the block has no stop of its own. Safe. -/
  | stopped
deriving DecidableEq, Repr

/-- Reasons a command has no meaning. -/
inductive Refusal where
  /-- A row whose meaning has not been written; raised by the arms of `exec` only. Safe. -/
  | notModelled (mnemonic : String)
deriving DecidableEq, Repr

/-! ## Ohmette-36 cores -/

/-- What an atomic does to its lane (R171). -/
inductive LaneOp where
  | add (v : Nat)
  | swap (v : Nat)
  | cas (old new : Nat)
deriving DecidableEq, Repr

/-- One Ohmette-36 core (R156, R197). Every 36-bit register not listed in a map holds 0. -/
structure Core where
  g : Cells Word36 := []
  sp : Word36 := 0x40000
  cw : Word36 := 0
  cont : Word36 := 0
  pc : BitVec 19 := 0
  epc : Word36 := 0
  ecw : Word36 := 0
  econt : Word36 := 0
  cause : Word36 := 0
  tval : Word36 := 0
  vbase : Word36 := 0
  ienable : Word36 := 0
  beatPend : Bool := false
  beatLost : Bool := false
  splim : Word36 := 0
  sptop : Word36 := 0x40000
  timer : Word36 := 0
  /-- TIMER has been written since reset: before that the source is not pending (R186, R197; log entry 120). -/
  timerSet : Bool := false
  fnPend : Bool := false
  fnCode : Nat := 0
  fnSeq : Nat := 0
  fnData : Word36 := 0
  hbmwin : Word36 := 0
  scratch : Cells Word36 := []
  ctrEn : Bool := false
  ctrWrap : Nat := 0
  ctrWrapSeq : Nat := 0
  /-- Counters 0 to 4: CYCLES, RETIRED, MISPRED, WPFETCH, STALLX (R197). -/
  ctr : Cells Nat := []
  /-- The HI part that the latest read of a counter's LO latched (R198). -/
  ctrLatch : Cells Nat := []
  rgnBase : Cells Word36 := []
  rgnLim : Cells Word36 := []
  extallow : Word36 := 0
  /-- Messages written to MSG_IN, oldest first, at most 8 (R186). -/
  msgs : List (BitVec 32) := []
  /-- A double trap has stopped the core (R185). -/
  stopped : Bool := false
  /-- WFI waits (R172). -/
  waiting : Bool := false
  /-- Posted stores that wait, in order, each with the key of its lane (of a slice, or of an HBM address): in an output window of
  the tile's running table for the next tick (R65), in a moving tile for the spare (R450), in a pending cutting for its copy (R485). -/
  heldStores : List (Nat × BitVec 32) := []
  /-- An external access has been issued and waits: no interrupt is taken (R184). -/
  extWait : Bool := false
  /-- The lanes for which the access under way waits, by key, and what it does there where it is an atomic; the lanes that a tick has
  served since, each with what it held (R65, R201). -/
  waitLanes : List Nat := []
  waitOp : Option LaneOp := none
  served : List (Nat × BitVec 32) := []
  /-- The external access under way fails under R206. -/
  extFail : Bool := false
  /-- Private memory words that have been written (R159). -/
  pm : Cells Word36 := []
  /-- Which unspecified contents the unwritten words hold (R589). -/
  pmStamp : Nat := 0
deriving DecidableEq, Repr

/-! ## Addressed memories -/

/-- The byte memories of the block over one key space; `undef` lists the ranges whose contents a reset made
unspecified, newest first, each with the stamp of its free contents (R589). -/
structure Memory where
  cells : Cells Byte := []
  undef : List (Nat × Nat × Nat) := []
deriving DecidableEq, Repr

/-! ## Tiles: sequencer, trackers, exchange (spec/02, spec/03) -/

/-- A 32-byte line: of a tile's slice, or of HBM in the map of R209. -/
inductive Loc where
  | slice (t line : Nat)
  | hbm (unit : Nat)
deriving DecidableEq, Repr

/-- A footprint of the hazard tracker: a half-open interval of own-slice lines or of HBM bytes (R115). -/
structure Foot where
  hbm : Bool
  lo : Nat
  hi : Nat
  wr : Bool
deriving DecidableEq, Repr

/-- An issued row that has not completed (R90, R115): its footprints, the lines it will write in order, the exchange packets
not yet acknowledged, and the table error it has met. -/
structure TrackRow where
  slot : Nat
  cls : Nat
  foots : List Foot := []
  writes : List (Loc × List Byte) := []
  left : Nat := 0
  err : Nat := 0
deriving DecidableEq, Repr

/-- An exchange packet (R76, R78, R111): bytes, anchors (op 1) or partials (op 2) for a destination tile's slice. `first` is
the index of its first entry in the row's array. -/
structure XPkt where
  srcMid : Nat
  srcTile : Nat
  srcSlot : Nat
  beat : Nat
  attempt : Nat
  dstMid : Nat
  dstTile : Nat
  vc : Nat
  dctr : Nat
  op : Nat
  addr : Nat
  aaddr : Nat
  first : Nat
  data : List Byte
  last : Bool
deriving DecidableEq, Repr

/-- A wait row that holds the issue of later rows (R77). -/
structure WaitRow where
  kind : Nat
  index : Nat
  value : Nat
deriving DecidableEq, Repr

/-- One tile's sequencer and exchange port. -/
structure Tile where
  /-- The running bank; the other is the next bank (R61). -/
  bank : Nat := 0
  /-- 0 unarmed, 1 armed by ARM, 2 by ARM_SAME (R66). -/
  arm : Nat := 0
  /-- A COMMIT tick found the next bank unarmed (R68). -/
  openBeat : Bool := false
  /-- A running table is in force: a tick has started it and no tick has committed its beat. -/
  running : Bool := false
  /-- A tick has taken a table into the running bank (R60). -/
  loaded : Bool := false
  /-- NROWS of the running table. -/
  rows : Nat := 0
  /-- The slot of the next row to issue. -/
  next : Nat := 2
  track : List TrackRow := []
  waitRow : Option WaitRow := none
  /-- Arrival counters (R76). -/
  arrival : Cells Nat := []
  /-- NOTE values of the beat, in slot order (R79). -/
  notes : List Nat := []
  /-- Commit log: first old contents of each LOGGED line, newest first (R64). -/
  log : List (Loc × List Byte) := []
  /-- PLAIN lines written in the beat, with what they held before. -/
  plain : List (Loc × List Byte) := []
  /-- Slice lines that the exchange port has written since the latest tick: their provenance bits (R450). -/
  prov : List Nat := []
  /-- Slice lines that rows of the running table have written in the beat, inside its windows (R114). -/
  own : List Nat := []
  /-- Slice lines that exchange rows have written in the beat: line and sender, MID and tile (R114). -/
  sent : List (Nat × Nat × Nat) := []
  /-- Packets whose beat is ahead (R111). -/
  held : List XPkt := []
  /-- Slots that a replay does not issue again (R449, R450). -/
  skip : List Nat := []
  /-- The sequencer issues nothing: a row fault (R118), a table error (R82), or an ABORT tick. -/
  stopped : Bool := false
  /-- The cache partition and cacheable ranges in force: SIZE code and (base, limit, enable) (R203). -/
  cacheSize : Nat := 0
  cranges : List (Nat × Nat × Bool) := []
  /-- A write of CACHE_CTRL or a CRANGE register awaits the next tick (R203). -/
  cachePend : Bool := false
  /-- Cached 256-byte HBM lines with their bytes, most recently used first (R202). -/
  cache : List (Nat × List Byte) := []
deriving DecidableEq, Repr

/-- One Furrow stream beside its registers (R219-R227). -/
structure Stream where
  /-- EN was written 1 and waits for a tick, STOP or EN 0 was written on a live stream (R222). -/
  pendEn : Bool := false
  pendStop : Bool := false
  pendOff : Bool := false
  /-- The beat in which it became live (R223). -/
  since : Nat := 0
  /-- Lines landed: batch, line of the batch, landed after the tick that started the current beat (R224, R227). -/
  landed : List (Nat × Nat × Bool) := []
  /-- Requests in flight: batch and chunk (R223, R227). -/
  flight : List (Nat × Nat) := []
  /-- Lines that a peer has answered and that have not landed: batch, line, bytes (SPACE 2). -/
  resp : List (Nat × Nat × List Byte) := []
  /-- The last BEATNO for which LATE advanced (R225). -/
  lateAt : Option Nat := none
  /-- Batches whose delivery window is open, with the lines of their source as they were when it opened (R226). -/
  source : List (Nat × List (Option (List Byte))) := []
deriving DecidableEq, Repr

/-- One staged export: tile, channel, bytes (R79). -/
structure Export where
  tile : Nat
  slot : Nat
  channel : Nat
  bytes : List Byte
deriving DecidableEq, Repr

/-! ## The beat domain (spec/02) -/

/-- This module's part in its beat domain (R48-R60, R84-R86). -/
structure Domain where
  /-- The module belongs to a live domain. -/
  member : Bool := false
  /-- Beats run: a START or RESTART tick has been applied and neither a stop nor a halt has followed. -/
  ticking : Bool := false
  /-- The link port of the tree parent, and those of the children with what each has reported. -/
  parent : Option Nat := none
  children : List Nat := []
  depth : Nat := 0
  /-- MID of the tick master. -/
  master : Nat := 0
  /-- Formation: this module founds; members known so far as (MID, standby, depth, delay); links that have passed FORM. -/
  founding : Bool := false
  /-- DOMAIN_ID of the founder whose formation this module takes part in (R49). -/
  formId : Nat := 0
  joined : List (Nat × Bool × Nat × Nat) := []
  /-- Join requests that wait for the next tick at the master: MID, standby, depth, delay, port (R51). -/
  joins : List (Nat × Bool × Nat × Nat × Nat) := []
  /-- At another member: the modules that join at the next tick, with standby, TREE_DELAY and depth (R51). -/
  joining : List (Nat × Bool × Nat × Nat) := []
  /-- JOIN_EN has not been written from 0 to 1 since a refusal (R51). -/
  joinSpent : Bool := false
  /-- A tick that waits for its application time: kind, BEATNO, time (R58). -/
  pend : Option (Nat × Nat × Nat) := none
  /-- Ports of children that have reported DONE of the current beat, and whether this member has (R57). -/
  doneFrom : List Nat := []
  doneSent : Bool := false
  /-- Schedule: base time and beat, period in fabric cycles, A of the latest tick (R84). -/
  baseB : Nat := 0
  baseN : Nat := 0
  period : Nat := 64000
  lastA : Nat := 0
  /-- RUN was written 0 at the master: stop at the next COMMIT (R56). -/
  stopReq : Bool := false
  /-- A beat is open between an ABORT and its RESTART, or after a stop or halt. -/
  aborted : Bool := false
  /-- Cause of the latest abort and of the halt: 0 loss, 1 fault, 2 table error or reset (R87, R458). -/
  abortCause : Nat := 0
  haltCause : Nat := 0
  /-- Attempt number modulo 16 (R111). -/
  attempt : Nat := 0
  /-- Cycles since the tick that started the beat, for wait kind 2 (R77): DTIME of that tick. -/
  beatStart : Nat := 0
  /-- Persistent overrun has been reported and no zero-debt tick has followed (R85). -/
  overrun : Bool := false
  /-- Exports of the beat in commit-gate staging, in issue order (R79). -/
  staging : List Export := []
  /-- The START tick has been applied since formation (R56). -/
  started : Bool := false
  /-- The tile that finished last in the beat (R85). -/
  lastTile : Nat := 0
  /-- At the master: the halt that follows the ABORT tick under way (R82, R447). -/
  haltWith : Option Nat := none
  /-- At the master: the RESTART tick waits for a spare member's tiles (R459). -/
  waitSpare : Bool := false
  /-- Members lost in this beat, each with its valid spare, until the RESTART tick (R292, R459). -/
  subst : List (Nat × Option Nat) := []
  /-- Members lost after the master held every DONE, each with its valid spare (R460). -/
  lostAfter : List (Nat × Option Nat) := []
  /-- Sequence of TIME symbols (R263). -/
  timeSeq : Nat := 0
  /-- NEXT_PERIOD has been written and has not taken effect (R86). -/
  nextSet : Bool := false
deriving DecidableEq, Repr

/-! ## Commit gate (spec/07, spec/16) -/

/-- A stream-table entry (R246). `held` are the speculative records it holds, in position order; PENDING is their number. -/
structure StreamEnt where
  state : Nat := 0
  home : Bool := false
  plot : Nat := 0
  channel : Nat := 0
  pos : Nat := 0
  kmax : Nat := 0
  tokens : Nat := 0
  held : List Nat := []
deriving DecidableEq, Repr

/-- The commit gate beside its registers. -/
structure Gate where
  streams : Cells StreamEnt := []
  /-- SUPPRESS_POS by stream (R491). -/
  suppress : Cells Nat := []
  /-- PLACE_VALID was written 1 and no COMMIT tick has followed (R239). -/
  placeAsk : Bool := false
  /-- METER_HOLD in force (R501). -/
  hold : Bool := true
  /-- BEATNO of the latest COMMIT tick, and METER_HOLD at it (R499). -/
  last : Nat := 0
  lastHold : Bool := true
  /-- Functions whose totals have changed since the previous count frame began (R500). -/
  dirty : List Nat := []
  /-- The count frame on the wire. -/
  wire : Option (List Byte) := none
deriving DecidableEq, Repr

/-! ## Fault manager (spec/14) -/

/-- What a fault record says of its report (R470). -/
structure FaultRec where
  cls : Nat
  unit : Nat
  index : Nat
  sub : Nat := 0
  check : Nat
  table : Nat := 0
  slot : Nat := 0
  addr : Nat := 0
  beat : Nat := 0
  /-- Who read the slice line that failed parity: 0 a row, 1 the tile's core, 2 a Furrow, 3 the exchange port (R96). -/
  req : Nat := 0
deriving DecidableEq, Repr

/-- A replay of a tile's segment (R448-R451, R454). -/
structure Replay where
  tile : Nat
  /-- 1 same-tile, 2 spare-tile, 3 beat abort. -/
  kind : Nat
  spare : Option Nat := none
  /-- 0 draining, 1 copying, 2 running again. -/
  phase : Nat := 0
  /-- An ABORT tick fell while the copy ran. -/
  aborted : Bool := false
  /-- A planned move of Greenhouse (R464). -/
  planned : Bool := false
  reports : List FaultRec := []
deriving DecidableEq, Repr

/-- The fault manager beside its registers. -/
structure FaultMgr where
  replays : List Replay := []
  /-- Replays of the beat so far (R454). -/
  count : Nat := 0
  /-- Spares that faulted during a copy of this beat. -/
  passed : List Nat := []
  /-- Beats of row faults, by physical tile (R453). -/
  history : Cells (List Nat) := []
  /-- The physical tile that answers for a number, where it is another one (R450). -/
  phys : Cells Nat := []
  /-- Tiles that retire at the next tick: the number, and the spare that answers for it. -/
  retiring : List (Nat × Option Nat) := []
  /-- SPARE_TILE in force (R451). -/
  spares : List Nat := []
  /-- Reports by unit, index and check since reset (R470). -/
  reports : Cells Nat := []
  /-- Beats of corrected errors by pseudo-channel 32 s + p, and of resends by router (R453). -/
  corrected : Cells (List Nat) := []
  resends : Cells (List Nat) := []
  /-- Corrected records by beat, for the error-rate trigger (R478). -/
  ceBeats : List Nat := []
  /-- The log by index: the working copies are alike (R469); the indices whose record has been read (R473). -/
  log : Cells (List Byte) := []
  logRead : List Nat := []
  /-- Retired routers: 128 half + 16 y + x, and the detour map in force (R455). -/
  routers : List Nat := []
  detour : List Nat := []
  /-- The unit whose retirement lowers the service level at the next tick: kind, index, sub-index (R40). -/
  levelFall : Option (Nat × Nat × Nat) := none
  /-- Tiles that have run their Seedling kernel in the beat, and those that must (R463). -/
  seeded : List Nat := []
  /-- Beats of a sweep still to run, its beds that failed, and the BEATNO of its round (R466). -/
  sweep : Nat := 0
  sweepBeds : List Nat := []
  sweepFail : List Nat := []
  sweepRound : Nat := 0
  /-- The unit under Greenhouse test: kind, index, sub-index (R464). -/
  test : Option (Nat × Nat × Nat) := none
  /-- A tile move that the rotation has due. -/
  nextMove : Nat := 0
  /-- Digest rounds begun; the round under way: its beat and this member's page digests so far (R465). -/
  round : Nat := 0
  roundAt : Option Nat := none
  digest : List Byte := []
  /-- Mirrored bytes of the beat, and writes that the spare has not acknowledged (R456). -/
  mirrorBytes : Nat := 0
  mirrorOut : Nat := 0
  /-- At a spare: staged writes, oldest first; the latest placement block and stream entries of the covered member. -/
  staged : List (Nat × List Byte) := []
  covered : Option (Place × List (Nat × Nat × List Nat)) := none
  /-- Beds to be pruned at the next COMMIT tick: BED_ID, and that of the new home (R466). -/
  prune : List (Nat × Nat) := []
  /-- Bed digests of the latest round, by REP_BED index (R466). -/
  beds : List (Nat × List Byte) := []
deriving DecidableEq, Repr

/-! ## Mulch (spec/15) -/

/-- A restore that has been asked for (R489): response slot, holder, source, image index, STREAMS, and the map entries
(SRC_FIRST, SRC_LAST, DST_FIRST, KIND mask). -/
structure Restore where
  slot : Nat
  holder : Nat
  source : Nat
  index : Nat
  streams : Bool
  map : List (Nat × Nat × Nat × Nat) := []
deriving DecidableEq, Repr

/-- A page of the checkpoint's contents, with its digest at the cut (R475, R481). -/
structure CkPage where
  page : Nat
  kind : Nat
  dedup : Bool
  digest : List Byte
deriving DecidableEq, Repr

/-- Mulch beside its registers (R475-R492). -/
structure Mulch where
  /-- A checkpoint runs here: CUT(c) has been acknowledged, and the bed's checkpoint (at another member than the master, this
  member's image) is not held. -/
  run : Bool := false
  /-- The cut tick of beat c has not come; members that have acknowledged CUT(c). -/
  cut : Option Nat := none
  acks : List Nat := []
  /-- The slot and the volume of the running checkpoint: 0 A, 1 B. -/
  slot : Nat := 0
  vol : Nat := 0
  /-- A trigger is deferred (R480); MTIME of the latest cut; a MULCH_CHECKPOINT command has completed in this beat. -/
  deferred : Bool := false
  lastCut : Nat := 0
  asked : Bool := false
  /-- Ranges of 64 KiB cuttings marked at the cut, and those of them copied; the same of a digest round (R485). -/
  marks : List (Nat × Nat) := []
  copied : List Nat := []
  digMarks : List (Nat × Nat) := []
  digCopied : List Nat := []
  /-- Cuttings whose copy for a held write is under way; cut-buffer slots in use, each with its cutting. -/
  holding : List Nat := []
  buffer : Cells Nat := []
  /-- The image fixed at the cut: the first 44 bytes of its header, its stream records, its pages in ascending order. -/
  head : List Byte := []
  streams : List Nat := []
  pages : List CkPage := []
  /-- The master's assignment has arrived; pages that another image holds: page, bed index, STRIP, STRETCH (R482). -/
  assigned : Bool := false
  refs : List (Nat × Nat × Nat × Nat) := []
  /-- The seal has been sent. -/
  sealed_ : Bool := false
  /-- At the master: members whose image is held, and, of the held checkpoint, its cut beat and volume and the members whose
  image is durable. -/
  heldBy : List Nat := []
  storing : Option (Nat × Nat × List Nat) := none
  /-- At the neighbour: sources whose image is being written to a volume, and how many commands have not ended. -/
  stores : List (Nat × Nat) := []
  restore : Option Restore := none
deriving DecidableEq, Repr

/-! ## HBM (spec/06) -/

/-- HBM upkeep beside its registers (R206-R218). -/
structure Hbm where
  /-- Retirements that wait for the next tick: stack, physical pseudo-channel (R211). -/
  retiring : List (Nat × Nat) := []
  /-- Retired physical pseudo-channels. -/
  retired : List (Nat × Nat) := []
  /-- Background operations left in an open reserved slot, by 32 s + p (R216). -/
  slotOps : Cells Nat := []
  /-- How many 64-byte bursts of each pseudo-channel this pass has scrubbed, by 32 s + p, and those scrubbed through (R218). -/
  scrubPos : Cells Nat := []
  scrubDone : List Nat := []
  /-- The free-running period number that stands in for BEATNO while no beats run (R216). -/
  idleBeat : Nat := 0
deriving DecidableEq, Repr

/-! ## Dvorar (spec/08) -/

/-- A data flit in a replay buffer: FSEQ, channel, FIRST and the bytes of packets in its body (R259, R262). -/
structure TxFlit where
  fseq : Nat
  vc : Nat
  first : Nat
  body : List Byte
deriving DecidableEq, Repr

/-- A packet queued at a link port (R272, R273). -/
structure TxPkt where
  /-- Its header's fields, and its channel. -/
  pkt : DvPkt
  vc : Nat
  /-- Its bytes that have come and that no flit has carried, and how many are still to come from the port `via`. -/
  bytes : List Byte
  toCome : Nat := 0
  via : Nat := 24
  /-- A flit has carried its header. -/
  begun : Bool := false
deriving DecidableEq, Repr

/-- One link port beside its registers (R258-R280). -/
structure LinkPort where
  /-- Receiver: next FSEQ expected, whether a NAK is open, flits discarded in a row. -/
  rxNext : Nat := 0
  nakOpen : Bool := false
  badRun : Nat := 0
  rxAny : Bool := false
  /-- Sender: next FSEQ, replay buffer oldest first, the FSEQ of the latest NAK and how often in a row. -/
  txNext : Nat := 0
  replay : List TxFlit := []
  nakSeq : Nat × Nat := (0, 0)
  /-- Credits held, by channel; the latest cumulative count seen; buffers freed here. -/
  credit : Cells Nat := []
  creditSeen : Cells Nat := []
  freed : Cells Nat := []
  /-- Packets queued, oldest first. -/
  queue : List TxPkt := []
  /-- Receiver, by channel: bytes of a packet for this module, or of a header, that is not whole; the egress port (24: none) that takes
  the rest of a packet on its way through, and the bytes of it still to come (R273). -/
  asm : Cells (List Byte) := []
  pass : Cells (Nat × Nat) := []
  /-- Flit slots received since the lanes were deskewed, modulo 840, where the striping of R258 comes round at every lane count. -/
  slot : Nat := 0
  /-- Control symbols due that no flit slot has carried, oldest first (R263, R264). -/
  due : List Nat := []
  /-- Failed retrains in a row. -/
  fails : Nat := 0
  /-- NEG words received (R275). -/
  neg : Cells Nat := []
  /-- Lanes of this end that work; the mask that this end has asked for, and the mask to which both ends deskew; lanes that have lost
  lock and wait for their turn (R277). -/
  lanes : Nat := 255
  asked : Option Nat := none
  drop : Option Nat := none
  unlocked : List Nat := []
  /-- Corrected codewords of each lane in the window under way (R277). -/
  ce : Cells Nat := []
  /-- The port has left UP and no tick has followed its return (R272). -/
  barred : Bool := false
  /-- The latest symbol acted on of those that come four times, and the slots in which further copies of it can come; the latest
  TICK, DONE and FORM sent, by type; the LSTATEs sent that the other end has not echoed, by 256 port + MID (R264). -/
  lastSym : Option (Nat × Nat) := none
  sent : Cells Nat := []
  unechoed : Cells Nat := []
  /-- LSTATE sequence of this port. -/
  lseq : Nat := 0
  /-- DOMAIN_ID and role of the other end's module as its NEG words gave them (R275). -/
  peerDom : Nat := 0
  peerRole : Nat := 0
deriving DecidableEq, Repr

/-- Who is told of an operation's end: a ring descriptor, a stream's chunk, Mulch, or an agent of the hub's own. -/
inductive Owner where
  | desc (fn ring idx : Nat)
  | chunk (t k b c : Nat)
  | mulch (id : Nat)
  | agent (id : Nat)
deriving DecidableEq, Repr

/-- Where the bytes of a read go: address space of R363, function and address. -/
structure Sink where
  aspace : Nat
  fn : Nat
  addr : Nat
deriving DecidableEq, Repr

/-- An operation of a connection (R288). -/
structure DvOp where
  opid : Nat
  read : Bool
  len : Nat
  /-- Where it goes, as its packets name it. -/
  space : Nat := 1
  xlate : Bool := false
  addr : Nat := 0
  sink : Option Sink := none
  /-- PSN, offset and bytes of each packet not yet acknowledged, or, for a read, not yet answered, in order. -/
  left : List (Nat × Nat × Nat) := []
  /-- A read: PSNs of its packets that the cumulative PSN has not covered (R287). -/
  uncovered : List Nat := []
  owner : Owner := .agent 0
deriving DecidableEq, Repr

/-- An operation that has ended and whose owner has not been told: OPID, STATE, CAUSE, DONE_BYTES (R288). -/
structure Ended where
  owner : Owner
  opid : Nat := 0
  state : Nat
  cause : Nat
  bytes : Nat
deriving DecidableEq, Repr

/-- The completion record of an operation, 16 bytes (R288). -/
def Ended.record (e : Ended) : Nat :=
  e.opid % 2 ^ 32 + e.state % 4 * 2 ^ 32 + e.cause % 64 * 2 ^ 34 + e.bytes % 2 ^ 40 * 2 ^ 64

/-- The sending end of a connection (R281-R291). -/
structure SendConn where
  peer : Nat := 0
  engine : Nat := 0
  vc : Nat := 0
  /-- The function that owns a programmed connection. -/
  func : Nat := 0
  /-- Programmed connection: opened by DCONN_OPEN. -/
  isOpen : Bool := false
  /-- The retry limit has put it in error. -/
  failed : Bool := false
  psn : Nat := 0
  una : Nat := 0
  sent : List DvPkt := []
  wait : List DvPkt := []
  rto : Nat := 0
  expiries : Nat := 0
  /-- PSNs retransmitted since the latest RTO (R285). -/
  fast : List Nat := []
  pageWait : Option Nat := none
  pageTry : Nat × Nat := (0, 0)
  resend : Option Nat := none
  ops : List DvOp := []
  nextOp : Nat := 0
deriving DecidableEq, Repr

/-- The receiving end of a connection (R285, R286, R290, R291). -/
structure RecvConn where
  next : Nat := 0
  held : List DvPkt := []
  /-- Packets applied since the latest ACK. -/
  since : Nat := 0
  /-- The PSN that a translation miss stalls. -/
  stall : Option Nat := none
  /-- The stall is that of a READ that waits for the next COMMIT tick (R201). -/
  stallTick : Bool := false
  /-- The latest operation that was refused, and the cause: packets of it are refused again. -/
  refused : Option (Nat × Nat) := none
  /-- Entries of the combine operation under way that have been applied. -/
  entry : Nat := 0
deriving DecidableEq, Repr

/-- Dvorar beside its registers. -/
structure Dvorar where
  ports : Cells LinkPort := []
  /-- Senders by 2^12 origin + CN; receivers by 2^14 SRC_MID + 2^12 ORIGIN + CN. -/
  send : Cells SendConn := []
  recv : Cells RecvConn := []
  /-- Packets delivered to this module's engines that await their command, oldest first. -/
  inbox : List DvPkt := []
  /-- ROUTE_CTRL.SWAP awaits the next tick (R272). -/
  swapPend : Bool := false
  /-- The link map: by 32 MID + port, whether up and the LSTATE sequence (R272). -/
  linkMap : Cells (Bool × Nat) := []
  /-- PROBE: the running tag, and by member how many have gone unanswered (R280). -/
  tag : Nat := 0
  missed : Cells Nat := []
  /-- Operations that have ended and whose owner has not been told (R288). -/
  ended : List Ended := []
  /-- SPACE 2 requests towards a lost member that wait for the RESTART tick: tile, stream, batch, chunk (R292). -/
  lost : List (Nat × Nat × Nat × Nat) := []
deriving DecidableEq, Repr

/-! ## Host interface (spec/11) -/

/-- A descriptor that has been fetched and has no completion record (R365-R367). -/
structure Desc where
  idx : Nat
  bytes : List Byte
  /-- Its work has started; bytes done so far. -/
  started : Bool := false
  done : Nat := 0
  /-- Its work has ended: type and payload of the record to be written; type 0 writes none. -/
  fin : Option (Nat × Nat) := none
deriving DecidableEq, Repr

/-- A quiesce that runs (R385, R388). -/
structure Quiesce where
  /-- The response slot of the management command; none for an FLR or a removed VF. -/
  slot : Option Nat := none
  flr : Bool := false
  /-- The plot's state when the FLR found it (R377). -/
  old : Nat := 1
  /-- TIMEOUT_MS has passed. -/
  timed : Bool := false
  /-- Descriptors ended partial, and not started. -/
  partially : Nat := 0
  unstarted : Nat := 0
deriving DecidableEq, Repr

/-- A ring (R365, R369). -/
structure Ring where
  kind : Nat := 0
  base : Nat := 0
  log2 : Nat := 6
  eq : Nat := 0
  port : Nat := 0
  queue : Nat := 0
  u : Nat := 0
  f : Nat := 0
  p : Nat := 0
  /-- The latest-doorbell register, rung and not yet sampled. -/
  bell : Option Nat := none
  err : Nat := 0
  descs : List Desc := []
  /-- Indices completed out of order, beyond U. -/
  doneIdx : List Nat := []
deriving DecidableEq, Repr

/-- An event queue (R371-R374). -/
structure EvQueue where
  base : Nat := 0
  log2 : Nat := 6
  vector : Nat := 0
  modCount : Nat := 0
  modTime : Nat := 0
  n : Nat := 0
  ci : Nat := 0
  lost : Bool := false
  /-- Records held in hub SRAM: function, type, time, payload, and the LOG_UNAVAIL bit. -/
  hold : List (Nat × Nat × Nat × Nat × Bool) := []
  /-- Records written since the latest message. -/
  since : Nat := 0
deriving DecidableEq, Repr

/-- A delivery of the commit gate: channel, beat, source tile and slot (256 for tokens), bytes left (R379). -/
structure Delivery where
  channel : Nat
  beat : Nat
  bytes : List Byte
  /-- Bytes already handed to posted buffers. -/
  sent : Nat := 0
  /-- It carries token records, which wait for the Cloche (R501). -/
  tokens : Bool := false
  hold : Bool := false
deriving DecidableEq, Repr

/-- The host interface beside its registers. -/
structure HostIf where
  /-- PCIe trained. -/
  linkUp : Bool := false
  /-- VF Enable and NumVFs of PF0 (R359). -/
  numVfs : Nat := 0
  /-- By 64 FUNC + number. -/
  rings : Cells Ring := []
  eqs : Cells EvQueue := []
  /-- Vectors that are not masked, and those whose PBA bit is set, by 64 FUNC + vector. -/
  unmasked : List Nat := []
  pba : List Nat := []
  /-- Grants by 8 plot + index: base and length. -/
  grants : Cells (Nat × Nat) := []
  /-- Export channel entries (R378). -/
  channels : Cells Nat := []
  /-- Deliveries in staging, oldest first. -/
  deliveries : List Delivery := []
  /-- Records written to the management event area (R381). -/
  evCount : Nat := 0
  /-- Requests written to the management ring and not yet executed. -/
  mrPending : Nat := 0
  /-- A request runs that has not been answered: a quiesce or a restore; the later ones wait. -/
  mrBusy : Bool := false
  /-- MSI-X table entries, by 64 FUNC + vector: address, data. -/
  msix : Cells (Nat × Nat) := []
  /-- Quiesces that run, by plot; 0 is that of the manager under an FLR of PF0. -/
  quiesce : Cells Quiesce := []
  /-- Slots of requests on a plot that an FLR has overtaken (R388). -/
  doomed : List Nat := []
  /-- Frozen plots whose image has been saved (R391). -/
  saved : List Nat := []
deriving DecidableEq, Repr

/-! ## Power (spec/19) -/

/-- The step controller of one half (R569, R570). -/
structure HalfPower where
  step : Nat := 0
  stepMax : Nat := 0
  /-- The steps that the power limit and the thermal limit require. -/
  power : Nat := 0
  thermal : Nat := 0
  /-- Milliseconds in a row at or below TJ_THROTTLE − 5. -/
  cool : Nat := 0
  /-- What has last moved the step: 0 command, 1 power limit, 2 thermal, 3 interlock. -/
  why : Nat := 0
  /-- MTIME at which the controller decided on a step up that has not been made (R569). -/
  upFrom : Option Nat := none
deriving DecidableEq, Repr

/-- The boundary-scan chain (R582): TAP state as IEEE 1149.1 numbers them here, the shift register from TDI to TDO, the three
operations (0 BYPASS, 1 IDCODE, 2 SAMPLE/PRELOAD, 3 EXTEST, 4 HIGHZ, 5 CLAMP), the latched boundary cells. -/
structure Tap where
  state : Nat := 0
  shift : List Bool := []
  ir : List Nat := []
  cells : List Bool := []
  /-- The level of TDO; none is high impedance. -/
  tdo : Option Bool := none
deriving DecidableEq, Repr

/-- The flow interlock, the step controller and the pins (R565-R585). -/
structure Power where
  /-- 0 NORMAL, 1 DISAGREE, 2 FLOW_FAULT, 3 SAFE. -/
  state : Nat := 3
  cause : Nat := 5
  boot : Bool := true
  low2 : Nat := 0
  bad : Nat := 0
  good : Nat := 0
  /-- Inputs that were low in the disagreement, and the latest levels: bit 0 A, bit 1 B. -/
  wasLow : Nat := 0
  inputs : Nat := 0
  /-- FLOW_FAULT has been entered and no tick has followed; its measures are in force. -/
  faultPend : Bool := false
  held : Bool := false
  /-- PLIMIT where one has been set. -/
  plimit : Option Nat := none
  d : Nat := 100
  tj : Nat := 100
  /-- A POWER_SET that waits for the tick: PLIMIT, STEP_MAX West and East, TJ_THROTTLE. -/
  set : Option (Nat × Nat × Nat × Nat) := none
  west : HalfPower := {}
  east : HalfPower := {}
  /-- Windows in a row at or below 0.95 PLIMIT; power of the latest window. -/
  calm : Nat := 0
  window : Nat := 0
  disagreements : Nat := 0
  flowFaults : Nat := 0
  /-- HBM stacks paced to half their rate (R570). -/
  hbmHot : List Nat := []
  /-- THERMTRIP# is asserted; MRST# is low. -/
  thermtrip : Bool := false
  mrst : Bool := false
  tap : Tap := {}
deriving DecidableEq, Repr

/-! ## Cloche (spec/16) -/

/-- The Cloche die (R498-R511). -/
structure Cloche where
  running : Bool := true
  /-- CL_RESET# is asserted; CL_PROG_EN is high. -/
  inReset : Bool := false
  prog : Bool := false
  epoch : Nat := 0
  /-- Held totals and the open interval's counts, by function; functions active in the epoch. -/
  held : Cells Nat := []
  counts : Cells Nat := []
  active : List Nat := []
  /-- BEAT of the latest frame counted; EPOCH and BEAT of the latest accepted frame, and whether its acknowledgement is due. -/
  lastBeat : Nat := 0
  latest : Nat × Nat := (0, 0)
  accepted : Bool := false
  ackDue : Bool := false
  ctime : Nat := 0
  tStart : Nat := 0
  /-- The CTIME at which the open interval ends: the next multiple of L. -/
  due : Nat := 60000000000
  ino : Nat := 0
  rseq : Nat := 0
  /-- The configuration word of its flash, and the code in force. -/
  word : Nat := 5
  code : Nat := 5
  /-- FLAGS of the open interval, SEALED apart. -/
  flags : Nat := 0
  /-- Channel registers in 0.01 µJ. -/
  energy : Cells Nat := []
  /-- New records to send; the ring of the latest records, oldest first, and where its sending stands. -/
  queue : List (List Byte) := []
  ring : List (List Byte) := []
  ringPos : Nat := 0
  /-- Frames on the record wire. -/
  wire : List (List Byte) := []
  sealedPart : Bool := true
  cfw : Nat := 0
deriving DecidableEq, Repr

/-- The record port beside its registers (R501, R512-R514). -/
structure RecPort where
  /-- EPOCH and BEAT of the latest acknowledgement. -/
  acked : Option (Nat × Nat) := none
  /-- RSEQs delivered within the window. -/
  seen : List Nat := []
  /-- Stored records, oldest first, each with the functions that have not received it. -/
  store : List (List Byte × List Nat) := []
  /-- A block that has been read back. -/
  front : List (List Byte × List Nat) := []
  /-- Blocks in the overflow region: number, and the RSEQ and the functions of each record. -/
  blocks : List (Nat × List (Nat × List Nat)) := []
  nextBlock : Nat := 0
  /-- The port waits for the cipher lock. -/
  waits : Bool := false
  /-- INO of the latest interval whose COUNT_FAULT has been reported. -/
  faultIno : Option Nat := none
deriving DecidableEq, Repr

/-! ## Firmware, boot and the management controller (spec/17) -/

/-- A live update under way (R532, R533). -/
structure LiveUpdate where
  bank : Nat
  /-- The compartment in turn; the hub cores of R528 moved so far, each with the core that ran its work. -/
  comp : Nat := 1
  moved : List (Nat × Nat) := []
  slot : Nat := 0
deriving DecidableEq, Repr

/-- A start of the boot sequencer that waits until the interlock has left SAFE or MRST# is high: with the fuse reads and the hub
die's temperature where it begins at step 1 of R522, and the images that the flash fails to read (R565, R577). -/
structure BootStart where
  fuses : Option (List FuseRead) := none
  temp : Nat := 0
  bad : List Nat := []
deriving DecidableEq, Repr

/-- Boot sequencer, firmware and PLDM state. -/
structure Firmware where
  /-- Accepted fuse words. -/
  fuses : Cells Nat := []
  /-- Bank in use by the sequencer, and whether the other bank is forced. -/
  bank : Nat := 0
  forced : Bool := false
  /-- Banks that have passed FW_VERIFY since they were written. -/
  verified : List Nat := []
  /-- Flash sectors erased since the write of a bank began. -/
  erased : List Nat := []
  /-- By the hub core that R528 gives a compartment, the one that runs its work, where that is another (R530, R532). -/
  cores : Cells Nat := []
  live : Option LiveUpdate := none
  /-- Measurement blocks (R440). -/
  meas : Cells (List Byte) := []
  /-- The time that a slew is to reach (R537). -/
  target : Option Nat := none
  /-- The compartments run (R523); the boot self-test has completed (R42), and for these halves since their own reset. -/
  mainUp : Bool := false
  tested : Bool := false
  testedHalves : List Nat := []
  /-- A start of the boot sequencer that waits. -/
  start : Option BootStart := none
  /-- MCTP endpoint ID. -/
  eid : Nat := 0
  /-- Sensor values; platform events that the controller has not polled: event class and data. -/
  sensors : Cells Nat := []
  events : List (Nat × List Byte) := []
  eventId : Nat := 1
deriving DecidableEq, Repr

/-! ## Ethernet (spec/09, spec/10) -/

/-- A received frame in Sieve: ingress port, bytes without FCS, passes made, META, program of the next pass. -/
structure InFrame where
  port : Nat
  bytes : List Byte
  passes : Nat := 0
  tag : Nat := 0
  prog : Nat := 0
deriving DecidableEq, Repr

/-- Sieve beside its registers and memories. -/
structure Sieve where
  ingress : List InFrame := []
  recirc : List InFrame := []
  /-- The port whose turn comes next in the round-robin of first passes (R300). -/
  turn : Nat := 0
  /-- Transport receive queues: ingress port, frame, payload start. -/
  tq : Cells (List (Nat × List Byte × Nat)) := []
deriving DecidableEq, Repr

/-- An egress queue (R343-R352). -/
structure EgQueue where
  frames : List (List Byte) := []
  /-- Tokens or credit in units of 1/128 byte. -/
  tokens : Int := 0
  tagF : Nat := 0
  /-- It was eligible at the latest decision, so its tag stands. -/
  awake : Bool := false
  /-- RATE, BURST and MODE in force, and those that wait for the port's next decision with FILL. -/
  rate : Nat := 0
  burst : Nat := 0
  mode : Nat := 0
  staged : Option (Nat × Nat × Nat × Bool) := none
deriving DecidableEq, Repr

/-- A packet of the Ethernet transports: opcode, PSN, position in its operation. -/
structure EPkt where
  op : Nat
  psn : Nat
  isFirst : Bool := false
  isLast : Bool := false
  off : Nat := 0
  len : Nat := 0
  rkey : Nat := 0
  opid : Nat := 0
  aux : Nat := 0
  data : List Byte := []
  /-- At the receiver: it arrived with ECN 0b11. -/
  ce : Bool := false
deriving DecidableEq, Repr

/-- An operation of an Ethernet connection: kind 1 WRITE, 5 READ, 7 SEND. -/
structure EOp where
  opid : Nat
  kind : Nat
  len : Nat
  off : Nat
  rkey : Nat
  sink : Option Sink := none
  left : List (Nat × Nat × Nat) := []
  /-- A READ of the UDP transport: PSNs of its packets that the cumulative PSN has not covered (R287). -/
  uncovered : List Nat := []
  owner : Owner
deriving DecidableEq, Repr

/-- An open context as the engine has loaded it, and its connection (R329-R342). -/
structure EthConn where
  word : Nat := 0
  psn : Nat := 0
  sent : List EPkt := []
  wait : List EPkt := []
  ops : List EOp := []
  nextOp : Nat := 0
  rto : Nat := 0
  expiries : Nat := 0
  fast : List Nat := []
  pageWait : Option Nat := none
  pageTry : Nat × Nat := (0, 0)
  resend : Option Nat := none
  /-- Receiving end. -/
  next : Nat := 0
  held : List EPkt := []
  since : Nat := 0
  ce : Bool := false
  stall : Option Nat := none
  refused : Option (Nat × Nat) := none
  /-- RoCEv2: bytes of the message under way, its region key and offset, RNR retries made, whether the RNR timer runs, and
  MTIME of the latest CNP. -/
  msg : Nat := 0
  dest : Nat × Nat := (0, 0)
  rnr : Nat := 0
  rnrWait : Bool := false
  cnpAt : Option Nat := none
  /-- The function is quiesced: nothing inbound is applied. -/
  frozen : Bool := false
  /-- The stall is that of an access that waits for a COMMIT tick (R201); the buffer of the SEND under way: ring and
  descriptor; messages answered, for RoCEv2 (MSN). -/
  stallTick : Bool := false
  buf : Option (Nat × Nat) := none
  msn : Nat := 0
deriving DecidableEq, Repr

/-- A frame on its way to an egress queue (R343): its queue, bytes without FCS, source (0 FORWARD, 1 mirror copy, 2 transport
engine, 3 plot send ring), the place and kind of its IP header, and the descriptor that waits for it. -/
structure EgWait where
  key : Nat
  bytes : List Byte
  src : Nat
  ip : Option (Bool × Nat) := none
  desc : Option (Nat × Nat × Nat) := none
deriving DecidableEq, Repr

/-- The Ethernet side of the hub beside its registers. -/
structure Eth where
  conns : Cells EthConn := []
  /-- Queues by 128 port + queue. -/
  queues : Cells EgQueue := []
  /-- Frames that have not been queued, in the order in which they came. -/
  waiting : List EgWait := []
  /-- The frame on the wire, by port: queue and bytes held. -/
  sending : Cells (Nat × Nat) := []
  /-- Counts of the claimed bucket units, by 16 port + policer. -/
  policers : Cells Int := []
deriving DecidableEq, Repr

/-! ## Stash (spec/12) -/

/-- A piece (R404-R408): kind 0 READ, 1 WRITE, 2 ZERO, 3 FLUSH; the command and its number in it. -/
structure Piece where
  cmd : Nat
  idx : Nat
  drive : Nat
  slot : Nat
  kind : Nat
  cls : Nat
  lba : Nat
  blocks : Nat
  bytes : Nat
  force : Bool := false
  /-- Submitted with FUA; submitted under MODE SERVICE; its Abort has been sent. -/
  fua : Bool := false
  service : Bool := false
  aborting : Bool := false
  data : List Byte := []
deriving DecidableEq, Repr

/-- A Stash command: owner, kind, memory side, pieces (bytes each, and cause + 1 once ended), and whether no more of it may be
submitted. -/
structure StashCmd where
  id : Nat
  owner : Owner
  kind : Nat
  fn : Nat
  aspace : Nat
  addr : Nat
  volume : Nat
  lens : List Nat := []
  ended : Cells Nat := []
  stop : Nat := 0
  /-- A FLUSH: the accepted pieces that it waits for. -/
  after : Nat := 0
  slot : Nat := 0
deriving DecidableEq, Repr

/-- Stash beside its registers. -/
structure Stash where
  nextId : Nat := 0
  cmds : List StashCmd := []
  waiting : List (Nat × Piece) := []
  atDrive : List (Nat × Piece) := []
  seq : Nat := 0
  /-- The key of the ring from which the round-robin of the STASH rings goes on (R406). -/
  ringTurn : Nat := 0
  /-- Deficits by 4 drive + class, and the class whose turn it is, by drive. -/
  deficit : Cells Nat := []
  turn : Cells Nat := []
  /-- PORTS in force; MODE 0 waits for R410; drive serial numbers, and those of the attach by slot. -/
  ports : Nat := 0
  modePend : Bool := false
  serial : Cells Nat := []
  nsSerial : Cells Nat := []
  /-- Active namespace lists by drive. -/
  nsids : Cells (List Nat) := []
  /-- Identify Controller data by drive. -/
  identify : Cells (List Byte) := []
deriving DecidableEq, Repr

/-! ## Cipher block (spec/13) -/

/-- A command on a core (R421-R437): its image, label and owner, its ring descriptor (none for register mode), its result. -/
structure CipherJob where
  image : List Byte
  label : List Byte := []
  kind : Nat := 0
  num : Nat := 0
  desc : Option (Nat × Nat × Nat) := none
  /-- State, cause, bytes done, tag matched, once it has ended. -/
  result : Option (Nat × Nat × Nat × Bool) := none
deriving DecidableEq, Repr

/-- The state of an SPDM connection: version and algorithms agreed, and the transcript so far. -/
structure Spdm where
  stage : Nat := 0
  vca : List Byte := []
  digests : List Byte := []
  measured : List Byte := []
deriving DecidableEq, Repr

/-- The cipher block beside its registers. -/
structure Cipher where
  jobs : Cells CipherJob := []
  /-- A register-mode command whose GO has been accepted. -/
  go : Option CipherJob := none
  /-- RELEASE has been written while a command runs. -/
  releasing : Bool := false
  rr : Nat := 0
  /-- SPDM connections: 0 over I3C, 1 over the relay. -/
  spdm : Cells Spdm := []
deriving DecidableEq, Repr

/-! ## What detectors report to the fault manager (R13 crossing 3) -/

/-- A detection report that awaits the fault manager (R445, R447). -/
inductive Detection where
  /-- A double trap of a core: vector, PC and TVAL (R185). -/
  | coreFault (c : CoreId) (vector pc tval : Nat)
  /-- A private-memory parity error: word address (R160). -/
  | coreParity (c : CoreId) (addr : Nat)
  /-- A minority copy of a TV field was rewritten (R540). -/
  | tvDisagree (fld idx : Nat)
  /-- A row fault under R118: tile, TABLE_ID, slot, check as R470 codes it, requester (R96), line. -/
  | rowFault (tile table slot check req line : Nat)
  /-- A table error of code 8 to 11 (R82): tile, TABLE_ID, slot, code, and the sender of an inbound packet. -/
  | tableError (tile table slot code : Nat) (sender : Option (Nat × Nat))
  /-- An uncorrectable HBM or parity error: stack, pseudo-channel, address (R206). -/
  | hbmError (stack pc addr : Nat) (parity : Bool)
  /-- An HBM error that was corrected (R206). -/
  | hbmCorrected (stack pc addr : Nat)
  /-- A lane has supplied bytes that the FEC corrected; a flit has failed its CRC and is retried (R261, R262, R445). -/
  | fecCorrected (port lane : Nat)
  | linkRetry (port : Nat)
  /-- A Furrow stream error 5 or 6: tile, stream, code (R229). -/
  | streamError (tile stream code : Nat)
  /-- The retry limit of a connection: origin, CN, peer (R285). -/
  | connError (origin cn peer : Nat)
deriving DecidableEq, Repr

/-- What the block sends to the outside, newest first in `State.out`. -/
inductive Out where
  /-- The I3C target or indirect window answers a register read. -/
  | regRead (req : Req) (value : Nat)
  /-- A write is refused with an error response. -/
  | writeError (req : Req)
  /-- An idle flit that carries a control symbol leaves on a link port: the mask of lanes over which it is striped, its header, and
  CTRL (R258-R260, R263). -/
  | idle (port lanes header ctrl : Nat)
  /-- A data flit leaves on a link port, striped over the lanes of a mask: its 256 bytes (R258, R259; log entry 17). -/
  | flit (port lanes : Nat) (bytes : List Byte)
  /-- A DMA write to host memory under a function's requester ID. -/
  | hostWrite (func addr : Nat) (bytes : List Byte)
  /-- A paging notice to the hub's paging service: requester, CN, remote address (R291). -/
  | paging (src cn addr : Nat)
  /-- An MSI-X message. -/
  | msix (func vector : Nat)
  /-- The master's answer to the module that has asked for a MID, or (MID 256) what it tells every other member of one (R51). -/
  | join (mid : Nat) (m : JoinMsg)
  /-- DISSOLVE ends the domain of that DOMAIN_ID at every other member (R56). -/
  | dissolved (dom : Nat)
  /-- A member's fault manager asks the master's to abort the beat (cause), and to halt the domain (cause + 1, or 0). -/
  | fmRequest (abort halt : Nat)
  /-- A mirrored write for the covered member's spare (R456). -/
  | mirror (spare addr : Nat) (bytes : List Byte)
  /-- The covered member's placement block and its open and frozen stream entries, for its spare (R456). -/
  | cover (spare : Nat) (place : Place) (ents : List (Nat × Nat × List Nat))
  /-- The spare acknowledges a mirrored write (R456). -/
  | mirrorAck
  /-- A bed's pruning, pause or return, from the master's fault manager to the members of the set: BED_IDs (R466). -/
  | prune (verdict bed home : Nat)
  /-- A count frame begins on the count wire (R499). -/
  | countFrame (bytes : List Byte)
  /-- THERMTRIP# changes. -/
  | thermtrip (low : Bool)
  /-- An Ethernet frame leaves on a port: its bytes, the FCS last. -/
  | frame (port : Nat) (bytes : List Byte)
  /-- An NVMe command of a piece goes to its drive: the piece, and its data for a write. -/
  | nvme (drive : Nat) (piece : Piece)
  /-- An NVMe Abort, or a reset of the drive's controller. -/
  | nvmeAbort (drive : Nat) (reset : Bool)
  /-- A message to the management controller over I3C: MCTP type and bytes. -/
  | i3c (ty : Nat) (bytes : List Byte)
  /-- Mulch engines to each other (MID 256 is the master): kind 0 CUT(c), 1 its acknowledgement, 2 a cutting of the image,
  3 the seal, 4 page digests, 5 a failure, 6 an image is held, 7 an image is durable, 8 the writer assignment, 9 a restore's
  request for an image. -/
  | mulch (kind mid : Nat) (bytes : List Byte)
  /-- A fault record that no log copy took, for the management controller (R471). -/
  | gasp (bytes : List Byte)
deriving DecidableEq, Repr

/-- The state of the block. -/
structure State where
  /-- The commands that wait, first in first out. -/
  pending : List Instr := []
  /-- The model's own: how many free values have been drawn (log entry 3). -/
  freeCtr : Nat := 0
  /-- What has been sent to the outside, newest first (log entry 5). -/
  out : List Out := []
  /-- Register fields that differ from their reset value, by field and index (R20). -/
  regs : Cells Nat := []
  /-- Counter latches: requester and block, the low offset last read, the upper part (R542). -/
  latches : List (Req × Blk × Nat × Nat × Nat) := []
  mem : Memory := {}
  /-- Cores by key: tile core t at t, hub core c at 256 + c. -/
  cores : Cells Core := []
  /-- The hub main domain is in reset or unpowered (R547, R557). -/
  hubMainReset : Bool := false
  /-- The boot sequencer has started hub core 0 (R522). -/
  core0Run : Bool := false
  /-- Tiles by number. -/
  tiles : Cells Tile := []
  /-- Exchange packets on the Trellis between tiles of this module, oldest first (R76). -/
  trellis : List XPkt := []
  /-- Furrow streams by 16 t + k. -/
  streams : Cells Stream := []
  dom : Domain := {}
  hbm : Hbm := {}
  dv : Dvorar := {}
  host : HostIf := {}
  gate : Gate := {}
  fm : FaultMgr := {}
  mulch : Mulch := {}
  power : Power := {}
  cloche : Cloche := {}
  records : RecPort := {}
  fw : Firmware := {}
  sieve : Sieve := {}
  eth : Eth := {}
  stash : Stash := {}
  cipher : Cipher := {}
  /-- Detection reports not yet handled, oldest first. -/
  detections : List Detection := []
deriving DecidableEq, Repr

/-- The block right after reset (R21, R589): every register at its stated value, every queue empty. -/
def State.reset : State := {}

end Sys2Proof.Machine
end

