-- ==== Sys2Proof/Machine/Ops.lean ====
section
/-!
DEFINITION. The named operations over registers, addressed memories, free values and outputs that every meaning uses.
-/
namespace Sys2Proof.Machine

/-! ## Free values and outputs -/

/-- The free number that the next drawing step reads. -/
def State.free (s : State) : Nat := Config.freeNat s.freeCtr

/-- The counter of free values advances. -/
def State.drawn (s : State) : State := { s with freeCtr := s.freeCtr + 1 }

/-- Something is sent to the outside. -/
def State.emit (s : State) (o : Out) : State := { s with out := o :: s.out }

/-- A detector reports to the fault manager. -/
def State.detect (s : State) (d : Detection) : State := { s with detections := s.detections ++ [d] }

/-! ## Register fields (R20, R540) -/

/-- The key under which a field's value, or one of its copies, is held. -/
def Fld.key (f : Fld) (i c : Nat) : Nat := (f.id * 2 ^ 20 + i) * 4 + c

/-- The stored value of one copy of a field. -/
def State.copyOf (s : State) (f : Fld) (i c : Nat) : Nat := s.regs.getD (f.dflt i) (f.key i c)

/-- One copy of a field is stored. -/
def State.setCopy (s : State) (f : Fld) (i c v : Nat) : State :=
  { s with regs := s.regs.set (f.dflt i) (f.key i c) v }

/-- The bitwise majority of three numbers (R540). -/
def vote (a b c : Nat) : Nat := (a &&& b) ||| (a &&& c) ||| (b &&& c)

/-- The value of a field: the vote of three copies for a TV field, else the one stored value. -/
def State.rg (s : State) (f : Fld) (i : Nat := 0) : Nat :=
  if f.acc = .tv then vote (s.copyOf f i 0) (s.copyOf f i 1) (s.copyOf f i 2) else s.copyOf f i 0

/-- A field is set to the low bits of a value; all three copies of a TV field. -/
def State.setRg (s : State) (f : Fld) (i v : Nat) : State :=
  if f.acc = .tv then
    ((s.setCopy f i 0 (v % 2 ^ f.w)).setCopy f i 1 (v % 2 ^ f.w)).setCopy f i 2 (v % 2 ^ f.w)
  else s.setCopy f i 0 (v % 2 ^ f.w)

/-- A flag field. -/
def State.flag (s : State) (f : Fld) (i : Nat := 0) : Bool := s.rg f i != 0

/-- A field that wraps counts up (R560). -/
def State.incRg (s : State) (f : Fld) (i d : Nat) : State := s.setRg f i (s.rg f i + d)

/-- A field that saturates counts up (R560). -/
def State.satRg (s : State) (f : Fld) (i d : Nat) : State := s.setRg f i (satAdd f.w (s.rg f i) d)

/-- An SQ event: a status field takes the OR of `v`, and the sequence number of its register advances (R539). -/
def State.sqRaise (s : State) (st sq : Fld) (i v : Nat) : State :=
  (s.setRg st i (s.rg st i ||| v)).incRg sq i 1

/-- A counter that wraps sets its SQ wrap bit (R560). -/
def State.wrapCount (s : State) (f : Fld) (i d : Nat) (st sq : Fld) (j bit : Nat) : State :=
  if s.rg f i + d < 2 ^ f.w then s.incRg f i d else (s.incRg f i d).sqRaise st sq j (2 ^ bit)

/-- Where a word offset of a block falls in a field: the flat index of the word, and whether it is the upper word of a pair. -/
def Fld.at? (f : Fld) (unit off : Nat) : Option (Nat × Bool) :=
  if off < f.off then none else
    let d := off - f.off
    let i := if f.n1 = 1 then 0 else d / f.s1
    let d1 := d - i * f.s1
    let j := if f.n2 = 1 then 0 else d1 / f.s2
    let d2 := d1 - j * f.s2
    if i < f.n1 ∧ j < f.n2 ∧ (d2 = 0 ∨ (f.pair = true ∧ d2 = 4)) then
      some (((unit * f.n1 + i) * f.n2 + j) * f.nb, d2 == 4)
    else none

/-- The part of a field's value that one word of its register shows, in place. -/
def Fld.show (f : Fld) (hi : Bool) (b v : Nat) : Nat :=
  if f.pair then (if hi then v / 2 ^ 32 else v % 2 ^ 32 * 2 ^ f.lo) else v * 2 ^ (f.lo + b * f.sb)

/-- The bits of a register word that a field occupies. -/
def Fld.mask (f : Fld) (hi : Bool) (b : Nat) : Nat :=
  if f.pair then (if hi then 2 ^ (f.w - 32) - 1 else 2 ^ 32 - 1) else (2 ^ f.w - 1) * 2 ^ (f.lo + b * f.sb)

/-- The word that the fields of a block show at an offset; WO fields read zero (R20). -/
def State.wordOf (s : State) (fs : List Fld) (unit off : Nat) : Nat :=
  fs.foldl (fun a f =>
    match f.at? unit off with
    | none => a
    | some (i, hi) =>
      if f.acc = .wo then a
      else (List.range f.nb).foldl (fun a b => a ||| f.show hi b (s.rg f (i + b))) a) 0

/-- The bits of a word that some field of the block names. -/
def maskOf (fs : List Fld) (unit off : Nat) : Nat :=
  fs.foldl (fun a f =>
    match f.at? unit off with
    | none => a
    | some (_, hi) => (List.range f.nb).foldl (fun a b => a ||| f.mask hi b) a) 0

/-- Whether the block names a register at the offset (R556). -/
def named (fs : List Fld) (unit off : Nat) : Bool := fs.any (fun f => (f.at? unit off).isSome)

/-- The value that a written word carries for a field. -/
def Fld.carried (f : Fld) (hi : Bool) (b old v : Nat) : Nat :=
  if f.pair then (if hi then old % 2 ^ 32 + v % 2 ^ (f.w - 32) * 2 ^ 32 else old / 2 ^ 32 * 2 ^ 32 + v % 2 ^ 32)
  else bits v (f.lo + b * f.sb) f.w

/-- An RW field takes a value unless the value is a reserved code (R22). -/
def State.writeFld (s : State) (f : Fld) (i v : Nat) : State :=
  if f.takes v then s.setRg f i v else s

/-- A word write sets the RW fields that it reaches and nothing else (R20). `skip` names the fields whose write has a
behaviour of its own. -/
def State.writeRw (s : State) (fs : List Fld) (skip : List Nat) (unit off v : Nat) : State :=
  fs.foldl (fun s f =>
    if f.acc = .rw ∧ f.id ∉ skip then
      match f.at? unit off with
      | none => s
      | some (i, hi) =>
        (List.range f.nb).foldl (fun s b => s.writeFld f (i + b) (f.carried hi b (s.rg f (i + b)) v)) s
    else s) s

/-! ## Byte memories -/

/-- The key of a byte of a store slice (R25). -/
def kSlice (t a : Nat) : Nat := t * 2 ^ 24 + a
/-- The key of a byte of HBM in the map of R209. -/
def kHbm (a : Nat) : Nat := 2 ^ 40 + a
/-- The key of a byte of hub SRAM. -/
def kHub (a : Nat) : Nat := 2 ^ 41 + a
/-- The key of a byte of the boot flash. -/
def kFlash (a : Nat) : Nat := 2 ^ 42 + a
/-- The key of a byte of a table bank (R61). -/
def kBank (t b a : Nat) : Nat := 2 ^ 43 + (t * 2 + b) * 2 ^ 17 + a
/-- The key of a byte of a Sieve configuration bank (R303). -/
def kSieve (b a : Nat) : Nat := 2 ^ 44 + b * 2 ^ 20 + a
/-- The key of a byte of the management data area (R381). -/
def kMgmt (a : Nat) : Nat := 2 ^ 45 + a

/-- The stamp of the contents an unwritten byte holds. -/
def Memory.stampAt : List (Nat × Nat × Nat) → Nat → Nat
  | [], _ => 0
  | (lo, hi, st) :: t, k => if lo ≤ k ∧ k < hi then st else Memory.stampAt t k

/-- One byte: what was written, else the free byte of R589. -/
def Memory.byte (m : Memory) (k : Nat) : Byte :=
  match m.cells.get? k with
  | some b => b
  | none => Config.freeByte (Memory.stampAt m.undef k) k

/-- One byte is written. -/
def Memory.put (m : Memory) (k : Nat) (b : Byte) : Memory := { m with cells := m.cells.put k b }

/-- The bytes of the half-open range become unspecified (R548, R589). -/
def Memory.lose (m : Memory) (lo hi stamp : Nat) : Memory :=
  { cells := m.cells.drop lo hi, undef := (lo, hi, stamp) :: m.undef }

/-- The canonical form: keys strictly rising. -/
def Memory.wf (m : Memory) : Bool := Cells.wf m.cells

/-- Bytes are written from a key upward. -/
def Memory.write (m : Memory) : Nat → List Byte → Memory
  | _, [] => m
  | k, b :: t => Memory.write (m.put k b) (k + 1) t

/-- `n` bytes from a key upward. -/
def Memory.read (m : Memory) (k : Nat) : Nat → List Byte
  | 0 => []
  | n + 1 => m.byte k :: Memory.read m (k + 1) n

/-- `n` bytes of memory. -/
def State.readB (s : State) (k n : Nat) : List Byte := s.mem.read k n

/-- Bytes of memory are written. -/
def State.writeB (s : State) (k : Nat) (bs : List Byte) : State := { s with mem := s.mem.write k bs }

/-- A little-endian number of `n` bytes (R17). -/
def State.readN (s : State) (k n : Nat) : Nat := leNat (s.readB k n)

/-- A little-endian number of `n` bytes is written. -/
def State.writeN (s : State) (k n v : Nat) : State := s.writeB k (leBytes n v)

/-- A range of memory becomes unspecified; the next stamp is drawn. -/
def State.loseRange (s : State) (lo hi : Nat) : State :=
  { s with mem := s.mem.lose lo hi (s.freeCtr + 1), freeCtr := s.freeCtr + 1 }

/-! ## Cores -/

/-- The key of a core. -/
def coreKey : CoreId → Nat
  | .tile t => t
  | .hub c => 256 + c

/-- A core. -/
def State.core (s : State) (c : CoreId) : Core := s.cores.getD {} (coreKey c)

/-- A core is replaced. -/
def State.setCore (s : State) (c : CoreId) (k : Core) : State := { s with cores := s.cores.set {} (coreKey c) k }

end Sys2Proof.Machine
end

