-- ==== Sys2Proof/Machine/CoreOps.lean ====
section
/-!
DEFINITION. What every Ohmette-36 instruction shares: registers, private memory and its protection, counters, taking a
trap or an interrupt and returning from one, and the frame in which an instruction runs (R155-R160, R177-R186, R198, R199).
-/
namespace Sys2Proof.Machine

/-- The outcomes of every command of this block. -/
abbrev Res := Host.Outcome State Fault Refusal

/-! ## Units in service -/

/-- A half's core and store domains are powered and out of reset (R32, R547). -/
def State.halfUp (s : State) (h : Nat) : Bool :=
  if h = 0 then s.rg Rg.system_WEST_IN_RESET == 0 else s.rg Rg.system_EAST_IN_RESET == 0

/-- The working bit of a tile (R41). -/
def State.tileWorking (s : State) (t : Nat) : Bool := bitN (s.rg Rg.identity_TILE_WORKING (t / 32)) (t % 32)

/-- The enabled bit of a tile (R41). -/
def State.tileEnabled (s : State) (t : Nat) : Bool := bitN (s.rg Rg.identity_TILE_ENABLED (t / 32)) (t % 32)

/-- A tile that is in service: working, and its half up. -/
def State.tileUp (s : State) (t : Nat) : Bool := decide (t < 256) && s.halfUp (t / 128) && s.tileWorking t

/-- The physical tile that answers for a number (R450). -/
def State.physOf (s : State) (t : Nat) : Nat := (s.fm.phys.get? t).getD t

/-- The half in which a tile's port lies. -/
def State.tileHalf (s : State) (t : Nat) : Nat := s.physOf t / 128

/-- Traffic passes between two halves: within one, or over a working bridge channel; with none the halves serve separately (R28, R37). -/
def State.halvesMeet (s : State) (a b : Nat) : Bool := a == b || s.flag Rg.identity_BRIDGE_WORKING

/-- Traffic passes between two tiles. -/
def State.tilesMeet (s : State) (t u : Nat) : Bool := s.halvesMeet (s.tileHalf t) (s.tileHalf u)

/-- A core held in reset (R545). Hub core 0 waits for the boot sequencer (R522). -/
def State.coreHeld (s : State) : CoreId → Bool
  | .tile t => bitN (s.rg Rg.window_CORE_HOLD (t / 32)) (t % 32)
  | .hub 0 => !s.core0Run
  | .hub (c + 1) => bitN (s.rg Rg.window_HUB_HOLD) c

/-- A tile's segment moves to a spare: from the choice of the spare until the copy has ended (R450). -/
def State.moving (s : State) (t : Nat) : Bool := s.fm.replays.any (fun r => r.tile == t && r.spare.isSome && decide (r.phase < 2))

/-- A tile's core is stopped for the copy to a spare (R450). -/
def State.copying (s : State) (t : Nat) : Bool := s.fm.replays.any (fun r => r.tile == t && r.spare.isSome && r.phase == 1)

/-- A core that executes: its domain is up, it is not held, no double trap has stopped it, and its tile is not being copied
(R154, R185, R450, R545). -/
def State.coreRuns (s : State) (c : CoreId) : Bool :=
  (match c with
   | .tile t => s.tileUp t && !s.copying t
   | .hub _ => !s.hubMainReset) && !s.coreHeld c && !(s.core c).stopped

/-! ## Registers of one core -/

/-- A general register (R156). -/
def Core.get (k : Core) (r : Nat) : Word36 := k.g.getD 0 r

/-- A general register is written (R156). -/
def Core.set (k : Core) (r : Nat) (v : Word36) : Core := { k with g := k.g.set 0 r v }

/-- cw.IE (R157). -/
def Core.ie (k : Core) : Bool := k.cw.getLsbD 0
/-- cw.MODE: compartment mode (R157). -/
def Core.compartment (k : Core) : Bool := k.cw.getLsbD 1
/-- cw.CV (R157). -/
def Core.cv (k : Core) : Bool := k.cw.getLsbD 2
/-- cw.TL (R157). -/
def Core.tl (k : Core) : Bool := k.cw.getLsbD 3

/-- Bits of cw are set. -/
def Core.cwSet (k : Core) (m : Word36) : Core := { k with cw := k.cw ||| m }
/-- Bits of cw are cleared. -/
def Core.cwClear (k : Core) (m : Word36) : Core := { k with cw := k.cw &&& ~~~m }

/-- Sticky flag masks of cw (R157). -/
def fINV : Word36 := 0x010
def fDIV0 : Word36 := 0x020
def fOVF : Word36 := 0x040
def fUNF : Word36 := 0x080
def fINX : Word36 := 0x100
def fIQF : Word36 := 0x200

/-- The bits of cw that exist (R157). -/
def cwMask : Word36 := 0x3FF
/-- The bits of cont that exist (R158). -/
def contMask : Word36 := 0xFFFFFF

/-- A core counter advances while CTRCTL.EN is 1; a wrap sets its WRAP bit (R198, R539). -/
def Core.count (k : Core) (j d : Nat) : Core :=
  if k.ctrEn then
    let v := k.ctr.getD 0 j + d
    let k := { k with ctr := k.ctr.set 0 j (v % 2 ^ 48) }
    if v < 2 ^ 48 then k
    else { k with ctrWrap := k.ctrWrap ||| 2 ^ j, ctrWrapSeq := (k.ctrWrapSeq + 1) % 2 ^ 16 }
  else k

/-- What an atomic leaves in a lane; none where it leaves the lane as it was (R171). -/
def LaneOp.new : LaneOp → Nat → Option Nat
  | .add v, old => some ((old + v) % 2 ^ 32)
  | .swap v, _ => some v
  | .cas o n, old => if old = o then some n else none

/-- What a tick has served of a lane. -/
def Core.servedLane (k : Core) (key : Nat) : Option Nat := (k.served.find? (fun e => e.1 == key)).map (fun e => e.2.toNat)

/-- An external access is over. -/
def Core.accessed (k : Core) : Core := { k with extWait := false, waitLanes := [], waitOp := none, served := [] }

/-- MISPRED and WPFETCH of a branch, jump, call or return: whether its prediction proves wrong, and how many halves are then fetched
and discarded, are free (R190, R193; log entry 121). -/
def State.predicted (s : State) (k : Core) : State × Core :=
  if k.ctrEn then (s.drawn, (k.count 2 (s.free % 2)).count 3 (s.free % 2 * (s.free / 2))) else (s, k)

/-- WPFETCH of an instruction that traps: how many halves after it are discarded is free (R190, R193; log entry 121). -/
def State.discarded (s : State) (k : Core) : State × Core := if k.ctrEn then (s.drawn, k.count 3 s.free) else (s, k)

/-- STALLX of an external access: how long it waits for an earlier branch is free (R192; log entry 121). -/
def State.stall (s : State) (k : Core) : State × Core := if k.ctrEn then (s.drawn, k.count 4 s.free) else (s, k)

/-! ## Protection and private memory -/

/-- Some enabled region grants the access `bit` (18 R, 19 W, 20 X) at a word address (R197, R199). -/
def Core.granted (k : Core) (a bit : Nat) : Bool :=
  (List.range 8).any (fun j =>
    let lim := k.rgnLim.getD 0 j
    let base := k.rgnBase.getD 0 j
    lim.getLsbD 21 && lim.getLsbD bit && decide (base.toNat % 2 ^ 18 ≤ a) && decide (a ≤ lim.toNat % 2 ^ 18))

/-- A private-memory access is permitted (R159, R199). -/
def Core.pmOk (k : Core) (a : Word36) (bit : Nat) : Bool :=
  decide (a.toNat < 2 ^ 18) && (!k.compartment || k.granted a.toNat bit)

/-- A word of private memory: what was written, else the free word of R589. -/
def Core.pmRead (k : Core) (c : CoreId) (a : Nat) : Word36 :=
  match k.pm.get? a with
  | some w => w
  | none => Config.freeWord k.pmStamp (coreKey c * 2 ^ 18 + a)

/-- A word of private memory is written. -/
def Core.pmWrite (k : Core) (a : Nat) (v : Word36) : Core := { k with pm := k.pm.put a v }

/-- A fetch that takes the FETCH trap: halves beyond private memory, or denied by the MPU (R182, R199). -/
def Core.fetchBad (k : Core) (long : Bool) : Bool :=
  let last := k.pc.toNat + (if long then 1 else 0)
  decide (2 ^ 19 ≤ last) ||
    (k.compartment && !(k.granted (k.pc.toNat / 2) 20 && k.granted (last / 2) 20))

/-! ## Traps and interrupts (R182-R186) -/

/-- Entry through vector n (R183); VBASE's low 9 bits are ignored (R182). -/
def Core.enter (k : Core) (n : Nat) (int long : Bool) (tval : Word36) (epc : BitVec 19) : Core :=
  { k with
    epc := epc.setWidth 36, ecw := k.cw, econt := k.cont,
    cause := BitVec.ofNat 36 (n + 32 * ofBool int + 64 * ofBool long),
    tval := tval,
    cw := (k.cw &&& ~~~(0x00F : Word36)) ||| 0x008,
    cont := 0,
    pc := BitVec.ofNat 19 (k.vbase.toNat / 512 * 512 + 16 * n),
    waiting := false }

/-- ERET (R183). -/
def Core.leave (k : Core) : Core :=
  { k with pc := k.epc.setWidth 19, cw := k.ecw &&& cwMask, cont := k.econt &&& contMask }

/-- A synchronous trap of core `c`, whose registers are `k`: entry, or the stop and report of a double trap (R185). -/
def State.trap (s : State) (c : CoreId) (k : Core) (n : Nat) (long : Bool) (tval : Word36) : State :=
  let x := s.discarded k
  if k.tl then (x.1.setCore c { x.2 with stopped := true }).detect (.coreFault c n k.pc.toNat tval.toNat)
  else x.1.setCore c (x.2.enter n false long tval k.pc)

/-- TIMER is pending while it is zero, once it has been written (R186, R197; log entry 120). -/
def Core.timerPend (k : Core) : Bool := k.timerSet && k.timer == 0

/-- Pending sources, bit i for vector 16 + i: BEAT, TIMER, MSG, FNOTICE (R186). -/
def Core.sources (k : Core) : List Bool := [k.beatPend, k.timerPend, !k.msgs.isEmpty, k.fnPend]

/-- The lowest pending source that IENABLE enables (R184, R186). -/
def Core.enabledSource (k : Core) : Option Nat :=
  (List.range 4).find? (fun i => k.sources.getD i false && k.ienable.getLsbD (16 + i))

/-- The vector to take at this boundary: IE 1, TL 0 and an enabled pending source; none while an external access that has been
issued waits (R184). -/
def Core.interrupt (k : Core) : Option Nat := if k.ie && !k.tl && !k.extWait then k.enabledSource else none

/-- Source i is taken at a boundary: entry with its TVAL; taking BEAT clears it (R182, R183, R186). -/
def Core.takeInterrupt (k : Core) (i beatno : Nat) : Core :=
  let tval : Nat := if i = 0 then beatno else if i = 3 then k.fnCode else 0
  let k := if i = 0 then { k with beatPend := false } else k
  k.enter (16 + i) true false (BitVec.ofNat 36 tval) k.pc

/-! ## The frame of an instruction -/

/-- What the body of an instruction leaves. -/
inductive CRes where
  /-- It retires, and the next instruction follows. -/
  | done (k : Core)
  /-- A branch, jump, call or return retires, and the PC goes on there. -/
  | jump (k : Core) (pc : BitVec 19)
  /-- It takes a synchronous trap with a TVAL. -/
  | trap (k : Core) (n : Nat) (tval : Word36)
  /-- It waits: nothing retires and the PC stays. -/
  | stay (k : Core)

/-- The outcome of an instruction's body is put into the core. -/
def State.retire (s : State) (c : CoreId) (long : Bool) : CRes → State
  | .done k => s.setCore c { k.count 1 1 with pc := k.pc + (if long then 2 else 1) }
  | .jump k pc => let x := s.predicted (k.count 1 1); x.1.setCore c { x.2 with pc := pc }
  | .trap k n tval => s.trap c k n long tval
  | .stay k => s.setCore c k

/-- One instruction of core `c` runs: nothing on a core that does not run or that waits; an interrupt that is pending and
enabled is taken in its place (R184); a bad fetch traps; else CV is consumed (R180) and the body runs. `resume` keeps CV
for the restartable instructions, which consume it themselves. -/
def State.runWith (s : State) (c : CoreId) (long resume : Bool) (body : State → Core → State × CRes) : State :=
  let k := s.core c
  if !s.coreRuns c then s
  else match k.interrupt with
  | some i => s.setCore c (k.takeInterrupt i (s.rg Rg.beat_BEATNO))
  | none =>
    if k.waiting && k.enabledSource.isNone then s
    else if k.fetchBad long then s.trap c { k with waiting := false } 3 long (k.pc.setWidth 36)
    else
      let k := { k with waiting := false }
      let r := body s (if resume then k else k.cwClear 0x004)
      r.1.retire c long r.2

/-- An instruction that acts on its core alone. -/
def State.runCore (s : State) (c : CoreId) (long : Bool) (body : Core → CRes) : State :=
  s.runWith c long false (fun s k => (s, body k))

/-! ## Restartable instructions (R179-R181) -/

/-- The element a restartable instruction starts at: cont.DONE when CV is 1, else 0 (R179, R180). -/
def Core.resumeAt (k : Core) : Nat := if k.cv then k.cont.toNat % 2 ^ 24 else 0

/-- Granules of `g` elements run from element `i` to `n`, at most `fuel` of them before the next boundary: the end clears
cont; a granule's trap leaves cont.DONE at its first element; at the boundary cont.DONE and CV hold the progress (R179). -/
def granules (n g : Nat) (elem : State → Core → Nat → State × Core × Option (Nat × Word36)) :
    Nat → State → Core → Nat → State × CRes
  | 0, s, k, i =>
    if i < n then (s, .stay ({ k with cont := BitVec.ofNat 36 i }.cwSet 0x004))
    else (s, .done { k with cont := 0 })
  | fuel + 1, s, k, i =>
    if i < n then
      match elem s k i with
      | (s', k', none) => granules n g elem fuel s' k' (i + g)
      | (s', k', some (v, tval)) => (s', .trap { k' with cont := BitVec.ofNat 36 i } v tval)
    else (s, .done { k with cont := 0 })

/-- A restartable instruction's OPERAND trap: progress stays in cont (R179). -/
def badOperand (s : State) (k : Core) (tval : Word36) : State × CRes :=
  (s, .trap { k.cwClear 0x004 with cont := BitVec.ofNat 36 k.resumeAt } 2 tval)

/-! ## Messages (R186) -/

/-- A value is written to a core's MSG_IN: refused when the queue holds 8 or the core's tile or domain is out of service
(R161, R186). -/
def State.postMsg (s : State) (c : CoreId) (v : Nat) : Option State :=
  let k := s.core c
  let up := match c with
    | .tile t => s.tileUp t
    | .hub n => decide (n < 16) && !s.hubMainReset
  if up && decide (k.msgs.length < 8) then
    some (s.setCore c { k with msgs := k.msgs ++ [BitVec.ofNat 32 v] })
  else none

/-- The byte address at which a core reaches the MSG_IN of another (R161). -/
def msgAddr (src dst : CoreId) : Nat :=
  if src = dst then 0xE00022000
  else match dst with
    | .hub c => 0xE00030000 + 0x10 * c
    | .tile t => 0xE00040000 + 0x10 * t

/-- The number of the range of R161 through which a core reaches the MSG_IN of another; a tile core reaches only its own. -/
def msgRange (src dst : CoreId) : Option Nat :=
  if src = dst then some 7
  else match src, dst with
    | .hub _, .hub _ => some 9
    | .hub _, .tile _ => some 10
    | .tile _, _ => none

/-- A core may use a range of the external space: in compartment mode, where its EXTALLOW bit is 1 (R199). -/
def Core.allowed (k : Core) (n : Nat) : Bool := !k.compartment || k.extallow.getLsbD n

/-! ## Encodings, for the TVAL of a PRIV trap (R168, R182) -/

/-- Layout LR. -/
def encLR (maj op rd rs rt ru : Nat) : Word36 :=
  BitVec.ofNat 36 (maj * 2 ^ 14 + op * 2 ^ 8 + rd * 8 + rs * 2 ^ 18 + rt * 2 ^ 23 + ru * 2 ^ 28)

/-- Layout LI. -/
def encLI (maj op rd rs imm : Nat) : Word36 :=
  BitVec.ofNat 36 (maj * 2 ^ 14 + op * 2 ^ 8 + rd * 8 + imm % 8 + rs * 2 ^ 18 + imm / 8 % 2 ^ 13 * 2 ^ 23)

/-- An immediate, sign-extended from `n` bits. -/
def immS (n v : Nat) : Word36 := BitVec.ofInt 36 (sext n v)

/-- An immediate, zero-extended. -/
def immZ (v : Nat) : Word36 := BitVec.ofNat 36 v

/-- The half that a branch by a sign-extended offset of `n` bits reaches (R168). -/
def Core.target (k : Core) (n off : Nat) : BitVec 19 := BitVec.ofInt 19 (k.pc.toNat + sext n off)

end Sys2Proof.Machine
end

