-- ==== Sys2Proof/Machine/Clock.lean ====
section
/-!
DEFINITION. One cycle of the 100 MHz reference (R30, R52, R186, R537).
-/
namespace Sys2Proof.Machine

/-- Cycles of a tile clock in one reference cycle, by step (R568). -/
def stepCycles (step : Nat) : Nat := [18, 16, 14, 12, 9, 6].getD step 2

/-- The cycles of a core's own clock in one reference cycle: of the tile clock of its half at the step in force, or 12 of the hub
clock (R30, R31, R154). -/
def State.coreCycles (s : State) (key : Nat) : Nat :=
  if key < 128 then stepCycles s.power.west.step else if key < 256 then stepCycles s.power.east.step else 12

/-- Cycles of a core's own clock pass: TIMER counts down and stops at zero, and CYCLES counts (R186, R198). -/
def Core.elapse (k : Core) (n : Nat) : Core := { k with timer := BitVec.ofNat 36 (k.timer.toNat - n) }.count 0 n

/-- MTIME in one reference cycle: 10 ns, or 9 or 11 while a slew runs, until it meets the time that it is to reach, which
itself advances by 10 (R537). -/
def State.timeTick (s : State) : State :=
  match s.fw.target with
  | none => s.incRg Rg.system_MTIME 0 10
  | some t =>
    let now := s.rg Rg.system_MTIME
    let goal := t + 10
    let next := now + (if now < t then 11 else 9)
    let met := if now < t then decide (goal ≤ next) else decide (next ≤ goal)
    let s := s.setRg Rg.system_MTIME 0 (if met then max goal next else next)
    { s with fw := { s.fw with target := if met then none else some goal } }.setRg Rg.system_SLEW 0
      (if met then 0 else if now < t then 1 else 2)

/-- A reference cycle: MTIME advances, DTIME of a member by 16 fabric cycles, the Cloche's CTIME by 10 ns while it runs, and
the cycles of the cores' clocks pass (log entry 4). -/
def State.refTick (s : State) : State :=
  let s := s.timeTick
  let s := if s.dom.member then s.incRg Rg.beat_DTIME 0 16 else s
  let s := if s.cloche.running then { s with cloche := { s.cloche with ctime := s.cloche.ctime + 10 } } else s
  { s with cores := s.cores.map (fun (c : Nat × Core) => (c.1, c.2.elapse (s.coreCycles c.1))) }

end Sys2Proof.Machine
end

