-- ==== Sys2Proof/Machine/Sha3.lean ====
section
/-!
DEFINITION. SHA3 of FIPS 202 over byte strings. Rotations and round constants are drawn from their own recurrences, the walk over
the lanes and the 8-bit shift register, and not from tables.
-/
namespace Sys2Proof.Machine

/-- A lane turned left by `n` of its 64 bits. -/
def turn (v n : Nat) : Nat := v * 2 ^ (n % 64) % 2 ^ 64 + v / 2 ^ (64 - n % 64)

/-- Every lane takes the parity of the column on its left, and that of the column on its right turned by one. -/
def sheetMix (a : List Nat) : List Nat :=
  let sheet := (List.range 5).map (fun x => (List.range 5).foldl (fun v y => v ^^^ a.getD (x + 5 * y) 0) 0)
  a.mapIdx (fun i v => v ^^^ sheet.getD ((i + 4) % 5) 0 ^^^ turn (sheet.getD ((i + 1) % 5) 0) 1)

/-- Where the lane at an index moves: from (x, y) to (y, 2x + 3y). -/
def laneGoes (i : Nat) : Nat := i / 5 + 5 * ((2 * (i % 5) + 3 * (i / 5)) % 5)

/-- The walk from (1, 0) through the other 24 lanes: each lane moves on to the next place of the walk, and the t-th is turned by the
t-th triangular number. -/
def walkLanes (a : List Nat) : List Nat :=
  ((List.range 24).foldl (fun (w : List Nat × Nat) t =>
    let to_ := laneGoes w.2
    (w.1.set to_ (turn (a.getD w.2 0) ((t + 1) * (t + 2) / 2)), to_)) (a, 1)).1

/-- In its row, every lane takes what the complement of the next one leaves of the one after. -/
def lineMix (a : List Nat) : List Nat :=
  a.mapIdx (fun i v =>
    let row := i - i % 5
    v ^^^ ((a.getD (row + (i + 1) % 5) 0 ^^^ (2 ^ 64 - 1)) &&& a.getD (row + (i + 2) % 5) 0))

/-- One step of the shift register of the round constants. -/
def shiftStep (r : Nat) : Nat := if 128 ≤ r then (2 * r - 256) ^^^ 0x71 else 2 * r

/-- The constant of a round from seven steps of the register: the j-th bit drawn stands at place 2^j − 1. Also the register behind. -/
def roundConst (r : Nat) : Nat × Nat :=
  (List.range 7).foldl (fun (w : Nat × Nat) j => (w.1 + w.2 % 2 * 2 ^ (2 ^ j - 1), shiftStep w.2)) (0, r)

/-- The permutation: 24 rounds. -/
def permute1600 (a : List Nat) : List Nat :=
  ((List.range 24).foldl (fun (w : List Nat × Nat) _ =>
    let k := roundConst w.2
    let b := lineMix (walkLanes (sheetMix w.1))
    (b.set 0 (b.getD 0 0 ^^^ k.1), k.2)) (a, 1)).1

/-- A message takes the suffix 01 of SHA3 and its padding up to a multiple of the rate. -/
def sha3Pad (rate : Nat) (m : List Byte) : List Byte :=
  let q := rate - m.length % rate
  m ++ (List.range q).map (fun i => BitVec.ofNat 8 ((if i = 0 then 6 else 0) + (if i + 1 = q then 128 else 0)))

/-- The first `n` blocks of a padded message, each added into the lanes ahead of a permutation. -/
def soak (rate : Nat) (p : List Byte) (n : Nat) : List Nat :=
  (List.range n).foldl (fun a b =>
    let block := (p.drop (rate * b)).take rate
    permute1600 (a.mapIdx (fun i v => v ^^^ fieldAt block (8 * i) 8))) (List.replicate 25 0)

/-- SHA3 with an output of `n` bytes, at a rate of 200 − 2n bytes. -/
def sha3 (n : Nat) (m : List Byte) : List Byte :=
  let rate := 200 - 2 * n
  let p := sha3Pad rate m
  ((soak rate p (p.length / rate)).flatMap (fun v => leBytes 8 v)).take n

/-- SHA3-256. -/
def sha3_256 (m : List Byte) : List Byte := sha3 32 m

end Sys2Proof.Machine
end

