-- ==== Sys2Proof/Machine/Crypto.lean ====
section
/-!
DEFINITION. AES-256 (FIPS 197), CMAC (SP 800-38B), GCM (SP 800-38D), HMAC, and deterministic ECDSA over P-384 (RFC 6979).
-/
namespace Sys2Proof.Machine

/-! ## AES-256 -/

/-- Multiplication by x in GF(2^8). -/
def xtime (a : Nat) : Nat := (2 * a % 256) ^^^ (if 128 ≤ a then 0x1B else 0)

/-- Multiplication in GF(2^8), by the `n` low bits of `b`. -/
def gmul8 : Nat → Nat → Nat → Nat
  | 0, _, _ => 0
  | n + 1, a, b => (if b % 2 = 1 then a else 0) ^^^ gmul8 n (xtime a) (b / 2)

/-- Powers in GF(2^8). -/
def gpow8 (a : Nat) : Nat → Nat
  | 0 => 1
  | n + 1 => gmul8 8 a (gpow8 a n)

/-- The byte substitution: the inverse (the 254th power) and the affine map. -/
def subByte (a : Nat) : Nat :=
  let b := gpow8 a 254
  let rot (n : Nat) : Nat := (b * 2 ^ n) % 256 + b / 2 ^ (8 - n)
  b ^^^ rot 1 ^^^ rot 2 ^^^ rot 3 ^^^ rot 4 ^^^ 0x63

/-- The key schedule, newest word first: `n` more words after `ws`. -/
def expandKey : Nat → Nat → List (List Nat) → List (List Nat)
  | 0, _, ws => ws
  | n + 1, i, ws =>
    let prev := ws.headD []
    let t :=
      if i % 8 = 0 then
        (match (prev.rotateLeft 1).map subByte with
         | a :: r => (a ^^^ 2 ^ (i / 8 - 1)) :: r
         | [] => [])
      else if i % 8 = 4 then prev.map subByte
      else prev
    expandKey n (i + 1) (List.zipWith (· ^^^ ·) (ws.getD 7 []) t :: ws)

/-- The fifteen round keys of 16 bytes. -/
def roundKeys (key : List Byte) : List (List Nat) :=
  let k := key.map (·.toNat)
  let w8 := (List.range 8).map (fun i => (k.drop (4 * i)).take 4)
  let ws := (expandKey 52 8 w8.reverse).reverse
  (List.range 15).map (fun r => ((ws.drop (4 * r)).take 4).flatten)

/-- Exclusive-or of byte strings. -/
def xorB (a b : List Nat) : List Nat := List.zipWith (· ^^^ ·) a b

/-- The row shift of a column-major block. -/
def shiftRows (b : List Nat) : List Nat := (List.range 16).map (fun i => b.getD ((i + 4 * (i % 4)) % 16) 0)

/-- The column mix. -/
def mixColumns (b : List Nat) : List Nat :=
  (List.range 16).map (fun i =>
    let c := i / 4 * 4
    let x (j : Nat) : Nat := b.getD (c + (i + j) % 4) 0
    xtime (x 0) ^^^ xtime (x 1) ^^^ x 1 ^^^ x 2 ^^^ x 3)

/-- AES-256 of one block under expanded keys. -/
def aesBlock (rk : List (List Nat)) (block : List Nat) : List Nat :=
  let mid := ((rk.drop 1).take 13).foldl (fun b k => xorB (mixColumns (shiftRows (b.map subByte))) k) (xorB block (rk.getD 0 []))
  xorB (shiftRows (mid.map subByte)) (rk.getD 14 [])

/-- Bytes as numbers. -/
def natsOf (b : List Byte) : List Nat := b.map (·.toNat)
/-- Numbers as bytes. -/
def bytesOf (l : List Nat) : List Byte := l.map (BitVec.ofNat 8)

/-- 16-byte pieces of a string, the last padded with zeros; `n` at most. -/
def blocks16 : Nat → List Nat → List (List Nat)
  | 0, _ => []
  | n + 1, l => if l.isEmpty then [] else ((l ++ List.replicate 16 0).take 16) :: blocks16 n (l.drop 16)

/-! ## CMAC -/

/-- Doubling in GF(2^128), most significant bit first. -/
def dbl128 (n : Nat) : Nat := (2 * n % 2 ^ 128) ^^^ (if 2 ^ 127 ≤ n then 0x87 else 0)

/-- Big-endian number of a byte list. -/
def beOf (l : List Nat) : Nat := l.foldl (fun a b => 256 * a + b) 0

/-- 16 bytes, big-endian. -/
def be16 (n : Nat) : List Nat := natsOf (beBytes 16 n)

/-- AES-256-CMAC. -/
def cmac (key m : List Byte) : List Byte :=
  let rk := roundKeys key
  let l := beOf (aesBlock rk (List.replicate 16 0))
  let k1 := dbl128 l
  let bs := natsOf m
  let n := max 1 (ceilDiv bs.length 16)
  let head := blocks16 (n - 1) (bs.take (16 * (n - 1)))
  let tail := bs.drop (16 * (n - 1))
  let last := if tail.length = 16 then xorB tail (be16 k1)
    else xorB ((tail ++ 0x80 :: List.replicate 16 0).take 16) (be16 (dbl128 k1))
  bytesOf (aesBlock rk (xorB (head.foldl (fun c b => aesBlock rk (xorB c b)) (List.replicate 16 0)) last))

/-! ## GCM -/

/-- Multiplication in GF(2^128) of SP 800-38D: bit 0 of a block is its most significant bit. -/
def ghashMul (x y : Nat) : Nat :=
  ((List.range 128).foldl (fun (a : Nat × Nat) i =>
    let z := if x.testBit (127 - i) then a.1 ^^^ a.2 else a.1
    let v := if a.2 % 2 = 1 then (a.2 / 2) ^^^ (0xE1 * 2 ^ 120) else a.2 / 2
    (z, v)) (0, y)).1

/-- GHASH over associated data and ciphertext. -/
def ghash (h : Nat) (a c : List Nat) : Nat :=
  let bs := blocks16 a.length a ++ blocks16 c.length c
    ++ [natsOf (beBytes 8 (8 * a.length)) ++ natsOf (beBytes 8 (8 * c.length))]
  bs.foldl (fun y b => ghashMul (y ^^^ beOf b) h) 0

/-- Counter-mode bytes for a text, from counter 2 on. -/
def gctr (rk : List (List Nat)) (iv text : List Nat) : List Nat :=
  ((blocks16 text.length text).zipIdx.flatMap (fun e =>
    xorB e.1 (aesBlock rk (iv ++ natsOf (beBytes 4 (e.2 + 2)))))).take text.length

/-- The full tag of a ciphertext. -/
def gcmTag (rk : List (List Nat)) (iv a c : List Nat) : List Nat :=
  let h := beOf (aesBlock rk (List.replicate 16 0))
  xorB (be16 (ghash h a c)) (aesBlock rk (iv ++ [0, 0, 0, 1]))

/-- Encryption: ciphertext and full tag. -/
def gcmEnc (key iv a p : List Byte) : List Byte × List Byte :=
  let rk := roundKeys key
  let c := gctr rk (natsOf iv) (natsOf p)
  (bytesOf c, bytesOf (gcmTag rk (natsOf iv) (natsOf a) c))

/-- The plaintext of a ciphertext, and the full tag computed over it. -/
def gcmDec (key iv a c : List Byte) : List Byte × List Byte :=
  let rk := roundKeys key
  (bytesOf (gctr rk (natsOf iv) (natsOf c)), bytesOf (gcmTag rk (natsOf iv) (natsOf a) (natsOf c)))

/-! ## HMAC with SHA3-256 -/

/-- HMAC with SHA3-256, whose block is 136 bytes. -/
def hmac (key m : List Byte) : List Byte :=
  let k := (if 136 < key.length then sha3_256 key else key)
  let k := k ++ List.replicate (136 - k.length) 0
  sha3_256 (k.map (· ^^^ 0x5C) ++ sha3_256 (k.map (· ^^^ 0x36) ++ m))

/-! ## P-384 -/

/-- The field prime. -/
def p384 : Nat := 2 ^ 384 - 2 ^ 128 - 2 ^ 96 + 2 ^ 32 - 1
/-- The group order. -/
def n384 : Nat :=
  0xFFFFFFFFFFFFFFFFFFFFFFFFFFFFFFFFFFFFFFFFFFFFFFFFC7634D81F4372DDF581A0DB248B0A77AECEC196ACCC52973
/-- The base point. -/
def g384 : Nat × Nat :=
  (0xAA87CA22BE8B05378EB1C71EF320AD746E1D3B628BA79B9859F741E082542A385502F25DBF55296C3A545E3872760AB7,
   0x3617DE4A96262C6F5D9E98BF9292DC29F8F41DBD289A147CE9DA3113B5F0B8C00A60B1CE1D7E819D7A431D7C90EA0E5F)

/-- a to the power of the low `n` bits of `e`, modulo m. -/
def powMod (m : Nat) : Nat → Nat → Nat → Nat
  | 0, _, _ => 1
  | n + 1, a, e => (if e % 2 = 1 then a else 1) * powMod m n (a * a % m) (e / 2) % m

/-- The inverse modulo a prime below 2^384. -/
def invMod (m a : Nat) : Nat := powMod m 384 (a % m) (m - 2)

/-- A point: none is the point at infinity. -/
abbrev Point := Option (Nat × Nat)

/-- Addition of points. -/
def padd : Point → Point → Point
  | none, q => q
  | p, none => p
  | some (x1, y1), some (x2, y2) =>
    if x1 = x2 ∧ (y1 + y2) % p384 = 0 then none
    else
      let l := if x1 = x2 then (3 * x1 * x1 + (p384 - 3)) * invMod p384 (2 * y1) % p384
        else (y2 + p384 - y1) * invMod p384 (x2 + p384 - x1) % p384
      let x := (l * l + 2 * p384 - x1 - x2) % p384
      some (x, (l * (x1 + p384 - x) + p384 - y1) % p384)

/-- The multiple of a point by the low `n` bits of `k`. -/
def pmul : Nat → Nat → Point → Point
  | 0, _, _ => none
  | n + 1, k, p => padd (if k % 2 = 1 then p else none) (pmul n (k / 2) (padd p p))

/-- The next candidates for the nonce of RFC 6979 with SHA3-256: K and V of its generator, at most `n` draws. -/
def nonce : Nat → List Byte → List Byte → Nat
  | 0, _, _ => 1
  | n + 1, k, v =>
    let v1 := hmac k v
    let v2 := hmac k v1
    let t := beNat ((v1 ++ v2).take 48)
    if 0 < t ∧ t < n384 then t
    else
      let k' := hmac k (v2 ++ [0])
      nonce n k' (hmac k' v2)

/-- The deterministic nonce of a private scalar and a 32-byte digest. -/
def nonceOf (d : Nat) (digest : List Byte) : Nat :=
  let x := beBytes 48 d ++ beBytes 48 (beNat digest % n384)
  let v0 : List Byte := List.replicate 32 1
  let k1 := hmac (List.replicate 32 0) (v0 ++ [0] ++ x)
  let v1 := hmac k1 v0
  let k2 := hmac k1 (v1 ++ [1] ++ x)
  nonce 64 k2 (hmac k2 v1)

/-- A deterministic ECDSA signature of a digest: r and s, 48 bytes each, big-endian. -/
def ecdsaSign (d : Nat) (digest : List Byte) : List Byte :=
  let k := nonceOf d digest
  let r := match pmul 384 k (some g384) with
    | some q => q.1 % n384
    | none => 0
  let s := invMod n384 k * ((beNat digest + r * d) % n384) % n384
  beBytes 48 r ++ beBytes 48 s

end Sys2Proof.Machine
end

