-- ==== Sys2Proof/Machine/Store.lean ====
section
/-!
DEFINITION. The store slices and HBM as lines: slice spaces, the interleave map, output windows of running tables, the commit
log, and the slice cache (R63, R64, R200-R211).
-/
namespace Sys2Proof.Machine

/-! ## Hub SRAM: Sieve's banks (R303, R308, R311) -/

/-- Slots of one bank of a Sieve table. -/
def State.bankSlots (s : State) (t : Nat) : Nat :=
  4 * [1, 2, 4].getD (s.rg Rg.sieve_UNITS t) 4 * 2 ^ s.rg Rg.sieve_BUCKETS_LOG2 t

/-- What an address of hub SRAM is to Sieve: `some true` in an active bank, `some false` in a shadow bank of a table in use or
of the actions. -/
def State.sieveBank (s : State) (a : Nat) : Option Bool :=
  let base := s.rg Rg.sieve_SV_BASE * 2 ^ 20
  if a < base ∨ base + 34 * 2 ^ 20 ≤ a then none
  else
    let o := a - base
    if 32 * 2 ^ 20 ≤ o then some ((o - 32 * 2 ^ 20) / 2 ^ 20 == s.rg Rg.sieve_CFG_B)
    else
      let slot := o / 16
      let within (t : Nat) (b : Fld) : Bool := decide (s.rg b t ≤ slot) && decide (slot < s.rg b t + s.bankSlots t)
      let on := (List.range 16).filter (fun t => s.flag Rg.sieve_TBL_EN t)
      let act (t : Nat) : Fld := if bitN (s.rg Rg.sieve_ACTIVE_B) t then Rg.sieve_BANK_B else Rg.sieve_BANK_A
      let sha (t : Nat) : Fld := if bitN (s.rg Rg.sieve_ACTIVE_B) t then Rg.sieve_BANK_A else Rg.sieve_BANK_B
      if on.any (fun t => within t (act t)) then some true
      else if on.any (fun t => within t (sha t)) then some false
      else none

/-- One byte of hub SRAM is written: an active bank of Sieve ignores it, and so does a shadow bank while BUSY is 1. -/
def State.putHub (s : State) (a : Nat) (b : Byte) : State :=
  match s.sieveBank a with
  | none => { s with mem := s.mem.put (kHub a) b }
  | some true => s
  | some false =>
    if s.flag Rg.sieve_BUSY then s.setRg Rg.sieve_WR_IGNORED 0 1 else { s with mem := s.mem.put (kHub a) b }

/-- Bytes of hub SRAM are written by an agent other than the engine that owns them. -/
def State.writeHub (s : State) : Nat → List Byte → State
  | _, [] => s
  | a, b :: t => State.writeHub (s.putHub a b) (a + 1) t

/-! ## Tiles -/

/-- A tile. -/
def State.tile (s : State) (t : Nat) : Tile := s.tiles.getD {} t

/-- The slot that issues next: replays pass over the rows of R449. -/
def Tile.nextSlot (k : Tile) : Nat :=
  (List.range (k.rows + 2 - k.next)).foldl (fun n _ => if k.skip.contains n then n + 1 else n) k.next

/-- Every row of the running table has issued. -/
def Tile.issued (k : Tile) : Bool := decide (k.rows + 2 ≤ k.nextSlot)

/-- Every row of the running table has completed (R57). -/
def Tile.finished (k : Tile) : Bool := k.running && !k.stopped && k.issued && k.track.isEmpty && k.waitRow.isNone && !k.openBeat

/-- How many issued rows of a class have not completed. -/
def Tile.busy (k : Tile) (cls : Nat) : Nat := k.track.countP (fun r => r.cls == cls)

/-- A tile is replaced, and its status registers show it (R89, R119). -/
def State.setTile (s : State) (t : Nat) (k : Tile) : State :=
  let s := { s with tiles := s.tiles.set {} t k }
  let s := if k.finished && s.rg Rg.seq_DONE t == 0 then { s with dom := { s.dom with lastTile := t } } else s
  let s := s.setRg Rg.seq_ARMED t (ofBool (k.arm != 0))
  let s := s.setRg Rg.seq_RUNNING t (ofBool (k.running && !k.finished))
  let s := s.setRg Rg.seq_DONE t (ofBool k.finished)
  let s := s.setRg Rg.tile_TRACKED t k.track.length
  let s := s.setRg Rg.tile_EXCH_OUT t (k.busy 3 + k.busy 5)
  s.setRg Rg.tile_MOVES t (k.busy 2)

/-- A performance counter advances while PERF_EN is 1; a wrap sets bit `bit` of WRAP (R119, R120). -/
def State.perf (s : State) (t : Nat) (f : Fld) (bit d : Nat) : State :=
  if s.flag Rg.tile_PERF_EN t then s.wrapCount f t d Rg.tile_WRAP Rg.tile_WRAP_SEQ t bit else s

/-! ## Slice space and HBM map -/

/-- Lines of a cache partition code (R200). -/
def cacheLines (code : Nat) : Nat :=
  match code with
  | 1 => 2 ^ 15 | 2 => 2 ^ 16 | 3 => 2 ^ 17 | 4 => 2 ^ 18 | _ => 0

/-- SL: the lines of a tile's slice space (R200). -/
def State.sliceLines (s : State) (t : Nat) : Nat := 2 ^ 19 - cacheLines (s.tile t).cacheSize

/-- Bytes of a pseudo-channel (R205). -/
def pcBytes : Nat := 3 * 2 ^ 29

/-- P: logical pseudo-channels per stack (R207). -/
def State.pcs (s : State) : Nat := 32 - s.rg Rg.hbm_SPARES_CUR

/-- The bytes of the HBM map, 6C (R207). -/
def State.hbmBytes (s : State) : Nat := 6 * (s.pcs * pcBytes)

/-- Stack, logical pseudo-channel and offset of an HBM address under an interleave mode (R208, R209). -/
def hbmMap (mode P a : Nat) : Nat × Nat × Nat :=
  let C := P * pcBytes
  let g := match mode with
    | 0 | 2 | 4 => 2 ^ 8
    | 1 | 3 | 5 => 2 ^ 12
    | _ => 2 ^ 16
  let r := a % g
  match mode with
  | 0 | 1 => let q := a % C / g; (a / C, q % P, q / P * g + r)
  | 2 | 3 => let q := a % (3 * C) / g; (3 * (a / (3 * C)) + q % 3, q / 3 % P, q / (3 * P) * g + r)
  | 7 => let i := a / pcBytes; (i / P, i % P, a % pcBytes)
  | _ => let q := a / g; (q % 6, q / 6 % P, q / (6 * P) * g + r)

/-- The working bit of a physical pseudo-channel (R41). -/
def State.pcWorking (s : State) (st pc : Nat) : Bool := bitN (s.rg Rg.identity_PC_WORKING st) pc

/-- The place of an HBM byte: stack, physical pseudo-channel and offset; none beyond the space, in a hole, on a pseudo-channel that
is not in the working set, so that no disabled stack is used and no retired one after an APPLY, or in a half that is down (R34, R36,
R207, R209-R211, R557). -/
def State.hbmPhys (s : State) (a : Nat) : Option (Nat × Nat × Nat) :=
  if s.hbmBytes ≤ a then none
  else
    let (st, p, o) := hbmMap (s.rg Rg.hbm_MODE_CUR) s.pcs a
    let pc := s.rg Rg.hbm_PHYS (32 * st + p)
    if s.flag Rg.hbm_HOLE (32 * st + p) || !s.pcWorking st pc || !bitN (s.rg Rg.identity_HBM_WORKING) st || !s.halfUp (st / 3) then none
    else some (st, pc, o)

/-- The key of a physical HBM byte. -/
def physKey (st pc o : Nat) : Nat := kHbm ((st * 32 + pc) * pcBytes + o)

/-- The key of an HBM byte. -/
def State.hbmKey (s : State) (a : Nat) : Option Nat := (s.hbmPhys a).map (fun x => physKey x.1 x.2.1 x.2.2)

/-- The key of a line's first byte; none where the access fails (R200, R206). -/
def State.locKey (s : State) : Loc → Option Nat
  | .slice t l => if t < 256 ∧ l < s.sliceLines t then some (kSlice t (32 * l)) else none
  | .hbm u => s.hbmKey (32 * u)

/-- The bytes of a line. -/
def State.readLine (s : State) (l : Loc) : Option (List Byte) := (s.locKey l).map (fun k => s.readB k 32)

/-- Tile t reaches the stack of an HBM byte: its own half's, or one across the bridge (R28, R37). -/
def State.hbmFrom (s : State) (t a : Nat) : Bool :=
  match s.hbmPhys a with
  | some (st, _, _) => s.halvesMeet (s.tileHalf t) (st / 3)
  | none => false

/-- The key of a line that tile t accesses; none where the access fails or nothing leads there. -/
def State.locFrom (s : State) (t : Nat) (l : Loc) : Option Nat :=
  let met := match l with
    | .slice u _ => s.tilesMeet t u
    | .hbm u => s.hbmFrom t (32 * u)
  if met then s.locKey l else none

/-- A range of HBM bytes is read line by line; none where a line fails. -/
def State.readHbm (s : State) (a : Nat) : Nat → Option (List Byte)
  | 0 => some []
  | n + 1 =>
    match s.hbmKey a, s.readHbm (a + 1) n with
    | some k, some t => some (s.mem.byte k :: t)
    | _, _ => none

/-- A cutting of 64 KiB that is pending: marked at a cut or by a digest round, and not yet copied (R485). -/
def State.cutPending (s : State) (c : Nat) : Bool :=
  (s.mulch.marks.any (fun m => decide (m.1 ≤ c) && decide (c < m.2)) && !s.mulch.copied.contains c)
    || (s.mulch.digMarks.any (fun m => decide (m.1 ≤ c) && decide (c < m.2)) && !s.mulch.digCopied.contains c)

/-- A write to a range of HBM is held (R485). -/
def State.cowHeld (s : State) (a n : Nat) : Bool :=
  (List.range ((a % 65536 + n + 65535) / 65536)).any (fun i => s.cutPending (a / 65536 + i))

/-- Bytes are written to HBM; a byte that no place holds is not written. -/
def State.writeHbm (s : State) (a : Nat) : List Byte → State
  | [] => s
  | b :: t =>
    match s.hbmKey a with
    | some k => State.writeHbm { s with mem := s.mem.put k b } (a + 1) t
    | none => State.writeHbm s (a + 1) t

/-! ## Posted stores that wait (R65, R164, R450, R485) -/

/-- Whether a posted store of the core with key `core` still waits: one into the own slice until a tick, one into a tile that moves
to a spare until the copy has ended, one into a pending cutting until it has been copied. -/
def State.storeWaits (s : State) (core key : Nat) (tick : Bool) : Bool :=
  if key < 2 ^ 40 then (if key / 2 ^ 24 = core then !tick else s.moving (key / 2 ^ 24))
  else s.cowHeld (key - 2 ^ 40) 4

/-- Lines of HBM leave the caches of a tile before a write of its own reaches them (R202). -/
def State.uncache (s : State) (t a n : Nat) : State :=
  let k := s.tile t
  let c := k.cache.filter (fun e => !(decide (e.1 * 256 < a + n) && decide (a < (e.1 + 1) * 256)))
  if c.length = k.cache.length then s else s.setTile t { k with cache := c }

/-- The posted stores of one core, in order, as far as they no longer wait. -/
def State.postCore (s : State) (core : Nat) (tick : Bool) : List (Nat × BitVec 32) → State × List (Nat × BitVec 32)
  | [] => (s, [])
  | (key, v) :: t =>
    if s.storeWaits core key tick then (s, (key, v) :: t)
    else
      let bs := leBytes 4 v.toNat
      State.postCore (if key < 2 ^ 40 then s.writeB key bs
        else (if core < 256 then s.uncache core (key - 2 ^ 40) 4 else s).writeHbm (key - 2 ^ 40) bs) core tick t

/-- Posted stores that no longer wait are performed; `tick` says that a tick is being applied. -/
def State.postHeld (s : State) (tick : Bool) : State :=
  s.cores.foldl (fun (s : State) (e : Nat × Core) =>
    if e.2.heldStores.isEmpty then s
    else
      let x := s.postCore e.1 tick e.2.heldStores
      { x.1 with cores := x.1.cores.put e.1 { e.2 with heldStores := x.2 } }) s

/-! ## Tables: banks, header, windows (R61-R63) -/

/-- The 256 bits of a slot of a table bank. -/
def State.slotOf (s : State) (t bank slot : Nat) : Nat := s.readN (kBank t bank (32 * slot)) 32

/-- A slot of the running bank. -/
def State.runSlot (s : State) (t slot : Nat) : Nat := s.slotOf t (s.tile t).bank slot

/-- An output window of slot 1 (R63). -/
structure Win where
  space : Nat
  logged : Bool
  base : Nat
  size : Nat
deriving DecidableEq, Repr

/-- Window k. -/
def winOf (slot1 k : Nat) : Win :=
  let x := bits slot1 (64 * k) 64
  { space := bits x 0 2, logged := bitN x 2, base := bits x 3 34, size := bits x 37 24 }

/-- A region of lines: of HBM, or of the slice of tile `tile`. -/
structure Region where
  hbm : Bool
  tile : Nat
  lo : Nat
  hi : Nat
deriving DecidableEq, Repr

/-- The lines of a window of tile t's table. -/
def Win.region (w : Win) (t : Nat) : Region :=
  match w.space with
  | 0 => { hbm := false, tile := t, lo := w.base, hi := w.base + w.size }
  | 1 => { hbm := false, tile := bits w.base 19 8, lo := bits w.base 0 19, hi := bits w.base 0 19 + w.size }
  | 2 => { hbm := true, tile := 0, lo := w.base, hi := w.base + w.size }
  | _ => { hbm := false, tile := t, lo := 0, hi := 0 }

/-- Whether a region holds a line. -/
def Region.has (r : Region) : Loc → Bool
  | .slice t l => !r.hbm && r.tile == t && decide (r.lo ≤ l ∧ l < r.hi)
  | .hbm u => r.hbm && decide (r.lo ≤ u ∧ u < r.hi)

/-- Two regions share a line. -/
def Region.meets (a b : Region) : Bool :=
  a.hbm == b.hbm && (a.hbm || a.tile == b.tile) && decide (a.lo < b.hi ∧ b.lo < a.hi)

/-- The scratch region of a table of tile t (R62). -/
def scratchOf (slot0 t : Nat) : Region :=
  { hbm := false, tile := t, lo := bits slot0 128 19, hi := bits slot0 128 19 + bits slot0 147 19 }

/-- The commit-log region of a table of tile t (R62). -/
def logOf (slot0 t : Nat) : Region :=
  { hbm := false, tile := t, lo := bits slot0 64 19, hi := bits slot0 64 19 + 2 * bits slot0 83 16 }

/-- Whether a window of tile t's running table holds the line, and whether that window is LOGGED. -/
def State.winHit (s : State) (t : Nat) (l : Loc) : Option Bool :=
  if (s.tile t).running then
    let x := s.runSlot t 1
    ((List.range 4).map (fun k => winOf x k)).findSome? (fun w => if (w.region t).has l then some w.logged else none)
  else none

/-- The line lies in the scratch region of tile t's running table. -/
def State.inScratch (s : State) (t : Nat) (l : Loc) : Bool :=
  (s.tile t).running && (scratchOf (s.runSlot t 0) t).has l

/-- The line lies in the commit-log region of tile t's running table. -/
def State.inLog (s : State) (t : Nat) (l : Loc) : Bool := (s.tile t).running && (logOf (s.runSlot t 0) t).has l

/-! ## The commit log (R64) -/

/-- Before a line of a window is written: its first old contents go to the commit log, or it joins the PLAIN lines. -/
def State.touch (s : State) (t : Nat) (l : Loc) (logged : Bool) : State :=
  let k := s.tile t
  if logged then
    if k.log.any (fun e => decide (e.1 = l)) then s
    else
      match s.readLine l with
      | none => s
      | some old =>
        let a := kSlice t (32 * bits (s.runSlot t 0) 64 19 + 64 * k.log.length)
        (s.loseRange a (a + 64)).setTile t { k with log := (l, old) :: k.log }
  else if k.plain.any (fun e => decide (e.1 = l)) then s
  else
    match s.readLine l with
    | none => s
    | some old => s.setTile t { k with plain := (l, old) :: k.plain }

/-! ## What readers outside the data plane see (R83, R201) -/

/-- A read or a store of a line that lies in an output window of tile t's running table waits, while beats run (R65, R201). -/
def State.winWaits (s : State) (t : Nat) (l : Loc) : Bool := s.dom.ticking && (s.winHit t l).isSome

/-- What a line held before the rows of the open beat wrote it, where they have. -/
def State.oldLine (s : State) (l : Loc) : Option (List Byte) :=
  s.tiles.findSome? (fun (e : Nat × Tile) => ((e.2.log ++ e.2.plain).find? (fun x => decide (x.1 = l))).map (fun x => x.2))

/-- The committed byte of a line: what a row of the open beat has written there is not visible (R83; log entry 111). -/
def State.committedByte (s : State) (l : Loc) (o key : Nat) : Byte :=
  match s.oldLine l with
  | some bs => bs.getD o 0
  | none => s.mem.byte key

/-- Bytes of a slice as they have committed. -/
def State.committedSlice (s : State) (t a n : Nat) : List Byte :=
  (List.range n).map (fun i => s.committedByte (.slice t ((a + i) / 32)) ((a + i) % 32) (kSlice t (a + i)))

/-- Bytes of HBM as they have committed; none where a line fails. -/
def State.committedHbm (s : State) (a : Nat) : Nat → Option (List Byte)
  | 0 => some []
  | n + 1 =>
    match s.hbmKey a, s.committedHbm (a + 1) n with
    | some k, some t => some (s.committedByte (.hbm (a / 32)) (a % 32) k :: t)
    | _, _ => none

/-! ## The slice cache (R202, R203) -/

/-- Whole bytes [a, a + n) lie inside an enabled cacheable range of a tile that has a partition. -/
def Tile.cacheable (k : Tile) (a n : Nat) : Bool :=
  k.cacheSize != 0 && k.cranges.any (fun r => r.2.2 && decide (r.1 * 4096 ≤ a ∧ a + n ≤ (r.2.1 + 1) * 4096))

/-- A 256-byte line joins the cache of a tile; a full set gives up its least recently used line. A set has 4 lines of 8 slice lines
each (R202). -/
def Tile.fill (k : Tile) (u : Nat) (bs : List Byte) : Tile :=
  let set (v : Nat) : Nat := Config.cacheSet k.cacheSize v % (cacheLines k.cacheSize / 32)
  let mates := k.cache.filter (fun e => set e.1 == set u)
  let c := if 4 ≤ mates.length then
      (match mates.getLast? with
       | some v => k.cache.filter (fun e => e.1 != v.1)
       | none => k.cache)
    else k.cache
  { k with cache := (u, bs) :: c }

/-- The line of 256 bytes is in the cache. -/
def Tile.cached (k : Tile) (u : Nat) : Option (List Byte) := (k.cache.find? (fun e => e.1 == u)).map (fun e => e.2)

/-- A cache counter advances. -/
def State.cacheCount (s : State) (t : Nat) (f : Fld) (bit : Nat) : State :=
  s.wrapCount f t 1 Rg.tile_CWRAP Rg.tile_CWRAP_SEQ t bit

/-- The 256-byte line that holds an address comes from HBM. -/
def State.missFill (s : State) (t a : Nat) : State :=
  let u := a / 256
  match (if s.hbmFrom t a then s.readHbm (u * 256) 256 else none) with
  | none => s
  | some bs => (s.setTile t ((s.tile t).fill u bs)).cacheCount t Rg.tile_CACHE_MISSES 1

/-- 32 bytes of HBM through the cache of a tile: a hit becomes the most recently used line, a miss is filled first. -/
def State.cacheRead (s : State) (t a : Nat) : State × Option (List Byte) :=
  let u := a / 256
  let k := s.tile t
  match k.cached u with
  | some bs =>
    ((s.setTile t { k with cache := (u, bs) :: k.cache.filter (fun e => e.1 != u) }).cacheCount t Rg.tile_CACHE_HITS 0,
      some ((bs.drop (a % 256)).take 32))
  | none =>
    let s := s.missFill t a
    (s, ((s.tile t).cached u).map (fun bs => (bs.drop (a % 256)).take 32))

end Sys2Proof.Machine
end

