-- ==== Sys2Proof/Machine/Hbm.lean ====
section
/-!
DEFINITION. The slice cache's commands, HBM errors and upkeep (R202-R206, R211, R215-R218, R233).
-/
namespace Sys2Proof.Machine

/-! ## Cache control (R203) -/

/-- The offsets of CACHE_CTRL and the CRANGE registers, by number (R232). -/
def cacheReg (r : Nat) : Nat := if r = 0 then 0xC00 else 0xC08 + 4 * (r - 1)

/-- A write of CACHE_CTRL or of a CRANGE register: the fields change, and the next tick puts them in force (R203). -/
def State.cacheWrite (s : State) (t off v : Nat) : State :=
  let s := s.writeRw (blkFlds .tile) [] t off v
  s.setTile t { s.tile t with cachePend := true }

/-- A write of CACHE_CTRL or a CRANGE register, number `r`. -/
def execCacheCtrlWrite (t r : Nat) (v : BitVec 32) (s : State) : Res := .next (s.cacheWrite t (cacheReg r) v.toNat)

/-- INV empties the cache at the next tick (R203). -/
def execCacheInv (t : Nat) (s : State) : Res := .next (s.setTile t { s.tile t with cachePend := true })

/-- At a tick of any kind a pending change of a tile's cache takes effect and empties it; lines that enter or leave the
partition become unspecified; an ABORT tick empties the cache as well (R203). -/
def State.cacheTick (s : State) (t : Nat) (abort : Bool) : State :=
  let k := s.tile t
  if k.cachePend then
    let size := s.rg Rg.tile_SIZE t
    let lo := 2 ^ 19 - max (cacheLines k.cacheSize) (cacheLines size)
    let hi := 2 ^ 19 - min (cacheLines k.cacheSize) (cacheLines size)
    let s := if lo < hi then s.loseRange (kSlice t (32 * lo)) (kSlice t (32 * hi)) else s
    s.setTile t { k with
      cachePend := false, cacheSize := size, cache := [],
      cranges := (List.range 4).map (fun j =>
        (s.rg Rg.tile_CRANGE_BASE (4 * t + j), s.rg Rg.tile_CRANGE_LIM (4 * t + j), s.flag Rg.tile_CRANGE_EN (4 * t + j))) }
  else if abort && !k.cache.isEmpty then s.setTile t { k with cache := [] }
  else s

/-- A cache miss of tile t at an address fetches its line (R202). -/
def execCacheMissFill (t a : Nat) (s : State) : Res :=
  let k := s.tile t
  if k.cacheable (a / 32 * 32) 32 && (k.cached (a / 256)).isNone then .next (s.missFill t a) else .next s

/-! ## Errors (R206) -/

/-- A stream enters its error state (R229). -/
def State.streamErr (s : State) (t k code : Nat) : State :=
  let i := 16 * t + k
  let s := ((s.setRg Rg.tile_STATE i 4).setRg Rg.tile_ERRCODE i code).setRg Rg.tile_DELIVERED i 0
  { s with streams := s.streams.del i }

/-- The requester of an access that fails under R206. -/
def State.failAccess (s : State) : HbmReq → State
  | .row t slot =>
    let k := s.tile t
    s.setTile t { k with track := k.track.map (fun r => if r.slot = slot then { r with err := 10 } else r) }
  | .core c => s.setCore c { s.core c with extFail := true }
  | .stream t k => if s.rg Rg.tile_STATE (16 * t + k) = 2 then (s.streamErr t k 5).detect (.streamError t k 5) else s
  | .scrub => s

/-- An HBM access at an address meets an error: 0 a single-bit error, corrected and counted; 1 an uncorrectable error;
2 a parity error on the way. The last two are reported, and the requester sees the access fail. -/
def execHbmEccError (a kind : Nat) (req : HbmReq) (s : State) : Res :=
  match s.hbmPhys a with
  | none => .next s
  | some (st, pc, _) =>
    if kind = 0 then .next ((s.incRg Rg.hbm_CE_COUNT 0 1).detect (.hbmCorrected st pc a))
    else
      let s := if kind = 1 then s.satRg Rg.hbm_UE_COUNT 0 1 else s
      .next ((s.detect (.hbmError st pc a (kind == 2))).failAccess req)

/-! ## Upkeep (R215-R218) -/

/-- A per-bank refresh takes time and changes nothing else (R215; log entry 11). -/
def execHbmRefresh (_st _pc : Nat) (s : State) : Res := .next s

/-- The number that places reserved slots: BEATNO in a running domain, else the free-running period (R216). -/
def State.slotBeat (s : State) : Nat := if s.dom.ticking then s.rg Rg.beat_BEATNO else s.hbm.idleBeat

/-- A reserved slot opens, with SLOT_OPS operations; a refresh calibration that is due takes the first (R215, R216). -/
def execReservedSlot (st pc : Nat) (cal : Bool) (s : State) : Res :=
  if s.slotBeat % 64 = (32 * st + pc) % 64 then
    .next { s with hbm := { s.hbm with
      slotOps := s.hbm.slotOps.set 0 (32 * st + pc) (s.rg Rg.hbm_SLOT_OPS - ofBool cal) } }
  else .next s

/-- A pass ends when every working pseudo-channel has been scrubbed through (R218). -/
def State.scrubPass (s : State) : State :=
  if !s.hbm.scrubDone.isEmpty && (List.range 192).all (fun j => !s.pcWorking (j / 32) (j % 32) || s.hbm.scrubDone.contains j) then
    { s with hbm := { s.hbm with scrubDone := [] } }.incRg Rg.hbm_SCRUB_PASSES 0 1
  else s

/-- `n` more 64-byte bursts of a pseudo-channel are scrubbed. -/
def State.scrub (s : State) (st pc n : Nat) : State :=
  let i := 32 * st + pc
  let pos := s.hbm.scrubPos.getD 0 i + n
  let through := decide (pcBytes / 64 ≤ pos)
  let s := { s with hbm := { s.hbm with
    scrubPos := s.hbm.scrubPos.set 0 i (if through then pos % (pcBytes / 64) else pos),
    scrubDone := if through then insertNat i s.hbm.scrubDone else s.hbm.scrubDone } }
  if through then s.scrubPass else s

/-- A scrub of one 2 KiB stretch in an open reserved slot; `fixed` errors are corrected and counted. A foreground write
wins over the write-back, so no byte changes (R217). -/
def execScrubOperation (st pc fixed : Nat) (s : State) : Res :=
  let i := 32 * st + pc
  let left := s.hbm.slotOps.getD 0 i
  if s.flag Rg.hbm_SCRUB_EN && left != 0 then
    let s := { s with hbm := { s.hbm with slotOps := s.hbm.slotOps.set 0 i (left - 1) } }
    .next ((s.scrub st pc 32).incRg Rg.hbm_CE_COUNT 0 fixed)
  else .next s

/-- An idle pseudo-channel scrubs one 64-byte burst outside its slot (R215). -/
def execOpportunisticScrub (st pc fixed : Nat) (s : State) : Res :=
  if s.flag Rg.hbm_SCRUB_EN && s.flag Rg.hbm_OPPORTUNE && s.hbm.slotOps.getD 0 (32 * st + pc) == 0 then
    .next ((s.scrub st pc 1).incRg Rg.hbm_CE_COUNT 0 fixed)
  else .next s

end Sys2Proof.Machine
end

