-- ==== Sys2Proof/Machine/Event.lean ====
section
/-!
DEFINITION. Event records: event queues in host memory, MSI-X, and the management event area (R371-R377, R381).
-/
namespace Sys2Proof.Machine

/-- A record's fields before it is written: function, type, time, payload, LOG_UNAVAIL. -/
abbrev Rec := Nat × Nat × Nat × Nat × Bool

/-- The 32 bytes of a record (R372). -/
def Rec.bytes (r : Rec) (phase lost : Bool) (seq : Nat) : List Byte :=
  let (fn, ty, time, pay, unav) := r
  leBytes 32 (ofBool phase + 2 * ofBool lost + 4 * ofBool unav + fn % 128 * 2 ^ 8 + ty % 2 ^ 16 * 2 ^ 16
    + seq % 2 ^ 32 * 2 ^ 32 + time % 2 ^ 64 * 2 ^ 64 + pay % 2 ^ 128 * 2 ^ 128)

/-- The key of a function's ring, queue or vector. -/
def fnKey (fn n : Nat) : Nat := 64 * fn + n

/-- A register of a function's status block: the manager's copy or the plot's (R394, R395). -/
def State.setFn (s : State) (mgr plot : Fld) (fn n per v : Nat) : State :=
  if fn = 0 then s.setRg mgr n v else s.setRg plot (fn * per + n) v

/-- The host interface is out of reset and powered (R547). -/
def State.hostUp (s : State) : Bool := !s.hubMainReset && s.rg Rg.system_HOST_IN_RESET == 0

/-- A DMA write to host memory: dropped and counted while the interface is in reset (R548). -/
def State.hostWrite (s : State) (fn a : Nat) (bs : List Byte) : State :=
  if s.hostUp then s.emit (.hostWrite fn a bs) else s.satRg Rg.system_HOST_DROPS 0 1

/-- An MSI-X message of a function, or its PBA bit while the vector is masked (R374). -/
def State.sendMsix (s : State) (fn v : Nat) : State :=
  if s.host.unmasked.contains (fnKey fn v) then s.emit (.msix fn v)
  else { s with host := { s.host with pba := insertNat (fnKey fn v) s.host.pba } }

/-- An FLR of the function runs: nothing is written to its memory (R388). -/
def State.flr (s : State) (fn : Nat) : Bool := (s.host.quiesce.get? fn).any (fun (q : Quiesce) => q.flr)

/-- A record is written to its slot of a queue, and the message follows when MOD_COUNT is reached, or at once with both
moderation fields 0 (R371, R374). A function under an FLR gets none. -/
def State.writeRec (s : State) (fn q : Nat) (r : Rec) : State :=
  match s.host.eqs.get? (fnKey fn q) with
  | none => s
  | some e =>
    if s.flr fn then s else
    let size := 2 ^ e.log2
    let s := s.hostWrite fn (e.base + 32 * (e.n % size)) (r.bytes (e.n / size % 2 == 0) e.lost e.n)
    let now := (e.modCount == 0 && e.modTime == 0) || (e.modCount != 0 && decide (e.modCount ≤ e.since + 1))
    let e := { e with n := e.n + 1, lost := false, since := if now then 0 else e.since + 1 }
    let s := { s with host := { s.host with eqs := s.host.eqs.put (fnKey fn q) e } }
    if now then s.sendMsix fn e.vector else s

/-- A queue has room for record n (R371). -/
def EvQueue.room (e : EvQueue) : Bool := decide ((e.n + 2 ^ 16 - e.ci) % 2 ^ 16 < 2 ^ e.log2)

/-- Record types that are never dropped (R373). -/
def recKept (ty : Nat) : Bool := [0x0001, 0x0002, 0x0011, 0x0012, 0x0013].contains ty

/-- A record for a queue: written, held, or dropped with the LOST count (R373). -/
def State.toQueue (s : State) (fn q : Nat) (r : Rec) : State :=
  match s.host.eqs.get? (fnKey fn q) with
  | none => s
  | some e =>
    if e.hold.isEmpty && e.room then s.writeRec fn q r
    else if e.hold.length < 64 || recKept r.2.1 then
      { s with host := { s.host with eqs := s.host.eqs.put (fnKey fn q) { e with hold := e.hold ++ [r] } } }
    else
      let s := { s with host := { s.host with eqs := s.host.eqs.put (fnKey fn q) { e with lost := true } } }
      if fn = 0 then s.satRg Rg.host_LOST q 1 else s.satRg Rg.plotStat_LOST (4 * fn + q) 1

/-- Held records are written while the queue has room. -/
def State.drainQueue (s : State) (fn q : Nat) : Nat → State
  | 0 => s
  | n + 1 =>
    match s.host.eqs.get? (fnKey fn q) with
    | none => s
    | some e =>
      match e.hold with
      | [] => s
      | r :: t =>
        if e.room then
          State.drainQueue
            ({ s with host := { s.host with eqs := s.host.eqs.put (fnKey fn q) { e with hold := t } } }.writeRec fn q r) fn q n
        else s

/-- A record of a function for one of its queues; the time is that of the module (R372, R537). -/
def State.record (s : State) (fn q about ty pay : Nat) : State :=
  if s.hostUp then s.toQueue fn q (about, ty, s.rg Rg.system_MTIME, pay, false) else s

/-- A platform event waits for the management controller to poll it; the oldest of 4,096 gives way (R535, R536). -/
def State.platformEvent (s : State) (cls : Nat) (bs : List Byte) : State :=
  let l := s.fw.events ++ [(cls, bs)]
  { s with fw := { s.fw with events := l.drop (l.length - 4096) } }

/-- A record of the management event area, the oldest overwritten (R381); the management controller receives it (R536). -/
def State.areaRec (s : State) (r : Rec) : State :=
  let n := s.host.evCount
  let s := s.platformEvent 0xF0 (r.bytes (n / 4096 % 2 == 0) false n)
  let s := s.writeB (kMgmt (0x10000 + 32 * (n % 4096))) (r.bytes (n / 4096 % 2 == 0) false n)
  { s with host := { s.host with evCount := n + 1 } }.writeN (kMgmt 0x30000) 8 (n + 1)

/-- A device event of type 0x0100 or above: to MGR_EQ, to the event area, and to queue 0 of the plot it concerns (R375). -/
def State.eventX (s : State) (unav : Bool) (about ty pay : Nat) : State :=
  let r : Rec := (about, ty, s.rg Rg.system_MTIME, pay, unav)
  let s := s.areaRec r
  if s.hostUp then
    let s := s.toQueue 0 (s.rg Rg.host_MGR_EQ) r
    if about = 0 then s else s.toQueue about 0 r
  else s

/-- A device event that concerns function `about`. -/
def State.event (s : State) (ty pay : Nat) (about : Nat := 0) : State := s.eventX false about ty pay

/-- B48: BEATNO bits [47:0] in payload bits [111:64] (R377). -/
def b48 (n : Nat) : Nat := n % 2 ^ 48 * 2 ^ 64

/-- B48 of the current beat. -/
def State.nowB48 (s : State) : Nat := b48 (s.rg Rg.beat_BEATNO)

end Sys2Proof.Machine
end

