-- ==== Sys2Proof/Machine/Link.lean ====
section
/-!
DEFINITION. Dvorar packets, routing, and the sending side of the links and connections (R258-R272, R281-R288).
-/
namespace Sys2Proof.Machine

/-! ## CRC-32C (R588) -/

/-- One bit of CRC-32C: polynomial 0x1EDC6F41, reflected. -/
def crcBit (c : Nat) : Nat := if c % 2 = 1 then (c / 2) ^^^ 0x82F63B78 else c / 2

/-- One byte of CRC-32C. -/
def crcByte (c : Nat) (b : Byte) : Nat :=
  crcBit (crcBit (crcBit (crcBit (crcBit (crcBit (crcBit (crcBit (c ^^^ b.toNat))))))))

/-- CRC-32C of bytes: start and final XOR of all ones (R588). -/
def crc32c (bs : List Byte) : Nat := (bs.foldl crcByte 0xFFFFFFFF) ^^^ 0xFFFFFFFF

/-! ## Packets (R282, R283) -/

/-- Whether a packet's opcode carries its LENGTH bytes of data. -/
def pktCarries (op : Nat) : Bool := [0x01, 0x02, 0x03, 0x04, 0x06].contains op

/-- An opcode that exists (R283). -/
def pktKnown (op : Nat) : Bool := [0x01, 0x02, 0x03, 0x04, 0x05, 0x06, 0x10, 0x11, 0x12, 0x13].contains op

/-- The channel of a packet, by opcode; a request's own for the others (R266). -/
def pktChannel (p : DvPkt) (vc : Nat) : Nat := if p.op = 6 then 6 else if 0x10 ≤ p.op then 7 else vc

/-- The 32-byte header. -/
def pktHeader (p : DvPkt) : Nat :=
  p.op + p.epoch * 2 ^ 8 + ofBool p.last * 2 ^ 12 + ofBool p.xlate * 2 ^ 13 + p.src * 2 ^ 16 + p.dst * 2 ^ 24
    + p.cn * 2 ^ 32 + p.origin * 2 ^ 44 + p.psn * 2 ^ 48 + p.beat * 2 ^ 72 + p.len * 2 ^ 80 + p.addr * 2 ^ 96
    + (if p.op = 0x10 then 0 else p.space * 2 ^ 136) + p.aux * 2 ^ 160 + p.opid * 2 ^ 192

/-- The bytes of a packet, on an 8-byte boundary. -/
def pktBytes (p : DvPkt) : List Byte :=
  let b := leBytes 32 (pktHeader p) ++ p.data
  b ++ List.replicate (ceilDiv b.length 8 * 8 - b.length) 0

/-- The packet that a header and its data spell. -/
def pktOf (h : Nat) (data : List Byte) : DvPkt :=
  let ack := bits h 0 8 == 0x10
  { op := bits h 0 8, epoch := bits h 8 4, last := bitN h 12, xlate := bitN h 13, src := bits h 16 8, dst := bits h 24 8,
    cn := bits h 32 12, origin := bits h 44 2, psn := bits h 48 24, beat := bits h 72 8, len := bits h 80 13,
    addr := if ack then bits h 96 64 else bits h 96 40, space := if ack then 0 else bits h 136 2, aux := bits h 160 32,
    opid := bits h 192 32, data := data }

/-- An opcode that exists, LENGTH at most 4,096 and a multiple of 4, and every zero field zero (R282, R283). -/
def pktOk (h : Nat) : Bool :=
  let op := bits h 0 8
  let aux := bits h 160 32
  pktKnown op && decide (bits h 80 13 ≤ 4096) && bits h 80 13 % 4 == 0
    && bits h 14 2 == 0 && bits h 46 2 == 0 && bits h 93 3 == 0 && bits h 224 32 == 0
    && (op == 0x10 || bits h 138 22 == 0)
    && (match op with
        | 0x02 | 0x03 => aux / 2 ^ 4 == 0
        | 0x04 => aux / 2 ^ 23 == 0
        | 0x06 => aux / 2 ^ 7 == 0
        | 0x13 => aux / 2 ^ 6 == 0
        | _ => aux == 0)

/-! ## Ports -/

/-- A link port. -/
def State.port (s : State) (d : Nat) : LinkPort := s.dv.ports.getD {} d

/-- A link port is replaced. -/
def State.setPort (s : State) (d : Nat) (k : LinkPort) : State :=
  { s with dv := { s.dv with ports := s.dv.ports.set {} d k } }

/-- STATE of a port is UP. -/
def State.linkUp (s : State) (d : Nat) : Bool := s.rg Rg.dvport_STATE d == 3

/-- A change of STATE or LANES of a port (R294); LINK_WORKING follows, once the self-test
of the port's half has completed (R41, R42). -/
def State.linkSet (s : State) (d state lanes : Nat) : State :=
  let s' := (s.setRg Rg.dvport_STATE d state).setRg Rg.dvport_LANES d lanes
  let w := s.rg Rg.identity_LINK_WORKING
  let up := ofBool (state == 3 && decide (4 ≤ popCount 8 lanes) && s.fw.testedHalves.contains (d / 12))
  let w' := setBits w d 1 up
  let s' := if w' = w then s'
    else (s'.setRg Rg.identity_LINK_WORKING 0 w').sqRaise Rg.identity_MAP_CHANGED Rg.identity_MAP_SEQ 0 1
  if s.rg Rg.dvport_STATE d = state ∧ s.rg Rg.dvport_LANES d = lanes then s'
  else s'.sqRaise Rg.dvport_LINK_EVT Rg.dvport_LINK_SEQ d 1

/-! ## Flits and control symbols (R258-R264, R267) -/

/-- Bytes [3:0] of a flit of a port (R259): KIND 0 data, 1 idle, 2 marker. -/
def LinkPort.header (k : LinkPort) (vc kind fseq first : Nat) : Nat :=
  vc + kind * 2 ^ 3 + fseq * 2 ^ 5 + first * 2 ^ 15 + (k.rxNext + 1023) % 1024 * 2 ^ 20 + ofBool k.rxAny * 2 ^ 30

/-- The 256 bytes of a flit: header, CTRL, body, CRC, FEC parity (R259; log entry 17). -/
def flitBytes (header ctrl : Nat) (body : List Byte) : List Byte :=
  let b := leBytes 4 header ++ leBytes 8 ctrl ++ body ++ List.replicate (232 - body.length) 0
  let c := b ++ leBytes 4 (crc32c b)
  c ++ leBytes 8 (Config.fecParity c).toNat

/-- The symbol types that are placed in 4 consecutive flit slots: TICK, DONE, FORM, JOIN, LSTATE, LANE_DROP (R264). -/
def fourTimes (ty : Nat) : Bool := [4, 5, 6, 7, 8, 11].contains ty

/-- A control symbol is due on a port that is UP, or, a NEG word, on one that negotiates or retrains: once, or four times. The latest
TICK, DONE and FORM and every LSTATE are kept for when the link is UP again (R263, R264). -/
def State.due (s : State) (d ty pay : Nat) : State :=
  let k := s.port d
  let st := s.rg Rg.dvport_STATE d
  let k := if [4, 5, 6].contains ty then { k with sent := k.sent.set 0 ty (pay + 1) }
    else if ty = 8 then { k with unechoed := k.unechoed.set 0 (pay / 2 ^ 6 % 2 ^ 13) (pay + 1) }
    else k
  s.setPort d (if st = 3 ∨ (ty = 12 ∧ (st = 2 ∨ st = 4)) then
    { k with due := k.due ++ List.replicate (if fourTimes ty then 4 else 1) (ty + pay) } else k)

/-- The symbols that are due leave in the next flit slots, on idle flits; none leaves while a lane is being dropped (R263, R277). -/
def State.idle (s : State) (d : Nat) : State :=
  let k := s.port d
  if k.drop.isSome then s
  else k.due.foldl (fun s w => s.emit (.idle d (s.rg Rg.dvport_LANES d) (k.header 0 1 0 31) w)) (s.setPort d { k with due := [] })

/-- A control symbol leaves. -/
def State.symbol (s : State) (d ty pay : Nat) : State := (s.due d ty pay).idle d

/-- A data flit leaves, with the oldest symbol that is due (R259, R263). -/
def State.sendFlit (s : State) (d : Nat) (f : TxFlit) : State :=
  let k := s.port d
  ((s.setPort d { k with due := k.due.tail }).wrapCount Rg.dvport_FLITS_TX d 1 Rg.dvport_WRAP Rg.dvport_WRAP_SEQ d 0).emit
    (.flit d (s.rg Rg.dvport_LANES d) (flitBytes (k.header f.vc 0 f.fseq f.first) (k.due.headD 0) f.body))

/-- What a body that holds `at_` bytes takes from the queued packets of a channel: packets back to back, the offset of the first that
starts, and what is left in the queue. A packet that is still coming in fills the body or waits (R259, R273). -/
def fillBody (vc : Nat) : List TxPkt → Nat → List Byte × Option Nat × List TxPkt
  | [], _ => ([], none, [])
  | e :: t, at_ =>
    if e.vc ≠ vc then
      let r := fillBody vc t at_
      (r.1, r.2.1, e :: r.2.2)
    else if 232 ≤ at_ ∨ (e.toCome ≠ 0 ∧ e.bytes.length < 232 - at_) then ([], none, e :: t)
    else
      let x := e.bytes.take (232 - at_)
      let y := e.bytes.drop (232 - at_)
      let start := if e.begun then none else some at_
      if y.isEmpty && e.toCome == 0 then
        let r := fillBody vc t (at_ + x.length)
        (x ++ r.1, start.or r.2.1, r.2.2)
      else (x, start, { e with bytes := y, begun := true } :: t)

/-- The channel of the first queued packet that holds a credit and can fill a flit. -/
def LinkPort.sendable (k : LinkPort) : Option Nat :=
  (k.queue.find? (fun e => k.credit.getD 0 e.vc != 0 && !(fillBody e.vc k.queue 0).1.isEmpty)).map (fun e => e.vc)

/-- Data flits leave while a packet waits, its channel holds a credit and the replay buffer has room, and no lane is being
dropped. -/
def State.pump (s : State) (d : Nat) : Nat → State
  | 0 => s
  | n + 1 =>
    let k := s.port d
    if !s.linkUp d || k.drop.isSome || decide (512 ≤ k.replay.length) then s
    else match k.sendable with
      | none => s
      | some vc =>
        let (body, first, q) := fillBody vc k.queue 0
        let f : TxFlit := { fseq := k.txNext, vc := vc, first := (first.map (fun a => a / 8)).getD 31, body := body }
        let k := { k with
          queue := q, txNext := (k.txNext + 1) % 1024, replay := k.replay ++ [f],
          credit := k.credit.set 0 vc (k.credit.getD 0 vc - 1) }
        State.pump ((s.setPort d k).sendFlit d f) d n

/-- The flits that a port's queue may need. -/
def LinkPort.work (k : LinkPort) : Nat := k.queue.foldl (fun a e => a + e.bytes.length / 232 + 1) 0

/-- A port sends what it can: data flits, which carry the symbols that are due, and the other symbols. -/
def State.run (s : State) (d : Nat) : State := (s.pump d (s.port d).work).idle d

/-- The channel of a packet that this module sends: a response's, or the one that the row, stream or connection names (R266). -/
def State.pktVc (s : State) (p : DvPkt) : Nat :=
  let own : Nat := if p.origin = 2 then (s.dv.send.getD {} (2 * 2 ^ 12 + p.cn)).vc else p.cn % 8
  pktChannel p own

/-! ## Routing (R270, R271) -/

/-- The routing entry of a MID in a bank. -/
def State.route (s : State) (bank m : Nat) : Nat := s.rg (if bank = 0 then Rg.dvorar_ROUTE_A else Rg.dvorar_ROUTE_B) m

/-- The usable ports of an entry, in field order: not 31, and UP, or this module (R271, R272). -/
def State.usable (s : State) (e : Nat) : List Nat :=
  ((List.range 4).map (fun i => bits e (5 * i) 5)).filter (fun p =>
    p == 24 || (decide (p < 24) && s.linkUp p && !(s.port p).barred))

/-- The port that a packet takes; the hash of SPREAD 0 is one of the implementation's own. -/
def State.choose (s : State) (p : DvPkt) : Option Nat :=
  let e := s.route (s.rg Rg.dvorar_ACTIVE) p.dst
  let us := s.usable e
  if !bitN e 22 || us.isEmpty then none
  else us[(if bits e 20 2 = 1 then p.psn else Config.routeHash p.src p.origin p.cn) % us.length]?

/-- A packet for this module: its MID, or ALIAS_MID while ALIAS_EN is 1 (R271). -/
def State.forMe (s : State) (p : DvPkt) : Bool :=
  p.dst == s.rg Rg.beat_MID || (s.flag Rg.dvorar_ALIAS_EN && p.dst == s.rg Rg.dvorar_ALIAS_MID)

/-- A packet is delivered to this module's engines. -/
def State.deliver (s : State) (p : DvPkt) : State := { s with dv := { s.dv with inbox := s.dv.inbox ++ [p] } }

/-- A packet joins the queue of the port that its route names, which sends what it can; without a route it is discarded and
counted. -/
def State.enqueue (s : State) (e : TxPkt) : State :=
  match s.choose e.pkt with
  | none => s.satRg Rg.dvorar_NOROUTE 0 1
  | some d => (s.setPort d { s.port d with queue := (s.port d).queue ++ [e] }).run d

/-- A packet of this module leaves by its route, or is delivered here (R271). -/
def State.sendPkt (s : State) (p : DvPkt) : State :=
  if s.forMe p || s.choose p == some 24 then s.deliver p
  else s.enqueue { pkt := { p with data := [] }, vc := s.pktVc p, bytes := pktBytes p }

/-! ## Connections: the sending end (R281, R284, R285) -/

/-- The key of a sender. -/
def connKey (origin cn : Nat) : Nat := origin * 2 ^ 12 + cn

/-- A sender. -/
def State.conn (s : State) (k : Nat) : SendConn := s.dv.send.getD {} k

/-- A sender is replaced. -/
def State.setConn (s : State) (k : Nat) (c : SendConn) : State :=
  { s with dv := { s.dv with send := s.dv.send.set {} k c } }

/-- A PSN is ahead of another, or equal (R284). -/
def psnGe (a b : Nat) : Bool := decide ((a + 2 ^ 24 - b) % 2 ^ 24 < 2 ^ 23)

/-- Waiting packets are sent while the window has room and no PAGE_RETRY is pending. -/
def State.window (s : State) (k : Nat) : Nat → State
  | 0 => s
  | n + 1 =>
    let c := s.conn k
    match c.wait with
    | [] => s
    | p :: t =>
      if s.rg Rg.dvorar_SWIN ≤ c.sent.length ∨ c.resend.isSome ∨ c.failed = true then s
      else State.window ((s.setConn k { c with wait := t, sent := c.sent ++ [p] }).sendPkt p) k n

/-- The MID that a module's packets carry (R292). -/
def State.srcMid (s : State) (origin : Nat) : Nat :=
  if origin ≠ 2 ∧ s.flag Rg.dvorar_ALIAS_EN = true then s.rg Rg.dvorar_ALIAS_MID else s.rg Rg.beat_MID

/-- A request joins a connection under its next PSN. -/
def State.connPush (s : State) (k : Nat) (p : DvPkt) : State :=
  let c := s.conn k
  let p := { p with psn := c.psn, src := s.srcMid p.origin, dst := c.peer,
                    epoch := if p.origin = 2 then 0 else s.dom.attempt, beat := s.rg Rg.beat_BEATNO % 256 }
  let c := { c with psn := (c.psn + 1) % 2 ^ 24, wait := c.wait ++ [p], rto := if c.rto = 0 then s.rg Rg.dvorar_RTO_INIT else c.rto }
  s.setConn k c

/-- Requests join a connection in order, and the window sends what it can. -/
def State.connSend (s : State) (k : Nat) (ps : List DvPkt) : State :=
  let s := ps.foldl (fun s p => s.connPush k p) s
  s.window k (s.conn k).wait.length

/-- CN of a beat connection (R281). -/
def beatCn (dst half vc : Nat) : Nat := dst * 16 + half * 8 + vc

/-- A blank request. -/
def blankPkt : DvPkt :=
  { op := 0, epoch := 0, last := false, xlate := false, src := 0, dst := 0, cn := 0, origin := 0, psn := 0, beat := 0,
    len := 0, addr := 0, space := 0, aux := 0, opid := 0, data := [] }

/-- The transport packet of an exchange packet: EXCH, COMBINE_ANCHOR or COMBINE_VALUE (R283). OPID names its row. -/
def XPkt.toDv (p : XPkt) : DvPkt :=
  let half := p.dstTile / 128
  let addr := p.dstTile * 2 ^ 24 + p.addr + (match p.op with | 0 => p.first | 1 => 2 * p.first | _ => 20 * p.first)
  { blankPkt with
    op := 2 + p.op, last := p.last, dst := p.dstMid, cn := beatCn p.dstMid half p.vc, origin := p.srcTile / 128,
    len := p.data.length, addr := addr, space := 0, opid := p.srcTile * 4096 + p.srcSlot, data := p.data,
    aux := p.dctr + (if p.op = 2 then (p.aaddr / 32) * 2 ^ 4 else 0) }

/-- Exchange packets for another module join their beat connection. -/
def State.dvExchange (s : State) (ps : List XPkt) : State :=
  match ps with
  | [] => s
  | p :: _ =>
    let d := p.toDv
    let k := connKey d.origin d.cn
    let c := s.conn k
    (s.setConn k { c with peer := p.dstMid, engine := p.dstTile / 128, vc := p.vc }).connSend k (ps.map XPkt.toDv)

/-! ## Programmed operations (R287, R288) -/

/-- The pieces of an operation: offset and bytes, each but the last 4,096 bytes (R283). -/
def pieces (len : Nat) : List (Nat × Nat) :=
  (List.range (ceilDiv len 4096)).map (fun i => (4096 * i, min 4096 (len - 4096 * i)))

/-- An operation starts on a connection: a WRITE with its bytes, or a READ whose bytes go to `sink`. XLATE is set as
asked. -/
def State.dvStart (s : State) (origin cn : Nat) (rd xlate : Bool) (space addr len : Nat) (data : List Byte)
    (sink : Option Sink) (owner : Owner) : State :=
  let k := connKey origin cn
  let c := s.conn k
  let ps := pieces len
  let psns := (List.range ps.length).map (fun i => (c.psn + i) % 2 ^ 24)
  let op : DvOp := { opid := c.nextOp, read := rd, len := len, space := space, xlate := xlate, addr := addr, sink := sink,
                     left := psns.zip ps, uncovered := if rd then psns else [], owner := owner }
  let pk (i : Nat) (x : Nat × Nat) : DvPkt :=
    { blankPkt with
      op := if rd then 5 else 1, last := i + 1 == ps.length, xlate := xlate, cn := cn, origin := origin, len := x.2,
      addr := addr + x.1, space := space, opid := c.nextOp, data := if rd then [] else (data.drop x.1).take x.2 }
  let s := s.setConn k { c with nextOp := (c.nextOp + 1) % 2 ^ 32, ops := c.ops ++ [op] }
  s.connSend k (ps.mapIdx pk)

/-- DONE_BYTES of an operation: the prefix before its first open packet (R288). -/
def DvOp.prefixBytes (o : DvOp) : Nat :=
  match o.left with
  | [] => o.len
  | x :: _ => x.2.1

/-- Every packet of an operation is covered by the cumulative PSN, and every response has come (R287). -/
def DvOp.whole (o : DvOp) : Bool := o.left.isEmpty && o.uncovered.isEmpty

/-- The completion record of an operation that ends for a cause with `n` bytes done (R288). -/
def DvOp.ended (o : DvOp) (cause n : Nat) : Ended :=
  if o.whole then { owner := o.owner, opid := o.opid, state := 0, cause := 0, bytes := o.len }
  else { owner := o.owner, opid := o.opid, state := if n = 0 then 2 else 1, cause := cause, bytes := n }

/-- An operation ends with `n` bytes done, and its owner is to be told. -/
def State.opEndAt (s : State) (k : Nat) (o : DvOp) (cause n : Nat) : State :=
  let c := s.conn k
  let s := s.setConn k { c with ops := c.ops.filter (fun x => x.opid != o.opid) }
  { s with dv := { s.dv with ended := s.dv.ended ++ [o.ended cause n] } }

/-- An operation ends as it stands, and its owner is to be told. -/
def State.opEnd (s : State) (k : Nat) (o : DvOp) (cause : Nat) : State := s.opEndAt k o cause o.prefixBytes

/-- Every operation of a connection ends with a cause, and nothing of it is sent any more. -/
def State.connEnd (s : State) (k cause : Nat) : State :=
  let s := (s.conn k).ops.foldl (fun s o => s.opEnd k o cause) s
  s.setConn k { s.conn k with sent := [], wait := [], pageWait := none, resend := none }

end Sys2Proof.Machine
end

