-- ==== Sys2Proof/Machine/Furrow.lean ====
section
/-!
DEFINITION. Furrow streams (R219-R229, R232).
-/
namespace Sys2Proof.Machine

/-- A stream's descriptor (R219). -/
structure Descr where
  space : Nat
  src : Nat
  chunk : Nat
  stride : Int
  per : Nat
  count : Nat
  cyclic : Bool
  lead : Nat
  slots : Nat
  base : Nat
  start : Nat
  peer : Nat
  vc : Nat
deriving DecidableEq, Repr

/-- The descriptor that stream k of tile t holds. -/
def State.descr (s : State) (t k : Nat) : Descr :=
  let i := 16 * t + k
  { space := s.rg Rg.tile_SPACE i, src := s.rg Rg.tile_SRC_LO i + s.rg Rg.tile_SRC_HI i * 2 ^ 32,
    chunk := s.rg Rg.tile_CHUNK_BYTES i, stride := sext 32 (s.rg Rg.tile_STRIDE i), per := s.rg Rg.tile_PER_BEAT i,
    count := s.rg Rg.tile_COUNT i, cyclic := s.flag Rg.tile_CYCLIC i, lead := s.rg Rg.tile_LEAD i,
    slots := s.rg Rg.tile_SLOTS i, base := s.rg Rg.tile_LAND_BASE i,
    start := s.rg Rg.tile_START_LO i + s.rg Rg.tile_START_HI i * 2 ^ 32, peer := s.rg Rg.tile_PEER i, vc := s.rg Rg.tile_VC i }

/-- BL: lines per batch (R220). -/
def Descr.batch (d : Descr) : Nat := d.per * d.chunk / 32

/-- idx(b, c) (R220). -/
def Descr.index (d : Descr) (b c : Nat) : Nat := if d.cyclic then (b * d.per + c) % (d.count * d.per) else b * d.per + c

/-- The ring's end. -/
def Descr.ringEnd (d : Descr) : Nat := d.base + d.slots * d.batch

/-- A stream beside its registers. -/
def State.stream (s : State) (t k : Nat) : Stream := s.streams.getD {} (16 * t + k)

/-- A stream is replaced. -/
def State.setStream (s : State) (t k : Nat) (x : Stream) : State := { s with streams := s.streams.set {} (16 * t + k) x }

/-- STATE of a stream. -/
def State.streamState (s : State) (t k : Nat) : Nat := s.rg Rg.tile_STATE (16 * t + k)

/-! ## EN and STOP (R222) -/

/-- A write of EN. -/
def State.furrowEn (s : State) (t k : Nat) (on : Bool) : State :=
  let i := 16 * t + k
  let s := s.setRg Rg.tile_EN i (ofBool on)
  let st := s.streamState t k
  if on then (if st = 0 then (s.setRg Rg.tile_STATE i 1).setStream t k { pendEn := true } else s)
  else if st = 2 then s.setStream t k { s.stream t k with pendOff := true }
  else ((s.setRg Rg.tile_STATE i 0).setRg Rg.tile_ERRCODE i 0).setStream t k {}

/-- A write of EN. -/
def execFurrowEn (t k : Nat) (on : Bool) (s : State) : Res := .next (s.furrowEn t k on)

/-- STOP of a live stream waits for the next tick. -/
def State.furrowStop (s : State) (t k : Nat) : State :=
  if s.streamState t k = 2 then s.setStream t k { s.stream t k with pendStop := true } else s

/-- A write of STOP. -/
def execFurrowStop (t k : Nat) (s : State) : Res := .next (s.furrowStop t k)

/-- Slice lines become undefined. -/
def State.loseLines (s : State) (t lo n : Nat) : State := s.loseRange (kSlice t (32 * lo)) (kSlice t (32 * (lo + n)))

/-- The landing line of line i of batch b (R220). -/
def Descr.landing (d : Descr) (b i : Nat) : Nat := d.base + b % d.slots * d.batch + i

/-- The source address of a chunk (R220). -/
def Descr.source (d : Descr) (b c : Nat) : Nat := ((d.src : Int) + (d.index b c : Int) * d.stride).toNat

/-- The source address of line i of batch b. -/
def Descr.lineSource (d : Descr) (b i : Nat) : Nat := d.source b (i / (d.chunk / 32)) + 32 * (i % (d.chunk / 32))

/-- 32 bytes at a source address of a stream of tile t; none where the access fails. -/
def State.sourceLine (s : State) (t : Nat) (d : Descr) (a : Nat) : Option (List Byte) :=
  if d.space = 0 then (if s.hbmFrom t a then s.readHbm a 32 else none)
  else if s.tileUp (d.src / 2 ^ 24) ∧ s.tilesMeet t (d.src / 2 ^ 24) ∧ a % 2 ^ 24 + 32 ≤ 32 * s.sliceLines (d.src / 2 ^ 24) then
    some (s.readB (kSlice (d.src / 2 ^ 24) (a % 2 ^ 24)) 32)
  else none

/-! ## Acceptance (R221, R229) -/

/-- The source chunks all lie in their space, and the tile works or the peer is a member. -/
def State.sourceOk (s : State) (d : Descr) : Bool :=
  let ends : Int := ((d.count * d.per : Nat) : Int) - 1
  let lo : Int := min 0 (ends * d.stride)
  let hi : Int := max 0 (ends * d.stride) + d.chunk
  match d.space with
  | 0 => decide (0 ≤ (d.src : Int) + lo) && decide ((d.src : Int) + hi ≤ s.hbmBytes)
  | 1 =>
    let u := d.src / 2 ^ 24
    let o : Int := (d.src % 2 ^ 24 : Nat)
    decide (u < 256) && s.tileUp u && decide (0 ≤ o + lo) && decide (o + hi ≤ 32 * s.sliceLines u)
  | _ => bitN (s.rg Rg.beat_MEMBER (d.peer / 32)) (d.peer % 32) && decide (0 ≤ (d.src : Int) + lo)
      && decide ((d.src : Int) + hi ≤ 192 * pcBytes)

/-- The error with which a stream that is being enabled is refused, 0 for none; the lowest of several (R229). -/
def State.enError (s : State) (t k n : Nat) : Nat :=
  let d := s.descr t k
  let clash (j : Nat) : Bool :=
    j != k && s.streamState t j == 2 && (let e := s.descr t j; decide (d.base < e.ringEnd ∧ e.base < d.ringEnd))
  if s.sliceLines t < d.ringEnd then 1
  else if (List.range 16).any clash then 2
  else if d.slots = 0 ∨ 16 < d.slots ∨ d.slots < d.lead + 1 ∨ d.space = 3 ∨ (d.space = 2 ∧ 6 ≤ d.vc) ∨ d.chunk = 0 ∨ d.chunk % 32 ≠ 0
      ∨ d.stride % 32 ≠ 0 ∨ d.per = 0 ∨ d.count = 0 then 3
  else if !s.sourceOk d then 4
  else if d.start < n then 7
  else 0

/-! ## Ticks (R222-R225, R227) -/

/-- Lines of a batch that have landed. -/
def Stream.count (x : Stream) (b : Nat) : Nat := x.landed.countP (fun e => e.1 == b)

/-- DELIVERED, BATCH and LATE for beat n (R224, R225). `late` says that the tick starts an attempt of the beat. -/
def State.furrowShow (s : State) (t k n : Nat) (late : Bool) : State :=
  let i := 16 * t + k
  let d := s.descr t k
  let x := s.stream t k
  if n < d.start then s.setRg Rg.tile_DELIVERED i 0
  else
    let b := n - d.start
    let s := (s.setRg Rg.tile_DELIVERED i (x.count b)).setRg Rg.tile_BATCH i b
    if late && decide (x.count b < d.batch) && x.lateAt != some n then
      (s.satRg Rg.tile_LATE i 1).setStream t k { x with lateAt := some n }
    else s

/-- The lines of a batch that have not landed stay undefined: what the slot held before is gone (R225). -/
def State.loseMissing (s : State) (t k b : Nat) : State :=
  let d := s.descr t k
  let x := s.stream t k
  ((List.range d.batch).filter (fun i => !x.landed.any (fun e => e.1 == b && e.2.1 == i))).foldl
    (fun s i => s.loseLines t (d.landing b i) 1) s

/-- The landed lines of an open window whose source has been written since it opened are undefined (R226). -/
def State.loseWritten (s : State) (t k : Nat) : State :=
  let d := s.descr t k
  (s.stream t k).source.foldl (fun s w =>
    (List.range d.batch).foldl (fun s i =>
      if (s.stream t k).landed.any (fun e => e.1 == w.1 && e.2.1 == i)
          && decide (w.2.getD i none ≠ s.sourceLine t d (d.lineSource w.1 i)) then
        s.loseLines t (d.landing w.1 i) 1
      else s) s) s

/-- The delivery windows that are open in beat n: the source of each is noted when it opens (R223, R226). A peer's HBM is not seen
from here. -/
def State.openWindows (s : State) (t k n : Nat) : State :=
  let d := s.descr t k
  let x := s.stream t k
  if d.space = 2 then s
  else
    let due := ((List.range (d.lead + 1)).map (fun j => n + j - d.start)).filter (fun b =>
      decide (max (d.start + b - d.lead) x.since ≤ n) && decide (n ≤ d.start + b) && (d.cyclic || decide (b < d.count))
        && !x.source.any (fun w => w.1 == b))
    s.setStream t k { x with source := x.source ++ due.eraseDups.map (fun b =>
      (b, (List.range d.batch).map (fun i => s.sourceLine t d (d.lineSource b i)))) }

/-- One stream at a START, COMMIT or RESTART tick that starts beat n. `closed` is the beat that a COMMIT tick closes. -/
def State.furrowTick (s : State) (n : Nat) (closed : Option Nat) (t k : Nat) : State :=
  let i := 16 * t + k
  let d := s.descr t k
  let x := s.stream t k
  match s.streamState t k with
  | 1 =>
    let e := s.enError t k n
    if e ≠ 0 then s.streamErr t k e
    else ((((s.setRg Rg.tile_STATE i 2).setStream t k { since := n }).loseLines t d.base (d.slots * d.batch)).openWindows t k n).furrowShow
      t k n true
  | 2 =>
    let ended : Bool := match closed with
      | some c => !d.cyclic && decide (d.start + d.count ≤ c + 1)
      | none => false
    let s := s.loseWritten t k
    let s := match closed with
      | some c => if d.start ≤ c then s.loseMissing t k (c - d.start) else s
      | none => s
    if x.pendOff then (((s.setRg Rg.tile_STATE i 0).setRg Rg.tile_DELIVERED i 0).setStream t k {}).loseLines t d.base (d.slots * d.batch)
    else if x.pendStop then
      (((s.setRg Rg.tile_STATE i 3).setRg Rg.tile_DELIVERED i 0).setStream t k {}).loseLines t d.base (d.slots * d.batch)
    else if ended then ((s.setRg Rg.tile_STATE i 3).setRg Rg.tile_DELIVERED i 0).setStream t k {}
    else
      let x := match closed with
        | some c => { x with
            source := x.source.filter (fun e => decide (c < d.start + e.1)),
            flight := x.flight.filter (fun e => decide (c < d.start + e.1)),
            resp := x.resp.filter (fun e => decide (c < d.start + e.1)),
            landed := (x.landed.filter (fun e => decide (c < d.start + e.1))).map (fun e => (e.1, e.2.1, false)) }
        | none => x
      ((s.setStream t k x).openWindows t k n).furrowShow t k n true
  | _ => s

/-- One stream at an ABORT tick of beat n (R227). -/
def State.furrowAbort (s : State) (n t k : Nat) : State :=
  if s.streamState t k = 2 then
    let x := s.stream t k
    (s.setStream t k { x with flight := [], resp := [], landed := x.landed.filter (fun e => !e.2.2) }).furrowShow t k n false
  else s

/-! ## Delivery (R223, R224, R229) -/

/-- Streams deliver while beats run. -/
def State.delivering (s : State) : Bool := s.dom.ticking && !s.dom.aborted

/-- Batch b of stream k may be delivered in beat n. -/
def State.eligible (s : State) (t k b n : Nat) : Bool :=
  let d := s.descr t k
  s.streamState t k == 2 && decide (max (d.start + b - d.lead) (s.stream t k).since ≤ n) && decide (n ≤ d.start + b)
    && (d.cyclic || decide (b < d.count))

/-- The next chunk of a batch that has neither landed nor been requested. -/
def State.nextChunk (s : State) (t k b : Nat) : Option Nat :=
  let d := s.descr t k
  let x := s.stream t k
  let per := d.chunk / 32
  (List.range d.per).find? (fun c =>
    !x.flight.contains (b, c) &&
      decide (x.landed.countP (fun e => e.1 == b && e.2.1 / per == c) < per))

/-- The prefetcher's next request: stream, batch and chunk, in order of consumption beat, the lower stream first. -/
def State.nextRequest (s : State) (t pf : Nat) : Option (Nat × Nat × Nat) :=
  let n := s.rg Rg.beat_BEATNO
  (List.range 16).findSome? (fun ahead =>
    (List.range 8).findSome? (fun j =>
      let k := 8 * pf + j
      let d := s.descr t k
      if n + ahead < d.start then none
      else
        let b := n + ahead - d.start
        if s.eligible t k b n then (s.nextChunk t k b).map (fun c => (k, b, c)) else none))

/-- A chunk of a peer's HBM is read over the stream's beat connection; XLATE follows XLATE_EN (R281, R290; log entry 19). -/
def State.peerRead (s : State) (t k b c : Nat) : State :=
  let d := s.descr t k
  let a := d.source b c
  let half := (hbmMap (s.rg Rg.hbm_MODE_CUR) s.pcs a).1 / 3
  let cn := beatCn d.peer half d.vc
  let key := connKey (t / 128) cn
  let s := s.setConn key { s.conn key with peer := d.peer, engine := half, vc := d.vc }
  s.dvStart (t / 128) cn true (s.flag Rg.dvorar_XLATE_EN) 1 a d.chunk [] none (.chunk t k b c)

/-- A prefetcher issues its next chunk request (R223). -/
def execFurrowRequestIssue (t pf : Nat) (s : State) : Res :=
  if s.delivering && s.tileUp t then
    match s.nextRequest t pf with
    | none => .next s
    | some (k, b, c) =>
      let x := s.stream t k
      let s := s.setStream t k { x with flight := x.flight ++ [(b, c)] }
      .next (if (s.descr t k).space = 2 then s.peerRead t k b c else s)
  else .next s

/-- Line i of batch b lands, or its access fails: `res` 0 lands, 1 fails under R206. A line of a peer's HBM lands once its
response has come. Where its source has been written since the delivery window opened, the landed bytes are undefined (R226). -/
def execFurrowLineLand (t k b i res : Nat) (s : State) : Res :=
  let d := s.descr t k
  let x := s.stream t k
  let per := d.chunk / 32
  let c := i / per
  if s.streamState t k = 2 ∧ x.flight.contains (b, c) = true ∧ x.landed.any (fun e => e.1 == b && e.2.1 == i) = false then
    let come := (x.resp.find? (fun e => e.1 == b && e.2.1 == i)).map (fun e => e.2.2)
    let bytes : Option (List Byte) :=
      if res ≠ 0 then none else if d.space = 2 then come else s.sourceLine t d (d.lineSource b i)
    match bytes with
    | none =>
      if d.space = 2 ∧ res = 0 then .next s else .next ((s.streamErr t k 5).detect (.streamError t k 5))
    | some bs =>
      let landed := x.landed ++ [(b, i, true)]
      let full := decide (landed.countP (fun e => e.1 == b && e.2.1 / per == c) = per)
      let fresh := d.space == 2 || x.source.any (fun w => w.1 == b && decide (w.2.getD i none = some bs))
      let s := if fresh then s.writeB (kSlice t (32 * d.landing b i)) bs else s.loseLines t (d.landing b i) 1
      let s := s.setStream t k { x with
        landed := landed, resp := x.resp.filter (fun e => !(e.1 == b && e.2.1 == i)),
        flight := if full then x.flight.filter (fun e => e != (b, c)) else x.flight }
      .next (s.furrowShow t k (s.rg Rg.beat_BEATNO) false)
  else .next s

end Sys2Proof.Machine
end

