-- ==== Sys2Proof/Machine/Cow.lean ====
section
/-!
DEFINITION. The cut buffer of a checkpoint, and the copy of a pending cutting before a write reaches it (R485, R486).
-/
namespace Sys2Proof.Machine

/-- Bytes that read as unspecified. -/
def State.freeBytes (s : State) (n : Nat) : List Byte := (List.range n).map (fun i => Config.freeByte s.freeCtr i)

/-- The first 2 MiB page of the landing slot that the running checkpoint uses, in the neighbour's HBM (R483, R496). -/
def State.landPage (s : State) : Nat := if s.mulch.slot = 0 then s.rg Rg.mulch_LAND_A else s.rg Rg.mulch_LAND_B

/-- The checkpoint has marked a cutting. -/
def Mulch.marked (m : Mulch) (c : Nat) : Bool := m.marks.any (fun r => decide (r.1 ≤ c) && decide (c < r.2))

/-- Cuttings that the cut buffer can hold. -/
def State.cutRoom (s : State) : Nat :=
  if s.rg Rg.mulch_CUT_LIM < s.rg Rg.mulch_CUT_BASE then 0 else 32 * (s.rg Rg.mulch_CUT_LIM + 1 - s.rg Rg.mulch_CUT_BASE)

/-- The lowest free slot of the cut buffer. -/
def State.cutSlot (s : State) : Option Nat :=
  ((List.range (s.mulch.buffer.length + 1)).find? (fun i => (s.mulch.buffer.get? i).isNone)).filter (fun i => decide (i < s.cutRoom))

/-- A cutting has been copied for both purposes. -/
def State.cutDone (s : State) (c : Nat) : State :=
  let m := s.mulch
  { s with mulch := { m with
    copied := if m.marked c then insertNat c m.copied else m.copied, digCopied := insertNat c m.digCopied,
    holding := m.holding.filter (fun x => x != c) } }

/-- The bytes of a cutting, from the cut buffer where it lies there. -/
def State.cutBytes (s : State) (c : Nat) : List Byte :=
  let a := match s.mulch.buffer.find? (fun (b : Nat × Nat) => b.2 == c) with
    | some b => s.rg Rg.mulch_CUT_BASE * 2 ^ 21 + b.1 * 65536
    | none => c * 65536
  (s.readHbm a 65536).getD (s.freeBytes 65536)

/-- A cutting goes to the neighbour's slot, named by its first page, with the address that it was cut from (log entry 72). -/
def State.sendCutting (s : State) (c : Nat) : State :=
  s.emit (.mulch 2 (s.rg Rg.mulch_MULCH_PEER) (leBytes 4 s.landPage ++ leBytes 8 (c * 65536) ++ s.cutBytes c))

/-- A pending cutting is copied at once, ahead of a write that the model makes within one command: into the cut buffer, or, where that
is full, straight to the neighbour. How long the write has waited, at most 0.64 µs, is free (R485, R486; log entry 147). -/
def State.copyCutting (s : State) (c : Nat) : State :=
  if !s.cutPending c then s
  else
    let m := s.mulch
    let mine := m.marked c && !m.copied.contains c
    let ns := s.free % 641
    let s := s.drawn
    let s := match s.cutSlot with
      | some i =>
        let t := s.writeHbm (s.rg Rg.mulch_CUT_BASE * 2 ^ 21 + i * 65536) ((s.readHbm (c * 65536) 65536).getD (s.freeBytes 65536))
        if mine then { t with mulch := { m with buffer := m.buffer.put i c } } else t
      | none => if mine then (s.sendCutting c).incRg Rg.mulch_MCNT 5 1 else s.incRg Rg.mulch_MCNT 5 1
    ((s.cutDone c).incRg Rg.mulch_MCNT 4 1).incRg Rg.mulch_COW_STALL_NS 0 ns

/-- Every pending cutting of a range of HBM is copied before a write (R485). -/
def State.copyFirst (s : State) (a n : Nat) : State :=
  if !s.cowHeld a n then s
  else (List.range ((a % 65536 + n + 65535) / 65536)).foldl (fun s i => s.copyCutting (a / 65536 + i)) s

end Sys2Proof.Machine
end

