-- ==== Sys2Proof/Machine/Ring.lean ====
section
/-!
DEFINITION. Rings: descriptors and their records, posted buffers, and the memory that a descriptor names (R363-R368, R376).
-/
namespace Sys2Proof.Machine

/-! ## Plots and rings -/

/-- The state of a function as a plot; the manager is in service (R364). -/
def State.plotState (s : State) (fn : Nat) : Nat := s.rg Rg.host_PLOT_STATE fn

/-- A plot's state changes, in both of its registers (R394, R395). -/
def State.setPlot (s : State) (fn st : Nat) : State :=
  if fn = 0 then s else (s.setRg Rg.host_PLOT_STATE fn st).setRg Rg.plotStat_PLOT_STATE fn st

/-- A ring. -/
def State.ring (s : State) (fn r : Nat) : Option Ring := s.host.rings.get? (fnKey fn r)

/-- F, U, RSTATE and RERR of a ring (R394, R395). -/
def State.showRing (s : State) (fn r : Nat) : State :=
  let g := s.ring fn r
  let f := (g.map (fun (x : Ring) => x.f)).getD 0
  let u := (g.map (fun (x : Ring) => x.u)).getD 0
  let e := (g.map (fun (x : Ring) => x.err)).getD 0
  let latched := fn != 0 && [2, 3, 4].contains (s.plotState fn)
  let st := if g.isNone then 0 else if e ≠ 0 then 2 else if latched then 3 else 1
  let s := s.setFn Rg.host_F Rg.plotStat_F fn r 32 f
  let s := s.setFn Rg.host_U Rg.plotStat_U fn r 32 u
  (s.setFn Rg.host_RSTATE Rg.plotStat_RSTATE fn r 32 st).setFn Rg.host_RERR Rg.plotStat_RERR fn r 32 e

/-- A ring is replaced. -/
def State.setRing (s : State) (fn r : Nat) (g : Ring) : State :=
  { s with host := { s.host with rings := s.host.rings.put (fnKey fn r) g } }.showRing fn r

/-- Rings that a function may have (R362). -/
def ringCount (fn : Nat) : Nat := if fn = 0 then 64 else 32

/-- Event queues that a function may have. -/
def eqCount (fn : Nat) : Nat := if fn = 0 then 16 else 4

/-- Vectors that a function has. -/
def vecCount (fn : Nat) : Nat := if fn = 0 then 64 else 8

/-- A function in service: the manager while no FLR of PF0 runs, a plot that is READY. -/
def State.fnReady (s : State) (fn : Nat) : Bool :=
  s.hostUp && (if fn = 0 then (s.host.quiesce.get? 0).isNone else decide (fn < 128) && s.plotState fn == 1)

/-- A ring error: it raises one event to the ring's event queue (R369, R377). -/
def State.ringError (s : State) (fn r code pi : Nat) : State :=
  match s.ring fn r with
  | none => s
  | some g =>
    if g.err ≠ 0 then s
    else ((s.setRing fn r { g with err := code, bell := none }).sqRaise Rg.host_RING_ERR Rg.host_RING_ERR_SEQ 0 1).record fn g.eq fn
      0x0010 (r + code * 2 ^ 8 + g.f * 2 ^ 16 + pi * 2 ^ 32)

/-! ## Descriptors -/

/-- A descriptor of a ring. -/
def Ring.desc (g : Ring) (i : Nat) : Option Desc := g.descs.find? (fun d => d.idx == i)

/-- A descriptor is replaced. -/
def Ring.setDesc (g : Ring) (d : Desc) : Ring := { g with descs := g.descs.map (fun x => if x.idx = d.idx then d else x) }

/-- A descriptor of a function's ring is replaced. -/
def State.setDesc (s : State) (fn r : Nat) (d : Desc) : State :=
  match s.ring fn r with
  | none => s
  | some g => s.setRing fn r (g.setDesc d)

/-- The payload of a completion record (R376). -/
def donePay (kind idx ring state cause tag bytes : Nat) : Nat :=
  idx + ring * 2 ^ 16 + state * 2 ^ 22 + cause * 2 ^ 24 + (if kind = 1 then 0 else tag * 2 ^ 32) + bytes * 2 ^ 64

/-- A descriptor's work has ended with STATE, CAUSE and DONE_BYTES. -/
def State.endDesc (s : State) (fn r idx state cause bytes : Nat) : State :=
  match s.ring fn r with
  | none => s
  | some g =>
    match g.desc idx with
    | none => s
    | some d =>
      if d.fin.isSome then s
      else
        let ty := if g.kind = 1 then 0x0002 else 0x0001
        s.setRing fn r (g.setDesc { d with
          started := true, fin := some (ty, donePay g.kind idx r state cause (fieldAt d.bytes 4 4) bytes) })

/-- The oldest descriptor of a ring whose work has not started: descriptors start in ring order (R365). -/
def Ring.nextDesc (g : Ring) : Option Desc := g.descs.find? (fun d => !d.started)

/-- The next descriptor to start on a ring of the kind, and it is now started; what it holds is judged by the caller. -/
def State.startDesc (s : State) (fn r kind op : Nat) : Option (State × Desc) :=
  match s.ring fn r with
  | none => none
  | some g =>
    if g.kind ≠ kind then none
    else match g.nextDesc with
      | none => none
      | some d =>
        if fieldAt d.bytes 0 1 = op then some (s.setRing fn r (g.setDesc { d with started := true }), { d with started := true })
        else none

/-- Every byte outside the named fields (offset, bytes) is zero; byte 0 and the TAG are always named (R366). -/
def zeroBytes (bs : List Byte) (fields : List (Nat × Nat)) : Bool :=
  (List.range bs.length).all (fun i =>
    i == 0 || (decide (4 ≤ i) && decide (i < 8)) || fields.any (fun f => decide (f.1 ≤ i) && decide (i < f.1 + f.2))
      || fieldAt bs i 1 == 0)

/-! ## The memory that a descriptor names (R363) -/

/-- Grants laid end to end: the HBM spans of a range of the grant space. -/
def grantSpans : List (Nat × Nat) → Nat → Nat → Option (List (Nat × Nat))
  | [], _, n => if n = 0 then some [] else none
  | (b, l) :: t, a, n =>
    if n = 0 then some []
    else if l ≤ a then grantSpans t (a - l) n
    else
      let m := min n (l - a)
      (grantSpans t 0 (n - m)).map (fun r => (b + a, m) :: r)

/-- A plot's grants in index order. -/
def State.grantsOf (s : State) (fn : Nat) : List (Nat × Nat) :=
  (List.range 8).filterMap (fun i => s.host.grants.get? (8 * fn + i))

/-- The space and the spans of a range that a descriptor of a function names; none where it is refused under cause 12. -/
def State.localSpans (s : State) (fn aspace addr n : Nat) : Option (List (Nat × Nat)) :=
  match aspace with
  | 0 => some [(addr, n)]
  | 1 =>
    if fn = 0 then (if addr + n ≤ s.hbmBytes then some [(addr, n)] else none)
    else grantSpans (s.grantsOf fn) addr n
  | 2 =>
    if fn = 0 ∧ addr < 2 ^ 32 ∧ s.tileUp (addr / 2 ^ 24) = true ∧ addr % 2 ^ 24 + n ≤ 32 * s.sliceLines (addr / 2 ^ 24) then
      some [(addr, n)] else none
  | 3 => if fn = 0 ∧ addr + n ≤ 96 * 2 ^ 20 then some [(addr, n)] else none
  | _ => none

/-- Bytes of one span, as they have committed (R83); host memory is read by the command that brings its bytes. -/
def State.readSpan (s : State) (aspace a n : Nat) : Option (List Byte) :=
  match aspace with
  | 1 => s.committedHbm a n
  | 2 => some (s.committedSlice (a / 2 ^ 24) (a % 2 ^ 24) n)
  | 3 => some (s.readB (kHub a) n)
  | _ => none

/-- Bytes that a descriptor's range holds: those that DMA has read, for host memory. -/
def State.localRead (s : State) (fn aspace addr n : Nat) (dma : List Byte) : Option (List Byte) :=
  if aspace = 0 then some ((dma ++ List.replicate n 0).take n)
  else match s.localSpans fn aspace addr n with
    | none => none
    | some sp => sp.foldl (fun (a : Option (List Byte)) x =>
        match a, s.readSpan aspace x.1 x.2 with
        | some l, some m => some (l ++ m)
        | _, _ => none) (some [])

/-- One span is written, in HBM behind the copy of a cutting that it reaches (R485). -/
def State.writeSpan (s : State) (fn aspace a : Nat) (bs : List Byte) : State :=
  match aspace with
  | 0 => s.hostWrite fn a bs
  | 1 => (s.copyFirst a bs.length).writeHbm a bs
  | 2 => s.writeB (kSlice (a / 2 ^ 24) (a % 2 ^ 24)) bs
  | _ => s.writeHub a bs

/-- Bytes are written to a descriptor's range. -/
def State.localWrite (s : State) (fn aspace addr : Nat) (bs : List Byte) : State :=
  match s.localSpans fn aspace addr bs.length with
  | none => s
  | some sp => (sp.foldl (fun (a : State × List Byte) x =>
      (a.1.writeSpan fn aspace x.1 (a.2.take x.2), a.2.drop x.2)) (s, bs)).1

/-! ## Posted buffers (R366, R367, R379) -/

/-- The head buffer of an RX ring of a function in service, one that no SEND has begun to fill, while its event queue can hold the record (R373). -/
def State.headBuffer (s : State) (fn r : Nat) : Option (Ring × Desc) :=
  match s.ring fn r with
  | none => none
  | some g =>
    let full := match s.host.eqs.get? (fnKey fn g.eq) with
      | some e => decide (64 ≤ e.hold.length)
      | none => true
    if g.kind ≠ 1 ∨ full = true ∨ s.fnReady fn = false then none
    else (g.descs.find? (fun d => d.started && d.fin.isNone && d.done == 0)).map (fun d => (g, d))

/-- LENGTH of the head buffer. -/
def State.bufferRoom (s : State) (fn r : Nat) : Option Nat := (s.headBuffer fn r).map (fun x => fieldAt x.2.bytes 24 4)

/-- The head buffer takes bytes: a receive completion with SRC, META and the payload's further bits (R376). -/
def State.fillBuffer (s : State) (fn r : Nat) (bs : List Byte) (src meta_ more : Nat) : Option State :=
  match s.headBuffer fn r with
  | none => none
  | some (g, d) =>
    if fieldAt d.bytes 24 4 < bs.length then none
    else
      let pay := d.idx + r * 2 ^ 16 + src * 2 ^ 30 + meta_ % 2 ^ 32 * 2 ^ 32 + bs.length * 2 ^ 64 + more
      let s := s.setRing fn r (g.setDesc { d with fin := some (0x0002, pay), done := bs.length })
      some (s.localWrite fn (fieldAt d.bytes 8 1) (fieldAt d.bytes 16 8) bs)

end Sys2Proof.Machine
end

