-- ==== Sys2Proof/Machine/Num.lean ====
section
/-!
DEFINITION. Number formats and the one rounding of every conversion (R122-R133).
-/
namespace Sys2Proof.Machine

/-- How a format uses its top exponent code (R122). -/
inductive Special where
  /-- Infinities and NaNs as in IEEE 754. -/
  | ieee
  /-- One NaN magnitude, all ones, and no infinity. -/
  | nanOnly
  /-- Neither. -/
  | none
deriving DecidableEq, Repr

/-- A floating-point format: exponent and fraction bits, bias, special codes (R122). -/
structure Fmt where
  eb : Nat
  fb : Nat
  bias : Nat
  special : Special
deriving DecidableEq, Repr

def fmtE2M1 : Fmt := ⟨2, 1, 1, .none⟩
def fmtE2M3 : Fmt := ⟨2, 3, 1, .none⟩
def fmtE3M2 : Fmt := ⟨3, 2, 3, .none⟩
def fmtE4M3 : Fmt := ⟨4, 3, 7, .nanOnly⟩
def fmtE5M2 : Fmt := ⟨5, 2, 15, .ieee⟩
def fmtBF16 : Fmt := ⟨8, 7, 127, .ieee⟩
def fmtB16 : Fmt := ⟨5, 10, 15, .ieee⟩
def fmtB32 : Fmt := ⟨8, 23, 127, .ieee⟩
def fmtF36 : Fmt := ⟨8, 27, 127, .ieee⟩

/-- The width of a format in bits. -/
def Fmt.width (f : Fmt) : Nat := 1 + f.eb + f.fb
/-- EMIN: the exponent of subnormal values (R122). -/
def Fmt.emin (f : Fmt) : Int := 1 - (f.bias : Int)
/-- EMAX: the largest exponent of a finite value (R122). -/
def Fmt.emax (f : Fmt) : Int :=
  (2 ^ f.eb : Int) - 1 - f.bias - (match f.special with | .ieee => 1 | .nanOnly => 0 | .none => 0)
/-- The magnitude code of the largest finite value (R122). -/
def Fmt.maxCode (f : Fmt) : Nat :=
  match f.special with
  | .ieee => (2 ^ f.eb - 1) * 2 ^ f.fb - 1
  | .nanOnly => 2 ^ (f.eb + f.fb) - 2
  | .none => 2 ^ (f.eb + f.fb) - 1
/-- The magnitude code of infinity, for a format that has one. -/
def Fmt.infCode (f : Fmt) : Nat := (2 ^ f.eb - 1) * 2 ^ f.fb
/-- The canonical NaN (R129). -/
def Fmt.nanCode (f : Fmt) : Nat :=
  match f.special with
  | .ieee => f.infCode + 2 ^ (f.fb - 1)
  | .nanOnly | .none => 2 ^ (f.eb + f.fb) - 1

/-- The value of an element: special, or ±m·2^e with the exponent E that R137 gives the term. -/
inductive Val where
  | nan
  | inf (neg : Bool)
  | num (neg : Bool) (m : Nat) (e E : Int)
deriving DecidableEq, Repr

/-- A zero. -/
def Val.zero (neg : Bool) : Val := .num neg 0 0 0

/-- The value of an encoding (R122, R123). -/
def Fmt.decode (f : Fmt) (code : Nat) : Val :=
  let neg := bitN code (f.eb + f.fb)
  let x := bits code f.fb f.eb
  let fr := bits code 0 f.fb
  let fin : Val :=
    if x = 0 then .num neg fr (f.emin - f.fb) f.emin
    else .num neg (2 ^ f.fb + fr) ((x : Int) - f.bias - f.fb) ((x : Int) - f.bias)
  match f.special with
  | .ieee => if x = 2 ^ f.eb - 1 then (if fr = 0 then .inf neg else .nan) else fin
  | .nanOnly => if x = 2 ^ f.eb - 1 ∧ fr = 2 ^ f.fb - 1 then .nan else fin
  | .none => fin

/-- MXINT8: i·2^-6, E 1 (R124). -/
def decodeInt8 (code : Nat) : Val := .num (decide (sext 8 code < 0)) (sext 8 code).natAbs (-6) 1

/-- A value times 2^s; its E moves with it (R125, R137). -/
def Val.scale (v : Val) (s : Int) : Val :=
  match v with
  | .num n m e E => .num n m (e + s) (E + s)
  | v => v

/-- m / 2^k rounded to nearest, ties to even. -/
def rne (m k : Nat) : Nat :=
  let q := m / 2 ^ k
  let r := m % 2 ^ k
  if 2 * r > 2 ^ k ∨ (2 * r = 2 ^ k ∧ q % 2 = 1) then q + 1 else q

/-- A magnitude m·2^e rounded once on the grid of a format, unbounded above: the significand, the exponent of its unit,
and whether the rounding was inexact (R130). -/
def roundMag (fb : Nat) (emin : Int) (m : Nat) (e : Int) : Nat × Int × Bool :=
  if m = 0 then (0, emin - fb, false)
  else
    let top : Int := (Nat.log2 m : Int) + e
    let q : Int := max (top - fb) (emin - fb)
    if q ≤ e then (m * 2 ^ (e - q).toNat, q, false)
    else
      let k := (q - e).toNat
      (rne m k, q, m % 2 ^ k != 0)

/-- What one rounding gives: a magnitude code, or an overflow, with inexactness (R130). -/
structure Rounded where
  code : Nat
  ofl : Bool
  inexact : Bool
deriving DecidableEq, Repr

/-- A magnitude rounded once into a format (R130). -/
def Fmt.round (f : Fmt) (m : Nat) (e : Int) : Rounded :=
  let r := roundMag f.fb f.emin m e
  let sig := r.1
  let q := r.2.1
  let sig' := if sig = 2 ^ (f.fb + 1) then 2 ^ f.fb else sig
  let q' := if sig = 2 ^ (f.fb + 1) then q + 1 else q
  let code := if sig' < 2 ^ f.fb then sig' else (q' + f.fb + f.bias).toNat * 2 ^ f.fb + (sig' - 2 ^ f.fb)
  { code := code, ofl := decide (f.maxCode < code), inexact := r.2.2 }

/-- The sign bit of a format in place. -/
def Fmt.signed (f : Fmt) (neg : Bool) (code : Nat) : Nat := ofBool neg * 2 ^ (f.eb + f.fb) + code

/-- A value converted once into a format: overflow gives infinity, or the largest finite value under `sat` and in a format
that has no infinity but where NaN stands for it (R130, R131). -/
def Fmt.encode (f : Fmt) (sat : Bool) (v : Val) : Nat :=
  match v with
  | .nan => f.nanCode
  | .inf n =>
    if sat then f.signed n f.maxCode
    else (match f.special with
      | .ieee => f.signed n f.infCode
      | _ => f.nanCode)
  | .num n m e _ =>
    let r := f.round m e
    if r.ofl then
      (if sat then f.signed n f.maxCode
       else match f.special with
        | .ieee => f.signed n f.infCode
        | _ => f.nanCode)
    else f.signed n r.code

/-! ## Row formats (R71) -/

/-- The element format of a row code, other than MXINT8 and AP-160 (R71). -/
def rowFmt (code : Nat) : Fmt :=
  match code with
  | 0 => fmtE2M1 | 1 => fmtE2M3 | 2 => fmtE3M2 | 3 => fmtE4M3 | 4 => fmtE5M2
  | 6 => fmtE4M3 | 7 => fmtE5M2 | 8 => fmtBF16 | 9 => fmtB16 | _ => fmtB32

/-- The width of an element of a row code in bits (R71, R127). -/
def rowWidth (code : Nat) : Nat :=
  match code with
  | 0 => 4 | 1 => 6 | 2 => 6 | 3 => 8 | 4 => 8 | 5 => 8 | 6 => 8 | 7 => 8 | 8 => 16 | 9 => 16 | 0xA => 32 | _ => 160

/-- Codes 0x0 to 0x5 are MX formats (R71). -/
def isMx (code : Nat) : Bool := decide (code < 6)

/-- The value of an element code of a row format, without its scale. -/
def rowDecode (fmt code : Nat) : Val := if fmt = 5 then decodeInt8 code else (rowFmt fmt).decode code

/-- An MX element under its E8M0 scale: the NaN scale makes it a NaN (R125). -/
def mxDecode (fmt code scale : Nat) : Val :=
  if scale = 0xFF then .nan else (rowDecode fmt code).scale ((scale : Int) - 127)

/-- Scalar element conversion into codes 0x6 to 0xA; SATURATE acts on 0x6 and 0x7 only (R131). -/
def rowEncode (fmt : Nat) (sat : Bool) (v : Val) : Nat :=
  (rowFmt fmt).encode (sat && (fmt == 6 || fmt == 7)) v

/-- A magnitude's ⌊log2⌋, for a nonzero value. -/
def Val.log2 : Val → Int
  | .num _ m e _ => (Nat.log2 m : Int) + e
  | _ => 0

/-- A nonzero finite value. -/
def Val.isNonzero : Val → Bool
  | .num _ m _ _ => m != 0
  | _ => false

/-- Whether a value is a NaN or an infinity. -/
def Val.isSpecial : Val → Bool
  | .num .. => false
  | _ => true

/-- A value is below another in magnitude; both finite. -/
def magLt (m1 : Nat) (e1 : Int) (m2 : Nat) (e2 : Int) : Bool :=
  let e := min e1 e2
  decide (m1 * 2 ^ (e1 - e).toNat < m2 * 2 ^ (e2 - e).toNat)

/-- EMAX of an MX element format, 0 for MXINT8 (R132). -/
def mxEmax (fmt : Nat) : Int := if fmt = 5 then 0 else (rowFmt fmt).emax

/-- One MX element of a block with scale exponent s, saturating (R132). -/
def mxElement (fmt : Nat) (s : Int) (v : Val) : Nat :=
  match v with
  | .num n m e _ =>
    if fmt = 5 then
      let k := e - s + 6
      let i := if 0 ≤ k then m * 2 ^ k.toNat else rne m (-k).toNat
      let i := min i 127
      (if n then (256 - i) % 256 else i)
    else
      let f := rowFmt fmt
      let r := f.round m (e - s)
      f.signed n (if r.ofl then f.maxCode else r.code)
  | _ => 0

/-- 32 values encoded as one MX block: the scale code and the element codes (R132). -/
def mxEncode (fmt : Nat) (xs : List Val) : Nat × List Nat :=
  if xs.any Val.isSpecial then (0xFF, xs.map (fun _ => 0))
  else
    let ls := (xs.filter Val.isNonzero).map Val.log2
    match ls with
    | [] => (0, xs.map (mxElement fmt (-127)))
    | l :: t =>
      let top := t.foldl max l
      let s := max (-127) (min 127 (top - mxEmax fmt))
      ((s + 127).toNat, xs.map (mxElement fmt s))

end Sys2Proof.Machine
end

