-- ==== Sys2Proof/Machine/ASum.lean ====
section
/-!
DEFINITION. Anchored sums and AP-160 partials (R137-R149).
-/
namespace Sys2Proof.Machine

/-- A sum on its anchor: `anchor` none is EMPTY, `v` the 128-bit window, `count` the term bound (R138-R140, R145). -/
structure ASum where
  anchor : Option Int := none
  v : Int := 0
  count : Nat := 0
  nan : Bool := false
  pinf : Bool := false
  ninf : Bool := false
  raised : Bool := false
deriving DecidableEq, Repr

/-- The window modulo 2^128, two's complement (R138). -/
def wrap128 (x : Int) : Int := sext 128 (wrap 128 x)

/-- The product of two elements as a term (R137, R140). -/
def Val.mul (a b : Val) : Val :=
  match a, b with
  | .nan, _ | _, .nan => .nan
  | .inf _, .num _ 0 _ _ | .num _ 0 _ _, .inf _ => .nan
  | .inf x, .inf y | .inf x, .num y _ _ _ | .num x _ _ _, .inf y => .inf (x != y)
  | .num x m1 e1 E1, .num y m2 e2 E2 => .num (x != y) (m1 * m2) (e1 + e2) (E1 + E2)

/-- The exponent a finite nonzero term has (R137). -/
def Val.termExp : Val → Option Int
  | .num _ m _ E => if m = 0 then none else some E
  | _ => none

/-- The larger of two anchors, EMPTY being the smallest (R146). -/
def anchorMax : Option Int → Option Int → Option Int
  | none, b => b
  | a, none => a
  | some a, some b => some (max a b)

/-- A term truncated toward zero on the grid of anchor `a` (R138). -/
def Val.onGrid (a : Int) : Val → Int
  | .num n m e _ =>
    let k := e - (a - 99)
    let t : Nat := if 0 ≤ k then m * 2 ^ k.toNat else m / 2 ^ (-k).toNat
    if n then -(t : Int) else t
  | _ => 0

/-- A window value aligned from its anchor to a higher one (R147). -/
def alignV (v a b : Int) : Int :=
  let k := (b - a).toNat
  if 128 ≤ k then 0 else if v < 0 then -((-v) / 2 ^ k) else v / 2 ^ k

/-- COUNT of two sums together (R139). -/
def addCount (a b : Nat) : Nat := min 4095 (a + b)

/-- A partial's window on anchor `a`. -/
def ASum.aligned (p : ASum) (a : Int) : Int :=
  match p.anchor with
  | none => 0
  | some b => alignV p.v b a

/-- A row of terms summed with an old partial, on the largest anchor among them (R138-R140, R147 ACC). -/
def asum (old : ASum) (terms : List Val) : ASum :=
  let a := terms.foldl (fun a t => anchorMax a t.termExp) old.anchor
  let n := addCount old.count ((terms.length + 16383) / 16384)
  let nan := old.nan || terms.any (fun t => decide (t = .nan))
  let pinf := old.pinf || terms.any (fun t => decide (t = .inf false))
  let ninf := old.ninf || terms.any (fun t => decide (t = .inf true))
  match a with
  | none => { anchor := none, v := 0, count := n, nan := nan, pinf := pinf, ninf := ninf, raised := old.raised }
  | some g =>
    { anchor := some g, v := wrap128 (terms.foldl (fun s t => s + t.onGrid g) (old.aligned g)),
      count := n, nan := nan, pinf := pinf, ninf := ninf, raised := old.raised }

/-- What leaves the window before its rounding (R141). -/
def ASum.value (s : ASum) : Val :=
  if s.nan || (s.pinf && s.ninf) || s.count == 4095 then .nan
  else if s.pinf then .inf false
  else if s.ninf then .inf true
  else
    match s.anchor with
    | none => .zero false
    | some a => if s.v = 0 then .zero false else .num (decide (s.v < 0)) s.v.natAbs (a - 99) a

/-- The 20 bytes of a partial; VALUE is 0 with an EMPTY anchor (R145, R146). -/
def ASum.bytes (s : ASum) : List Byte :=
  leBytes 2 (match s.anchor with | none => 0x8000 | some a => wrap 16 a)
    ++ leBytes 16 (match s.anchor with | none => 0 | some _ => wrap 128 s.v)
    ++ leBytes 2 (s.count + ofBool s.nan * 2 ^ 12 + ofBool s.pinf * 2 ^ 13 + ofBool s.ninf * 2 ^ 14
      + ofBool s.raised * 2 ^ 15)

/-- An anchor in its 16-bit encoding (R145, R146). -/
def anchorOf (x : Nat) : Option Int := if x % 2 ^ 16 = 0x8000 then none else some (sext 16 x)

/-- The encoding of an anchor. -/
def anchorCode : Option Int → Nat
  | none => 0x8000
  | some a => wrap 16 a

/-- The partial that 20 bytes hold; EMPTY means zero whatever VALUE holds (R145, R146). -/
def ASum.ofBytes (b : List Byte) : ASum :=
  let x := leNat b
  let a := anchorOf (bits x 0 16)
  let f := bits x 144 16
  { anchor := a, v := (match a with | none => 0 | some _ => sext 128 (bits x 16 128)), count := f % 2 ^ 12,
    nan := bitN f 12, pinf := bitN f 13, ninf := bitN f 14, raised := bitN f 15 }

/-- VALUE_ADD: the destination partial, the agreed anchor and the arriving partial (R147). -/
def ASum.combine (d : ASum) (g : Option Int) (p : ASum) : ASum :=
  let h := anchorMax g (anchorMax d.anchor p.anchor)
  let c := addCount d.count p.count
  let nan := d.nan || p.nan
  let pinf := d.pinf || p.pinf
  let ninf := d.ninf || p.ninf
  match h with
  | none => { anchor := none, v := 0, count := c, nan := nan, pinf := pinf, ninf := ninf, raised := d.raised || p.raised }
  | some a =>
    let above := match g with
      | none => true
      | some b => decide (b < a)
    { anchor := some a, v := wrap128 (d.aligned a + p.aligned a), count := c, nan := nan, pinf := pinf, ninf := ninf,
      raised := d.raised || p.raised || above }

/-- A value as a partial of its own: anchor E, exact on its grid, COUNT 1 (R134). DESIGN CHOICE: a zero, a NaN or an infinity,
which has no E, gives an EMPTY anchor with VALUE 0 and COUNT 1 (log entry 125). -/
def ASum.ofVal (v : Val) : ASum :=
  match v with
  | .nan => { count := 1, nan := true }
  | .inf n => { count := 1, pinf := !n, ninf := n }
  | .num _ m _ E => if m = 0 then { count := 1 } else { anchor := some E, v := wrap128 (v.onGrid E), count := 1 }

end Sys2Proof.Machine
end

