-- ==== Sys2Proof/Machine/RowDec.lean ====
section
/-!
DEFINITION. The rows of a table as bit fields, and what ARM checks of a table (R62-R79, R102-R104, R128, R134, R266).
-/
namespace Sys2Proof.Machine

/-! ## Fields -/

/-- CLASS of a row (R70). -/
def rowClass (w : Nat) : Nat := bits w 0 4
/-- BARRIER of a row (R70). -/
def rowBarrier (w : Nat) : Bool := bitN w 4

/-- A matrix row (R72). -/
structure MatRow where
  acc : Bool
  ta : Bool
  tb : Bool
  af : Nat
  bf : Nat
  df : Nat
  sat : Bool
  a : Nat
  b : Nat
  d : Nat
  asA : Nat
  bsA : Nat
  dsA : Nat
  m : Nat
  n : Nat
  k : Nat
  aStr : Nat
  bStr : Nat
  dStr : Nat
deriving DecidableEq, Repr

def MatRow.of (w : Nat) : MatRow :=
  { acc := bitN w 5, ta := bitN w 6, tb := bitN w 7, af := bits w 8 4, bf := bits w 12 4, df := bits w 16 4,
    sat := bitN w 20, a := bits w 24 19, b := bits w 43 19, d := bits w 62 19, asA := bits w 81 19, bsA := bits w 100 19,
    m := bits w 120 16, n := bits w 136 16, k := bits w 152 16, aStr := bits w 168 16, bStr := bits w 184 16,
    dStr := bits w 200 16, dsA := bits w 216 19 }

/-- A vector row (R74). -/
structure VecRow where
  tli : Bool
  acc : Bool
  vop : Nat
  af : Nat
  bf : Nat
  df : Nat
  sat : Bool
  a : Nat
  b : Nat
  c : Nat
  d : Nat
  count : Nat
  aStr : Nat
  bStr : Nat
  dStr : Nat
  tbl : Nat
  imm : Nat
deriving DecidableEq, Repr

def VecRow.of (w : Nat) : VecRow :=
  { tli := bitN w 5, acc := bitN w 6, vop := bits w 8 8, af := bits w 16 4, bf := bits w 20 4, df := bits w 24 4,
    sat := bitN w 28, a := bits w 32 19, b := bits w 51 19, c := bits w 70 19, d := bits w 89 19, count := bits w 128 24,
    aStr := bits w 152 16, bStr := bits w 168 16, dStr := bits w 184 16, tbl := bits w 200 19, imm := bits w 220 36 }

/-- A move row (R75). -/
structure MoveRow where
  conv : Bool
  ss : Nat
  ds : Nat
  sf : Nat
  df : Nat
  sat : Bool
  sa : Nat
  da : Nat
  len : Nat
  lines : Nat
  sStr : Nat
  dStr : Nat
deriving DecidableEq, Repr

def MoveRow.of (w : Nat) : MoveRow :=
  { conv := bitN w 5, ss := bits w 8 2, ds := bits w 10 2, sf := bits w 16 4, df := bits w 20 4, sat := bitN w 24,
    sa := bits w 32 40, da := bits w 72 40, len := bits w 112 24, lines := bits w 136 16, sStr := bits w 152 32,
    dStr := bits w 184 32 }

/-- An exchange row (R76) or an anchor-exchange row (R78): op 0 bytes, 1 anchors, 2 partials; `len` counts bytes or entries. -/
structure XRow where
  vc : Nat
  tile : Nat
  mid : Nat
  ctr : Nat
  op : Nat
  sa : Nat
  da : Nat
  aa : Nat
  len : Nat
deriving DecidableEq, Repr

def XRow.ofExchange (w : Nat) : XRow :=
  { vc := bits w 5 3, tile := bits w 8 8, mid := bits w 16 8, ctr := bits w 24 4, op := 0, sa := bits w 32 19,
    da := bits w 51 19, aa := 0, len := bits w 70 24 }

def XRow.ofAnchor (w : Nat) : XRow :=
  { vc := bits w 5 3, tile := bits w 8 8, mid := bits w 16 8, ctr := bits w 24 4, op := 1 + bits w 28 2,
    sa := bits w 32 19, da := bits w 51 19, aa := bits w 70 19, len := bits w 89 16 }

/-- Bytes of an entry of an exchange: a byte, an anchor or a partial. -/
def XRow.unit (x : XRow) : Nat := match x.op with | 0 => 1 | 1 => 2 | _ => 20

/-! ## Shapes -/

/-- Bytes of `n` elements of a row format (R127). -/
def lineBytes (fmt n : Nat) : Nat := ceilDiv (n * rowWidth fmt) 8

/-- A line's distance in 32-byte units; a stride of 0 packs the lines (R73). -/
def pitch (stride bytes : Nat) : Nat := if stride = 0 then ceilDiv bytes 32 else stride

/-- VOP codes that exist (R103). -/
def vopKnown (v : Nat) : Bool :=
  decide (v ≤ 0x0C) || (decide (0x10 ≤ v) && decide (v ≤ 0x1A)) || (decide (0x20 ≤ v) && decide (v ≤ 0x24))

/-- VOPs marked transcendental (R103). -/
def vopTrans (v : Nat) : Bool := [0x10, 0x11, 0x14, 0x15, 0x16, 0x17, 0x18, 0x19, 0x1A].contains v

/-- VOPs that read B (R103). -/
def vopB (v : Nat) : Bool := [0x01, 0x02, 0x03, 0x04, 0x07, 0x08, 0x09, 0x0C, 0x21].contains v

/-- VOPs that read C (R103). -/
def vopC (v : Nat) : Bool := [0x04, 0x0C].contains v

/-- The reductions RSUM, RDOT and RSUMSQ (R103). -/
def vopSum (v : Nat) : Bool := [0x20, 0x21, 0x22].contains v

/-- Reductions, which write one element (R103). -/
def vopReduce (v : Nat) : Bool := vopSum v || v == 0x23

/-! ## What a row class forbids: ARM error 3 (R67) -/

/-- All the bit ranges are zero. -/
def zeroAt (w : Nat) (l : List (Nat × Nat)) : Bool := l.all (fun r => bits w r.1 r.2 == 0)

def matBad (w : Nat) : Bool :=
  let r := MatRow.of w
  !(zeroAt w [(21, 3), (119, 1), (235, 21)]
    && decide (r.af ≤ 9) && decide (r.bf ≤ 9) && (decide (r.df ≤ 0xA) || r.df == 0xC) && (!r.acc || r.df == 0xC)
    && decide (1 ≤ r.m ∧ r.m ≤ 4096 ∧ 1 ≤ r.n ∧ r.n ≤ 4096 ∧ 1 ≤ r.k)
    && (!(isMx r.af || isMx r.bf) || r.k % 32 == 0)
    && (!(r.ta && isMx r.af) || r.m % 32 == 0) && (!(r.tb && isMx r.bf) || r.n % 32 == 0)
    && (!isMx r.df || r.n % 32 == 0))

def vecBad (w : Nat) : Bool :=
  let r := VecRow.of w
  let plain (f : Nat) : Bool := decide (6 ≤ f ∧ f ≤ 0xA)
  !(zeroAt w [(7, 1), (29, 3), (108, 20), (219, 1)]
    && vopKnown r.vop && (!r.tli || vopTrans r.vop) && r.count != 0
    && (if r.vop = 0x24 then r.af == 0xC else plain r.af)
    && (!(vopB r.vop || vopC r.vop) || plain r.bf)
    && (plain r.df || (vopSum r.vop && r.df == 0xC))
    && (!r.acc || (vopSum r.vop && r.df == 0xC)))

/-- The address bits of a space (R75). -/
def spaceBits (sp : Nat) : Nat := match sp with | 0 => 24 | 1 => 32 | _ => 39

/-- Elements of a source line of a converting move (R134). -/
def MoveRow.elems (r : MoveRow) : Nat := r.len * 8 / rowWidth r.sf

/-- Bytes of a destination line in whole 32-byte units (R134). -/
def MoveRow.outBytes (r : MoveRow) : Nat :=
  if r.conv then ceilDiv (lineBytes r.df r.elems) 32 * 32 else r.len

def moveBad (w : Nat) : Bool :=
  let r := MoveRow.of w
  let fmtOk (f : Nat) : Bool := decide (f ≤ 0xA) || f == 0xC
  !(zeroAt w [(6, 2), (12, 4), (25, 7), (216, 40)]
    && r.ss != 3 && r.ds != 3 && r.sa / 2 ^ spaceBits r.ss == 0 && r.da / 2 ^ spaceBits r.ds == 0
    && r.sa % 32 == 0 && r.da % 32 == 0 && r.len % 32 == 0 && r.sStr % 32 == 0 && r.dStr % 32 == 0
    && r.len != 0 && r.lines != 0
    && (!r.conv || (fmtOk r.sf && fmtOk r.df && r.len * 8 % rowWidth r.sf == 0
        && (!isMx r.sf || r.elems % 32 == 0) && (!isMx r.df || r.elems % 32 == 0) && decide (r.outBytes ≤ r.dStr))))

def xchgBad (w : Nat) : Bool :=
  let r := XRow.ofExchange w
  !(zeroAt w [(28, 4), (94, 162)] && decide (r.vc < 6) && r.len != 0 && r.len % 32 == 0)

def anchorBad (w : Nat) : Bool :=
  let r := XRow.ofAnchor w
  !(zeroAt w [(30, 2), (105, 151)] && decide (r.vc < 6) && decide (r.op ≤ 2) && r.len != 0)

def waitBad (w : Nat) : Bool := !(zeroAt w [(5, 3), (16, 16), (64, 192)] && decide (bits w 8 4 ≤ 3))

def markBad (w : Nat) : Bool :=
  !(zeroAt w [(5, 3), (12, 4), (107, 149)] && decide (bits w 8 4 ≤ 2) && (bits w 8 4 != 1 || bits w 83 24 != 0))

/-- A row that takes ARM error 3. -/
def rowBad (w : Nat) : Bool :=
  match rowClass w with
  | 0 => matBad w | 1 => vecBad w | 2 => moveBad w | 3 => xchgBad w | 4 => waitBad w | 5 => anchorBad w | 6 => markBad w
  | _ => true

/-- A mark row of kind NOTE. -/
def isNote (w : Nat) : Bool := rowClass w == 6 && bits w 8 4 == 0

/-! ## ARM (R66, R67) -/

/-- The lines of a tile's slice space for ARM: the larger partition of the one in force and the one that is pending (R200). -/
def State.armLines (s : State) (t : Nat) : Nat :=
  let k := s.tile t
  2 ^ 19 - max (cacheLines k.cacheSize) (if k.cachePend then cacheLines (s.rg Rg.tile_SIZE t) else 0)

/-- A region lies inside its space. -/
def State.regionOk (s : State) (r : Region) : Bool :=
  if r.hbm then decide (32 * r.hi ≤ s.hbmBytes) else decide (r.hi ≤ s.armLines r.tile)

/-- A window of a table of tile t is wrong by itself: error 4. -/
def State.winBad (s : State) (t : Nat) (w : Win) : Bool :=
  w.space != 3 &&
    (w.size == 0
      || (w.space == 0 && decide (2 ^ 19 ≤ w.base)) || (w.space == 1 && decide (2 ^ 27 ≤ w.base))
      || (w.space == 1 && !s.tileEnabled (bits w.base 19 8))
      || !s.regionOk (w.region t))

/-- Two regions of a list share a line. -/
def anyMeet : List Region → Bool
  | [] => false
  | r :: t => t.any (fun q => r.meets q) || anyMeet t

/-- The slot of the NOTE row beyond the 64th. -/
def extraNote (rows : List (Nat × Nat)) : Option Nat := ((rows.filter (fun r => isNote r.2))[64]?).map (fun r => r.1)

/-- What ARM finds of the table in a bank: ARM_ERR and ERR_ROW, 0 and 0 for a good one (R67). The header is judged first,
then the windows, then the rows in slot order, then codes 5 and 6 (log entry 14). DESIGN CHOICE: where R67 names no row, ERR_ROW is
1, the slot of the windows, for a wrong or overlapping window and for code 5, and 0, the header's, for a wrong or overlapping
scratch region or commit log and for code 7 (log entry 126). -/
def State.armCheck (s : State) (t bank : Nat) : Nat × Nat :=
  let h := s.slotOf t bank 0
  let x := s.slotOf t bank 1
  let n := bits h 16 12
  let rows := (List.range n).map (fun i => (i + 2, s.slotOf t bank (i + 2)))
  let wins := ((List.range 4).map (winOf x)).filter (fun w => w.space != 3)
  let regs := wins.map (fun w => w.region t)
  let scr := (scratchOf h t :: []).filter (fun r => decide (r.lo < r.hi))
  let log := (logOf h t :: []).filter (fun r => decide (r.lo < r.hi))
  if bits h 0 4 ≠ 0xF ∨ bits h 4 4 ≠ 1 then (1, 0)
  else if 4094 < n then (2, 0)
  else if !zeroAt h [(8, 8), (28, 4), (99, 29), (166, 26)] then (3, 0)
  else if !zeroAt x [(61, 3), (125, 3), (189, 3), (253, 3)] then (3, 1)
  else if wins.any (s.winBad t) then (4, 1)
  else if (scr ++ log).any (fun r => !s.regionOk r) then (4, 0)
  else if anyMeet regs then (4, 1)
  else if anyMeet (regs ++ scr ++ log) then (4, 0)
  else
    match rows.find? (fun r => rowBad r.2) with
    | some r => (3, r.1)
    | none =>
      if bits h 83 16 < (wins.filter (fun w => w.logged)).foldl (fun a w => a + w.size) 0 then (5, 1)
      else match extraNote rows with
        | some slot => (6, slot)
        | none => (0, 0)

/-- ARM_ERR and ERR_ROW are set. -/
def State.armErr (s : State) (t code row : Nat) : State := (s.setRg Rg.seq_ARM_ERR t code).setRg Rg.seq_ERR_ROW t row

/-- A table error of code 8 to 11 stops the sequencer of tile t and goes to the fault manager (R67, R82). The report carries
RUN_TABLE_ID. DESIGN CHOICE: for code 9 too, where it names the table in the running bank and not the one refused (log entry
127). -/
def State.tableErr (s : State) (t code row : Nat) (sender : Option (Nat × Nat)) : State :=
  ((s.armErr t code row).setTile t { s.tile t with stopped := true }).detect
    (.tableError t (s.rg Rg.seq_RUN_TABLE_ID t) row code sender)

end Sys2Proof.Machine
end

