-- ==== Sys2Proof/Machine/F36.lean ====
section
/-!
DEFINITION. F36 arithmetic: one rounding to nearest even per result, with the sticky flags it raises (R126, R129, R136, R175, R176).
-/
namespace Sys2Proof.Machine

/-- The flags of one operation, in the order of cw bits [8:4]: INV, DIV0, OVF, UNF, INX (R157). -/
structure FFlags where
  inv : Bool := false
  div0 : Bool := false
  ovf : Bool := false
  unf : Bool := false
  inx : Bool := false
deriving DecidableEq, Repr

/-- The flags as bits of cw (R157). -/
def FFlags.word (f : FFlags) : Nat :=
  ofBool f.inv * 0x10 + ofBool f.div0 * 0x20 + ofBool f.ovf * 0x40 + ofBool f.unf * 0x80 + ofBool f.inx * 0x100

/-- The canonical NaN of F36 (R129). -/
def nan36 : Nat := 0x7FC000000

/-- The value of an F36 encoding. -/
def dec36 (c : Nat) : Val := fmtF36.decode c

/-- A signalling NaN in the sense of IEEE 754: a NaN whose leading fraction bit is 0 (R175; log entry 8). -/
def snan36 (c : Nat) : Bool := decide (dec36 c = .nan) && !bitN c 26

/-- A result is tiny: below the least normal value, seen before or after the rounding as the implementation has it
(IEEE 754 leaves the choice; log entry 9). -/
def tiny36 (m : Nat) (e : Int) : Bool :=
  let r := roundMag 27 (-1000) m e
  decide (m ≠ 0) &&
    (if Config.tinyAfter then decide ((Nat.log2 r.1 : Int) + r.2.1 < -126) else decide ((Nat.log2 m : Int) + e < -126))

/-- An exact finite value rounded once into F36, with its flags (R175). -/
def put36 (neg : Bool) (m : Nat) (e : Int) : Nat × FFlags :=
  let r := fmtF36.round m e
  if r.ofl then (fmtF36.signed neg fmtF36.infCode, { ovf := true, inx := true })
  else (fmtF36.signed neg r.code, { unf := r.inexact && tiny36 m e, inx := r.inexact })

/-- NaN results of an operation: an invalid one, or one with a NaN operand (R129, R175). -/
def nanRes (inv : Bool) : Nat × FFlags := (nan36, { inv := inv })

/-- The exact sum of two finite values; an exact zero is +0 unless both are negative zeros or negative (R175). -/
def addExact (n1 : Bool) (m1 : Nat) (e1 : Int) (n2 : Bool) (m2 : Nat) (e2 : Int) : Bool × Nat × Int :=
  let e := min e1 e2
  let a : Int := (m1 * 2 ^ (e1 - e).toNat : Nat)
  let b : Int := (m2 * 2 ^ (e2 - e).toNat : Nat)
  let t := (if n1 then -a else a) + (if n2 then -b else b)
  (if t = 0 then n1 && n2 else decide (t < 0), t.natAbs, e)

/-- x × y + z with one rounding. -/
def fma36 (x y z : Nat) : Nat × FFlags :=
  let sn := snan36 x || snan36 y || snan36 z
  match dec36 x, dec36 y, dec36 z with
  | .nan, _, _ | _, .nan, _ => nanRes sn
  | .inf _, .num _ 0 _ _, c | .num _ 0 _ _, .inf _, c =>
    (match c with
     | .nan => nanRes (sn || Config.fmaInvalidNan)
     | _ => nanRes true)
  | _, _, .nan => nanRes sn
  | .inf a, .inf b, c | .inf a, .num b _ _ _, c | .num a _ _ _, .inf b, c =>
    (match c with
     | .inf d => if d = (a != b) then (fmtF36.signed d fmtF36.infCode, {}) else nanRes true
     | _ => (fmtF36.signed (a != b) fmtF36.infCode, {}))
  | .num _ _ _ _, .num _ _ _ _, .inf d => (fmtF36.signed d fmtF36.infCode, {})
  | .num a m1 e1 _, .num b m2 e2 _, .num d m3 e3 _ =>
    let r := addExact (a != b) (m1 * m2) (e1 + e2) d m3 e3
    put36 r.1 r.2.1 r.2.2

/-- x + y (R175). -/
def add36 (x y : Nat) : Nat × FFlags :=
  let sn := snan36 x || snan36 y
  match dec36 x, dec36 y with
  | .nan, _ | _, .nan => nanRes sn
  | .inf a, .inf b => if a = b then (fmtF36.signed a fmtF36.infCode, {}) else nanRes true
  | .inf a, .num _ _ _ _ | .num _ _ _ _, .inf a => (fmtF36.signed a fmtF36.infCode, {})
  | .num a m1 e1 _, .num b m2 e2 _ =>
    let r := addExact a m1 e1 b m2 e2
    put36 r.1 r.2.1 r.2.2

/-- The sign inverted; a NaN gives the canonical NaN (R173). -/
def neg36 (x : Nat) : Nat := if dec36 x = .nan then nan36 else (x + 2 ^ 35) % 2 ^ 36

/-- The sign cleared; a NaN gives the canonical NaN (R173). -/
def abs36 (x : Nat) : Nat := if dec36 x = .nan then nan36 else x % 2 ^ 35

/-- x − y (R175): a NaN operand is seen before its sign is changed. -/
def sub36 (x y : Nat) : Nat × FFlags :=
  if dec36 x = .nan ∨ dec36 y = .nan then nanRes (snan36 x || snan36 y) else add36 x (neg36 y)

/-- x × y (R175). -/
def mul36 (x y : Nat) : Nat × FFlags :=
  let sn := snan36 x || snan36 y
  match dec36 x, dec36 y with
  | .nan, _ | _, .nan => nanRes sn
  | .inf _, .num _ 0 _ _ | .num _ 0 _ _, .inf _ => nanRes true
  | .inf a, .inf b | .inf a, .num b _ _ _ | .num a _ _ _, .inf b => (fmtF36.signed (a != b) fmtF36.infCode, {})
  | .num a m1 e1 _, .num b m2 e2 _ => put36 (a != b) (m1 * m2) (e1 + e2)

/-- A quotient of naturals to 64 further bits, with a sticky bit below: it rounds as the exact quotient does. -/
def quotSticky (a b : Nat) : Nat :=
  let q := a * 2 ^ 96 / b
  2 * q + (if a * 2 ^ 96 % b = 0 then 0 else 1)

/-- x / y; a finite nonzero value by zero sets DIV0 (R157, R175). -/
def div36 (x y : Nat) : Nat × FFlags :=
  let sn := snan36 x || snan36 y
  match dec36 x, dec36 y with
  | .nan, _ | _, .nan => nanRes sn
  | .inf _, .inf _ => nanRes true
  | .num _ 0 _ _, .num _ 0 _ _ => nanRes true
  | .inf a, .num b _ _ _ => (fmtF36.signed (a != b) fmtF36.infCode, {})
  | .num a _ _ _, .inf b => (fmtF36.signed (a != b) 0, {})
  | .num a _ _ _, .num b 0 _ _ => (fmtF36.signed (a != b) fmtF36.infCode, { div0 := true })
  | .num a m1 e1 _, .num b m2 e2 _ => put36 (a != b) (quotSticky m1 m2) (e1 - e2 - 97)

/-- The square root of m·2^e to many bits with a sticky bit: a magnitude and its exponent. -/
def sqrtSticky (m : Nat) (e : Int) : Nat × Int :=
  let m' := if e % 2 = 0 then m else 2 * m
  let e' := if e % 2 = 0 then e else e - 1
  let a := m' * 2 ^ 120
  let r := Nat.sqrt a
  (2 * r + (if r * r = a then 0 else 1), e' / 2 - 61)

/-- √x: of a negative value NaN, of −0 itself (R136, R175). -/
def sqrt36 (x : Nat) : Nat × FFlags :=
  match dec36 x with
  | .nan => nanRes (snan36 x)
  | .inf n => if n then nanRes true else (fmtF36.infCode, {})
  | .num n m e _ =>
    if m = 0 then (fmtF36.signed n 0, {})
    else if n then nanRes true
    else
      let r := sqrtSticky m e
      put36 false r.1 r.2

/-- A total order key of non-NaN values, −0 below +0 (R136). -/
def key36 (x : Nat) : Int := if bitN x 35 then -((x % 2 ^ 35 : Nat) : Int) - 1 else (x % 2 ^ 35 : Nat)

/-- The smaller value; a NaN gives the canonical NaN (R136). -/
def min36 (x y : Nat) : Nat :=
  if dec36 x = .nan ∨ dec36 y = .nan then nan36 else if key36 x ≤ key36 y then x else y

/-- The larger value; a NaN gives the canonical NaN (R136). -/
def max36 (x y : Nat) : Nat :=
  if dec36 x = .nan ∨ dec36 y = .nan then nan36 else if key36 x ≤ key36 y then y else x

/-- FCMP: 0 equal, 1 less, 2 greater, 3 unordered; −0 equals +0 (R173). -/
def cmp36 (x y : Nat) : Nat :=
  if dec36 x = .nan ∨ dec36 y = .nan then 3
  else
    let k (v : Nat) : Int := if bitN v 35 then -((v % 2 ^ 35 : Nat) : Int) else (v % 2 ^ 35 : Nat)
    if k x = k y then 0 else if k x < k y then 1 else 2

/-- An integer converted to F36, rounded once (R173). -/
def ofInt36 (i : Int) : Nat × FFlags := put36 (decide (i < 0)) i.natAbs 0

/-- The integer part of a finite value: truncated, or to nearest even. -/
def intOf (nearest : Bool) (neg : Bool) (m : Nat) (e : Int) : Int :=
  let a : Nat := if 0 ≤ e then m * 2 ^ e.toNat else if nearest then rne m (-e).toNat else m / 2 ^ (-e).toNat
  if neg then -(a : Int) else a

/-- F36 converted to an integer of a range: NaN gives 0, out of range the nearest bound, both with INV (R175). -/
def toInt36 (nearest : Bool) (lo hi : Int) (x : Nat) : Int × FFlags :=
  match dec36 x with
  | .nan => (0, { inv := true })
  | .inf n => (if n then lo else hi, { inv := true })
  | .num n m e _ =>
    let i := intOf nearest n m e
    if i < lo then (lo, { inv := true }) else if hi < i then (hi, { inv := true }) else (i, {})

/-- FPACK: the encoding of an F36 value rounded into FMT 0x6 to 0xA; an overflow sets OVF (R157, R176). -/
def pack36 (fmt : Nat) (sat : Bool) (x : Nat) : Nat × FFlags :=
  let v := dec36 x
  let big := match v with
    | .num _ m e _ => ((rowFmt fmt).round m e).ofl
    | _ => false
  (rowEncode fmt sat v, { ovf := big, inv := snan36 x })

/-- A value converted exactly into F36, or by R133 where an MX element overflows it. -/
def toF36 (v : Val) : Nat := fmtF36.encode false v

/-- FUNPACK: the F36 value of a narrow encoding; binary32 keeps its bits under R126 (R176). -/
def unpack36 (fmt code : Nat) : Nat :=
  if fmt = 0xA then code % 2 ^ 32 * 16 else toF36 ((rowFmt fmt).decode (code % 2 ^ rowWidth fmt))

/-- ⌊x⌋ of an F36 value in the i36 range; beyond it the nearest end (R106, R136). -/
def floor36 (x : Nat) : Int :=
  let lo : Int := -(2 ^ 35 : Nat)
  let hi : Int := (2 ^ 35 - 1 : Nat)
  match dec36 x with
  | .nan => 0
  | .inf n => if n then lo else hi
  | .num n m e _ =>
    let a : Nat := if 0 ≤ e then m * 2 ^ e.toNat else m / 2 ^ (-e).toNat
    let frac : Bool := decide (e < 0) && decide (m % 2 ^ (-e).toNat ≠ 0)
    let i : Int := if n then -(a : Int) - (if frac then 1 else 0) else a
    max lo (min hi i)

/-- One element of table interpolation (R106): X0, INV_W, the segment count, the order and the coefficients of a segment;
a NaN operand gives the canonical NaN (R136). -/
def interp36 (x x0 invW nseg order : Nat) (seg : Nat → Nat × Nat × Nat) : Nat :=
  if dec36 x = .nan then nan36
  else
    let t := (mul36 (sub36 x x0).1 invW).1
    let f := floor36 t
    let s : Nat := if f < 0 then 0 else if ((nseg : Int) - 1) < f then nseg - 1 else f.toNat
    let u := (sub36 t (ofInt36 s).1).1
    let c := seg s
    if order = 1 then (add36 c.1 (mul36 u (add36 c.2.1 (mul36 u c.2.2).1).1).1).1
    else (add36 c.1 (mul36 u c.2.1).1).1

end Sys2Proof.Machine
end

