-- ==== Sys2Proof/Machine/Trans.lean ====
section
/-!
DEFINITION. The transcendental operations of the vector unit, correctly rounded to F36 (R105, R136). Each is enclosed between two
fixed-point numbers of p fraction bits; p doubles until both ends round to the same encoding.
-/
namespace Sys2Proof.Machine

/-- An enclosure at a scale of 2^p: a lower and an upper end. -/
abbrev Ends := Int × Int

/-- Lower and upper sums of a series of non-negative terms, t(i+1) = t(i) · a / (d · g i), from t(0): each lower term is
floored and each upper term raised by one unit. The upper sum also takes the last term once more, which bounds the tail
when the ratio is at most a half. -/
def seriesSum (a1 a2 d : Nat) (g : Nat → Nat) : Nat → Nat → Nat → Nat → Nat → Nat → Nat × Nat
  | 0, _, _, t2, s1, s2 => (s1, s2 + t2 + 1)
  | n + 1, i, t1, t2, s1, s2 =>
    let u1 := t1 * a1 / (d * g i)
    let u2 := t2 * a2 / (d * g i) + 1
    seriesSum a1 a2 d g n (i + 1) u1 u2 (s1 + u1) (s2 + u2)

/-- An enclosure squared n times at scale 2^p. -/
def squareN (p : Nat) : Nat → Nat × Nat → Nat × Nat
  | 0, v => v
  | n + 1, v => squareN p n (v.1 * v.1 / 2 ^ p, v.2 * v.2 / 2 ^ p + 1)

/-- e^x for 0 ≤ x ≤ 256, x between two ends at scale 2^p. -/
def expUp (p : Nat) (x : Nat × Nat) : Nat × Nat :=
  let s := seriesSum (x.1 / 512) (x.2 / 512 + 1) (2 ^ p) (· + 1) p 0 (2 ^ p) (2 ^ p) (2 ^ p) (2 ^ p)
  squareN p 9 s

/-- e^-x for 0 ≤ x ≤ 256. -/
def expDown (p : Nat) (x : Nat × Nat) : Nat × Nat :=
  let u := expUp p x
  (2 ^ (2 * p) / u.2, 2 ^ (2 * p) / u.1 + 1)

/-- atanh(a/b) for 0 ≤ a/b ≤ 1/3: Σ (a/b)^(2i+1)/(2i+1), by its terms (a/b)^(2i+1). -/
def atanhSum (p a b : Nat) : Nat → Nat → Nat → Nat → Nat → Nat × Nat
  | 0, _, t, s1, s2 => (s1, s2 + t + 2)
  | n + 1, i, t, s1, s2 => atanhSum p a b n (i + 1) (t * a * a / (b * b)) (s1 + t / (2 * i + 1)) (s2 + (t + 2) / (2 * i + 1) + 1)

/-- ln 2 at scale 2^p. -/
def ln2 (p : Nat) : Nat × Nat :=
  let a := atanhSum p 1 3 p 0 (2 ^ p / 3) 0 0
  (2 * a.1, 2 * a.2)

/-- ln(m·2^e) for m > 0. -/
def lnEnds (m : Nat) (e : Int) (p : Nat) : Ends :=
  let l := Nat.log2 m
  let a := m - 2 ^ l
  let b := m + 2 ^ l
  let s := atanhSum p a b p 0 (2 ^ p * a / b) 0 0
  let q : Int := (l : Int) + e
  let k := ln2 p
  if 0 ≤ q then (2 * (s.1 : Int) + q * k.1, 2 * (s.2 : Int) + q * k.2)
  else (2 * (s.1 : Int) + q * k.2, 2 * (s.2 : Int) + q * k.1)

/-- Σ ± x^(2i+1)/(2i+1) for x = 1/k: the alternating sum for arctan. -/
def atanInv (k : Nat) : Nat → Nat → Int → Int → Int
  | 0, _, _, s => s
  | n + 1, i, t, s => atanInv k n (i + 1) (-t / ((k : Int) * k)) (s + t / (2 * (i : Int) + 1))

/-- π at scale 2^p, by 16·arctan(1/5) − 4·arctan(1/239). -/
def piEnds (p : Nat) : Ends :=
  let v := 16 * atanInv 5 p 0 ((2 : Int) ^ p / 5) 0 - 4 * atanInv 239 p 0 ((2 : Int) ^ p / 239) 0
  (v - 40 * ((p : Int) + 2), v + 40 * ((p : Int) + 2))

/-- Σ of an alternating series t(i+1) = −t(i)·r²/(g i), r² at scale 2^p. -/
def altSum (r2 : Int) (p : Nat) (g : Nat → Int) : Nat → Nat → Int → Int → Int
  | 0, _, _, s => s
  | n + 1, i, t, s =>
    let t' := -(t * r2) / ((2 : Int) ^ p * g i)
    altSum r2 p g n (i + 1) t' (s + t')

/-- sin(x + quad·π/2) for x = ±m·2^e: the argument is reduced exactly enough for any magnitude (R105). -/
def sinEnds (quad : Int) (neg : Bool) (m : Nat) (e : Int) (p0 : Nat) : Ends :=
  let p := p0 + 320
  let x : Int := if 0 ≤ e + p then (m : Int) * 2 ^ (e + p).toNat else (m : Int) / 2 ^ (-(e + p)).toNat
  let x := if neg then -x else x
  let pi := piEnds p
  let n := (4 * x + pi.1) / (2 * pi.1)
  let a := x - n * pi.1 / 2
  let b := x - n * pi.2 / 2
  let w := (a - b).natAbs + 4
  let r2 := a * a / 2 ^ p
  let err : Int := 4 * (p : Int) + 16 + w
  let k := (n + quad) % 4
  let v := if k = 0 ∨ k = 2 then altSum r2 p (fun i => (2 * (i : Int) + 2) * (2 * i + 3)) p 0 a a
    else altSum r2 p (fun i => (2 * (i : Int) + 1) * (2 * i + 2)) p 0 (2 ^ p) (2 ^ p)
  let v := if k = 0 ∨ k = 1 then v else -v
  ((v - err) / 2 ^ 320, (v + err) / 2 ^ 320 + 1)

/-- x = m·2^e at scale 2^p, floored and raised. -/
def atScale (m : Nat) (e : Int) (p : Nat) : Nat × Nat :=
  if 0 ≤ e + p then (m * 2 ^ (e + p).toNat, m * 2 ^ (e + p).toNat)
  else (m / 2 ^ (-(e + p)).toNat, m / 2 ^ (-(e + p)).toNat + 1)

/-- A magnitude of at least 2^k. -/
def magGe (m : Nat) (e : Int) (k : Int) : Bool := decide (m ≠ 0) && decide (k ≤ (Nat.log2 m : Int) + e)

/-- e^x. -/
def expEnds (neg : Bool) (m : Nat) (e : Int) (p : Nat) : Ends :=
  if magGe m e 8 then (if neg then (0, 1) else (2 ^ (p + 200), 2 ^ (p + 200)))
  else
    let v := if neg then expDown p (atScale m e p) else expUp p (atScale m e p)
    (v.1, v.2)

/-- tanh |x|: from 64 upward it lies between 1 − 2^-80 and 1. -/
def tanhEnds (m : Nat) (e : Int) (p : Nat) : Ends :=
  if magGe m e 6 then ((2 : Int) ^ p - 2 ^ (p - 80), 2 ^ p)
  else
    let v := expUp p (atScale m (e + 1) p)
    ((2 : Int) ^ p - (2 ^ (2 * p + 1) / (v.1 + 2 ^ p) + 1 : Nat), (2 : Int) ^ p - (2 ^ (2 * p + 1) / (v.2 + 2 ^ p) : Nat))

/-- 1/(1 + e^-x). -/
def sigmoidEnds (neg : Bool) (m : Nat) (e : Int) (p : Nat) : Ends :=
  if magGe m e 8 then (if neg then (0, 1) else ((2 : Int) ^ p - 2 ^ (p - 200), 2 ^ p))
  else
    let v := expUp p (atScale m e p)
    -- e^|x| in v: 1/(1 + v) for a negative x, v/(1 + v) for a positive one
    if neg then ((2 ^ (2 * p) / (v.2 + 2 ^ p) : Nat), (2 ^ (2 * p) / (v.1 + 2 ^ p) + 1 : Nat))
    else ((2 : Int) ^ p - (2 ^ (2 * p) / (v.1 + 2 ^ p) + 1 : Nat), (2 : Int) ^ p - (2 ^ (2 * p) / (v.2 + 2 ^ p) : Nat))

/-- |x|/(1 + e^-x). -/
def siluEnds (neg : Bool) (m : Nat) (e : Int) (p : Nat) : Ends :=
  let g := sigmoidEnds neg m e p
  let x := atScale m e p
  if magGe m e 8 ∧ neg then (0, 1)
  else (g.1 * x.1 / 2 ^ p, g.2 * x.2 / 2 ^ p + 1)

/-- erf |x|: from 8 upward it lies between 1 − 2^-80 and 1; below, 2/√π · e^-x² · Σ 2^n x^(2n+1)/(1·3·…·(2n+1)). -/
def erfEnds (m : Nat) (e : Int) (p : Nat) : Ends :=
  if magGe m e 3 then ((2 : Int) ^ p - 2 ^ (p - 80), 2 ^ p)
  else
    let x := atScale m e p
    let q := (x.1 * x.1 / 2 ^ p, x.2 * x.2 / 2 ^ p + 1)
    let s := seriesSum (2 * q.1) (2 * q.2) (2 ^ p) (fun i => 2 * i + 3) (p + 300) 0 x.1 x.2 x.1 x.2
    let g := expDown p q
    let pi := piEnds p
    let r1 := Nat.sqrt (pi.1.toNat * 2 ^ p)
    let r2 := Nat.sqrt (pi.2.toNat * 2 ^ p) + 1
    ((2 * (s.1 * g.1) / r2 : Nat), (2 * (s.2 * g.2) / r1 + 1 : Nat))

/-- Ends that straddle no rounding boundary give the encoding; else p doubles. -/
def settle (f : Nat → Ends) : Nat → Nat → Nat
  | 0, p => (put36 (decide ((f p).1 < 0)) (f p).1.natAbs (-(p : Int))).1
  | n + 1, p =>
    let v := f p
    let code (x : Int) : Nat := (put36 (decide (v.2 ≤ 0)) x.natAbs (-(p : Int))).1
    let lo := if 0 < v.2 then max v.1 0 else v.1
    if code lo = code v.2 then code lo else settle f n (2 * p)

/-- A positive function value under a sign. -/
def settleSigned (neg : Bool) (f : Nat → Ends) : Nat :=
  let c := settle f 12 512
  if neg then c + 2 ^ 35 else c

def one36 : Nat := 0x3F8000000

/-- A transcendental VOP with TLI 0 (R103, R105, R136): 0x10 EXP, 0x11 LOG, 0x14 RSQRT, 0x15 TANH, 0x16 SIGMOID,
0x17 SILU, 0x18 ERF, 0x19 SIN, 0x1A COS. -/
def trans36 (vop x : Nat) : Nat :=
  match dec36 x with
  | .nan => nan36
  | .inf n =>
    (match vop with
     | 0x10 => if n then 0 else fmtF36.infCode
     | 0x11 => if n then nan36 else fmtF36.infCode
     | 0x14 => if n then nan36 else 0
     | 0x15 => fmtF36.signed n one36
     | 0x16 => if n then 0 else one36
     | 0x17 => if n then 2 ^ 35 else fmtF36.infCode
     | 0x18 => fmtF36.signed n one36
     | _ => nan36)
  | .num n m e _ =>
    if m = 0 then
      (match vop with
       | 0x10 => one36
       | 0x11 => fmtF36.signed true fmtF36.infCode
       | 0x14 => fmtF36.signed n fmtF36.infCode
       | 0x16 => 0x3F0000000
       | 0x1A => one36
       | _ => x)
    else
      (match vop with
       | 0x10 => settle (expEnds n m e) 12 512
       | 0x11 => if n then nan36 else if x = one36 then 0 else settle (lnEnds m e) 12 512
       | 0x14 =>
         if n then nan36
         else
           let r := sqrtSticky m e
           if r.1 % 2 = 0 then (put36 false (quotSticky (2 ^ 120) r.1) (-r.2 - 217)).1
           else settle (fun p =>
             let s := Nat.sqrt (m * 2 ^ (2 * p + (if e % 2 = 0 then 0 else 1)))
             let h := (if e % 2 = 0 then e else e - 1) / 2
             let k : Int := 2 * p - h
             (((2 ^ k.toNat / (s + 1) : Nat) : Int), ((2 ^ k.toNat / s + 1 : Nat) : Int))) 12 512
       | 0x15 => settleSigned n (tanhEnds m e)
       | 0x16 => settle (sigmoidEnds n m e) 12 512
       | 0x17 => settleSigned n (siluEnds n m e)
       | 0x18 => settleSigned n (erfEnds m e)
       | 0x19 => settle (sinEnds 0 n m e) 12 512
       | _ => settle (sinEnds 1 n m e) 12 512)

/-- RECIP: correctly rounded 1/x (R105, R136). -/
def recip36 (x : Nat) : Nat := (div36 one36 x).1

end Sys2Proof.Machine
end

