-- ==== Sys2Proof/Machine/RowRun.lean ====
section
/-!
DEFINITION. What the rows compute: elements and lines of the slice, matrix results, vector results, moves and conversions
(R72-R75, R97-R107, R126-R136, R590). Times, rates and bank conflicts are outside the model (log entry 11).
-/
namespace Sys2Proof.Machine

/-! ## Elements and lines -/

/-- `w` bits at bit `o` above a key. -/
def State.elem (s : State) (key o w : Nat) : Nat := bits (s.readN (key + o / 8) ((o % 8 + w + 7) / 8)) (o % 8) w

/-- Codes packed at `w` bits each, as a little-endian bit string (R127). -/
def packBits (w : Nat) : List Nat → Nat
  | [] => 0
  | c :: t => c % 2 ^ w + 2 ^ w * packBits w t

/-- Elements as the bytes of a line in whole 32-byte units (R590). -/
def packLine (fmt : Nat) (cs : List Nat) : List Byte :=
  leBytes (ceilDiv (lineBytes fmt cs.length) 32 * 32) (packBits (rowWidth fmt) cs)

/-- Bytes cut into 32-byte lines for consecutive places. -/
def cut32 (place : Nat → Loc) : Nat → Nat → List Byte → List (Loc × List Byte)
  | 0, _, _ => []
  | n + 1, i, bs => (place i, bs.take 32) :: cut32 place n (i + 1) (bs.drop 32)

/-- A line of bytes as writes to the own slice from line `l`. -/
def sliceWrites (t l : Nat) (bs : List Byte) : List (Loc × List Byte) :=
  cut32 (fun i => .slice t (l + i)) (bs.length / 32) 0 bs

/-- Bytes padded with zeros to whole 32-byte units (R590). -/
def pad32 (bs : List Byte) : List Byte := bs ++ List.replicate (ceilDiv bs.length 32 * 32 - bs.length) 0

/-- An operand of lines: the interval of its lines, half-open (R115). -/
def spanLines (addr lines pitch len : Nat) : Nat × Nat := (addr, addr + (lines - 1) * pitch + len)

/-- What a row does: its writes in order, or the table error it meets. -/
abbrev RowOut := List (Loc × List Byte) × Nat

/-! ## Matrix rows (R72, R73, R97-R102) -/

/-- Lines and elements per line of A, B and D, and their byte lengths and pitches. -/
def MatRow.aLen (r : MatRow) : Nat := if r.ta then r.m else r.k
def MatRow.bLen (r : MatRow) : Nat := if r.tb then r.n else r.k
def MatRow.aLines (r : MatRow) : Nat := if r.ta then r.k else r.m
def MatRow.bLines (r : MatRow) : Nat := if r.tb then r.k else r.n
def MatRow.aPitch (r : MatRow) : Nat := pitch r.aStr (lineBytes r.af r.aLen)
def MatRow.bPitch (r : MatRow) : Nat := pitch r.bStr (lineBytes r.bf r.bLen)
def MatRow.dPitch (r : MatRow) : Nat := pitch r.dStr (lineBytes r.df r.n)

def MatRow.aSpan (r : MatRow) : Nat × Nat := spanLines r.a r.aLines r.aPitch (ceilDiv (lineBytes r.af r.aLen) 32)
def MatRow.bSpan (r : MatRow) : Nat × Nat := spanLines r.b r.bLines r.bPitch (ceilDiv (lineBytes r.bf r.bLen) 32)
def MatRow.dSpan (r : MatRow) : Nat × Nat := spanLines r.d r.m r.dPitch (ceilDiv (lineBytes r.df r.n) 32)

/-- The footprints of a matrix row (R115). -/
def MatRow.foots (r : MatRow) : List Foot :=
  [{ hbm := false, lo := r.aSpan.1, hi := r.aSpan.2, wr := false },
   { hbm := false, lo := r.bSpan.1, hi := r.bSpan.2, wr := false },
   { hbm := false, lo := r.dSpan.1, hi := r.dSpan.2, wr := true }]

/-- An element of a stored line of an operand, under its block's scale (R73, R125, R127). -/
def State.matElem (s : State) (t fmt addr pitch scale len line e : Nat) : Val :=
  let code := s.elem (kSlice t (32 * (addr + line * pitch))) (e * rowWidth fmt) (rowWidth fmt)
  if isMx fmt then mxDecode fmt code (s.mem.byte (kSlice t (32 * scale) + line * (len / 32) + e / 32)).toNat
  else rowDecode fmt code

def State.matA (s : State) (t : Nat) (r : MatRow) (i k : Nat) : Val :=
  if r.ta then s.matElem t r.af r.a r.aPitch r.asA r.aLen k i else s.matElem t r.af r.a r.aPitch r.asA r.aLen i k

def State.matB (s : State) (t : Nat) (r : MatRow) (j k : Nat) : Val :=
  if r.tb then s.matElem t r.bf r.b r.bPitch r.bsA r.bLen k j else s.matElem t r.bf r.b r.bPitch r.bsA r.bLen j k

/-- One output element: the anchored sum over K and, with ACC, the old partial (R101). -/
def State.matSum (s : State) (t : Nat) (r : MatRow) (i j : Nat) : ASum :=
  let old := if r.acc then ASum.ofBytes (s.readB (kSlice t (32 * (r.d + i * r.dPitch)) + 20 * j) 20) else {}
  asum old ((List.range r.k).map (fun k => (s.matA t r i k).mul (s.matB t r j k)))

/-- A line of D: its scale codes when DFMT is an MX code, and its bytes (R100, R102). -/
def MatRow.line (r : MatRow) (sums : List ASum) : List Byte × List Byte :=
  if r.df = 0xC then ([], packLine 0xC (sums.map (fun x => leNat x.bytes)))
  else if isMx r.df then
    let blocks := (List.range (r.n / 32)).map (fun b => mxEncode r.df (((sums.drop (32 * b)).take 32).map ASum.value))
    (blocks.map (fun b => BitVec.ofNat 8 b.1), packLine r.df (blocks.map (fun b => b.2)).flatten)
  else ([], packLine r.df (sums.map (fun x => rowEncode r.df r.sat x.value)))

/-- 32-byte units of D that one block of 128 columns fills (R98, R127). -/
def MatRow.blockUnits (r : MatRow) : Nat := rowWidth r.df / 2

/-- The lines' writes in the order of R98: block by block, the blocks of N innermost, and the rows of a block in turn. -/
def MatRow.blockOrder (r : MatRow) (data : List (List (Loc × List Byte))) : List (Loc × List Byte) :=
  ((List.range (ceilDiv r.m 128)).map (fun i => ((List.range (ceilDiv r.n 128)).map (fun j =>
    (((data.drop (128 * i)).take 128).map (fun l => (l.drop (r.blockUnits * j)).take r.blockUnits)).flatten)).flatten)).flatten

/-- A matrix row's writes: D by blocks, then its scale array. -/
def State.runMatrix (s : State) (t : Nat) (r : MatRow) : RowOut :=
  let sl := s.sliceLines t
  let scales := (if isMx r.af then [r.asA + ceilDiv (r.aLines * (r.aLen / 32)) 32] else [])
    ++ (if isMx r.bf then [r.bsA + ceilDiv (r.bLines * (r.bLen / 32)) 32] else [])
  if sl < r.aSpan.2 ∨ sl < r.bSpan.2 ∨ (r.acc = true ∧ sl < r.dSpan.2) ∨ scales.any (fun h => decide (sl < h)) = true then
    ([], 10)
  else
    let ls := (List.range r.m).map (fun i => r.line ((List.range r.n).map (s.matSum t r i)))
    let data := (List.range r.m).map (fun i => sliceWrites t (r.d + i * r.dPitch) (ls.getD i ([], [])).2)
    (r.blockOrder data ++ sliceWrites t r.dsA (pad32 (ls.map (fun l => l.1)).flatten), 0)

/-! ## Vector rows (R74, R103-R107, R135, R136) -/

/-- The distance between groups of 64 elements of a format, in lines. -/
def groupPitch (stride fmt : Nat) : Nat := pitch stride (lineBytes fmt 64)

/-- The lines that hold `count` elements in groups of 64, half-open: the last group may be short. -/
def groupSpan (addr stride fmt count : Nat) : Nat × Nat :=
  let g := (count - 1) / 64
  let last := addr + g * groupPitch stride fmt + ceilDiv (lineBytes fmt (count - 64 * g)) 32
  (addr, if g = 0 then last else max last (addr + (g - 1) * groupPitch stride fmt + ceilDiv (lineBytes fmt 64) 32))

/-- The footprint of the same operand: its last group counts with the length of a group, but for packed ones (R115). -/
def groupFoot (addr stride fmt count : Nat) (wr : Bool) : Foot :=
  let g := (count - 1) / 64
  { hbm := false, lo := addr,
    hi := if stride = 0 then (groupSpan addr stride fmt count).2
          else addr + g * groupPitch stride fmt + ceilDiv (lineBytes fmt (min 64 count)) 32,
    wr := wr }

/-- Element i of a vector operand. -/
def State.vecElem (s : State) (t fmt addr stride i : Nat) : Nat :=
  s.elem (kSlice t (32 * (addr + i / 64 * groupPitch stride fmt))) (i % 64 * rowWidth fmt) (rowWidth fmt)

/-- Elements the row writes. -/
def VecRow.outs (r : VecRow) : Nat := if vopReduce r.vop then 1 else r.count

def VecRow.aSpan (r : VecRow) : Nat × Nat := groupSpan r.a r.aStr r.af r.count
def VecRow.bSpan (r : VecRow) : Nat × Nat := groupSpan r.b r.bStr r.bf r.count
def VecRow.cSpan (r : VecRow) : Nat × Nat := groupSpan r.c r.bStr r.bf r.count
def VecRow.dSpan (r : VecRow) : Nat × Nat := groupSpan r.d r.dStr r.df r.outs

/-- The intervals a vector row reads: only the operands its VOP uses (R104). -/
def VecRow.reads (r : VecRow) : List (Nat × Nat) :=
  [r.aSpan] ++ (if vopB r.vop then [r.bSpan] else []) ++ (if vopC r.vop then [r.cSpan] else [])
    ++ (if r.acc then [r.dSpan] else [])

/-- The footprints of a vector row (R115). -/
def VecRow.foots (r : VecRow) : List Foot :=
  [groupFoot r.a r.aStr r.af r.count false] ++ (if vopB r.vop then [groupFoot r.b r.bStr r.bf r.count false] else [])
    ++ (if vopC r.vop then [groupFoot r.c r.bStr r.bf r.count false] else [])
    ++ [groupFoot r.d r.dStr r.df r.outs true]

/-- A segment table's header bits (R106). -/
def State.segHead (s : State) (key : Nat) : Nat := s.readN key 32

/-- A segment's coefficients. -/
def State.segment (s : State) (key i : Nat) : Nat × Nat × Nat :=
  let e := s.readN (key + 32 + 16 * i) 16
  (bits e 0 36, bits e 36 36, bits e 72 36)

/-- Segments of a table: NSEG. -/
def segCount (h : Nat) : Nat := bits h 64 10 + 1

/-- A malformed table: a zero bit of the header line or of an entry is set (R106). -/
def State.segBad (s : State) (key : Nat) : Bool :=
  let h := s.segHead key
  bits h 75 181 != 0 || (List.range (segCount h)).any (fun i => bits (s.readN (key + 32 + 16 * i) 16) 108 20 != 0)

/-- One element of an element-wise VOP in F36 (R103, R136); `tli` gives the interpolation of a transcendental one. -/
def vecOp (vop imm : Nat) (tli : Option (Nat → Nat)) (a b c : Nat) : Nat :=
  match vop with
  | 0x00 => a
  | 0x01 => (add36 a b).1
  | 0x02 => (sub36 a b).1
  | 0x03 => (mul36 a b).1
  | 0x04 => (fma36 a b c).1
  | 0x05 => (mul36 a imm).1
  | 0x06 => (add36 a imm).1
  | 0x07 => (fma36 a imm b).1
  | 0x08 => max36 a b
  | 0x09 => min36 a b
  | 0x0A => abs36 a
  | 0x0B => neg36 a
  | 0x0C =>
    (match dec36 a with
     | .nan => c
     | .inf n => if n then c else b
     | .num n m _ _ => if n && m != 0 then c else b)
  | 0x12 => recip36 a
  | 0x13 => (sqrt36 a).1
  | _ => match tli with
    | some f => f a
    | none => trans36 vop a

/-- A vector row's writes. -/
def State.runVector (s : State) (t : Nat) (r : VecRow) : RowOut :=
  let sl := s.sliceLines t
  let key := kSlice t (32 * r.tbl)
  let h := s.segHead key
  let at36 (fmt addr stride i : Nat) : Nat := unpack36 fmt (s.vecElem t fmt addr stride i)
  let seg (x : Nat) : Nat :=
    interp36 x (unpack36 0xA (bits h 0 32)) (unpack36 0xA (bits h 32 32)) (segCount h) (bits h 74 1) (s.segment key)
  if r.reads.any (fun x => decide (sl < x.2)) then ([], 10)
  else if r.tli && decide (sl ≤ r.tbl) then ([], 10)
  else if r.tli && decide (sl < r.tbl + 1 + ceilDiv (segCount h) 2) then ([], 10)
  else if r.tli && s.segBad key then ([], 11)
  else
    let idx := List.range r.count
    let a (i : Nat) : Val := dec36 (at36 r.af r.a r.aStr i)
    let b (i : Nat) : Val := dec36 (at36 r.bf r.b r.bStr i)
    if vopSum r.vop then
      let old := if r.acc then ASum.ofBytes (s.readB (kSlice t (32 * r.d)) 20) else {}
      let x := asum old (idx.map (fun i =>
        match r.vop with | 0x20 => a i | 0x21 => (a i).mul (b i) | _ => (a i).mul (a i)))
      let code := if r.df = 0xC then leNat x.bytes else rowEncode r.df r.sat x.value
      (sliceWrites t r.d (packLine r.df [code]), 0)
    else if r.vop = 0x23 then
      let x := idx.foldl (fun m i => max36 m (at36 r.af r.a r.aStr i)) (at36 r.af r.a r.aStr 0)
      (sliceWrites t r.d (packLine r.df [(pack36 r.df r.sat x).1]), 0)
    else
      let out (i : Nat) : Nat :=
        if r.vop = 0x24 then
          rowEncode r.df r.sat (ASum.ofBytes (leBytes 20 (s.vecElem t 0xC r.a r.aStr i))).value
        else
          (pack36 r.df r.sat (vecOp r.vop r.imm (if r.tli then some seg else none) (at36 r.af r.a r.aStr i)
            (if vopB r.vop then at36 r.bf r.b r.bStr i else 0) (if vopC r.vop then at36 r.bf r.c r.bStr i else 0))).1
      let group (g : Nat) : List (Loc × List Byte) :=
        sliceWrites t (r.d + g * groupPitch r.dStr r.df)
          (packLine r.df ((List.range (min 64 (r.count - 64 * g))).map (fun i => out (64 * g + i))))
      (((List.range (ceilDiv r.count 64)).map group).flatten, 0)

/-! ## Move rows (R75, R134) -/

/-- The line at an offset from a move row's address; a tile number in the address stays (R75). -/
def moveLoc (t sp base off : Nat) : Loc :=
  match sp with
  | 0 => .slice t ((base + off) / 32)
  | 1 => .slice (base / 2 ^ 24) ((base % 2 ^ 24 + off) / 32)
  | _ => .hbm ((base + off) / 32)

/-- A space-1 address of tile t's row names a tile that is not enabled, not working, or in the other half without a bridge (R37,
R75). -/
def State.moveDead (s : State) (t sp base : Nat) : Bool :=
  sp == 1 && !(s.tileEnabled (base / 2 ^ 24) && s.tileUp (base / 2 ^ 24) && s.tilesMeet t (base / 2 ^ 24))

/-- Whether a space and address mean the own slice (R75). -/
def isOwn (t sp base : Nat) : Bool := sp == 0 || (sp == 1 && base / 2 ^ 24 == t)

/-- One side's footprint: own-slice lines, HBM bytes, none for another slice (R115). -/
def moveFoot (t sp base lines stride len : Nat) (wr : Bool) : List Foot :=
  let ext := if stride = 0 then lines * len else (lines - 1) * stride + len
  if isOwn t sp base then
    let b := base % 2 ^ 24
    [{ hbm := false, lo := b / 32, hi := (b + ext) / 32, wr := wr }]
  else if sp = 2 then [{ hbm := true, lo := base, hi := base + ext, wr := wr }]
  else []

def MoveRow.foots (t : Nat) (r : MoveRow) : List Foot :=
  moveFoot t r.ss r.sa r.lines r.sStr r.len false ++ moveFoot t r.ds r.da r.lines r.dStr r.outBytes true

/-- `n` lines of 32 bytes at an offset of a space; none where one fails. A cacheable HBM line goes through the cache. -/
def State.readMove (s : State) (t sp base : Nat) (cached : Bool) : Nat → Nat → State × Option (List Byte)
  | 0, _ => (s, some [])
  | n + 1, off =>
    let (s1, x) :=
      if cached then s.cacheRead t (base + off)
      else (s, (s.locFrom t (moveLoc t sp base off)).map (fun k => s.readB k 32))
    match x with
    | none => (s1, none)
    | some bs =>
      let (s2, y) := State.readMove s1 t sp base cached n (off + 32)
      (s2, y.map (fun rest => bs ++ rest))

/-- `n` bytes of a move row's source at an offset that need not be a whole line. -/
def State.readAny (s : State) (t sp base off n : Nat) : State × Option (List Byte) :=
  let o := off % 32
  let r := s.readMove t sp base false (ceilDiv (o + n) 32) (off - o)
  (r.1, r.2.map (fun bs => (bs.drop o).take n))

/-- The partials or codes of one converted line: its scale codes and its bytes (R134). -/
def MoveRow.convert (r : MoveRow) (data scales : List Byte) : List Byte × List Byte :=
  let w := rowWidth r.sf
  let x := leNat data
  let code (i : Nat) : Nat := bits x (w * i) w
  let idx := List.range r.elems
  let val (i : Nat) : Val :=
    if r.sf = 0xC then (ASum.ofBytes (leBytes 20 (code i))).value
    else if isMx r.sf then mxDecode r.sf (code i) (scales.getD (i / 32) 0).toNat
    else rowDecode r.sf (code i)
  let out : List Byte × List Byte :=
    if r.df = 0xC then
      ([], packLine 0xC (idx.map (fun i =>
        leNat (if r.sf = 0xC then ASum.ofBytes (leBytes 20 (code i)) else ASum.ofVal (val i)).bytes)))
    else if isMx r.df then
      let blocks := (List.range (r.elems / 32)).map (fun b =>
        mxEncode r.df ((List.range 32).map (fun i => val (32 * b + i))))
      (blocks.map (fun b => BitVec.ofNat 8 b.1), packLine r.df (blocks.map (fun b => b.2)).flatten)
    else ([], packLine r.df (idx.map (fun i => rowEncode r.df r.sat (val i))))
  out

/-- The lines of a move row from the l-th on: their writes and the scale bytes that follow them. Line l stands l strides after
the address. DESIGN CHOICE: a stride of 0 puts every line at the address itself (R75; log entry 124). -/
def State.moveLines (s : State) (t : Nat) (r : MoveRow) :
    Nat → Nat → State × Option (List (Loc × List Byte) × List Byte)
  | 0, _ => (s, some ([], []))
  | n + 1, l =>
    let cached := r.ss == 2 && (s.tile t).cacheable (r.sa + l * r.sStr) r.len
    let (s1, d) := s.readMove t r.ss r.sa cached (r.len / 32) (l * r.sStr)
    let per := r.elems / 32
    let (s2, sc) :=
      if r.conv && isMx r.sf then s1.readAny t r.ss r.sa (r.lines * r.sStr + l * per) per else (s1, some [])
    match d, sc with
    | some data, some scales =>
      let (sb, bs) := if r.conv then r.convert data scales else ([], data)
      let ws := cut32 (fun i => moveLoc t r.ds r.da (l * r.dStr + 32 * i)) (bs.length / 32) 0 bs
      let (s3, rest) := State.moveLines s2 t r n (l + 1)
      (s3, rest.map (fun x => (ws ++ x.1, sb ++ x.2)))
    | _, _ => (s2, none)

/-- A move row's writes: its lines, then the scale array of an MX destination. -/
def State.runMove (s : State) (t : Nat) (r : MoveRow) : State × RowOut :=
  if s.moveDead t r.ss r.sa || s.moveDead t r.ds r.da then (s, ([], 10))
  else
    match s.moveLines t r r.lines 0 with
    | (s1, none) => (s1, ([], 10))
    | (s1, some (ws, sb)) =>
      let bs := pad32 sb
      (s1, (ws ++ cut32 (fun i => moveLoc t r.ds r.da (r.lines * r.dStr + 32 * i)) (bs.length / 32) 0 bs, 0))

end Sys2Proof.Machine
end

