-- ==== Sys2Proof/Machine/Gate.lean ====
section
/-!
DEFINITION. The stream table, the commit gate at a tick, deliveries, the placement check and the count wire (R238, R239,
R246-R255, R379, R380, R491, R498-R500).
-/
namespace Sys2Proof.Machine

/-! ## The stream table (R246) -/

/-- A stream-table entry. -/
def State.ent (s : State) (n : Nat) : StreamEnt := s.gate.streams.getD {} n

/-- A stream-table entry is replaced, and STREAMS_OPEN follows (R238). -/
def State.setEnt (s : State) (n : Nat) (e : StreamEnt) : State :=
  let m := s.gate.streams.set {} n e
  { s with gate := { s.gate with streams := m } }.setRg Rg.place_STREAMS_OPEN 0 (m.countP (fun (x : Nat × StreamEnt) => x.2.state == 1))

/-- The 256 bits of an entry. -/
def StreamEnt.word (e : StreamEnt) : Nat :=
  e.state + ofBool e.home * 2 ^ 2 + e.plot * 2 ^ 8 + e.channel * 2 ^ 16 + e.pos % 2 ^ 48 * 2 ^ 32
    + (e.pos + e.held.length) % 2 ^ 48 * 2 ^ 80 + e.held.length * 2 ^ 128 + e.kmax * 2 ^ 132 + e.tokens * 2 ^ 192

/-- The entry that the RW fields of 256 bits spell, with TOKENS as given. -/
def entOf (w tokens : Nat) : StreamEnt :=
  { state := bits w 0 2, home := bitN w 2, plot := bits w 8 7, channel := bits w 16 16, pos := bits w 32 48,
    kmax := bits w 132 4, tokens := tokens }

/-- KMAX of an entry is no reserved code (R22, R246); ones in its RZ bits are ignored (R20). -/
def entOk (w : Nat) : Bool := decide (bits w 132 4 ≤ 8)

/-! ## Deliveries (R379, R380) -/

/-- Commit-gate staging in use, in 32-byte units: exports of the beat, and deliveries that wait. -/
def State.stagingUnits (s : State) : Nat :=
  s.dom.staging.foldl (fun a e => a + ceilDiv e.bytes.length 32) 0
    + s.host.deliveries.foldl (fun a d => a + ceilDiv d.bytes.length 32) 0

/-- STAGING_USED shows what staging holds (R394). -/
def State.showStaging (s : State) : State := s.setRg Rg.host_STAGING_USED 0 s.stagingUnits

/-- DKIND of a channel; a number that is no export channel is invalid (R378). -/
def State.channelKind (s : State) (ch : Nat) : Nat := if ch < 1024 then bits (s.host.channels.getD 0 ch) 0 2 else 0

/-- A delivery joins its channel, or is discarded at the tick that closes beat n (R380). -/
def State.pushDelivery (s : State) (d : Delivery) : State :=
  if s.channelKind d.channel = 0 then
    (s.incRg Rg.host_EXPORT_DROPS 0 1).record 0 (s.rg Rg.host_MGR_EQ) 0 0x0015
      (d.channel + 1 * 2 ^ 16 + d.bytes.length * 2 ^ 32 + b48 d.beat)
  else { s with host := { s.host with deliveries := s.host.deliveries ++ [d] } }

/-- Deliveries that wait for a channel which has become invalid are discarded at the tick (R380; log entry 143). -/
def State.dropInvalid (s : State) : State :=
  let gone := s.host.deliveries.filter (fun d => s.channelKind d.channel == 0)
  gone.foldl (fun s d => s.pushDelivery { d with bytes := d.bytes.drop d.sent })
    { s with host := { s.host with deliveries := s.host.deliveries.filter (fun d => s.channelKind d.channel != 0) } }

/-! ## Records (R247) -/

/-- STREAM of a record. -/
def recStream (r : Nat) : Nat := bits r 0 16
/-- POS or FIRST_POS of a record. -/
def recPos (r : Nat) : Nat := bits r 32 48
/-- SPEC of a record. -/
def recSpec (r : Nat) : Bool := bitN r 16
/-- KIND of a record: a verdict. -/
def recVerdict (r : Nat) : Bool := bitN r 17

/-- A record that R247 or R252 calls malformed. -/
def recBad (r : Nat) : Bool :=
  bits r 12 4 != 0 || bits r 18 14 != 0 || bits r 112 16 != 0
    || (recVerdict r && (recSpec r || bits r 88 24 != 0 || bits r 80 4 == 0 || decide (8 < bits r 80 4)))

/-- GATE_ERR, ERR_STREAM, ERR_CODE and the event of a gate error at the tick that closes beat n (R252). -/
def State.gateErr (s : State) (n stream code : Nat) : State :=
  ((((s.sqRaise Rg.place_GATE_ERR Rg.place_GATE_SEQ 0 1).setRg Rg.place_ERR_STREAM 0 stream).setRg
    Rg.place_ERR_CODE 0 code).event 0x0109 (stream + code * 2 ^ 16 + b48 n) (if stream < 4096 then (s.ent stream).plot else 0))

/-! ## One stream at a tick (R248) -/

/-- What the gate makes of a stream: its entry, the records released in order, and how many are discarded. -/
structure GateRun where
  e : StreamEnt
  out : List Nat := []
  drop : Nat := 0
deriving DecidableEq, Repr

/-- The verdict, if any; none is error 3. -/
def gateVerdict (g : GateRun) : List Nat → Option GateRun
  | [] => some g
  | v :: _ =>
    let acc := bits v 84 4
    if recPos v ≠ g.e.pos ∨ bits v 80 4 ≠ g.e.held.length ∨ bits v 80 4 < acc then none
    else some { e := { g.e with pos := g.e.pos + acc, held := [] }, out := g.e.held.take acc,
                drop := g.e.held.length - acc }

/-- Plain token records in ascending position; the code of an error (R248). -/
def gatePlain (lim : Nat) (g : GateRun) : List Nat → Sum Nat GateRun
  | [] => .inr g
  | t :: r =>
    if g.e.held.isEmpty = false ∨ recPos t ≠ g.e.pos then .inl 2
    else if lim ≤ recPos t then .inl 7
    else gatePlain lim { g with e := { g.e with pos := g.e.pos + 1 }, out := g.out ++ [t] } r

/-- Speculative token records in ascending position; the code of an error (R248). -/
def gateSpec (lim : Nat) (g : GateRun) : List Nat → Sum Nat GateRun
  | [] => .inr g
  | t :: r =>
    if recPos t ≠ g.e.pos + g.e.held.length then .inl 2
    else if lim ≤ recPos t then .inl 7
    else if g.e.held.length = g.e.kmax then .inl 4
    else gateSpec lim { g with e := { g.e with held := g.e.held ++ [t] } } r

/-- The gate's work on one stream's records of a beat: the code of the error, or what comes of it (R248). -/
def gateRun (lim : Nat) (e : StreamEnt) (rs : List Nat) : Sum Nat GateRun :=
  let verdicts := rs.filter recVerdict
  let plain := sortBy recPos (rs.filter (fun r => !recVerdict r && !recSpec r))
  let spec := sortBy recPos (rs.filter (fun r => !recVerdict r && recSpec r))
  if e.state ≠ 1 then .inl 1
  else if 2 ≤ verdicts.length then .inl 6
  else match gateVerdict { e := e } verdicts with
    | none => .inl 3
    | some g =>
      match gatePlain lim g plain with
      | .inl c => .inl c
      | .inr g => gateSpec lim g spec

/-- LIM: STRETCHES × STRETCH_LEN. -/
def State.posLimit (s : State) : Nat :=
  s.rg Rg.place_STRETCHES * (s.rg Rg.place_STRETCH_LEN_LO + s.rg Rg.place_STRETCH_LEN_HI * 2 ^ 32)

/-- A record is released: below SUPPRESS_POS it only counts as suppressed; at the home member it joins its channel's
delivery with SPEC and KIND 0, and counts (R249, R491). The list gathers what each channel delivers. -/
def State.release (s : State) (e : StreamEnt) (n r : Nat) (out : List (Nat × Nat)) : State × List (Nat × Nat) :=
  if recPos r < s.gate.suppress.getD 0 n then (s.incRg Rg.mulch_MCNT 7 1, out)
  else if e.home then
    let s := (s.incRg Rg.place_RELEASED 0 1).incRg Rg.cloche_TOTAL e.plot 1
    ({ s with gate := { s.gate with dirty := insertNat e.plot s.gate.dirty } }.setEnt n
        { s.ent n with tokens := (s.ent n).tokens + 1 },
      out ++ [(e.channel, setBits r 16 2 0)])
  else (s, out)

/-- One stream's records of beat n (R248-R252). -/
def State.gateStream (s : State) (n stream : Nat) (rs : List Nat) (out : List (Nat × Nat)) : State × List (Nat × Nat) :=
  let e := s.ent stream
  match gateRun s.posLimit e rs with
  | .inl c =>
    let gone := e.held.length + rs.countP (fun r => !recVerdict r && recSpec r)
    (((s.incRg Rg.place_DISCARDED 0 gone).setEnt stream { e with held := [], state := 3 }).gateErr n stream c, out)
  | .inr g =>
    let s := (s.incRg Rg.place_DISCARDED 0 g.drop).setEnt stream g.e
    g.out.foldl (fun a r => a.1.release g.e stream r a.2) (s, out)

/-! ## The gate at a COMMIT tick (R80, R248, R379) -/

/-- Whole records of an EXPORT, `n` of them at most. -/
def recordsOf : Nat → List Byte → List Nat
  | 0, _ => []
  | n + 1, bs => if bs.length < 16 then [] else leNat (bs.take 16) :: recordsOf n (bs.drop 16)

/-- The malformed records of one EXPORT to the gate, and the bytes behind its whole records, are code 5 (R252). -/
def State.gateMalformed (s : State) (n : Nat) (e : Export) : State :=
  let s := ((recordsOf e.bytes.length e.bytes).filter recBad).foldl (fun s r => s.gateErr n (recStream r) 5) s
  if e.bytes.length % 16 = 0 then s
  else s.gateErr n (leNat ((e.bytes.drop (e.bytes.length / 16 * 16)).take 2)) 5

/-- The commit gate at the COMMIT tick that closes beat n. -/
def State.gateCommit (s : State) (n : Nat) : State :=
  let ex := sortBy (fun e => e.tile * 4096 + e.slot) s.dom.staging
  let s := { s with dom := { s.dom with staging := [] } }.dropInvalid
  let s := { s with gate := { s.gate with hold := s.flag Rg.cloche_METER_HOLD } }
  let mine := ex.filter (fun e => e.channel == 0xFFFF)
  let s := mine.foldl (fun s e => s.gateMalformed n e) s
  let recs := (mine.flatMap (fun e => recordsOf e.bytes.length e.bytes)).filter (fun r => !recBad r)
  let streams := sortBy id ((recs.map recStream).foldl (fun l x => insertNat x l) [])
  let r := streams.foldl (fun a st => a.1.gateStream n st (recs.filter (fun r => recStream r == st)) a.2) (s, [])
  let s := (ex.filter (fun e => e.channel != 0xFFFF)).foldl (fun s e =>
    s.pushDelivery { channel := e.channel, beat := n, bytes := e.bytes }) r.1
  let chans := sortBy id ((r.2.map (fun x => x.1)).foldl (fun l x => insertNat x l) [])
  let s := chans.foldl (fun s ch =>
    s.pushDelivery { channel := ch, beat := n, tokens := true, hold := s.gate.hold,
                     bytes := (r.2.filter (fun x => x.1 == ch)).flatMap (fun x => leBytes 16 x.2) }) s
  ({ s with gate := { s.gate with last := n, lastHold := s.gate.hold } }).showStaging

/-- The beat's staged exports are discarded at an ABORT tick (R81). -/
def State.gateAbort (s : State) : State := { s with dom := { s.dom with staging := [] } }.showStaging

/-! ## The placement check (R239) -/

/-- This member's placement block. -/
def State.myPlace (s : State) : Place :=
  { mid := s.rg Rg.beat_MID, bed := s.rg Rg.place_BED_ID, strips := s.rg Rg.place_STRIPS,
    stretches := s.rg Rg.place_STRETCHES, strip := s.rg Rg.place_STRIP, stretch := s.rg Rg.place_STRETCH,
    len := s.rg Rg.place_STRETCH_LEN_LO + s.rg Rg.place_STRETCH_LEN_HI * 2 ^ 32,
    spare := if s.flag Rg.place_SPARE_EN then some (s.rg Rg.place_SPARE_MID) else none, asked := s.gate.placeAsk }

/-- A member that fails for what it holds itself. -/
def placeAlone (p : Place) : Bool :=
  decide (p.strips = 0 ∨ 64 < p.strips ∨ p.stretches = 0 ∨ 64 < p.stretches ∨ 64 < p.strips * p.stretches
    ∨ p.strips ≤ p.strip ∨ p.stretches ≤ p.stretch ∨ 2 ^ 48 < p.stretches * p.len)

/-- The first failing MID among members in ascending order; none when the check passes. `seen` are those before. -/
def placeScan (standby : Nat → Bool) (ref : Place) : List Place → List Place → Option Nat
  | _, [] => none
  | seen, p :: t =>
    if placeAlone p || p.strips != ref.strips || p.stretches != ref.stretches || p.len != ref.len
      || seen.any (fun q => q.strip == p.strip && q.stretch == p.stretch)
      || (match p.spare with | some m => !standby m | none => false) then some p.mid
    else placeScan standby ref (p :: seen) t

/-- The check of a bed's members. -/
def placeCheck (standby : Nat → Bool) (ps : List Place) : Option Nat :=
  match sortBy (fun p => p.mid) ps with
  | [] => none
  | ref :: t =>
    match placeScan standby ref [] (ref :: t) with
    | some m => some m
    | none => if ps.length = ref.strips * ref.stretches then none else some ref.mid

/-- STANDBY_k names a member. -/
def State.standby (s : State) (m : Nat) : Bool := bitN (s.rg Rg.beat_STANDBY (m / 32)) (m % 32)

/-- The check at a COMMIT tick, of every bed that a member has asked for; `others` are the placement blocks of the
domain's other members. The master raises the event of each bed that fails. -/
def State.placement (s : State) (others : List Place) : State :=
  let all := s.myPlace :: others
  let beds := sortBy id ((all.filter (fun p => p.asked)).foldl (fun l p => insertNat p.bed l) [])
  let s := { s with gate := { s.gate with placeAsk := false } }
  beds.foldl (fun s b =>
    let r := placeCheck s.standby (all.filter (fun p => p.bed == b))
    let s := if s.rg Rg.place_BED_ID = b then
        let s := s.setRg Rg.place_PLACE_BAD 0 (ofBool r.isSome)
        if r.isSome then s.setRg Rg.place_PLACE_VALID 0 0 else s
      else s
    match r with
    | some m => if s.rg Rg.beat_ROLE = 3 then s.event 0x0108 (b + m * 2 ^ 32) else s
    | none => s) s

/-- PLACE_VALID written 1 asks for the check at the next COMMIT tick (R239). -/
def execPlaceValidWrite (v : Bool) (s : State) : Res :=
  .next ({ s with gate := { s.gate with placeAsk := v } }.setRg Rg.place_PLACE_VALID 0 (ofBool v))

/-! ## The count wire (R498-R500) -/

/-- The bytes of a count frame behind its comma: body and CRC (R499). -/
def State.frameBytes (s : State) (fs : List Nat) (crc : List Byte → Nat) : List Byte :=
  let body := leBytes 4 (s.rg Rg.cloche_EPOCH) ++ leBytes 8 s.gate.last ++ leBytes 1 fs.length
    ++ leBytes 1 (ofBool s.gate.lastHold) ++ leBytes 2 0
    ++ fs.flatMap (fun f => leBytes 1 f ++ leBytes 8 (s.rg Rg.cloche_TOTAL f))
  body ++ leBytes 4 (crc body)

end Sys2Proof.Machine
end

