-- ==== Sys2Proof/Machine/Route.lean ====
section
/-!
DEFINITION. The link map of a domain, paths over its working links, and the routing entries that the fault manager computes (R269,
R272, R280).
-/
namespace Sys2Proof.Machine

/-! ## The graph of the working links -/

/-- One direction of a link: from a module's port to a module. -/
structure Hop where
  from_ : Nat
  port : Nat
  dest : Nat
deriving DecidableEq, Repr

/-- The working links, both directions each: those of this module by its own ports, the others as the link map shows them, with the far
end where the cabling puts it (R272; log entry 24). -/
def State.linkHops (s : State) : List Hop :=
  let me := s.rg Rg.beat_MID
  let own := ((List.range 24).filter (fun d => s.linkUp d && !(s.port d).barred)).map (fun d =>
    ({ from_ := me, port := d, dest := s.rg Rg.dvport_PEER_MID d } : Hop))
  let far := s.dv.linkMap.filterMap (fun (e : Nat × Bool × Nat) =>
    let other := Config.linkEnd (e.1 / 32) (e.1 % 32)
    if e.2.1 = false ∨ e.1 / 32 = me ∨ other / 32 = me ∨ (s.dv.linkMap.get? other).any (fun x => !x.1) then none
    else some ({ from_ := e.1 / 32, port := e.1 % 32, dest := other / 32 } : Hop))
  own ++ own.map (fun h => { from_ := h.dest, port := s.rg Rg.dvport_PEER_PORT h.port, dest := me }) ++ far

/-- The number that a list of labels gives a module. -/
def label (l : List (Nat × Nat)) (m : Nat) : Option Nat := (l.find? (fun x => x.1 == m)).map (fun x => x.2)

/-- Labels spread against the direction of the hops: a module one hop before one labelled k, and unlabelled so far, takes k + 1, for k
from `k` on. -/
def spread (hs : List Hop) (l : List (Nat × Nat)) (k : Nat) : Nat → List (Nat × Nat)
  | 0 => l
  | n + 1 =>
    spread hs (hs.foldl (fun l h => if label l h.dest = some k ∧ label l h.from_ = none then l ++ [(h.from_, k + 1)] else l) l) (k + 1) n

/-- The levels of the modules, counted breadth-first from the tick master (R272). -/
def State.levels (s : State) : List (Nat × Nat) :=
  spread s.linkHops [(if s.dom.member then s.dom.master else s.rg Rg.beat_MID, 0)] 0 256

/-- A hop leads up, towards the master: to a lower level, or to a lower MID of the same level. -/
def leadsUp (lv : List (Nat × Nat)) (h : Hop) : Bool :=
  match label lv h.from_, label lv h.dest with
  | some a, some b => decide (b < a) || (a == b && decide (h.dest < h.from_))
  | _, _ => false

/-- The port of this module's up*/down* route to `m`: a shortest way down where one leads there, else up along a shortest legal way;
ties go to the lower port number. No hop down is followed by a hop up, so the routes of the modules depend on each other in no cycle
(R269, R272). -/
def State.upDown (s : State) (m : Nat) : Option Nat :=
  let me := s.rg Rg.beat_MID
  let hs := s.linkHops
  let lv := s.levels
  let up := hs.filter (leadsUp lv)
  let down := hs.filter (fun h => !leadsUp lv h && (label lv h.from_).isSome && (label lv h.dest).isSome)
  let byDown := spread down [(m, 0)] 0 256
  let any := spread up byDown 0 512
  let pick (hs : List Hop) (l : List (Nat × Nat)) (k : Nat) : Option Nat :=
    (List.range 24).find? (fun d => hs.any (fun h => h.from_ == me && h.port == d && label l h.dest == some k))
  match label byDown me, label any me with
  | some (k + 1), _ => pick down byDown k
  | none, some (k + 1) => pick up any k
  | _, _ => none

/-- The link map shows a working path from this module to another (R280). -/
def State.pathTo (s : State) (m : Nat) : Bool := (label (spread s.linkHops [(m, 0)] 0 256) (s.rg Rg.beat_MID)).isSome

/-- At the master, a member is unreachable: two PROBEs to it in a row have gone unanswered, or the link map shows no working path to it
(R280). -/
def State.unreachable (s : State) (m : Nat) : Bool := decide (2 ≤ s.dv.missed.getD 0 m) || !s.pathTo m

/-! ## The entries of the fault manager (R272) -/

/-- The MIDs whose entry in the active bank is valid and has no usable port. -/
def State.unrouted (s : State) : List Nat :=
  let a := s.rg Rg.dvorar_ACTIVE
  (List.range 256).filter (fun m => bitN (s.route a m) 22 && (s.usable (s.route a m)).isEmpty)

/-- The entry that the fault manager computes for a destination; without any path it names no port, and the event is raised once. -/
def State.newRoute (s : State) (bank : Fld) (m : Nat) : State :=
  match s.upDown m with
  | some d => s.setRg bank m (d + 31 * 2 ^ 5 + 31 * 2 ^ 10 + 31 * 2 ^ 15 + 2 ^ 22)
  | none =>
    if s.dv.swapPend && s.rg bank m == 0xFFFFF then s
    else (s.setRg bank m 0xFFFFF).event 0x0305 (m + s.nowB48)

/-- The fault manager computes entries for the destinations that have no usable port. They go into the inactive bank, with the active
bank's other entries, and the banks swap at the next tick. -/
def State.reroute (s : State) : State :=
  let bad := s.unrouted
  if !s.flag Rg.dvorar_AUTO_EN || bad.isEmpty then s
  else
    let a := s.rg Rg.dvorar_ACTIVE
    let bank : Fld := if a = 0 then Rg.dvorar_ROUTE_B else Rg.dvorar_ROUTE_A
    let s := (List.range 256).foldl (fun s m => if bad.contains m then s.newRoute bank m else s.setRg bank m (s.route a m)) s
    { s with dv := { s.dv with swapPend := true } }

end Sys2Proof.Machine
end

