-- ==== Sys2Proof/Machine/Units.lean ====
section
/-!
DEFINITION. The fault log, notices, the working sets and the service level, and the retirement of units (R36-R43, R211, R277,
R279, R453, R455, R468-R474).
-/
namespace Sys2Proof.Machine

/-! ## The fault log (R469-R471) -/

/-- A GUID: its first three fields little-endian, the last eight bytes as written. -/
def guid (a b c d : Nat) : List Byte := leBytes 4 a ++ leBytes 2 b ++ leBytes 2 c ++ beBytes 8 d

/-- Two decimal digits. -/
def bcd (n : Nat) : Nat := n / 10 % 10 * 16 + n % 10

/-- Year, month and day of a number of days since 1970-01-01, in the Gregorian calendar. -/
def civil (days : Nat) : Nat × Nat × Nat :=
  let z := days + 719468
  let era := z / 146097
  let doe := z % 146097
  let yoe := (doe - doe / 1460 + doe / 36524 - doe / 146096) / 365
  let doy := doe - (365 * yoe + yoe / 4 - yoe / 100)
  let mp := (5 * doy + 2) / 153
  let m := if mp < 10 then mp + 3 else mp - 9
  (yoe + era * 400 + (if m ≤ 2 then 1 else 0), m, doy - (153 * mp + 2) / 5 + 1)

/-- The UEFI timestamp of a number of nanoseconds since 1970. -/
def timestamp (ns : Nat) : List Byte :=
  let t := ns / 1000000000
  let (y, m, d) := civil (t / 86400)
  [bcd (t % 60), bcd (t / 60 % 60), bcd (t / 3600 % 24), 0, bcd d, bcd m, bcd (y % 100), bcd (y / 100)].map (BitVec.ofNat 8)

/-- The Vozekan section (R470). -/
def State.section (s : State) (r : FaultRec) (action outcome spare debt count : Nat) : List Byte :=
  leBytes 2 1 ++ leBytes 1 r.cls ++ leBytes 1 r.unit ++ leBytes 2 r.index ++ leBytes 2 r.sub ++ leBytes 8 r.beat
    ++ leBytes 8 (s.rg Rg.system_MTIME) ++ leBytes 4 r.table ++ leBytes 2 r.slot ++ leBytes 1 r.check ++ leBytes 1 action
    ++ leBytes 1 outcome ++ leBytes 1 spare ++ leBytes 1 (s.rg Rg.beat_MID) ++ leBytes 1 0 ++ leBytes 8 r.addr
    ++ leBytes 4 count ++ leBytes 4 (min debt (2 ^ 32 - 1)) ++ leBytes 4 0

/-- A fault record (R469). -/
def State.cper (s : State) (r : FaultRec) (action outcome spare debt count : Nat) : List Byte :=
  let sev := if outcome = 0 then 2 else 0
  let timed := s.flag Rg.system_TIME_SET_DONE
  leBytes 4 0x52455043 ++ leBytes 2 0x0101 ++ leBytes 4 0xFFFFFFFF ++ leBytes 2 1 ++ leBytes 4 sev
    ++ leBytes 4 (if timed then 3 else 1) ++ leBytes 4 256
    ++ (if timed then timestamp (s.rg Rg.system_MTIME) else leBytes 8 0)
    ++ leBytes 4 (s.rg Rg.identity_SERIAL_LO) ++ leBytes 4 (s.rg Rg.identity_SERIAL_HI) ++ leBytes 24 0
    ++ guid 0x7e20b4c8 0x91a3 0x4f56 0xb2d06c3e8a1f5d09
    ++ (if outcome = 0 then guid 0x2dce8bb1 0xbdd7 0x450e 0xb9ad9cf4ebd4f890
        else guid 0xe8f56ffe 0x919c 0x4cc5 0xba8865abe14913bb)
    ++ leBytes 8 (s.rg Rg.fault_LOG_WR) ++ leBytes 24 0 ++ leBytes 4 200 ++ leBytes 4 56 ++ leBytes 2 0x0100 ++ leBytes 6 0
    ++ guid 0x3c1f6a20 0x5b7e 0x4c9d 0x8a142e6f0d9b7c51 ++ leBytes 16 0 ++ leBytes 4 sev ++ leBytes 20 0
    ++ s.section r action outcome spare debt count

/-- The key under which reports of a check on a unit are counted. -/
def FaultRec.key (r : FaultRec) : Nat := (r.unit * 2 ^ 16 + r.index) * 16 + r.check

/-- A report is counted (R470, COUNT). -/
def State.countReport (s : State) (r : FaultRec) : State :=
  { s with fm := { s.fm with reports := s.fm.reports.set 0 r.key (satAdd 32 (s.fm.reports.getD 0 r.key) 1) } }

/-- The reports of the units named, by UNIT and INDEX, are counted afresh: their domain is reset (R470). -/
def State.forgetReports (s : State) (mine : Nat → Nat → Bool) : State :=
  { s with fm := { s.fm with reports := s.fm.reports.filter (fun (e : Nat × Nat) => !mine (e.1 / 2 ^ 20) (e.1 / 16 % 2 ^ 16)) } }

/-- One fault record is logged on every working copy, with its event; when no copy works it goes to LAST_GASP, to the
management controller, and into the event (R469, R471). -/
def State.logFault (s : State) (r : FaultRec) (action outcome spare debt : Nat) : State :=
  let bs := s.cper r action outcome spare debt (s.fm.reports.getD 0 r.key)
  let s := s.platformEvent 0x07 bs
  if s.rg Rg.fault_LOG_COPIES = 0 then
    let s := (List.range 64).foldl (fun s k => s.setRg Rg.fault_LAST_GASP k (leNat ((bs.drop (4 * k)).take 4))) s
    (s.emit (.gasp bs)).eventX true 0 0x0700 (leNat ((bs.drop 200).take 8) + r.beat % 2 ^ 64 * 2 ^ 64)
  else
    let n := s.rg Rg.fault_LOG_WR
    let s := if n < 4096 ∨ s.fm.logRead.contains (n % 4096) = true then s else s.satRg Rg.fault_LOG_LOST 0 1
    let s := { s with fm := { s.fm with
      log := s.fm.log.put (n % 4096) bs, logRead := s.fm.logRead.filter (fun i => i != n % 4096) } }
    ((s.setRg Rg.fault_LOG_WR 0 (n + 1)).sqRaise Rg.fault_FM_EVT Rg.fault_FM_SEQ 0 1).event 0x0700
      (n + r.cls * 2 ^ 64 + r.unit * 2 ^ 68 + r.index % 2 ^ 16 * 2 ^ 72)

/-- The report record and the action record of an action that ends at once (R447). -/
def State.logPair (s : State) (r : FaultRec) (action outcome : Nat) : State :=
  (s.logFault r action 2 0 0).logFault r action outcome 0 0

/-- A halt ends every replay under way (R447, R458). -/
def State.dropReplays (s : State) : State :=
  let rs := s.fm.replays
  let s := { s with fm := { s.fm with replays := [] } }
  rs.foldl (fun s p => p.reports.foldl (fun s r => s.logFault r 6 1 (p.spare.getD 0) 0) s) s

/-! ## Notices (R186, R468) -/

/-- A notice is posted to a tile core. -/
def State.notice (s : State) (t code data : Nat) : State :=
  let k := s.core (.tile t)
  s.setCore (.tile t) { k with fnPend := true, fnCode := code, fnSeq := (k.fnSeq + 1) % 2 ^ 16, fnData := BitVec.ofNat 36 data }

/-- A notice is posted to every tile core. -/
def State.noticeAll (s : State) (code data : Nat) : State :=
  ((List.range 256).filter s.tileUp).foldl (fun s t => s.notice t code data) s

/-! ## Places on the Trellis (R24, R27, R109, R110, R455) -/

/-- Half, column and row of a router; router 128 h + 16 y + x is the one beside tile of that number (R24). -/
def posOf (p : Nat) : Nat × Nat × Nat := (p / 128, p % 16, p / 16 % 8)

/-- The distance of two coordinates. -/
def gap (a b : Nat) : Nat := (a - b) + (b - a)

/-- Strictly between two coordinates, in either direction. -/
def inside (a b x : Nat) : Bool := decide (min a b < x ∧ x < max a b)

/-- Hops within a half, with 2 more for every retired router around which the route goes and returns. -/
def legHops (bad : List Nat) (h x1 y1 x2 y2 : Nat) : Nat :=
  gap x1 x2 + gap y1 y2
    + 2 * bad.countP (fun r =>
        let q := posOf r
        q.1 == h && ((y1 == y2 && q.2.2 == y1 && inside x1 x2 q.2.1) || (q.2.1 == x2 && inside y1 y2 q.2.2)))

/-- The row in which traffic from row y crosses the bridge: the nearest working channel's, the lower on a tie. -/
def bridgeRow (working y : Nat) : Nat :=
  ((List.range 8).filter (fun r => bitN working r)).foldl (fun b r => if b = 8 ∨ gap r y < gap b y then r else b) 8

/-- Hops between two physical tiles. -/
def State.hops (s : State) (a b : Nat) : Nat :=
  let (h1, x1, y1) := posOf a
  let (h2, x2, y2) := posOf b
  let bad := s.fm.detour
  if h1 = h2 then legHops bad h1 x1 y1 x2 y2
  else
    let r := bridgeRow (s.rg Rg.identity_BRIDGE_WORKING) y1
    let edge (h : Nat) : Nat := if h = 0 then 15 else 0
    gap r y1 + legHops bad h1 x1 r (edge h1) r + 1 + legHops bad h2 (edge h2) r x2 y2

/-- Every two retired routers of a half lie at least three apart, in row or in column. -/
def routersApart : List Nat → Bool
  | [] => true
  | r :: t =>
    t.all (fun q =>
      let a := posOf r
      let b := posOf q
      a.1 != b.1 || decide (3 ≤ gap a.2.1 b.2.1) || decide (3 ≤ gap a.2.2 b.2.2)) && routersApart t

/-! ## The service level (R38-R40, R42) -/

/-- Column of controller c of stack st, at row 0 (R205). -/
def stackCol (st c : Nat) : Nat := [0, 6, 12].getD (st % 3) 0 + c

/-- Some controller of a stack works, with its router in service. -/
def State.stackPath (s : State) (st : Nat) : Bool :=
  (List.range 4).any (fun c => !s.fm.routers.contains (128 * (st / 3) + stackCol st c)
    && bits (s.rg Rg.identity_PC_WORKING st) (8 * c) 8 != 0)

/-- The routers of a half are all in service, or retired only where the detours route around them (R38, R455). -/
def State.routersServe (s : State) (h : Nat) : Bool := routersApart (s.fm.routers.filter (fun r => r / 128 == h))

/-- A working stack is reachable from a half: attached to it, or to the other one, whose routers then lead to a bridge channel
(R39). -/
def State.stackReach (s : State) (h st : Nat) : Bool :=
  bitN (s.rg Rg.identity_HBM_WORKING) st && s.halfUp (st / 3) && s.stackPath st
    && (st / 3 == h || (s.flag Rg.identity_BRIDGE_WORKING && s.routersServe (st / 3)))

/-- A half meets the compute minimum of R38. -/
def State.halfCompute (s : State) (h : Nat) : Bool :=
  s.halfUp h && s.routersServe h
    && decide (32 ≤ ((List.range 256).filter (fun t => s.tileWorking t && s.tileHalf t == h)).length)
    && bits (s.rg Rg.identity_HUBPORT_WORKING) (4 * h) 4 != 0 && (List.range 6).any (s.stackReach h)

/-- The service level that the working sets give, once the module has left level 0. -/
def State.levelOf (s : State) : Nat := if s.halfCompute 0 || s.halfCompute 1 then 2 else 1

/-- MAP_CHANGED and MAP_SEQ of one update, with WEST_COMPUTE and EAST_COMPUTE (R42). -/
def State.mapUpdate (s : State) : State :=
  ((s.setRg Rg.identity_WEST_COMPUTE 0 (ofBool (s.halfCompute 0))).setRg Rg.identity_EAST_COMPUTE 0
    (ofBool (s.halfCompute 1))).sqRaise Rg.identity_MAP_CHANGED Rg.identity_MAP_SEQ 0 1

/-- The unit-retired event (R40, R377). -/
def State.retiredEvent (s : State) (old new unit idx sub : Nat) : State :=
  s.event 0x0200 (old + new * 4 + unit * 2 ^ 4 + idx % 256 * 2 ^ 8 + sub % 256 * 2 ^ 16 + s.nowB48)

/-- A unit has left the working set: one update, and its event, which waits for the tick where its loss takes the working set below the
minimum of the level (R40). -/
def State.unitRetired (s : State) (unit idx sub : Nat) : State :=
  let s := s.mapUpdate
  let l := s.rg Rg.identity_SERVICE_LEVEL
  if s.levelOf < l ∧ s.fm.levelFall.isNone then { s with fm := { s.fm with levelFall := some (unit, idx, sub) } }
  else s.retiredEvent l l unit idx sub

/-- At a tick the level falls for a unit that has retired (R40). -/
def State.levelTick (s : State) : State :=
  match s.fm.levelFall with
  | none => s
  | some (unit, idx, sub) =>
    let old := s.rg Rg.identity_SERVICE_LEVEL
    let new := min old s.levelOf
    let s := ({ s with fm := { s.fm with levelFall := none } }.setRg Rg.identity_SERVICE_LEVEL 0 new).mapUpdate
    s.retiredEvent old new unit idx sub

/-- A unit has returned to service: one update, in which the level rises where the working set meets it again (R36, R40, R42). -/
def State.unitReturned (s : State) : State :=
  let l := s.rg Rg.identity_SERVICE_LEVEL
  (if l = 0 then s else s.setRg Rg.identity_SERVICE_LEVEL 0 (max l s.levelOf)).mapUpdate

/-! ## Tiles (R36, R450, R451) -/

/-- A tile's working bit is cleared. -/
def State.clearTile (s : State) (t : Nat) : State :=
  let w := s.rg Rg.identity_TILE_WORKING (t / 32)
  if bitN w (t % 32) then
    (s.setRg Rg.identity_TILE_WORKING (t / 32) (w - 2 ^ (t % 32))).setRg Rg.identity_TILES_WORKING 0
      (s.rg Rg.identity_TILES_WORKING - 1)
  else s

/-- A tile's bit of SPARE_TILE is cleared (R451). -/
def State.clearSpare (s : State) (t : Nat) : State :=
  s.setRg Rg.fault_SPARE_TILE (t / 32) (setBits (s.rg Rg.fault_SPARE_TILE (t / 32)) (t % 32) 1 0)

/-- The tiles that SPARE_TILE marks. -/
def State.spareTiles (s : State) : List Nat :=
  (List.range 256).filter (fun t => bitN (s.rg Rg.fault_SPARE_TILE (t / 32)) (t % 32))

/-- At a tick a faulted tile retires: the spare's own number leaves the working set, or the tile's where none has taken
over. -/
def State.retireTile (s : State) (t : Nat) (spare : Option Nat) : State :=
  match spare with
  | none => (s.clearTile t).unitRetired 0 (s.physOf t) 0
  | some p =>
    let gone := s.physOf t
    let s := (s.clearTile p).clearSpare p
    ({ s with fm := { s.fm with phys := (s.fm.phys.put t (s.physOf p)).del p } }).unitRetired 0 gone 0

/-- What is to retire at the tick retires (R450). -/
def State.retireTiles (s : State) : State :=
  s.fm.retiring.foldl (fun s e => s.retireTile e.1 e.2) { s with fm := { s.fm with retiring := [] } }

/-- The number for which a physical tile answers once it returns: its own, or that of the spare which answers for it (R450, R464; log
entry 132). -/
def State.freeNumber (s : State) (p : Nat) : Nat :=
  (List.range 256).foldl (fun n _ => if s.tileWorking n then s.physOf n else n) p

/-- A tile fault between ticks: what is to retire at the next one. -/
def State.retireSoon (s : State) (t : Nat) (spare : Option Nat) : State :=
  { s with fm := { s.fm with retiring := s.fm.retiring.filter (fun e => e.1 != t) ++ [(t, spare)] } }

/-! ## Pseudo-channels and stacks (R211, R453) -/

/-- A physical pseudo-channel retires; with fewer than 8 left the whole stack does (R37). -/
def State.retirePc (s : State) (st pc : Nat) : State :=
  if !s.pcWorking st pc then s
  else
    let w := s.rg Rg.identity_PC_WORKING st - 2 ^ pc
    let s := s.setRg Rg.identity_PC_WORKING st w
    let s := { s with hbm := { s.hbm with retiring := s.hbm.retiring ++ [(st, pc)], retired := s.hbm.retired ++ [(st, pc)] } }
    let s := s.unitRetired 2 st pc
    if popCount 32 w < 8 && bitN (s.rg Rg.identity_HBM_WORKING) st then
      ((((s.setRg Rg.identity_PC_WORKING st 0).setRg Rg.identity_HBM_WORKING 0
        (s.rg Rg.identity_HBM_WORKING - 2 ^ st))).unitRetired 3 st 0).scrubPass
    else s.scrubPass

/-- The HBM-map-changed event of a logical pseudo-channel. -/
def State.mapEvent (s : State) (st p phys : Nat) (hole : Bool) : State :=
  (s.sqRaise Rg.hbm_MAP_CHANGED Rg.hbm_MAP_SEQ 0 1).event 0x0201
    (st + p * 2 ^ 8 + phys * 2 ^ 16 + ofBool hole * 2 ^ 24 + s.nowB48)

/-- A logical pseudo-channel becomes a hole. -/
def State.holePc (s : State) (st p : Nat) : State :=
  if s.flag Rg.hbm_HOLE (32 * st + p) then s
  else (s.setRg Rg.hbm_HOLE (32 * st + p) 1).mapEvent st p (s.rg Rg.hbm_PHYS (32 * st + p)) true

/-- A retired physical pseudo-channel at the next tick: a working spare of its stack takes its logical one, whose contents
are then undefined, or that becomes a hole; a stack that has retired whole leaves only holes (R211). -/
def State.remapPc (s : State) (st pc : Nat) : State :=
  let maps (q : Nat) : Bool := (List.range s.pcs).any (fun p =>
    s.rg Rg.hbm_PHYS (32 * st + p) == q && !s.flag Rg.hbm_HOLE (32 * st + p))
  if !bitN (s.rg Rg.identity_HBM_WORKING) st then (List.range s.pcs).foldl (fun s p => s.holePc st p) s
  else
    match (List.range s.pcs).find? (fun p => s.rg Rg.hbm_PHYS (32 * st + p) == pc && !s.flag Rg.hbm_HOLE (32 * st + p)) with
    | none => s
    | some p =>
      match (List.range 32).find? (fun q => decide (s.pcs ≤ q) && s.pcWorking st q && !maps q) with
      | some q =>
        ((s.setRg Rg.hbm_PHYS (32 * st + p) q).loseRange (physKey st q 0) (physKey st q pcBytes)).mapEvent st p q false
      | none => s.holePc st p

/-- Pending retirements of pseudo-channels take effect at a tick. -/
def State.remapTick (s : State) : State :=
  let l := s.hbm.retiring
  l.foldl (fun s e => s.remapPc e.1 e.2) { s with hbm := { s.hbm with retiring := [] } }

/-! ## Links and lanes (R36, R272, R277, R279) -/

/-- The word of an LSTATE symbol. -/
def lstateWord (mid port up seq : Nat) : Nat := mid * 2 ^ 6 + port * 2 ^ 14 + up * 2 ^ 19 + seq % 4096 * 2 ^ 20

/-- An LSTATE symbol goes out on every UP port: on that which brought it too, so that the other end sees it echoed (R264, R280). -/
def State.flood (s : State) (word : Nat) : State :=
  ((List.range 24).filter (fun d => s.linkUp d)).foldl (fun s d => s.symbol d 8 word) s

/-- A port's own state enters the link map and is flooded. -/
def State.lstate (s : State) (d : Nat) (up : Bool) : State :=
  let k := s.port d
  let q := (k.lseq + 1) % 4096
  let m := s.rg Rg.beat_MID
  let s := s.setPort d { k with lseq := q }
  { s with dv := { s.dv with linkMap := s.dv.linkMap.put (32 * m + d) (up, q) } }.flood (lstateWord m d (ofBool up) q)

/-- The rest of a packet on its way through from port d is not sent any more: it leaves the queue that it has joined (R273). -/
def State.cutPass (s : State) (d vc : Nat) : State :=
  match (s.port d).pass.get? vc with
  | none => s
  | some (e, _) =>
    let s := s.setPort d { s.port d with pass := (s.port d).pass.del vc }
    if 24 ≤ e then s
    else s.setPort e { s.port e with
      queue := (s.port e).queue.filter (fun x => !(x.via == d && x.vc == vc && x.toCome != 0)) }

/-- A port leaves UP for `state`: its credits, its replay buffer, what it has half received and half sent go, what it has not begun to
send moves to other ports, and the others learn of it (R267, R272, R279). -/
def State.linkLeave (s : State) (d state lanes : Nat) : State :=
  let was := s.linkUp d
  let s := (List.range 8).foldl (fun s vc => s.cutPass d vc) s
  let k := s.port d
  let move := k.queue.filter (fun e => !e.begun && e.toCome == 0)
  let k : LinkPort := { k with
    replay := [], queue := [], asm := [], pass := [], credit := [], creditSeen := [], freed := [], rxNext := 0, txNext := 0, due := [],
    slot := 0, nakOpen := false, badRun := 0, rxAny := false, nakSeq := (0, 0), barred := true, lastSym := none, asked := none,
    drop := none }
  let s := (s.setPort d k).linkSet d state lanes
  let s := { s with dv := { s.dv with ports := s.dv.ports.map (fun (p : Nat × LinkPort) =>
    (p.1, { p.2 with pass := p.2.pass.map (fun (x : Nat × Nat × Nat) => if x.2.1 = d then (x.1, 24, x.2.2) else x) })) } }
  if was then ((move.foldl (fun s e => s.enqueue e) s).lstate d false).reroute else s

/-- A link retires (R36, R377): event cause 0 retrains failed, 1 fewer than 4 lanes, 2 no LANE_RETIRE. -/
def State.retireLink (s : State) (d cause : Nat) : State :=
  if s.rg Rg.dvport_STATE d = 6 then s
  else ((s.linkLeave d 6 0).event 0x0304 (d + cause * 2 ^ 8)).unitRetired 5 d 0

/-- A link leaves UP and retrains: cause 0 timeout, 1 retry limit, 2 request, 3 four discarded flits (R279). -/
def State.retrain (s : State) (d cause : Nat) : State :=
  if s.linkUp d then
    ((s.linkLeave d 4 (s.rg Rg.dvport_LANES d)).satRg Rg.dvport_RETRAINS d 1).event 0x0301 (d + cause * 2 ^ 8)
  else s

/-- The word of a LANE_DROP symbol. -/
def dropWord (mask : Nat) (confirm : Bool) : Nat := mask * 2 ^ 6 + ofBool confirm * 2 ^ 14

/-- The fault manager retires a lane: with LANE_RETIRE agreed it asks the other end, else, or with fewer than 4 lanes left,
the whole link retires (R277). -/
def State.retireLane (s : State) (d lane : Nat) : State :=
  let old := s.rg Rg.dvport_LANES d
  if !s.linkUp d || !bitN old lane || (s.port d).asked.isSome || (s.port d).drop.isSome then s
  else
    let mask := old - 2 ^ lane
    let s := s.setPort d { s.port d with lanes := setBits (s.port d).lanes lane 1 0 }
    let s := (s.event 0x0303 (d + lane * 2 ^ 8 + mask * 2 ^ 16)).unitRetired 4 d lane
    if popCount 8 mask < 4 then s.retireLink d 1
    else if !bitN (s.rg Rg.dvport_FEATURES d) 0 then s.retireLink d 2
    else (s.setPort d { s.port d with asked := some mask }).symbol d 11 (dropWord mask false)

/-! ## Routers (R27, R455) -/

/-- The pseudo-channels of the HBM controller that a router carries: stack and controller. -/
def routerHbm (r : Nat) : Option (Nat × Nat) :=
  let (h, x, y) := posOf r
  if y ≠ 0 then none
  else if x < 4 then some (3 * h, x)
  else if 6 ≤ x ∧ x < 10 then some (3 * h + 1, x - 6)
  else if 12 ≤ x then some (3 * h + 2, x - 12)
  else none

/-- The link port that a router carries. -/
def routerLink (r : Nat) : Option Nat :=
  let (h, x, y) := posOf r
  if h = 0 ∧ x = 0 then some y
  else if h = 1 ∧ x = 15 then some (12 + y)
  else if y = 0 then
    (match x with
     | 4 => some (12 * h + 8) | 5 => some (12 * h + 9) | 10 => some (12 * h + 10) | 11 => some (12 * h + 11) | _ => none)
  else none

/-- The hub port that a router carries, as its bit of HUBPORT_WORKING. -/
def routerHub (r : Nat) : Option Nat :=
  let (h, x, y) := posOf r
  if y = 7 then
    (match x with
     | 2 => some (4 * h) | 6 => some (4 * h + 1) | 9 => some (4 * h + 2) | 13 => some (4 * h + 3) | _ => none)
  else none

/-- A bit of a working field is cleared, and the unit's retirement reported. -/
def State.retireBit (s : State) (f : Fld) (b unit : Nat) : State :=
  if bitN (s.rg f) b then (s.setRg f 0 (s.rg f - 2 ^ b)).unitRetired unit b 0 else s

/-- A router retires, and every attachment that it carries with it, each reported as its own unit (R455). -/
def State.retireRouter (s : State) (r : Nat) : State :=
  let s := { s with fm := { s.fm with routers := insertNat r s.fm.routers } }.unitRetired 1 r 0
  let s := match routerHbm r with
    | some (st, c) => (List.range 8).foldl (fun s i => s.retirePc st (8 * c + i)) s
    | none => s
  let s := match routerLink r with
    | some d => s.retireLink d 0
    | none => s
  let s := match routerHub r with
    | some b => s.retireBit Rg.identity_HUBPORT_WORKING b 7
    | none => s
  if (r / 128 = 0 ∧ r % 16 = 15) ∨ (r / 128 = 1 ∧ r % 16 = 0) then s.retireBit Rg.identity_BRIDGE_WORKING (r / 16 % 8) 6 else s

end Sys2Proof.Machine
end

