-- ==== Sys2Proof/Machine/Rows.lean ====
section
/-!
DEFINITION. The sequencer: arming a table, issuing each class of row, completing rows, and the exchange over the Trellis
(R64-R69, R76-R79, R90-R92, R111-R121).
-/
namespace Sys2Proof.Machine

/-! ## Arming (R66-R69) -/

/-- ARM: the check, then ARMED, or the error (R66, R67). At level 1 no new table is accepted (R40). -/
def execArm (t : Nat) (s : State) : Res :=
  if !s.tileUp t || s.rg Rg.identity_SERVICE_LEVEL == 1 then .next s
  else
    let k := s.tile t
    if k.arm ≠ 0 then .next (s.armErr t 7 0)
    else
      let c := s.armCheck t (1 - k.bank)
      let s := s.armErr t c.1 c.2
      if c.1 ≠ 0 then .next s
      else .next ((s.setTile t { k with arm := 1 }).setRg Rg.seq_NEXT_TABLE_ID t (bits (s.slotOf t (1 - k.bank) 0) 32 32))

/-- ARM_SAME arms the running table again (R66). -/
def execArmSame (t : Nat) (s : State) : Res :=
  if !s.tileUp t then .next s
  else
    let k := s.tile t
    if k.arm ≠ 0 then .next (s.armErr t 7 0)
    else
      .next (((s.armErr t 0 0).setTile t { k with arm := 2 }).setRg Rg.seq_NEXT_TABLE_ID t
        (bits (s.slotOf t k.bank 0) 32 32))

/-- DISARM: in time it clears ARMED and sets DISARM_OK; too late it clears DISARM_OK. In an open beat the ARM's own cycle
has taken the place of the tick, so the DISARM is late (R66, R68; log entry 15). -/
def execDisarm (t : Nat) (late : Bool) (s : State) : Res :=
  if !s.tileUp t then .next s
  else
    let k := s.tile t
    if late || (k.openBeat && k.arm != 0) then .next (s.setRg Rg.seq_DISARM_OK t 0)
    else .next ((s.setTile t { k with arm := 0 }).setRg Rg.seq_DISARM_OK t 1)

/-- The scratch region of the table in a tile's running bank becomes undefined (R64, R80, R81). -/
def State.loseScratch (s : State) (t : Nat) : State :=
  let r := scratchOf (s.runSlot t 0) t
  if (s.tile t).loaded && decide (r.lo < r.hi) then s.loseRange (kSlice t (32 * r.lo)) (kSlice t (32 * r.hi)) else s

/-- A tick takes the table of a bank: it becomes the running bank, and the other one is writable and unarmed (R60, R61). -/
def State.takeBank (s : State) (t bank : Nat) : State :=
  let h := s.slotOf t bank 0
  (s.setTile t { s.tile t with
    bank := bank, arm := 0, openBeat := false, loaded := true, running := false, rows := bits h 16 12, next := 2, track := [],
    waitRow := none, skip := [], stopped := false, notes := [], log := [], plain := [] }).setRg
      Rg.seq_RUN_TABLE_ID t (bits h 32 32)

/-- The table of the bank starts from its first row, with undefined scratch (R60, R61, R64). -/
def State.startTable (s : State) (t bank : Nat) : State :=
  let s := s.takeBank t bank
  (s.setTile t { s.tile t with running := true }).loseScratch t

/-- The bank that an armed tile runs next: the other one, or after ARM_SAME the running one (R66). -/
def Tile.armedBank (k : Tile) : Nat := if k.arm = 1 then 1 - k.bank else k.bank

/-- FOR_BEAT of the table in a bank (R62). -/
def State.forBeat (s : State) (t bank : Nat) : Nat := bits (s.slotOf t bank 0) 192 64

/-- The armed table of a tile is taken for beat `n`: FOR_BEAT is judged, then the banks swap, or ARM_SAME keeps the bank, and where
beats run the table starts. A mismatch is table error 9: the bank is disarmed and keeps its contents (R60, R69). -/
def State.swapIn (s : State) (t n : Nat) : State :=
  let k := s.tile t
  let fb := s.forBeat t k.armedBank
  if fb = 2 ^ 64 - 1 ∨ fb = n % 2 ^ 64 then
    if s.dom.ticking then s.startTable t k.armedBank else s.takeBank t k.armedBank
  else (s.setTile t { k with arm := 0, running := false, openBeat := false }).tableErr t 9 0 none

/-- An ARM or ARM_SAME becomes visible to a sequencer that holds an open beat (R68). -/
def execArmVisibleOpenBeat (t : Nat) (s : State) : Res :=
  let k := s.tile t
  if s.tileUp t && k.openBeat && k.arm != 0 && !k.stopped && s.dom.ticking then .next (s.swapIn t (s.rg Rg.beat_BEATNO)) else .next s

/-! ## Issue (R90, R115) -/

/-- The next row of tile t, when it is of the class and every condition that does not look at its unit holds: slot and
bits. -/
def State.nextRow (s : State) (t cls : Nat) : Option (Nat × Nat) :=
  let k := s.tile t
  let slot := k.nextSlot
  let w := s.runSlot t slot
  if s.tileUp t && k.running && !k.stopped && !k.openBeat && k.waitRow.isNone && decide (slot < k.rows + 2)
    && rowClass w == cls && (!rowBarrier w || k.track.isEmpty) then some (slot, w)
  else none

/-- Two footprints overlap in one space, and one of them is written (R115). -/
def Foot.clash (a b : Foot) : Bool :=
  a.hbm == b.hbm && (a.wr || b.wr) && decide (a.lo < b.hi ∧ b.lo < a.hi)

/-- The tracker has room and finds no hazard (R115). -/
def Tile.trackOk (k : Tile) (fs : List Foot) : Bool :=
  decide (k.track.length < 16) && !k.track.any (fun r => r.foots.any (fun f => fs.any f.clash))

/-- The unit of a class has room (R90). -/
def Tile.unitOk (k : Tile) (cls : Nat) : Bool :=
  match cls with
  | 0 | 1 => decide (k.busy cls < 2)
  | 2 => decide (k.busy 2 < 4)
  | _ => decide (k.busy 3 + k.busy 5 < 16)

/-- A row joins the tracker, and the next slot is due. -/
def State.track (s : State) (t slot : Nat) (r : TrackRow) : State :=
  let k := s.tile t
  (s.setTile t { k with next := slot + 1, track := k.track ++ [r] }).perf t Rg.tile_ROWS 5 1

/-- A row without a place in the tracker has issued. -/
def State.passed (s : State) (t slot : Nat) (f : Tile → Tile) : State :=
  (s.setTile t (f { s.tile t with next := slot + 1 })).perf t Rg.tile_ROWS 5 1

/-- A matrix row issues (R72, R100). -/
def execMatrixRow (t : Nat) (s : State) : Res :=
  match s.nextRow t 0 with
  | none => .next s
  | some (slot, w) =>
    let r := MatRow.of w
    if (s.tile t).unitOk 0 && (s.tile t).trackOk r.foots then
      let o := s.runMatrix t r
      .next (s.track t slot { slot := slot, cls := 0, foots := r.foots, writes := o.1, err := o.2 })
    else .next s

/-- A vector row issues (R74, R107). -/
def execVectorRow (t : Nat) (s : State) : Res :=
  match s.nextRow t 1 with
  | none => .next s
  | some (slot, w) =>
    let r := VecRow.of w
    if (s.tile t).unitOk 1 && (s.tile t).trackOk r.foots then
      let o := s.runVector t r
      .next (s.track t slot { slot := slot, cls := 1, foots := r.foots, writes := o.1, err := o.2 })
    else .next s

/-- 64-byte units of a move that pass the exchange ports (R108, R119). -/
def State.movePorts (s : State) (t : Nat) (r : MoveRow) : State :=
  let other (sp base : Nat) : Bool := sp == 1 && !isOwn t sp base
  let n := ceilDiv (r.lines * r.len) 64
  let m := ceilDiv (r.lines * r.outBytes) 64
  let s := if other r.ss r.sa then (s.perf t Rg.tile_EXCH_IN_64 7 n).perf (r.sa / 2 ^ 24) Rg.tile_EXCH_OUT_64 6 n else s
  if other r.ds r.da then (s.perf t Rg.tile_EXCH_OUT_64 6 m).perf (r.da / 2 ^ 24) Rg.tile_EXCH_IN_64 7 m else s

/-- A move row issues (R75). -/
def execMoveRow (t : Nat) (s : State) : Res :=
  match s.nextRow t 2 with
  | none => .next s
  | some (slot, w) =>
    let r := MoveRow.of w
    if (s.tile t).unitOk 2 && (s.tile t).trackOk (r.foots t) then
      let (s1, o) := s.runMove t r
      let s1 := if o.2 = 0 then s1.movePorts t r else s1
      .next (s1.track t slot { slot := slot, cls := 2, foots := r.foots t, writes := o.1, err := o.2 })
    else .next s

/-! ## Exchange rows (R76, R78, R111, R112) -/

/-- Entries of one exchange packet: 4,096 bytes, 2,048 anchors or 204 partials (log entry 16). -/
def packetEntries (op : Nat) : Nat := match op with | 0 => 4096 | 1 => 2048 | _ => 204

/-- The bytes of an exchange row at its source. -/
def XRow.bytes (x : XRow) : Nat := x.unit * x.len

/-- The packets of an exchange row. -/
def State.packets (s : State) (t slot : Nat) (x : XRow) : List XPkt :=
  let per := packetEntries x.op
  let n := ceilDiv x.len per
  (List.range n).map (fun i =>
    { srcMid := s.rg Rg.beat_MID, srcTile := t, srcSlot := slot, beat := s.rg Rg.beat_BEATNO % 256,
      attempt := s.dom.attempt, dstMid := x.mid, dstTile := x.tile, vc := x.vc, dctr := x.ctr, op := x.op,
      addr := 32 * x.da, aaddr := 32 * x.aa, first := i * per,
      data := s.readB (kSlice t (32 * x.sa) + x.unit * (i * per)) (x.unit * min per (x.len - i * per)),
      last := i + 1 == n })

/-- A MID under which this module takes exchanges: its own, or the one it stands in for (R292). -/
def State.myMid (s : State) (m : Nat) : Bool :=
  m == s.rg Rg.beat_MID || (s.flag Rg.dvorar_ALIAS_EN && m == s.rg Rg.dvorar_ALIAS_MID)

/-- An exchange or anchor-exchange row issues. EXCH_OUT_64 counts the row's bytes in 64-byte units, rounded up once; DESIGN CHOICE:
the receiver rounds up per packet (log entry 128). A source beyond the slice space, or a destination tile of this module that
is not enabled, not working, or in the other half without a bridge channel, is table error 10 at the sender (R112). -/
def State.issueExchange (s : State) (t slot cls : Nat) (x : XRow) : State :=
  let lo := x.sa
  let hi := x.sa + ceilDiv x.bytes 32
  let fs : List Foot := [{ hbm := false, lo := lo, hi := hi, wr := false }]
  if (s.tile t).unitOk cls && (s.tile t).trackOk fs then
    let bad := decide (s.sliceLines t < hi)
      || (s.myMid x.mid && !(s.tileEnabled x.tile && s.tileUp x.tile && s.tilesMeet t x.tile))
    if bad then
      (s.track t slot { slot := slot, cls := cls, foots := fs, err := 10 }).tableErr t 10 slot none
    else
      let ps := s.packets t slot x
      let s := s.track t slot { slot := slot, cls := cls, foots := fs, left := ps.length }
      let s := if s.myMid x.mid then { s with trellis := s.trellis ++ ps } else s.dvExchange ps
      s.perf t Rg.tile_EXCH_OUT_64 6 (ceilDiv x.bytes 64)
  else s

/-- An exchange row issues (R76). -/
def execExchangeRow (t : Nat) (s : State) : Res :=
  match s.nextRow t 3 with
  | none => .next s
  | some (slot, w) => .next (s.issueExchange t slot 3 (XRow.ofExchange w))

/-- An anchor-exchange row issues (R78). -/
def execAnchorExchangeRow (t : Nat) (s : State) : Res :=
  match s.nextRow t 5 with
  | none => .next s
  | some (slot, w) => .next (s.issueExchange t slot 5 (XRow.ofAnchor w))

/-! ## Wait and mark rows (R77, R79) -/

/-- A wait row issues and holds the later rows. -/
def execWaitRow (t : Nat) (s : State) : Res :=
  match s.nextRow t 4 with
  | none => .next s
  | some (slot, w) =>
    .next (s.passed t slot (fun k =>
      { k with waitRow := some { kind := bits w 8 4, index := bits w 12 4, value := bits w 32 32 } }))

/-- The condition of a wait row (R77, R224). -/
def State.waitHolds (s : State) (t : Nat) (r : WaitRow) : Bool :=
  match r.kind with
  | 0 => decide (r.value ≤ (s.tile t).arrival.getD 0 r.index)
  | 1 => decide (r.value ≤ s.rg Rg.tile_DELIVERED (16 * t + r.index))
  | 2 => decide (r.value ≤ s.rg Rg.beat_DTIME - s.dom.beatStart)
  | _ => (s.tile t).track.isEmpty

/-- The condition of the wait row holds, and later rows may issue (R92). -/
def execWaitConditionMet (t : Nat) (s : State) : Res :=
  let k := s.tile t
  match k.waitRow with
  | none => .next s
  | some r => if s.waitHolds t r && !k.stopped then .next (s.setTile t { k with waitRow := none }) else .next s

/-- The next row, when it is a mark row of the kind. -/
def State.nextMark (s : State) (t kind : Nat) : Option (Nat × Nat) :=
  match s.nextRow t 6 with
  | none => none
  | some x => if bits x.2 8 4 = kind then some x else none

/-- A mark NOTE queues its value for delivery at commit. -/
def execMarkNote (t : Nat) (s : State) : Res :=
  match s.nextMark t 0 with
  | none => .next s
  | some (slot, w) => .next (s.passed t slot (fun k => { k with notes := k.notes ++ [bits w 32 32] }))

/-- A mark EXPORT copies bytes into commit-gate staging of 8 MiB; while there is no room the row waits (R79). -/
def execMarkExport (t : Nat) (s : State) : Res :=
  match s.nextMark t 1 with
  | none => .next s
  | some (slot, w) =>
    let a := bits w 64 19
    let n := bits w 83 24
    let fs : List Foot := [{ hbm := false, lo := a, hi := a + ceilDiv n 32, wr := false }]
    if !(s.tile t).trackOk fs then .next s
    else if s.sliceLines t < a + ceilDiv n 32 then .next ((s.passed t slot id).tableErr t 10 slot none)
    else if 2 ^ 18 < s.stagingUnits + ceilDiv n 32 then .next s
    else
      let e : Export := { tile := t, slot := slot, channel := bits w 16 16, bytes := s.readB (kSlice t (32 * a)) n }
      let s := s.passed t slot id
      .next ({ s with dom := { s.dom with staging := s.dom.staging ++ [e] } }.showStaging.perf t Rg.tile_EXCH_OUT_64 6 (ceilDiv n 64))

/-- The contents of a slice line become undefined. -/
def State.loseLine (s : State) (t l : Nat) : State := s.loseRange (kSlice t (32 * l)) (kSlice t (32 * l + 32))

/-- A row of tile t has written a line of its slice inside an output window: where an exchange has written it in the same beat, its
contents are undefined (R114). -/
def State.wroteOwn (s : State) (t l : Nat) : State :=
  let k := s.tile t
  let s := s.setTile t { k with own := insertNat l k.own }
  if k.sent.any (fun e => e.1 == l) then s.loseLine t l else s

/-- An exchange row of a sender has written a line of tile t's slice: where a row of the tile or another sender has written it in
the same beat, its contents are undefined (R114). -/
def State.wroteSent (s : State) (t l : Nat) (sender : Nat × Nat) : State :=
  let k := s.tile t
  let s := s.setTile t { k with sent := if k.sent.contains (l, sender) then k.sent else (l, sender) :: k.sent }
  if k.own.contains l || k.sent.any (fun e => e.1 == l && e.2 != sender) then s.loseLine t l else s

/-- A mark STAMP writes BEATNO and its slot number to an output window (R79). -/
def execMarkStamp (t : Nat) (s : State) : Res :=
  match s.nextMark t 2 with
  | none => .next s
  | some (slot, w) =>
    let a := bits w 64 19
    let l : Loc := .slice t a
    if !(s.tile t).trackOk [{ hbm := false, lo := a, hi := a + 1, wr := true }] then .next s
    else if s.sliceLines t ≤ a then .next ((s.passed t slot id).tableErr t 10 slot none)
    else match s.winHit t l with
      | none => .next ((s.passed t slot id).tableErr t 8 slot none)
      | some lg =>
        .next ((((s.passed t slot id).touch t l lg).writeB (kSlice t (32 * a))
          (leBytes 8 (s.rg Rg.beat_BEATNO) ++ leBytes 4 slot)).wroteOwn t a)

/-! ## Completion (R90, R91, R118) -/

/-- Mirroring ends: SPARE_VALID falls, with its event and notices (R456). -/
def State.mirrorLapse (s : State) : State :=
  ((s.setRg Rg.fault_SPARE_VALID 0 0).event 0x0703
    (s.rg Rg.beat_MID + s.rg Rg.place_SPARE_MID * 2 ^ 8 + s.nowB48)).noticeAll 5 0

/-- The HBM line lies in a mirror range. -/
def State.mirrored (s : State) (u : Nat) : Bool :=
  (List.range 8).any (fun k => s.flag Rg.fault_MIRROR_EN k
    && decide (s.rg Rg.fault_MIRROR_BASE k ≤ u / 2 ^ 16 ∧ u / 2 ^ 16 ≤ s.rg Rg.fault_MIRROR_LIM k))

/-- A covered member sends the spare what a row writes into an HBM window inside a mirror range; more than 16 MiB in a beat
end coverage (R456). -/
def State.mirrorRow (s : State) (u : Nat) (bs : List Byte) : State :=
  if s.flag Rg.fault_SPARE_VALID && s.flag Rg.place_SPARE_EN && s.mirrored u then
    let n := s.fm.mirrorBytes + bs.length
    let s := { s with fm := { s.fm with mirrorBytes := n } }
    if 2 ^ 24 < n then s.mirrorLapse
    else { s with fm := { s.fm with mirrorOut := s.fm.mirrorOut + 1 } }.emit (.mirror (s.rg Rg.place_SPARE_MID) (32 * u) bs)
  else s

/-- A line's write under a row of tile t: the error it meets, or the write (R64, R82, R112). -/
def State.writeRow (s : State) (t : Nat) (l : Loc) (bs : List Byte) : State × Nat :=
  let dead := match l with
    | .slice u _ => u != t && !(s.tileEnabled u && s.tileUp u)
    | .hbm _ => false
  match s.locFrom t l with
  | none => (s, 10)
  | some k =>
    if dead then (s, 10)
    else match s.winHit t l with
      | some lg =>
        let s := match l with
          | .hbm u => (s.uncache t (32 * u) 32).mirrorRow u bs
          | .slice _ _ => s
        let s := (s.touch t l lg).writeB k bs
        (match l with
         | .slice u n => (if u = t then s.wroteOwn t n else s, 0)
         | .hbm _ => (s, 0))
      | none => if s.inScratch t l then (s.writeB k bs, 0) else (s, 8)

/-- Lines are written in order, up to the first that fails. -/
def State.writeRows (s : State) (t : Nat) : List (Loc × List Byte) → State × Nat
  | [] => (s, 0)
  | (l, bs) :: rest =>
    match s.writeRow t l bs with
    | (s1, 0) => State.writeRows s1 t rest
    | (s1, e) => (s1, e)

/-- The cycle counters of a tile advance by what the row's time is; the model has no tile clock (R119; log entry 11). -/
def State.perfCycles (s : State) (t : Nat) : State :=
  ([(Rg.tile_CYC_MATRIX, 0), (Rg.tile_CYC_VECTOR, 1), (Rg.tile_CYC_CONFLICT, 2), (Rg.tile_CYC_HAZARD, 3),
    (Rg.tile_CYC_UNIT, 4)] : List (Fld × Nat)).foldl (fun s f =>
      if s.flag Rg.tile_PERF_EN t then (s.perf t f.1 f.2 (s.free % 2 ^ 40)).drawn else s) s

/-- The line number that a fault report names: of the slice, or of HBM in 32-byte units. -/
def Loc.line : Loc → Nat
  | .slice _ l => l
  | .hbm u => u

/-- The writes of a row before the line on which its check fails; a parity error on a line that the row reads may leave any
number of them written (R96, R118). -/
def TrackRow.before (r : TrackRow) (parity : Bool) (line free : Nat) : List (Loc × List Byte) :=
  if parity then r.writes.take (free % (r.writes.length + 1)) else r.writes.takeWhile (fun w => w.1.line != line)

/-- A check of tile t fails on a line (R118): the failing line and every later line of the faulted row stay unwritten, no further
row issues, and the counter of the check advances. `check` is that of R470: 0 is parity. -/
def State.checkFails (s : State) (t slot check line : Nat) : State :=
  let s := match (s.tile t).track.find? (fun r => r.slot == slot && decide (r.cls < 3)) with
    | some r => (s.drawn.writeRows t (r.before (check == 0) line s.free)).1
    | none => s
  let s := (s.setTile t { s.tile t with stopped := true }).setRg Rg.tile_HALTED_FAULT t 1
  match check with
  | 0 => s.satRg Rg.tile_PAR_ERRS t 1
  | 1 | 2 => s.satRg Rg.tile_RES_ERRS t 1
  | _ => s

/-- A row of tile t is faulted as it runs: R118, and its report. `chk` 3 is parity of the slice line `at_` that it read, 1 and 2 fail
on its write `at_`. -/
def State.rowFault (s : State) (t : Nat) (r : TrackRow) (chk at_ : Nat) : State :=
  let line := if chk = 3 then at_ else ((r.writes[at_]?).map (fun x => x.1.line)).getD 0
  let s := s.checkFails t r.slot (chk % 3) line
  s.detect (.rowFault t (s.rg Rg.seq_RUN_TABLE_ID t) r.slot (chk % 3) 0 line)

/-- A matrix, vector or move row finishes. `chk` 0: its checks agree; 1 residue, 2 duplication: the check that fails at
its write `at_`; 3 parity of the slice line `at_` that it read. A write to a pending cutting holds it (R485). Matrix rows, and vector rows, finish in issue order (R91). -/
def execRowComplete (t slot chk at_ : Nat) (s : State) : Res :=
  let k := s.tile t
  match k.track.find? (fun r => r.slot == slot) with
  | none => .next s
  | some r =>
    if 2 < r.cls ∨ k.stopped = true then .next s
    else if r.cls < 2 && (k.track.find? (fun q => q.cls == r.cls)).any (fun q => q.slot != slot) then .next s
    else if chk ≠ 0 then .next (s.rowFault t r chk at_)
    else if r.writes.any (fun w => match w.1 with | .hbm u => s.cowHeld (32 * u) 32 | .slice .. => false) then .next s
    else if r.err ≠ 0 then .next (s.tableErr t r.err slot none)
    else
      match s.writeRows t r.writes with
      | (s1, 0) =>
        .next ((s1.setTile t { s1.tile t with track := (s1.tile t).track.filter (fun q => q.slot != slot) }).perfCycles t)
      | (s1, e) => .next (s1.tableErr t e slot none)

/-- The acknowledgement of an exchange row has returned (R110). -/
def execExchangeAck (t slot : Nat) (s : State) : Res :=
  let k := s.tile t
  if k.track.any (fun r => r.slot == slot && (r.cls == 3 || r.cls == 5) && r.left == 0 && r.err == 0) && !k.stopped then
    .next (s.setTile t { k with track := k.track.filter (fun r => r.slot != slot) })
  else .next s

/-! ## Arrival (R76, R111-R114, R147) -/

/-- The lines that a byte range of a slice touches. -/
def linesOf (a n : Nat) : List Nat := (List.range ((a % 32 + n + 31) / 32)).map (fun i => a / 32 + i)

/-- Every line of the range lies in an output window of tile t's running table; `logged` asks for LOGGED windows. -/
def State.inWindows (s : State) (t a n : Nat) (logged : Bool) : Bool :=
  (linesOf a n).all (fun l => decide (l < s.sliceLines t) &&
    (match s.winHit t (.slice t l) with
     | some lg => lg || !logged
     | none => false))

/-- The exchange port writes bytes inside output windows of tile t's running table, and sets the provenance bits of their
lines (R450). -/
def State.windowWrite (s : State) (t a : Nat) (bs : List Byte) : State :=
  let s := ((linesOf a bs.length).foldl (fun s l =>
    match s.winHit t (.slice t l) with
    | some lg => s.touch t (.slice t l) lg
    | none => s) s).writeB (kSlice t a) bs
  s.setTile t { s.tile t with prov := (linesOf a bs.length).foldl (fun p l => insertNat l p) (s.tile t).prov }

/-- An exchange row's packet is written: its lines are noted with their sender (R114). -/
def State.exchangeWrite (s : State) (t a : Nat) (bs : List Byte) (sender : Nat × Nat) : State :=
  (linesOf a bs.length).foldl (fun s l => s.wroteSent t l sender) (s.windowWrite t a bs)

/-- The entries of an anchor packet combine by signed maximum (R147). -/
def State.combineAnchors (s : State) (t a : Nat) : Nat → List Byte → State
  | 0, _ => s
  | n + 1, bs =>
    let d := anchorOf (s.readN (kSlice t a) 2)
    let p := anchorOf (leNat (bs.take 2))
    State.combineAnchors (s.windowWrite t a (leBytes 2 (anchorCode (anchorMax d p)))) t (a + 2) n (bs.drop 2)

/-- The entries of a partial packet add on their agreed anchors (R147). -/
def State.combineValues (s : State) (t a g : Nat) : Nat → List Byte → State
  | 0, _ => s
  | n + 1, bs =>
    let d := ASum.ofBytes (s.readB (kSlice t a) 20)
    let p := ASum.ofBytes (bs.take 20)
    let ag := anchorOf (s.readN (kSlice t g) 2)
    State.combineValues (s.windowWrite t a (d.combine ag p).bytes) t (a + 20) (g + 2) n (bs.drop 20)

/-- Destination bytes of a packet: where they start and how many. -/
def XPkt.place (p : XPkt) : Nat × Nat :=
  match p.op with
  | 0 => (p.addr + p.first, p.data.length)
  | 1 => (p.addr + 2 * p.first, p.data.length)
  | _ => (p.addr + 20 * p.first, p.data.length)

/-- The arrival counter of a tile advances, up to 2^16 − 1 (R76). -/
def State.arrive (s : State) (t c : Nat) : State :=
  let k := s.tile t
  s.setTile t { k with arrival := k.arrival.set 0 c (satAdd 16 (k.arrival.getD 0 c) 1) }

/-- A packet of this beat and attempt is written or combined, or discarded as a table error of the destination (R112,
R113). -/
def State.landPacket (s : State) (p : XPkt) : State :=
  let t := p.dstTile
  let (a, n) := p.place
  let s := s.perf t Rg.tile_EXCH_IN_64 7 (ceilDiv n 64)
  let sender := some (p.srcMid, p.srcTile)
  if !s.inWindows t a n (p.op != 0) then s.tableErr t 8 0 sender
  else if p.op = 2 ∧ 32 * s.sliceLines t < p.aaddr + 2 * (p.first + n / 20) then s.tableErr t 10 0 sender
  else
    let s := match p.op with
      | 0 => s.exchangeWrite t a p.data (p.srcMid, p.srcTile)
      | 1 => s.combineAnchors t a (n / 2) p.data
      | _ => s.combineValues t a (p.aaddr + 2 * p.first) (n / 20) p.data
    if p.last then s.arrive t p.dctr else s

/-- The sender's count of packets outstanding falls. -/
def State.acked (s : State) (p : XPkt) : State :=
  if s.myMid p.srcMid then
    let k := s.tile p.srcTile
    s.setTile p.srcTile { k with
      track := k.track.map (fun r => if r.slot = p.srcSlot then { r with left := r.left - 1 } else r) }
  else s

/-- A packet reaches its destination tile: discarded when its attempt is another one, held while its beat is ahead, else
landed (R111). A tile that is not working fails the row at the sender (R112). -/
def State.takePacket (s : State) (p : XPkt) : State :=
  if p.attempt ≠ s.dom.attempt then s
  else if s.moving p.dstTile then
    s.setTile p.dstTile { s.tile p.dstTile with held := (s.tile p.dstTile).held ++ [p] }
  else if !s.tileUp p.dstTile then
    (if s.myMid p.srcMid then s.tableErr p.srcTile 10 p.srcSlot none else s)
  else
    let ahead := (p.beat + 256 - s.rg Rg.beat_BEATNO % 256) % 256
    if 0 < ahead ∧ ahead < 128 then
      let k := s.tile p.dstTile
      s.setTile p.dstTile { k with held := k.held ++ [p] }
    else (s.landPacket p).acked p

/-- Two packets of one row travel one path and arrive in order (R109). -/
def XPkt.sameRow (p q : XPkt) : Bool :=
  p.srcMid == q.srcMid && p.srcTile == q.srcTile && p.srcSlot == q.srcSlot && p.dstTile == q.dstTile

/-- The n-th packet on the Trellis arrives, when no earlier packet of its row is still on the way and its operation is
`op`. -/
def State.arriveNth (s : State) (op n : Nat) : State :=
  match s.trellis[n]? with
  | none => s
  | some p =>
    if p.op ≠ op ∨ (s.trellis.take n).any (fun q => p.sameRow q) = true then s
    else
      let s := { s with trellis := s.trellis.eraseIdx n }
      let k := s.tile p.dstTile
      if k.held.any (fun q => p.sameRow q) then s.setTile p.dstTile { k with held := k.held ++ [p] } else s.takePacket p

/-- An inbound exchange packet arrives (R112). -/
def execExchangePacketArrive (n : Nat) (s : State) : Res := .next (s.arriveNth 0 n)

/-- An arriving array of anchors is combined (R113, R147). -/
def execAnchorMaxCombine (n : Nat) (s : State) : Res := .next (s.arriveNth 1 n)

/-- An arriving array of partials is combined (R113, R147). -/
def execValueAddCombine (n : Nat) (s : State) : Res := .next (s.arriveNth 2 n)

/-- A held packet of tile t is taken once the tile's beat has reached it (R111). -/
def execHeldPacketRelease (t n : Nat) (s : State) : Res :=
  let k := s.tile t
  match k.held[n]? with
  | none => .next s
  | some p =>
    let ahead := (p.beat + 256 - s.rg Rg.beat_BEATNO % 256) % 256
    if (0 < ahead ∧ ahead < 128) ∨ s.moving t = true ∨ (k.held.take n).any (fun q => p.sameRow q) = true then .next s
    else .next ((s.setTile t { k with held := k.held.eraseIdx n }).takePacket p)

/-- PERF_CLR zeroes every performance counter, RES_ERRS, PAR_ERRS and every WRAP flag (R119, R121). -/
def execPerfClr (t : Nat) (s : State) : Res :=
  .next (([Rg.tile_CYC_MATRIX, Rg.tile_CYC_VECTOR, Rg.tile_CYC_CONFLICT, Rg.tile_CYC_HAZARD, Rg.tile_CYC_UNIT,
    Rg.tile_ROWS, Rg.tile_EXCH_OUT_64, Rg.tile_EXCH_IN_64, Rg.tile_RES_ERRS, Rg.tile_PAR_ERRS, Rg.tile_WRAP] : List Fld).foldl (fun s f => s.setRg f t 0) s)

end Sys2Proof.Machine
end

