-- ==== Sys2Proof/Machine/DvRecv.lean ====
section
/-!
DEFINITION. The transport engines: requests received, applied and acknowledged, responses, retransmission, remote memory
access and paging (R284-R292).
-/
namespace Sys2Proof.Machine

/-! ## The receiving end -/

/-- The key of a receiver. -/
def recvKey (src origin cn : Nat) : Nat := src * 2 ^ 14 + origin * 2 ^ 12 + cn

/-- A receiver. -/
def State.recv (s : State) (k : Nat) : RecvConn := s.dv.recv.getD {} k

/-- A receiver is replaced. -/
def State.setRecv (s : State) (k : Nat) (r : RecvConn) : State := { s with dv := { s.dv with recv := s.dv.recv.set {} k r } }

/-- A response of connection `k` goes back to its sender. -/
def State.respond (s : State) (k op psn aux opid addr : Nat) (data : List Byte) (last : Bool) : State :=
  let origin := k / 2 ^ 12 % 4
  s.sendPkt { blankPkt with
    op := op, epoch := if origin = 2 then 0 else s.dom.attempt, last := last, src := s.srcMid origin, dst := k / 2 ^ 14,
    cn := k % 2 ^ 12, origin := origin, psn := psn, beat := s.rg Rg.beat_BEATNO % 256, len := data.length, addr := addr,
    aux := aux, opid := opid, data := data }

/-- The PSN before another. -/
def psnPred (n : Nat) : Nat := (n + 2 ^ 24 - 1) % 2 ^ 24

/-- The SACK bitmap: bit i is the PSN i + 1 above the cumulative one (R283, R285). -/
def RecvConn.sack (r : RecvConn) : Nat :=
  (List.range 64).foldl (fun a i => if r.held.any (fun q => q.psn == (r.next + i) % 2 ^ 24) then a + 2 ^ i else a) 0

/-- An ACK of everything applied. -/
def State.ack (s : State) (k : Nat) : State :=
  let r := s.recv k
  (s.setRecv k { r with since := 0 }).respond k 0x10 (psnPred r.next) 0 0 r.sack [] false

/-! ## Remote memory (R290, R291) -/

/-- The entry of the remote-access translation table for a remote address. -/
def State.rattEntry (s : State) (a : Nat) : Nat :=
  s.readN (kHub (s.rg Rg.dvorar_RATT_BASE * 2 ^ 20 + 4 * (a / 2 ^ 21))) 4

/-- A range of a remote HBM address cut at 2 MiB pages. -/
def pageSpans (a n : Nat) : List (Nat × Nat) :=
  let first := min n (2 ^ 21 - a % 2 ^ 21)
  if first = n then [(a, n)] else [(a, first), (a + first, n - first)]

/-- The local spans of an access; `none` is a translation miss (R291), `some none` a write to a read-only page. -/
def State.xlate (s : State) (a n : Nat) (wr : Bool) : Option (Option (List (Nat × Nat))) :=
  let sp := pageSpans a n
  if 2 ^ 39 < a + n then some (some [(2 ^ 40, n)])
  else if sp.any (fun x => !bitN (s.rattEntry x.1) 18) then none
  else if wr && sp.any (fun x => !bitN (s.rattEntry x.1) 19) then some none
  else some (some (sp.map (fun x => (s.rattEntry x.1 % 2 ^ 18 * 2 ^ 21 + x.1 % 2 ^ 21, x.2))))

/-- Bytes read over spans of HBM, as they have committed (R83). -/
def State.readSpans (s : State) : List (Nat × Nat) → Option (List Byte)
  | [] => some []
  | (a, n) :: t =>
    match s.committedHbm a n, s.readSpans t with
    | some x, some y => some (x ++ y)
    | _, _ => none

/-- Bytes written over spans of HBM. -/
def State.writeSpans (s : State) : List (Nat × Nat) → List Byte → State
  | [], _ => s
  | (a, n) :: t, bs => State.writeSpans (s.writeHbm a (bs.take n)) t (bs.drop n)

/-- Every byte of a range of HBM has a place. -/
def State.hbmOk (s : State) (a n : Nat) : Bool :=
  (List.range n).all (fun i => (s.hbmKey (a + i)).isSome)

/-- How a request ends at the target. -/
inductive Applied where
  | ok (s : State)
  | refuse (cause : Nat)
  | miss
  | waitTick

/-- The local spans of an HBM access of a packet. -/
def State.pktSpans (s : State) (p : DvPkt) (wr : Bool) : Option (Option (List (Nat × Nat))) :=
  if p.xlate && s.flag Rg.dvorar_XLATE_EN then s.xlate p.addr p.len wr else some (some [(p.addr, p.len)])

/-- A slice range that a packet names: the tile works and the range lies in its space; else the cause. -/
def State.sliceCause (s : State) (p : DvPkt) : Nat :=
  if !s.tileUp (p.addr / 2 ^ 24) then 5
  else if 32 * s.sliceLines (p.addr / 2 ^ 24) < p.addr % 2 ^ 24 + p.len then 4
  else 0

/-- A WRITE is performed. -/
def State.applyWrite (s : State) (p : DvPkt) : Applied :=
  match p.space with
  | 0 => if s.sliceCause p ≠ 0 then .refuse (s.sliceCause p) else .ok (s.writeB (kSlice (p.addr / 2 ^ 24) (p.addr % 2 ^ 24)) p.data)
  | 1 =>
    (match s.pktSpans p true with
     | none => .miss
     | some none => .refuse 6
     | some (some sp) =>
       if sp.any (fun x => s.cowHeld x.1 x.2) then .waitTick
       else if sp.all (fun x => s.hbmOk x.1 x.2) then .ok (s.writeSpans sp p.data) else .refuse 4)
  | 2 => if p.addr + p.len ≤ 96 * 2 ^ 20 then .ok (s.writeHub p.addr p.data) else .refuse 4
  | _ => .refuse 4

/-- A READ's bytes, as they have committed: `none` inside an output window of the owning tile's running table (R83, R201). -/
def State.readSlice (s : State) (t a n : Nat) : Option (List Byte) :=
  if (linesOf a n).any (fun l => s.winWaits t (.slice t l)) then none
  else if (linesOf a n).any (fun l => s.inScratch t (.slice t l) || s.inLog t (.slice t l)) then some (s.freeBytes n)
  else some (s.committedSlice t a n)

/-- The bytes that a READ packet asks for, or how it fails. -/
def State.remoteRead (s : State) (p : DvPkt) : Applied ⊕ List Byte :=
  match p.space with
  | 0 =>
    if s.sliceCause p ≠ 0 then .inl (.refuse (s.sliceCause p))
    else (match s.readSlice (p.addr / 2 ^ 24) (p.addr % 2 ^ 24) p.len with
      | none => .inl .waitTick
      | some bs => .inr bs)
  | 1 =>
    (match s.pktSpans p false with
     | none => .inl .miss
     | some none => .inl (.refuse 6)
     | some (some sp) =>
       match s.readSpans sp with
       | some bs => .inr bs
       | none => .inl (.refuse 4))
  | 2 => if p.addr + p.len ≤ 96 * 2 ^ 20 then .inr (s.readB (kHub p.addr) p.len) else .inl (.refuse 4)
  | _ => .inl (.refuse 4)

/-- A READ is performed and answered. -/
def State.applyRead (s : State) (k : Nat) (p : DvPkt) : Applied :=
  match s.remoteRead p with
  | .inl a => a
  | .inr bs => .ok ((s.respond k 6 p.psn 0 p.opid p.addr bs p.last).drawn)

/-- The exchange packet that a transport packet carries; `entry` is the index of its first entry in its operation. -/
def xpktOf (p : DvPkt) (entry : Nat) : XPkt :=
  let w := match p.op with | 2 => 1 | 3 => 2 | _ => 20
  { srcMid := p.src, srcTile := p.opid / 4096, srcSlot := p.opid % 4096, beat := p.beat, attempt := p.epoch, dstMid := p.dst,
    dstTile := p.addr / 2 ^ 24, vc := 0, dctr := p.aux % 16, op := p.op - 2, addr := p.addr % 2 ^ 24 - w * entry,
    aaddr := 32 * (p.aux / 2 ^ 4), first := entry, data := p.data, last := p.last }

/-- Entries of a packet. -/
def pktEntries (p : DvPkt) : Nat := match p.op with | 2 => p.data.length | 3 => p.data.length / 2 | _ => p.data.length / 20

/-- A request is applied, in PSN order (R285). -/
def State.applyPkt (s : State) (k : Nat) (p : DvPkt) : Applied :=
  if p.space = 0 ∧ (p.op = 1 ∨ p.op = 5) ∧ s.moving (p.addr / 2 ^ 24) = true then .waitTick
  else match p.op with
  | 1 => s.applyWrite p
  | 5 => s.applyRead k p
  | _ =>
    if p.space ≠ 0 then .refuse 4
    else if !s.tileUp (p.addr / 2 ^ 24) then .refuse 5
    else
      let r := s.recv k
      let s1 := s.takePacket (xpktOf p r.entry)
      .ok (s1.setRecv k { s1.recv k with entry := if p.last then 0 else r.entry + pktEntries p })

/-- The next packets of a connection are applied while they are there; each may stall the connection. A refused WRITE, EXCH or COMBINE
is not passed: its sender puts an empty packet in its place, and until then is told again (R288, R289; log entry 140). -/
def State.advance (s : State) (k : Nat) : Nat → State
  | 0 => s
  | n + 1 =>
    let r := s.recv k
    match r.held.find? (fun q => q.psn == r.next) with
    | none => s
    | some p =>
      let pass (s : State) : State :=
        let r := s.recv k
        let s := s.setRecv k { r with
          next := (r.next + 1) % 2 ^ 24, held := r.held.filter (fun q => q.psn != p.psn), since := r.since + 1, stall := none,
          stallTick := false }
        if p.last || decide (8 ≤ (s.recv k).since) then s.ack k else s
      match s.applyPkt k p with
      | .ok s1 => State.advance (pass s1) k n
      | .refuse c =>
        if p.op = 5 then State.advance (pass (s.respond k 6 p.psn (1 + 2 * c) p.opid p.addr [] p.last)) k n
        else
          (s.setRecv k { r with
            held := r.held.filter (fun q => q.opid != p.opid), refused := some (p.opid, c), stall := none,
            stallTick := false }).respond k 0x13 p.psn c p.opid 0 [] p.last
      | .miss =>
        ((s.setRecv k { r with stall := some p.psn }).respond k 0x11 p.psn 0 p.opid 0 [] false).emit
          (.paging p.src p.cn p.addr)
      | .waitTick => s.setRecv k { r with stall := some p.psn, stallTick := true }

/-- The engine of this module that a request goes to: that of DHALF for a beat connection; for a programmed one that of the tile's half,
or the hub engine (R281; log entry 141). -/
def dvEngine (p : DvPkt) : Nat :=
  if p.origin ≠ 2 then p.cn / 8 % 2 else if p.space = 0 then p.addr / 2 ^ 24 / 128 % 2 else 2

/-- Bytes that an engine's reorder store of 2 MiB holds; the hub engine's holds Ethernet packets too (R285, R328). -/
def State.reorderUsed (s : State) (engine : Nat) : Nat :=
  let eth := if engine = 2 then
      s.eth.conns.foldl (fun a (e : Nat × EthConn) => a + e.2.held.foldl (fun b q => b + q.data.length) 0) 0
    else 0
  s.dv.recv.foldl (fun a e =>
    a + e.2.held.foldl (fun b q => if dvEngine q = engine then b + q.data.length else b) 0) eth

/-- A request of no refused operation: a duplicate is acknowledged and discarded; the next one is applied; one ahead is held while the
reorder store has room (R285, R286). -/
def State.accept (s : State) (k : Nat) (p : DvPkt) : State :=
  let r := s.recv k
  if !psnGe p.psn r.next || r.held.any (fun q => q.psn == p.psn) then s.ack k
  else if p.psn ≠ r.next ∧ 2 * 2 ^ 20 < s.reorderUsed (dvEngine p) + p.data.length then s
  else
    let s := s.setRecv k { r with held := r.held ++ [p] }
    if p.psn = r.next then s.advance k (r.held.length + 1)
    else s.ack k

/-- A request packet arrives: a wrong attempt is discarded, and a packet of a refused operation draws the refusal again (R284-R286,
R288). -/
def State.request (s : State) (p : DvPkt) : State :=
  if p.origin ≠ 2 ∧ p.epoch ≠ s.dom.attempt then s
  else
    let k := recvKey p.src p.origin p.cn
    let r := s.recv k
    match r.refused with
    | some (o, c) =>
      if p.op = 5 ∨ o ≠ p.opid then s.accept k p
      else if p.psn = r.next then s.respond k 0x13 p.psn c p.opid 0 [] p.last
      else s
    | none => s.accept k p

/-- The n-th packet of the inbox, when it has the opcode, leaves the inbox. -/
def State.fromInbox (s : State) (n op : Nat) : Option (DvPkt × State) :=
  match s.dv.inbox[n]? with
  | none => none
  | some p => if p.op = op then some (p, { s with dv := { s.dv with inbox := s.dv.inbox.eraseIdx n } }) else none

/-- A request of an opcode is taken from the inbox. -/
def State.takeRequest (s : State) (n op : Nat) : State :=
  match s.fromInbox n op with
  | none => s
  | some (p, s1) => s1.request p

/-- A WRITE packet arrives (R285). -/
def execDvWrite (n : Nat) (s : State) : Res := .next (s.takeRequest n 1)
/-- An EXCH packet arrives (R283). -/
def execDvExch (n : Nat) (s : State) : Res := .next (s.takeRequest n 2)
/-- A COMBINE_ANCHOR packet arrives (R283). -/
def execCombineAnchor (n : Nat) (s : State) : Res := .next (s.takeRequest n 3)
/-- A COMBINE_VALUE packet arrives (R283). -/
def execCombineValue (n : Nat) (s : State) : Res := .next (s.takeRequest n 4)
/-- A READ packet arrives; it is performed after every earlier packet of its connection (R287). -/
def execDvRead (n : Nat) (s : State) : Res := .next (s.takeRequest n 5)

/-- Within 1 µs of a packet being applied, an ACK goes out (R285). -/
def State.dvAckTimer (s : State) (src origin cn : Nat) : State :=
  let k := recvKey src origin cn
  if (s.recv k).since = 0 then s else (s.ack k)

/-- What waits for a COMMIT tick, for a copy or for a cutting goes on: posted stores of cores and connections (R201). -/
def State.advanceWaiting (s : State) : State :=
  let s := s.postHeld false
  s.dv.recv.foldl (fun s e => if e.2.stallTick then s.advance e.1 (e.2.held.length + 1) else s) s

/-! ## Paging at the target (R291) -/

/-- The paging service has made the entry valid, and the stalled packet is performed. -/
def State.dvPageResolved (s : State) (src origin cn : Nat) : State :=
  let k := recvKey src origin cn
  let r := s.recv k
  if r.stall.isSome && !r.stallTick then (s.advance k (r.held.length + 1)) else s

/-- 20 µs after a miss, the entry still invalid, the packet and every later one are discarded, and PAGE_RETRY names its PSN; with an
entry that has become valid the packet is performed. -/
def State.dvPageTimeout (s : State) (src origin cn : Nat) : State :=
  let k := recvKey src origin cn
  let r := s.recv k
  match r.stall with
  | none => s
  | some psn =>
    let valid := match r.held.find? (fun p => p.psn == psn) with
      | some p => (s.pktSpans p (p.op == 1)).isSome
      | none => false
    if r.stallTick then s
    else if valid then s.advance k (r.held.length + 1)
    else (((s.setRecv k { r with held := [], stall := none }).respond k 0x12 psn 0 0 0 [] false).incRg
      Rg.dvorar_PAGE_STALLS 0 1)

/-! ## The sending end (R285, R287, R288) -/

/-- Bytes of a read go to where they belong. -/
def State.storeSink (s : State) (k : Sink) (off : Nat) (bs : List Byte) : State :=
  s.localWrite k.fn k.aspace (k.addr + off) bs

/-- Lines of a stream's chunk have been answered. -/
def State.chunkLines (s : State) (t k b c off : Nat) (bs : List Byte) : State :=
  let x := s.stream t k
  let first := c * ((s.descr t k).chunk / 32) + off / 32
  if x.flight.contains (b, c) then
    s.setStream t k { x with
      resp := x.resp ++ (List.range (bs.length / 32)).map (fun i => (b, first + i, (bs.drop (32 * i)).take 32)) }
  else s

/-- A connection's operation is replaced. -/
def State.setOp (s : State) (k : Nat) (o : DvOp) : State :=
  let c := s.conn k
  s.setConn k { c with ops := c.ops.map (fun x => if x.opid = o.opid then o else x) }

/-- An operation ends with an error and `n` bytes done; a stream's request makes its stream err (R229, R291). -/
def State.opFail (s : State) (k : Nat) (o : DvOp) (cause n : Nat) : State :=
  match o.owner with
  | .chunk t j _ _ =>
    let code := if cause = 1 ∨ cause = 2 ∨ cause = 7 then 6 else 5
    let c := s.conn k
    let s := s.setConn k { c with ops := c.ops.filter (fun x => x.opid != o.opid) }
    if s.streamState t j = 2 then (s.streamErr t j code).detect (.streamError t j code) else s
  | _ => s.opEndAt k o cause n

/-- An operation comes on, and ends once it is whole (R287). -/
def State.opStep (s : State) (k : Nat) (o : DvOp) : State :=
  let s := s.setOp k o
  if o.whole then
    (match o.owner with
     | .chunk .. => let c := s.conn k; s.setConn k { c with ops := c.ops.filter (fun x => x.opid != o.opid) }
     | _ => s.opEnd k o 0)
  else s

/-- The operation of a connection whose open packet has a PSN: a read's is open until its response has come. -/
def State.opOf (s : State) (k psn : Nat) (rd : Bool) : Option DvOp :=
  (s.conn k).ops.find? (fun o => o.read == rd && o.left.any (fun x => x.1 == psn))

/-- A packet of this module is covered by the cumulative PSN. -/
def State.covered (s : State) (k : Nat) (p : DvPkt) : State :=
  match p.op with
  | 1 =>
    (match s.opOf k p.psn false with
     | none => s
     | some o => s.opStep k { o with left := o.left.filter (fun x => x.1 != p.psn) })
  | 5 =>
    (match (s.conn k).ops.find? (fun o => o.uncovered.contains p.psn) with
     | none => s
     | some o => s.opStep k { o with uncovered := o.uncovered.filter (fun x => x != p.psn) })
  | _ => s.acked { xpktOf p 0 with srcMid := s.rg Rg.beat_MID }

/-- A packet is sent again, and counted (R285, R295). -/
def State.again (s : State) (p : DvPkt) : State :=
  (s.wrapCount Rg.dvorar_RETRANSMITS 0 1 Rg.dvorar_RWRAP Rg.dvorar_RWRAP_SEQ 0 0).sendPkt p

/-- A response names a live connection of this module: beat responses of another attempt do not. -/
def State.respKey (s : State) (p : DvPkt) : Option Nat :=
  if p.origin ≠ 2 ∧ p.epoch ≠ s.dom.attempt then none else some (connKey p.origin p.cn)

/-- An ACK packet arrives: the cumulative PSN and the SACK bitmap (R285). -/
def State.takeAck (s : State) (k : Nat) (p : DvPkt) : State :=
  let c := s.conn k
  let new := c.sent.filter (fun q => psnGe p.psn q.psn)
  let rest := c.sent.filter (fun q => !psnGe p.psn q.psn)
  let progress := !new.isEmpty
  let later (q : DvPkt) : Nat :=
    (List.range 64).countP (fun i => bitN p.addr i && q.psn != (p.psn + 1 + i) % 2 ^ 24 && psnGe ((p.psn + 1 + i) % 2 ^ 24) q.psn)
  let held (q : DvPkt) : Bool := bitN p.addr ((q.psn + 2 ^ 24 - p.psn - 1) % 2 ^ 24) && decide ((q.psn + 2 ^ 24 - p.psn - 1) % 2 ^ 24 < 64)
  let fast := rest.filter (fun q => !held q && decide (3 ≤ later q) && !c.fast.contains q.psn)
  let s := s.setConn k { c with
    sent := rest, una := if progress then (p.psn + 1) % 2 ^ 24 else c.una,
    rto := if progress then s.rg Rg.dvorar_RTO_INIT else c.rto, expiries := if progress then 0 else c.expiries,
    fast := c.fast ++ fast.map (fun q => q.psn), pageWait := if progress then none else c.pageWait }
  let s := new.foldl (fun s q => s.covered k q) s
  let s := fast.foldl (fun s q => s.again q) s
  s.window k (s.conn k).wait.length

/-- An ACK packet arrives. -/
def execDvAck (n : Nat) (s : State) : Res :=
  match s.fromInbox n 0x10 with
  | none => .next s
  | some (p, s1) => match s1.respKey p with
    | none => .next s1
    | some k => .next (s1.takeAck k p)

/-- A READ_RESP packet arrives with bytes or an error (R287, R288). -/
def execDvReadResp (n : Nat) (s : State) : Res :=
  match s.fromInbox n 6 with
  | none => .next s
  | some (p, s1) => match s1.respKey p with
    | none => .next s1
    | some k =>
      match s1.opOf k p.psn true with
      | none => .next s1
      | some o =>
        if p.aux % 2 = 1 then .next (s1.opFail k o (bits p.aux 1 6) o.prefixBytes)
        else
          let off := p.addr - o.addr
          let s2 := match o.owner, o.sink with
            | .chunk t j b c, _ => s1.chunkLines t j b c off p.data
            | _, some x => s1.storeSink x off p.data
            | _, none => s1
          .next (s2.opStep k { o with left := o.left.filter (fun x => x.1 != p.psn) })

/-- An empty packet stands in for one of an operation that has ended, under the same PSN: it writes or reads no byte (log entry 140). -/
def dvEmptied (p : DvPkt) (opid : Nat) : DvPkt :=
  { p with last := true, xlate := false, len := 0, addr := 0, space := 2, aux := 0, opid := opid, data := [] }

/-- Empty packets take the places of an ended operation's. -/
def State.voidOp (s : State) (k opid : Nat) : State :=
  let c := s.conn k
  let void (q : DvPkt) : DvPkt := if q.opid = opid ∧ (q.op = 1 ∨ q.op = 5) then dvEmptied q c.nextOp else q
  s.setConn k { c with nextOp := (c.nextOp + 1) % 2 ^ 32, sent := c.sent.map void, wait := c.wait.map void }

/-- Every unacknowledged packet from a PSN on is sent again. -/
def State.againFrom (s : State) (k psn : Nat) : State :=
  ((s.conn k).sent.filter (fun q => psnGe q.psn psn)).foldl (fun s q => s.again q) s

/-- The offset in its operation of the packet with a PSN. -/
def DvOp.offsetOf (o : DvOp) (psn : Nat) : Nat := ((o.left.find? (fun x => x.1 == psn)).map (fun x => x.2.1)).getD o.prefixBytes

/-- A NACK_ERR packet ends the operation with its cause: everything before the refused packet has been applied. An exchange row whose
destination does not work fails as table error 10 (R112, R288). -/
def execDvNackErr (n : Nat) (s : State) : Res :=
  match s.fromInbox n 0x13 with
  | none => .next s
  | some (p, s1) => match s1.respKey p with
    | none => .next s1
    | some k =>
      match s1.opOf k p.psn false with
      | some o => .next (((s1.opFail k o (p.aux % 64) (o.offsetOf p.psn)).voidOp k o.opid).againFrom k p.psn)
      | none =>
        match (s1.conn k).sent.find? (fun q => q.psn == p.psn) with
        | some q => if k < 2 ^ 13 ∧ 2 ≤ q.op ∧ q.op ≤ 4 then .next (s1.tableErr (q.opid / 4096) 10 (q.opid % 4096) none) else .next s1
        | none => .next s1

/-- A PAGE_WAIT packet stops the RTO of the stalled PSN (R291). -/
def execDvPageWait (n : Nat) (s : State) : Res :=
  match s.fromInbox n 0x11 with
  | none => .next s
  | some (p, s1) => match s1.respKey p with
    | none => .next s1
    | some k => .next (s1.setConn k { s1.conn k with pageWait := some p.psn })

/-- The function that a programmed connection's event concerns (R375). -/
def State.connFunc (s : State) (k : Nat) : Nat := if 2 ^ 13 ≤ k then (s.conn k).func else 0

/-- A PAGE_RETRY packet asks for everything from a PSN again; after PAGE_RETRIES of them the operation ends with cause 3
(R291, R293). -/
def execDvPageRetry (n : Nat) (s : State) : Res :=
  match s.fromInbox n 0x12 with
  | none => .next s
  | some (p, s1) => match s1.respKey p with
    | none => .next s1
    | some k =>
      let c := s1.conn k
      let tries := if c.pageTry.1 = p.psn then c.pageTry.2 + 1 else 1
      let s2 := s1.setConn k { c with pageTry := (p.psn, tries), resend := some p.psn, pageWait := some p.psn }
      if tries < s1.rg Rg.dvorar_PAGE_RETRIES then .next s2
      else
        match c.sent.find? (fun q => q.psn == p.psn), c.ops.find? (fun o => o.left.any (fun x => x.1 == p.psn)) with
        | some q, some o =>
          let s3 := (s2.opFail k o 3 (if o.read then o.prefixBytes else o.offsetOf p.psn)).voidOp k o.opid
          let s4 := s3.setConn k { s3.conn k with pageTry := (0, 0), resend := none, pageWait := none }
          .next ((s4.againFrom k p.psn).event 0x0307 (c.peer + q.cn * 2 ^ 8 + q.addr * 2 ^ 64) (s.connFunc k))
        | _, _ => .next s2

/-- RESEND_DELAY after a PAGE_RETRY every packet from its PSN on is sent again, with the same PSNs (R291). -/
def State.dvResend (s : State) (origin cn : Nat) : State :=
  let k := connKey origin cn
  let c := s.conn k
  match c.resend with
  | none => s
  | some psn =>
    let s := (s.setConn k { c with resend := none, pageWait := none }).againFrom k psn
    (s.window k (s.conn k).wait.length)

/-- A connection's RTO expires: its oldest open packet is sent again and RTO doubles up to 256 µs; at RETRY_LIMIT a
programmed connection errs and ends its operations, and a beat connection reports its peer (R285, R288, R293). -/
def execRtoExpire (origin cn : Nat) (s : State) : Res :=
  let k := connKey origin cn
  let c := s.conn k
  match c.sent with
  | [] => .next s
  | q :: _ =>
    if c.pageWait.isSome || c.failed then .next s
    else
      let e := c.expiries + 1
      if s.rg Rg.dvorar_RETRY_LIMIT ≤ e then
        let s := s.setConn k { c with expiries := e, failed := true }
        let s := (s.event 0x0306 (origin + cn * 2 ^ 16 + c.peer * 2 ^ 32) (s.connFunc k)).detect (.connError origin cn c.peer)
        .next (if origin = 2 then s.connEnd k 2 else s)
      else
        .next ((s.setConn k { c with expiries := e, rto := min 256 (2 * c.rto), fast := [] }).again q)

/-- A READ whose response has not come goes out again as a new packet with a new PSN (R285). -/
def State.dvReadAgain (s : State) (origin cn psn : Nat) : State :=
  let k := connKey origin cn
  let c := s.conn k
  if c.sent.any (fun q => q.psn == psn) || c.wait.any (fun q => q.psn == psn) then s
  else match s.opOf k psn true with
    | none => s
    | some o =>
      match o.left.find? (fun x => x.1 == psn) with
      | none => s
      | some x =>
        let s := s.setOp k { o with
          left := o.left.map (fun y => if y.1 = psn then (c.psn, y.2) else y), uncovered := c.psn :: o.uncovered }
        (s.connSend k [{ blankPkt with
          op := 5, last := x.2.1 + x.2.2 == o.len, xlate := o.xlate, cn := cn, origin := origin, len := x.2.2,
          addr := o.addr + x.2.1, space := o.space, opid := o.opid }])

/-- Every beat connection starts again at PSN 0 at an ABORT tick (R284). SPACE 2 requests are dropped with their streams'. -/
def State.beatConnsReset (s : State) : State :=
  { s with dv := { s.dv with
    send := s.dv.send.filter (fun e => decide (2 ^ 13 ≤ e.1)), recv := s.dv.recv.filter (fun e => e.1 / 2 ^ 12 % 4 == 2),
    inbox := s.dv.inbox.filter (fun p => p.origin == 2) } }

/-- Programmed operations towards a lost member end with cause 1 (R292). -/
def State.connsLost (s : State) (mid : Nat) : State :=
  s.dv.send.foldl (fun s e => if 2 ^ 13 ≤ e.1 ∧ e.2.peer = mid then s.connEnd e.1 1 else s) s

end Sys2Proof.Machine
end

