-- ==== Sys2Proof/Machine/Sched.lean ====
section
/-!
DEFINITION. Egress queues, the scheduler, shapers and policers of the Ethernet ports (R297, R343-R352).
-/
namespace Sys2Proof.Machine

/-! ## Ports (R297, R325) -/

/-- How many ports the mode in force has. -/
def State.ethPorts (s : State) : Nat := [2, 4, 8].getD (s.rg Rg.sieve_PORT_MODE) 0

/-- A port that exists and is enabled. -/
def State.portOn (s : State) (p : Nat) : Bool := decide (p < s.ethPorts) && bitN (s.rg Rg.sieve_PORT_EN) p

/-- A port that is up. -/
def State.portUp (s : State) (p : Nat) : Bool := s.portOn p && s.flag Rg.sieve_UP p

/-! ## The frame check sequence (R298) -/

/-- One bit of the Ethernet CRC-32, reflected. -/
def crc32Bit (c : Nat) : Nat := if c % 2 = 1 then (c / 2) ^^^ 0xEDB88320 else c / 2

/-- One byte of the Ethernet CRC-32. -/
def crc32Byte (c : Nat) (b : Byte) : Nat :=
  crc32Bit (crc32Bit (crc32Bit (crc32Bit (crc32Bit (crc32Bit (crc32Bit (crc32Bit (c ^^^ b.toNat))))))))

/-- The FCS of a frame, as its four bytes follow the others on the wire (R298). -/
def fcsOf (f : List Byte) : List Byte := leBytes 4 (f.foldl crc32Byte 0xFFFFFFFF ^^^ 0xFFFFFFFF)

/-! ## IP headers (R316, R344) -/

/-- One byte of a string is replaced. -/
def setByte (bs : List Byte) (i v : Nat) : List Byte := bs.set i (BitVec.ofNat 8 v)

/-- The ones' complement sum of 16-bit words, as the Internet checksum folds it. -/
def onesSum : Nat → List Byte → Nat
  | 0, _ => 0
  | _ + 1, [] => 0
  | _ + 1, [b] => b.toNat * 256
  | n + 1, a :: b :: t => a.toNat * 256 + b.toNat + onesSum n t

/-- Carries are added back until 16 bits remain. -/
def fold16 (n : Nat) : Nat :=
  let a := n % 65536 + n / 65536
  let b := a % 65536 + a / 65536
  b % 65536 + b / 65536

/-- The Internet checksum of bytes. -/
def ipSum (bs : List Byte) : Nat := 0xFFFF - fold16 (onesSum bs.length bs)

/-- The IPv4 header at an offset takes a fresh checksum. -/
def fixIp (bs : List Byte) (o : Nat) : List Byte :=
  let n := 4 * (fieldAt bs o 1 % 16)
  let z := setByte (setByte bs (o + 10) 0) (o + 11) 0
  let c := ipSum ((z.drop o).take n)
  setByte (setByte z (o + 10) (c / 256)) (o + 11) (c % 256)

/-- The ECN bits of an IP header. -/
def ecnOf (bs : List Byte) (v6 : Bool) (o : Nat) : Nat :=
  if v6 then fieldAt bs (o + 1) 1 / 16 % 4 else fieldAt bs (o + 1) 1 % 4

/-- CE is marked where ECN holds 0b01 or 0b10. -/
def markCe (bs : List Byte) (v6 : Bool) (o : Nat) : List Byte :=
  let e := ecnOf bs v6 o
  if e = 1 ∨ e = 2 then
    (if v6 then setByte bs (o + 1) (setBits (fieldAt bs (o + 1) 1) 4 2 3) else fixIp (setByte bs (o + 1) (setBits (fieldAt bs (o + 1) 1) 0 2 3)) o)
  else bs

/-! ## Queues -/

/-- A queue. -/
def State.egQueue (s : State) (k : Nat) : EgQueue := s.eth.queues.getD {} k

/-- Frame length from the destination address through the FCS. -/
def frameLen (bs : List Byte) : Nat := bs.length + 4

/-- Bytes that a queue holds. -/
def EgQueue.depth (g : EgQueue) : Nat := g.frames.foldl (fun a f => a + frameLen f) 0

/-- The shaper permits sending (R349, R350). -/
def EgQueue.eligible (g : EgQueue) : Bool := !g.frames.isEmpty && (g.mode == 0 || decide (0 ≤ g.tokens))

/-- The counted length of a frame on a queue (R348). -/
def State.counted (s : State) (k : Nat) (bs : List Byte) : Nat := frameLen bs + s.rg Rg.sched_OVERHEAD k

/-- The cost of a queue's head frame (R347). -/
def State.headCost (s : State) (k : Nat) (g : EgQueue) : Nat :=
  match g.frames with
  | [] => 0
  | f :: _ => s.counted k f * (65536 / max 1 (s.rg Rg.sched_WEIGHT k))

/-- A queue is replaced; a queue that has become eligible takes its tag from V, and its registers show it. -/
def State.setQueue (s : State) (k : Nat) (g : EgQueue) : State :=
  let e := g.eligible
  let v := s.rg Rg.sched_VTIME (k / 128)
  let g := if e && !g.awake then { g with awake := true, tagF := (v + s.headCost k g) % 2 ^ 32 } else { g with awake := e }
  let t : Int := max (-(2 ^ 23 : Nat)) (min ((2 ^ 23 : Nat) - 1) (g.tokens / 128))
  let s := { s with eth := { s.eth with queues := s.eth.queues.set {} k g } }
  let s := (s.setRg Rg.sched_EMPTY k (ofBool g.frames.isEmpty)).setRg Rg.sched_ELIGIBLE k (ofBool e)
  (s.setRg Rg.sched_DEPTH k g.depth).setRg Rg.sched_TOKENS k (wrap 24 t)

/-- Bytes of the egress buffer in use. -/
def State.egressUsed (s : State) : Nat :=
  s.eth.queues.foldl (fun a (e : Nat × EgQueue) => a + e.2.depth) 0
    + s.eth.sending.foldl (fun a (e : Nat × (Nat × Nat)) => a + e.2.2) 0

/-- A frame is handed towards an egress queue. -/
def State.toEgress (s : State) (w : EgWait) : State := { s with eth := { s.eth with waiting := s.eth.waiting ++ [w] } }

/-- A frame on its way is queued, dropped, or waits (R315, R317, R343-R345). -/
def State.egressOne (s : State) (n : Nat) (w : EgWait) : State :=
  let gone : State := { s with eth := { s.eth with waiting := s.eth.waiting.eraseIdx n } }
  let whole (s : State) : State :=
    match w.desc with
    | some (fn, r, i) => s.endDesc fn r i 0 0 w.bytes.length
    | none => s
  let lost (s : State) : State := s.incRg Rg.sieve_DROP (if w.src = 1 then 10 else 11) 1
  let down (s : State) : State := if w.src = 1 then lost s else s
  let p := w.key / 128
  let g := s.egQueue w.key
  if w.src < 2 ∧ s.portOn p = false then lost gone
  else if !s.portUp p then whole (down (gone.incRg Rg.eth_ECNT 12 1))
  else if 4096 * s.rg Rg.sched_QLIM w.key < g.depth + frameLen w.bytes ∨ 2 ^ 23 < s.egressUsed + frameLen w.bytes then
    (if w.src < 2 then lost (gone.satRg Rg.sched_DROPS w.key 1) else s)
  else
    let th := s.rg Rg.sched_ECN_THRESH w.key
    let bs := match w.ip with
      | some (v6, o) => if th ≠ 0 ∧ th * 4096 ≤ g.depth ∧ (w.src = 0 ∨ w.src = 2) then markCe w.bytes v6 o else w.bytes
      | none => w.bytes
    whole (gone.setQueue w.key { g with frames := g.frames ++ [bs] })

/-- The n-th frame on its way reaches its queue, behind those that came before it for the same queue. A frame of Sieve's does not wait
behind frames that wait for room (R315). -/
def execEgressEnqueue (n : Nat) (s : State) : Res :=
  match s.eth.waiting[n]? with
  | none => .next s
  | some w =>
    if (s.eth.waiting.take n).any (fun x => x.key == w.key && (decide (x.src < 2) || decide (2 ≤ w.src))) then .next s
    else .next (s.egressOne n w)

/-- Every frame queued on a port, or on its way to it, is discarded and counted (R345). -/
def State.portDrop (s : State) (p : Nat) : State :=
  let ks := (s.eth.queues.filter (fun (e : Nat × EgQueue) => e.1 / 128 == p && !e.2.frames.isEmpty)).map (fun e => e.1)
  ks.foldl (fun s k =>
    let g := s.egQueue k
    (s.incRg Rg.eth_ECNT 12 g.frames.length).setQueue k { g with frames := [] }) s

/-! ## The scheduler (R346, R347, R352) -/

/-- What SHP_BURST has staged takes effect on a queue. -/
def EgQueue.applyStaged (g : EgQueue) : EgQueue :=
  match g.staged with
  | none => g
  | some (rate, burst, mode, fill) =>
    { g with rate := rate, burst := burst, mode := mode, tokens := if fill then (burst * 128 : Nat) else 0, staged := none }

/-- A is ahead of b, by the signed difference modulo 2^32. -/
def tagLt (a b : Nat) : Bool := decide (2 ^ 31 ≤ (a + 2 ^ 32 - b) % 2 ^ 32)

/-- The queue that a port chooses. -/
def State.chosen (s : State) (p : Nat) : Option Nat :=
  let el (q : Nat) : Bool := (s.egQueue (128 * p + q)).eligible
  match (List.range 4).find? el with
  | some q => some q
  | none => ((List.range 124).map (fun i => i + 4)).foldl (fun (b : Option Nat) q =>
      if el q then
        match b with
        | none => some q
        | some c => if tagLt (s.egQueue (128 * p + q)).tagF (s.egQueue (128 * p + c)).tagF then some q else b
      else b) none

/-- A port that is ready to begin a frame chooses a queue, and its head frame begins. -/
def execSchedDecision (p : Nat) (s : State) : Res :=
  if !s.portUp p || (s.eth.sending.get? p).isSome then .next s
  else
    let ks := (s.eth.queues.filter (fun (e : Nat × EgQueue) => e.1 / 128 == p && e.2.staged.isSome)).map (fun e => e.1)
    let s := ks.foldl (fun s k => s.setQueue k (s.egQueue k).applyStaged) s
    match s.chosen p with
    | none => .next s
    | some q =>
      let k := 128 * p + q
      let g := s.egQueue k
      match g.frames with
      | [] => .next s
      | f :: rest =>
        let s := if q < 4 then s else s.setRg Rg.sched_VTIME p g.tagF
        let g1 := { g with
          frames := rest, tokens := if g.mode = 0 then g.tokens else g.tokens - (s.counted k f * 128 : Nat) }
        let g1 := { g1 with tagF := (g.tagF + s.headCost k g1) % 2 ^ 32 }
        .next (({ s with eth := { s.eth with sending := s.eth.sending.put p (q, frameLen f) } }.setQueue k g1).emit (.frame p (f ++ fcsOf f)))

/-! ## Shapers and policers (R349-R352) -/

/-- A queue's bucket unit is claimed by a policer of its port. -/
def State.claimed (s : State) (k : Nat) : Bool :=
  (List.range 16).any (fun m => s.flag Rg.sched_PEN (16 * (k / 128) + m) && s.rg Rg.sched_UNIT (16 * (k / 128) + m) == k % 128)

/-- A queue is shaped by credit. -/
def State.byCredit (s : State) (k : Nat) : Bool :=
  (s.egQueue k).mode == 2 || ((s.egQueue k).mode == 1 && s.claimed k)

/-- A frame's last byte leaves the port, and its space is free; a queue that is then empty keeps no credit (R350). -/
def execFrameTxDone (p : Nat) (s : State) : Res :=
  match s.eth.sending.get? p with
  | none => .next s
  | some (q, n) =>
    let k := 128 * p + q
    let g := s.egQueue k
    let s := { s with eth := { s.eth with sending := s.eth.sending.del p } }
    let s := if s.byCredit k && g.frames.isEmpty && decide (0 < g.tokens) then s.setQueue k { g with tokens := 0 } else s
    .next ((s.incRg Rg.sieve_TX_FRAMES p 1).incRg Rg.sieve_TX_BYTES p n)

/-- A queue gains its refill: as a token bucket, or as a credit shaper. -/
def State.refillQueue (s : State) (k : Nat) : State :=
  let g := s.egQueue k
  let cap : Int := (g.burst * 128 : Nat)
  let sends := match s.eth.sending.get? (k / 128) with
    | some (q, _) => q == k % 128
    | none => false
  if g.mode = 0 then s
  else if s.byCredit k then
    let t := if g.frames.isEmpty && !sends then min g.tokens 0 else min cap (g.tokens + (g.rate : Nat))
    s.setQueue k { g with tokens := t }
  else s.setQueue k { g with tokens := min cap (g.tokens + (g.rate : Nat)) }

/-- Every 75 hub cycles each shaper and each claimed unit gains RATE units. -/
def execShaperRefill (s : State) : Res :=
  let ks := s.eth.queues.map (fun (e : Nat × EgQueue) => e.1)
  let s := ks.foldl (fun s k => s.refillQueue k) s
  let ps := s.eth.policers
  .next { s with eth := { s.eth with policers := ps.map (fun (e : Nat × Int) =>
    (e.1, min ((s.rg Rg.sched_PBURST e.1 * 128 : Nat) : Int) (e.2 + (s.rg Rg.sched_PRATE e.1 : Nat)))) } }

/-- SHP_BURST is written: the staged RATE, BURST and MODE take effect at the port's next decision, with FILL. -/
def execShpBurstWrite (p q burst mode : Nat) (fill : Bool) (s : State) : Res :=
  let k := 128 * p + q
  let s := (s.writeFld Rg.sched_BURST k burst).writeFld Rg.sched_MODE k mode
  .next (s.setQueue k { s.egQueue k with
    staged := some (s.rg Rg.sched_SHP_RATE k, s.rg Rg.sched_BURST k, s.rg Rg.sched_MODE k, fill) })

/-- FALLBACK of a queue follows the claims on its unit; a change raises the event (R351). -/
def State.fallback (s : State) (k m : Nat) : State :=
  let now := s.claimed k
  if s.flag Rg.sched_FALLBACK k = now then s
  else
    let s := s.setRg Rg.sched_FALLBACK k (ofBool now)
    let g := s.egQueue k
    let s := if now then s else s.setQueue k { g with tokens := if g.mode = 1 then (g.burst * 128 : Nat) else g.tokens }
    s.event 0x0404 (k / 128 + k % 128 * 2 ^ 8 + ofBool now * 2 ^ 16 + m * 2 ^ 20)

/-- A write of a policer's register: UNIT, PEN and PRATE. -/
def execPolicerPenWrite (p m unit : Nat) (pen : Bool) (rate : Nat) (s : State) : Res :=
  let i := 16 * p + m
  let was := s.flag Rg.sched_PEN i
  let old := s.rg Rg.sched_UNIT i
  let s := ((s.setRg Rg.sched_UNIT i unit).setRg Rg.sched_PEN i (ofBool pen)).setRg Rg.sched_PRATE i rate
  let s :=
    if !pen then { s with eth := { s.eth with policers := s.eth.policers.del i } }
    else if was && old == unit then s
    else { s with eth := { s.eth with policers := s.eth.policers.put i (s.rg Rg.sched_PBURST i * 128 : Nat) } }
  let s := if was then s.fallback (128 * p + old) m else s
  .next (s.fallback (128 * p + unit) m)

end Sys2Proof.Machine
end

