-- ==== Sys2Proof/Machine/Eth.lean ====
section
/-!
DEFINITION. The Ethernet side of the hub transport engine: contexts, the region table, the UDP transport and RoCEv2
(R328-R342).
-/
namespace Sys2Proof.Machine

/-! ## Contexts (R329, R330) -/

/-- The connection of a context. -/
def State.econn (s : State) (k : Nat) : EthConn := s.eth.conns.getD {} k

/-- A connection is replaced. -/
def State.setEconn (s : State) (k : Nat) (c : EthConn) : State :=
  { s with eth := { s.eth with conns := s.eth.conns.set {} k c } }

/-- A field of the loaded context. -/
def EthConn.fd (c : EthConn) (lo n : Nat) : Nat := bits c.word lo n

/-- STATE of a context as the engine holds it. -/
def EthConn.st (c : EthConn) : Nat := c.fd 0 2
/-- KIND 1: RoCEv2. -/
def EthConn.roce (c : EthConn) : Bool := bitN c.word 2
/-- IPV6. -/
def EthConn.v6 (c : EthConn) : Bool := bitN c.word 3
/-- PLOT. -/
def EthConn.fn (c : EthConn) : Nat := c.fd 4 7
/-- PMTU_DATA. -/
def EthConn.pmtu (c : EthConn) : Nat := c.fd 48 16

/-- Where a context lies in hub SRAM. -/
def State.ctxAt (s : State) (k : Nat) : Nat := kHub (s.rg Rg.eth_ECTX_BASE * 2 ^ 19 + 64 * k)

/-- The engine writes STATE of a context. -/
def State.ctxState (s : State) (k st : Nat) : State :=
  let c := s.econn k
  let s := s.writeN (s.ctxAt k) 1 (setBits (s.readN (s.ctxAt k) 1) 0 2 st)
  s.setEconn k { c with word := setBits c.word 0 2 st }

/-- CE_ECHOES of a context gains one, saturating. -/
def State.ceEcho (s : State) (k : Nat) : State :=
  s.writeN (s.ctxAt k + 26) 4 (satAdd 32 (s.readN (s.ctxAt k + 26) 4) 1)

/-- An ECNT counter advances. -/
def State.ecnt (s : State) (j : Nat) : State := s.incRg Rg.eth_ECNT j 1

/-- PMTU_DATA that R333 or R340 allows. -/
def State.pmtuOk (s : State) (w : Nat) : Bool :=
  let n := bits w 48 16
  let room := decide (n + (if bitN w 3 then 98 else 78) ≤ s.rg Rg.sieve_MAX_FRAME)
  room && (if bitN w 2 then n == 1024 || n == 2048 || n == 4096 else decide (256 ≤ n) && decide (n ≤ 4096) && n % 64 == 0)

/-- The fields of a context are in range (CMD_ERR 2). -/
def State.ctxOk (s : State) (w : Nat) : Bool :=
  decide (bits w 16 3 < s.ethPorts) && bits w 12 4 == 0 && bits w 157 3 == 0 && bits w 240 16 == 0
    && decide (1 ≤ bits w 144 5) && decide (bits w 144 5 ≤ 16) && s.pmtuOk w

/-- OPEN, and its CMD_ERR. -/
def State.ctxOpen (s : State) (k : Nat) : State × Nat :=
  let w := s.readN (s.ctxAt k) 64
  if (s.econn k).st ≠ 0 then (s, 1)
  else if !s.ctxOk w then (s, 2)
  else
    let c : EthConn := { word := w, psn := bits w 88 24, next := bits w 112 24, rto := s.rg Rg.eth_RTO_INIT_E,
                         frozen := [2, 3, 4].contains (s.plotState (bits w 4 7)) }
    (((s.setEconn k c).writeN (s.ctxAt k + 26) 4 0).ctxState k 1, 0)

/-- DONE_BYTES of an operation: the prefix before its first open packet. -/
def EOp.prefixBytes (o : EOp) : Nat :=
  match o.left with
  | [] => o.len
  | x :: _ => x.2.1

/-- Every packet of an operation is covered, and every response has come (R287). -/
def EOp.whole (o : EOp) : Bool := o.left.isEmpty && o.uncovered.isEmpty

/-- The completion record of an operation that ends for a cause with `n` bytes done (R288, R339). -/
def EOp.ended (o : EOp) (cause n : Nat) : Ended :=
  if o.whole then { owner := o.owner, opid := o.opid, state := 0, cause := 0, bytes := o.len }
  else { owner := o.owner, opid := o.opid, state := if n = 0 then 2 else 1, cause := cause, bytes := n }

/-- An operation ends with `n` bytes done, and its owner is to be told (R339). -/
def State.eopEndAt (s : State) (k : Nat) (o : EOp) (cause n : Nat) : State :=
  let c := s.econn k
  let s := s.setEconn k { c with ops := c.ops.filter (fun x => x.opid != o.opid) }
  { s with dv := { s.dv with ended := s.dv.ended ++ [o.ended cause n] } }

/-- An operation ends as it stands. -/
def State.eopEnd (s : State) (k : Nat) (o : EOp) (cause : Nat) : State := s.eopEndAt k o cause o.prefixBytes

/-- Every operation of a connection ends, and nothing of it is sent any more. -/
def State.econnEnd (s : State) (k cause : Nat) : State :=
  let s := (s.econn k).ops.foldl (fun s o => s.eopEnd k o cause) s
  s.setEconn k { s.econn k with sent := [], wait := [], pageWait := none, resend := none, rnrWait := false }

/-- A context enters state 2 (R330, R341, R353). -/
def State.ectxFail (s : State) (k cause : Nat) : State :=
  let c := s.econn k
  let s := (s.econnEnd k cause).ctxState k 2
  let s := (s.sqRaise Rg.eth_CERR Rg.eth_CERR_SEQ 0 1).setRg Rg.eth_CERR_CTX 0 k
  (s.setRg Rg.eth_CERR_CAUSE 0 cause).event 0x0403
    (k + ofBool c.roce * 2 ^ 13 + cause * 2 ^ 16 + psnPred c.next * 2 ^ 32) c.fn

/-- CLOSE, and its CMD_ERR. -/
def State.ctxClose (s : State) (k : Nat) : State × Nat :=
  if (s.econn k).st ≠ 1 then (s, 3)
  else
    let s := (s.econnEnd k 7).ctxState k 0
    ({ s with eth := { s.eth with conns := s.eth.conns.del k } }, 0)

/-- CLEAR, and its CMD_ERR. -/
def State.ctxClear (s : State) (k : Nat) : State × Nat :=
  if (s.econn k).st ≠ 2 then (s, 3)
  else
    let s := s.ctxState k 0
    ({ s with eth := { s.eth with conns := s.eth.conns.del k } }, 0)

/-- A command of CTX_CMD on a context: OP and its CMD_ERR. -/
def State.ctxCmd (s : State) (op k : Nat) : State × Nat :=
  match op with
  | 1 => s.ctxOpen k
  | 2 => s.ctxClose k
  | _ => s.ctxClear k

/-- CTX_CMD is written: CTX, OP, and what CMD_ERR then shows. -/
def State.ctxReg (s : State) (op k : Nat) : State :=
  let x := (s.setRg Rg.eth_CTX 0 k).ctxCmd op k
  x.1.setRg Rg.eth_CMD_ERR 0 x.2

/-! ## Frames (R333, R340) -/

/-- The sum over the pseudo-header and the UDP segment that the UDP checksum complements. -/
def udpSum (bs : List Byte) (v6 : Bool) : Nat :=
  let o := if v6 then 54 else 34
  let seg := bs.drop o
  let ad := if v6 then (bs.drop 22).take 32 else (bs.drop 26).take 8
  fold16 (onesSum ad.length ad + 17 + seg.length + onesSum seg.length seg)

/-- The frame of a UDP segment on a context: Ethernet, IP and UDP headers, then the payload, both checksums computed. The
IPv4 identification is 0 with DF set, and the flow label 0 (log entry 40). -/
def State.udpFrame (s : State) (c : EthConn) (dport : Nat) (pay : List Byte) : List Byte :=
  let p := c.fd 16 3
  let mac := beBytes 2 (s.rg Rg.eth_MAC_HI p) ++ beBytes 4 (s.rg Rg.eth_MAC_LO p)
  let tos := c.fd 26 6 * 4 + (if bitN c.word 11 then 2 else 0)
  let w := leBytes 64 c.word
  let eth := (w.drop 20).take 6 ++ mac ++ beBytes 2 (if c.v6 then 0x86DD else 0x0800)
  let n := 8 + pay.length
  let ip :=
    if c.v6 then beBytes 4 (6 * 2 ^ 28 + tos * 2 ^ 20) ++ beBytes 2 n ++ beBytes 1 17 ++ beBytes 1 (c.fd 136 8)
      ++ (w.drop 48).take 16 ++ (w.drop 32).take 16
    else beBytes 1 0x45 ++ beBytes 1 tos ++ beBytes 2 (20 + n) ++ beBytes 2 0 ++ beBytes 2 0x4000 ++ beBytes 1 (c.fd 136 8)
      ++ beBytes 1 17 ++ beBytes 2 0 ++ (w.drop 48).take 4 ++ (w.drop 32).take 4
  let f := eth ++ ip ++ beBytes 2 (c.fd 32 16) ++ beBytes 2 dport ++ beBytes 2 n ++ beBytes 2 0 ++ pay
  let f := if c.v6 then f else fixIp f 14
  let x := 0xFFFF - udpSum f c.v6
  let x := if x = 0 then 0xFFFF else x
  let o := if c.v6 then 60 else 40
  setByte (setByte f o (x / 256)) (o + 1) (x % 256)

/-- A transport frame goes towards a queue of its context's port: control packets to ACK_Q, data packets to QUEUE (R337). -/
def State.egressPkt (s : State) (c : EthConn) (ctrl : Bool) (f : List Byte) : State :=
  let p := c.fd 16 3
  (s.ecnt 1).toEgress { key := 128 * p + (if ctrl then s.rg Rg.eth_ACK_Q p else c.fd 19 7), bytes := f, src := 2,
                        ip := some (c.v6, 14) }

/-- The transport header (R334). -/
def udpHeader (c : EthConn) (p : EPkt) : Nat :=
  p.op + 2 ^ 8 + ofBool p.isLast * 2 ^ 12 + ofBool p.isFirst * 2 ^ 13 + c.fd 64 13 * 2 ^ 16 + p.psn * 2 ^ 32
    + p.len * 2 ^ 64 + p.off * 2 ^ 96 + p.rkey * 2 ^ 160 + p.opid * 2 ^ 192 + p.aux * 2 ^ 224

/-- A packet of the UDP transport is sent. -/
def State.udpSend (s : State) (k : Nat) (p : EPkt) : State :=
  let c := s.econn k
  let pay := leBytes 32 (udpHeader c p) ++ p.data
  s.egressPkt c (decide (0x10 ≤ p.op)) (s.udpFrame c (s.rg Rg.eth_UDP_PORT) pay)

/-- The ICRC of a RoCEv2 frame without its last four bytes: the fields that change on the way count as ones. -/
def icrc (f : List Byte) (v6 : Bool) : Nat :=
  let one (l : List Nat) (f : List Byte) : List Byte := l.foldl (fun f i => setByte f i 0xFF) f
  let g := if v6 then
      let t := setByte f 14 (setBits (fieldAt f 14 1) 0 4 15)
      one [15, 16, 17, 21, 60, 61, 66] t
    else one [15, 22, 24, 25, 40, 41, 46] f
  ((List.replicate 8 (BitVec.ofNat 8 0xFF) ++ g.drop 14).foldl crc32Byte 0xFFFFFFFF) ^^^ 0xFFFFFFFF

/-- A RoCEv2 frame: BTH, further headers and payload padded to 4 bytes, ICRC (R340). -/
def State.roceFrame (s : State) (c : EthConn) (op psn : Nat) (ackReq becn : Bool) (ext data : List Byte) : List Byte :=
  let pad := (4 - data.length % 4) % 4
  let bth := beBytes 1 op ++ beBytes 1 (0x40 + pad * 16) ++ beBytes 2 0xFFFF ++ beBytes 1 (if becn then 0x40 else 0)
    ++ beBytes 3 (c.fd 64 24) ++ beBytes 1 (ofBool ackReq * 128) ++ beBytes 3 psn
  let body := bth ++ ext ++ data ++ List.replicate pad 0
  let f := s.udpFrame c 4791 (body ++ List.replicate 4 0)
  -- the UDP checksum counts as ones, so the ICRC is known before it
  let crc := icrc (f.take (f.length - 4)) c.v6
  s.udpFrame c 4791 (body ++ leBytes 4 crc)

/-- An AETH: syndrome and MSN. -/
def aeth (syndrome msn : Nat) : List Byte := beBytes 1 syndrome ++ beBytes 3 msn

/-! ## What a received frame is (R336, R341) -/

/-- The verdict on a frame of a transport receive queue. -/
inductive Seen where
  | drop (j : Nat)
  | unsup (ctx psn : Nat)
  | pkt (ctx : Nat) (ce : Bool) (p : EPkt)

/-- Whether a frame carries IP and UDP whose lengths and checksums agree with it; IPv6 or not. -/
def udpOk (f : List Byte) : Option Bool :=
  let ty := beNat ((f.drop 12).take 2)
  let v6 := ty == 0x86DD
  let o := if v6 then 54 else 34
  let ipOk :=
    if v6 then fieldAt f 14 1 / 16 == 6 && beNat ((f.drop 18).take 2) + 54 == f.length && fieldAt f 20 1 == 17
    else ty == 0x0800 && fieldAt f 14 1 == 0x45 && beNat ((f.drop 16).take 2) + 14 == f.length && fieldAt f 23 1 == 17
      && ipSum ((f.drop 14).take 20) == 0
  let ck := fieldAt f (o + 6) 2
  if decide (o + 8 ≤ f.length) && ipOk && beNat ((f.drop (o + 4)).take 2) + o == f.length
      && (if ck = 0 then !v6 else udpSum f v6 == 0xFFFF) then some v6 else none

/-- A UDP transport packet's header and data, with every zero field zero (R334, R335). -/
def udpPkt (h : Nat) (data : List Byte) : Option EPkt :=
  let op := bits h 0 8
  let len := bits h 64 13
  let ok := [0x01, 0x05, 0x06, 0x07, 0x10, 0x11, 0x12, 0x13].contains op && bits h 8 4 == 1 && bits h 14 2 == 0
    && bits h 29 3 == 0 && bits h 56 8 == 0 && bits h 77 19 == 0 && (op == 0x10 || bits h 136 24 == 0)
    && (op == 1 || op == 5 || bits h 160 32 == 0) && len % 4 == 0
    && (if op = 1 ∨ op = 6 ∨ op = 7 then data.length == len else data.isEmpty)
    && (match op with
        | 0x06 => bits h 231 25 == 0
        | 0x10 => bits h 225 31 == 0
        | 0x13 => bits h 230 26 == 0
        | _ => bits h 224 32 == 0)
  if ok then
    some { op := op, psn := bits h 32 24, isFirst := bitN h 13, isLast := bitN h 12,
           off := if op = 0x10 then bits h 96 64 else bits h 96 40, len := len, rkey := bits h 160 32,
           opid := bits h 192 32, aux := bits h 224 32, data := data }
  else none

/-- RoCEv2 opcodes that R340 supports. -/
def roceOps : List Nat := [0x00, 0x01, 0x02, 0x04, 0x06, 0x07, 0x08, 0x0A, 0x0C, 0x0D, 0x0E, 0x0F, 0x10, 0x11, 0x81]

/-- A RoCEv2 packet behind its BTH. -/
def rocePkt (op psn pad : Nat) (rest : List Byte) : EPkt :=
  let reth := op == 0x06 || op == 0x0A || op == 0x0C
  let ath := op == 0x0D || op == 0x0F || op == 0x10 || op == 0x11
  let x := rest.drop (if reth then 16 else if ath then 4 else if op = 0x81 then 16 else 0)
  { op := op, psn := psn, isFirst := op == 0 || op == 4 || op == 6 || op == 0x0A,
    isLast := op == 2 || op == 4 || op == 8 || op == 0x0A || op == 0x0F || op == 0x10,
    off := if reth then beNat (rest.take 8) else 0, rkey := if reth then beNat ((rest.drop 8).take 4) else 0,
    len := if reth then beNat ((rest.drop 12).take 4) else x.length - pad, aux := if ath then beNat (rest.take 4) else 0,
    data := x.take (x.length - pad) }

/-- The verdict on a RoCEv2 frame: its ICRC, its queue pair, its opcode. A P_Key that is not accepted counts in
HDR_DROPS. -/
def State.judgeRoce (s : State) (f : List Byte) (v6 : Bool) : Seen :=
  let o := if v6 then 62 else 42
  let n := f.length - 4
  if f.length < o + 16 then .drop 5
  else if fieldAt f n 4 ≠ icrc (f.take n) v6 then .drop 6
  else
    let qp := beNat ((f.drop (o + 5)).take 3)
    let k := qp - 0x100000
    let c := s.econn k
    let key := beNat ((f.drop (o + 2)).take 2)
    let op := fieldAt f o 1
    let psn := beNat ((f.drop (o + 9)).take 3)
    if qp < 0x100000 ∨ 8192 ≤ k ∨ c.st ≠ 1 ∨ c.roce = false then .drop 7
    else if key ≠ 0xFFFF ∧ key ≠ 0x7FFF then .drop 5
    else if !roceOps.contains op then .unsup k psn
    else .pkt k (ecnOf f v6 14 == 3) (rocePkt op psn (bits (fieldAt f (o + 1) 1) 4 2) ((f.take n).drop (o + 12)))

/-- The verdict on a UDP transport frame (R336). -/
def State.judgeUdp (s : State) (f : List Byte) (v6 : Bool) : Seen :=
  let o := if v6 then 62 else 42
  let h := leNat ((f.drop o).take 32)
  match udpPkt h (f.drop (o + 32)) with
  | none => .drop 5
  | some p =>
    if f.length < o + 32 then .drop 5
    else
      let k := bits h 16 13
      let c := s.econn k
      let from_ := if v6 then (f.drop 22).take 16 else (f.drop 26).take 4
      let peer := ((leBytes 64 c.word).drop 32).take from_.length
      if c.st ≠ 1 then .drop 7
      else if c.roce then .drop 5
      else if from_ ≠ peer ∨ c.v6 ≠ v6 then .drop 4
      else .pkt k (ecnOf f v6 14 == 3) p

/-- The verdict on a frame. A frame for neither transport counts in HDR_DROPS. -/
def State.judge (s : State) (f : List Byte) : Seen :=
  match udpOk f with
  | none => .drop 5
  | some v6 =>
    let dport := beNat ((f.drop (if v6 then 56 else 36)).take 2)
    if dport = s.rg Rg.eth_UDP_PORT then s.judgeUdp f v6
    else if dport = 4791 then s.judgeRoce f v6
    else .drop 5

/-! ## RoCEv2 answers -/

/-- A RoCEv2 acknowledgement with a syndrome. -/
def State.roceAck (s : State) (k syndrome psn : Nat) : State :=
  let c := s.econn k
  s.egressPkt c true (s.roceFrame c 0x11 psn false false (aeth syndrome c.msn) [])

/-- An unsupported opcode on an open queue pair: a NAK Invalid Request, state 2, and ROCE_UNSUP. The spec gives the
operations it ends no cause: that is free. -/
def State.roceUnsup (s : State) (k psn : Nat) : State :=
  let cause := s.free % 64
  ((s.drawn.roceAck k 0x61 psn).ectxFail k cause).ecnt 9

/-- The frames at the head of a receive queue that are discarded leave it. -/
def State.purge (s : State) (q : Nat) : Nat → State
  | 0 => s
  | n + 1 =>
    match s.sieve.tq.getD [] q with
    | [] => s
    | (_, f, _) :: t =>
      let gone : State := { s with sieve := { s.sieve with tq := s.sieve.tq.set [] q t } }
      match s.judge f with
      | .drop j => State.purge (gone.ecnt j) q n
      | .unsup k psn => State.purge (gone.roceUnsup k psn) q n
      | .pkt .. => s

/-- A frame is delivered to a transport receive queue (R315, R323). -/
def State.toTransport (s : State) (q port : Nat) (f : List Byte) (start : Nat) : State :=
  { s with sieve := { s.sieve with tq := s.sieve.tq.set [] q (s.sieve.tq.getD [] q ++ [(port, f, start)]) } }.purge q 1

/-- The packet at the head of a receive queue, if it is of one of the opcodes; it leaves the queue. -/
def State.fromTq (s : State) (q : Nat) (roce : Bool) (ops : List Nat) : State × Option (Nat × Bool × EPkt) :=
  let s := s.purge q (s.sieve.tq.getD [] q).length
  match s.sieve.tq.getD [] q with
  | [] => (s, none)
  | (_, f, _) :: t =>
    match s.judge f with
    | .pkt k ce p =>
      if (s.econn k).roce = roce ∧ ops.contains p.op = true then
        ({ s with sieve := { s.sieve with tq := s.sieve.tq.set [] q t } }, some (k, ce, p))
      else (s, none)
    | _ => (s, none)

/-! ## Regions (R331, R332) -/

/-- The access that a key, an offset and a length name, as a packet to this module's memories; none is cause 8. -/
def State.region (s : State) (fn key off len : Nat) (wr : Bool) : Option DvPkt :=
  let e := s.readN (kHub (s.rg Rg.eth_RRT_BASE * 2 ^ 17 + 32 * (key % 4096))) 32
  if bitN e 5 && bits e 16 20 == key / 4096 % 2 ^ 20 && bits e 192 7 == fn && bitN e (if wr then 4 else 3)
      && decide (off + len ≤ bits e 128 40) then
    some { blankPkt with space := bits e 0 2, addr := bits e 64 40 + off, len := len, xlate := bitN e 2 }
  else none

/-- A write to a region is performed; a slice access waits while its tile moves. -/
def State.regionWrite (s : State) (fn key off : Nat) (bs : List Byte) : Applied :=
  match s.region fn key off bs.length true with
  | none => .refuse 8
  | some p => if p.space = 0 ∧ s.moving (p.addr / 2 ^ 24) = true then .waitTick else s.applyWrite { p with data := bs }

/-- A read of a region. -/
def State.regionRead (s : State) (fn key off len : Nat) : Applied ⊕ List Byte :=
  match s.region fn key off len false with
  | none => .inl (.refuse 8)
  | some p => if p.space = 0 ∧ s.moving (p.addr / 2 ^ 24) = true then .inl .waitTick else s.remoteRead p

/-! ## SENDs into posted buffers (R335, R341) -/

/-- The RX ring that takes a function's SENDs: its lowest-numbered ring of KIND 1 (log entry 41). -/
def State.sendRing (s : State) (fn : Nat) : Option Nat :=
  (List.range (ringCount fn)).find? (fun r => ((s.ring fn r).map (fun g => g.kind)) == some 1)

/-- One packet of a SEND: none where no buffer is posted, else how it ends. The first packet takes the head buffer. -/
def State.sendPiece (s : State) (k : Nat) (first last : Bool) (bs : List Byte) : Option Applied :=
  let c := s.econn k
  let place : Option (Nat × Desc) :=
    if first then (match s.sendRing c.fn with
      | none => none
      | some r => (s.headBuffer c.fn r).map (fun x => (r, x.2)))
    else match c.buf with
      | none => none
      | some (r, i) => (match s.ring c.fn r with
        | none => none
        | some g => (g.desc i).map (fun d => (r, d)))
  match place with
  | none => none
  | some (r, d) =>
    if d.fin.isSome then none
    else if fieldAt d.bytes 24 4 < d.done + bs.length then
      some (.refuse 4)
    else
      let s := s.localWrite c.fn (fieldAt d.bytes 8 1) (fieldAt d.bytes 16 8 + d.done) bs
      let n := d.done + bs.length
      let pay := d.idx + r * 2 ^ 16 + 2 ^ 30 + k * 2 ^ 32 + n * 2 ^ 64
      let s := s.setDesc c.fn r { d with done := n, fin := if last then some (0x0002, pay) else none }
      some (.ok (s.setEconn k { s.econn k with buf := if last then none else some (r, d.idx) }))

/-- A SEND that is refused gives its buffer back. -/
def State.dropBuf (s : State) (k : Nat) : State :=
  let c := s.econn k
  match c.buf with
  | none => s
  | some (r, i) =>
    let s := s.setEconn k { c with buf := none }
    match (s.ring c.fn r).bind (fun g => g.desc i) with
    | none => s
    | some d => if d.fin.isSome then s else s.setDesc c.fn r { d with done := 0 }

/-! ## The UDP transport: the receiving end (R337, R338) -/

/-- The SACK bitmap of a connection. -/
def EthConn.sack (c : EthConn) : Nat :=
  (List.range 64).foldl (fun a i => if c.held.any (fun q => q.psn == (c.next + i) % 2 ^ 24) then a + 2 ^ i else a) 0

/-- An ACK of everything applied, with CE_SEEN. -/
def State.eack (s : State) (k : Nat) : State :=
  let c := s.econn k
  if c.roce then (s.setEconn k { c with since := 0 }).roceAck k 0x1F (psnPred c.next)
  else
    (s.setEconn k { c with since := 0, ce := false }).udpSend k
      { op := 0x10, psn := psnPred c.next, off := c.sack, aux := ofBool c.ce }

/-- READ_RESP packets for the bytes of a READ packet; OFFSET counts from that packet's first byte. -/
def State.readResp (s : State) (k : Nat) (p : EPkt) (bs : List Byte) : State :=
  let m := max 64 (s.econn k).pmtu
  let n := ceilDiv bs.length m
  (List.range n).foldl (fun s i =>
    let d := (bs.drop (m * i)).take m
    s.udpSend k { op := 6, psn := p.psn, isFirst := i == 0, isLast := i + 1 == n, off := m * i, len := d.length,
                  opid := p.opid, data := d }) s

/-- A request of the UDP transport is performed. One of LENGTH 0, which stands in for a packet of an ended operation, names no byte (log
entry 140). -/
def State.eapply (s : State) (k : Nat) (p : EPkt) : Applied :=
  let c := s.econn k
  if p.len = 0 then .ok s
  else match p.op with
  | 1 => s.regionWrite c.fn p.rkey p.off p.data
  | 5 =>
    (match s.regionRead c.fn p.rkey p.off p.len with
     | .inl a => a
     | .inr bs => .ok ((s.readResp k p bs).drawn))
  | _ =>
    match s.sendPiece k p.isFirst p.isLast p.data with
    | none => .waitTick
    | some a => a

/-- The next packets of a connection are applied while they are there; each may stall the connection. A SEND for which no
buffer is posted is neither applied nor acknowledged: it leaves the store and RX_NOBUF counts it. A refused WRITE or SEND is not passed:
its sender puts an empty packet in its place, and until then is told again (R288, R289; log entry 140). -/
def State.eadvance (s : State) (k : Nat) : Nat → State
  | 0 => s
  | n + 1 =>
    let c := s.econn k
    match c.held.find? (fun q => q.psn == c.next) with
    | none => s
    | some p =>
      let pass (s : State) (done : Bool) : State :=
        let c := s.econn k
        let s := s.setEconn k { c with
          next := (c.next + 1) % 2 ^ 24, held := c.held.filter (fun q => q.psn != p.psn), since := c.since + 1, stall := none,
          stallTick := false, ce := c.ce || (done && p.ce) }
        let s := if done then s.ecnt 0 else s
        if p.isLast || decide (8 ≤ (s.econn k).since) then s.eack k else s
      match s.eapply k p with
      | .ok s1 => State.eadvance (pass s1 true) k n
      | .refuse e =>
        if p.op = 5 then
          let s1 := s.udpSend k { op := 6, psn := p.psn, isFirst := true, isLast := true, opid := p.opid, aux := 1 + 2 * e }
          State.eadvance (pass s1 false) k n
        else
          let s1 := s.dropBuf k
          let c1 := s1.econn k
          (s1.setEconn k { c1 with
            held := c1.held.filter (fun q => q.opid != p.opid), refused := some (p.opid, e), stall := none,
            stallTick := false }).udpSend k { op := 0x13, psn := p.psn, opid := p.opid, aux := e }
      | .miss =>
        ((s.setEconn k { c with stall := some p.psn }).udpSend k { op := 0x11, psn := p.psn, opid := p.opid }).emit
          (.paging 256 k p.off)
      | .waitTick =>
        if p.op = 7 then (s.setEconn k { c with held := c.held.filter (fun q => q.psn != p.psn) }).ecnt 8
        else s.setEconn k { c with stall := some p.psn, stallTick := true }

/-- A request of no refused operation: a duplicate is counted, acknowledged and discarded; the next one is applied; one ahead is held
while the reorder store has room (R285, R286). -/
def State.eaccept (s : State) (k : Nat) (p : EPkt) : State :=
  let c := s.econn k
  if !psnGe p.psn c.next || c.held.any (fun q => q.psn == p.psn) then (s.ecnt 3).eack k
  else if p.psn ≠ c.next ∧ 2 * 2 ^ 20 < s.reorderUsed 2 + p.data.length then s
  else
    let s := s.setEconn k { c with held := c.held ++ [p] }
    if p.psn = c.next then s.eadvance k (c.held.length + 1) else s.eack k

/-- A request packet of the UDP transport arrives; one of a refused operation draws the refusal again. Nothing of a quiesced function is
applied or acknowledged (R385). -/
def State.erequest (s : State) (k : Nat) (ce : Bool) (p : EPkt) : State :=
  let c := s.econn k
  let p := { p with ce := ce }
  if c.frozen then s
  else match c.refused with
    | some (o, e) =>
      if p.op = 5 ∨ o ≠ p.opid then s.eaccept k p
      else if p.psn = c.next then s.udpSend k { op := 0x13, psn := p.psn, opid := p.opid, aux := e }
      else s
    | none => s.eaccept k p

/-- A request of an opcode is taken from a receive queue. -/
def State.takeUdp (s : State) (q op : Nat) : State :=
  match s.fromTq q false [op] with
  | (s, none) => s
  | (s, some (k, ce, p)) => s.erequest k ce p

/-- A WRITE packet arrives. -/
def execUdpWrite (q : Nat) (s : State) : Res := .next (s.takeUdp q 1)
/-- A READ packet arrives. -/
def execUdpRead (q : Nat) (s : State) : Res := .next (s.takeUdp q 5)
/-- A SEND packet arrives. -/
def execUdpSend (q : Nat) (s : State) : Res := .next (s.takeUdp q 7)

/-! ## The sending end -/

/-- PSNs that a request takes: a RoCEv2 READ takes one for each packet of its response. -/
def EthConn.span (c : EthConn) (p : EPkt) : Nat := if c.roce ∧ p.op = 0x0C then max 1 (ceilDiv p.len c.pmtu) else 1

/-- A request leaves. -/
def State.esend (s : State) (k : Nat) (p : EPkt) : State :=
  let c := s.econn k
  if c.roce then
    let reth := if p.op = 0x06 ∨ p.op = 0x0A ∨ p.op = 0x0C then beBytes 8 p.off ++ beBytes 4 p.rkey ++ beBytes 4 p.len else []
    s.egressPkt c false (s.roceFrame c p.op p.psn (p.isLast || p.op == 0x0C) false reth p.data)
  else s.udpSend k p

/-- A packet is sent again, and counted. -/
def State.eagain (s : State) (k : Nat) (p : EPkt) : State := (s.ecnt 2).esend k p

/-- Waiting packets are sent while the window has room; RoCEv2 READs at most MAX_RD at once (R337, R340). -/
def State.ewindow (s : State) (k : Nat) : Nat → State
  | 0 => s
  | n + 1 =>
    let c := s.econn k
    match c.wait with
    | [] => s
    | p :: t =>
      let reads := c.sent.countP (fun q => q.op == 0x0C)
      if s.rg Rg.eth_SWIN_E ≤ c.sent.length ∨ c.resend.isSome ∨ c.rnrWait = true ∨ c.st ≠ 1
          ∨ (c.roce = true ∧ p.op = 0x0C ∧ c.fd 144 5 ≤ reads) then s
      else State.ewindow ((s.setEconn k { c with wait := t, sent := c.sent ++ [p] }).esend k p) k n

/-- Packets join a connection in order under the next PSNs. -/
def State.epush (s : State) (k : Nat) (ps : List EPkt) : State :=
  let s := ps.foldl (fun s p =>
    let c := s.econn k
    s.setEconn k { c with wait := c.wait ++ [{ p with psn := c.psn }], psn := (c.psn + c.span p) % 2 ^ 24 }) s
  s.ewindow k (s.econn k).wait.length

/-- The pieces of an operation at PMTU_DATA bytes. -/
def epieces (m len : Nat) : List (Nat × Nat) :=
  (List.range (ceilDiv len m)).map (fun i => (m * i, min m (len - m * i)))

/-- The RoCEv2 opcode of a packet of a SEND or a WRITE by its place. -/
def roceOp (kind i n : Nat) : Nat :=
  let b := if kind = 7 then 0 else 6
  if n = 1 then b + 4 else if i = 0 then b else if i + 1 = n then b + 2 else b + 1

/-- An operation of length that the connection's transport allows (R335, R340). -/
def EthConn.lenOk (c : EthConn) (len : Nat) : Bool :=
  decide (1 ≤ len) && decide (len ≤ 2 ^ 30) && (c.roce || len % 4 == 0)

/-- An operation starts on a context: kind 1 WRITE, 5 READ, 7 SEND. -/
def State.ethStart (s : State) (k kind off len rkey : Nat) (data : List Byte) (sink : Option Sink) (owner : Owner) : State :=
  let c := s.econn k
  let ps := epieces (max 64 c.pmtu) len
  let left := ps.mapIdx (fun i x => ((c.psn + i) % 2 ^ 24, x.1, x.2))
  let op : EOp := { opid := c.nextOp, kind := kind, len := len, off := off, rkey := rkey, sink := sink, left := left,
                    uncovered := if c.roce ∨ kind ≠ 5 then [] else left.map (fun x => x.1), owner := owner }
  let s := s.setEconn k { c with nextOp := (c.nextOp + 1) % 2 ^ 32, ops := c.ops ++ [op] }
  let pk (i : Nat) (x : Nat × Nat) : EPkt :=
    { op := if c.roce then roceOp kind i ps.length else kind, psn := 0, isFirst := i == 0, isLast := i + 1 == ps.length,
      off := if kind = 7 then 0 else off + x.1, len := if c.roce then len else x.2, rkey := if kind = 7 then 0 else rkey,
      opid := c.nextOp, data := if kind = 5 then [] else (data.drop x.1).take x.2 }
  if c.roce ∧ kind = 5 then
    s.epush k [{ op := 0x0C, psn := 0, isFirst := true, isLast := true, off := off, len := len, rkey := rkey, opid := c.nextOp }]
  else s.epush k (ps.mapIdx pk)

/-- A connection's operation is replaced. -/
def State.setEop (s : State) (k : Nat) (o : EOp) : State :=
  let c := s.econn k
  s.setEconn k { c with ops := c.ops.map (fun x => if x.opid = o.opid then o else x) }

/-- An operation comes on, and ends once it is whole (R287). -/
def State.eopStep (s : State) (k : Nat) (o : EOp) : State :=
  let s := s.setEop k o
  if o.whole then s.eopEnd k o 0 else s

/-- A packet is covered by the cumulative PSN. -/
def State.ecovered (s : State) (k psn : Nat) : State :=
  match (s.econn k).ops.find? (fun o => (o.kind != 5 && o.left.any (fun x => x.1 == psn)) || o.uncovered.contains psn) with
  | none => s
  | some o =>
    s.eopStep k { o with
      left := if o.kind = 5 then o.left else o.left.filter (fun x => x.1 != psn), uncovered := o.uncovered.filter (fun x => x != psn) }

/-- The cumulative PSN has passed packets: progress restarts RTO and the counts. -/
def State.eprogress (s : State) (k : Nat) (new rest : List EPkt) : State :=
  let c := s.econn k
  let s := if new.isEmpty then s else s.setEconn k { c with
    sent := rest, rto := s.rg Rg.eth_RTO_INIT_E, expiries := 0, pageWait := none, rnr := 0 }
  new.foldl (fun s q => s.ecovered k q.psn) s

/-- A UDP transport ACK arrives (R285, R338). -/
def execUdpAck (q : Nat) (s : State) : Res :=
  match s.fromTq q false [0x10] with
  | (s, none) => .next s
  | (s, some (k, _, p)) =>
    let s := if p.aux % 2 = 1 then s.ceEcho k else s
    let c := s.econn k
    let new := c.sent.filter (fun x => psnGe p.psn x.psn)
    let rest := c.sent.filter (fun x => !psnGe p.psn x.psn)
    let later (x : EPkt) : Nat :=
      (List.range 64).countP (fun i => bitN p.off i && x.psn != (p.psn + 1 + i) % 2 ^ 24 && psnGe ((p.psn + 1 + i) % 2 ^ 24) x.psn)
    let d (x : EPkt) : Nat := (x.psn + 2 ^ 24 - p.psn - 1) % 2 ^ 24
    let held (x : EPkt) : Bool := bitN p.off (d x) && decide (d x < 64)
    let fast := rest.filter (fun x => !held x && decide (3 ≤ later x) && !c.fast.contains x.psn)
    let s := s.eprogress k new rest
    let s := s.setEconn k { s.econn k with fast := c.fast ++ fast.map (fun x => x.psn) }
    let s := fast.foldl (fun s x => s.eagain k x) s
    .next (s.ewindow k (s.econn k).wait.length)

/-- What is left of a READ after bytes [lo, hi) of it have come. -/
def cutLeft (lo hi : Nat) (l : List (Nat × Nat × Nat)) : List (Nat × Nat × Nat) :=
  l.flatMap (fun x =>
    let a := x.2.1
    let b := x.2.1 + x.2.2
    if hi ≤ a ∨ b ≤ lo then [x]
    else (if a < lo then [(x.1, a, lo - a)] else []) ++ (if hi < b then [(x.1, hi, b - hi)] else []))

/-- A UDP transport READ_RESP arrives with bytes or an error. -/
def execUdpReadResp (q : Nat) (s : State) : Res :=
  match s.fromTq q false [6] with
  | (s, none) => .next s
  | (s, some (k, _, p)) =>
    match (s.econn k).ops.find? (fun o => o.kind == 5 && o.left.any (fun x => x.1 == p.psn)) with
    | none => .next s
    | some o =>
      if p.aux % 2 = 1 then .next (s.eopEnd k o (bits p.aux 1 6))
      else
        let m := max 64 (s.econn k).pmtu
        let base := ((o.left.find? (fun x => x.1 == p.psn)).map (fun x => x.2.1 / m * m)).getD 0
        let lo := base + p.off
        let s := match o.sink with
          | some x => s.storeSink x lo (p.data.take (o.len - lo))
          | none => s
        .next (s.eopStep k { o with
          left := o.left.flatMap (fun x => if x.1 = p.psn then cutLeft lo (lo + p.data.length) [x] else [x]) })

/-- A UDP transport PAGE_WAIT stops the RTO of a PSN. -/
def execUdpPageWait (q : Nat) (s : State) : Res :=
  match s.fromTq q false [0x11] with
  | (s, none) => .next s
  | (s, some (k, _, p)) => .next (s.setEconn k { s.econn k with pageWait := some p.psn })

/-- Requests numbered again in order from a PSN: each with the PSN that it had. -/
def EthConn.number (c : EthConn) : Nat → List EPkt → List (Nat × EPkt)
  | _, [] => []
  | n, q :: t => (q.psn, { q with psn := n % 2 ^ 24 }) :: EthConn.number c (n + c.span q) t

/-- The packets of an operation that ends leave a queue pair, none of those from a PSN on having been sent; the rest are numbered again
from there. -/
def State.erenumber (s : State) (k psn opid : Nat) : State :=
  let c := s.econn k
  let keep := (c.sent.filter (fun q => psnGe q.psn psn) ++ c.wait).filter (fun q => q.opid != opid)
  let move := c.number psn keep
  let ren (n : Nat) : Nat :=
    match move.find? (fun x => decide ((n + 2 ^ 24 - x.1) % 2 ^ 24 < c.span x.2)) with
    | some x => (x.2.psn + (n + 2 ^ 24 - x.1) % 2 ^ 24) % 2 ^ 24
    | none => n
  let s := s.setEconn k { c with
    sent := c.sent.filter (fun q => !psnGe q.psn psn), wait := move.map (fun x => x.2),
    psn := (psn + keep.foldl (fun a q => a + c.span q) 0) % 2 ^ 24, pageWait := none, resend := none,
    ops := c.ops.map (fun o => { o with left := o.left.map (fun x => (ren x.1, x.2)) }) }
  s.ewindow k (s.econn k).wait.length

/-- Packets of LENGTH 0 take the places of an ended operation's, under the same PSNs (log entry 140). -/
def State.evoid (s : State) (k opid : Nat) : State :=
  let c := s.econn k
  let void (q : EPkt) : EPkt :=
    if q.opid = opid then
      { q with op := if q.op = 5 then 5 else 1, isFirst := true, isLast := true, off := 0, len := 0, rkey := 0, opid := c.nextOp,
               aux := 0, data := [] }
    else q
  s.setEconn k { c with nextOp := (c.nextOp + 1) % 2 ^ 32, sent := c.sent.map void, wait := c.wait.map void }

/-- Every unacknowledged packet from a PSN on is sent again. -/
def State.eagainFrom (s : State) (k psn : Nat) : State :=
  ((s.econn k).sent.filter (fun q => psnGe q.psn psn)).foldl (fun s q => s.eagain k q) s

/-- The offset in its operation of the packet with a PSN. -/
def EOp.offsetOf (o : EOp) (psn : Nat) : Nat := ((o.left.find? (fun x => x.1 == psn)).map (fun x => x.2.1)).getD o.prefixBytes

/-- A UDP transport PAGE_RETRY asks for everything from a PSN again; after PAGE_RETRIES of them the operation ends with
cause 3 (R291). -/
def execUdpPageRetry (q : Nat) (s : State) : Res :=
  match s.fromTq q false [0x12] with
  | (s, none) => .next s
  | (s, some (k, _, p)) =>
    let c := s.econn k
    let tries := if c.pageTry.1 = p.psn then c.pageTry.2 + 1 else 1
    let s2 := s.setEconn k { c with pageTry := (p.psn, tries), resend := some p.psn, pageWait := some p.psn }
    if tries < s.rg Rg.dvorar_PAGE_RETRIES then .next s2
    else match c.ops.find? (fun o => o.left.any (fun x => x.1 == p.psn)) with
      | some o =>
        let s3 := (s2.eopEndAt k o 3 (if o.kind = 5 then o.prefixBytes else o.offsetOf p.psn)).evoid k o.opid
        .next ((s3.setEconn k { s3.econn k with pageTry := (0, 0), resend := none, pageWait := none }).eagainFrom k p.psn)
      | none => .next s2

/-- A UDP transport NACK_ERR ends its operation: everything before the refused packet has been applied (R288). -/
def execUdpNackErr (q : Nat) (s : State) : Res :=
  match s.fromTq q false [0x13] with
  | (s, none) => .next s
  | (s, some (k, _, p)) =>
    match (s.econn k).ops.find? (fun o => o.kind != 5 && o.left.any (fun x => x.1 == p.psn)) with
    | some o => .next (((s.eopEndAt k o (p.aux % 64) (o.offsetOf p.psn)).evoid k o.opid).eagainFrom k p.psn)
    | none => .next s

/-- A READ whose response has not come goes out again: on the UDP transport as a new packet with a new PSN (R285), on RoCEv2
from the first byte that is missing. -/
def State.eread (s : State) (k psn : Nat) : State :=
  let c := s.econn k
  let m := max 64 c.pmtu
  match c.ops.find? (fun o => o.kind == 5 && o.left.any (fun x => x.1 == psn)) with
  | none => s
  | some o =>
    if c.roce then
      match o.left with
      | [] => s
      | x :: _ => s.eagain k { op := 0x0C, psn := x.1, isFirst := true, isLast := true, off := o.off + x.2.1,
                               len := o.len - x.2.1, rkey := o.rkey, opid := o.opid }
    else
      let base := ((o.left.find? (fun x => x.1 == psn)).map (fun x => x.2.1 / m * m)).getD 0
      let n := min m (o.len - base)
      let left := (o.left.filter (fun x => decide (x.2.1 < base))) ++ [(c.psn, base, n)]
        ++ (o.left.filter (fun x => decide (base + n ≤ x.2.1)))
      (s.setEop k { o with left := left, uncovered := c.psn :: o.uncovered }).epush k
        [{ op := 5, psn := 0, isFirst := base == 0, isLast := base + n == o.len, off := o.off + base, len := n, rkey := o.rkey,
           opid := o.opid }]

/-- An Ethernet connection's RTO expires: the oldest open packet is sent again, on RoCEv2 every one from it on; RTO doubles up
to RTO_MAX_E; at RETRY_LIMIT_E expiries without progress the context enters state 2 with cause 2 (R330, R337, R340). -/
def execRtoExpireE (k : Nat) (s : State) : Res :=
  let c := s.econn k
  if c.st ≠ 1 ∨ c.pageWait.isSome ∨ c.rnrWait = true then .next s
  else
    let limit := if c.roce then min 7 (s.rg Rg.eth_RETRY_LIMIT_E) else s.rg Rg.eth_RETRY_LIMIT_E
    let e := c.expiries + 1
    let up : State := s.setEconn k { c with
      expiries := e, rto := min (1000 * s.rg Rg.eth_RTO_MAX_E) (2 * c.rto), fast := [] }
    match c.sent with
    | [] =>
      (match (c.ops.filter (fun o => o.kind == 5)).flatMap (fun o => o.left) with
       | [] => .next s
       | x :: _ => if limit ≤ e then .next (s.ectxFail k 2) else .next (up.eread k x.1))
    | p :: _ =>
      if limit ≤ e then .next (s.ectxFail k 2)
      else if c.roce then
        .next (c.sent.foldl (fun s q => if q.op = 0x0C then s.eread k q.psn else s.eagain k q) up)
      else .next (up.eagain k p)

/-! ## RoCEv2: the responder (R340-R342) -/

/-- A packet that has been applied with ECN 0b11 draws a CNP, one for each CNP_GAP µs. -/
def State.cnp (s : State) (k : Nat) (ce : Bool) : State :=
  let c := s.econn k
  let now := s.rg Rg.system_MTIME
  let due := match c.cnpAt with
    | none => true
    | some t => decide (t + 1000 * s.rg Rg.eth_CNP_GAP ≤ now)
  if ce && due then
    ((s.setEconn k { c with cnpAt := some now }).egressPkt c true
      (s.roceFrame c 0x81 0 false true [] (List.replicate 16 0))).ecnt 10
  else s

/-- A request of a queue pair is in order, or answered: a duplicate by an acknowledgement, one ahead of its turn by one NAK
of PSN sequence error. -/
def State.roceTurn (s : State) (k : Nat) (p : EPkt) : Option State :=
  let c := s.econn k
  if c.frozen then some s
  else if p.psn = c.next then none
  else if !psnGe p.psn c.next then some ((s.ecnt 3).eack k)
  else if c.stall.isSome then some s
  else some ((s.setEconn k { c with stall := some c.next }).roceAck k 0x60 c.next)

/-- A request of a queue pair has been applied. -/
def State.rocePass (s : State) (k : Nat) (ce last : Bool) (n : Nat) : State :=
  let c := s.econn k
  let s := (s.setEconn k { c with
    next := (c.next + n) % 2 ^ 24, since := c.since + 1, stall := none, msn := (c.msn + ofBool last) % 2 ^ 24 }).ecnt 0
  s.cnp k ce

/-- An acknowledgement goes out for the last packet of a message, and at least for every 8 packets. -/
def State.roceSoon (s : State) (k : Nat) (last : Bool) : State :=
  if last || decide (8 ≤ (s.econn k).since) then s.eack k else s

/-- A request of a queue pair is refused: a NAK of remote access error, or of invalid request. -/
def State.roceRefuse (s : State) (k : Nat) (code : Nat) : State :=
  let c := s.econn k
  ((s.dropBuf k).setEconn k { (s.dropBuf k).econn k with stall := some c.next }).roceAck k (0x60 + code) c.next

/-- A RoCEv2 SEND packet arrives: it fills a buffer, or draws an RNR NAK with RNR_TIMER. -/
def execRoceSend (q : Nat) (s : State) : Res :=
  match s.fromTq q true [0x00, 0x01, 0x02, 0x04] with
  | (s, none) => .next s
  | (s, some (k, ce, p)) =>
    match s.roceTurn k p with
    | some s => .next s
    | none =>
      let c := s.econn k
      if p.isFirst = false ∧ c.buf.isNone then .next (s.roceRefuse k 1)
      else match s.sendPiece k p.isFirst p.isLast p.data with
        | none => .next (((s.setEconn k { c with stall := some c.next }).roceAck k (0x20 + c.fd 152 5) c.next).ecnt 8)
        | some (.ok s1) => .next ((s1.rocePass k ce p.isLast 1).roceSoon k p.isLast)
        | some _ => .next (s.roceRefuse k 1)

/-- A RoCEv2 RDMA WRITE packet arrives: its region is checked and its bytes are written at the offset in turn. One that waits (R201,
R485) stays at the head of its queue. -/
def execRoceRdmaWrite (q : Nat) (s0 : State) : Res :=
  match s0.fromTq q true [0x06, 0x07, 0x08, 0x0A] with
  | (s, none) => .next s
  | (s, some (k, ce, p)) =>
    match s.roceTurn k p with
    | some s => .next s
    | none =>
      let c := s.econn k
      let key := if p.isFirst then p.rkey else c.dest.1
      let off := if p.isFirst then p.off else c.dest.2
      let left := if p.isFirst then p.len else c.msg
      let ok := !p.isFirst || (s.region c.fn key off p.len true).isSome
      if left < p.data.length ∨ (p.isLast = true ∧ left ≠ p.data.length) then .next (s.roceRefuse k 1)
      else if !ok then .next (s.roceRefuse k 2)
      else match (if p.data.isEmpty then Applied.ok s else s.regionWrite c.fn key off p.data) with
        | .ok s1 =>
          let s1 := s1.setEconn k { s1.econn k with dest := (key, off + p.data.length), msg := left - p.data.length }
          .next ((s1.rocePass k ce p.isLast 1).roceSoon k p.isLast)
        | .refuse _ => .next (s.roceRefuse k 2)
        | .miss => .next (s.emit (.paging 256 k off))
        | .waitTick => .next s0

/-- READ Response packets for the bytes of a READ Request, from its PSN on. -/
def State.roceResp (s : State) (k psn : Nat) (bs : List Byte) : State :=
  let m := max 64 (s.econn k).pmtu
  let n := max 1 (ceilDiv bs.length m)
  (List.range n).foldl (fun s i =>
    let c := s.econn k
    let op := if n = 1 then 0x10 else if i = 0 then 0x0D else if i + 1 = n then 0x0F else 0x0E
    s.egressPkt c false (s.roceFrame c op ((psn + i) % 2 ^ 24) false false
      (if op = 0x0E then [] else aeth 0x1F c.msn) ((bs.drop (m * i)).take m))) s

/-- A RoCEv2 RDMA READ Request arrives and is answered; one that has been answered before is answered again. One that waits (R201)
stays at the head of its queue. -/
def execRoceRdmaReadRequest (q : Nat) (s0 : State) : Res :=
  match s0.fromTq q true [0x0C] with
  | (s, none) => .next s
  | (s, some (k, ce, p)) =>
    let c := s.econn k
    let old := !psnGe p.psn c.next
    match (if old && !c.frozen then none else s.roceTurn k p) with
    | some s => .next s
    | none =>
      match s.regionRead c.fn p.rkey p.off p.len with
      | .inr bs =>
        let s1 := if old then s.ecnt 3 else s.rocePass k ce true (c.span p)
        .next ((s1.roceResp k p.psn bs).drawn)
      | .inl .miss => .next (s.emit (.paging 256 k p.off))
      | .inl .waitTick => .next s0
      | .inl _ => .next (s.roceRefuse k 2)

/-! ## RoCEv2: the requester -/

/-- Requests before a PSN are acknowledged, up to the first READ whose responses have not all come. -/
def State.roceAcked (s : State) (k : Nat) (upTo : Nat) : State :=
  let c := s.econn k
  let open_ (q : EPkt) : Bool := q.op == 0x0C && c.ops.any (fun o => o.opid == q.opid)
  let new := (c.sent.takeWhile (fun q => psnGe upTo q.psn && !open_ q))
  let s := s.eprogress k new (c.sent.drop new.length)
  s.ewindow k (s.econn k).wait.length

/-- A RoCEv2 READ Response arrives: the next bytes of its READ in turn; it acknowledges every earlier request. -/
def execRoceReadResponse (q : Nat) (s : State) : Res :=
  match s.fromTq q true [0x0D, 0x0E, 0x0F, 0x10] with
  | (s, none) => .next s
  | (s, some (k, _, p)) =>
    match (s.econn k).ops.find? (fun o => o.kind == 5 && ((o.left.head?).map (fun x => x.1)) == some p.psn) with
    | none => .next s
    | some o =>
      match o.left with
      | [] => .next s
      | x :: rest =>
        if x.2.2 ≠ p.data.length then .next s
        else
          let s := match o.sink with
            | some d => s.storeSink d x.2.1 p.data
            | none => s
          .next ((s.eopStep k { o with left := rest }).roceAcked k p.psn)

/-- A RoCEv2 Acknowledge arrives: an ACK advances the queue pair; an RNR NAK starts its timer, or ends the queue pair with
cause 9 once RNR_RETRY is used up; a NAK of PSN sequence error draws everything from its PSN again; any other NAK puts the
context in state 2 with cause 10. -/
def execRoceAcknowledge (q : Nat) (s : State) : Res :=
  match s.fromTq q true [0x11] with
  | (s, none) => .next s
  | (s, some (k, _, p)) =>
    let syn := p.aux / 2 ^ 24
    let before : State := s.roceAcked k (psnPred p.psn)
    let c := before.econn k
    if syn < 0x20 then .next (s.roceAcked k p.psn)
    else if syn < 0x40 then
      (if c.fd 149 3 ≠ 7 ∧ c.fd 149 3 < c.rnr + 1 then .next (before.ectxFail k 9)
       else .next (before.setEconn k { c with rnr := c.rnr + 1, rnrWait := true }))
    else if syn = 0x60 then
      .next (c.sent.foldl (fun s q => if q.op = 0x0C then s.eread k q.psn else s.eagain k q) before)
    else .next (before.ectxFail k 10)

/-- A CNP arrives. -/
def execRoceCnp (q : Nat) (s : State) : Res :=
  match s.fromTq q true [0x81] with
  | (s, none) => .next s
  | (s, some (k, _, _)) => .next ((s.ceEcho k).ecnt 11)

/-- The RNR timer of a context expires, and every open request is sent again. -/
def execRoceRnrTimer (k : Nat) (s : State) : Res :=
  let c := s.econn k
  if !c.rnrWait then .next s
  else
    let s := s.setEconn k { c with rnrWait := false }
    let s := c.sent.foldl (fun s q => if q.op = 0x0C then s.eread k q.psn else s.eagain k q) s
    .next (s.ewindow k (s.econn k).wait.length)

/-! ## Timers that the fabric's and the Ethernet connections share -/

/-- Connections that wait for a COMMIT tick go on (R201, R204). -/
def State.eadvanceWaiting (s : State) : State :=
  s.eth.conns.foldl (fun s (e : Nat × EthConn) => if e.2.stallTick then s.eadvance e.1 (e.2.held.length + 1) else s) s

/-- Within 1 µs of a packet being applied, an ACK goes out (R285, R340). ORIGIN 3 names an Ethernet context by `cn`. -/
def execAckTimer (src origin cn : Nat) (s : State) : Res :=
  if origin = 3 then .next (if (s.econn cn).since = 0 then s else s.eack cn) else .next (s.dvAckTimer src origin cn)

/-- The paging service has made the entry valid, and the stalled packet is performed (R291). -/
def execPageResolved (src origin cn : Nat) (s : State) : Res :=
  if origin = 3 then
    let c := s.econn cn
    .next (if c.stall.isSome && !c.stallTick && !c.roce then s.eadvance cn (c.held.length + 1) else s)
  else .next (s.dvPageResolved src origin cn)

/-- A request names a remote address whose entry does not translate (R291). -/
def State.emiss (s : State) (k : Nat) (p : EPkt) : Bool :=
  match s.region (s.econn k).fn p.rkey p.off p.len (p.op == 1) with
  | some q => (s.pktSpans q (p.op == 1)).isNone
  | none => false

/-- 20 µs after a miss, the entry still invalid, the packet and every later one are discarded, and PAGE_RETRY names its PSN; with an entry
that has become valid the packet is performed (R291). -/
def execPageWaitTimeout (src origin cn : Nat) (s : State) : Res :=
  if origin = 3 then
    let c := s.econn cn
    match c.stall with
    | none => .next s
    | some psn =>
      if c.stallTick || c.roce then .next s
      else if (c.held.find? (fun p => p.psn == psn)).any (fun p => !s.emiss cn p) then .next (s.eadvance cn (c.held.length + 1))
      else .next (((s.setEconn cn { c with held := [], stall := none }).udpSend cn { op := 0x12, psn := psn }).incRg
        Rg.dvorar_PAGE_STALLS 0 1)
  else .next (s.dvPageTimeout src origin cn)

/-- RESEND_DELAY after a PAGE_RETRY every packet from its PSN on is sent again, with the same PSNs (R291). -/
def execResendDelayExpire (origin cn : Nat) (s : State) : Res :=
  if origin = 3 then
    let c := s.econn cn
    match c.resend with
    | none => .next s
    | some psn =>
      let s := (s.setEconn cn { c with resend := none, pageWait := none }).eagainFrom cn psn
      .next (s.ewindow cn (s.econn cn).wait.length)
  else .next (s.dvResend origin cn)

/-- A READ whose response has not come within an RTO goes out again (R285). -/
def execReadRespTimeout (origin cn psn : Nat) (s : State) : Res :=
  if origin = 3 then
    let c := s.econn cn
    .next (if c.sent.any (fun x => x.psn == psn) || c.wait.any (fun x => x.psn == psn) then s else s.eread cn psn)
  else .next (s.dvReadAgain origin cn psn)

end Sys2Proof.Machine
end

