-- ==== Sys2Proof/Machine/Domain.lean ====
section
/-!
DEFINITION. The beat domain: formation, joining, running and stopping, DONE, and the sending of ticks (R44-R59, R82, R84).
-/
namespace Sys2Proof.Machine

/-! ## Membership -/

/-- This module is the tick master. -/
def State.isMaster (s : State) : Bool := s.dom.member && s.rg Rg.beat_ROLE == 3

/-- This module acts at the master: it is the master, or it belongs to no domain (R473). -/
def State.ownMaster (s : State) : Bool := s.isMaster || !s.dom.member

/-- This module takes part in the beats: an active member. -/
def State.active (s : State) : Bool :=
  s.dom.member && (s.rg Rg.beat_ROLE == 1 || (s.rg Rg.beat_ROLE == 3 && !s.standby (s.rg Rg.beat_MID)))

/-- The word k of a set of MIDs. -/
def midWord (ms : List Nat) (k : Nat) : Nat :=
  (List.range 32).foldl (fun a n => if ms.contains (32 * k + n) then a + 2 ^ n else a) 0

/-- MEMBERS, MEMBER_k and STANDBY_k show a set of members (R88). -/
def State.setMembers (s : State) (ms sb : List Nat) : State :=
  ((List.range 8).foldl (fun s k =>
    (s.setRg Rg.beat_MEMBER k (midWord ms k)).setRg Rg.beat_STANDBY k (midWord sb k)) s).setRg Rg.beat_MEMBERS 0 ms.length

/-- The MIDs of the members, or of the standby members. -/
def State.midSet (s : State) (f : Fld) : List Nat :=
  (List.range 256).filter (fun m => bitN (s.rg f (m / 32)) (m % 32))

/-- The members. -/
def State.members (s : State) : List Nat := s.midSet Rg.beat_MEMBER

/-- BEAT_BUDGET of the period in fabric cycles and TREE_DELAY (R47). Where the difference would be negative it shows 0 (DESIGN
CHOICE, log entry 112). -/
def State.showBudget (s : State) (p : Nat) : State :=
  s.setRg Rg.beat_BEAT_BUDGET 0 (p - (2 * s.rg Rg.beat_TREE_DELAY + 1024))

/-- TREE_DELAY, TICK_LEAD and DEPTH of a tick tree (R50). -/
def State.setTree (s : State) (delay depth : Nat) : State :=
  (((s.setRg Rg.beat_TREE_DELAY 0 delay).setRg Rg.beat_TICK_LEAD 0 (delay + 1024)).setRg Rg.beat_DEPTH 0 depth)

/-- A delay rounded up to a multiple of 64 fabric cycles (R50). -/
def roundDelay (n : Nat) : Nat := ceilDiv n 64 * 64

/-! ## Symbols of the tick tree (R53, R263) -/

/-- A symbol goes to every child of the tick tree. -/
def State.toChildren (s : State) (ty word : Nat) : State := s.dom.children.foldl (fun s d => s.symbol d ty word) s

/-- The ports that may carry tick symbols: UP, with TICK among their features (R276). -/
def State.tickPorts (s : State) : List Nat :=
  (List.range 24).filter (fun d => s.linkUp d && bitN (s.rg Rg.dvport_FEATURES d) 2)

/-- The word of a FORM symbol. -/
def formWord (dom founder depth : Nat) : Nat := dom * 2 ^ 6 + founder * 2 ^ 38 + depth * 2 ^ 46

/-- The word of a JOIN symbol. -/
def joinWord (dom mid : Nat) (standby : Bool) : Nat := dom * 2 ^ 6 + mid * 2 ^ 38 + ofBool standby * 2 ^ 46

/-- The word of a TICK symbol. -/
def tickWord (beat kind time : Nat) : Nat := beat % 2 ^ 24 * 2 ^ 6 + kind * 2 ^ 30 + time % 2 ^ 32 * 2 ^ 32

/-- The number congruent to `v` modulo 2^n that lies nearest to `near` (R263). -/
def extend (n v near : Nat) : Nat :=
  let b := near / 2 ^ n * 2 ^ n + v
  if b < near ∧ 2 ^ (n - 1) ≤ near - b then b + 2 ^ n
  else if near < b ∧ 2 ^ (n - 1) < b - near ∧ 2 ^ n ≤ b then b - 2 ^ n
  else b

/-! ## Formation (R49, R50) -/

/-- The domain ends at this module: it belongs to none, and takes part in no formation. -/
def State.leaveDomain (s : State) : State :=
  let s := { s with dom := { attempt := s.dom.attempt } }
  let s := (((s.setMembers [] []).setTree 0 0).setRg Rg.beat_MID 0 0).setRg Rg.beat_FORMING 0 0
  ((s.setRg Rg.beat_ROLE 0 0).setRg Rg.beat_HALTED 0 0).showBudget (s.rg Rg.beat_PERIOD_US * 1600)

/-- This module meets the conditions of R49 for a domain, and belongs to no domain of two or more members (R51). -/
def State.mayJoin (s : State) (dom : Nat) : Bool :=
  !s.flag Rg.beat_RUN && s.flag Rg.beat_JOIN_EN && s.rg Rg.beat_DOMAIN_ID == dom
    && (!s.dom.member || decide (s.rg Rg.beat_MEMBERS < 2))

/-- A module whose conditions of R49 no longer hold takes no further part in the formation under way. -/
def State.formCheck (s : State) : State :=
  if s.flag Rg.beat_FORMING && !s.mayJoin s.dom.formId then s.leaveDomain else s

/-- FORM: this module founds a domain; with JOIN_EN 0, or where it may not join, formation fails. A module that was a domain of its
own leaves it with the formation that it takes part in (DESIGN CHOICE, log entry 113). -/
def State.form (s : State) : State :=
  if s.mayJoin (s.rg Rg.beat_DOMAIN_ID) && !s.flag Rg.beat_FORMING then
    let s := if s.dom.member then s.leaveDomain else s
    let s := { s with dom := { founding := true, formId := s.rg Rg.beat_DOMAIN_ID, attempt := s.dom.attempt } }.setRg
      Rg.beat_FORMING 0 1
    s.tickPorts.foldl (fun s d =>
      s.symbol d 6 (formWord (s.rg Rg.beat_DOMAIN_ID) (s.rg Rg.beat_MID_REQ) 0)) s
  else s

/-- Writing FORM. -/
def execForm (s : State) : Res := .next s.form

/-- A FORM symbol on a port: a module that may join takes its parent from the link that brings the first one, passes the
symbol on and sends JOIN. -/
def State.formSym (s : State) (port dom founder depth : Nat) : State :=
  if s.mayJoin dom && !s.flag Rg.beat_FORMING && s.tickPorts.contains port then
    let s := if s.dom.member then s.leaveDomain else s
    let s := { s with dom := { parent := some port, depth := depth + 1, formId := dom, attempt := s.dom.attempt } }.setRg
      Rg.beat_FORMING 0 1
    let s := (s.tickPorts.filter (fun d => d != port)).foldl (fun s d => s.symbol d 6 (formWord dom founder (depth + 1))) s
    s.symbol port 7 (joinWord dom (s.rg Rg.beat_MID_REQ) (s.flag Rg.beat_STANDBY_REQ))
  else s

/-- A FORM symbol arrives. -/
def execFormSymbol (port dom founder depth : Nat) (s : State) : Res := .next (s.formSym port dom founder depth)

/-- This module becomes a member as the domain tells it: MID, ROLE, members, tree, BEATNO, domain time, period, and the base and the
debt of the schedule (R49-R51, R84, R85). -/
def State.enter (s : State) (i : DomInfo) (role : Nat) : State :=
  let mid := s.rg Rg.beat_MID_REQ
  let s := { s with dom := { s.dom with
    member := true, founding := false, joined := [], parent := i.parent, children := i.children, depth := i.depth,
    master := i.master,
    period := i.period * 1600, started := i.running, ticking := i.running, attempt := i.attempt, joinSpent := false,
    baseB := i.base.1, baseN := i.base.2, lastA := i.last, beatStart := i.last, overrun := i.debt.2.2 } }
  let s := ((s.setRg Rg.beat_DEBT 0 i.debt.1).setRg Rg.beat_OVR_RUN 0 i.debt.2.1).setRg Rg.beat_JOIN_REFUSED 0 0
  let s := ((((s.setMembers i.members i.standby).setTree i.delay i.treeDepth).setRg Rg.beat_MID 0 mid).setRg Rg.beat_ROLE 0 role)
  let s := ((s.setRg Rg.beat_BEATNO 0 i.beat).setRg Rg.beat_DTIME 0 i.time).setRg Rg.beat_PERIOD_US 0 i.period
  ((s.setRg Rg.beat_FORMING 0 0).setRg Rg.beat_HALTED 0 (ofBool i.halted)).showBudget (i.period * 1600)

/-- What the founder knows of the domain it closes. The founder is an active member whatever its STANDBY_REQ says (DESIGN CHOICE, log
entry 114). -/
def State.founded (s : State) : DomInfo :=
  let me := s.rg Rg.beat_MID_REQ
  { parent := none, children := s.dom.children, depth := 0,
    treeDepth := s.dom.joined.foldl (fun a j => max a j.2.2.1) 0,
    delay := roundDelay (s.dom.joined.foldl (fun a j => max a j.2.2.2) 0), master := me,
    members := me :: s.dom.joined.map (fun j => j.1),
    standby := (s.dom.joined.filter (fun j => j.2.1)).map (fun j => j.1), beat := 0, time := 0,
    period := s.rg Rg.beat_PERIOD_US, running := false, halted := false, attempt := s.dom.attempt }

/-- No number stands twice in a list. -/
def noTwice : List Nat → Bool
  | [] => true
  | a :: t => !t.contains a && noTwice t

/-- The member-joined event (R87, R377). -/
def State.joinedEvent (s : State) (standby : Bool) : State :=
  s.event 0x0101 (s.rg Rg.beat_DOMAIN_ID + s.rg Rg.beat_MID * 2 ^ 32 + ofBool standby * 2 ^ 40 + s.nowB48)

/-- Formation closes. The founder judges the MIDs and the depth, becomes master and raises the event; at another member
`info` is what the domain tells it, and none says that formation has failed. A module whose conditions of R49 do not hold takes no
part in it. -/
def State.formationClose (s : State) (info : Option DomInfo) : State :=
  if !s.flag Rg.beat_FORMING then s
  else if !s.mayJoin s.dom.formId then s.leaveDomain
  else if s.dom.founding then
    let i := s.founded
    if noTwice i.members && decide (i.treeDepth ≤ 12) then
      (s.enter i 3).event 0x0100
        (s.rg Rg.beat_DOMAIN_ID + i.members.length * 2 ^ 32 + i.treeDepth * 2 ^ 41 + i.delay * 2 ^ 64)
    else s.leaveDomain
  else match info with
    | none => s.leaveDomain
    | some i =>
      let sb := s.flag Rg.beat_STANDBY_REQ
      (s.enter { i with parent := s.dom.parent } (if sb then 2 else 1)).joinedEvent sb

/-- Formation closes. -/
def execFormationClose (info : Option DomInfo) (s : State) : Res := .next (s.formationClose info)

/-! ## Joining a live domain (R51) -/

/-- This module asks over the link port d to be let into the live domain of its DOMAIN_ID. -/
def State.askJoinAt (s : State) (d : Nat) : State :=
  if s.mayJoin (s.rg Rg.beat_DOMAIN_ID) && !s.flag Rg.beat_FORMING && !s.dom.joinSpent && s.tickPorts.contains d then
    s.symbol d 7 (joinWord (s.rg Rg.beat_DOMAIN_ID) (s.rg Rg.beat_MID_REQ) (s.flag Rg.beat_STANDBY_REQ))
  else s

/-- The link port over which a new attempt asks: the lowest whose other end was a member of the domain of DOMAIN_ID when the link
came up, else the lowest that may carry tick symbols (DESIGN CHOICE, log entry 115). -/
def State.joinPort (s : State) : Option Nat :=
  match s.tickPorts.find? (fun d => (s.port d).peerDom == s.rg Rg.beat_DOMAIN_ID && (s.port d).peerRole != 0) with
  | some d => some d
  | none => s.tickPorts.head?

/-- This module asks to be let into the live domain of its DOMAIN_ID. -/
def State.askJoin (s : State) : State :=
  match s.joinPort with
  | some d => s.askJoinAt d
  | none => s

/-- JOIN_EN is written; from 0 to 1 it allows a new attempt, and 0 ends this module's part in a formation (R49, R51). -/
def State.joinEnWrite (s : State) (v : Bool) : State :=
  let old := s.flag Rg.beat_JOIN_EN
  let s := s.setRg Rg.beat_JOIN_EN 0 (ofBool v)
  if v && !old then { s with dom := { s.dom with joinSpent := false } }.askJoin else s.formCheck

/-- JOIN_EN is written. -/
def execJoinEnWrite (v : Bool) (s : State) : Res := .next (s.joinEnWrite v)

/-- A request of another module: the founder notes it, the master keeps it for the next tick, another member passes it up. Each
request is one module's: two that name one MID are two modules (R49, R51). -/
def State.joinRequest (s : State) (port dom mid : Nat) (standby : Bool) (depth delay : Nat) : State :=
  if s.rg Rg.beat_DOMAIN_ID ≠ dom ∨ s.tickPorts.contains port = false then s
  else if s.dom.founding then
    { s with dom := { s.dom with
      joined := s.dom.joined ++ [(mid, standby, depth, delay)], children := insertNat port s.dom.children } }
  else if s.isMaster then
    { s with dom := { s.dom with joins := s.dom.joins ++ [(mid, standby, depth, delay, port)] } }
  else match s.dom.parent with
    | none => s
    | some p =>
      { s with dom := { s.dom with children := insertNat port s.dom.children } }.symbol p 7 (joinWord dom mid standby)

/-- Every working tile of a member that enters a running domain holds its beat open (R68). -/
def State.openTiles (s : State) : State :=
  ((List.range 256).filter s.tileUp).foldl (fun s t => s.setTile t { s.tile t with openBeat := true, running := false }) s

/-- A JOIN symbol, the master's answer to this module's own, or what the master tells of another module's. -/
def State.joinSym (s : State) (m : JoinMsg) : State :=
  match m with
  | .request port dom mid standby depth delay => s.joinRequest port dom mid standby depth delay
  | .admitted i =>
    if s.mayJoin (s.rg Rg.beat_DOMAIN_ID) && !s.dom.joinSpent then
      let sb := s.flag Rg.beat_STANDBY_REQ
      let s := s.enter i (if sb then 2 else 1)
      (if i.running && !sb then s.openTiles else s).joinedEvent sb
    else s
  | .refused c =>
    if s.dom.member && decide (2 ≤ s.rg Rg.beat_MEMBERS) then s
    else
      let s := { s with dom := { s.dom with joinSpent := true } }
      ((s.setRg Rg.beat_JOIN_REFUSED 0 1).setRg Rg.beat_REFUSE_CAUSE 0 c).event 0x010A
        (s.rg Rg.beat_DOMAIN_ID + s.rg Rg.beat_MID_REQ * 2 ^ 32 + c * 2 ^ 40)
  | .joining mid sb delay depth =>
    if s.dom.member && !s.isMaster then { s with dom := { s.dom with joining := s.dom.joining ++ [(mid, sb, delay, depth)] } } else s

/-- A JOIN symbol reaches this module. -/
def execJoinSymbol (m : JoinMsg) (s : State) : Res := .next (s.joinSym m)

/-- Members join at a tick of any kind: at another member than the master, those it has been told of, with the tree as it then is
(R51). -/
def State.toldJoins (s : State) : State :=
  let l := s.dom.joining
  if l.isEmpty then s
  else
    let s := { s with dom := { s.dom with joining := [] } }
    let s := s.setMembers (s.members ++ l.map (fun x => x.1))
      (s.midSet Rg.beat_STANDBY ++ (l.filter (fun x => x.2.1)).map (fun x => x.1))
    (s.setTree (l.foldl (fun a x => max a x.2.2.1) (s.rg Rg.beat_TREE_DELAY))
      (l.foldl (fun a x => max a x.2.2.2) (s.rg Rg.beat_DEPTH))).showBudget s.dom.period

/-- REFUSE_CAUSE of a request, where the master refuses it: its MID is in use, another request of this tick names it too, or the module
would lie too deep (R48, R51, R88). -/
def State.refusal (s : State) (r : Nat × Bool × Nat × Nat × Nat) : Option Nat :=
  if s.members.contains r.1 then some 0
  else if s.dom.joins.countP (fun q => q.1 == r.1) ≠ 1 then some 1
  else if 12 < r.2.2.1 then some 2
  else none

/-- What the master tells a module that it admits at `depth` (R51, R84, R85). -/
def State.domInfo (s : State) (depth : Nat) : DomInfo :=
  { parent := none, children := [], depth := depth, treeDepth := s.rg Rg.beat_DEPTH, delay := s.rg Rg.beat_TREE_DELAY,
    master := s.dom.master, members := s.members, standby := s.midSet Rg.beat_STANDBY, beat := s.rg Rg.beat_BEATNO,
    time := s.rg Rg.beat_DTIME, period := s.dom.period / 1600, running := s.dom.ticking, halted := s.flag Rg.beat_HALTED,
    attempt := s.dom.attempt, base := (s.dom.baseB, s.dom.baseN), last := s.dom.lastA,
    debt := (s.rg Rg.beat_DEBT, s.rg Rg.beat_OVR_RUN, s.dom.overrun) }

/-- The master judges the requests that wait, at a tick: it refuses, or the modules become members, and it tells them and the other
members so (R51). -/
def State.takeJoins (s : State) : State :=
  let reqs := s.dom.joins
  let ok := reqs.filter (fun r => (s.refusal r).isNone)
  let no := reqs.filterMap (fun r => (s.refusal r).map (fun c => (r.1, c)))
  let s := no.foldl (fun (s : State) (x : Nat × Nat) => s.emit (.join x.1 (.refused x.2)))
    { s with dom := { s.dom with joins := [], children := ok.foldl (fun l r => insertNat r.2.2.2.2 l) s.dom.children } }
  if ok.isEmpty then s
  else
    let s := s.setMembers (s.members ++ ok.map (fun r => r.1))
      (s.midSet Rg.beat_STANDBY ++ (ok.filter (fun r => r.2.1)).map (fun r => r.1))
    let s := (s.setTree (max (s.rg Rg.beat_TREE_DELAY) (roundDelay (ok.foldl (fun a r => max a r.2.2.2.1) 0)))
      (ok.foldl (fun a r => max a r.2.2.1) (s.rg Rg.beat_DEPTH))).showBudget s.dom.period
    ok.foldl (fun (s : State) r =>
      (s.emit (.join 256 (.joining r.1 r.2.1 (s.rg Rg.beat_TREE_DELAY) (s.rg Rg.beat_DEPTH)))).emit
        (.join r.1 (.admitted (s.domInfo r.2.2.1)))) s

/-- Modules join at a tick of any kind (R51). -/
def State.joinTick (s : State) : State := if s.isMaster then s.takeJoins else s.toldJoins

/-! ## Loads that wait (R65, R201) -/

/-- The waiting access of one core is served: each lane (with `all`, any; else one of the core's own slice) answers what has committed,
and an atomic acts there and then. It comes behind the core's posted stores (R164). -/
def State.serveCore (s : State) (all : Bool) (e : Nat × Core) : State :=
  let now := e.2.waitLanes.filter (fun key => all || decide (key / 2 ^ 24 = e.1))
  if now.isEmpty || !e.2.heldStores.isEmpty then s
  else
    let k := { e.2 with waitLanes := e.2.waitLanes.filter (fun key => !now.contains key),
                        served := e.2.served ++ now.map (fun key => (key, BitVec.ofNat 32 (s.readN key 4))) }
    now.foldl (fun (s : State) key =>
      match e.2.waitOp.bind (fun op => op.new (s.readN key 4)) with
      | some v => s.writeN key 4 v
      | none => s) { s with cores := s.cores.put e.1 k }

/-- The waiting accesses of cores that a tick, a stop or a halt serves: with `all`, every one; else those in the core's own slice. -/
def State.serveLoads (s : State) (all : Bool) : State := s.cores.foldl (fun s e => s.serveCore all e) s

/-! ## Ticks are sent (R56-R58, R81, R82, R84) -/

/-- A tick waits for its application time here and is on its way to the children. -/
def State.schedule (s : State) (kind a : Nat) : State :=
  let n := s.rg Rg.beat_BEATNO
  { s with dom := { s.dom with pend := some (kind, n, a) } }.toChildren 4 (tickWord n kind a)

/-- A tick that is due as soon as every member can hold it. -/
def State.scheduleSoon (s : State) (kind : Nat) : State :=
  s.schedule kind (s.rg Rg.beat_DTIME + s.rg Rg.beat_TICK_LEAD)

/-- The members that take part in a checkpoint: those that hold a place in a bed (R479). -/
def State.ckMembers (s : State) : List Nat :=
  let sb := s.midSet Rg.beat_STANDBY
  s.members.filter (fun m => !sb.contains m)

/-- Mulch tells the master, or, at the master, the other members. -/
def State.mulchTell (s : State) (kind : Nat) (bs : List Byte) : State :=
  if s.isMaster then
    (s.ckMembers.filter (fun m => m != s.rg Rg.beat_MID)).foldl (fun s m => s.emit (.mulch kind m bs)) s
  else s.emit (.mulch kind 256 bs)

/-- The running checkpoint is cancelled here, or (cause 5) the held one is not made durable: its marks and held writes go, and
at the master it counts, with its event (R488). `mid` is the first failing member. -/
def State.ckFail (s : State) (cause mid : Nat) : State :=
  let m := s.mulch
  let count := fun (s : State) (c : Nat) =>
    let s := (s.setRg Rg.mulch_FAIL_CAUSE 0 cause).mulchTell 5 (leBytes 1 cause ++ leBytes 1 mid)
    if s.ownMaster then
      ((s.incRg Rg.mulch_MCNT 2 1).sqRaise Rg.mulch_CK_EVT Rg.mulch_CK_SEQ 0 1).event 0x0802 (cause + mid * 2 ^ 8 + b48 c)
    else s
  if cause = 5 then
    let s := if m.run then s else s.setRg Rg.mulch_STATE 0 0
    match m.storing with
    | some (c, _, _) => count { s with mulch := { m with storing := none } } c
    | none => if s.isMaster then s else count s (s.rg Rg.mulch_CUT_BEAT)
  else if !m.run then s
  else
    let keep := m.holding.filter (fun c => m.digMarks.any (fun r => decide (r.1 ≤ c) && decide (c < r.2)))
    let s := { s with mulch := { m with
      run := false, cut := none, acks := [], marks := [], copied := [], pages := [], refs := [], assigned := false,
      sealed_ := false, heldBy := [], holding := keep,
      buffer := m.buffer.filter (fun (b : Nat × Nat) => keep.contains b.2) } }.setRg Rg.mulch_STATE 0 0
    (count s (m.cut.getD (s.rg Rg.mulch_CUT_BEAT))).advanceWaiting

/-- A domain halts here with a cause: nothing further commits, and reads that wait are served (R55, R201, R458). -/
def State.haltNow (s : State) (cause : Nat) : State :=
  if s.flag Rg.beat_HALTED then s
  else
    let s := { s with dom := { s.dom with ticking := false, haltCause := cause, haltWith := none, pend := none } }
    let s := s.ckFail 2 (s.rg Rg.beat_MID)
    ((((s.setRg Rg.beat_HALTED 0 1).event 0x0105 (cause + s.nowB48)).serveLoads true).advanceWaiting).eadvanceWaiting.dropReplays

/-- The beat is to abort for a cause, and the domain to halt with `halt`: the master sends the ABORT tick; another member's
fault manager asks the master's (R81, R82, R447). -/
def State.abortBeat (s : State) (cause : Nat) (halt : Option Nat) : State :=
  if !s.dom.member || s.flag Rg.beat_HALTED then s
  else if !s.isMaster then s.emit (.fmRequest cause (match halt with | some h => h + 1 | none => 0))
  else if s.dom.ticking && !s.dom.aborted then
    let h := match s.dom.haltWith with
      | some x => some x
      | none => halt
    match s.dom.pend with
    | some (2, _, _) => { s with dom := { s.dom with haltWith := h } }
    | _ => { s with dom := { s.dom with abortCause := cause, haltWith := h } }.scheduleSoon 2
  else match halt with
    | some h => s.haltNow h
    | none => s

/-- RUN is written. At the master: 1 starts the domain, resumes a stopped one, or one that a table error has halted; 0
stops it at the next COMMIT tick (R56, R82). -/
def State.runWrite (s : State) (v : Bool) : State :=
  let s := (s.setRg Rg.beat_RUN 0 (ofBool v)).formCheck
  if !s.isMaster then s
  else if v then
    let s := { s with dom := { s.dom with stopReq := false } }
    if s.dom.ticking || s.dom.pend.isSome then s
    else if s.flag Rg.beat_HALTED then (if s.dom.haltCause = 1 then s.scheduleSoon 3 else s)
    else s.scheduleSoon (if s.dom.started then 3 else 0)
  else if s.dom.ticking then { s with dom := { s.dom with stopReq := true } }
  else s

/-- RUN is written. -/
def execRunWrite (v : Bool) (s : State) : Res := .next (s.runWrite v)

/-- DISSOLVE ends a stopped or halted domain at every member: each member that it reaches ends the domain here and passes it on
over its tree links (R56; log entry 116). -/
def State.dissolve (s : State) : State :=
  if s.dom.member && !s.dom.ticking then (s.emit (.dissolved (s.rg Rg.beat_DOMAIN_ID))).leaveDomain else s

/-- DISSOLVE is written, here or at another member. -/
def execDissolve (s : State) : Res := .next s.dissolve

/-- NEXT_PERIOD and PERIOD_AT are written at the master; a period outside 8 to 4,000 µs is ignored (R86). At another member the two
fields are kept, and act if that member becomes master (DESIGN CHOICE, log entry 117). -/
def execNextPeriodWrite (us : Nat) (at_ : Nat) (s : State) : Res :=
  let s := (s.setRg Rg.beat_PERIOD_AT_LO 0 (at_ % 2 ^ 32)).setRg Rg.beat_PERIOD_AT_HI 0 (at_ / 2 ^ 32)
  if 8 ≤ us ∧ us ≤ 4000 then
    .next ({ s with dom := { s.dom with nextSet := true } }.setRg Rg.beat_NEXT_PERIOD_US 0 us)
  else .next s

/-! ## DONE (R57, R58) -/

/-- Tile t runs its Seedling kernel in beat n: its turn, or a sweep of its bed (R463, R466). -/
def State.seedDue (s : State) (t n : Nat) : Bool :=
  (s.flag Rg.fault_SEED_EN && (n + t) % s.rg Rg.fault_SEED_EVERY == 0)
    || (s.fm.sweep != 0 && s.fm.sweepBeds.contains (s.rg Rg.place_BED_ID))

/-- The running table's scratch holds the kernel (R463). -/
def State.seedRoom (s : State) (t : Nat) : Bool := decide (8192 ≤ bits (s.runSlot t 0) 147 19)

/-- A working tile has finished the beat, its Seedling kernel included. -/
def State.tileDone (s : State) (t : Nat) : Bool :=
  (s.tile t).finished
    && (!s.seedDue t (s.rg Rg.beat_BEATNO) || !s.seedRoom t || s.fm.seeded.contains t)

/-- Every condition of R57 holds here; at the master, it holds DONE of every active member. -/
def State.doneReady (s : State) : Bool :=
  s.dom.ticking && !s.dom.aborted && s.dom.pend.isNone && !s.dom.doneSent
    && s.dom.children.all (fun d => s.dom.doneFrom.contains d)
    && s.fm.replays.all (fun r => r.phase == 2)
    && s.fm.mirrorOut == 0
    && (!s.active || (List.range 256).all (fun t => !s.tileWorking t || s.tileDone t))

/-- The earliest permitted tick that closes the current beat (R84). -/
def State.earliest (s : State) : Nat :=
  let P := s.dom.period
  let d := s.dom.lastA - (s.dom.baseB + (s.rg Rg.beat_BEATNO - s.dom.baseN) * P)
  s.dom.lastA + max (P - d) (3 * P / 4)

/-- Every member has acknowledged the cut of the checkpoint whose cut beat is the current one (R479). -/
def State.cutAcked (s : State) : Bool :=
  s.mulch.cut != some (s.rg Rg.beat_BEATNO) || s.ckMembers.all (fun m => s.mulch.acks.contains m)

/-- A retirement, of those that wait for the tick too, takes the service level below 2 at the next tick, which is then an ABORT tick
(R40). -/
def State.levelDrops (s : State) : Bool :=
  s.rg Rg.identity_SERVICE_LEVEL == 2 && s.retireTiles.fm.levelFall.isSome && s.retireTiles.levelOf != 2

/-- This member has a valid spare (R456). -/
def State.hasSpare (s : State) : Bool := s.flag Rg.place_SPARE_EN && s.flag Rg.fault_SPARE_VALID

/-- The RESTART tick follows an ABORT once nothing holds it back: no halt is due, no tile is being copied, no spare member is
arming (R81, R454, R459). -/
def State.tryRestart (s : State) : State :=
  if s.isMaster && s.dom.ticking && s.dom.aborted && s.dom.pend.isNone && s.dom.haltWith.isNone && !s.dom.waitSpare
      && s.fm.replays.all (fun r => r.spare.isNone || r.phase == 2) then s.scheduleSoon 3
  else s

/-- A member that is ready reports DONE to its parent; the master, with every DONE, sends the COMMIT tick. -/
def State.tryDone (s : State) : State :=
  if !s.doneReady then s
  else if s.active && s.levelDrops then s.abortBeat 0 (if s.hasSpare then none else some 3)
  else if s.isMaster then
    if s.cutAcked then
      { s with dom := { s.dom with doneSent := true } }.schedule 1
        (max s.earliest (s.rg Rg.beat_DTIME + s.rg Rg.beat_TICK_LEAD))
    else s
  else match s.dom.parent with
    | none => s
    | some p =>
      { s with dom := { s.dom with doneSent := true } }.symbol p 5 (s.rg Rg.beat_BEATNO % 2 ^ 24 * 2 ^ 6)

/-- All DONE conditions of this member hold. -/
def execMemberDoneReady (s : State) : Res := .next s.tryDone

/-- A DONE symbol of a child, for the current beat. -/
def State.doneSym (s : State) (port beat : Nat) : State :=
  if s.dom.children.contains port && s.rg Rg.beat_BEATNO % 2 ^ 24 == beat % 2 ^ 24 then
    { s with dom := { s.dom with doneFrom := insertNat port s.dom.doneFrom } }.tryDone
  else s

/-- A DONE symbol arrives. -/
def execDoneSymbol (port beat : Nat) (s : State) : Res := .next (s.doneSym port beat)

/-- A TICK symbol from the parent waits for its application time and goes on to the children. -/
def State.tickSym (s : State) (port beat kind time : Nat) : State :=
  if s.dom.parent = some port then
    let n := extend 24 (beat % 2 ^ 24) (s.rg Rg.beat_BEATNO)
    let a := extend 32 (time % 2 ^ 32) (s.rg Rg.beat_DTIME)
    { s with dom := { s.dom with pend := some (kind, n, a) } }.toChildren 4 (tickWord n kind a)
  else s

/-- A TICK symbol arrives. -/
def execTickSymbol (port beat kind time : Nat) (s : State) : Res := .next (s.tickSym port beat kind time)

/-! ## Time discipline (R52, R265) -/

/-- A TIME symbol goes to every child. -/
def execTimeDisciplineSend (s : State) : Res :=
  if s.dom.member then
    .next ({ s with dom := { s.dom with timeSeq := (s.dom.timeSeq + 1) % 256 } }.toChildren 3
      (s.rg Rg.beat_DTIME % 2 ^ 48 * 2 ^ 6 + s.dom.timeSeq * 2 ^ 54))
  else .next s

/-- A TIME symbol of the parent: the time it carries is that at which its flit left the parent's pins, LINK_DELAY and 7
cycles ago (R263, R265). -/
def State.timeSym (s : State) (port time : Nat) : State :=
  if s.dom.parent = some port then
    s.setRg Rg.beat_DTIME 0 (extend 48 (time % 2 ^ 48) (s.rg Rg.beat_DTIME) + s.rg Rg.dvport_LINK_DELAY port + 7)
  else s

/-- A TIME symbol arrives. -/
def execTimeSymbol (port time : Nat) (s : State) : Res := .next (s.timeSym port time)

end Sys2Proof.Machine
end

