-- ==== Sys2Proof/Machine/LinkRx.lean ====
section
/-!
DEFINITION. The receiving side of the Dvorar links: flits, control symbols, credits, lanes, training, routes and probes
(R259-R280).
-/
namespace Sys2Proof.Machine

/-! ## Retry and credits (R262, R267) -/

/-- Data flits leave again (R262, R277). -/
def State.resendFlits (s : State) (d : Nat) (fs : List TxFlit) : State := fs.foldl (fun s f => s.sendFlit d f) s

/-- CREDITS_VC of a port as its next training uses it: 128 each where the sum passes 1,024 (R267). -/
def State.credits (s : State) (d vc : Nat) : Nat :=
  if 1024 < ((List.range 8).map (fun v => s.rg Rg.dvport_CREDITS_VC (8 * d + v))).sum then 128
  else s.rg Rg.dvport_CREDITS_VC (8 * d + vc)

/-- NEG word i of a port (R275). -/
def State.negWord (s : State) (d i : Nat) : Nat :=
  let alone := !s.dom.member
  match i with
  | 0 => 2 + (s.port d).lanes * 2 ^ 16
  | 1 => 0x1F
  | 2 => if alone then 0 else s.rg Rg.beat_DOMAIN_ID
  | 3 => (if alone then s.rg Rg.beat_MID_REQ else s.rg Rg.beat_MID) + d * 2 ^ 8 + s.rg Rg.beat_ROLE * 2 ^ 13
  | _ => s.credits d (2 * (i - 4)) + s.credits d (2 * (i - 4) + 1) * 2 ^ 16

/-- A port sends its NEG words. -/
def State.sendNeg (s : State) (d : Nat) : State :=
  (List.range 8).foldl (fun s i => s.symbol d 12 (i * 2 ^ 6 + s.negWord d i * 2 ^ 10)) s

/-- A link retrains, and sends its NEG words. -/
def State.retrainNeg (s : State) (d cause : Nat) : State := if s.linkUp d then (s.retrain d cause).sendNeg d else s

/-- A NAK: every data flit from the named FSEQ on is sent again; the fourth in a row for one FSEQ retrains the link. -/
def State.nakSym (s : State) (d fseq : Nat) : State :=
  if !s.linkUp d then s
  else
    let k := s.port d
    let n := if k.nakSeq.1 = fseq ∧ k.nakSeq.2 ≠ 0 then k.nakSeq.2 + 1 else 1
    let s := (s.setPort d { k with nakSeq := (fseq, n) }).satRg Rg.dvport_REPLAYS d 1
    if 4 ≤ n then s.retrainNeg d 1 else s.resendFlits d (k.replay.dropWhile (fun f => f.fseq != fseq))

/-- A NAK symbol arrives. -/
def execNakSymbol (port fseq : Nat) (s : State) : Res := .next (s.nakSym port fseq)

/-- A CREDIT symbol: the buffers freed since the latest one come back, and waiting packets go (R267). -/
def State.creditSym (s : State) (d vc cum : Nat) : State :=
  let k := s.port d
  let n := (cum + 4096 - k.creditSeen.getD 0 vc % 4096) % 4096
  (s.setPort d { k with credit := k.credit.set 0 vc (k.credit.getD 0 vc + n), creditSeen := k.creditSeen.set 0 vc cum }).run d

/-- A CREDIT symbol arrives. -/
def execCreditSymbol (port vc cum : Nat) (s : State) : Res := .next (s.creditSym port vc cum)

/-! ## Link map, routes and probes (R272, R280) -/

/-- The other end of a link has an LSTATE of a module's port as new as the latest one sent to it: it is not sent again (R264). -/
def State.echoed (s : State) (d mid port seq : Nat) : State :=
  let k := s.port d
  let i := mid + 256 * port
  match k.unechoed.get? i with
  | none => s
  | some w => if (seq + 4096 - (w - 1) / 2 ^ 20 % 4096) % 4096 < 2048 then s.setPort d { k with unechoed := k.unechoed.del i } else s

/-- An LSTATE symbol newer than the map's entry updates it and is passed on; routes follow. -/
def State.lstateSym (s : State) (d mid port : Nat) (up : Bool) (seq : Nat) : State :=
  let i := 32 * mid + port
  let fresh := match s.dv.linkMap.get? i with
    | none => true
    | some e => decide (0 < (seq + 4096 - e.2) % 4096 ∧ (seq + 4096 - e.2) % 4096 < 2048)
  if mid = s.rg Rg.beat_MID ∨ fresh = false then s.echoed d mid port seq
  else
    (({ s with dv := { s.dv with linkMap := s.dv.linkMap.put i (up, seq) } }.flood (lstateWord mid port (ofBool up) seq)).echoed
      d mid port seq).reroute

/-- An LSTATE symbol arrives. -/
def execLstateSymbol (port mid of_ : Nat) (up : Bool) (seq : Nat) (s : State) : Res :=
  .next (s.lstateSym port mid of_ up seq)

/-- The word of a PROBE or PROBE_REPLY symbol. -/
def probeWord (target origin tag : Nat) : Nat := target * 2 ^ 6 + origin * 2 ^ 14 + tag % 256 * 2 ^ 22

/-- A symbol goes one hop towards a member, by the route of its packets (log entry 30). -/
def State.hop (s : State) (mid ty word : Nat) : State :=
  match s.choose { blankPkt with dst := mid } with
  | some d => if d < 24 then s.symbol d ty word else s
  | none => s

/-- The master probes every active member but itself. -/
def execProbeSend (s : State) : Res :=
  if s.isMaster then
    let tag := (s.dv.tag + 1) % 256
    let me := s.rg Rg.beat_MID
    .next ((s.members.filter (fun m => m != me && !s.standby m)).foldl (fun s m => s.hop m 9 (probeWord m me tag))
      { s with dv := { s.dv with tag := tag } })
  else .next s

/-- A PROBE: its target answers, another module passes it on. -/
def State.probeSym (s : State) (d target origin tag : Nat) : State :=
  if target = s.rg Rg.beat_MID then s.symbol d 10 (probeWord target origin tag) else s.hop target 9 (probeWord target origin tag)

/-- A PROBE symbol arrives. -/
def execProbeSymbol (port target origin tag : Nat) (s : State) : Res := .next (s.probeSym port target origin tag)

/-- A PROBE_REPLY: the origin notes the member as reachable, another module passes it on. -/
def State.replySym (s : State) (target origin tag : Nat) : State :=
  if origin = s.rg Rg.beat_MID then { s with dv := { s.dv with missed := s.dv.missed.del target } }
  else s.hop origin 10 (probeWord target origin tag)

/-- A PROBE_REPLY symbol arrives. -/
def execProbeReply (port target origin tag : Nat) (s : State) : Res :=
  if port < 24 then .next (s.replySym target origin tag) else .next s

/-- A PROBE to a member has gone unanswered for 8 µs; after two in a row the member is unreachable (`State.unreachable`). -/
def execProbeTimeout (mid : Nat) (s : State) : Res :=
  if s.isMaster then .next { s with dv := { s.dv with missed := s.dv.missed.set 0 mid (s.dv.missed.getD 0 mid + 1) } }
  else .next s

/-- ROUTE_CTRL.SWAP: the other bank becomes active at the next tick. -/
def execRouteSwap (s : State) : Res := .next { s with dv := { s.dv with swapPend := true } }

/-- At a tick of any kind a pending swap takes effect, and ports that have returned to UP rejoin the lists. -/
def State.routeTick (s : State) : State :=
  let s := if s.dv.swapPend then
      ({ s with dv := { s.dv with swapPend := false } }.setRg Rg.dvorar_ACTIVE 0 (1 - s.rg Rg.dvorar_ACTIVE))
    else s
  (List.range 24).foldl (fun s d =>
    if (s.port d).barred && s.linkUp d then s.setPort d { s.port d with barred := false } else s) s

/-! ## Lanes (R277) -/

/-- The fault manager retires a lane, and logs it: one lane at a time. -/
def State.laneOut (s : State) (d lane check : Nat) : State :=
  let k := s.port d
  if s.linkUp d && bitN (s.rg Rg.dvport_LANES d) lane && k.asked.isNone && k.drop.isNone then
    let r : FaultRec := { cls := 2, unit := 4, index := d, sub := lane, check := check, beat := s.rg Rg.beat_BEATNO }
    ((s.countReport r).logPair r 4 0).retireLane d lane
  else s

/-- A lane loses lock. While another lane is being dropped it waits for its turn; on a link that is not UP this end trains without it. -/
def execLaneLockLost (port lane : Nat) (s : State) : Res :=
  let k := s.port port
  if !s.linkUp port then .next (s.setPort port { k with lanes := setBits k.lanes lane 1 0 })
  else if k.asked.isSome || k.drop.isSome then .next (s.setPort port { k with unlocked := insertNat lane k.unlocked })
  else .next (s.laneOut port lane 10)

/-- A window of 1 ms ends: LANE_CE shows its counts, and the lowest lane beyond LANE_CE_LIMIT retires, one at a time. -/
def execLaneCeWindow (port : Nat) (s : State) : Res :=
  let k := s.port port
  let over_ := (List.range 8).find? (fun l => decide (s.rg Rg.dvport_LANE_CE_LIMIT port < k.ce.getD 0 l))
  let s := (List.range 8).foldl (fun s l => s.setRg Rg.dvport_LANE_CE (8 * port + l) (k.ce.getD 0 l)) s
  let s := s.setPort port { k with ce := [] }
  match over_ with
  | some l => .next (s.laneOut port l 5)
  | none => .next s

/-- A LANE_DROP symbol: a request is confirmed, and both ends move to the lanes in use that the mask keeps, and deskew. -/
def State.dropSym (s : State) (d mask : Nat) (confirm : Bool) : State :=
  if !s.linkUp d then s
  else
    let s := if confirm then s else s.symbol d 11 (dropWord mask true)
    let k := s.port d
    let mask := mask &&& s.rg Rg.dvport_LANES d
    let s := s.setPort d { k with asked := none, drop := some mask, lanes := k.lanes &&& mask }
    if popCount 8 mask < 4 then s.retireLink d 1 else s.linkSet d 3 mask

/-- A LANE_DROP symbol arrives. -/
def execLaneDropSymbol (port mask : Nat) (confirm : Bool) (s : State) : Res := .next (s.dropSym port mask confirm)

/-- The remaining lanes are deskewed: every data flit not covered by an ACK is replayed, flits resume, and a lane that has lost lock
meanwhile has its turn. -/
def execLaneDeskewDone (port : Nat) (s : State) : Res :=
  let k := s.port port
  if s.linkUp port && k.drop.isSome then
    let s := ((s.setPort port { k with drop := none, slot := 0, unlocked := k.unlocked.tail }).resendFlits port k.replay).run port
    match k.unlocked with
    | [] => .next s
    | l :: _ => .next (s.laneOut port l 10)
  else .next s

/-! ## Training (R275, R276, R279) -/

/-- A NEG word: in TRAINING the first one shows that the other end negotiates, and this end does. -/
def State.negSym (s : State) (d i w : Nat) : State :=
  let st := s.rg Rg.dvport_STATE d
  if st = 1 ∨ st = 2 ∨ st = 4 then
    let s := s.setPort d { s.port d with neg := (s.port d).neg.put i w }
    if st = 1 then (s.linkSet d 2 (s.rg Rg.dvport_LANES d)).sendNeg d else s
  else s

/-- A NEG symbol arrives. -/
def execNegSymbol (port idx word : Nat) (s : State) : Res := .next (s.negSym port idx word)

/-- Both ends of an enabled link see signal, and it trains; seen again in TRAINING, the signal is trained, and this end negotiates and
sends its words (log entry 137). The measures of a flow fault hold every link DOWN (R576). -/
def execLinkSignalDetect (port : Nat) (s : State) : Res :=
  let st := s.rg Rg.dvport_STATE port
  if s.flag Rg.dvport_EN port && s.halfUp (port / 12) && !s.power.held then
    if st = 0 ∨ st = 5 then .next ((s.setPort port { s.port port with neg := [] }).linkSet port 1 0)
    else if st = 1 then .next ((s.linkSet port 2 0).sendNeg port)
    else .next s
  else .next s

/-- The link comes UP: version, features, lanes, credits, the event, the symbols due again, and a request to join (R51,
R264, R267, R272, R276). -/
def State.linkComesUp (s : State) (d delay lanes : Nat) : State :=
  let k := s.port d
  let w (i : Nat) : Nat := k.neg.getD 0 i
  let peer := bits (w 3) 0 8
  let pport := bits (w 3) 8 5
  let feat := w 1 &&& 0x1F
  let bad := decide (1024 < ((List.range 8).map (fun v => s.rg Rg.dvport_CREDITS_VC (8 * d + v))).sum)
  let credit := (List.range 8).foldl (fun (m : Cells Nat) v => m.set 0 v (bits (w (4 + v / 2)) (16 * (v % 2)) 10)) ([] : Cells Nat)
  let s := s.setPort d
    { k with credit := credit, creditSeen := [], freed := [], neg := [], fails := 0, slot := 0, unlocked := [],
             peerDom := w 2, peerRole := bits (w 3) 13 2 }
  let s := ((((((s.setRg Rg.dvport_VERSION d 1).setRg Rg.dvport_FEATURES d feat).setRg Rg.dvport_PEER_MID d peer).setRg
    Rg.dvport_PEER_PORT d pport).setRg Rg.dvport_LINK_DELAY d delay).setRg Rg.dvport_CRED_ERR d (ofBool bad)).setRg Rg.dvport_NEG_ERR d 0
  let s := (s.linkSet d 3 lanes).event 0x0300
    (d + pport * 2 ^ 8 + peer * 2 ^ 16 + lanes * 2 ^ 24 + 1 * 2 ^ 32 + feat * 2 ^ 64 + delay * 2 ^ 96)
  let s := k.sent.foldl (fun s (e : Nat × Nat) => s.symbol d e.1 (e.2 - 1)) s
  let s := k.unechoed.foldl (fun s (e : Nat × Nat) => s.symbol d 8 (e.2 - 1)) s
  let s := s.lstate d true
  let s := if w 2 ≠ 0 ∧ w 2 = s.rg Rg.beat_DOMAIN_ID ∧ bits (w 3) 13 2 ≠ 0 then s.askJoinAt d else s
  s.run d

/-- Negotiation fails with a NEG_ERR code. -/
def State.negFail (s : State) (d code : Nat) : State :=
  (((s.setPort d { s.port d with neg := [] }).setRg Rg.dvport_NEG_ERR d code).linkSet d 5 0).event 0x0302 (d + code * 2 ^ 8)

/-- Negotiation, or a retrain, ends; `delay` is the flight time that the end has measured. -/
def execNegotiationComplete (port delay : Nat) (s : State) : Res :=
  let st := s.rg Rg.dvport_STATE port
  if st = 2 ∨ st = 4 then
    let w0 := (s.port port).neg.getD 0 0
    let lanes := bits w0 16 8 &&& (s.port port).lanes
    if !bitN w0 1 then .next (s.negFail port 1)
    else if popCount 8 lanes < 4 then .next (s.negFail port 2)
    else if 800 < delay then .next (s.negFail port 3)
    else .next (s.linkComesUp port delay lanes)
  else .next s

/-- No flit has passed its CRC for 4 µs. -/
def execLinkTimeout (port : Nat) (s : State) : Res := .next (s.retrainNeg port 0)

/-- RETRAIN is written. -/
def execRetrain (port : Nat) (s : State) : Res := .next (s.retrainNeg port 2)

/-- A retrain is not UP within 40 µs: it has failed, and the link retires after three in a row, else it retrains again. -/
def execRetrainTimeout (port : Nat) (s : State) : Res :=
  if s.rg Rg.dvport_STATE port = 4 then
    let k := s.port port
    let s := s.setPort port { k with fails := k.fails + 1, neg := [] }
    if 3 ≤ k.fails + 1 then
      let r : FaultRec := { cls := 2, unit := 5, index := port, check := 10, beat := s.rg Rg.beat_BEATNO }
      .next (((s.countReport r).logPair r 4 0).retireLink port 0)
    else .next ((s.satRg Rg.dvport_RETRAINS port 1).sendNeg port)
  else .next s

/-! ## Flits (R258-R264, R273) -/

/-- A control symbol is acted on. Of the types that come in 4 consecutive slots the first valid copy counts: an identical one in the
three slots behind it is ignored (R264). -/
def State.actSym (s : State) (d w : Nat) : State :=
  let ty := bits w 0 6
  if fourTimes ty && (s.port d).lastSym.any (fun x => x.1 == w) then s
  else
    let s := if fourTimes ty then s.setPort d { s.port d with lastSym := some (w, 3) } else s
    match ty with
    | 0 => s
    | 1 => s.creditSym d (bits w 6 3) (bits w 9 12)
    | 2 => s.nakSym d (bits w 6 10)
    | 3 => s.timeSym d (bits w 6 48)
    | 4 => s.tickSym d (bits w 6 24) (bits w 30 2) (bits w 32 32)
    | 5 => s.doneSym d (bits w 6 24)
    | 6 => s.formSym d (bits w 6 32) (bits w 38 8) (bits w 46 4)
    | 7 => s.joinRequest d (bits w 6 32) (bits w 38 8) (bitN w 46) (s.dom.depth + 1) (s.rg Rg.dvport_LINK_DELAY d + 14)
    | 8 => s.lstateSym d (bits w 6 8) (bits w 14 5) (bitN w 19) (bits w 20 12)
    | 9 => s.probeSym d (bits w 6 8) (bits w 14 8) (bits w 22 8)
    | 10 => s.replySym (bits w 6 8) (bits w 14 8) (bits w 22 8)
    | 11 => s.dropSym d (bits w 6 8) (bitN w 14)
    | 12 => s.negSym d (bits w 6 4) (bits w 10 32)
    | _ => s.satRg Rg.dvport_RSVD_SYMS d 1

/-- The bytes of a packet, its header among them, on an 8-byte boundary. A packet of an unknown opcode carries LENGTH bytes (log entry
138). -/
def pktLen (h : Nat) : Nat :=
  32 + (if pktCarries (bits h 0 8) || !pktKnown (bits h 0 8) then ceilDiv (bits h 80 13) 8 * 8 else 0)

/-- A packet on its way through this module joins the queue of the port that its route names as its first bytes come; `toCome` more
come from port d (R273). -/
def State.passOn (s : State) (d vc : Nat) (p : DvPkt) (bs : List Byte) (toCome : Nat) : State :=
  let s := if toCome = 0 then s
    else s.setPort d { s.port d with pass := (s.port d).pass.put vc ((s.choose p).getD 24, toCome) }
  s.enqueue { pkt := { p with data := [] }, vc := vc, bytes := bs, toCome := toCome, via := d }

/-- Packets leave the front of a channel's bytes: delivered here once whole, sent on as they come, or, with an unknown opcode or a
nonzero zero-field, discarded and counted. Zeros up to the end of the body are no packet (R259, R273, R283). -/
def State.unpack (s : State) (d vc : Nat) : Nat → List Byte → State × List Byte
  | 0, bs => (s, bs)
  | n + 1, bs =>
    if bs.all (fun b => b == 0) then (s, [])
    else if bs.length < 32 then (s, bs)
    else
      let h := leNat (bs.take 32)
      let len := pktLen h
      let p := pktOf h []
      if pktOk h && (s.forMe p || s.choose p == some 24) then
        if bs.length < len then (s, bs)
        else State.unpack (s.deliver (pktOf h ((bs.drop 32).take (if pktCarries (bits h 0 8) then bits h 80 13 else 0)))) d vc n
          (bs.drop len)
      else
        let s := if pktOk h then s.passOn d vc p (bs.take len) (len - bs.length)
          else
            let s := s.satRg Rg.dvorar_BADPKT 0 1
            if bs.length < len then s.setPort d { s.port d with pass := (s.port d).pass.put vc (24, len - bs.length) } else s
        if bs.length < len then (s, []) else State.unpack s d vc n (bs.drop len)

/-- More bytes of the packet on its way through come in. -/
def State.passMore (s : State) (d vc e n : Nat) (bs : List Byte) : State :=
  let k := s.port d
  let s := s.setPort d { k with pass := if bs.length < n then k.pass.put vc (e, n - bs.length) else k.pass.del vc }
  if 24 ≤ e then s
  else (s.setPort e { s.port e with queue := (s.port e).queue.map (fun x =>
    if x.via = d ∧ x.vc = vc ∧ x.toCome ≠ 0 then { x with bytes := x.bytes ++ bs, toCome := x.toCome - bs.length } else x) }).run e

/-- How many bytes a channel still expects of the packet under way before a header can start. -/
def LinkPort.expects (k : LinkPort) (vc : Nat) : Nat :=
  match k.pass.get? vc with
  | some (_, n) => n
  | none =>
    let old := k.asm.getD [] vc
    if old.isEmpty then 0 else if old.length < 32 then 32 - old.length else pktLen (leNat (old.take 32)) - old.length

/-- The body of an accepted data flit: its buffer is freed at once. A header that starts where the packet under way should still go on
(FIRST) shows that the rest of that packet will not come (log entry 139). -/
def State.takeBody (s : State) (d vc first : Nat) (body : List Byte) : State :=
  let s := if first ≠ 31 ∧ 8 * first < (s.port d).expects vc then
      let s := s.cutPass d vc
      s.setPort d { s.port d with asm := (s.port d).asm.del vc }
    else s
  let k := s.port d
  let (s, rest) := match k.pass.get? vc with
    | some (e, n) => (s.passMore d vc e n (body.take n)).unpack d vc 9 (body.drop n)
    | none =>
      let old := k.asm.getD [] vc
      s.unpack d vc 9 (if old.isEmpty then (if first = 31 then [] else body.drop (8 * first)) else old ++ body)
  let k := s.port d
  let cum := (k.freed.getD 0 vc + 1) % 4096
  (s.setPort d { k with asm := k.asm.set [] vc rest, freed := k.freed.set 0 vc cum }).due d 1 (vc * 2 ^ 6 + cum * 2 ^ 9)

/-- A NAK that names the next expected FSEQ is due (R262). -/
def State.sendNak (s : State) (d : Nat) : State :=
  let k := s.port d
  (s.setPort d { k with nakOpen := true }).due d 2 (k.rxNext * 2 ^ 6)

/-- The lane that carries byte p of the flit in the port's current slot: byte k of the stream travels on the (k mod L)-th working lane
(R258). -/
def State.laneOf (s : State) (d p : Nat) : Nat :=
  let ls := (List.range 8).filter (fun l => bitN (s.rg Rg.dvport_LANES d) l)
  ls.getD ((256 * (s.port d).slot + p) % max 1 ls.length) 0

/-- The corrected bytes of a codeword: 0 the even bytes, 1 the odd ones. -/
def inWord (fixed : List (Nat × Byte)) (c : Nat) : List (Nat × Byte) := fixed.filter (fun f => f.1 % 2 == c)

/-- A flit as its FEC corrects it: at most 2 bytes of each codeword, and the parity holds then; else it stays as it came (R259, R261; log
entry 17). -/
def fecCorrect (bytes : List Byte) (fixed : List (Nat × Byte)) : Option (List Byte) :=
  let b := fixed.foldl (fun (b : List Byte) f => b.set f.1 f.2) bytes
  if fixed.isEmpty || 2 < (inWord fixed 0).length || 2 < (inWord fixed 1).length then none
  else if leNat (b.drop 248) = (Config.fecParity (b.take 248)).toNat then some b else none

/-- FEC_CORR counts the codewords corrected, and LANE_CE, for each of them, the lanes that supplied the corrected bytes (R261). -/
def State.countFec (s : State) (d : Nat) (fixed : List (Nat × Byte)) : State :=
  let words := [inWord fixed 0, inWord fixed 1].filter (fun w => !w.isEmpty)
  let lanes := words.flatMap (fun w => (w.map (fun f => s.laneOf d f.1)).foldl (fun l x => insertNat x l) [])
  let s := s.wrapCount Rg.dvport_FEC_CORR d words.length Rg.dvport_WRAP Rg.dvport_WRAP_SEQ d 2
  let s := lanes.foldl (fun s l => s.detect (.fecCorrected d l)) s
  s.setPort d { s.port d with ce := lanes.foldl (fun c l => c.set 0 l (c.getD 0 l + 1)) (s.port d).ce }

/-- A flit slot has passed on a port: the stripe moves on, and fewer copies of the latest symbol can still come. -/
def LinkPort.nextSlot (k : LinkPort) : LinkPort :=
  { k with slot := (k.slot + 1) % 840,
           lastSym := k.lastSym.bind (fun x => if x.2 ≤ 1 then none else some (x.1, x.2 - 1)) }

/-- The flits that the ACK field of a received flit does not cover (R262). -/
def unacked (replay : List TxFlit) (h : Nat) : List TxFlit :=
  let a := bits h 20 10
  if bitN h 30 && replay.any (fun f => f.fseq == a) then (replay.dropWhile (fun f => f.fseq != a)).drop 1 else replay

/-- A flit slot arrives, 256 bytes; `fixed` are the bytes that the FEC corrects, by place. The flit is discarded where its CRC fails;
else its symbol is acted on, and a data flit that is the next expected is taken (R261-R264). -/
def execFlitRx (port : Nat) (bytes : List Byte) (fixed : List (Nat × Byte)) (s : State) : Res :=
  if !s.linkUp port then .next s
  else
    let good := fecCorrect bytes fixed
    let s := if good.isSome then s.countFec port fixed else s
    let bytes := good.getD bytes
    let h := leNat (bytes.take 4)
    let data := bits h 3 2 == 0
    let s := s.setPort port (s.port port).nextSlot
    let k := s.port port
    if crc32c (bytes.take 244) ≠ leNat ((bytes.drop 244).take 4) then
      let s := ((if data then s.detect (.linkRetry port) else s).satRg Rg.dvport_CRC_ERRS port 1).setPort port { k with badRun := k.badRun + 1 }
      if 4 ≤ k.badRun + 1 then .next (s.retrainNeg port 3)
      else .next ((if data then s.sendNak port else s).run port)
    else
      let s := s.setPort port { k with badRun := 0, replay := unacked k.replay h }
      let s := s.actSym port (leNat ((bytes.drop 4).take 8))
      if !s.linkUp port then .next s
      else if data then
        let k := s.port port
        if bits h 5 10 = k.rxNext then
          let s := (s.setPort port { k with rxNext := (k.rxNext + 1) % 1024, rxAny := true, nakOpen := false }).wrapCount
            Rg.dvport_FLITS_RX port 1 Rg.dvport_WRAP Rg.dvport_WRAP_SEQ port 1
          .next ((s.takeBody port (bits h 0 3) (bits h 15 5) ((bytes.drop 12).take 232)).run port)
        else .next ((if k.nakOpen then s else s.sendNak port).run port)
      else .next (s.run port)

end Sys2Proof.Machine
end

