-- ==== Sys2Proof/Machine/Fault.lean ====
section
/-!
DEFINITION. The fault manager: reports, replays, retirement, Seedling, Greenhouse, digests, Prune and mirroring (R445-R468).
-/
namespace Sys2Proof.Machine

/-! ## Spare tiles (R450, R451) -/

/-- NROWS of a table bank. -/
def State.bankRows (s : State) (t b : Nat) : Nat := bits (s.slotOf t b 0) 16 12

/-- A spare is idle: its running and next tables have NROWS 0 and no Furrow stream of it is live. -/
def State.spareIdle (s : State) (t : Nat) : Bool :=
  let k := s.tile t
  (!k.running || k.rows == 0) && (k.arm == 0 || (if k.arm = 1 then s.bankRows t (1 - k.bank) else s.bankRows t k.bank) == 0)
    && (List.range 16).all (fun j => s.streamState t j != 2)

/-- The spares that may take over tile t, in ascending order. -/
def State.spareList (s : State) (t : Nat) : List Nat :=
  s.fm.spares.filter (fun p => p != t && !s.fm.passed.contains p && s.tileUp p
    && !s.fm.replays.any (fun r => r.spare == some p) && !s.fm.retiring.any (fun e => e.1 == p || e.2 == some p))

/-- The spare for tile t, the nearest, the lower number on a tie; busy ones are counted in SPARE_BUSY. -/
def State.chooseSpare (s : State) (t : Nat) : State × Option Nat :=
  let l := s.spareList t
  let s1 := (l.filter (fun p => !s.spareIdle p)).foldl (fun s _ => s.incRg Rg.fault_FCNT 9 1) s
  let d (p : Nat) : Nat := s.hops (s.physOf t) (s.physOf p)
  (s1, (l.filter s.spareIdle).foldl (fun b p =>
    match b with
    | none => some p
    | some q => if d p < d q then some p else b) none)

/-! ## The segment again (R449) -/

/-- A completed row that a replay does not issue again. -/
def replaySkips (t w : Nat) : Bool :=
  match rowClass w with
  | 3 | 5 => true
  | 6 => bits w 8 4 == 1
  | 2 => (let r := MoveRow.of w; r.ds == 1 && !isOwn t r.ds r.da)
  | _ => false

/-- Every LOGGED line takes its first old contents again, and the commit log is empty. -/
def State.undoLog (s : State) (t : Nat) : State :=
  let k := s.tile t
  let s := k.log.foldl (fun s (e : Loc × List Byte) =>
    match s.locKey e.1 with
    | some a => s.writeB a e.2
    | none => s) s
  s.setTile t { k with log := [] }

/-- Rows already issued to the matrix array, the vector unit and the move engine run to completion; the slots of those that
do not. -/
def State.drain (s : State) (t fault : Nat) : List TrackRow → State × List Nat
  | [] => (s, [])
  | r :: rest =>
    if r.slot = fault ∨ r.err ≠ 0 then
      let x := State.drain s t fault rest
      (x.1, r.slot :: x.2)
    else if 2 < r.cls then State.drain s t fault rest
    else
      let w := s.writeRows t r.writes
      let x := State.drain w.1 t fault rest
      (x.1, if w.2 = 0 then x.2 else r.slot :: x.2)

/-- Draining and the skip map: the completed rows of the kinds that are not issued again; acknowledgements still on their way
stay tracked. -/
def State.drainTile (s : State) (t fault : Nat) : State :=
  let k := s.tile t
  let (s, bad) := s.drain t fault k.track
  let done := (List.range k.next).filter (fun n => decide (2 ≤ n) && !bad.contains n && n != fault)
  let skip := done.filter (fun n => replaySkips t (s.runSlot t n))
  let k := s.tile t
  s.setTile t { k with
    skip := skip.foldl (fun l n => insertNat n l) k.skip,
    track := k.track.filter (fun r => (r.cls == 3 || r.cls == 5) && !bad.contains r.slot) }

/-- The running table is issued again from slot 2, without the NOTE values of the beat. -/
def State.rerun (s : State) (t : Nat) : State :=
  let k := s.tile t
  (s.setTile t { k with next := 2, notes := [], waitRow := none, stopped := false }).setRg Rg.tile_HALTED_FAULT t 0

/-! ## Reports of tiles (R447, R448, R453, R454) -/

/-- The entry of a tile among the replays. -/
def State.replayOf (s : State) (t : Nat) : Option Replay := s.fm.replays.find? (fun r => r.tile == t && r.kind != 6)

/-- A replay is entered, or replaced. -/
def State.setReplay (s : State) (p : Replay) : State :=
  { s with fm := { s.fm with replays := s.fm.replays.filter (fun r => r.tile != p.tile || r.kind == 6) ++ [p] } }

/-- A report of data loss, or a core fault: the beat aborts and the domain halts with cause 2; the action record follows at the
halt. With no beats running it is logged only. -/
def State.haltReport (s : State) (r : FaultRec) : State :=
  if s.dom.ticking then
    let s := s.logFault r 6 2 0 0
    ({ s with fm := { s.fm with replays := s.fm.replays ++ [({ tile := 0, kind := 6, phase := 2, reports := [r] } : Replay)] } }).abortBeat 1 (some 2)
  else s.logPair r 0 0

/-- A replay becomes, or is, a beat abort; a tile that is to retire moves to a spare before the RESTART tick, and with no
spare the domain halts with cause 2. The latest report of the replay is the new one. -/
def State.replayAbort (s : State) (p : Replay) (retire : Bool) : State :=
  let s := s.incRg Rg.fault_FCNT 2 1
  let last := p.reports.getLast?
  let logIt (s : State) (action : Nat) (spare : Nat) : State :=
    match last with
    | some r => s.logFault r action 2 spare 0
    | none => s
  if retire then
    let (s, c) := s.chooseSpare p.tile
    match c with
    | none => ((logIt s 6 0).setReplay { p with kind := 3, spare := none, phase := 2 }).retireSoon p.tile none |>.abortBeat 1 (some 2)
    | some q => (logIt s 3 q).setReplay { p with kind := 3, spare := some q, phase := 0, aborted := true } |>.abortBeat 1 none
  else (logIt s 3 0).setReplay { p with kind := 3, spare := none, phase := 2 } |>.abortBeat 1 none

/-- Inbound exchanges or combines have written a LOGGED line of the tile in this beat (R448). -/
def State.inboundLogged (s : State) (t : Nat) : Bool :=
  let k := s.tile t
  k.log.any (fun e => match e.1 with
    | .slice u l => u == t && k.prov.contains l
    | .hbm _ => false)

/-- A row fault of tile t reaches the fault manager. -/
def State.tileFault (s : State) (r : FaultRec) : State :=
  let t := r.index
  let p := s.physOf t
  let n := s.rg Rg.beat_BEATNO
  let past := s.fm.history.getD [] p
  let recent := past.any (fun b => decide (n - b < s.rg Rg.fault_FAULT_WINDOW))
  let s := { s with fm := { s.fm with history := s.fm.history.put p (n :: past) } }
  let retire := r.check == 0 || r.check == 7 || recent
  if !s.dom.ticking then
    (let s := s.logPair r 0 0; if r.check = 0 then s.retireSoon t none else s)
  else if 3 ≤ s.fm.count then s.haltReport { r with cls := 4 }
  else
    let s := { s with fm := { s.fm with count := s.fm.count + 1 } }
    match s.fm.replays.find? (fun q => q.spare == some t && decide (q.phase < 2)) with
    | some q =>
      let s := { s with fm := { s.fm with passed := insertNat t s.fm.passed } }
      let s := if retire then s.retireSoon t none else s
      s.replayAbort { q with reports := q.reports ++ [r] } true
    | none =>
      match s.replayOf t with
      | some q => s.replayAbort { q with reports := q.reports ++ [r] } (retire || q.spare.isSome)
      | none =>
        let free := !s.inboundLogged t
        let same := s.flag Rg.fault_SEG_EN && !retire && free
        if same then
          let s := s.logFault r 1 2 0 0
          let s := (((s.drainTile t r.slot).undoLog t).rerun t).incRg Rg.fault_FCNT 0 1
          s.setReplay { tile := t, kind := 1, phase := 2, reports := [r] }
        else
          let (s, c) := if s.flag Rg.fault_SPARE_EN && free then s.chooseSpare t else (s, none)
          match c with
          | some q => (s.logFault r 2 2 q 0).setReplay { tile := t, kind := 2, spare := some q, reports := [r] }
          | none => s.replayAbort { tile := t, kind := 3, reports := [r] } retire

/-- Rows already issued by the faulted tile complete, the skip map is recorded, its core stops, and the copy starts (R450). -/
def execReplayDrainDone (t : Nat) (s : State) : Res :=
  match s.replayOf t with
  | none => .next s
  | some p =>
    if p.spare.isNone || p.phase != 0 then .next s
    else
      let slot := match p.reports.getLast? with
        | some r => if r.index = t then r.slot else 0
        | none => 0
      let s := if p.kind = 2 ∧ p.aborted = false then (s.drainTile t slot).undoLog t else s
      let s := s.setTile t { s.tile t with stopped := true }
      .next (s.setReplay { p with phase := 1 })

/-- A working spare answers for the tile: what the copy leaves out is lost, and, unless the beat is to be run again from its
tick, the segment goes on (R449, R450). -/
def State.takeOver (s : State) (p : Replay) (ring : List (Nat × Nat × Nat)) : State :=
  let t := p.tile
  let k := s.tile t
  let sc := scratchOf (s.runSlot t 0) t
  let s := s.loseRange (kSlice t (32 * sc.lo)) (kSlice t (32 * sc.hi))
  let s := k.plain.foldl (fun s e =>
    match e.1 with
    | .slice u n => if u = t ∧ k.prov.contains n = false then s.loseRange (kSlice t (32 * n)) (kSlice t (32 * n + 32)) else s
    | .hbm _ => s) s
  let s := ring.foldl (fun s e =>
    let x := s.stream t e.1
    (s.setStream t e.1 { x with landed := x.landed.filter (fun y => !(y.1 == e.2.1 && y.2.1 == e.2.2)) }).furrowShow t e.1
      (s.rg Rg.beat_BEATNO) false) s
  let s := if p.kind = 2 ∧ p.aborted = false then (s.rerun t).incRg Rg.fault_FCNT 1 1 else s
  let s := (s.setReplay { p with phase := 2 }).retireSoon t p.spare
  (s.notice t 4 t).advanceWaiting

/-- The copy to the spare ends (R450, R454). -/
def execSpareCopyDone (t : Nat) (e : CopyEnd) (s : State) : Res :=
  match s.replayOf t with
  | none => .next s
  | some p =>
    match p.spare with
    | none => .next s
    | some q =>
      if p.phase ≠ 1 then .next s
      else
        let rec_ (u line : Nat) (cls check : Nat) : FaultRec :=
          { cls := cls, unit := 0, index := u, check := check, table := s.rg Rg.seq_RUN_TABLE_ID t, addr := line,
            beat := s.rg Rg.beat_BEATNO }
        match e with
        | .good ring => .next (s.takeOver p ring).tryRestart
        | .inbound =>
          if p.aborted then .next (s.takeOver p []).tryRestart
          else .next ((s.takeOver { p with kind := 3, aborted := true } []).incRg Rg.fault_FCNT 2 1 |>.abortBeat 1 none)
        | .lost line => .next ((s.countReport (rec_ t line 4 0)).haltReport (rec_ t line 4 0))
        | .spareFault check line => .next ((s.countReport (rec_ q line 1 check)).tileFault (rec_ q line 1 check))

/-! ## Other reports -/

/-- A beat is noted under a key; whether `limit` of them now lie within 4,096 beats (R453). -/
def within (m : Cells (List Nat)) (k n limit : Nat) : Cells (List Nat) × Bool :=
  let l := n :: (m.getD [] k).filter (fun b => decide (n - b < 4096))
  (m.put k l, decide (limit ≤ l.length))

/-- The beat by which thresholds are counted: BEATNO, or the idle period's number (R453). -/
def State.faultBeat (s : State) : Nat := s.slotBeat

/-- A router fails: it retires with what it carries, and the beat aborts; where the detours cannot route around it, since a
pair of retired routers may not lie so close, that is data loss (R26, R455). Its tile moves to a spare, if one works. -/
def State.failRouter (s : State) (r : FaultRec) (i : Nat) : State :=
  if s.fm.routers.contains i then s
  else
    let ok := routersApart (i :: s.fm.routers)
    let s := s.retireRouter i
    let t := ((List.range 256).find? (fun t => s.tileWorking t && s.physOf t == i)).getD 256
    let move (s : State) : State :=
      if t = 256 then s
      else if !ok || !s.dom.ticking then s.retireSoon t none
      else
        let (s, c) := s.chooseSpare t
        match c with
        | some q => s.setReplay { tile := t, kind := 3, spare := some q, aborted := true }
        | none => s.retireSoon t none
    if !ok then (move s).haltReport { r with cls := 4 }
    else (((move (s.logFault r 4 2 0 0))).logFault r 4 0 0 0).abortBeat 1 none

/-- A router is reported: a packet has failed parity after 4 resends. -/
def State.routerReport (s : State) (i : Nat) : State :=
  let r : FaultRec := { cls := 2, unit := 1, index := i, check := 0, beat := s.rg Rg.beat_BEATNO }
  (s.countReport r).failRouter r i

/-- A corrected error: counted, logged, and the unit retired at its threshold (R447, R453). -/
def State.correctedReport (s : State) (unit index sub check addr : Nat) : State :=
  let r : FaultRec := { cls := 0, unit := unit, index := index, sub := sub, check := check, addr := addr,
                        beat := s.rg Rg.beat_BEATNO }
  let n := s.faultBeat
  let s := ((s.countReport r).logFault r 0 0 0 0)
  let s := { s with fm := { s.fm with ceBeats := n :: s.fm.ceBeats.filter (fun b => decide (n - b < 65536)) } }
  if unit = 2 ∧ check = 3 then
    let (m, hit) := within s.fm.corrected (32 * index + sub) n 64
    let s := { s with fm := { s.fm with corrected := m } }
    if hit then ((s.logPair { r with cls := 2 } 4 0).retirePc index sub) else s
  else if unit = 1 then
    let (m, hit) := within s.fm.resends index n 256
    let s := { s with fm := { s.fm with resends := m } }
    if hit then s.failRouter { r with cls := 2 } index else s
  else s

/-- A report that a unit of this module has raised. -/
def State.takeDetection (s : State) (committed : Bool) : Detection → State
  | .coreFault c v pc _ =>
    let r : FaultRec := { cls := 3, unit := 10, index := coreKey c, check := 10, addr := pc, sub := v, beat := s.rg Rg.beat_BEATNO }
    (s.countReport r).haltReport r
  | .coreParity c a =>
    let r : FaultRec := { cls := 0, unit := 10, index := coreKey c, check := 0, addr := a, beat := s.rg Rg.beat_BEATNO }
    (s.countReport r).logFault r 0 0 0 0
  | .tvDisagree f i => s.correctedReport 12 0 0 6 (f * 2 ^ 20 + i)
  | .rowFault t table slot check req line =>
    let r : FaultRec := { cls := if committed then 4 else 1, unit := 0, index := t, check := check, table := table, slot := slot,
                          addr := line, req := req, beat := s.rg Rg.beat_BEATNO }
    let s := s.countReport r
    if committed then (s.retireSoon t none).haltReport r else s.tileFault r
  | .tableError t table slot code sender =>
    let from_ := sender.getD (0, 0)
    (s.event 0x0104 (s.rg Rg.beat_MID + t * 2 ^ 8 + slot * 2 ^ 16 + code * 2 ^ 28 + table * 2 ^ 32 + s.nowB48
      + from_.1 * 2 ^ 112 + from_.2 * 2 ^ 120)).abortBeat 2 (some 1)
  | .hbmError st pc a parity =>
    let r : FaultRec := { cls := if committed then 4 else 2, unit := 2, index := st, sub := pc, check := if parity then 0 else 4,
                          addr := a, beat := s.rg Rg.beat_BEATNO }
    let s := s.countReport r
    let s := if parity then s else s.retirePc st pc
    if committed then s.haltReport r else s.logPair r (if parity then 0 else 4) 0
  | .hbmCorrected st pc a => s.correctedReport 2 st pc 3 a
  | .fecCorrected port lane => s.correctedReport 4 port lane 5 0
  | .linkRetry port => s.correctedReport 5 port 0 5 0
  | .streamError _ _ _ => s
  | .connError origin _ peer =>
    if origin = 2 then s
    else if s.isMaster then
      ({ s with dv := { s.dv with missed := s.dv.missed.set 0 peer (max 2 (s.dv.missed.getD 0 peer)) } } : State).abortBeat 0 none
    else s.abortBeat 0 none

/-- A cipher core whose copies disagree, or whose parity fails, retires until the next reset of the hub main domain
(R434, R442). -/
def State.retireCipher (s : State) (c : Nat) (parity : Bool) : State :=
  let r : FaultRec := { cls := 2, unit := 11, index := c, check := if parity then 0 else 2, beat := s.rg Rg.beat_BEATNO }
  let s := (s.countReport r).logPair r 4 0
  (s.setRg Rg.cipher_CORE_WORKING 0 (setBits (s.rg Rg.cipher_CORE_WORKING) c 1 0)).event 0x0600 (c + 8 * ofBool parity)

/-- A copy of the log retires (R471). -/
def State.retireLog (s : State) (c : Nat) : State :=
  if bitN (s.rg Rg.fault_LOG_COPIES) c then
    let r : FaultRec := { cls := 2, unit := 15, index := c, check := 0, beat := s.rg Rg.beat_BEATNO }
    (((s.setRg Rg.fault_LOG_COPIES 0 (s.rg Rg.fault_LOG_COPIES - 2 ^ c)).event 0x0708 c).countReport r).logPair r 4 0
  else s

/-- The fault manager classifies a report and takes the action of its class (R447). -/
def execFaultReport (x : Report) (s : State) : Res :=
  let n := s.rg Rg.beat_BEATNO
  match x with
  | .waiting i committed =>
    (match s.detections[i]? with
     | none => .next s
     | some d => .next (({ s with detections := s.detections.eraseIdx i }).takeDetection committed d))
  | .corrected unit index sub check addr => .next (s.correctedReport unit index sub check addr)
  | .tile t slot check line req committed =>
    if !s.tileUp t then .next s
    else
      let r : FaultRec := { cls := if committed then 4 else 1, unit := 0, index := t, check := check,
                            table := s.rg Rg.seq_RUN_TABLE_ID t, slot := slot, addr := line, req := req, beat := n }
      let s := (s.checkFails t slot check line).countReport r
      if committed then .next ((s.retireSoon t none).haltReport r) else .next (s.tileFault r)
  | .coreRegs c =>
    let r : FaultRec := { cls := 3, unit := 10, index := coreKey c, check := 0, beat := n }
    .next (((s.setCore c { s.core c with stopped := true }).countReport r).haltReport r)
  | .router h x y => .next (s.routerReport (128 * h + 16 * y + x))
  | .cipherCore c => .next (s.retireCipher c false)
  | .unit unit index sub check addr =>
    let r : FaultRec := { cls := 2, unit := unit, index := index, sub := sub, check := check, addr := addr, beat := n }
    .next ((s.countReport r).logPair r 0 0)
  | .logCopy c => .next (s.retireLog c)

/-! ## Seedling (R463) -/

/-- After its last row a tile runs its Seedling kernel in a seed beat; a mismatch is a row fault. -/
def execSeedlingRun (t : Nat) (ok : Bool) (s : State) : Res :=
  let n := s.rg Rg.beat_BEATNO
  if !(s.tileUp t && (s.tile t).finished && s.seedDue t n && !s.fm.seeded.contains t) then .next s
  else
    let s := { s with fm := { s.fm with seeded := s.fm.seeded ++ [t] } }
    if !s.seedRoom t then .next (s.incRg Rg.fault_FCNT 5 1)
    else
      let sc := scratchOf (s.runSlot t 0) t
      let s := (s.incRg Rg.fault_FCNT 3 1).loseRange (kSlice t (32 * sc.lo)) (kSlice t (32 * sc.hi))
      if ok then .next s
      else
        let s := if s.fm.sweep = 0 then s
          else { s with fm := { s.fm with sweepFail := insertNat (s.rg Rg.place_BED_ID) s.fm.sweepFail } }
        let r : FaultRec := { cls := 1, unit := 0, index := t, check := 7, table := s.rg Rg.seq_RUN_TABLE_ID t, beat := n }
        let s := (s.setTile t { s.tile t with stopped := true }).setRg Rg.tile_HALTED_FAULT t 1
        .next (((s.incRg Rg.fault_FCNT 4 1).countReport r).tileFault r)

/-! ## Greenhouse (R464) -/

/-- A working tile moves to a spare for its test, every 2^GH_ROTATE_LOG2 beats, in ascending order. -/
def execGreenhouseRotate (s : State) : Res :=
  let n := s.rg Rg.beat_BEATNO
  if s.flag Rg.fault_GH_EN && s.dom.ticking && !s.dom.aborted && n % 2 ^ s.rg Rg.fault_GH_ROTATE_LOG2 == 0
    && s.fm.replays.isEmpty && s.fm.test.isNone then
    let ts := (List.range 256).filter (fun t => s.tileUp t && !s.fm.spares.contains t)
    match ts.find? (fun t => decide (s.fm.nextMove ≤ t)) <|> ts.head? with
    | none => .next s
    | some t =>
      let (s, c) := s.chooseSpare t
      match c with
      | none => .next s
      | some q =>
        let s := { s with fm := { s.fm with nextMove := t + 1, test := some (0, s.physOf t, 0) } }
        .next ((s.setReplay { tile := t, kind := 2, spare := some q, planned := true }).incRg Rg.fault_FCNT 6 1)
  else .next s

/-- A tile that is out of the working set returns as a spare, its slice and core as after reset (R36, R464; log entry 132). -/
def State.returnTile (s : State) (p : Nat) : State :=
  let n := s.freeNumber p
  if decide (p < 256) && s.tileEnabled p && !(List.range 256).any (fun t => s.tileWorking t && s.physOf t == p)
      && !s.fm.routers.contains p then
    let s := s.setRg Rg.identity_TILE_WORKING (n / 32) (setBits (s.rg Rg.identity_TILE_WORKING (n / 32)) (n % 32) 1 1)
    let s := (s.setRg Rg.identity_TILES_WORKING 0 (s.rg Rg.identity_TILES_WORKING + 1)).setRg Rg.fault_SPARE_TILE (n / 32)
      (setBits (s.rg Rg.fault_SPARE_TILE (n / 32)) (n % 32) 1 1)
    let s := { s with fm := { s.fm with phys := if n = p then s.fm.phys.del n else s.fm.phys.put n p } }
    let s := (s.setTile n {}).loseRange (kSlice n 0) (kSlice (n + 1) 0)
    (s.setCore (.tile n) { pmStamp := s.freeCtr }).unitReturned
  else s

/-- A retired link returns to service, with every lane, and may train again (R36, R464). -/
def State.returnLink (s : State) (d : Nat) : State :=
  if d < 24 ∧ s.rg Rg.dvport_STATE d = 6 then
    ((s.setPort d { s.port d with lanes := 0xFF }).linkSet d 0 0).unitReturned
  else s

/-- A pseudo-channel returns to service as a spare, and its stack with the eighth (R34, R36, R37, R464). -/
def State.returnPc (s : State) (st pc : Nat) : State :=
  if st < 6 ∧ pc < 32 ∧ s.pcWorking st pc = false ∧ bitN (s.rg Rg.identity_HBM_ENABLED) st = true then
    let w := setBits (s.rg Rg.identity_PC_WORKING st) pc 1 1
    let s := s.setRg Rg.identity_PC_WORKING st w
    let s := if popCount 32 w < 8 then s
      else s.setRg Rg.identity_HBM_WORKING 0 (setBits (s.rg Rg.identity_HBM_WORKING) st 1 1)
    { s with hbm := { s.hbm with retired := s.hbm.retired.filter (fun e => e != (st, pc)) } }.unitReturned
  else s

/-- A Greenhouse test ends: a unit that passes returns to service, a tile as a spare, a link to the routing lists, a
pseudo-channel as a spare; one that fails is, or stays, retired. A unit that is not enabled is not tested (R34). -/
def execGreenhouseResult (kind idx sub : Nat) (pass : Bool) (s : State) : Res :=
  let on := (kind != 0 || s.tileEnabled idx) && (kind != 2 || bitN (s.rg Rg.identity_HBM_ENABLED) idx)
  if !s.flag Rg.fault_GH_EN || !on then .next s
  else
    let moved := s.fm.test == some (kind, idx, sub)
    let s := { s with fm := { s.fm with test := none } }
    let s := if moved then s else s.incRg Rg.fault_FCNT 6 1
    let ev (s : State) : State := s.event 0x0704 (kind + idx * 2 ^ 8 + sub * 2 ^ 16 + ofBool pass * 2 ^ 24)
    if !pass then
      let r : FaultRec := { cls := 2, unit := [0, 5, 2].getD kind 0, index := idx, sub := sub, check := 8, beat := s.rg Rg.beat_BEATNO }
      let s := ((s.incRg Rg.fault_FCNT 7 1).countReport r).logPair r 4 0
      .next (ev (match kind with
        | 1 => s.retireLink idx 0
        | 2 => s.retirePc idx sub
        | _ => s))
    else
      match kind with
      | 0 => .next (ev (s.returnTile idx))
      | 1 => .next (ev (s.returnLink idx))
      | _ => .next (ev (s.returnPc idx sub))

/-! ## Digests and Prune (R465, R466) -/

/-- The beds of the replica set, by REP_BED index. -/
def State.repBeds (s : State) : List Nat := (List.range (s.rg Rg.fault_REP_COUNT + 1)).map (fun k => s.rg Rg.fault_REP_BED k)

/-- The pages of the digest ranges, ascending. -/
def State.digestPages (s : State) : List Nat :=
  sortBy id ((List.range 8).foldl (fun l k =>
    if s.flag Rg.fault_DIG_EN k then
      (List.range (s.rg Rg.fault_DIG_LIM k + 1)).foldl (fun l p => if s.rg Rg.fault_DIG_BASE k ≤ p then insertNat p l else l) l
    else l) [])

/-- The member digest: over the digests of the pages, in ascending order. -/
def State.memberDigest (s : State) : List Byte :=
  sha3_256 (s.digestPages.flatMap (fun p =>
    sha3_256 ((s.committedHbm (p * 2 ^ 21) (2 ^ 21)).getD (s.freeBytes (2 ^ 21)))))

/-- At the round tick this member digests its ranges; a round that has not ended is skipped. -/
def execDigestRound (s : State) : Res :=
  let n := s.rg Rg.beat_BEATNO
  let every := s.rg Rg.fault_DIG_STEPS * s.rg Rg.fault_STEP_BEATS
  let due := !s.isMaster || (every != 0 && n != 0 && n % every == 0 && s.flag Rg.fault_REP_EN && s.fm.roundAt != some n)
  if !s.active || s.dom.aborted || !due then
    .next s
  else
    let s := if s.fm.roundAt.isSome then
        let s := s.incRg Rg.fault_FCNT 8 1
        if s.isMaster then s.event 0x0705 (s.fm.round + 2 ^ 36 + s.nowB48) else s
      else s
    let d := s.memberDigest
    let s := { s with mulch := { s.mulch with digMarks := s.digestPages.map (fun p => (32 * p, 32 * p + 32)), digCopied := [] } }
    .next ({ s with fm := { s.fm with round := (s.fm.round + 1) % 2 ^ 32, roundAt := some n, digest := d } }.drawn)

/-- The bed digest: over one 36-byte record per member, in ascending (STRIP, STRETCH) order. -/
def bedDigest (ms : List (Nat × Nat × List Byte)) : List Byte :=
  sha3_256 ((sortBy (fun m => m.1 * 256 + m.2.1) ms).flatMap (fun m =>
    leBytes 1 m.1 ++ leBytes 1 m.2.1 ++ leBytes 2 0 ++ m.2.2))

/-- The digest that more than half of the beds share. -/
def majority (ds : List (Nat × List Byte)) : Option (List Byte) :=
  (ds.find? (fun d => decide (ds.length < 2 * ds.countP (fun e => e.2 == d.2)))).map (fun d => d.2)

/-- A set of indices as bits. -/
def bitSet (l : List Nat) : Nat := l.foldl (fun a i => setBits a i 1 1) 0

/-- Beds are to be pruned at the next COMMIT tick. -/
def State.pruneBeds (s : State) (bad : List Nat) (home : Nat) : State :=
  bad.foldl (fun s b =>
    let r : FaultRec := { cls := 2, unit := 0, index := b, check := 9, beat := s.rg Rg.beat_BEATNO }
    let x := (s.repBeds.getD b 0, s.repBeds.getD home 0)
    ({ s with fm := { s.fm with prune := s.fm.prune ++ [x] } }.logPair r 7 0).emit (.prune 0 x.1 x.2)) s

/-- Every bed of the set pauses, and the sweep begins (R466). -/
def State.pauseBeds (s : State) (beds : List Nat) (beat : Nat) : State :=
  let s := { s with fm := { s.fm with
    sweep := s.rg Rg.fault_SWEEP_BEATS, sweepBeds := beds, sweepFail := [], sweepRound := beat } }
  if beds.contains (s.rg Rg.place_BED_ID) then s.noticeAll 1 beat else s

/-- The end of a digest round. -/
def execDigestCompare (m : BedMsg) (s : State) : Res :=
  let s := { s with mulch := { s.mulch with digMarks := [], digCopied := [] } }.advanceWaiting
  match m with
  | .digests ds =>
    (match s.isMaster, s.fm.roundAt with
     | true, some n =>
       let set := s.repBeds
       let own := (set.zipIdx.filter (fun e => e.1 == s.rg Rg.place_BED_ID)).map (fun e =>
         (e.2, s.rg Rg.place_STRIP, s.rg Rg.place_STRETCH, s.fm.digest))
       let beds := (List.range set.length).map (fun i =>
         (i, bedDigest (((own ++ ds).filter (fun d => d.1 == i)).map (fun d => d.2))))
       let s := { s with fm := { s.fm with roundAt := none, beds := beds } }
       match majority beds with
       | some d =>
         let good := (beds.filter (fun e => e.2 == d)).map (fun e => e.1)
         let bad := (beds.filter (fun e => e.2 != d)).map (fun e => e.1)
         let s := s.event 0x0705 (s.fm.round + bitSet good * 2 ^ 32 + s.nowB48)
         .next (s.pruneBeds bad (good.headD 0))
       | none =>
         let s := s.event 0x0705 (s.fm.round + s.nowB48)
         .next ((s.pauseBeds set n).emit (.prune 1 0 n))
     | _, _ => .next s)
  | .paused n => if s.isMaster then .next s else .next ({ s with fm := { s.fm with roundAt := none } }.pauseBeds [s.rg Rg.place_BED_ID] n)
  | .pruned b h => if s.isMaster then .next s else .next { s with fm := { s.fm with roundAt := none, prune := s.fm.prune ++ [(b, h)] } }
  | .failed _ => .next s
  | .resumed => if s.isMaster then .next s else .next { s with fm := { s.fm with roundAt := none } }

/-- The sweep's beats are over (R466). -/
def execSweepEnd (m : BedMsg) (s : State) : Res :=
  if s.fm.sweep ≠ 0 ∨ s.fm.sweepBeds = [] then .next s
  else
    let mine := s.fm.sweepBeds.contains (s.rg Rg.place_BED_ID)
    match m with
    | .failed fs =>
      if !s.isMaster then .next s
      else
        let idx := (List.range s.repBeds.length)
        let failed := idx.filter (fun i => (s.fm.sweepFail ++ fs).contains (s.repBeds.getD i 0))
        let all := decide (failed.length = idx.length)
        let left := idx.filter (fun i => !failed.contains i)
        let s := { s with fm := { s.fm with sweepBeds := [] } }
        let one := match s.fm.beds.filter (fun e => left.contains e.1) with
          | [] => false
          | e :: t => t.all (fun f => f.2 == e.2)
        let s := if all then s else s.pruneBeds failed (left.headD 0)
        if !all && one then
          .next ((if mine && left.any (fun i => s.repBeds.getD i 0 == s.rg Rg.place_BED_ID) then s.noticeAll 2 0 else s).emit (.prune 2 0 0))
        else .next (s.event 0x0707 (bitSet (if all then idx else left) + bitSet failed * 2 ^ 4 + s.nowB48))
    | .resumed => if s.isMaster then .next s else .next ({ s with fm := { s.fm with sweepBeds := [] } }.noticeAll 2 0)
    | .pruned b h =>
      if s.isMaster then .next s else .next { s with fm := { s.fm with sweepBeds := [], prune := s.fm.prune ++ [(b, h)] } }
    | _ => if s.isMaster then .next s else .next { s with fm := { s.fm with sweepBeds := [] } }

/-! ## Mirroring (R456) -/

/-- What arrives of a covered member, or of this member's spare. -/
def execMirrorWrite (m : MirrorMsg) (s : State) : Res :=
  match m with
  | .write a bs => .next ({ s with fm := { s.fm with staged := s.fm.staged ++ [(a, bs)] } }.emit .mirrorAck)
  | .cover p es => .next { s with fm := { s.fm with covered := some (p, es) } }
  | .acked => .next { s with fm := { s.fm with mirrorOut := s.fm.mirrorOut - 1 } }

/-- MIRROR_SYNC: every mirror range goes whole to the spare, which then holds it. -/
def execMirrorSync (s : State) : Res :=
  if s.flag Rg.place_SPARE_EN then
    let s := (List.range 8).foldl (fun s k =>
      if s.flag Rg.fault_MIRROR_EN k then
        (List.range (s.rg Rg.fault_MIRROR_LIM k + 1 - s.rg Rg.fault_MIRROR_BASE k)).foldl (fun s i =>
          let a := (s.rg Rg.fault_MIRROR_BASE k + i) * 2 ^ 21
          match s.committedHbm a (2 ^ 21) with
          | some bs => s.emit (.mirror (s.rg Rg.place_SPARE_MID) a bs)
          | none => s) s
      else s) s
    .next (s.setRg Rg.fault_SPARE_VALID 0 1)
  else .next s

/-- At a COMMIT tick the spare applies the staged writes; at an ABORT tick it discards them; a covered member starts to count
afresh and sends its blocks at the first tick of a beat. -/
def State.mirrorTick (s : State) (commit : Bool) : State :=
  let s := if commit then s.fm.staged.foldl (fun s (e : Nat × List Byte) => s.writeHbm e.1 e.2) s else s
  let s := { s with fm := { s.fm with staged := [], mirrorBytes := 0, mirrorOut := 0 } }
  if s.flag Rg.fault_SPARE_VALID && s.flag Rg.place_SPARE_EN then
    s.emit (.cover (s.rg Rg.place_SPARE_MID) s.myPlace
      ((s.gate.streams.filter (fun (e : Nat × StreamEnt) => e.2.state == 1 || e.2.state == 2)).map (fun e => (e.1, e.2.word, e.2.held))))
  else s

end Sys2Proof.Machine
end

