-- ==== Sys2Proof/Machine/Sieve.lean ====
section
/-!
DEFINITION. Sieve: ports, parsing, tables, actions, patterns, load spreading, banks and counters (R297-R327).
-/
namespace Sys2Proof.Machine

/-! ## Configuration (R303, R304, R306, R312, R320) -/

/-- The bank of the configuration memory that passes read. -/
def State.cfgBank (s : State) : Nat := s.rg Rg.sieve_CFG_B

/-- A number of `n` bytes of a configuration bank. -/
def State.cfgN (s : State) (b a n : Nat) : Nat := s.readN (kSieve b a) n

/-- A parse node. -/
def State.node (s : State) (b i : Nat) : Nat := s.cfgN b (16 * i) 16
/-- A transition. -/
def State.trans (s : State) (b i : Nat) : Nat := s.cfgN b (0x1000 + 4 * i) 4
/-- A pass program. -/
def State.prog (s : State) (b i : Nat) : Nat := s.cfgN b (0x5000 + 32 * i) 32
/-- A field reference of a profile. -/
def State.fieldRef (s : State) (b i k : Nat) : Nat := s.cfgN b (0x5800 + 32 * i + 4 * k) 4
/-- A pattern's control word. -/
def State.patCtl (s : State) (b i : Nat) : Nat := s.cfgN b (0x8000 + 160 * i + 128) 32

/-- LEN of a field reference. -/
def refLen (r : Nat) : Nat := bits r 19 4 + 1

/-- Bytes of the enabled references of a profile. -/
def State.profileBytes (s : State) (b i : Nat) : Nat :=
  (List.range 8).foldl (fun a k => let r := s.fieldRef b i k; if bitN r 9 then a + refLen r else a) 0

/-- STAGE_k of a program. -/
def stageOf (p k : Nat) : Nat := bits p (64 + 16 * k) 16

/-- Bytes of a table's key area. -/
def State.keyArea (s : State) (t : Nat) : Nat := 16 * [1, 2, 4].getD (s.rg Rg.sieve_UNITS t) 4 - 8

/-! ## The parse graph (R305) -/

/-- A pass's layers: LAYER_ID, KIND and start. -/
abbrev Layers := List (Nat × Nat × Nat)

/-- A walk: the layers with the payload start, or the code of the rejection. -/
inductive Walk where
  | accept (ls : Layers) (pos : Nat)
  | reject (code : Nat) (ls : Layers)

/-- The walk from a node, with so many visits left. -/
def State.walk (s : State) (b : Nat) (head : List Byte) : Nat → Nat → Nat → Layers → Walk
  | 0, _, _, ls => .reject 2 ls
  | fuel + 1, i, pos, ls =>
    let n := s.node b i
    let ls := ls ++ [(bits n 0 8, bits n 8 3, pos)]
    let so := pos + bits n 16 9
    if bitN n 25 && decide (head.length < so + 2) then .reject 1 ls
    else
      let v := beNat ((head.drop so).take 2) &&& bits n 32 16
      let hit := if bitN n 25 then
          (List.range (bits n 60 5)).find? (fun j => s.trans b (bits n 48 12 + j) % 2 ^ 16 == v) else none
      let next := match hit with
        | some j => bits (s.trans b (bits n 48 12 + j)) 16 9
        | none => bits n 65 9
      let ao := pos + bits n 83 8
      if bitN n 104 && decide (head.length < ao + 1) then .reject 1 ls
      else
        let adv := bits n 74 9 + (if bitN n 104 then
          ((fieldAt head ao 1 &&& bits n 91 8) / 2 ^ bits n 99 3) * 2 ^ bits n 102 2 else 0)
        if head.length < pos + adv then .reject 1 ls
        else if next = 256 then .accept ls (pos + adv)
        else if next = 257 then .reject 4 ls
        else if adv = 0 then .reject 3 ls
        else State.walk s b head fuel (next % 256) (pos + adv) ls

/-! ## Fields, keys and hashes (R307, R309, R322) -/

/-- The bytes of a field reference, where it is present. -/
def refBytes (head : List Byte) (ls : Layers) (r : Nat) : Option (List Byte) :=
  let of_ := ls.filter (fun l => l.1 == bits r 0 8)
  match (if bitN r 8 then of_.getLast? else of_.head?) with
  | none => none
  | some l =>
    let o := l.2.2 + bits r 10 9
    if o + refLen r ≤ head.length then some ((head.drop o).take (refLen r)) else none

/-- The enabled references of a profile in order: number, reference, bytes with zeros for an absent field, presence. -/
def State.fields (s : State) (b i : Nat) (head : List Byte) (ls : Layers) : List (Nat × Nat × List Byte × Bool) :=
  ((List.range 8).filter (fun k => bitN (s.fieldRef b i k) 9)).map (fun k =>
    let r := s.fieldRef b i k
    let f := refBytes head ls r
    (k, r, f.getD (List.replicate (refLen r) 0), f.isSome))

/-- A lookup key, padded to a key area. -/
def State.lookupKey (s : State) (b i : Nat) (head : List Byte) (ls : Layers) (area : Nat) : List Byte :=
  let fs := s.fields b i head ls
  let p := fs.foldl (fun a f => if f.2.2.2 then a + 2 ^ f.1 else a) 0
  let k := BitVec.ofNat 8 p :: fs.flatMap (fun f => f.2.2.1)
  k ++ List.replicate (area - k.length) 0

/-- Pairs are put in order: the smaller value, read big-endian, first. -/
def sortPairs : List (Nat × Nat × List Byte × Bool) → List (List Byte)
  | [] => []
  | [f] => [f.2.2.1]
  | f :: g :: t =>
    if bitN f.2.1 23 && g.1 == f.1 + 1 then
      (if beNat g.2.2.1 < beNat f.2.2.1 then [g.2.2.1, f.2.2.1] else [f.2.2.1, g.2.2.1]) ++ sortPairs t
    else f.2.2.1 :: sortPairs (g :: t)

/-- A port's key, as a number of 416 bits. -/
def State.tkey (s : State) (p : Nat) : Nat :=
  (List.range 13).foldl (fun a w => a * 2 ^ 32 + s.rg Rg.sieve_TKEY (13 * p + w)) 0

/-- The Toeplitz hash of an input under a key. -/
def toeplitz (key : Nat) (input : List Byte) : Nat :=
  (List.range (8 * input.length)).foldl (fun h i =>
    if bitN (fieldAt input (i / 8) 1) (7 - i % 8) then h ^^^ (key / 2 ^ (384 - i) % 2 ^ 32) else h) 0

/-- A lookup of a table: ACTION_ID, META where an entry hits, and whether more than one does. -/
def State.lookup (s : State) (t : Nat) (key : List Byte) : Nat × Option Nat × Bool :=
  let u := [1, 2, 4].getD (s.rg Rg.sieve_UNITS t) 4
  let first := s.rg (if bitN (s.rg Rg.sieve_ACTIVE_B) t then Rg.sieve_BANK_B else Rg.sieve_BANK_A) t
  let n := 2 ^ s.rg Rg.sieve_BUCKETS_LOG2 t
  let h1 := key.foldl crcByte (s.rg Rg.sieve_SEED1 t) % n
  let h2 := key.foldl crcByte (s.rg Rg.sieve_SEED2 t) % n
  let at_ (bk w : Nat) : Nat := kHub (s.rg Rg.sieve_SV_BASE * 2 ^ 20 + 16 * (first + 4 * u * bk + u * w))
  let ents := (if h1 = h2 then [h1] else [h1, h2]).flatMap (fun bk => (List.range 4).map (fun w => at_ bk w))
  let area := 16 * u - 8
  let hits := ents.filter (fun k => bitN (s.readN (k + area) 8) 63 && s.readB k area == key)
  match hits with
  | [] => (s.rg Rg.sieve_MISS_ACTION t, none, false)
  | k :: more => (s.readN (k + area) 2, some (s.readN (k + area + 2) 4), !more.isEmpty)

/-! ## Patterns (R321) -/

/-- Pattern p matches the payload at an offset. -/
def State.patAt (s : State) (b p : Nat) (ctl : Nat) (pay : List Byte) (scan o : Nat) : Bool :=
  let n := bits ctl 0 6 + 1
  decide (bits ctl 6 10 ≤ o) && decide (o ≤ bits ctl 16 10) && decide (o + n ≤ min scan pay.length)
    && (List.range n).all (fun i =>
      let m := s.cfgN b (0x8000 + 160 * p + 64 + i) 1
      (fieldAt pay (o + i) 1 &&& m) == (s.cfgN b (0x8000 + 160 * p + i) 1 &&& m))

/-- The lowest end of a match of a pattern. -/
def State.patEnd (s : State) (b p : Nat) (pay : List Byte) (set scan : Nat) : Option Nat :=
  let ctl := s.patCtl b p
  if bitN ctl 30 && bits ctl 26 4 == set then
    ((List.range 1024).find? (fun o => s.patAt b p ctl pay scan o)).map (fun o => o + bits ctl 0 6 + 1)
  else none

/-- ACTION_ID of the pattern result: the match with the lowest end, and among those the lowest pattern. -/
def State.pattern (s : State) (b : Nat) (pay : List Byte) (set scan : Nat) : Option Nat :=
  let best := (List.range 4096).foldl (fun (a : Option (Nat × Nat)) p =>
    match s.patEnd b p pay set scan, a with
    | none, _ => a
    | some e, none => some (e, p)
    | some e, some x => if e < x.1 then some (e, p) else a) none
  best.map (fun x => bits (s.patCtl b x.2) 32 16)

/-! ## Actions (R313, R314) -/

/-- An action entry of the active bank. -/
def State.action (s : State) (i : Nat) : Nat :=
  s.readN (kHub ((s.rg Rg.sieve_SV_BASE + 32 + s.cfgBank) * 2 ^ 20 + 16 * i)) 16

/-- What the actions of a pass come to. -/
structure Combined where
  disp : Nat := 0
  target : Nat := 0
  ce : Bool := false
  mir : Option Nat := none
  dscp : Option Nat := none
  counted : List Nat := []

/-- One action is combined with those before it; DROP is final. -/
def Combined.add (c : Combined) (a : Nat) : Combined :=
  let d := if 6 ≤ bits a 0 3 then 2 else bits a 0 3
  let c := if d ≠ 0 ∧ c.disp ≠ 2 then { c with disp := d, target := a } else c
  { c with
    ce := c.ce || bitN a 44, mir := if bitN a 36 then some (bits a 32 4) else c.mir,
    dscp := if bitN a 43 then some (bits a 37 6) else c.dscp,
    counted := if bitN a 61 then insertNat (bits a 45 16) c.counted else c.counted }

/-! ## Effects of a pass (R315-R319) -/

/-- A DROP counter advances. -/
def State.drop (s : State) (j : Nat) : State := s.incRg Rg.sieve_DROP j 1

/-- DSCP is written into an IP header at an offset. -/
def markDscp (f : List Byte) (v6 : Bool) (o v : Nat) : List Byte :=
  if v6 then
    let tc := v * 4 + (fieldAt f (o + 1) 1 / 16) % 4
    setByte (setByte f o (setBits (fieldAt f o 1) 0 4 (tc / 16))) (o + 1) (setBits (fieldAt f (o + 1) 1) 4 4 (tc % 16))
  else fixIp (setByte f (o + 1) (v * 4 + fieldAt f (o + 1) 1 % 4)) o

/-- The marks of a pass (R316). -/
def State.mark (s : State) (f : List Byte) (ip : Option (Bool × Nat)) (c : Combined) : State × List Byte :=
  let n := ofBool c.dscp.isSome + ofBool c.ce
  match ip with
  | none => (s.incRg Rg.sieve_DROP 9 n, f)
  | some (v6, o) =>
    let f1 := match c.dscp with
      | some v => markDscp f v6 o v
      | none => f
    if c.ce then
      (if ecnOf f1 v6 o = 0 then (s.drop 9, f1) else (s, markCe f1 v6 o))
    else (s, f1)

/-- A counter of the set gains a frame (R319). -/
def State.countFrame (s : State) (len i : Nat) : State :=
  let k := kHub ((s.rg Rg.sieve_SV_BASE + 34) * 2 ^ 20 + 16 * i)
  let v := s.readN k 16
  let y := bits v 64 63 + len
  let w := bitN v 127 || decide (2 ^ 63 ≤ y)
  s.writeN k 16 ((bits v 0 64 + 1) % 2 ^ 64 + y % 2 ^ 63 * 2 ^ 64 + ofBool w * 2 ^ 127)

/-- The further payload of a receive completion of a steered frame (R376). -/
def steerMore (port start : Nat) : Nat := port % 8 * 2 ^ 95 + start % 512 * 2 ^ 98

/-- A mirror copy (R317, R351). -/
def State.mirror (s : State) (m port start tag : Nat) (f : List Byte) : State :=
  let n := s.rg Rg.sieve_TRUNC m
  let f := if n = 0 then f else f.take n
  let p := s.rg Rg.sieve_MPORT m
  if !s.flag Rg.sieve_MEN m then s.drop 10
  else if s.rg Rg.sieve_MKIND m = 1 then
    match s.fillBuffer (s.rg Rg.sieve_MPLOT m) (s.rg Rg.sieve_MRING m) f 0 tag (steerMore port start) with
    | some s1 => s1
    | none => s.drop 10
  else
    let w : EgWait := { key := 128 * p + s.rg Rg.sieve_MQUEUE m, bytes := f, src := 1 }
    if s.flag Rg.sched_PEN (16 * p + m) then
      let c : Int := (s.eth.policers.get? (16 * p + m)).getD 0
      if c < 0 then s.drop 10
      else { s with eth := { s.eth with
        policers := s.eth.policers.put (16 * p + m) (c - ((frameLen f + 20) * 128 : Nat)) } }.toEgress w
    else s.toEgress w

/-- A frame is steered to a plot's ring, or dropped (R315). -/
def State.steer (s : State) (fn ring port start tag : Nat) (f : List Byte) : State :=
  match s.fillBuffer fn ring f 0 tag (steerMore port start) with
  | some s1 => s1
  | none => s.drop 11

/-- The final disposition of a pass (R315, R318, R323). -/
def State.dispose (s : State) (c : Combined) (hash tag start : Nat) (ip : Option (Bool × Nat)) (f : InFrame) : State :=
  let a := c.target
  let fwd (s : State) (p q : Nat) : State := s.toEgress { key := 128 * p + q, bytes := f.bytes, src := 0, ip := ip }
  if bitN a 3 ∧ (c.disp = 1 ∨ c.disp = 3 ∨ c.disp = 5) then
    let e := s.rg Rg.sieve_IND (512 * f.port + hash % 512)
    match e % 4 with
    | 0 => fwd s (bits e 2 3) (bits e 5 7)
    | 1 => s.steer (bits e 2 7) (bits e 9 4) f.port start tag f.bytes
    | 2 => s.toTransport (bits e 2 6) f.port f.bytes start
    | _ => s
  else match c.disp with
  | 0 => s.drop 5
  | 1 => fwd s (bits a 4 3) (bits a 7 7)
  | 2 => s
  | 3 => s.steer (bits a 14 7) (bits a 21 4) f.port start tag f.bytes
  | 4 =>
    if 3 ≤ f.passes then s.drop 6
    else if 256 ≤ s.sieve.recirc.length then s.drop 7
    else { s with sieve := { s.sieve with
      recirc := s.sieve.recirc ++ [{ f with tag := tag, prog := bits a 25 6 }] } }
  | _ => s.toTransport 0 f.port f.bytes start

/-- The oldest frame of a port that is ready for its first pass. -/
def State.readyFrame (s : State) (p : Nat) : Option InFrame := s.sieve.ingress.find? (fun f => f.port == p)

/-- The round-robin comes to port p: each port before it has no frame ready, or its frame's program scans the payload, and no scanner is
free for it (R300). -/
def State.portTurn (s : State) (p : Nat) : Bool :=
  (List.range ((p + 8 - s.sieve.turn) % 8)).all (fun i =>
    let q := (s.sieve.turn + i) % 8
    (s.readyFrame q).isNone || bitN (s.prog s.cfgBank (s.rg Rg.sieve_ENTRY_PROG q)) 132)

/-- A frame leaves the queue that a pass takes it from: recirculated frames first, oldest first, then the port's own in its turn. -/
def State.takeFrame (s : State) (p : Nat) : Option (State × InFrame) :=
  match s.sieve.recirc with
  | f :: t => some ({ s with sieve := { s.sieve with recirc := t } }, f)
  | [] =>
    match s.readyFrame p with
    | none => none
    | some f =>
      if s.portTurn p then
        some ({ s with sieve := { s.sieve with
          ingress := removeFirst (fun g => decide (g.port = p)) s.sieve.ingress, turn := (p + 1) % 8 } },
          { f with prog := s.rg Rg.sieve_ENTRY_PROG p })
      else none

/-- Actions of a pass that the walk has accepted, META of the last stage that hit, and whether a lookup hit twice. -/
def State.passActions (s : State) (b pr : Nat) (f : List Byte) (ls : Layers) (start : Nat) : List Nat × Nat × Nat :=
  let head := f.take 512
  let st := (List.range 4).filter (fun k => bitN (stageOf pr k) 10)
  let rs := st.map (fun k =>
    let g := stageOf pr k
    s.lookup (g % 16) (s.lookupKey b (bits g 4 6) head ls (s.keyArea (g % 16))))
  let pat := if bitN pr 132 then s.pattern b (f.drop start) (bits pr 128 4) (bits pr 133 11) else none
  (bits pr 16 16 :: rs.map (fun r => r.1) ++ pat.toList, (rs.filterMap (fun r => r.2.1)).getLastD 0, rs.countP (fun r => r.2.2))

/-- A parity error in Sieve is counted, raised and reported: structure (0 configuration, 1 table store, 2 actions, 3 counters) and index
(R324). -/
def State.sieveParity (s : State) (st i : Nat) : State :=
  let r : FaultRec := { cls := 2, unit := 13, index := 0, sub := st, check := 0, addr := i, beat := s.rg Rg.beat_BEATNO }
  (((s.drop 8).event 0x0402 (st + i * 2 ^ 32)).countReport r).logPair r 0 0

/-- A Sieve pass of one frame: the oldest recirculated frame, or else the oldest of ingress port `p`. `par` names a structure
and an index whose read fails parity: the frame is discarded and reported; where it is a counter that fails, the pass has its other
effects, and that counter keeps its value (R324). -/
def execSievePass (p : Nat) (par : Option (Nat × Nat)) (s : State) : Res :=
  match s.takeFrame p with
  | none => .next s
  | some (s, f) =>
    let bad : Option Nat := match par with
      | some (3, i) => some i
      | _ => none
    match (if bad.isSome then none else par) with
    | some (st, i) => .next (s.sieveParity st i)
    | none =>
      let b := s.cfgBank
      let pr := s.prog b f.prog
      let f := { f with passes := f.passes + 1 }
      let (s, ls, acts, tag, start, dup) : State × Layers × List Nat × Nat × Nat × Nat :=
        match s.walk b (f.bytes.take 512) 16 (bits pr 0 8) 0 [] with
        | .reject code ls => ((s.drop 4).setRg Rg.sieve_LAST_REJECT 0 code, ls, [bits pr 32 16], 0, 0, 0)
        | .accept ls pos =>
          let x := s.passActions b pr f.bytes ls pos
          (s, ls, x.1, x.2.1, pos, x.2.2)
      let s := s.incRg Rg.sieve_DROP 12 dup
      let c := (acts.map s.action).foldl Combined.add {}
      let hash := if bitN pr 150 then
          toeplitz (s.tkey f.port) (sortPairs (s.fields b (bits pr 144 6) (f.bytes.take 512) ls)).flatten else 0
      let ip := (ls.find? (fun l => l.2.1 == 1 || l.2.1 == 2)).map (fun l => (l.2.1 == 2, l.2.2))
      let (s, bs) := s.mark f.bytes ip c
      let f := { f with bytes := bs }
      let s := (c.counted.filter (fun i => some i != bad)).foldl (fun s i => s.countFrame (frameLen f.bytes) i) s
      let s := match c.mir with
        | some m => s.mirror m f.port start tag f.bytes
        | none => s
      match bad with
      | some i => .next (s.sieveParity 3 i)
      | none => .next (s.dispose c hash tag start ip f)

/-! ## Frames that arrive (R299) -/

/-- A frame's last byte arrives on a port: its bytes, the FCS last, and whether the PHY has delivered all of it (R298). A frame that
passes R299 is counted and waits in the ingress buffer, without its FCS. -/
def execFrameRx (p : Nat) (bytes : List Byte) (phy : Bool) (s : State) : Res :=
  if !s.portUp p then .next s
  else
    let n := bytes.length
    let f := bytes.take (n - 4)
    let share := 4 * 2 ^ 20 / max 1 s.ethPorts
    let used := s.sieve.ingress.foldl (fun a f => if f.port = p then a + frameLen f.bytes else a) 0
    if phy = false ∨ bytes.drop (n - 4) ≠ fcsOf f then .next (s.drop 0)
    else if n < 64 ∨ s.rg Rg.sieve_MAX_FRAME < n then .next (s.drop 1)
    else if beNat ((f.drop 12).take 2) = 0x8808 then .next (s.drop 2)
    else if share < used + n then .next (s.drop 3)
    else
      let s := (s.incRg Rg.sieve_RX_FRAMES p 1).incRg Rg.sieve_RX_BYTES p n
      .next { s with sieve := { s.sieve with ingress := s.sieve.ingress ++ [{ port := p, bytes := f }] } }

/-! ## Banks (R308, R310) -/

/-- A NEXT code that names something. -/
def nextOk (n : Nat) : Bool := decide (n ≤ 257)

/-- The checks of a shadow configuration bank in order: the code and the index of the first that fails. -/
def State.cfgCheck (s : State) (b : Nat) : Option (Nat × Nat) :=
  let nodeBad (i : Nat) : Bool :=
    let n := s.node b i
    decide (5 ≤ bits n 8 3) || !nextOk (bits n 65 9) || bits n 11 5 != 0 || bits n 26 6 != 0 || bits n 105 23 != 0
  let transBad (i : Nat) : Bool :=
    let n := s.node b i
    decide (16 < bits n 60 5) || decide (4096 < bits n 48 12 + bits n 60 5)
      || (List.range (bits n 60 5)).any (fun j => !nextOk (bits (s.trans b (bits n 48 12 + j)) 16 9))
  let progBad (i : Nat) : Bool :=
    let p := s.prog b i
    (List.range 4).any (fun k =>
      let g := stageOf p k
      bitN g 10 && (!s.flag Rg.sieve_TBL_EN (g % 16)
        || decide (s.keyArea (g % 16) < 1 + s.profileBytes b (bits g 4 6))))
      || (bitN p 132 && (bits p 133 11 == 0 || decide (1024 < bits p 133 11)))
  let hashed (i : Nat) : Bool := (List.range 64).any (fun p => bitN (s.prog b p) 150 && bits (s.prog b p) 144 6 == i)
  let profBad (i : Nat) : Bool :=
    (hashed i && decide (48 < s.profileBytes b i))
      || (List.range 8).any (fun k =>
        let r := s.fieldRef b i k
        bitN r 23 && (k == 7 || refLen r != refLen (s.fieldRef b i (k + 1))))
  let patBad (i : Nat) : Bool :=
    let c := s.patCtl b i
    decide (bits c 16 10 < bits c 6 10) || decide (1024 < bits c 16 10 + bits c 0 6 + 1)
  match (List.range 256).find? nodeBad with
  | some i => some (1, i)
  | none => match (List.range 256).find? transBad with
    | some i => some (2, i)
    | none => match (List.range 64).find? progBad with
      | some i => some (3, i)
      | none => match (List.range 64).find? profBad with
        | some i => some (4, i)
        | none => ((List.range 4096).find? patBad).map (fun i => (5, i))

/-- GO is written with SWAP_MASK and SWAP_CFG: the checks, then the swap at one pass boundary. -/
def execSieveGo (mask : Nat) (cfg : Bool) (s : State) : Res :=
  let s := (s.setRg Rg.sieve_SWAP_MASK 0 mask).setRg Rg.sieve_SWAP_CFG 0 (ofBool cfg)
  let err (c i : Nat) : Res := .next ((s.setRg Rg.sieve_CFG_ERR 0 c).setRg Rg.sieve_CFG_ERR_IDX 0 i)
  if s.flag Rg.sieve_BUSY then err 7 0
  else match (if cfg then s.cfgCheck (1 - s.cfgBank) else none) with
    | some (c, i) => err c i
    | none =>
      match (List.range 16).find? (fun t => bitN mask t && !s.flag Rg.sieve_TBL_EN t) with
      | some t => err 6 t
      | none =>
        let s := (s.setRg Rg.sieve_CFG_ERR 0 0).setRg Rg.sieve_CFG_ERR_IDX 0 0
        let s := s.setRg Rg.sieve_ACTIVE_B 0 (s.rg Rg.sieve_ACTIVE_B ^^^ mask)
        let s := if cfg then (s.setRg Rg.sieve_CFG_B 0 (1 - s.cfgBank)).setRg Rg.sieve_CFG_LOADED 0 1 else s
        .next (s.setRg Rg.sieve_BUSY 0 1)

/-- The passes on the old banks have ended. -/
def execSieveSwapComplete (s : State) : Res :=
  if s.flag Rg.sieve_BUSY then
    .next ((s.setRg Rg.sieve_BUSY 0 0).sqRaise Rg.sieve_SWAP_DONE Rg.sieve_SWAP_SEQ 0 1)
  else .next s

/-- The slot ranges of a table's banks. -/
def State.bankRanges (s : State) (t : Nat) : List (Nat × Nat) :=
  [(s.rg Rg.sieve_BANK_A t, s.rg Rg.sieve_BANK_A t + s.bankSlots t), (s.rg Rg.sieve_BANK_B t, s.rg Rg.sieve_BANK_B t + s.bankSlots t)]

/-- Two ranges share a slot. -/
def rangesMeet (a b : Nat × Nat) : Bool := decide (a.1 < b.2) && decide (b.1 < a.2)

/-- The banks of a table lie in the store and meet no other (R308). -/
def State.banksOk (s : State) (t : Nat) : Bool :=
  let rs := s.bankRanges t
  let others := ((List.range 16).filter (fun u => u != t && s.flag Rg.sieve_TBL_EN u)).flatMap s.bankRanges
  rs.all (fun r => decide (r.2 ≤ 2 ^ 21)) && !(rangesMeet (rs.getD 0 (0, 0)) (rs.getD 1 (0, 0)))
    && rs.all (fun r => others.all (fun o => !rangesMeet r o))

/-- The first word of a table's descriptor is written (R308, R326). -/
def execTableEnWrite (t : Nat) (en : Bool) (units log2 : Nat) (s : State) : Res :=
  let bad (s : State) (c : Nat) : State := (s.setRg Rg.sieve_TBL_ERR 0 c).setRg Rg.sieve_TBL_ERR_T 0 t
  if s.flag Rg.sieve_TBL_EN t then
    (if en then .next s
     else
      let used := s.flag Rg.sieve_CFG_LOADED && (List.range 64).any (fun i =>
        (List.range 4).any (fun k => let g := stageOf (s.prog s.cfgBank i) k; bitN g 10 && g % 16 == t))
      if used then .next (bad s 3) else .next (s.setRg Rg.sieve_TBL_EN t 0))
  else
    let s := (s.writeFld Rg.sieve_UNITS t units).writeFld Rg.sieve_BUCKETS_LOG2 t log2
    if !en then .next s
    else if s.banksOk t then .next (s.setRg Rg.sieve_TBL_EN t 1)
    else .next (bad s 1)

/-- SNAP is written with CNT_IDX and CNT_CLR: the counter goes whole to the snapshot registers (R319). -/
def execSnap (i : Nat) (clr : Bool) (s : State) : Res :=
  let s := (s.setRg Rg.sieve_CNT_IDX 0 i).setRg Rg.sieve_CNT_CLR 0 (ofBool clr)
  let k := kHub ((s.rg Rg.sieve_SV_BASE + 34) * 2 ^ 20 + 16 * i)
  let v := s.readN k 16
  let s := ((s.setRg Rg.sieve_SNAP_PKTS 0 (bits v 0 64)).setRg Rg.sieve_SNAP_BYTES 0 (bits v 64 63)).setRg
    Rg.sieve_SNAP_WRAP 0 (bits v 127 1)
  .next (if clr then s.writeN k 16 0 else s)

/-! ## Ports (R297, R325, R345) -/

/-- Line rate of a port in the mode in force, in Mb/s. -/
def State.showRates (s : State) : State :=
  (List.range 8).foldl (fun s p =>
    s.setRg Rg.sched_PORT_RATE p (if p < s.ethPorts then [800000, 400000, 200000].getD (s.rg Rg.sieve_PORT_MODE) 0 else 0)) s

/-- PORT_MODE is written; it takes effect only while every PORT_EN bit is 0, and 3 is reserved. -/
def execPortModeWrite (m : Nat) (s : State) : Res :=
  if s.rg Rg.sieve_PORT_EN = 0 ∧ m < 3 then .next (s.setRg Rg.sieve_PORT_MODE 0 m).showRates else .next s

/-- PORT_EN is written; it is ignored until a configuration has been loaded. A port that it disables loses its queued frames
and is up no longer. -/
def execPortEnWrite (v : Nat) (s : State) : Res :=
  if !s.flag Rg.sieve_CFG_LOADED then .next s
  else
    let off := (List.range 8).filter (fun p => bitN (s.rg Rg.sieve_PORT_EN) p && !bitN v p)
    let s := s.setRg Rg.sieve_PORT_EN 0 v
    .next (off.foldl (fun s p => ((s.setRg Rg.sieve_UP p 0).setRg Rg.sieve_FEC_LOCK p 0).portDrop p) s)

/-- A port's PCS and FEC lock, and link training ends (R325). -/
def execEthPortUp (p : Nat) (s : State) : Res :=
  if !s.portOn p || s.hubMainReset || s.flag Rg.sieve_UP p then .next s
  else .next (((s.setRg Rg.sieve_UP p 1).setRg Rg.sieve_FEC_LOCK p 1).event 0x0400 (p + s.rg Rg.sieve_PORT_MODE * 2 ^ 4))

/-- An enabled port loses lock: its queued frames are discarded (R325, R345). -/
def execEthPortDown (p : Nat) (s : State) : Res :=
  if !s.portUp p then .next s
  else .next ((((s.setRg Rg.sieve_UP p 0).setRg Rg.sieve_FEC_LOCK p 0).portDrop p).event 0x0401 p)

end Sys2Proof.Machine
end

