-- ==== Sys2Proof/Machine/HostRing.lean ====
section
/-!
DEFINITION. Doorbells, the fetching, starting and ending of descriptors, MSI-X, and export deliveries (R365-R374, R379).
-/
namespace Sys2Proof.Machine

/-! ## The PCIe functions (R358-R361, R527) -/

/-- The identity in a configuration header. -/
structure PciHeader where
  vendor : Nat
  device : Nat
  revision : Nat
  classCode : Nat
  subVendor : Nat
  subsystem : Nat
deriving DecidableEq, Repr

/-- The configuration header of PF0, or of a plot (`vf`); a module in fuse-hold is unconfigured, and its fuse fields read zero (R358,
R527). The subsystem IDs are in fuse word 3 (log entry 2). -/
def State.pciHeader (s : State) (vf : Bool) : PciHeader :=
  let held := s.flag Rg.system_FUSE_HOLD
  let f := if held then 0 else s.fw.fuses.getD 0 3
  { vendor := 0x1F7E, device := if vf then 0x5291 else 0x5290, revision := s.rg Rg.identity_STEPPING,
    classCode := if held then 0xFF0000 else 0x120000, subVendor := bits f 0 16, subsystem := bits f 16 16 }

/-- The SR-IOV capability of PF0: the counts of functions, offset and stride, Device ID, and the page sizes as bits (bit 0: 4 KiB). -/
structure SrIov where
  totalVfs : Nat
  initialVfs : Nat
  firstOffset : Nat := 1
  stride : Nat := 1
  device : Nat := 0x5291
  pageSizes : Nat := 1
deriving DecidableEq, Repr

/-- What the SR-IOV capability reports; in fuse-hold there are no virtual functions (R359, R527). -/
def State.srIov (s : State) : SrIov :=
  let n := if s.flag Rg.system_FUSE_HOLD then 0 else 127
  { totalVfs := n, initialVfs := n }

/-- What a read of a function's doorbell page answers: P of a ring, CI of an event queue, and zero elsewhere (R360, R361). -/
def State.doorbellRead (s : State) (fn off : Nat) : Nat :=
  let eq0 := if fn = 0 then 0x1000 else 0x200
  if off % 8 ≠ 0 then 0
  else if off < 8 * ringCount fn then ((s.ring fn (off / 8)).map (fun (g : Ring) => g.p)).getD 0
  else if eq0 ≤ off ∧ off < eq0 + 8 * eqCount fn then
    ((s.host.eqs.get? (fnKey fn ((off - eq0) / 8))).map (fun (e : EvQueue) => e.ci)).getD 0
  else 0

/-! ## Doorbells (R369, R370) -/

/-- The host interface answers: it is out of reset, and the module is not in fuse-hold (R38). -/
def State.hostServed (s : State) : Bool := s.hostUp && s.rg Rg.identity_SERVICE_LEVEL != 0

/-- A function's doorbells are taken: the manager's, and those of a plot that is not ABSENT (R364). -/
def State.rings? (s : State) (fn : Nat) : Bool := s.hostServed && (fn == 0 || s.plotState fn != 0)

/-- A ring doorbell replaces the ring's latest-doorbell register; a ring in error ignores it. -/
def execRingDoorbell (fn r v : Nat) (s : State) : Res :=
  match s.ring fn r with
  | none => .next s
  | some g =>
    if s.rings? fn ∧ g.err = 0 then .next (s.setRing fn r { g with bell := some (v % 2 ^ 16) }) else .next s

/-- The signed difference of two indices. -/
def idxDiff (a b : Nat) : Int := sext 16 (a + 2 ^ 16 - b % 2 ^ 16)

/-- The hub samples a rung register and judges its PI; a plot that is not READY keeps it latched (R369, R385). -/
def execDoorbellSample (fn r : Nat) (s : State) : Res :=
  match s.ring fn r with
  | none => .next s
  | some g =>
    match g.bell with
    | none => .next s
    | some pi =>
      if !s.fnReady fn || g.err != 0 then .next s
      else
        let d := idxDiff pi g.f
        let s := s.setRing fn r { g with bell := none }
        if d < 0 then .next (s.satRg Rg.host_DB_STALE 0 1)
        else if d = 0 then .next s
        else if 2 ^ g.log2 < (pi + 2 ^ 16 - g.u) % 2 ^ 16 then .next (s.ringError fn r 1 pi)
        else .next (s.setRing fn r { g with bell := none, p := pi })

/-- An event-queue doorbell: a CI that is ahead takes effect, and held records are written. -/
def execEqDoorbell (fn q v : Nat) (s : State) : Res :=
  match s.host.eqs.get? (fnKey fn q) with
  | none => .next s
  | some e =>
    let ci := v % 2 ^ 16
    if s.rings? fn ∧ 0 < idxDiff ci e.ci then
      let s := { s with host := { s.host with eqs := s.host.eqs.put (fnKey fn q) { e with ci := ci } } }
      let s := s.setFn Rg.host_EQ_CI Rg.plotStat_EQ_CI fn q 4 ci
      .next (s.drainQueue fn q e.hold.length)
    else .next s

/-! ## Fetching (R365, R369, R373) -/

/-- A batch of a ring's descriptors is fetched: what the host's memory holds there, or none for a PCIe error completion. -/
def execDescriptorFetch (fn r : Nat) (ds : Option (List (List Byte))) (s : State) : Res :=
  match s.ring fn r with
  | none => .next s
  | some g =>
    let full := match s.host.eqs.get? (fnKey fn g.eq) with
      | some e => decide (64 ≤ e.hold.length)
      | none => true
    let n := min 16 ((g.p + 2 ^ 16 - g.f) % 2 ^ 16)
    if !s.fnReady fn || g.err != 0 || full || n == 0 then .next s
    else match ds with
      | none => .next (s.ringError fn r 2 g.p)
      | some l =>
        let l := (l.take n).map (fun b => (b ++ List.replicate 64 0).take 64)
        let new := l.mapIdx (fun i b => ({ idx := (g.f + i) % 2 ^ 16, bytes := b } : Desc))
        .next (s.setRing fn r { g with f := (g.f + l.length) % 2 ^ 16, descs := g.descs ++ new })

/-! ## Starting descriptors (R365-R367) -/

/-- The next descriptor of a ring begins under an OP: it waits when the ring's next one has another OP of the kind, and ends
with cause 14 when its OP is none of the kind's. -/
def State.beginDesc (s : State) (fn r kind op : Nat) (ops : List Nat) : State ⊕ (State × Ring × Desc) :=
  match s.ring fn r with
  | none => .inl s
  | some g =>
    match g.nextDesc with
    | none => .inl s
    | some d =>
      if g.kind ≠ kind ∨ s.hostUp = false then .inl s
      else
        let o := fieldAt d.bytes 0 1
        if !ops.contains o then .inl (s.endDesc fn r d.idx 2 14 0)
        else if o ≠ op then .inl s
        else
          let d := { d with started := true }
          let g := g.setDesc d
          .inr (s.setRing fn r g, g, d)

/-- A TX descriptor: its frame goes to the ring's port and queue, and the descriptor is done once it is whole in the egress
buffer. `dma` is what a frame in host memory holds. -/
def execSendFrame (fn r : Nat) (dma : List Byte) (s : State) : Res :=
  match s.beginDesc fn r 0 0x01 [0x01] with
  | .inl s => .next s
  | .inr (s, g, d) =>
    let n := fieldAt d.bytes 24 4
    if !zeroBytes d.bytes [(8, 1), (16, 8), (24, 4)] || decide (3 < fieldAt d.bytes 8 1) || decide (n < 60)
        || decide (s.rg Rg.sieve_MAX_FRAME - 4 < n) then .next (s.endDesc fn r d.idx 2 14 0)
    else match s.localRead fn (fieldAt d.bytes 8 1) (fieldAt d.bytes 16 8) n dma with
      | none => .next (s.endDesc fn r d.idx 2 12 0)
      | some bs => .next (s.toEgress { key := 128 * g.port + g.queue, bytes := bs, src := 3, desc := some (fn, r, d.idx) })

/-- An RX descriptor: its buffer is posted. -/
def execPostBuf (fn r : Nat) (s : State) : Res :=
  match s.beginDesc fn r 1 0x02 [0x02] with
  | .inl s => .next s
  | .inr (s, _, d) =>
    let n := fieldAt d.bytes 24 4
    if !zeroBytes d.bytes [(8, 1), (16, 8), (24, 4)] || decide (3 < fieldAt d.bytes 8 1) || decide (n < 64)
        || decide (2 ^ 30 < n) then .next (s.endDesc fn r d.idx 2 14 0)
    else if (s.localSpans fn (fieldAt d.bytes 8 1) (fieldAt d.bytes 16 8) n).isNone then .next (s.endDesc fn r d.idx 2 12 0)
    else .next s

/-- An XFER descriptor: `kind` 1 WRITE, 5 READ, 7 SEND. The fields, then the connection, then the local address are judged. -/
def State.xfer (s : State) (fn r op kind : Nat) (dma : List Byte) : State :=
  match s.beginDesc fn r 2 op [0x10, 0x11, 0x12] with
  | .inl s => s
  | .inr (s, _, d) =>
    let b := d.bytes
    let fail (c : Nat) : State := s.endDesc fn r d.idx 2 c 0
    let eth := fieldAt b 9 1 == 0
    let cn := fieldAt b 10 2
    let aspace := fieldAt b 8 1
    let addr := fieldAt b 16 8
    let n := fieldAt b 24 4
    let fields := [(8, 1), (9, 1), (10, 2), (16, 8), (24, 4)]
      ++ (if kind = 7 then [] else if eth then [(28, 4), (32, 8)] else [(32, 8)])
    let c := s.conn (connKey 2 cn)
    let e := s.econn cn
    let mine := if eth then decide (cn < 8192) && e.st == 1 && e.fn == fn
      else decide (cn < 4096) && c.isOpen && !c.failed && c.func == fn
    if !zeroBytes b fields || decide (3 < aspace) || decide (1 < fieldAt b 9 1) || (!eth && kind == 7) then fail 14
    else if !mine then fail 13
    else if (if eth then !e.lenOk n else n == 0) then fail 14
    else if (s.localSpans fn aspace addr n).isNone then fail 12
    else
      let rd := kind == 5
      match (if rd then some [] else s.localRead fn aspace addr n dma) with
      | none => fail 12
      | some bs =>
        let sink : Option Sink := if rd then some { aspace := aspace, fn := fn, addr := addr } else none
        let owner : Owner := .desc fn r d.idx
        if eth then s.ethStart cn kind (fieldAt b 32 8) n (fieldAt b 28 4) bs sink owner
        else s.dvStart 2 cn rd true 1 (fieldAt b 32 8) n bs sink owner

/-- An XFER WRITE starts. -/
def execXferWrite (fn r : Nat) (dma : List Byte) (s : State) : Res := .next (s.xfer fn r 0x10 1 dma)
/-- An XFER READ starts. -/
def execXferRead (fn r : Nat) (s : State) : Res := .next (s.xfer fn r 0x11 5 [])
/-- An XFER SEND starts. -/
def execXferSend (fn r : Nat) (dma : List Byte) (s : State) : Res := .next (s.xfer fn r 0x12 7 dma)

/-- A write to a descriptor's range waits: a pending cutting (R485), or a tile that is moving. -/
def State.writeWaits (s : State) (fn aspace addr n : Nat) : Bool :=
  match aspace with
  | 1 => ((s.localSpans fn 1 addr n).getD []).any (fun x => s.cowHeld x.1 x.2)
  | 2 => s.moving (addr / 2 ^ 24)
  | _ => false

/-- The copy under way on a ring, or its next descriptor. -/
def State.copyDesc (s : State) (fn r : Nat) : State ⊕ (State × Desc) :=
  match (s.ring fn r).bind (fun g => if g.kind = 3 then g.descs.find? (fun d => d.started && d.fin.isNone) else none) with
  | some d => .inr (s, d)
  | none =>
    match s.beginDesc fn r 3 0x20 [0x20] with
    | .inl s => .inl s
    | .inr (s, _, d) =>
      let b := d.bytes
      let n := fieldAt b 32 4
      if !zeroBytes b [(8, 1), (9, 1), (16, 8), (24, 8), (32, 4)] || decide (3 < fieldAt b 8 1) || decide (3 < fieldAt b 9 1)
          || n == 0 || decide (2 ^ 30 < n) then .inl (s.endDesc fn r d.idx 2 14 0)
      else if (s.localSpans fn (fieldAt b 8 1) (fieldAt b 16 8) n).isNone
          || (s.localSpans fn (fieldAt b 9 1) (fieldAt b 24 8) n).isNone then .inl (s.endDesc fn r d.idx 2 12 0)
      else .inr (s, d)

/-- A COPY moves its next `n` bytes, in ascending order, and is done with its last. -/
def execCopy (fn r n : Nat) (dma : List Byte) (s : State) : Res :=
  match s.copyDesc fn r with
  | .inl s => .next s
  | .inr (s, d) =>
    let b := d.bytes
    let len := fieldAt b 32 4
    let m := min n (len - d.done)
    let dst := fieldAt b 24 8 + d.done
    if s.writeWaits fn (fieldAt b 9 1) dst m then .next s
    else match s.localRead fn (fieldAt b 8 1) (fieldAt b 16 8 + d.done) m dma with
      | none => .next (s.endDesc fn r d.idx (if d.done = 0 then 2 else 1) 12 d.done)
      | some bs =>
        let s := (s.localWrite fn (fieldAt b 9 1) dst bs).setDesc fn r { d with done := d.done + m }
        .next (if d.done + m = len then s.endDesc fn r d.idx 0 0 len else s)

/-! ## Completion (R365, R367) -/

/-- The end of an operation that a descriptor owns reaches the descriptor. -/
def State.absorb (s : State) (o : Owner) : State :=
  match s.dv.ended.find? (fun e => e.owner == o), o with
  | some e, .desc fn r i =>
    { s with dv := { s.dv with ended := removeFirst (fun e => decide (e.owner = o)) s.dv.ended } }.endDesc fn r i e.state e.cause
      e.bytes
  | _, _ => s

/-- U passes an index and those behind it that have completed out of order. -/
def Ring.passU (g : Ring) : Nat → Ring
  | 0 => g
  | n + 1 => if g.doneIdx.contains g.u then
      Ring.passU { g with u := (g.u + 1) % 2 ^ 16, doneIdx := g.doneIdx.filter (fun i => i != g.u) } n else g

/-- A quiesce counts the descriptors that end partial or not started (R377, R388). -/
def State.countEnd (s : State) (fn pay : Nat) : State :=
  match s.host.quiesce.get? fn with
  | none => s
  | some q =>
    let st := bits pay 22 2
    let q := { q with partially := q.partially + ofBool (st == 1), unstarted := q.unstarted + ofBool (st == 2) }
    { s with host := { s.host with quiesce := s.host.quiesce.put fn q } }

/-- A descriptor whose work has ended gets its record, in ring order for kinds 0, 1 and 3, and its slot returns. -/
def State.complete (s : State) (fn r i : Nat) : State :=
  match s.ring fn r with
  | none => s
  | some g =>
    match g.desc i with
    | none => s
    | some d =>
      match d.fin with
      | none => s
      | some (ty, pay) =>
        let ordered := g.kind == 0 || g.kind == 1 || g.kind == 3
        if ordered && (g.descs.head?).any (fun h => h.idx != i) then s
        else
          let s := (if ty = 0 then s else s.record fn g.eq fn ty pay).countEnd fn pay
          let g := { g with descs := g.descs.filter (fun x => x.idx != i), doneIdx := insertNat i g.doneIdx }
          s.setRing fn r (g.passU g.doneIdx.length)

/-- A descriptor's work has ended: its completion record is written. -/
def execDescriptorComplete (fn r i : Nat) (s : State) : Res := .next ((s.absorb (.desc fn r i)).complete fn r i)

/-! ## MSI-X (R374) -/

/-- MOD_TIME after the first record that has not been signalled. -/
def execMsixModTimer (fn q : Nat) (s : State) : Res :=
  match s.host.eqs.get? (fnKey fn q) with
  | none => .next s
  | some e =>
    if e.since = 0 ∨ e.modTime = 0 ∨ s.hostUp = false then .next s
    else .next ({ s with host := { s.host with eqs := s.host.eqs.put (fnKey fn q) { e with since := 0 } } }.sendMsix fn e.vector)

/-- An MSI-X table entry is written: address, data and mask; a vector that is unmasked with its PBA bit set sends its
message. -/
def execMsixUnmask (fn v : Nat) (masked : Bool) (addr data : Nat) (s : State) : Res :=
  if !s.hostUp || decide (vecCount fn ≤ v) then .next s
  else
    let k := fnKey fn v
    let s := { s with host := { s.host with msix := s.host.msix.put k (addr, data) } }
    if masked then .next { s with host := { s.host with unmasked := s.host.unmasked.filter (fun x => x != k) } }
    else
      let due := s.host.pba.contains k
      let s := { s with host := { s.host with
        unmasked := insertNat k s.host.unmasked, pba := s.host.pba.filter (fun x => x != k) } }
      .next (if due then s.emit (.msix fn v) else s)

/-! ## Export deliveries (R378, R379, R501) -/

/-- A delivery of token records that METER_HOLD holds may leave: the Cloche has acknowledged its beat in this EPOCH. -/
def State.heldOk (s : State) (d : Delivery) : Bool :=
  !d.tokens || !d.hold || (match s.records.acked with
    | some (e, b) => e == s.rg Rg.cloche_EPOCH && decide (d.beat ≤ b)
    | none => false)

/-- A delivery is replaced. -/
def State.setDelivery (s : State) (d d' : Delivery) : State :=
  { s with host := { s.host with deliveries := s.host.deliveries.map (fun x => if x = d then d' else x) } }

/-- A delivery leaves staging. -/
def State.dropDelivery (s : State) (d : Delivery) : State :=
  { s with host := { s.host with deliveries := removeFirst (fun x => decide (x = d)) s.host.deliveries } }.showStaging

/-- The oldest delivery of a channel moves: into the next posted buffer of its ring, or as one SEND on its context. -/
def execExportDeliver (ch : Nat) (s : State) : Res :=
  match s.host.deliveries.find? (fun d => d.channel == ch) with
  | none => .next s
  | some d =>
    let e := s.host.channels.getD 0 ch
    let fn := bits e 2 7
    if !s.heldOk d || !s.fnReady fn then .next s
    else match bits e 0 2 with
      | 1 =>
        let r := bits e 9 6
        (match s.bufferRoom fn r with
         | none => .next s
         | some n =>
           let m := min n (d.bytes.length - d.sent)
           let more := decide (d.sent + m < d.bytes.length)
           match s.fillBuffer fn r ((d.bytes.drop d.sent).take m) 2 ch (ofBool more * 2 ^ 107) with
           | none => .next s
           | some s => .next (if more then s.setDelivery d { d with sent := d.sent + m } else s.dropDelivery d))
      | 2 =>
        let k := bits e 15 13
        let c := s.econn k
        if c.st = 1 ∧ c.fn = fn ∧ c.lenOk d.bytes.length = true then
          .next ((s.ethStart k 7 0 d.bytes.length 0 d.bytes none (.agent 0)).dropDelivery d)
        else .next s
      | _ => .next s

end Sys2Proof.Machine
end

