-- ==== Sys2Proof/Machine/Manage.lean ====
section
/-!
DEFINITION. The management ring: requests, responses, and the commands that set up what functions own (R381-R383).
-/
namespace Sys2Proof.Machine

/-! ## Requests and responses (R381, R382) -/

/-- The OPs that some command of the management ring has (R383, R417, R441, R494, R552, R584). -/
def knownOps : List Nat :=
  [0x01, 0x02, 0x03, 0x04, 0x05, 0x06, 0x07, 0x08, 0x09, 0x0A, 0x0B, 0x0C, 0x0D, 0x0E, 0x10, 0x11, 0x12, 0x13, 0x14, 0x15,
    0x20, 0x21, 0x22, 0x23, 0x24, 0x30, 0x31, 0x40, 0x41, 0x42, 0x43, 0x50, 0x51, 0x52, 0x53, 0x54, 0x60, 0x61]

/-- The oldest request that has not been answered: its slot and its 192 bytes. The firmware takes none while one runs. -/
def State.mrFront (s : State) : Option (Nat × List Byte) :=
  if s.host.mrPending = 0 ∨ s.host.mrBusy = true ∨ s.hostServed = false then none
  else some (s.rg Rg.host_MR_CI, s.readB (kMgmt (256 * s.rg Rg.host_MR_CI)) 192)

/-- A response is written to a slot, MR_CI advances, and the event follows. -/
def State.mrAnswer (s : State) (slot status : Nat) (res : List Byte) : State :=
  let req := s.readN (kMgmt (256 * slot)) 4
  let seq := bits req 16 16
  let r := leBytes 1 req ++ leBytes 1 status ++ leBytes 2 seq ++ leBytes 4 0 ++ res
  let s := s.writeB (kMgmt (256 * slot + 192)) ((r ++ List.replicate 64 0).take 64)
  let s := { s with host := { s.host with mrPending := s.host.mrPending - 1 } }
  (s.setRg Rg.host_MR_CI 0 (slot + 1)).record 0 (s.rg Rg.host_MGR_EQ) 0 0x0011 (slot + seq * 2 ^ 8 + status * 2 ^ 24)

/-- Requests with an unknown OP in front are answered with STATUS 1, those that an FLR of their plot has overtaken with
STATUS 4 (R388). -/
def State.mrSkip (s : State) : Nat → State
  | 0 => s
  | n + 1 =>
    match s.mrFront with
    | none => s
    | some (slot, req) =>
      if s.host.doomed.contains slot then
        State.mrSkip ({ s with host := { s.host with doomed := s.host.doomed.filter (fun x => x != slot) } }.mrAnswer slot 4 []) n
      else if knownOps.contains (fieldAt req 0 1) then s
      else State.mrSkip (s.mrAnswer slot 1 []) n

/-- A response, and then those to unknown OPs behind it. -/
def State.mrReply (s : State) (slot status : Nat) (res : List Byte) : State :=
  let s := s.mrAnswer slot status res
  s.mrSkip s.host.mrPending

/-- Every byte of a request outside its fields is zero; OP and SEQ are always fields. -/
def reqZero (req : List Byte) (fields : List (Nat × Nat)) : Bool :=
  (List.range req.length).all (fun i =>
    i == 0 || i == 2 || i == 3 || fields.any (fun f => decide (f.1 ≤ i) && decide (i < f.1 + f.2)) || fieldAt req i 1 == 0)

/-- The front request is executed when it has the OP: what the command answers is its STATUS, the state that a STATUS of 0
leaves, and the response's bytes from byte 8. A command that fails changes nothing. -/
def State.manage (s : State) (op : Nat) (fields : List (Nat × Nat)) (f : State → List Byte → Nat × State × List Byte) : State :=
  match s.mrFront with
  | none => s
  | some (slot, req) =>
    if fieldAt req 0 1 ≠ op then s
    else if !reqZero req fields then s.mrReply slot 1 []
    else
      let x := f s req
      (if x.1 = 0 then x.2.1 else s).mrReply slot x.1 x.2.2

/-- The response of a command that has been refused. -/
def State.refuse (s : State) (status : Nat) : Nat × State × List Byte := (status, s, [])

/-- The response of a command that is done. -/
def State.done (s : State) : Nat × State × List Byte := (0, s, [])

/-- Bytes are written to BAR4: the slots, and the data area; the event area and its count are read-only. -/
def State.bar4 (s : State) (a : Nat) (bs : List Byte) : State :=
  (bs.mapIdx (fun i b => (a + i, b))).foldl (fun s x =>
    if x.1 < 0x10000 ∨ (0x40000 ≤ x.1 ∧ x.1 < 0x400000) then s.writeB (kMgmt x.1) [x.2] else s) s

/-- MR_DB is written, behind the BAR4 writes that came before it: so many requests have been written, modulo 256. -/
def execMrDb (count : Nat) (writes : List (Nat × List Byte)) (s : State) : Res :=
  if !s.hostServed then .next s
  else
    let s := writes.foldl (fun s w => s.bar4 w.1 w.2) s
    let n := (count + 256 - s.rg Rg.host_MR_CI) % 256
    .next ({ s with host := { s.host with mrPending := n } }.mrSkip n)

/-! ## Plots, grants, rings and event queues (R383) -/

/-- A plot's number. -/
def isPlot (n : Nat) : Bool := decide (1 ≤ n) && decide (n < 128)

/-- A function that may hold objects: the manager, or a plot that is not ABSENT. -/
def State.fnExists (s : State) (fn : Nat) : Bool := fn == 0 || (isPlot fn && s.plotState fn != 0)

/-- Counters of a plot's status block start at zero (R396). -/
def State.plotClear (s : State) (p : Nat) : State :=
  let s := (s.setRg Rg.plotStat_MB_REQ_COUNT p 0).setRg Rg.plotStat_MB_REPLY_COUNT p 0
  (List.range 4).foldl (fun s q => s.setRg Rg.plotStat_LOST (4 * p + q) 0) s

/-- PLOT_CREATE. -/
def execPlotCreate (s : State) : Res :=
  .next (s.manage 0x01 [(8, 1)] (fun s q =>
    let p := fieldAt q 8 1
    if !isPlot p then s.refuse 2
    else if s.plotState p ≠ 0 then s.refuse 4
    else ((s.plotClear p).setPlot p 1).done))

/-- HBM_GRANT. -/
def execHbmGrant (s : State) : Res :=
  .next (s.manage 0x02 [(8, 1), (9, 1), (16, 8), (24, 8)] (fun s q =>
    let p := fieldAt q 8 1
    let i := fieldAt q 9 1
    let base := fieldAt q 16 8
    let len := fieldAt q 24 8
    if !isPlot p || decide (7 < i) || base % 2 ^ 21 != 0 || len % 2 ^ 21 != 0 || decide (s.hbmBytes < base + len) then s.refuse 2
    else
      let busy := (List.range 32).any (fun r => match s.ring p r with
        | some g => decide (2 ≤ g.kind)
        | none => false)
      if s.plotState p = 3 ∨ (s.plotState p = 1 ∧ busy = false) then
        let k := 8 * p + i
        let m := if len = 0 then s.host.grants.del k else s.host.grants.put k (base, len)
        { s with host := { s.host with grants := m } }.done
      else s.refuse 4))

/-- RING_CREATE. -/
def execRingCreate (s : State) : Res :=
  .next (s.manage 0x03 [(8, 1), (9, 1), (10, 1), (11, 1), (12, 1), (13, 1), (14, 1), (16, 8), (24, 2)] (fun s q =>
    let fn := fieldAt q 8 1
    let r := fieldAt q 9 1
    let st := fieldAt q 24 2
    let g : Ring := { kind := fieldAt q 10 1, log2 := fieldAt q 11 1, eq := fieldAt q 12 1, port := fieldAt q 13 1,
                      queue := fieldAt q 14 1, base := fieldAt q 16 8, u := st, f := st, p := st }
    if 127 < fn ∨ ringCount fn ≤ r ∨ 5 < g.kind ∨ g.log2 < 6 ∨ 15 < g.log2 ∨ eqCount fn ≤ g.eq ∨ 7 < g.port ∨ 127 < g.queue
        ∨ g.base % 64 ≠ 0 then s.refuse 2
    else if !s.fnExists fn then s.refuse 4
    else if (s.ring fn r).isSome ∨ (s.host.eqs.get? (fnKey fn g.eq)).isNone then s.refuse 3
    else (s.setRing fn r g).done))

/-- A ring is removed. -/
def State.delRing (s : State) (fn r : Nat) : State :=
  { s with host := { s.host with rings := s.host.rings.del (fnKey fn r) } }.showRing fn r

/-- RING_DESTROY. -/
def execRingDestroy (s : State) : Res :=
  .next (s.manage 0x04 [(8, 1), (9, 1)] (fun s q =>
    let fn := fieldAt q 8 1
    let r := fieldAt q 9 1
    if 127 < fn ∨ ringCount fn ≤ r then s.refuse 2
    else match s.ring fn r with
      | none => s.refuse 3
      | some g => if g.descs.isEmpty then (s.delRing fn r).done else s.refuse 3))

/-- RING_RESET. -/
def execRingReset (s : State) : Res :=
  .next (s.manage 0x05 [(8, 1), (9, 1), (10, 2)] (fun s q =>
    let fn := fieldAt q 8 1
    let r := fieldAt q 9 1
    let st := fieldAt q 10 2
    if 127 < fn ∨ ringCount fn ≤ r then s.refuse 2
    else match s.ring fn r with
      | none => s.refuse 3
      | some g =>
        if g.err ≠ 0 ∧ g.descs.isEmpty = true then
          (s.setRing fn r { g with err := 0, bell := none, u := st, f := st, p := st, doneIdx := [] }).done
        else s.refuse 3))

/-- EQ_CREATE. -/
def execEqCreate (s : State) : Res :=
  .next (s.manage 0x06 [(8, 1), (9, 1), (10, 1), (11, 1), (12, 1), (14, 2), (16, 8)] (fun s q =>
    let fn := fieldAt q 8 1
    let n := fieldAt q 9 1
    let e : EvQueue := { log2 := fieldAt q 10 1, vector := fieldAt q 11 1, modCount := fieldAt q 12 1, modTime := fieldAt q 14 2,
                         base := fieldAt q 16 8 }
    if 127 < fn ∨ eqCount fn ≤ n ∨ e.log2 < 6 ∨ 15 < e.log2 ∨ vecCount fn ≤ e.vector ∨ 1023 < e.modTime ∨ e.base % 4096 ≠ 0 then
      s.refuse 2
    else if !s.fnExists fn then s.refuse 4
    else if (s.host.eqs.get? (fnKey fn n)).isSome then s.refuse 3
    else
      ({ s with host := { s.host with eqs := s.host.eqs.put (fnKey fn n) e } }.setFn
        Rg.host_EQ_CI Rg.plotStat_EQ_CI fn n 4 0).done))

/-- A ring of a function names an event queue. -/
def State.eqNamed (s : State) (fn n : Nat) : Bool :=
  (List.range (ringCount fn)).any (fun r => ((s.ring fn r).map (fun (g : Ring) => g.eq)) == some n)

/-- EQ_DESTROY. -/
def execEqDestroy (s : State) : Res :=
  .next (s.manage 0x07 [(8, 1), (9, 1)] (fun s q =>
    let fn := fieldAt q 8 1
    let n := fieldAt q 9 1
    if 127 < fn ∨ eqCount fn ≤ n then s.refuse 2
    else if (s.host.eqs.get? (fnKey fn n)).isNone ∨ s.eqNamed fn n = true then s.refuse 3
    else { s with host := { s.host with eqs := s.host.eqs.del (fnKey fn n) } }.done))

/-! ## Streams, channels, regions, contexts and connections (R246, R378, R383) -/

/-- STREAM_WRITE. -/
def execStreamWrite (s : State) : Res :=
  .next (s.manage 0x08 [(8, 2), (32, 32)] (fun s q =>
    let n := fieldAt q 8 2
    let w := fieldAt q 32 32
    let e := s.ent n
    if 4096 ≤ n ∨ bits w 0 2 = 3 ∨ entOk w = false then s.refuse 2
    else if e.state ≠ 0 ∧ e.state ≠ 3 then s.refuse 3
    else (s.setEnt n (entOf w (if e.state = 3 then e.tokens else 0))).done))

/-- An entry that CHANNEL_SET may write. -/
def State.channelOk (s : State) (e : Nat) : Bool :=
  let fn := bits e 2 7
  bits e 28 36 == 0 && (match bits e 0 2 with
    | 0 => true
    | 1 => ((s.ring fn (bits e 9 6)).map (fun (g : Ring) => g.kind)) == some 1
    | 2 => decide (bits e 15 13 < 8192) && bits (s.readN (s.ctxAt (bits e 15 13)) 2) 4 7 == fn
    | _ => false)

/-- CHANNEL_SET. -/
def execChannelSet (s : State) : Res :=
  .next (s.manage 0x09 [(8, 2), (16, 8)] (fun s q =>
    let ch := fieldAt q 8 2
    let e := fieldAt q 16 8
    if 1024 ≤ ch ∨ s.channelOk e = false then s.refuse 2
    else { s with host := { s.host with channels := s.host.channels.set 0 ch e } }.done))

/-- Where a region entry lies. -/
def State.regionAt (s : State) (i : Nat) : Nat := kHub (s.rg Rg.eth_RRT_BASE * 2 ^ 17 + 32 * i)

/-- A region entry of a plot with its BASE made absolute; none where its grant space does not hold it in one piece. -/
def State.regionAbs (s : State) (w : Nat) : Option Nat :=
  let fn := bits w 192 7
  if fn = 0 ∨ bits w 0 2 ≠ 1 then some w
  else match grantSpans (s.grantsOf fn) (bits w 64 40) (bits w 128 40) with
    | some [(b, _)] => some (setBits w 64 40 b)
    | _ => none

/-- The zero bits of a region entry are zero. -/
def regionZero (w : Nat) : Bool :=
  bits w 6 10 == 0 && bits w 36 28 == 0 && bits w 104 24 == 0 && bits w 168 24 == 0 && bits w 199 57 == 0

/-- REGION_SET. An operation names an entry where a RoCEv2 message under way or a packet that is held for its turn does. -/
def execRegionSet (s : State) : Res :=
  .next (s.manage 0x0A [(8, 2), (32, 32)] (fun s q =>
    let i := fieldAt q 8 2
    let w := fieldAt q 32 32
    let used := s.eth.conns.any (fun (e : Nat × EthConn) => (decide (0 < e.2.msg) && e.2.dest.1 % 4096 == i)
      || e.2.held.any (fun p => (p.op == 1 || p.op == 5) && p.rkey % 4096 == i))
    if 4096 ≤ i ∨ regionZero w = false then s.refuse 2
    else if used then s.refuse 3
    else match s.regionAbs w with
      | none => s.refuse 2
      | some v => (s.writeN (s.regionAt i) 32 v).done))

/-- CTX_WRITE. RO fields of the argument are ignored. -/
def execCtxWrite (s : State) : Res :=
  .next (s.manage 0x0B [(8, 2), (64, 64)] (fun s q =>
    let k := fieldAt q 8 2
    let old := s.readN (s.ctxAt k) 64
    let w := setBits (setBits (fieldAt q 64 64) 0 2 0) 208 32 (bits old 208 32)
    if 8192 ≤ k then s.refuse 2
    else if (s.econn k).st ≠ 0 then s.refuse 3
    else (s.writeN (s.ctxAt k) 64 w).done))

/-- CTX_CMD, when the front request asks for the command. -/
def State.mgmtCtx (s : State) (op : Nat) : State :=
  match s.mrFront with
  | none => s
  | some (_, req) =>
    let o := fieldAt req 10 1
    if fieldAt req 0 1 = 0x0C ∧ (o = op ∨ (op = 1 ∧ (o = 0 ∨ 3 < o))) then
      s.manage 0x0C [(8, 2), (10, 1)] (fun s q =>
        let k := fieldAt q 8 2
        if 8192 ≤ k ∨ o = 0 ∨ 3 < o then s.refuse 2
        else
          let x := s.ctxCmd o k
          (0, x.1, leBytes 1 x.2))
    else s

/-- OPEN on a context, through its register or, with `mr`, as the front request of the management ring. -/
def execCtxOpen (k : Nat) (mr : Bool) (s : State) : Res :=
  if s.hubMainReset then .next s else if mr then .next (s.mgmtCtx 1) else .next (s.ctxReg 1 k)
/-- CLOSE on a context. -/
def execCtxClose (k : Nat) (mr : Bool) (s : State) : Res :=
  if s.hubMainReset then .next s else if mr then .next (s.mgmtCtx 2) else .next (s.ctxReg 2 k)
/-- CLEAR on a context. -/
def execCtxClear (k : Nat) (mr : Bool) (s : State) : Res :=
  if s.hubMainReset then .next s else if mr then .next (s.mgmtCtx 3) else .next (s.ctxReg 3 k)

/-- DCONN_OPEN. -/
def execDconnOpen (s : State) : Res :=
  .next (s.manage 0x0D [(8, 2), (10, 1), (11, 1), (12, 1), (13, 1)] (fun s q =>
    let cn := fieldAt q 8 2
    let fn := fieldAt q 10 1
    let k := connKey 2 cn
    if 4096 ≤ cn ∨ 127 < fn ∨ 2 < fieldAt q 12 1 ∨ 5 < fieldAt q 13 1 then s.refuse 2
    else if !s.fnExists fn then s.refuse 4
    else if (s.conn k).isOpen then s.refuse 3
    else (s.setConn k { peer := fieldAt q 11 1, engine := fieldAt q 12 1, vc := fieldAt q 13 1, func := fn, isOpen := true }).done))

/-- A programmed connection is closed; its operations end with cause 7. -/
def State.dconnClose (s : State) (k : Nat) : State :=
  let s := s.connEnd k 7
  { s with dv := { s.dv with send := s.dv.send.del k } }

/-- DCONN_CLOSE. -/
def execDconnClose (s : State) : Res :=
  .next (s.manage 0x0E [(8, 2)] (fun s q =>
    let cn := fieldAt q 8 2
    if 4096 ≤ cn then s.refuse 2
    else if (s.conn (connKey 2 cn)).isOpen then (s.dconnClose (connKey 2 cn)).done
    else s.refuse 3))

end Sys2Proof.Machine
end

