-- ==== Sys2Proof/Machine/Stash.lean ====
section
/-!
DEFINITION. Stash: drives, namespaces, volumes, commands and their pieces, arbitration, completion and faults (R397-R420).
-/
namespace Sys2Proof.Machine

/-! ## Drives and namespaces (R397-R401) -/

/-- DSTATE of a drive changes (R419). -/
def State.setDrive (s : State) (d st : Nat) : State :=
  if s.rg Rg.stash_DSTATE d = st then s
  else (s.setRg Rg.stash_DSTATE d st).sqRaise Rg.stash_DRV_EVT Rg.stash_DRV_SEQ 0 1

/-- Sector size of a namespace slot. -/
def State.sector (s : State) (n : Nat) : Nat := if s.flag Rg.stash_SECTOR4K n then 4096 else 512

/-- The unit of a slot in atomic-unit mode, in bytes. -/
def State.aunit (s : State) (n : Nat) : Option Nat :=
  if s.flag Rg.stash_ATOM n then some (2 ^ s.rg Rg.stash_AUNIT_LOG2 n) else none

/-- A slot is in service: its drive is ready and is the drive of the attach, with the namespace (R400, R412). -/
def State.slotServed (s : State) (n : Nat) : Bool :=
  let d := s.rg Rg.stash_NS_DRIVE n
  s.flag Rg.stash_NS_VALID n && s.rg Rg.stash_DSTATE d == 2 && s.stash.serial.get? d == s.stash.nsSerial.get? n
    && (s.stash.nsids.getD [] d).contains (s.rg Rg.stash_NSID n)

/-- The drive of a slot is failed or absent, or it is not the drive of the attach (R403, R412). One that initialises may still serve. -/
def State.slotFailed (s : State) (n : Nat) : Bool := s.rg Rg.stash_DSTATE (s.rg Rg.stash_NS_DRIVE n) != 1 && !s.slotServed n

/-- Stash serves: its domain is up, and the module is not in fuse-hold (R38). -/
def State.stashUp (s : State) : Bool := !s.hubMainReset && s.rg Rg.identity_SERVICE_LEVEL != 0

/-- OUTSTANDING of every drive shows what is at it. -/
def State.showDrives (s : State) : State :=
  (List.range 16).foldl (fun s d =>
    s.setRg Rg.stash_OUTSTANDING d (s.stash.atDrive.countP (fun x => x.2.drive == d))) s

/-- Stash's queues are replaced. -/
def State.setQueues (s : State) (waiting atDrive : List (Nat × Piece)) : State :=
  { s with stash := { s.stash with waiting := waiting, atDrive := atDrive } }.showDrives

/-! ## Commands (R402, R403, R404, R411) -/

/-- A command. -/
def State.stashCmd (s : State) (id : Nat) : Option StashCmd := s.stash.cmds.find? (fun c => c.id == id)

/-- A command is replaced. -/
def State.setStashCmd (s : State) (c : StashCmd) : State :=
  { s with stash := { s.stash with cmds := s.stash.cmds.map (fun x => if x.id = c.id then c else x) } }

/-- Bytes of the longest run of leading pieces that completed successfully. -/
def StashCmd.prefixBytes (c : StashCmd) : Nat → List Nat → Nat
  | _, [] => 0
  | i, n :: t => if c.ended.get? i = some 1 then n + StashCmd.prefixBytes c (i + 1) t else 0

/-- The cause of the first piece that failed, or that which stopped the command. -/
def StashCmd.cause (c : StashCmd) : Nat :=
  match c.ended.find? (fun (e : Nat × Nat) => e.2 != 1) with
  | some e => e.2 - 1
  | none => c.stop - 1

/-- Bytes of a range that a READ leaves undefined (R411). -/
def State.loseLocal (s : State) (fn aspace addr n : Nat) : State :=
  if aspace = 0 ∨ n = 0 then s else s.drawn.localWrite fn aspace addr ((List.range n).map (Config.freeByte s.freeCtr))

/-- A piece passes through the Stash buffer: what hub SRAM holds there is not stated (R405; log entry 145). -/
def State.loseBuffer (s : State) : State :=
  let b := kHub (s.rg Rg.stash_BUF_BASE * 2 ^ 20)
  s.loseRange b (b + 16 * 2 ^ 20)

/-- A command completes once none of its pieces waits or is at a drive; what a READ was to bring beyond the leading pieces that
completed is undefined (R411, R415). -/
def State.stashEnd (s : State) (id : Nat) : State :=
  match s.stashCmd id with
  | none => s
  | some c =>
    if s.stash.waiting.any (fun x => x.2.cmd == id) || s.stash.atDrive.any (fun x => x.2.cmd == id) then s
    else
      let total := c.lens.foldl (· + ·) 0
      let n := c.prefixBytes 0 c.lens
      let ok := c.stop == 0 && c.ended.all (fun (e : Nat × Nat) => e.2 == 1)
      let st := if ok || (n == total && total != 0) then 0 else if n = 0 then 2 else 1
      let s := { s with stash := { s.stash with cmds := s.stash.cmds.filter (fun x => x.id != id) } }
      let s := if c.kind = 0 then s.loseLocal c.fn c.aspace (c.addr + n) (total - n) else s
      { s with dv := { s.dv with ended := s.dv.ended ++
        [{ owner := c.owner, state := st, cause := if st = 0 then 0 else c.cause, bytes := n }] } }

/-- No more of a command is submitted; its waiting pieces are discarded. -/
def State.stashStop (s : State) (id cause : Nat) : State :=
  match s.stashCmd id with
  | none => s
  | some c =>
    let s := s.setStashCmd { c with stop := if c.stop = 0 then cause + 1 else c.stop }
    (s.setQueues (s.stash.waiting.filter (fun x => x.2.cmd != id)) s.stash.atDrive).stashEnd id

/-- A piece that waits or is at a drive ends with a cause, 0 for success. -/
def State.pieceEnd (s : State) (p : Piece) (cause : Nat) : State :=
  let gone (l : List (Nat × Piece)) : List (Nat × Piece) := l.filter (fun x => !(x.2.cmd == p.cmd && x.2.idx == p.idx))
  let s := s.setQueues (gone s.stash.waiting) (gone s.stash.atDrive)
  let s := if cause = 0 then s else s.satRg Rg.stash_PIECE_ERRS p.drive 1
  match s.stashCmd p.cmd with
  | none => s
  | some c =>
    let s := s.setStashCmd { c with ended := c.ended.put p.idx (cause + 1) }
    if cause = 0 then s.stashEnd p.cmd else s.stashStop p.cmd cause

/-- The LBA ranges into which bytes [b, e) of a namespace are cut at multiples of a piece size. -/
def cutPieces (size : Nat) (b e : Nat) : List (Nat × Nat) :=
  let n := if b < e then (e - 1) / size - b / size + 1 else 0
  (List.range n).map (fun i =>
    let lo := max b ((b / size + i) * size)
    let hi := min e ((b / size + i + 1) * size)
    (lo, hi - lo))

/-- The piece size of a slot (R404). -/
def State.pieceSize (s : State) (n : Nat) : Nat :=
  (s.aunit n).getD (2 ^ min (s.rg Rg.stash_PIECE_LOG2) (s.rg Rg.stash_MDTS_LOG2 (s.rg Rg.stash_NS_DRIVE n)))

/-- The cause of the first check of R403 that a descriptor of a user fails, 0 where it passes. `kind` 0 READ, 1 WRITE,
2 ZERO, 3 FLUSH; `user` is 128 for the firmware, whose memory rights are the manager's. -/
def State.stashCheck (s : State) (user kind : Nat) (b : List Byte) : Nat :=
  let fields := match kind with
    | 2 => [(9, 1), (10, 1), (12, 2), (24, 8), (32, 4)]
    | 3 => [(9, 1), (12, 2)]
    | _ => [(8, 1), (9, 1), (10, 1), (12, 2), (16, 8), (24, 8), (32, 4)]
  let v := fieldAt b 12 2
  let n := s.rg Rg.stash_V_SLOT v
  let lba := fieldAt b 24 8
  let blocks := fieldAt b 32 4
  let bytes := blocks * s.sector n
  let fn := if user = 128 then 0 else user
  let first := (s.rg Rg.stash_V_FIRST v + lba) * s.sector n
  let short := match s.aunit n with
    | none => false
    | some u => decide (bytes ≤ u) && first / u != (first + bytes - 1) / u
  if !zeroBytes b fields || decide (4 < fieldAt b 9 1) || fieldAt b 16 8 % 4 != 0 || decide (1 < fieldAt b 10 1)
      || (decide (kind < 2) && decide (3 < fieldAt b 8 1)) then 14
  else if 256 ≤ v ∨ s.flag Rg.stash_V_VALID v = false ∨ s.rg Rg.stash_V_OWNER v ≠ user
      ∨ ((kind = 1 ∨ kind = 2) ∧ s.flag Rg.stash_V_RO v = true) then 16
  else if kind < 3 ∧ (blocks = 0 ∨ 2 ^ 30 < bytes ∨ s.rg Rg.stash_V_COUNT v < lba + blocks) then 17
  else if (kind = 1 ∨ kind = 2) ∧ short = true then 15
  else if kind < 2 ∧ (s.localSpans fn (fieldAt b 8 1) (fieldAt b 16 8) bytes).isNone then 12
  else if s.slotFailed n then 18
  else 0

/-- A descriptor that passes R403 is accepted: its pieces join their drive's queues (R404, R406, R408). -/
def State.stashAccept (s : State) (owner : Owner) (user kind : Nat) (b : List Byte) : State :=
  let v := fieldAt b 12 2
  let n := s.rg Rg.stash_V_SLOT v
  let sec := s.sector n
  let start := (s.rg Rg.stash_V_FIRST v + fieldAt b 24 8) * sec
  let d := s.rg Rg.stash_NS_DRIVE n
  let id := s.stash.nextId
  let blank : Piece := { cmd := id, idx := 0, drive := d, slot := n, kind := kind, cls := fieldAt b 9 1, lba := 0, blocks := 0,
                         bytes := 0, force := bitN (fieldAt b 10 1) 0 }
  let ps : List Piece :=
    if kind = 3 then [blank]
    else (cutPieces (s.pieceSize n) start (start + fieldAt b 32 4 * sec)).mapIdx (fun i x =>
      { blank with idx := i, lba := x.1 / sec, blocks := x.2 / sec, bytes := x.2 })
  let c : StashCmd := { id := id, owner := owner, kind := kind, fn := if user = 128 then 0 else user, aspace := fieldAt b 8 1,
                        addr := fieldAt b 16 8, volume := v, lens := ps.map (fun p => p.bytes), after := s.stash.seq, slot := n }
  { s with stash := { s.stash with
    nextId := id + 1, cmds := s.stash.cmds ++ [c], seq := s.stash.seq + ps.length,
    waiting := s.stash.waiting ++ ps.mapIdx (fun i p => (s.stash.seq + i, p)) } }

/-- A ring is the first, in the round-robin of the STASH rings, that has a descriptor to accept (R406). -/
def State.stashTurn (s : State) (fn r : Nat) : Bool :=
  let ready := (s.host.rings.filter (fun (e : Nat × Ring) => e.2.kind == 4 && e.2.nextDesc.isSome)).map (fun (e : Nat × Ring) => e.1)
  (ready.find? (fun k => decide (s.stash.ringTurn ≤ k))).getD (ready.headD 0) == fnKey fn r

/-- The next descriptor of a STASH ring is checked and accepted, or completes not started (R402, R403); a ring waits for its turn. -/
def State.stashRing (s : State) (fn r kind : Nat) : State :=
  if !s.stashTurn fn r then s
  else match s.beginDesc fn r 4 (0x30 + kind) [0x30, 0x31, 0x32, 0x33] with
  | .inl s => s
  | .inr (s, _, d) =>
    let s := { s with stash := { s.stash with ringTurn := fnKey fn r + 1 } }
    match s.stashCheck fn kind d.bytes with
    | 0 => s.stashAccept (.desc fn r d.idx) fn kind d.bytes
    | c => s.endDesc fn r d.idx 2 c 0

/-- A READ descriptor. -/
def execStashRead (fn r : Nat) (s : State) : Res := if s.stashUp then .next (s.stashRing fn r 0) else .next s
/-- A WRITE descriptor. -/
def execStashWrite (fn r : Nat) (s : State) : Res := if s.stashUp then .next (s.stashRing fn r 1) else .next s
/-- A ZERO descriptor. -/
def execStashZero (fn r : Nat) (s : State) : Res := if s.stashUp then .next (s.stashRing fn r 2) else .next s
/-- A FLUSH descriptor. -/
def execStashFlush (fn r : Nat) (s : State) : Res := if s.stashUp then .next (s.stashRing fn r 3) else .next s

/-- A descriptor of the firmware's own, on a volume of OWNER 128 (R401); one that fails a check ends at once. -/
def State.stashFirmware (s : State) (owner : Owner) (kind cls : Nat) (force : Bool) (volume aspace addr lba blocks : Nat) :
    State :=
  let b := leBytes 1 (0x30 + kind) ++ leBytes 7 0 ++ leBytes 1 aspace ++ leBytes 1 cls ++ leBytes 1 (ofBool force) ++ leBytes 1 0
    ++ leBytes 2 volume ++ leBytes 2 0 ++ leBytes 8 addr ++ leBytes 8 lba ++ leBytes 4 blocks ++ leBytes 28 0
  match s.stashCheck 128 kind b with
  | 0 => s.stashAccept owner 128 kind b
  | c => { s with dv := { s.dv with ended := s.dv.ended ++ [{ owner := owner, state := 2, cause := c, bytes := 0 }] } }

/-! ## Arbitration (R405-R407) -/

/-- Two pieces name the same namespace. -/
def State.sameNs (s : State) (p q : Piece) : Bool := p.drive == q.drive && s.rg Rg.stash_NSID p.slot == s.rg Rg.stash_NSID q.slot

/-- A write: WRITE or ZERO. -/
def Piece.writes (p : Piece) : Bool := p.kind == 1 || p.kind == 2

/-- Two pieces conflict (R406). -/
def State.conflict (s : State) (p q : Piece) : Bool :=
  s.sameNs p q && (p.writes || q.writes) && decide (p.lba < q.lba + q.blocks) && decide (q.lba < p.lba + p.blocks)

/-- A waiting piece may be submitted (R406, R408). -/
def State.permitted (s : State) (x : Nat × Piece) : Bool :=
  if x.2.kind = 3 then
    !((s.stash.waiting ++ s.stash.atDrive).any (fun y => decide (y.1 < x.1) && y.2.writes && s.sameNs x.2 y.2))
  else
    !(s.stash.atDrive.any (fun y => s.conflict x.2 y.2))
      && !(s.stash.waiting.any (fun y => decide (y.1 < x.1) && y.2.cls == x.2.cls && s.conflict x.2 y.2))

/-- The oldest permitted piece of a class at a drive. -/
def State.oldest (s : State) (d cls : Nat) : Option (Nat × Piece) :=
  s.stash.waiting.find? (fun x => x.2.drive == d && x.2.cls == cls && s.permitted x)

/-- Deficit round robin over C0 to C3: the class in turn is `turn / 2`, and its visit has been credited when `turn` is odd.
What is picked, with the deficits and the turn that follow. -/
def State.drr (s : State) (d : Nat) : Nat → Cells Nat → Nat → Option ((Nat × Piece) × Cells Nat × Nat)
  | 0, _, _ => none
  | fuel + 1, def_, turn =>
    let c := turn / 2 % 4
    let k := 4 * d + c
    let next := 2 * ((c + 1) % 4)
    match s.oldest d (c + 1) with
    | none => State.drr s d fuel (def_.set 0 k 0) next
    | some x =>
      let have_ := if turn % 2 = 1 then def_.getD 0 k else def_.getD 0 k + s.rg Rg.stash_W_C c * 4096
      if x.2.bytes ≤ have_ then some (x, def_.set 0 k (have_ - x.2.bytes), 2 * c + 1)
      else State.drr s d fuel (def_.set 0 k have_) next

/-- Bytes of the Stash buffer that are reserved. -/
def State.bufferUsed (s : State) : Nat :=
  s.stash.atDrive.foldl (fun a x => if x.2.kind < 2 then a + x.2.bytes else a) 0

/-- Offset of a piece in its command's memory range. -/
def StashCmd.offset (c : StashCmd) (i : Nat) : Nat := (c.lens.take i).foldl (· + ·) 0

/-- A piece goes to its drive under the completion rule in force (R408, R409). -/
def State.submit (s : State) (x : Nat × Piece) (data : List Byte) : State :=
  let service := s.rg Rg.stash_MODE == 0
  let p := { x.2 with
    data := data, service := service, fua := x.2.writes && s.flag Rg.stash_VWC x.2.drive && (service || x.2.force) }
  (s.setQueues (s.stash.waiting.filter (fun y => y.1 != x.1)) (s.stash.atDrive ++ [(x.1, p)])).emit (.nvme p.drive p)

/-- The arbiter picks the next permitted piece of a drive with room; a WRITE's bytes are read first, `dma` for host memory. -/
def execPieceSubmit (d : Nat) (dma : List Byte) (s : State) : Res :=
  if !s.stashUp || s.rg Rg.stash_DSTATE d != 2 || decide (s.rg Rg.stash_QD ≤ s.stash.atDrive.countP (fun x => x.2.drive == d)) then
    .next s
  else
    let urgent := s.stash.atDrive.countP (fun x => x.2.drive == d && x.2.cls == 0)
    let pick : Option ((Nat × Piece) × Cells Nat × Nat) :=
      match (if urgent < s.rg Rg.stash_URG_MAX then s.oldest d 0 else none) with
      | some x => some (x, s.stash.deficit, s.stash.turn.getD 0 d)
      | none => s.drr d 4096 s.stash.deficit (s.stash.turn.getD 0 d)
    match pick with
    | none => .next s
    | some (x, def_, turn) =>
      match s.stashCmd x.2.cmd with
      | none => .next s
      | some c =>
        if x.2.kind < 2 ∧ 16 * 2 ^ 20 < s.bufferUsed + x.2.bytes then .next s
        else
          let s := { s with stash := { s.stash with deficit := def_, turn := s.stash.turn.set 0 d turn } }
          match (if x.2.kind = 1 then s.localRead c.fn c.aspace (c.addr + c.offset x.2.idx) x.2.bytes dma else some []) with
          | none => .next (s.pieceEnd x.2 12)
          | some bs => .next ((if x.2.kind = 1 then s.loseBuffer else s).submit x bs)

/-! ## Completion, timeouts and failures (R409-R413) -/

/-- A drive posts a piece's completion with a status code type and code; a READ brings its bytes, which go to their
destination once it takes them; `par` is a parity error in the Stash buffer. -/
def execPieceComplete (cmd idx sct sc : Nat) (data : List Byte) (par : Bool) (s : State) : Res :=
  match s.stash.atDrive.find? (fun x => x.2.cmd == cmd && x.2.idx == idx), s.stashCmd cmd with
  | some (_, p), some c =>
    let at_ := c.addr + c.offset idx
    if p.aborting then .next (s.pieceEnd p 20)
    else if sct = 2 ∧ (sc = 0x81 ∨ sc = 0x80) then .next (s.pieceEnd p 19)
    else if sct ≠ 0 ∨ sc ≠ 0 then
      .next (((s.setRg Rg.stash_LAST_SCT p.drive sct).setRg Rg.stash_LAST_SC p.drive sc).pieceEnd p 21)
    else if par then
      let r : FaultRec := { cls := 2, unit := 14, index := 0, check := 0, beat := s.rg Rg.beat_BEATNO }
      .next (((s.countReport r).logPair r 0 0).pieceEnd p 22)
    else if p.kind = 0 then
      (if s.writeWaits c.fn c.aspace at_ p.bytes then .next s
       else .next (((s.loseBuffer.localWrite c.fn c.aspace at_ ((data ++ List.replicate p.bytes 0).take p.bytes)).incRg
         Rg.stash_READ_BYTES p.drive p.bytes).pieceEnd p 0))
    else if p.writes then .next ((s.incRg Rg.stash_WRITE_BYTES p.drive p.bytes).pieceEnd p 0)
    else .next (s.pieceEnd p 0)
  | _, _ => .next s

/-- A piece has been outstanding for CMD_TIMEOUT_MS: it is aborted. -/
def execPieceTimeout (cmd idx : Nat) (s : State) : Res :=
  match s.stash.atDrive.find? (fun x => x.2.cmd == cmd && x.2.idx == idx) with
  | none => .next s
  | some (n, p) =>
    if p.aborting then .next s
    else
      let at_ := s.stash.atDrive.map (fun x => if x.1 = n then (n, { p with aborting := true }) else x)
      .next (((s.setQueues s.stash.waiting at_).satRg Rg.stash_TIMEOUTS p.drive 1).emit (.nvmeAbort p.drive false))

/-- Every listed piece ends with a cause: those that the end of their command has discarded meanwhile have failed too. -/
def State.pieceFail (s : State) (ps : List (Nat × Piece)) (cause : Nat) : State :=
  ps.foldl (fun s x =>
    if s.stash.waiting.any (fun y => y.1 == x.1) || s.stash.atDrive.any (fun y => y.1 == x.1) then s.pieceEnd x.2 cause
    else s.satRg Rg.stash_PIECE_ERRS x.2.drive 1) s

/-- An Abort has not completed within 1 s: the drive's controller is reset, and the drive is initialised again. -/
def execAbortTimeout (d : Nat) (s : State) : Res :=
  if s.stash.atDrive.any (fun x => x.2.drive == d && x.2.aborting) then
    .next (((s.pieceFail (s.stash.atDrive.filter (fun x => x.2.drive == d)) 20).setDrive d 1).emit (.nvmeAbort d true))
  else .next s

/-- A drive fails: 0 link down or removed, 1 controller fatal, 2 initialisation, 3 reset failed (R412, R418). -/
def execDriveFail (d cause : Nat) (s : State) : Res :=
  if !s.stashUp || !(s.rg Rg.stash_DSTATE d == 1 || s.rg Rg.stash_DSTATE d == 2) then .next s
  else
    let ps := (s.stash.atDrive ++ s.stash.waiting).filter (fun x => x.2.drive == d)
    let s := (s.pieceFail ps 18).setDrive d 3
    let r : FaultRec := { cls := 2, unit := 9, index := s.rg Rg.stash_DPORT d, check := 10, beat := s.rg Rg.beat_BEATNO }
    .next (((s.event 0x0501 (d + cause * 2 ^ 4 + ps.length * 2 ^ 32)).countReport r).logPair r 0 0)

/-- A drive completes its initialisation; pieces that wait for a slot whose attach it does not match fail (R399, R412). -/
def execDriveReady (d : Nat) (x : DriveId) (s : State) : Res :=
  if !s.stashUp || s.rg Rg.stash_DSTATE d != 1 then .next s
  else
    let s := ((s.setDrive d 2).setRg Rg.stash_VWC d (ofBool x.vwc)).setRg Rg.stash_MDTS_LOG2 d (max 12 (min 20 x.mdts))
    let s := { s with stash := { s.stash with
      serial := s.stash.serial.put d x.serial, nsids := s.stash.nsids.put d x.nsids,
      identify := s.stash.identify.put d x.identify } }
    let s := s.pieceFail (s.stash.waiting.filter (fun x => x.2.drive == d && s.slotFailed x.2.slot)) 18
    .next (s.event 0x0500 (d + s.rg Rg.stash_DPORT d * 2 ^ 4 + s.rg Rg.stash_DRATE d * 2 ^ 6 + s.rg Rg.stash_DWIDTH d * 2 ^ 8
      + s.rg Rg.stash_BDF d * 2 ^ 16))

/-! ## MODE (R409, R410) -/

/-- MODE_CUR changes, with its event. -/
def State.modeCur (s : State) (m : Nat) : State :=
  if s.rg Rg.stash_MODE_CUR = m then s else (s.setRg Rg.stash_MODE_CUR 0 m).event 0x0502 m

/-- MODE is set: a change to SERVICE waits for R410, any other is at once. -/
def State.setMode (s : State) (m : Nat) : State :=
  let old := s.rg Rg.stash_MODE
  let s := s.setRg Rg.stash_MODE 0 m
  if m = 0 then (if old = 0 then s else { s with stash := { s.stash with modePend := true } })
  else { s with stash := { s.stash with modePend := false } }.modeCur m

/-- MODE is written. -/
def execStashModeWrite (m : Nat) (s : State) : Res := if s.hubMainReset then .next s else .next (s.setMode m)

/-- The FORCE 0 pieces that were at a drive have completed, and so have the flushes that follow them. -/
def execStashServiceFlushed (s : State) : Res :=
  if !s.stash.modePend || s.stash.atDrive.any (fun x => x.2.writes && !x.2.force && !x.2.service) then .next s
  else
    let ns := (List.range 32).filter (fun n => s.slotServed n && s.flag Rg.stash_VWC (s.rg Rg.stash_NS_DRIVE n))
    let s := ns.foldl (fun s n =>
      let d := s.rg Rg.stash_NS_DRIVE n
      s.emit (.nvme d { cmd := 0, idx := 0, drive := d, slot := n, kind := 3, cls := 0, lba := 0, blocks := 0, bytes := 0 })) s
    .next ({ s with stash := { s.stash with modePend := false } }.modeCur 0)

/-! ## Management commands (R400, R401, R417) -/

/-- The reason of the first check of R400 that fails, 0 where the attach may go on. -/
def State.attachReason (s : State) (d atom log2 nsid : Nat) (ns : Option NsInfo) : Nat :=
  if s.rg Rg.stash_DSTATE d ≠ 2 then 1
  else match ns with
    | none => 2
    | some x =>
      let unit := 2 ^ log2
      if !(s.stash.nsids.getD [] d).contains nsid then 2
      else if x.metadata ∨ (x.size ≠ 512 ∧ x.size ≠ 4096) then 3
      else if atom = 0 then 0
      else if x.unit * x.size < unit then 4
      else if x.boundary % (unit / x.size) ≠ 0 then 5
      else if 2 ^ s.rg Rg.stash_MDTS_LOG2 d < unit then 6
      else 0

/-- STASH_ATTACH; `ns` is what the drive reports of the namespace. -/
def execStashAttach (ns : Option NsInfo) (s : State) : Res :=
  .next (s.manage 0x20 [(8, 1), (9, 1), (10, 1), (11, 1), (12, 4)] (fun s q =>
    let n := fieldAt q 8 1
    let d := fieldAt q 9 1
    let atom := fieldAt q 10 1
    let log2 := fieldAt q 11 1
    let nsid := fieldAt q 12 4
    if 31 < n ∨ 15 < d ∨ 1 < atom ∨ (atom = 1 ∧ (log2 < 12 ∨ 18 < log2)) then s.refuse 2
    else if s.flag Rg.stash_NS_VALID n then s.refuse 3
    else match s.attachReason d atom log2 nsid ns, ns with
      | 0, some x =>
        let s := ((s.setRg Rg.stash_NS_VALID n 1).setRg Rg.stash_NS_DRIVE n d).setRg Rg.stash_ATOM n atom
        let s := ((s.setRg Rg.stash_AUNIT_LOG2 n (atom * log2)).setRg Rg.stash_SECTOR4K n (ofBool (x.size == 4096))).setRg
          Rg.stash_NSID n nsid
        let s := s.setRg Rg.stash_NS_LBAS n x.blocks
        { s with stash := { s.stash with nsSerial := s.stash.nsSerial.put n (s.stash.serial.getD 0 d) } }.done
      | r, _ => (7, s, leBytes 1 r)))

/-- STASH_DETACH. -/
def execStashDetach (s : State) : Res :=
  .next (s.manage 0x21 [(8, 1)] (fun s q =>
    let n := fieldAt q 8 1
    let used := (List.range 256).any (fun v => s.flag Rg.stash_V_VALID v && s.rg Rg.stash_V_SLOT v == n)
    if 31 < n then s.refuse 2
    else if !s.flag Rg.stash_NS_VALID n || used then s.refuse 3
    else
      let s := [Rg.stash_NS_VALID, Rg.stash_NS_DRIVE, Rg.stash_ATOM, Rg.stash_AUNIT_LOG2, Rg.stash_SECTOR4K, Rg.stash_NSID,
        Rg.stash_NS_LBAS].foldl (fun s f => s.setRg f n 0) s
      { s with stash := { s.stash with nsSerial := s.stash.nsSerial.del n } }.done))

/-- VOLUME_SET. -/
def execVolumeSet (s : State) : Res :=
  .next (s.manage 0x22 [(8, 2), (10, 1), (11, 1), (12, 1), (16, 8), (24, 8)] (fun s q =>
    let v := fieldAt q 8 2
    let n := fieldAt q 10 1
    let first := fieldAt q 16 8
    let count := fieldAt q 24 8
    let set (s : State) (ok : Nat) : State :=
      let s := ((s.setRg Rg.stash_V_VALID v ok).setRg Rg.stash_V_SLOT v (ok * n)).setRg Rg.stash_V_OWNER v (ok * fieldAt q 11 1)
      ((s.setRg Rg.stash_V_RO v (ok * fieldAt q 12 1)).setRg Rg.stash_V_FIRST v (ok * first)).setRg Rg.stash_V_COUNT v (ok * count)
    let unitOk := match s.aunit n with
      | none => true
      | some u => first % (u / s.sector n) == 0
    if 255 < v ∨ 31 < n ∨ 128 < fieldAt q 11 1 ∨ 1 < fieldAt q 12 1 then s.refuse 2
    else if s.stash.cmds.any (fun c => c.volume == v) then s.refuse 3
    else if count = 0 then (set s 0).done
    else if !s.flag Rg.stash_NS_VALID n then s.refuse 3
    else if s.rg Rg.stash_NS_LBAS n < first + count ∨ unitOk = false then s.refuse 2
    else (set s 1).done))

/-- The root ports and drives are enumerated: the drives found in order of port, bus and device (R397); pieces that wait for one that is
gone fail. -/
def State.rescan (s : State) (found : List DriveInfo) : State :=
  let free := (List.range 32).all (fun n => !s.flag Rg.stash_NS_VALID n)
  let s := if free then { s with stash := { s.stash with ports := s.rg Rg.stash_PORTS } } else s
  let s := { s with stash := { s.stash with serial := [], nsids := [], identify := [] } }
  let s := (s.setRg Rg.stash_DRIVES 0 (min 16 found.length)).setRg Rg.stash_EXCESS 0
    (satAdd 8 (s.rg Rg.stash_EXCESS) (found.length - 16))
  (List.range 16).foldl (fun s d =>
    match found[d]? with
    | none => (s.pieceFail (s.stash.waiting.filter (fun x => x.2.drive == d)) 18).setDrive d 0
    | some x =>
      let s := ((s.setRg Rg.stash_DPORT d x.port).setRg Rg.stash_DRATE d x.rate).setRg Rg.stash_DWIDTH d x.width
      (s.setRg Rg.stash_BDF d x.bdf).setDrive d 1) s

/-- STASH_RESCAN, or, without `mr`, the enumeration that the hub firmware makes when Stash starts. -/
def execStashRescan (mr : Bool) (found : List DriveInfo) (s : State) : Res :=
  if mr then
    .next (s.manage 0x23 [] (fun s _ =>
      if s.stash.atDrive.any (fun x => s.rg Rg.stash_DSTATE x.2.drive != 3) then s.refuse 3 else (s.rescan found).done))
  else if s.stashUp && s.rg Rg.stash_DRIVES == 0 then .next (s.rescan found) else .next s

/-- STASH_IDENTIFY. -/
def execStashIdentify (s : State) : Res :=
  .next (s.manage 0x24 [(8, 1), (16, 8)] (fun s q =>
    let d := fieldAt q 8 1
    let o := fieldAt q 16 8
    if 15 < d ∨ 0x3C0000 < o + 4096 then s.refuse 2
    else if s.rg Rg.stash_DSTATE d ≠ 2 then s.refuse 3
    else (s.writeB (kMgmt (0x40000 + o)) ((s.stash.identify.getD [] d ++ List.replicate 4096 0).take 4096)).done))

end Sys2Proof.Machine
end

