-- ==== Sys2Proof/Machine/Cipher.lean ====
section
/-!
DEFINITION. The cipher block: scheduler, key derivation, the six operations, register mode, its lock, and signing (R421-R443).
-/
namespace Sys2Proof.Machine

/-! ## Keys (R424, R427, R439) -/

/-- The fused root key: fuse words 0x10 to 0x17 in ascending order, each little-endian. -/
def State.rootKey (s : State) : List Byte := (List.range 8).flatMap (fun i => leBytes 4 (s.fw.fuses.getD 0 (0x10 + i)))

/-- A derived key of `bits` bits. -/
def State.deriveKey (s : State) (label : List Byte) (usage kind num bits : Nat) : List Byte :=
  (List.range (bits / 128)).flatMap (fun i =>
    cmac s.rootKey (beBytes 4 (i + 1) ++ (label ++ List.replicate 32 0).take 32 ++ [0] ++ leBytes 1 usage ++ leBytes 1 kind
      ++ leBytes 1 num ++ List.replicate 13 0 ++ beBytes 4 bits))

/-- A label-table entry of 64 bytes. -/
def State.labelEntry (s : State) (i : Nat) : List Byte := s.readB (kHub (s.rg Rg.cipher_LBL_BASE * 2 ^ 18 + 64 * i)) 64

/-- The OPs of a cipher ring. -/
def cipherOps : List Nat := [0x40, 0x41, 0x42, 0x43, 0x44, 0x45]

/-- USAGE of an OP. -/
def usageOf (op : Nat) : Nat := if op < 0x44 then 1 else 2

/-! ## The scheduler (R423) -/

/-- The lowest-numbered free working core. -/
def State.freeCipher (s : State) : Option Nat :=
  (List.range 8).find? (fun c => bitN (s.rg Rg.cipher_CORE_WORKING) c && (s.cipher.jobs.get? c).isNone)

/-- A job is put on a core. -/
def State.setJob (s : State) (c : Nat) (j : CipherJob) : State :=
  { s with cipher := { s.cipher with jobs := s.cipher.jobs.put c j } }

/-- The keys of the CIPHER rings whose next descriptor waits to start. -/
def State.cipherRings (s : State) : List Nat :=
  (s.host.rings.filter (fun (g : Nat × Ring) => g.2.kind == 5 && g.2.nextDesc.isSome)).map (fun (g : Nat × Ring) => g.1)

/-- A descriptor of a CIPHER ring starts on a core: its label entry is read; an OP of another kind has ended already. -/
def State.assignRing (s : State) (c key : Nat) : State :=
  let fn := key / 64
  let r := key % 64
  match s.ring fn r with
  | none => s
  | some g =>
    match g.nextDesc with
    | none => s
    | some d =>
      let s := s.setRing fn r (g.setDesc { d with started := true })
      let s := { s with cipher := { s.cipher with rr := key } }
      let op := fieldAt d.bytes 0 1
      s.setJob c { image := d.bytes, label := s.labelEntry (fieldAt d.bytes 12 2), kind := if fn = 0 then 0 else 1, num := fn,
                   desc := some (fn, r, d.idx), result := if cipherOps.contains op then none else some (2, 14, 0, false) }

/-- The scheduler gives the lowest-numbered free core the register-mode command, or the next ring's next command. -/
def execCipherAssign (s : State) : Res :=
  match s.freeCipher with
  | none => .next s
  | some c =>
    if s.hubMainReset then .next s
    else match s.cipher.go with
    | some j =>
      let op := fieldAt j.image 0 1
      let s := { s with cipher := { s.cipher with go := none } }
      .next (s.setJob c { j with result := if cipherOps.contains op then none else some (2, 14, 0, false) })
    | none =>
      let l := s.cipherRings
      match (l.filter (fun k => decide (s.cipher.rr < k))).head?, l.head? with
      | some k, _ => .next (if s.hostUp then s.assignRing c k else s)
      | none, some k => .next (if s.hostUp then s.assignRing c k else s)
      | none, none => .next s

/-! ## A command's fields and its checks (R428, R430, R435) -/

/-- The fields of a command image. -/
structure CipherArgs where
  op : Nat
  sspace : Nat
  dspace : Nat
  aspace : Nat
  tlen : Nat
  saddr : Nat
  daddr : Nat
  aaddr : Nat
  plen : Nat
  alen : Nat
  iv : List Byte

/-- The fields of an image. -/
def cipherArgs (b : List Byte) : CipherArgs :=
  { op := fieldAt b 0 1, sspace := fieldAt b 8 1, dspace := fieldAt b 9 1, aspace := fieldAt b 10 1, tlen := fieldAt b 14 1,
    saddr := fieldAt b 16 8, daddr := fieldAt b 24 8, aaddr := fieldAt b 32 8, plen := fieldAt b 40 4, alen := fieldAt b 44 4,
    iv := (b.drop 48).take 12 }

/-- The operation is of GCM, with associated data. -/
def CipherArgs.gcm (a : CipherArgs) : Bool := decide (a.op < 0x42)

/-- It verifies a MAC. -/
def CipherArgs.verifies (a : CipherArgs) : Bool := a.op == 0x43 || a.op == 0x45

/-- Bytes at SADDR: the payload, and the tag of a GCM_DEC. -/
def CipherArgs.inLen (a : CipherArgs) : Nat := if a.op = 0x41 then a.plen + a.tlen else a.plen

/-- Bytes at DADDR. -/
def CipherArgs.outLen (a : CipherArgs) : Nat := if a.op = 0x40 then a.plen + a.tlen else if a.op = 0x41 then a.plen else a.tlen

/-- The function whose memory rights a job has: those of the manager in register mode. -/
def CipherJob.fn (j : CipherJob) : Nat := match j.desc with
  | some d => d.1
  | none => 0

/-- The spans of a range of a job; register mode has HBM and hub SRAM only. -/
def State.jobSpans (s : State) (j : CipherJob) (space addr n : Nat) : Option (List (Nat × Nat)) :=
  if j.desc.isNone ∧ space ≠ 1 ∧ space ≠ 3 then none else s.localSpans j.fn space addr n

/-- Spans of one space share a byte. -/
def spansMeet (x y : List (Nat × Nat)) : Bool :=
  x.any (fun p => y.any (fun q => p.2 != 0 && q.2 != 0 && decide (p.1 < q.1 + q.2) && decide (q.1 < p.1 + p.2)))

/-- The output overlaps an input range without being identical to it. -/
def State.badOverlap (s : State) (j : CipherJob) (a : CipherArgs) (space addr n : Nat) : Bool :=
  space == a.dspace && spansMeet ((s.jobSpans j space addr n).getD []) ((s.jobSpans j a.dspace a.daddr a.outLen).getD [])
    && !(addr == a.daddr && (n == a.outLen || (a.gcm && space == a.sspace && addr == a.saddr && n == a.inLen)))

/-- The cause of the first check that a command fails, 0 where it passes. -/
def State.cipherCheck (s : State) (j : CipherJob) : Nat :=
  let a := cipherArgs j.image
  let fields := [(8, 1), (9, 1), (12, 2), (14, 1), (16, 8), (24, 8), (40, 4)]
    ++ (if a.gcm then [(10, 1), (32, 8), (44, 4)] else []) ++ (if a.op < 0x44 then [(48, 12)] else [])
  let flag := fieldAt j.label 32 1
  if !zeroBytes j.image fields then 14
  else if 2 ^ 24 < a.plen then 23
  else if 65536 < a.alen then 24
  else if a.tlen < (if a.op < 0x44 then 12 else 8) ∨ 16 < a.tlen then 27
  else if j.desc.isSome ∧ (4096 ≤ fieldAt j.image 12 2 ∨ bitN flag 0 = false ∨ fieldAt j.label 33 1 ≠ j.fn
      ∨ bitN flag (usageOf a.op) = false) then 26
  else if (s.jobSpans j a.sspace a.saddr a.inLen).isNone ∨ (s.jobSpans j a.dspace a.daddr a.outLen).isNone
      ∨ (a.gcm = true ∧ (s.jobSpans j a.aspace a.aaddr a.alen).isNone) then 12
  else if !a.verifies && (s.badOverlap j a a.sspace a.saddr a.inLen || (a.gcm && s.badOverlap j a a.aspace a.aaddr a.alen)) then 30
  else 0

/-! ## The operations (R429, R431, R432) -/

/-- The job on a core that has the OP and has not ended. -/
def State.jobOf (s : State) (c op : Nat) : Option CipherJob :=
  match s.cipher.jobs.get? c with
  | none => none
  | some j => if j.result.isNone ∧ fieldAt j.image 0 1 = op ∧ s.hubMainReset = false then some j else none

/-- A job ends with STATE, CAUSE, DONE_BYTES and whether its tag has matched. -/
def State.endJob (s : State) (c : Nat) (j : CipherJob) (state cause n : Nat) (ok : Bool) : State :=
  let s := if cause = 25 ∨ cause = 31 then s.satRg Rg.cipher_TAG_FAILS 0 1 else s
  s.setJob c { j with result := some (state, cause, n, ok) }

/-- 64-byte units are counted. -/
def State.units (s : State) (n : Nat) : State := s.incRg Rg.cipher_UNITS_64 0 (ceilDiv n 64)

/-- The key of a job. -/
def State.jobKey (s : State) (j : CipherJob) : List Byte :=
  s.deriveKey (j.label.take 32) (usageOf (fieldAt j.image 0 1)) j.kind (if j.kind = 0 then 0 else j.num) 256

/-- A job runs: its checks, then what follows them with its arguments and its input, unless a range it would write waits. -/
def State.runJob (s : State) (c op : Nat) (pay aad : List Byte)
    (f : CipherJob → CipherArgs → List Byte → List Byte → State) : State :=
  match s.jobOf c op with
  | none => s
  | some j =>
    let a := cipherArgs j.image
    match s.cipherCheck j with
    | 0 =>
      if !a.verifies && s.writeWaits j.fn a.dspace a.daddr a.outLen then s
      else match s.localRead j.fn a.sspace a.saddr a.inLen pay,
          (if a.gcm then s.localRead j.fn a.aspace a.aaddr a.alen aad else some []) with
        | some p, some q => f j a p q
        | _, _ => s.endJob c j 2 12 0 false
    | e => s.endJob c j 2 e 0 false

/-- GCM_ENC. `pay` and `aad` are what DMA reads of host memory; `cut`: the core faults after so many bytes (R434). -/
def execGcmEnc (c : Nat) (pay aad : List Byte) (cut : Option Nat) (s : State) : Res :=
  .next (s.runJob c 0x40 pay aad (fun j a p q =>
    let e := gcmEnc (s.jobKey j) a.iv q p
    match cut with
    | some n =>
      let n := min n a.plen
      ((s.localWrite j.fn a.dspace a.daddr (e.1.take n)).units (n + a.alen)).endJob c j 1 29 n false
    | none =>
      ((s.localWrite j.fn a.dspace a.daddr (e.1 ++ e.2.take a.tlen)).units (a.plen + a.alen)).endJob c j 0 0 a.plen false))

/-- GCM_DEC: nothing is written unless the tag matches. `again` is what the second pass reads of host memory; a tag that
differs then, or a core fault, leaves zeros where plaintext was written. -/
def execGcmDec (c : Nat) (pay aad again : List Byte) (cut : Option Nat) (s : State) : Res :=
  .next (s.runJob c 0x41 pay aad (fun j a p q =>
    let key := s.jobKey j
    let tag := p.drop a.plen
    let s := s.units (a.plen + a.alen)
    if (gcmDec key a.iv q (p.take a.plen)).2.take a.tlen ≠ tag then s.endJob c j 2 25 0 false
    else
      let p2 := if a.sspace = 0 then (again ++ List.replicate a.plen 0).take a.plen else p.take a.plen
      let d := gcmDec key a.iv q p2
      let n := match cut with
        | some n => min n a.plen
        | none => a.plen
      let s := (s.localWrite j.fn a.dspace a.daddr (d.1.take n)).units n
      let wiped := s.localWrite j.fn a.dspace a.daddr (List.replicate n 0)
      if cut.isSome then wiped.endJob c j 2 29 0 false
      else if d.2.take a.tlen ≠ tag then wiped.endJob c j 2 31 0 false
      else s.endJob c j 0 0 a.plen true))

/-- The full tag of a MAC command over a payload. -/
def State.macTag (s : State) (j : CipherJob) (a : CipherArgs) (p : List Byte) : List Byte :=
  if a.op < 0x44 then (gcmEnc (s.jobKey j) a.iv p []).2 else cmac (s.jobKey j) p

/-- A generating MAC command: the tag goes to DADDR. -/
def State.macGen (s : State) (c op : Nat) (pay : List Byte) (cut : Option Nat) : State :=
  s.runJob c op pay [] (fun j a p _ =>
    match cut with
    | some n => (s.units (min n a.plen)).endJob c j 2 29 0 false
    | none => ((s.localWrite j.fn a.dspace a.daddr ((s.macTag j a p).take a.tlen)).units a.plen).endJob c j 0 0 a.plen false)

/-- A verifying MAC command: the tag at DADDR, `tag` from DMA, is compared over TLEN bytes. -/
def State.macVer (s : State) (c op : Nat) (pay tag : List Byte) (cut : Option Nat) : State :=
  s.runJob c op pay [] (fun j a p _ =>
    match cut, s.localRead j.fn a.dspace a.daddr a.tlen tag with
    | some n, _ => (s.units (min n a.plen)).endJob c j 2 29 0 false
    | none, none => s.endJob c j 2 12 0 false
    | none, some want =>
      let s := s.units a.plen
      if (s.macTag j a p).take a.tlen = want then s.endJob c j 0 0 a.plen true else s.endJob c j 2 25 0 false)

/-- GMAC_GEN. -/
def execGmacGen (c : Nat) (pay : List Byte) (cut : Option Nat) (s : State) : Res := .next (s.macGen c 0x42 pay cut)
/-- GMAC_VER. -/
def execGmacVer (c : Nat) (pay tag : List Byte) (cut : Option Nat) (s : State) : Res := .next (s.macVer c 0x43 pay tag cut)
/-- CMAC_GEN. -/
def execCmacGen (c : Nat) (pay : List Byte) (cut : Option Nat) (s : State) : Res := .next (s.macGen c 0x44 pay cut)
/-- CMAC_VER. -/
def execCmacVer (c : Nat) (pay tag : List Byte) (cut : Option Nat) (s : State) : Res := .next (s.macVer c 0x45 pay tag cut)

/-! ## The lock (R436, R437) -/

/-- OWNER changes. -/
def State.lockTo (s : State) (w : Nat) : State := (s.setRg Rg.cipher_OWNER 0 w).incRg Rg.cipher_LOCK_SEQ 0 1

/-- OWNER becomes a requester that has claimed. -/
def State.lockTake (s : State) (w : Nat) : State :=
  (s.lockTo w).setRg Rg.cipher_STAMP 0 (s.rg Rg.cipher_LCLK)

/-- The lock is released, to the record port where it waits. -/
def State.lockFree (s : State) : State :=
  let s := { s with cipher := { s.cipher with releasing := false } }
  if s.flag Rg.cipher_CLOCHE_WAIT then (s.lockTake 17).setRg Rg.cipher_CLOCHE_WAIT 0 0 else s.lockTo 0

/-- A write of a requester: PCIe (0) is ignored, one that does not own the lock is counted. -/
def State.lockViol (s : State) (w : Nat) : State := if w = 0 then s else s.satRg Rg.cipher_LOCK_VIOL 0 1

/-- CLAIM. -/
def State.lockClaim (s : State) (w : Nat) : State :=
  let o := s.rg Rg.cipher_OWNER
  if w = 0 ∨ o = w then s
  else if o = 0 then s.lockTake w
  else if w = 17 then s.setRg Rg.cipher_CLOCHE_WAIT 0 1
  else s.lockViol w

/-- RENEW. -/
def State.lockRenew (s : State) (w : Nat) : State :=
  if w = 0 ∨ s.rg Rg.cipher_OWNER ≠ w then s.lockViol w
  else if s.flag Rg.cipher_CLOCHE_WAIT then s
  else s.setRg Rg.cipher_STAMP 0 (s.rg Rg.cipher_LCLK)

/-- RELEASE: a command that runs ends first. -/
def State.lockRelease (s : State) (w : Nat) : State :=
  if w = 0 ∨ s.rg Rg.cipher_OWNER ≠ w then s.lockViol w
  else if s.flag Rg.cipher_BUSY then { s with cipher := { s.cipher with releasing := true } }
  else s.lockFree

/-- A requester claims the lock: 1 to 16 hub cores 0 to 15, 17 the record port, 0 PCIe. -/
def execClaim (w : Nat) (s : State) : Res := if s.hubMainReset then .next s else .next (s.lockClaim w)
/-- A requester renews its lease. -/
def execRenew (w : Nat) (s : State) : Res := if s.hubMainReset then .next s else .next (s.lockRenew w)
/-- A requester releases the lock. -/
def execRelease (w : Nat) (s : State) : Res := if s.hubMainReset then .next s else .next (s.lockRelease w)

/-- The lease expires. -/
def execLockExpire (s : State) : Res :=
  let o := s.rg Rg.cipher_OWNER
  if o = 0 ∨ s.flag Rg.cipher_BUSY = true ∨ s.hubMainReset = true
      ∨ (s.rg Rg.cipher_LCLK + 2 ^ 32 - s.rg Rg.cipher_STAMP) % 2 ^ 32 < s.rg Rg.cipher_LEASE_BEATS then .next s
  else
    let s := if s.flag Rg.cipher_CLOCHE_WAIT then s.satRg Rg.cipher_TAKEOVERS 0 1 else s
    let s := s.lockFree
    .next (s.event 0x0601 (o + 32 * s.rg Rg.cipher_OWNER))

/-! ## Register mode (R435, R437, R439) -/

/-- A register-mode command has ended. -/
def State.regResult (s : State) (state cause n : Nat) : State :=
  let s := (s.setRg Rg.cipher_RSTATE 0 state).setRg Rg.cipher_RCAUSE 0 cause
  (s.setRg Rg.cipher_RDONE_BYTES 0 n).sqRaise Rg.cipher_RDONE Rg.cipher_RSEQ 0 1

/-- The bytes of a run of 32-bit registers. -/
def State.regBytes (s : State) (f : Fld) (n : Nat) : List Byte := (List.range n).flatMap (fun i => leBytes 4 (s.rg f i))

/-- GO of a requester. -/
def State.cipherGo (s : State) (w : Nat) : State :=
  if w = 0 ∨ s.rg Rg.cipher_OWNER ≠ w then s.lockViol w
  else if s.flag Rg.cipher_BUSY then s.regResult 2 28 0
  else
    let j : CipherJob := { image := s.regBytes Rg.cipher_CMD 16, label := s.regBytes Rg.cipher_LABEL 8,
                           kind := if w = 17 then 3 else 2, num := if w = 17 then 0 else w - 1 }
    { s with cipher := { s.cipher with go := some j } }.setRg Rg.cipher_BUSY 0 1

/-- GO is written. -/
def execCipherGo (w : Nat) (s : State) : Res := if s.hubMainReset then .next s else .next (s.cipherGo w)

/-- A command has ended: its completion record, or the result registers with the release that has waited for it. A core that
has faulted retires; `parity` says which check failed (R434, R442). -/
def execCipherComplete (c : Nat) (parity : Bool) (s : State) : Res :=
  match s.cipher.jobs.get? c with
  | none => .next s
  | some j =>
    match j.result with
    | none => .next s
    | some (state, cause, n, ok) =>
      let s := { s with cipher := { s.cipher with jobs := s.cipher.jobs.del c } }.incRg Rg.cipher_COMMANDS 0 1
      let s := match j.desc with
        | some (fn, r, i) => (s.endDesc fn r i state cause n).complete fn r i
        | none =>
          let a := cipherArgs j.image
          let s := if a.verifies || a.op == 0x41 then s.setRg Rg.cipher_TAG_OK 0 (ofBool ok) else s
          let s := (s.regResult state cause n).setRg Rg.cipher_BUSY 0 0
          if s.cipher.releasing then s.lockFree else s
      .next (if cause = 29 then s.retireCipher c parity else s)

/-- The label of the attestation key. -/
def attestLabel : List Byte := bytesOf ("PRETON SPDM ATTESTATION KEY 1".toList.map (·.toNat)) ++ [0, 0, 0]

/-- The attestation key's private scalar. -/
def State.attestKey (s : State) : Nat := beNat (s.deriveKey attestLabel 3 4 0 512) % (n384 - 1) + 1

/-- The hub core on which a compartment runs (R528). -/
def State.compCore (s : State) (comp : Nat) : Nat :=
  let c := [0, 1, 2, 3, 5, 7, 8, 9].getD comp 0
  s.fw.cores.getD c c

/-- SIGN of a requester: the attestation compartment's core, while it owns the lock. -/
def State.sign (s : State) (w : Nat) : State :=
  if w = 0 ∨ s.rg Rg.cipher_OWNER ≠ w then s.lockViol w
  else if w ≠ s.compCore 6 + 1 then s
  else
    let sig := ecdsaSign s.attestKey (s.regBytes Rg.cipher_DIGEST 8)
    (List.range 24).foldl (fun s k => s.setRg Rg.cipher_SIG k (leNat ((sig.drop (4 * k)).take 4))) s

/-- SIGN is written. -/
def execSign (w : Nat) (s : State) : Res := if s.hubMainReset then .next s else .next (s.sign w)

/-! ## The label table (R427, R441) -/

/-- LABEL_SET. -/
def execLabelSet (s : State) : Res :=
  .next (s.manage 0x30 [(8, 2), (10, 1), (11, 1), (32, 32)] (fun s q =>
    let i := fieldAt q 8 2
    if 4096 ≤ i ∨ 128 ≤ fieldAt q 10 1 ∨ 8 ≤ fieldAt q 11 1 then s.refuse 2
    else
      (s.writeB (kHub (s.rg Rg.cipher_LBL_BASE * 2 ^ 18 + 64 * i))
        ((q.drop 32).take 32 ++ leBytes 1 (fieldAt q 11 1) ++ leBytes 1 (fieldAt q 10 1) ++ List.replicate 30 0)).done))

end Sys2Proof.Machine
end

