-- ==== Sys2Proof/Machine/Cloche.lean ====
section
/-!
DEFINITION. The count wire, the Cloche die, the record wire and the record port (R498-R516, R564, R583).
-/
namespace Sys2Proof.Machine

/-- The Cloche is replaced. -/
def State.setCloche (s : State) (c : Cloche) : State := { s with cloche := c }

/-! ## The count wire (R499, R500) -/

/-- A count frame of the functions begins on an idle wire. -/
def State.beginFrame (s : State) (fs : List Nat) : State :=
  let bs := s.frameBytes fs crc32c
  { s with gate := { s.gate with dirty := [], wire := some bs } }.emit (.countFrame bs)

/-- The wire is idle and a total has changed: a frame of the changed totals begins. -/
def execCountFrameSend (s : State) : Res :=
  if s.hubMainReset || s.gate.wire.isSome || s.gate.dirty.isEmpty then .next s
  else .next (s.beginFrame ((List.range 128).filter (fun f => s.gate.dirty.contains f)))

/-- Every 1 ms without a frame: a refresh frame of every nonzero total. -/
def execCountRefresh (s : State) : Res :=
  if s.hubMainReset || s.gate.wire.isSome then .next s
  else .next (s.beginFrame ((List.range 128).filter (fun f => s.rg Rg.cloche_TOTAL f != 0)))

/-! ## Records (R505-R508) -/

/-- Nanoseconds of an interval-length code; an invalid one gives 60 s. -/
def intervalNs (code : Nat) : Nat := [60, 1, 5, 10, 30, 60, 300, 600, 900, 1800, 3600].getD code 60 * 10 ^ 9

/-- The code that a configuration word gives. -/
def wordCode (w : Nat) : Nat := if 1 ≤ w ∧ w ≤ 10 then w else 5

/-- A record: the body's named parts, then the signature over its digest. -/
def Cloche.record (c : Cloche) (kind plot flags tStart tEnd : Nat) (rest : List Byte) : List Byte :=
  let body := leBytes 4 0x48434C43 ++ [1] ++ leBytes 1 kind ++ leBytes 1 plot ++ leBytes 1 (flags + ofBool c.sealedPart)
    ++ leBytes 8 Config.clocheId ++ leBytes 8 Config.clocheSerial ++ leBytes 8 c.rseq ++ leBytes 8 c.ino ++ leBytes 8 tStart
    ++ leBytes 8 tEnd ++ leBytes 4 c.epoch ++ leBytes 4 c.cfw ++ (rest ++ List.replicate 64 0).take 64
  body ++ ecdsaSign Config.clocheKey (sha3_256 body)

/-- A record joins the queue and the ring of 149,796, and RSEQ advances. -/
def Cloche.put (c : Cloche) (r : List Byte) : Cloche :=
  let l := c.ring ++ [r]
  { c with queue := c.queue ++ [r], ring := l.drop (l.length - 149796), rseq := c.rseq + 1 }

/-- The certificate records of one emission, without those that a 65,536th record among them calls for. -/
def Cloche.chain (c : Cloche) : Cloche :=
  let ch := Config.clocheChain
  let n := ceilDiv ch.length 56
  (List.range n).foldl (fun c i =>
    let p := (ch.drop (56 * i)).take 56
    c.put (c.record 2 0xFF 0 0 0 (leBytes 2 i ++ leBytes 2 n ++ leBytes 2 p.length ++ [0, 0] ++ p))) c

/-- The certificate records are emitted, and again where a 65,536th record was one of them (R507). -/
def Cloche.certs (c : Cloche) : Cloche :=
  let d := c.chain
  if d.rseq / 65536 = c.rseq / 65536 then d else d.chain

/-- A record is emitted; every 65,536th one is followed by the certificates. -/
def Cloche.emitRec (c : Cloche) (r : List Byte) : Cloche :=
  let c := c.put r
  if c.rseq % 65536 = 0 then c.certs else c

/-- The open interval closes at a time of the Cloche: its energy record, then a token record of every active function; what
remains of each energy is carried. `more` are flags of this close, `next` those of the interval that opens. -/
def Cloche.close (c : Cloche) (tEnd more next : Nat) : Cloche :=
  let fl := c.flags ||| more
  let e := (List.range 8).flatMap (fun k => leBytes 8 (c.energy.getD 0 k / 100))
  let c := c.emitRec (c.record 1 0xFF fl c.tStart tEnd e)
  let c := ((List.range 128).filter (fun f => c.active.contains f)).foldl (fun (c : Cloche) f =>
    c.emitRec (c.record 0 f fl c.tStart tEnd
      (leBytes 8 c.lastBeat ++ leBytes 8 (c.counts.getD 0 f) ++ leBytes 8 (c.held.getD 0 f)))) c
  let l := intervalNs c.code
  { c with
    energy := c.energy.map (fun (x : Nat × Nat) => (x.1, x.2 % 100)), counts := [], flags := next, ino := c.ino + 1,
    tStart := tEnd, due := (tEnd / l + 1) * l }

/-- CTIME has reached the next multiple of L: the open interval ends there. -/
def execIntervalClose (s : State) : Res :=
  let c := s.cloche
  if c.running ∧ c.due ≤ c.ctime then .next (s.setCloche (c.close c.due 0 0)) else .next s

/-! ## Count frames at the Cloche (R502) -/

/-- The entries of a frame: function and total. -/
def frameEntries (bs : List Byte) : List (Nat × Nat) :=
  (List.range (fieldAt bs 12 1)).map (fun i => (fieldAt bs (16 + 9 * i) 1, fieldAt bs (17 + 9 * i) 8))

/-- A frame of the current epoch is applied, or rejected whole when a total has fallen. -/
def Cloche.apply (c : Cloche) (bs : List Byte) : Cloche :=
  let es := frameEntries bs
  if es.any (fun e => decide (e.2 < c.held.getD 0 e.1)) then { c with flags := c.flags ||| 0x40 }
  else
    let c := es.foldl (fun (c : Cloche) e =>
      { c with
        counts := c.counts.set 0 e.1 (c.counts.getD 0 e.1 + (e.2 - c.held.getD 0 e.1)), held := c.held.set 0 e.1 e.2,
        active := if e.2 = 0 then c.active else insertNat e.1 c.active }) c
    { c with
      lastBeat := fieldAt bs 4 8, latest := (fieldAt bs 0 4, fieldAt bs 4 8), accepted := true, ackDue := true,
      flags := if fieldAt bs 13 1 = 0 then c.flags ||| 0x10 else c.flags }

/-- The last byte of the count frame on the wire arrives; `bad`: it was corrupted on the way. -/
def execCountFrame (bad : Bool) (s : State) : Res :=
  match s.gate.wire with
  | none => .next s
  | some bs =>
    let s := { s with gate := { s.gate with wire := none } }
    let c := s.cloche
    if !c.running || bad then .next s
    else if fieldAt bs 0 4 = c.epoch then .next (s.setCloche (c.apply bs))
    else
      let c := c.close c.ctime 0x0C (if c.ctime % intervalNs c.code = 0 then 0 else 4)
      .next (s.setCloche ({ c with epoch := fieldAt bs 0 4, held := [], active := [] }.apply bs))

/-- Every 4 µs: the energies of the sample in 0.01 µJ, and whether a channel was out of its range. -/
def execEnergySample (es : List Nat) (range : Bool) (s : State) : Res :=
  let c := s.cloche
  if !c.running then .next s
  else
    let m := (List.range 8).foldl (fun (m : Cells Nat) k => m.set 0 k (m.getD 0 k + es.getD k 0)) c.energy
    .next (s.setCloche { c with energy := m, flags := if range then c.flags ||| 0x80 else c.flags })

/-! ## The Cloche stops and restarts (R505, R509, R510, R564, R583) -/

/-- What the Cloche saves stays; what it was sending is gone. -/
def Cloche.stop (c : Cloche) : Cloche := { c with running := false, queue := [], wire := [], ackDue := false }

/-- CL_RESET# falls. -/
def execClReset (s : State) : Res := .next (s.setCloche { s.cloche.stop with inReset := true })

/-- VCL falls below 3.0 V. -/
def execVclLow (s : State) : Res := .next (s.setCloche s.cloche.stop)

/-- CL_PROG_EN is raised: with the Cloche in reset the programmer reaches its flash, and may write the configuration word. -/
def execClProgEn (word : Option Nat) (s : State) : Res :=
  let c := s.cloche
  if c.inReset then .next (s.setCloche { c with prog := true, word := word.getD c.word }) else .next s

/-- The configuration word that the restart reads sets L. With another L the open interval ends at the next multiple of the new
one, carries CFG_CHANGED, and carries SHORT where it began away from one (R505). -/
def Cloche.setLength (c : Cloche) (code : Nat) : Cloche :=
  let l := intervalNs code
  if code = c.code then c
  else { c with
    code := code, due := (c.ctime / l + 1) * l, flags := c.flags ||| 0x20 ||| (if c.tStart % l = 0 then 0 else 4) }

/-- The Cloche restarts, on a firmware image of the version where the programmer has left one on its flash port that its ROM
accepts: with the seal blown, none below the anti-rollback count (R509). -/
def execClocheRestart (cfw : Option Nat) (s : State) : Res :=
  let c := s.cloche
  if c.running then .next s
  else
    let v := match cfw with
      | some v => if c.prog ∧ (c.sealedPart = false ∨ Config.clocheRollback ≤ v) then v else c.cfw
      | none => c.cfw
    let c := { c.setLength (wordCode c.word) with
      running := true, inReset := false, prog := false, cfw := v, ackDue := c.accepted, ringPos := 0,
      flags := (c.setLength (wordCode c.word)).flags ||| 0x02 }
    .next (s.setCloche c.certs)

/-! ## The record wire (R506, R512) -/

/-- A frame of the record wire without its comma. -/
def wireFrame (ty : Nat) (body : List Byte) : List Byte :=
  let b := leBytes 1 ty ++ body
  b ++ leBytes 4 (crc32c b)

/-- At a frame boundary the Cloche sends an acknowledgement that is due, else a new record, else the next one of the ring. -/
def execRecordFrameSend (s : State) : Res :=
  let c := s.cloche
  if !c.running then .next s
  else if c.ackDue then
    .next (s.setCloche { c with ackDue := false, wire := c.wire ++ [wireFrame 1 (leBytes 4 c.latest.1 ++ leBytes 8 c.latest.2)] })
  else match c.queue with
    | r :: t => .next (s.setCloche { c with queue := t, wire := c.wire ++ [wireFrame 0 r] })
    | [] =>
      let i := c.ringPos % max 1 c.ring.length
      (match c.ring[i]? with
       | some r => .next (s.setCloche { c with ringPos := i + 1, wire := c.wire ++ [wireFrame 0 r] })
       | none => .next s)

/-! ## The record port (R501, R512-R516) -/

/-- ALIVE changes. -/
def State.setAlive (s : State) (v : Bool) : State :=
  if s.flag Rg.cloche_ALIVE = v then s
  else
    ((s.setRg Rg.cloche_ALIVE 0 (ofBool v)).sqRaise Rg.cloche_CL_EVT Rg.cloche_CL_SEQ 0 1).event 0x0900
      (ofBool v + s.rg Rg.cloche_SEALED * 2)

/-- The frame that arrives at the port, when it is of the type: its body where its CRC holds. A frame that arrives while hub
main is in reset is lost. -/
def State.takeWire (s : State) (ty : Nat) (bad : Bool) : State × Option (List Byte) :=
  match s.cloche.wire with
  | [] => (s, none)
  | f :: t =>
    if fieldAt f 0 1 ≠ ty then (s, none)
    else
      let s := s.setCloche { s.cloche with wire := t }
      if s.hubMainReset then (s, none)
      else if bad then (s.satRg Rg.cloche_WIRE_CRC_ERRS 0 1, none)
      else (s, some ((f.drop 1).take (f.length - 5)))

/-- An acknowledgement arrives: deliveries at or before its beat may leave. -/
def execAckFrameRx (bad : Bool) (s : State) : Res :=
  match s.takeWire 1 bad with
  | (s, none) => .next s
  | (s, some b) =>
    .next ({ s with records := { s.records with acked := some (fieldAt b 0 4, fieldAt b 4 8) } }.setAlive true)

/-- The RX ring that METER_RING gives a function. -/
def State.meterRing (s : State) (f : Nat) : Option Nat :=
  let r := s.rg Rg.cloche_RING f
  if s.flag Rg.cloche_METER_EN f ∧ ((s.ring f r).map (fun (g : Ring) => g.kind)) = some 1 then some r else none

/-- The functions that are to receive a record. -/
def State.recordFns (s : State) (r : List Byte) : List Nat :=
  let kind := fieldAt r 5 1
  let to_ := match kind with
    | 0 => [0] ++ (if fieldAt r 6 1 = 0 then [] else [fieldAt r 6 1])
    | 2 => List.range 128
    | _ => [0]
  to_.filter (fun f => (s.meterRing f).isSome)

/-- A record is delivered to those of its functions that have a buffer and whose earlier records have gone. -/
def State.deliverRec (s : State) (blocked : List Nat) (r : List Byte) (fs : List Nat) : State × List Nat × List Nat :=
  fs.foldl (fun (x : State × List Nat × List Nat) f =>
    let (s, blocked, left) := x
    let try_ := if blocked.contains f then none
      else (s.meterRing f).bind (fun g => s.fillBuffer f g r 3 (fieldAt r 24 4) 0)
    match try_ with
    | some s => (s.setRg Rg.cloche_RSEQ_HIGH 0 (max (s.rg Rg.cloche_RSEQ_HIGH) (fieldAt r 24 8)), blocked, left)
    | none => (s, insertNat f blocked, left ++ [f])) (s, blocked, [])

/-- Records that wait are delivered in the order in which they arrived. -/
def State.pumpRecs (s : State) (rs : List (List Byte × List Nat)) : State × List (List Byte × List Nat) :=
  let x := rs.foldl (fun (x : State × List Nat × List (List Byte × List Nat)) r =>
    let (s, blocked, kept) := x
    let y := s.deliverRec blocked r.1 r.2
    (y.1, y.2.1, if y.2.2.isEmpty then kept else kept ++ [(r.1, y.2.2)])) (s, [], [])
  (x.1, x.2.2)

/-- The port's records move: those read back first, and those of the store when no older block is out. -/
def State.pumpPort (s : State) : State :=
  let (s, front) := s.pumpRecs s.records.front
  let s := { s with records := { s.records with front := front } }
  if !front.isEmpty || !s.records.blocks.isEmpty then s
  else
    let (s, store) := s.pumpRecs s.records.store
    { s with records := { s.records with store := store } }

/-- The label of overflow tags. -/
def overflowLabel : List Byte := bytesOf ("CLOCHE RECORD OVERFLOW 1".toList.map (·.toNat)) ++ List.replicate 8 0

/-- The tag of a block: GMAC in register mode under the record port's key. -/
def State.blockTag (s : State) (n : Nat) (data : List Byte) : List Byte :=
  (gcmEnc (s.deriveKey overflowLabel 1 3 0 256) (beBytes 12 n) data []).2

/-- The port holds the cipher lock, runs its one command, whose result the registers show, and releases it. -/
def State.portCommand (s : State) (state cause n : Nat) : State :=
  let s := { s with records := { s.records with waits := false } }.incRg Rg.cipher_COMMANDS 0 1
  ((s.units 14336).regResult state cause n).lockFree

/-- The port claims the lock, and holds it or waits. -/
def State.portClaim (s : State) : State :=
  let s := s.lockClaim 17
  { s with records := { s.records with waits := s.rg Rg.cipher_OWNER != 17 } }

/-- Blocks that the overflow region holds, and where one lies. -/
def State.blockRoom (s : State) : Nat := s.rg Rg.cloche_OVF_PAGES * 2 ^ 21 / 14352
def State.blockAt (s : State) (n : Nat) : Nat := s.rg Rg.cloche_OVF_BASE * 2 ^ 21 + n % max 1 s.blockRoom * 14352

/-- The oldest 64 stored records move into the overflow region, where the lock and the region allow. -/
def State.overflow (s : State) : State :=
  let r := s.records
  let n := r.nextBlock
  if s.blockRoom ≤ r.blocks.length ∨ s.cowHeld (s.blockAt n) 14352 = true then s
  else
    let s := s.portClaim
    if s.rg Rg.cipher_OWNER ≠ 17 ∨ s.flag Rg.cipher_BUSY = true then s
    else
      let old := s.records.store.take 64
      let data := old.flatMap (fun (x : List Byte × List Nat) => x.1)
      let s := s.writeHbm (s.blockAt n) (data ++ s.blockTag n data)
      let r := s.records
      let s := { s with records := { r with
        store := r.store.drop 64, nextBlock := n + 1,
        blocks := r.blocks ++ [(n, old.map (fun (x : List Byte × List Nat) => (fieldAt x.1 24 8, x.2)))] } }
      s.portCommand 0 0 14336

/-- A record frame arrives: it is delivered, stored, moved to the overflow region with those before it, or dropped. -/
def execRecordFrameRx (bad : Bool) (s : State) : Res :=
  match s.takeWire 0 bad with
  | (s, none) => .next s
  | (s, some r) =>
    let seq := fieldAt r 24 8
    let sealed := ofBool (bitN (fieldAt r 7 1) 0)
    let s := (s.setRg Rg.cloche_SEALED 0 sealed).incRg Rg.cloche_RECORDS_RX 0 1
    let s := ((s.setRg Rg.cloche_CLOCHE_ID 0 (fieldAt r 8 8)).setRg Rg.cloche_CFW_VERSION 0 (fieldAt r 60 4)).setAlive true
    let high := s.records.seen.foldl max 0
    if s.records.seen.contains seq ∨ seq + 262144 ≤ high then .next ((s.incRg Rg.cloche_RECORDS_DUP 0 1).pumpPort)
    else
      let s := s.pumpPort
      let s := if s.records.store.length < 4681 ∨ s.flag Rg.cloche_OVF_EN = false then s else s.overflow
      let fs := s.recordFns r
      if fs.isEmpty || decide (4681 ≤ s.records.store.length) then .next (s.satRg Rg.cloche_RECORDS_DROPPED 0 1)
      else
        let p := s.records
        let top := max high seq
        let seen := (seq :: p.seen).filter (fun x => decide (top < x + 262144))
        let s := { s with records := { p with store := p.store ++ [(r, fs)], seen := seen } }
        let fault := bitN (fieldAt r 7 1) 6 && p.faultIno != some (fieldAt r 32 8)
        let s := if fault then
            { s with records := { s.records with faultIno := some (fieldAt r 32 8) } }.event 0x0902 seq
          else s
        .next s.pumpPort

/-- The oldest block is read back and its tag verified; a block whose tag fails is discarded, and its records may come again. -/
def execOverflowReadback (s : State) : Res :=
  let r := s.records
  match r.blocks with
  | [] => .next s
  | (n, ms) :: t =>
    if !r.front.isEmpty || s.hubMainReset then .next s
    else
      let s := s.portClaim
      if s.rg Rg.cipher_OWNER ≠ 17 ∨ s.flag Rg.cipher_BUSY = true then .next s
      else
        let got := (s.committedHbm (s.blockAt n) 14352).getD []
        let data := got.take 14336
        let s := { s with records := { s.records with blocks := t } }
        if got.drop 14336 = s.blockTag n data then
          let rs := ms.mapIdx (fun i m => ((data.drop (224 * i)).take 224, m.2))
          .next (({ s with records := { s.records with front := rs } }.portCommand 0 0 14336).pumpPort)
        else
          let gone := ms.map (fun m => m.1)
          let s := { s with records := { s.records with seen := s.records.seen.filter (fun x => !gone.contains x) } }
          .next ((((s.satRg Rg.cipher_TAG_FAILS 0 1).portCommand 2 25 0).satRg Rg.cloche_OVF_TAG_FAILS 0 1).event 0x0901 n)

/-- METER_HOLD is written; the gate takes it at the next COMMIT tick (R501). -/
def execMeterHoldWrite (v : Bool) (s : State) : Res :=
  if s.hubMainReset then .next s else .next (s.setRg Rg.cloche_METER_HOLD 0 (ofBool v))

/-- No valid frame has arrived for 1 ms. -/
def execClocheAliveLapse (s : State) : Res := if s.hubMainReset then .next s else .next (s.setAlive false)

end Sys2Proof.Machine
end

