-- ==== Sys2Proof/Machine/Boot.lean ====
section
/-!
DEFINITION. The boot flash, fuses, the boot sequencer, compartments, and firmware update (R519-R533, R537, R552, R553).
-/
namespace Sys2Proof.Machine

/-! ## The boot flash (R519-R521) -/

/-- Where a bank begins. -/
def bankBase (b : Nat) : Nat := if b = 0 then 0x400000 else 0x2400000

/-- Bytes of a bank. -/
def bankBytes : Nat := 0x1C00000

/-- Where an image begins: kind 1 stage-1, 2 main. -/
def imageAt (b kind : Nat) : Nat := kFlash (bankBase b + (if kind = 2 then 0x100000 else 0))

/-- The limit of an image. -/
def imageMax (kind : Nat) : Nat := if kind = 2 then 27 * 2 ^ 20 else 2 ^ 20

/-- The image of a bank, header and body. -/
def State.image (s : State) (b kind : Nat) : List Byte :=
  s.readB (imageAt b kind) (512 + min (s.readN (imageAt b kind + 16) 4) (imageMax kind))

/-- The anti-rollback level of the fuses: a thermometer of 2,048 bits. -/
def State.rollback (s : State) : Nat := (List.range 64).foldl (fun a i => a + popCount 32 (s.fw.fuses.getD 0 (0x40 + i))) 0

/-- The failure cause of an image, 0 where it is valid (R520, R522); `bad` names the images (2 × bank + kind − 1) that the flash
fails to read. -/
def State.imageCause (s : State) (bad : List Nat) (b kind : Nat) : Nat :=
  let h := s.readB (imageAt b kind) 512
  let n := fieldAt h 16 4
  if bad.contains (2 * b + kind - 1) then 5
  else if fieldAt h 0 4 ≠ 0x57465A56 ∨ fieldAt h 4 1 ≠ kind ∨ fieldAt h 5 1 ≠ 1 ∨ imageMax kind < 512 + n then 1
  else if sha3_256 (s.readB (imageAt b kind + 512) n) ≠ (h.drop 24).take 32 then 2
  else if !Config.fwSigned (sha3_256 (h.take 256)) (beNat ((h.drop 256).take 48)) (beNat ((h.drop 304).take 48)) then 3
  else if fieldAt h 12 2 < s.rollback then 4
  else 0

/-- A selector copy: SEQ, PREF and RATCHET, where it is valid. -/
def State.selectorCopy (s : State) (i : Nat) : Option (Nat × Nat × Nat) :=
  let b := s.readB (kFlash (0x1000 * i)) 16
  if fieldAt b 0 4 = 0x4C535A56 ∧ fieldAt b 12 4 = crc32c (b.take 12) then
    some (fieldAt b 4 4, fieldAt b 8 1, fieldAt b 9 1)
  else none

/-- The copy in force: its number, SEQ, PREF and RATCHET. -/
def State.selector (s : State) : Option (Nat × Nat × Nat × Nat) :=
  match s.selectorCopy 0, s.selectorCopy 1 with
  | some a, some b => if a.1 < b.1 then some (1, b) else some (0, a)
  | some a, none => some (0, a)
  | none, some b => some (1, b)
  | none, none => none

/-- Sectors of 4 KiB that a range touches read as erased. -/
def State.eraseSectors (s : State) (a n : Nat) : State :=
  (List.range ((a % 4096 + n + 4095) / 4096)).foldl (fun s i =>
    s.writeB (kFlash ((a / 4096 + i) * 4096)) (List.replicate 4096 0xFF)) s

/-- BOOT_SELECT writes the copy that does not hold the higher SEQ. -/
def State.writeSelector (s : State) (bank ratchet : Nat) : State :=
  let (i, q) := match s.selector with
    | some (i, q, _) => (1 - i, q + 1)
    | none => (0, 1)
  let b := leBytes 4 0x4C535A56 ++ leBytes 4 q ++ leBytes 1 bank ++ leBytes 1 ratchet ++ leBytes 2 0
  (s.eraseSectors (0x1000 * i) 16).writeB (kFlash (0x1000 * i)) (b ++ leBytes 4 (crc32c b))

/-! ## Fuses (R525-R527) -/

/-- A word of a critical group. -/
def fuseCritical (w : Nat) : Bool :=
  decide (w < 0x18) || (decide (0x20 ≤ w) && decide (w < 0x30)) || (decide (0x40 ≤ w) && decide (w < 0x80))

/-- The reads of a copy of a word. -/
def fuseOf (rs : List FuseRead) (w c : Nat) : FuseRead :=
  (rs.find? (fun r => r.word == w && r.copy == c)).getD { word := w, copy := c, low := 0, nom := 0, high := 0 }

/-- A copy of a word that is not accepted: its margins disagree, or it differs from copy 0. -/
def fuseBad (rs : List FuseRead) (w c : Nat) : Bool :=
  let r := fuseOf rs w c
  r.low != r.nom || r.nom != r.high || (c != 0 && r.nom != (fuseOf rs w 0).nom)

/-- The first word that is not accepted, with the copy. -/
def fuseReject (rs : List FuseRead) : Option (Nat × Nat) :=
  (List.range 512).findSome? (fun w =>
    ((List.range (if fuseCritical w then 3 else 1)).find? (fun c => fuseBad rs w c)).map (fun c => (w, c)))

/-- A fuse word as the boot sequencer has loaded it; none is loaded in fuse-hold. -/
def State.fuse (s : State) (w : Nat) : Nat := s.fw.fuses.getD 0 w

/-- The enabled bits of a half's tiles in their own blocks (R119). -/
def State.fuseTiles (s : State) (h : Nat) : State :=
  (List.range 128).foldl (fun s i =>
    let t := 128 * h + i
    s.setRg Rg.tile_ENABLED t (bits (s.fuse (0x20 + t / 32)) (t % 32) 1)) s

/-- The bytes of port p's MAC address: 48 bits of the words 0x004 to 0x00F (R354, R525; log entry 2). -/
def State.fuseMac (s : State) (p : Nat) : Nat :=
  let w := (List.range 12).foldl (fun a k => a + s.fuse (4 + k) % 2 ^ 32 * 2 ^ (32 * k)) 0
  bits w (48 * p) 48

/-- The MAC addresses take the fuses' values (R354). -/
def State.fuseMacs (s : State) : State :=
  (List.range 8).foldl (fun s p => (s.setRg Rg.eth_MAC_LO p (s.fuseMac p % 2 ^ 32)).setRg Rg.eth_MAC_HI p (s.fuseMac p / 2 ^ 32)) s

/-- Every field that fuses fill takes its fuse word's value (R21, R41, R119, R354); TILES_ENABLED counts the enabled-tile map. -/
def State.fuseIdentity (s : State) : State :=
  let f := s.fuse
  let s := (s.setRg Rg.identity_STEPPING 0 (bits (f 0) 0 8)).setRg Rg.identity_ISA_REV 0 (bits (f 0) 8 8)
  let s := (s.setRg Rg.identity_ORDER_CODE 0 (bits (f 0) 16 16)).setRg Rg.identity_SERIAL_LO 0 (f 1)
  let s := s.setRg Rg.identity_SERIAL_HI 0 (f 2)
  let s := (List.range 8).foldl (fun s k => s.setRg Rg.identity_TILE_ENABLED k (f (0x20 + k))) s
  let s := s.setRg Rg.identity_TILES_ENABLED 0 ((List.range 8).foldl (fun a k => a + popCount 32 (f (0x20 + k))) 0)
  (((s.setRg Rg.identity_HBM_ENABLED 0 (bits (f 0x28) 0 6)).fuseTiles 0).fuseTiles 1).fuseMacs

/-- The report of fuse-hold: word, copy, secret, temperature and the three reads. -/
def State.fuseReport (s : State) (hold word copy secret temp low nom high : Nat) : State :=
  let s := ((s.setRg Rg.system_FUSE_HOLD 0 hold).setRg Rg.system_FH_WORD 0 word).setRg Rg.system_FH_COPY 0 copy
  let s := ((s.setRg Rg.system_FH_SECRET 0 secret).setRg Rg.system_FH_TEMP 0 temp).setRg Rg.system_FH_LOW 0 low
  (s.setRg Rg.system_FH_NOM 0 nom).setRg Rg.system_FH_HIGH 0 high

/-- The module enters fuse-hold on a copy of a word. -/
def State.fuseHold (s : State) (rs : List FuseRead) (temp w c : Nat) : State :=
  let r := fuseOf rs w c
  let secret := decide (0x10 ≤ w) && decide (w < 0x18)
  let v (n : Nat) : Nat := if secret then 0 else n
  let s := { s with fw := { s.fw with fuses := [] } }.fuseIdentity
  let s := (s.setRg Rg.system_STAGE 0 3).setRg Rg.identity_SERVICE_LEVEL 0 0
  s.fuseReport 1 w c (ofBool secret) temp (v r.low) (v r.nom) (v r.high)

/-! ## The boot sequencer (R522) -/

/-- A measurement block is set (R440). -/
def State.measure (s : State) (i : Nat) (v : List Byte) : State :=
  { s with fw := { s.fw with meas := s.fw.meas.put i v } }

/-- The failure cause of a bank is recorded. -/
def State.bankCause (s : State) (b c : Nat) : State :=
  s.setRg (if b = 0 then Rg.system_CAUSE_A else Rg.system_CAUSE_B) 0 c

/-- Stage-1 of a bank is loaded into the private memory of hub core 0 and runs. -/
def State.loadStage1 (s : State) (b : Nat) : State :=
  let s := (s.measure 2 (sha3_256 (s.image b 1))).setCore (.hub 0) { pmStamp := s.freeCtr + 1 }
  let s := { s with core0Run := true, fw := { s.fw with bank := b, mainUp := false }, freeCtr := s.freeCtr + 1 }
  (s.setRg Rg.system_BANK 0 b).setRg Rg.system_STAGE 0 1

/-- Rollback fuses are blown until the level is that of an image. -/
def State.ratchet (s : State) (level : Nat) : State :=
  if level ≤ s.rollback then s
  else
    let f := (List.range 64).foldl (fun (m : Cells Nat) i =>
      m.put (0x40 + i) (m.getD 0 (0x40 + i) ||| (2 ^ min 32 (level - 32 * i) - 1))) s.fw.fuses
    { s with fw := { s.fw with fuses := f } }

/-- No image: the sequencer stops. -/
def State.noImage (s : State) : State := { s with core0Run := false }.setRg Rg.system_STAGE 0 4

/-- Step 4 on: stage-1 of a bank is verified, and that of the other one when it fails. -/
def State.bootFrom (s : State) (bad : List Nat) (b : Nat) : State :=
  match s.imageCause bad b 1 with
  | 0 =>
    let s := match s.selector with
      | some (_, _, pref, r) => if pref % 2 = b ∧ r = 1 then s.ratchet (s.readN (imageAt b 1 + 12) 2) else s
      | none => s
    s.loadStage1 b
  | c =>
    let s := (s.bankCause b c).setRg Rg.system_FALLBACK 0 1
    match s.imageCause bad (1 - b) 1 with
    | 0 => s.loadStage1 (1 - b)
    | c' => (s.bankCause (1 - b) c').noImage

/-- Steps 3 and on. -/
def State.bootSelect (s : State) (bad : List Nat) : State :=
  let s := ((s.bankCause 0 0).bankCause 1 0).setRg Rg.system_FALLBACK 0 0
  let s := ({ s with fw := { s.fw with forced := false, mainUp := false, tested := false, testedHalves := [] } }.setRg Rg.system_STAGE 0 0).setRg
    Rg.system_FW_VERSION 0 0
  s.bootFrom bad (match s.selector with
    | some (_, _, pref, _) => pref % 2
    | none => 0)

/-- Steps 1 and on. -/
def State.bootAll (s : State) (rs : List FuseRead) (temp : Nat) (bad : List Nat) : State :=
  match fuseReject rs with
  | some (w, c) => s.fuseHold rs temp w c
  | none =>
    let f (w : Nat) : Nat := (fuseOf rs w 0).nom
    let m := (List.range 512).foldl (fun (m : Cells Nat) w => if f w = 0 then m else m.put w (f w)) ([] : Cells Nat)
    let s := ({ s with fw := { s.fw with fuses := m } }.fuseIdentity).fuseReport 0 0 0 0 0 0 0 0
    let s := s.measure 1 Config.romDigest
    let s := s.measure 5 (leBytes 4 (f 0) ++ leBytes 4 (s.wordOf Rg.identityFlds 0 0x010) ++ leBytes 4 (bits (f 0x28) 0 6))
    s.bootSelect bad

/-- The hub always-on reset is released: the boot sequencer runs, or waits until the interlock has left SAFE and MRST# is high. The
release of a SAFE entered in service lets it end after 50 good samples (R565, R577). -/
def execHubAoResetRelease (rs : List FuseRead) (temp : Nat) (bad : List Nat) (s : State) : Res :=
  let p := s.power
  let wait : State := { s with fw := { s.fw with start := some { fuses := some rs, temp := temp, bad := bad } } }
  if p.state = 3 then
    .next (if p.boot then wait else { wait with power := { p with boot := true, good := 0 } })
  else if s.core0Run then .next s
  else if p.mrst then .next wait
  else .next ({ s with hubMainReset := false }.bootAll rs temp bad)

/-- Measurement blocks 3, 4 and 6 of a bank's main image. -/
def State.measureMain (s : State) (b : Nat) : State :=
  let img := s.image b 2
  let body := img.drop 512
  let s := (s.measure 3 (sha3_256 img)).measure 4 (sha3_256 (body.take (Config.manifestLen body)))
  s.measure 6 (leBytes 1 b ++ leBytes 1 (s.rg Rg.system_FUSE_HOLD) ++ leBytes 4 (s.rg Rg.system_LIVE_UPDATES))

/-- A half that is not held leaves reset. -/
def State.releaseHalf (s : State) (h : Nat) : State :=
  if h = 0 then (if s.flag Rg.system_WEST_HOLD then s else s.setRg Rg.system_WEST_IN_RESET 0 0)
  else (if s.flag Rg.system_EAST_HOLD then s else s.setRg Rg.system_EAST_IN_RESET 0 0)

/-- SERVICE_LEVEL leaves 0 once the compartments run and PCIe has trained (R38, R523). -/
def State.levelUp (s : State) : State :=
  if s.fw.mainUp ∧ s.host.linkUp = true ∧ s.rg Rg.identity_SERVICE_LEVEL = 0 ∧ s.rg Rg.system_STAGE = 2 then
    (s.setRg Rg.identity_SERVICE_LEVEL 0 (if s.fw.tested then s.levelOf else 1)).mapUpdate
  else s

/-- Stage-1 verifies the main image of its bank: the compartments start on hub cores 1 to 9 and the halves are released, or
the other bank is forced. -/
def execMainImageVerified (bad : List Nat) (s : State) : Res :=
  if s.rg Rg.system_STAGE ≠ 1 ∨ s.hubMainReset = true then .next s
  else
    let b := s.fw.bank
    match s.imageCause bad b 2 with
    | 0 =>
      let s := (s.setRg Rg.system_STAGE 0 2).setRg Rg.system_FW_VERSION 0 (s.readN (imageAt b 2 + 8) 4)
      let s := { s with fw := { s.fw with mainUp := true, cores := [] } }.measureMain b
      let s := (s.setRg Rg.window_HUB_HOLD 0 (bits (s.rg Rg.window_HUB_HOLD) 9 6 * 2 ^ 9))
      .next (((s.releaseHalf 0).releaseHalf 1).levelUp)
    | _ =>
      let s := (s.bankCause b 6).setRg Rg.system_FALLBACK 0 1
      if s.fw.forced then .next s.noImage
      else
        let s := { s with fw := { s.fw with forced := true } }
        (match s.imageCause bad (1 - b) 1 with
         | 0 => .next (s.loadStage1 (1 - b))
         | c => .next ((s.bankCause (1 - b) c).noImage))

/-- FUSE_RETRY, from BAR0 or the I3C write 0xF1. -/
def execFuseRetry (rs : List FuseRead) (temp : Nat) (bad : List Nat) (s : State) : Res :=
  if s.flag Rg.system_FUSE_HOLD then .next (s.bootAll rs temp bad) else .next s

/-- RECOVERY_REBOOT. -/
def execRecoveryReboot (rs : List FuseRead) (temp : Nat) (bad : List Nat) (s : State) : Res :=
  if s.rg Rg.system_STAGE = 4 ∧ s.hubMainReset = false then .next (s.bootAll rs temp bad) else .next s

/-! ## The boot self-test (R42, R523) -/

/-- Words of a half as the self-test finds them, within the enabled set. -/
def State.testTiles (s : State) (t : SelfTest) (h : Nat) : State :=
  (List.range 4).foldl (fun s i =>
    let k := 4 * h + i
    s.setRg Rg.identity_TILE_WORKING k (t.tiles.getD k 0 &&& s.rg Rg.identity_TILE_ENABLED k)) s

/-- A stack as the self-test finds it, with 8 pseudo-channels or more (R37): a pseudo-channel that does not work gives its logical one to a spare, or leaves a
hole. -/
def State.testStack (s : State) (t : SelfTest) (st : Nat) : State :=
  let on := bitN (t.hbm &&& s.rg Rg.identity_HBM_ENABLED) st && decide (8 ≤ popCount 32 (t.pcs.getD st 0))
  let w := if on then t.pcs.getD st 0 % 2 ^ 32 else 0
  let s := (s.setRg Rg.identity_HBM_WORKING 0 (setBits (s.rg Rg.identity_HBM_WORKING) st 1 (ofBool on))).setRg
    Rg.identity_PC_WORKING st w
  let s := { s with hbm := { s.hbm with
    retired := s.hbm.retired.filter (fun e => e.1 != st), retiring := s.hbm.retiring.filter (fun e => e.1 != st) } }
  (List.range 32).foldl (fun s pc => if bitN w pc then s else s.remapPc st pc) s

/-- LINK_WORKING of the tested halves: ports UP with at least 4 lanes (R41). -/
def State.linksWorking (s : State) : Nat :=
  (List.range 24).foldl (fun a d => a + ofBool (s.linkUp d && decide (4 ≤ popCount 8 (s.rg Rg.dvport_LANES d))
    && s.fw.testedHalves.contains (d / 12)) * 2 ^ d) 0

/-- The boot self-test completes for the halves named (bit 0 West, bit 1 East) that are out of reset: one update of the
working fields, with SERVICE_LEVEL: it sets the highest level whose minimum is met, from level 0 only with PCIe trained (R38, R40,
R42). -/
def execBootSelfTestDone (halves : Nat) (t : SelfTest) (s : State) : Res :=
  if s.hubMainReset = true ∨ s.fw.mainUp = false then .next s
  else
    let hs := (List.range 2).filter (fun h => bitN halves h && s.halfUp h)
    let s := hs.foldl (fun s h =>
      let s := (List.range 3).foldl (fun s i => s.testStack t (3 * h + i)) (s.testTiles t h)
      s.setRg Rg.identity_HUBPORT_WORKING 0 (setBits (s.rg Rg.identity_HUBPORT_WORKING) (4 * h) 4 (bits t.hubports (4 * h) 4))) s
    let s := s.setRg Rg.identity_BRIDGE_WORKING 0 (if s.halfUp 0 && s.halfUp 1 then t.bridge else 0)
    let s := s.setRg Rg.identity_TILES_WORKING 0
      ((List.range 8).foldl (fun a k => a + popCount 32 (s.rg Rg.identity_TILE_WORKING k)) 0)
    let first := !s.fw.tested
    let s := { s with fw := { s.fw with tested := true, testedHalves := hs.foldl (fun l h => insertNat h l) s.fw.testedHalves } }
    let s := s.setRg Rg.identity_LINK_WORKING 0 s.linksWorking
    let s := if s.host.linkUp || s.rg Rg.identity_SERVICE_LEVEL != 0 then s.setRg Rg.identity_SERVICE_LEVEL 0 s.levelOf else s
    let s := s.mapUpdate
    .next (if first = true then
        s.event 0x0A00 (s.rg Rg.identity_SERVICE_LEVEL + s.rg Rg.system_BANK * 2 ^ 2 + s.rg Rg.system_FALLBACK * 2 ^ 3
          + s.rg Rg.system_FW_VERSION * 2 ^ 32)
      else s)

/-! ## Compartments (R528-R530) -/

/-- The compartment to which R528 gives a hub core. -/
def compOf (c : Nat) : Nat := [0, 1, 2, 3, 3, 4, 4, 5, 6, 7].getD c 0

/-- The hub core that runs the work of a core of R528. -/
def State.ranOn (s : State) (c : Nat) : Nat := s.fw.cores.getD c c

/-- The lowest-numbered hub core that runs no compartment. -/
def State.spareCore (s : State) : Option Nat :=
  (List.range 16).find? (fun n => n != 0 && !((List.range 9).any (fun i => s.ranOn (i + 1) == n)))

/-- The work of a hub core of R528 moves to another: a new instance runs there from reset, and the old core is held. -/
def State.moveWork (s : State) (c new : Nat) : State :=
  let old := s.ranOn c
  let s := { s with fw := { s.fw with cores := s.fw.cores.put c new }, freeCtr := s.freeCtr + 1 }
  let s := (s.setCore (.hub new) { pmStamp := s.freeCtr }).setCore (.hub old) { pm := (s.core (.hub old)).pm, pmStamp := (s.core (.hub old)).pmStamp }
  s.setRg Rg.window_HUB_HOLD 0 (setBits (setBits (s.rg Rg.window_HUB_HOLD) (new - 1) 1 0) (old - 1) 1 1)

/-- Paging notices that are still pending are posted again (R291, R530). -/
def State.repostPaging (s : State) : State :=
  s.dv.recv.foldl (fun s (e : Nat × RecvConn) =>
    match e.2.stall with
    | none => s
    | some psn =>
      (match e.2.held.find? (fun p => p.psn == psn) with
       | some p => if e.2.stallTick then s else s.emit (.paging p.src p.cn p.addr)
       | none => s)) s

/-- A synchronous trap in compartment mode on the core that runs the work of hub core `c` of R528: the compartment restarts on
a spare core. `busy`: its Management compartment was executing the front request. -/
def execCompartmentRestart (c vector : Nat) (busy : Bool) (s : State) : Res :=
  match s.spareCore with
  | none => .next s
  | some new =>
    if s.hubMainReset = true ∨ s.fw.mainUp = false ∨ c = 0 ∨ 9 < c then .next s
    else
      let s := s.moveWork c new
      let s := if c = 1 ∧ busy = true then
          (match s.mrFront with
           | some (slot, _) => s.mrReply slot 8 []
           | none => s)
        else s
      let s := if compOf c = 5 then s.repostPaging else s
      .next (s.event 0x0A02 (compOf c + new * 2 ^ 8 + vector * 2 ^ 16))

/-! ## Firmware update (R532, R533, R552) -/

/-- FW_WRITE. -/
def execFwWrite (s : State) : Res :=
  .next (s.manage 0x50 [(8, 1), (16, 8), (24, 8), (32, 4)] (fun s q =>
    let b := fieldAt q 8 1
    let off := fieldAt q 16 8
    let src := fieldAt q 24 8
    let n := fieldAt q 32 4
    if 1 < b ∨ off % 4096 ≠ 0 ∨ bankBytes < off + n ∨ 0x3C0000 < src + n then s.refuse 2
    else if b = s.fw.bank then s.refuse 3
    else
      let a := bankBase b + off
      let s := (s.eraseSectors a n).writeB (kFlash a) (s.readB (kMgmt (0x40000 + src)) n)
      { s with fw := { s.fw with verified := s.fw.verified.filter (fun x => x != b) } }.done))

/-- The failure cause of a bank's two images (R522). -/
def State.verifyBank (s : State) (bad : List Nat) (b : Nat) : Nat :=
  match s.imageCause bad b 1 with
  | 0 => if s.imageCause bad b 2 = 0 then 0 else 6
  | c => c

/-- FW_VERIFY. -/
def execFwVerify (bad : List Nat) (s : State) : Res :=
  .next (s.manage 0x51 [(8, 1)] (fun s q =>
    let b := fieldAt q 8 1
    if 1 < b then s.refuse 2
    else match s.verifyBank bad b with
      | 0 =>
        (0, { s with fw := { s.fw with verified := insertNat b s.fw.verified } },
          s.readB (imageAt b 1 + 8) 4 ++ s.readB (imageAt b 2 + 8) 4 ++ s.readB (imageAt b 2 + 12) 2)
      | c => (5, s, leBytes 1 c)))

/-- BOOT_SELECT. -/
def execBootSelect (bad : List Nat) (s : State) : Res :=
  .next (s.manage 0x53 [(8, 1), (9, 1)] (fun s q =>
    let b := fieldAt q 8 1
    if 1 < b ∨ 1 < fieldAt q 9 1 then s.refuse 2
    else match s.verifyBank bad b with
      | 0 => (s.writeSelector b (fieldAt q 9 1)).done
      | c => (5, s, leBytes 1 c)))

/-- TIME_SET: the first one steps MTIME forward; one that would move it backward, and any later one, slews it (R537). -/
def execTimeSet (s : State) : Res :=
  .next (s.manage 0x54 [(8, 8)] (fun s q =>
    let t := fieldAt q 8 8
    let now := s.rg Rg.system_MTIME
    let done := s.flag Rg.system_TIME_SET_DONE
    let s := s.setRg Rg.system_TIME_SET_DONE 0 1
    if !done && decide (now ≤ t) then (s.setRg Rg.system_MTIME 0 t).done
    else
      (({ s with fw := { s.fw with target := if now = t then none else some t } }).setRg Rg.system_SLEW 0
        (if now = t then 0 else if now < t then 1 else 2)).done))

/-- LIVE_UPDATE starts. -/
def execLiveUpdate (s : State) : Res :=
  match s.mrFront with
  | none => .next s
  | some (slot, req) =>
    if fieldAt req 0 1 ≠ 0x52 then .next s
    else if !reqZero req [(8, 1)] then .next (s.mrReply slot 1 [])
    else
      let b := fieldAt req 8 1
      if 1 < b then .next (s.mrReply slot 2 [])
      else if b = s.fw.bank ∨ s.fw.live.isSome = true ∨ s.fw.verified.contains b = false then .next (s.mrReply slot 5 [])
      else .next { s with fw := { s.fw with live := some { bank := b, slot := slot } },
                          host := { s.host with mrBusy := true } }

/-- Hub cores of R528 that a compartment has. -/
def coresOf (comp : Nat) : List Nat := (List.range 10).filter (fun c => compOf c == comp)

/-- The answer to a live update. -/
def State.liveReply (s : State) (slot status : Nat) : State :=
  { s with host := { s.host with mrBusy := false }, fw := { s.fw with live := none } }.mrReply slot status []

/-- A compartment's work moves to spare cores; each move is noted for the way back. -/
def State.moveComp (s : State) (l : LiveUpdate) (comp : Nat) : State × LiveUpdate :=
  (coresOf comp).foldl (fun (x : State × LiveUpdate) c =>
    match x.1.spareCore with
    | none => x
    | some new => (x.1.moveWork c new, { x.2 with moved := (c, x.1.ranOn c) :: x.2.moved })) (s, l)

/-- The old instance of the compartment in turn reaches its safe point and stops; the new one takes over, or (`ok` false) it
refuses the record, traps or fails its code check, and every compartment goes back. -/
def execHandoverSafePoint (ok : Bool) (s : State) : Res :=
  match s.fw.live with
  | none => .next s
  | some l =>
    if ok then
      let x := s.moveComp l l.comp
      if l.comp < 7 then .next { x.1 with fw := { x.1.fw with live := some { x.2 with comp := l.comp + 1 } } }
      else
        let s := x.1.writeSelector l.bank 0
        let s := { s with fw := { s.fw with bank := l.bank } }.incRg Rg.system_LIVE_UPDATES 0 1
        let s := (s.measureMain l.bank).setRg Rg.system_FW_VERSION 0 (s.readN (imageAt l.bank 2 + 8) 4)
        .next ((s.event 0x0A01 (s.rg Rg.system_FW_VERSION * 2 ^ 32)).liveReply l.slot 0)
    else
      let s := l.moved.foldl (fun s (e : Nat × Nat) => s.moveWork e.1 e.2) s
      .next ((s.event 0x0A01 (1 + l.comp * 2 ^ 8 + s.rg Rg.system_FW_VERSION * 2 ^ 32)).liveReply l.slot 5)

/-! ## PCIe (R357, R523) -/

/-- The host link completes training at a rate (1 to 3), a width, in flit mode or not: the interface answers. -/
def execPcieLinkTrained (rate width : Nat) (flit : Bool) (s : State) : Res :=
  if s.hubMainReset then .next s
  else
    let s := ((s.setRg Rg.host_RATE 0 rate).setRg Rg.host_WIDTH 0 width).setRg Rg.host_FLIT 0 (ofBool flit)
    let s := { s with host := { s.host with linkUp := true } }.setRg Rg.system_HOST_IN_RESET 0 0
    .next s.levelUp

end Sys2Proof.Machine
end

