-- ==== Sys2Proof/Machine/Mctp.lean ====
section
/-!
DEFINITION. The management controller interface: MCTP control, PLDM, READ_EVENTS, sensors, the interlock query (R527,
R534-R536, R577; the message formats are those of DSP0236, DSP0240 and DSP0248, log entry 44).
-/
namespace Sys2Proof.Machine

/-- The I3C target's firmware answers: the compartments run. -/
def State.i3cUp (s : State) : Bool := !s.hubMainReset && s.fw.mainUp

/-- An answer of a message type. -/
def State.i3cAnswer (s : State) (ty : Nat) (bs : List Byte) : State := if s.i3cUp then s.emit (.i3c ty bs) else s

/-! ## MCTP control (type 0x00) -/

/-- An MCTP control request: instance, command, data. Set and Get Endpoint ID, version, message types, vendor message types;
any other command is not supported. -/
def execMctpControl (inst cmd : Nat) (data : List Byte) (s : State) : Res :=
  let ans (s : State) (cc : Nat) (r : List Byte) : Res :=
    .next (s.i3cAnswer 0 (leBytes 1 (inst % 32) ++ leBytes 1 cmd ++ leBytes 1 cc ++ r))
  let ty := fieldAt data 0 1
  match cmd with
  | 1 =>
    let eid := fieldAt data 1 1
    if data.length ≠ 2 then ans s 3 []
    else if 1 < ty % 4 ∨ eid = 0 ∨ eid = 0xFF ∨ (0 < eid ∧ eid < 8) then ans s 2 []
    else ans (if s.i3cUp then { s with fw := { s.fw with eid := eid } } else s) 0 (leBytes 1 0 ++ leBytes 1 eid ++ leBytes 1 0)
  | 2 => ans s 0 (leBytes 1 s.fw.eid ++ leBytes 1 0 ++ leBytes 1 0)
  | 4 =>
    if [0x00, 0x01, 0x05, 0x7E, 0xFF].contains ty then ans s 0 ([1] ++ [0xF1, 0xF3, 0xF1, 0x00])
    else ans s 0x80 []
  | 5 => ans s 0 [3, 0x01, 0x05, 0x7E]
  | 6 => if ty = 0 then ans s 0 ([0xFF, 0] ++ beBytes 2 0x1F7E ++ [0, 0]) else ans s 2 []
  | _ => ans s 5 []

/-! ## PLDM (type 0x01; R535) -/

/-- A PLDM response: instance, PLDM type, command, completion code and data. -/
def State.pldm (s : State) (inst ty cmd cc : Nat) (r : List Byte) : State :=
  s.i3cAnswer 1 (leBytes 1 (inst % 32) ++ leBytes 1 ty ++ leBytes 1 cmd ++ leBytes 1 cc ++ r)

/-- GetTID. -/
def execGetTid (inst : Nat) (s : State) : Res := .next (s.pldm inst 0 0x02 0 [0])

/-- GetPLDMTypes: base, and platform monitoring and control. -/
def execGetPldmTypes (inst : Nat) (s : State) : Res := .next (s.pldm inst 0 0x04 0 (leBytes 8 0x05))

/-- A CRC-32 of DSP0240, bit by bit. -/
def crc32Of (bs : List Byte) : Nat :=
  (bs.foldl (fun c b => (List.range 8).foldl (fun c _ => if c % 2 = 1 then (c / 2) ^^^ 0xEDB88320 else c / 2) (c ^^^ b.toNat))
    0xFFFFFFFF) ^^^ 0xFFFFFFFF

/-- GetPLDMVersion of a type. -/
def execGetPldmVersion (inst ty : Nat) (s : State) : Res :=
  if ty = 0 ∨ ty = 2 then
    let v := leBytes 4 (Config.pldmVersion ty)
    .next (s.pldm inst 0 0x03 0 (leBytes 4 0 ++ [5] ++ v ++ leBytes 4 (crc32Of v)))
  else .next (s.pldm inst 0 0x03 0x83 [])

/-- The commands of a PLDM type, as a bit set. -/
def pldmCommands (ty : Nat) : List Nat := if ty = 0 then [0x02, 0x03, 0x04, 0x05] else [0x0A, 0x0B, 0x11, 0x51]

/-- GetPLDMCommands of a type. -/
def execGetPldmCommands (inst ty : Nat) (s : State) : Res :=
  if ty = 0 ∨ ty = 2 then
    .next (s.pldm inst 0 0x05 0 (leBytes 32 ((pldmCommands ty).foldl (fun a c => a + 2 ^ c) 0)))
  else .next (s.pldm inst 0 0x05 0x83 [])

/-- GetPDR of a record handle; 0 asks for the first. The repository holds one record for each sensor. -/
def execGetPdr (inst handle : Nat) (s : State) : Res :=
  let h := if handle = 0 then 1 else handle
  if 13 < h then .next (s.pldm inst 2 0x51 0x82 [])
  else
    let r := Config.pdr h
    .next (s.pldm inst 2 0x51 0 (leBytes 4 (if h = 13 then 0 else h + 1) ++ leBytes 4 0 ++ [5] ++ leBytes 2 r.length ++ r))

/-- GetSensorReading: sensors 1 to 9 as signed 16-bit numbers, 10 and 13 as unsigned 16-bit ones, 11 and 12 as states. -/
def execGetSensorReading (inst id : Nat) (s : State) : Res :=
  if id = 0 ∨ 13 < id then .next (s.pldm inst 2 0x11 0x80 [])
  else
    let v := s.fw.sensors.getD 0 id
    let (size, n) := if id ≤ 9 then (3, 2) else if id = 11 ∨ id = 12 then (0, 1) else (2, 2)
    .next (s.pldm inst 2 0x11 0 (leBytes 1 size ++ [0, 0, 0, 0, 0] ++ leBytes n v))

/-- PollForPlatformEventMessage: the oldest event that waits, after that which the request acknowledges. -/
def execPollForPlatformEventMessage (inst ack : Nat) (s : State) : Res :=
  if !s.i3cUp then .next s
  else
    let f := s.fw
    let taken := ack == f.eventId && !f.events.isEmpty
    let f := if taken then { f with events := f.events.drop 1, eventId := f.eventId % 65534 + 1 } else f
    let s := { s with fw := f }
    match f.events with
    | [] => .next (s.pldm inst 2 0x0B 0 ([0] ++ leBytes 2 0))
    | (cls, bs) :: _ =>
      .next (s.pldm inst 2 0x0B 0 ([0] ++ leBytes 2 f.eventId ++ leBytes 4 0 ++ [5] ++ leBytes 1 cls ++ leBytes 4 bs.length ++ bs))

/-- READ_EVENTS: records of the management event area from a count on, up to 40, the number of the first before them. -/
def execReadEvents (start : Nat) (s : State) : Res :=
  let n := s.host.evCount
  let lo := max start (n - 4096)
  let k := min 40 (n - lo)
  .next (s.i3cAnswer 0x7E (beBytes 2 0x1F7E ++ leBytes 8 lo ++ leBytes 1 k
    ++ (List.range k).flatMap (fun i => s.readB (kMgmt (0x10000 + 32 * ((lo + i) % 4096))) 32)))

/-- The sensors are updated: 1 to 10 from what is measured, the others from the state (R535). -/
def execSensorUpdate (vals : List Nat) (s : State) : Res :=
  if !s.i3cUp then .next s
  else
    let m := (List.range 10).foldl (fun (m : Cells Nat) i => m.put (i + 1) (vals.getD i 0 % 2 ^ 16)) s.fw.sensors
    let m := ((m.put 11 s.power.inputs).put 12 (s.rg Rg.identity_SERVICE_LEVEL)).put 13 (s.rg Rg.identity_TILES_WORKING)
    .next { s with fw := { s.fw with sensors := m } }

/-- The private write 0xF2 and the 2-byte read in SAFE: the interlock's state and the cause (R577). -/
def execSafeStateQuery (s : State) : Res :=
  if s.power.state = 3 then .next (s.emit (.i3c 0xF2 (leBytes 1 3 ++ leBytes 1 s.power.cause))) else .next s

end Sys2Proof.Machine
end

