-- ==== Sys2Proof/Machine/Plots.lean ====
section
/-!
DEFINITION. Plots: quiesce, freeze, save, restore, resume and removal, mailboxes, and function-level resets (R359, R384-R392).
-/
namespace Sys2Proof.Machine

/-! ## Quiesce (R385) -/

/-- Every ring of a function is shown again. -/
def State.showRings (s : State) (p : Nat) : State := (List.range (ringCount p)).foldl (fun s r => s.showRing p r) s

/-- Something is done for every descriptor of a function that has no completion record: ring, descriptor. -/
def State.eachDesc (s : State) (p : Nat) (f : State → Nat → Ring → Desc → State) : State :=
  (List.range (ringCount p)).foldl (fun s r =>
    match s.ring p r with
    | none => s
    | some g => g.descs.foldl (fun s d => f s r g d) s) s

/-- Contexts of a function stop or start to apply what comes in. -/
def State.freezeCtx (s : State) (p : Nat) (on : Bool) : State :=
  let m := s.eth.conns.map (fun (e : Nat × EthConn) => if e.2.fn = p then (e.1, { e.2 with frozen := on }) else e)
  { s with eth := { s.eth with conns := m } }

/-- A quiesce starts: posted buffers that nothing has been written to end, and nothing inbound is applied. -/
def State.startQuiesce (s : State) (p : Nat) (q : Quiesce) : State :=
  let s := { s with host := { s.host with quiesce := s.host.quiesce.put p q } }
  let s := ((s.setPlot p 2).freezeCtx p true).showRings p
  s.eachDesc p (fun s r g d => if g.kind = 1 ∧ d.done = 0 then s.endDesc p r d.idx 2 11 0 else s)

/-- An operation of an Ethernet context is cut short: on the UDP transport empty packets take the places of its packets, on RoCEv2 those
that have not been sent leave (R288; log entry 140). -/
def State.eopCut (s : State) (k : Nat) (o : EOp) (cause : Nat) : State :=
  let c := s.econn k
  let s := s.eopEnd k o cause
  if !c.roce then s.evoid k o.opid
  else match c.wait with
  | [] => s
  | w :: _ =>
    let s := s.erenumber k w.psn o.opid
    s.setEconn k { s.econn k with pageWait := c.pageWait, resend := c.resend }

/-- An operation of a programmed connection is cut short: empty packets take the places of its packets (R288; log entry 140). -/
def State.opCut (s : State) (k : Nat) (o : DvOp) (cause : Nat) : State := (s.opEnd k o cause).voidOp k o.opid

/-- A transport operation that a descriptor owns ends with a cause. -/
def State.xferCut (s : State) (o : Owner) (cause : Nat) : State :=
  let s := s.eth.conns.foldl (fun s (e : Nat × EthConn) =>
    e.2.ops.foldl (fun s (x : EOp) => if x.owner = o then s.eopCut e.1 x cause else s) s) s
  s.dv.send.foldl (fun s (e : Nat × SendConn) =>
    e.2.ops.foldl (fun s (x : DvOp) => if x.owner = o then s.opCut e.1 x cause else s) s) s

/-- A descriptor that still runs ends with a cause: partial with its exact prefix, or not started (R367, R415, R433). -/
def State.cutDesc (s : State) (p cause r : Nat) (g : Ring) (d : Desc) : State :=
  let o : Owner := .desc p r d.idx
  let s := s.absorb o
  if ((s.ring p r).bind (fun (x : Ring) => x.desc d.idx)).any (fun (x : Desc) => x.fin.isSome) then s
  else if !d.started then s.endDesc p r d.idx 2 cause 0
  else match g.kind with
    | 0 =>
      { s with eth := { s.eth with waiting := s.eth.waiting.filter (fun w => decide (w.desc ≠ some (p, r, d.idx))) } }.endDesc
        p r d.idx 2 cause 0
    | 1 =>
      let s := { s with eth := { s.eth with conns := s.eth.conns.map (fun (e : Nat × EthConn) =>
        if e.2.fn = p ∧ e.2.buf = some (r, d.idx) then (e.1, { e.2 with buf := none }) else e) } }
      s.endDesc p r d.idx (if d.done = 0 then 2 else 1) cause d.done
    | 2 => (s.xferCut o cause).absorb o
    | 3 => s.endDesc p r d.idx (if d.done = 0 then 2 else 1) cause d.done
    | 4 =>
      (match s.stash.cmds.find? (fun (c : StashCmd) => decide (c.owner = o)) with
       | none => s
       | some c => (s.stashStop c.id cause).absorb o)
    | _ =>
      s.cipher.jobs.foldl (fun s (e : Nat × CipherJob) =>
        if e.2.desc = some (p, r, d.idx) ∧ e.2.result = none then s.setJob e.1 { e.2 with result := some (2, cause, 0, false) }
        else s) s

/-- Every descriptor of a function that still runs ends with cause 11. -/
def State.cutAll (s : State) (p : Nat) : State := s.eachDesc p (fun s r g d => s.cutDesc p 11 r g d)

/-- TIMEOUT_MS of a quiesce has passed. -/
def execQuiesceTimeout (p : Nat) (s : State) : Res :=
  match s.host.quiesce.get? p with
  | none => .next s
  | some q =>
    if q.timed then .next s
    else .next ({ s with host := { s.host with quiesce := s.host.quiesce.put p { q with timed := true } } }.cutAll p)

/-- Every completion record of a function has been written. -/
def State.allWritten (s : State) (p : Nat) : Bool :=
  (List.range (ringCount p)).all (fun r => ((s.ring p r).map (fun (g : Ring) => g.descs.isEmpty)).getD true)
    && (s.flr p || (List.range (eqCount p)).all (fun q =>
      ((s.host.eqs.get? (fnKey p q)).map (fun (e : EvQueue) => e.hold.isEmpty)).getD true))

/-- The commit gate freezes the open stream entries of a function and discards what they hold. -/
def State.freezeStreams (s : State) (p : Nat) : State :=
  s.gate.streams.foldl (fun s (e : Nat × StreamEnt) =>
    if e.2.plot = p ∧ e.2.state = 1 then
      (s.incRg Rg.place_DISCARDED 0 e.2.held.length).setEnt e.1 { e.2 with state := 2, held := [] }
    else s) s

/-- The plot-state-changed event (R377). -/
def State.plotEvent (s : State) (p old new : Nat) (q : Quiesce) : State :=
  let pay := p + old * 2 ^ 8 + new * 2 ^ 12 + ofBool q.flr * 2 ^ 15 + q.partially * 2 ^ 32 + q.unstarted * 2 ^ 64
  let s := s.record 0 (s.rg Rg.host_MGR_EQ) p 0x0014 pay
  if q.flr then s else s.record p 0 p 0x0014 pay

/-! ## Removal (R387) -/

/-- A closed or frozen stream entry of a plot is closed. -/
def State.closeStreams (s : State) (p : Nat) : State :=
  s.gate.streams.foldl (fun s (e : Nat × StreamEnt) =>
    if e.2.plot = p then (s.incRg Rg.place_DISCARDED 0 e.2.held.length).setEnt e.1 { e.2 with state := 0, held := [] } else s) s

/-- The regions of a plot are invalidated (R331). -/
def State.closeRegions (s : State) (p : Nat) : State :=
  (List.range 4096).foldl (fun s i =>
    let w := s.readN (s.regionAt i) 32
    if bitN w 5 ∧ bits w 192 7 = p then s.writeN (s.regionAt i) 1 (setBits w 5 1 0 % 256) else s) s

/-- FUNC of a channel entry. -/
def State.channelFn (s : State) (ch : Nat) : Nat := bits (s.host.channels.getD 0 ch) 2 7

/-- Deliveries that wait for a plot are discarded, with an export-error event unless an image carries them (R391). -/
def State.discardDeliveries (s : State) (p : Nat) : State :=
  let mine := s.host.deliveries.filter (fun d => s.channelFn d.channel == p)
  let told := s.host.saved.contains p
  mine.foldl (fun s d =>
    let s := s.dropDelivery d
    if told then s
    else s.record 0 (s.rg Rg.host_MGR_EQ) 0 0x0015
      (d.channel + 2 * 2 ^ 16 + (d.bytes.length - d.sent) * 2 ^ 32 + b48 d.beat)) s

/-- Contexts and programmed connections of a plot are closed. -/
def State.closeConns (s : State) (p : Nat) : State :=
  let s := s.eth.conns.foldl (fun s (e : Nat × EthConn) =>
    if e.2.fn ≠ p then s else if e.2.st = 2 then (s.ctxClear e.1).1 else (s.ctxClose e.1).1) s
  s.dv.send.foldl (fun s (e : Nat × SendConn) => if e.2.isOpen ∧ e.2.func = p then s.dconnClose e.1 else s) s

/-- A plot is removed. -/
def State.removePlot (s : State) (p : Nat) : State :=
  let s := (s.discardDeliveries p).closeConns p
  let s := ((List.range 32).foldl (fun s r => s.delRing p r) s).closeStreams p
  let s := s.closeRegions p
  let h := s.host
  let s := { s with host := { h with
    eqs := h.eqs.drop (fnKey p 0) (fnKey (p + 1) 0),
    channels := h.channels.filter (fun (c : Nat × Nat) => bits c.2 2 7 != p),
    grants := h.grants.drop (8 * p) (8 * p + 8), quiesce := h.quiesce.del p, saved := h.saved.filter (fun x => x != p) } }
  ({ s with dv := { s.dv with ended := s.dv.ended.filter (fun e => match e.owner with
    | .desc f _ _ => f != p
    | _ => true) } }.setPlot p 0).showRings p

/-- The MSI-X table of a function is as after a reset: every vector masked (R388). -/
def State.maskAll (s : State) (p : Nat) : State :=
  { s with host := { s.host with
    unmasked := s.host.unmasked.filter (fun k => k / 64 != p), pba := s.host.pba.filter (fun k => k / 64 != p),
    msix := s.host.msix.drop (fnKey p 0) (fnKey (p + 1) 0) } }

/-! ## The end of a quiesce -/

/-- A quiesce ends: the plot is QUIESCED, or, under an FLR, removed. -/
def State.endQuiesce (s : State) (p : Nat) (q : Quiesce) : State :=
  let s := s.freezeStreams p
  if p = 0 then { s with host := { s.host with quiesce := s.host.quiesce.del 0 } }.showRings 0
  else if q.flr then ((s.removePlot p).maskAll p).plotEvent p q.old 0 q
  else
    let s := ({ s with host := { s.host with quiesce := s.host.quiesce.del p } }.setPlot p 3).showRings p
    let s := s.plotEvent p 2 3 q
    match q.slot with
    | none => s
    | some slot => { s with host := { s.host with mrBusy := false } }.mrReply slot 0 []

/-- At a COMMIT tick, or an idle period that stands in for one, the quiesces whose records are written end (R385, R216). -/
def State.quiesceTick (s : State) : State :=
  s.host.quiesce.foldl (fun s (e : Nat × Quiesce) =>
    match s.host.quiesce.get? e.1 with
    | none => s
    | some q => if s.allWritten e.1 then s.endQuiesce e.1 q else s) s

/-! ## Commands (R383, R385, R387, R390) -/

/-- A request whose answer comes later: a STATUS at once, or the state in which it runs. -/
def State.manageLong (s : State) (op : Nat) (fields : List (Nat × Nat)) (f : Nat → List Byte → Nat ⊕ State) : State :=
  match s.mrFront with
  | none => s
  | some (slot, req) =>
    if fieldAt req 0 1 ≠ op then s
    else if !reqZero req fields then s.mrReply slot 1 []
    else match f slot req with
      | .inl st => s.mrReply slot st []
      | .inr s => { s with host := { s.host with mrBusy := true } }

/-- PLOT_QUIESCE. -/
def execPlotQuiesce (s : State) : Res :=
  .next (s.manageLong 0x10 [(8, 1), (10, 2)] (fun slot q =>
    let p := fieldAt q 8 1
    let ms := fieldAt q 10 2
    if !isPlot p || ms == 0 || decide (1000 < ms) then .inl 2
    else if s.plotState p ≠ 1 then .inl 4
    else .inr (s.startQuiesce p { slot := some slot })))

/-- Receivers of a plot's programmed connections: each peer's packets under the same CN. -/
def State.plotRecv (s : State) (p : Nat) : List Nat :=
  (s.dv.send.filter (fun (e : Nat × SendConn) => e.2.isOpen && e.2.func == p)).map (fun (e : Nat × SendConn) =>
    2 ^ 14 * e.2.peer + e.1)

/-- PLOT_FREEZE: out-of-order packets held for the plot are discarded. -/
def execPlotFreeze (s : State) : Res :=
  .next (s.manage 0x11 [(8, 1)] (fun s q =>
    let p := fieldAt q 8 1
    if !isPlot p then s.refuse 2
    else if s.plotState p ≠ 3 then s.refuse 4
    else
      let mine := s.plotRecv p
      let s := { s with
        eth := { s.eth with conns := s.eth.conns.map (fun (e : Nat × EthConn) =>
          if e.2.fn = p then (e.1, { e.2 with held := [] }) else e) },
        dv := { s.dv with recv := s.dv.recv.map (fun (e : Nat × RecvConn) =>
          if mine.contains e.1 then (e.1, { e.2 with held := [] }) else e) } }
      ((s.setPlot p 4).showRings p).done))

/-- PLOT_RESUME. -/
def execPlotResume (s : State) : Res :=
  .next (s.manage 0x14 [(8, 1)] (fun s q =>
    let p := fieldAt q 8 1
    if !isPlot p then s.refuse 2
    else if s.plotState p ≠ 3 ∧ s.plotState p ≠ 4 then s.refuse 4
    else
      let s := s.gate.streams.foldl (fun s (e : Nat × StreamEnt) =>
        if e.2.plot = p ∧ e.2.state = 2 then s.setEnt e.1 { e.2 with state := 1 } else s) s
      let s := { s with host := { s.host with saved := s.host.saved.filter (fun x => x != p) } }
      (((s.freezeCtx p false).setPlot p 1).showRings p).done))

/-- PLOT_REMOVE. -/
def execPlotRemove (s : State) : Res :=
  .next (s.manage 0x15 [(8, 1)] (fun s q =>
    let p := fieldAt q 8 1
    if !isPlot p then s.refuse 2
    else if s.plotState p ≠ 3 ∧ s.plotState p ≠ 4 then s.refuse 4
    else (s.removePlot p).done))

/-! ## Mailboxes (R384) -/

/-- A plot rings its mailbox. -/
def execMbDb (p : Nat) (s : State) : Res :=
  if !s.hostServed || !isPlot p || s.plotState p == 0 then .next s
  else
    let s := s.incRg Rg.plotStat_MB_REQ_COUNT p 1
    .next (s.record 0 (s.rg Rg.host_MGR_EQ) p 0x0012 (p + s.rg Rg.plotStat_MB_REQ_COUNT p * 2 ^ 16))

/-- The manager rings a plot's reply. -/
def execMbReplyDb (p : Nat) (s : State) : Res :=
  if !s.hostServed || !isPlot p || s.plotState p == 0 then .next s
  else
    let s := s.incRg Rg.plotStat_MB_REPLY_COUNT p 1
    .next (s.record p 0 p 0x0013 (s.rg Rg.plotStat_MB_REPLY_COUNT p * 2 ^ 16))

/-! ## Function-level resets (R359, R388, R389) -/

/-- A request names a plot. -/
def namesPlot (req : List Byte) (p : Nat) : Bool :=
  ([0x01, 0x02, 0x03, 0x04, 0x05, 0x06, 0x07, 0x10, 0x11, 0x12, 0x13, 0x14, 0x15].contains (fieldAt req 0 1)
      && fieldAt req 8 1 == p) || (fieldAt req 0 1 == 0x0D && fieldAt req 10 1 == p)

/-- Requests on a plot that have not started are marked for STATUS 4; one that runs ends with it. -/
def State.overtake (s : State) (p : Nat) : State :=
  let ci := s.rg Rg.host_MR_CI
  let skip := ofBool s.host.mrBusy
  let slots := (List.range (s.host.mrPending - skip)).map (fun i => (ci + skip + i) % 256)
  let mine := slots.filter (fun i => namesPlot (s.readB (kMgmt (256 * i)) 192) p)
  let s := { s with host := { s.host with doomed := mine.foldl (fun l i => insertNat i l) s.host.doomed } }
  match (s.host.quiesce.get? p).bind (fun (q : Quiesce) => q.slot) with
  | some slot => { s with host := { s.host with mrBusy := false } }.mrReply slot 4 []
  | none => s.mrSkip s.host.mrPending

/-- An FLR of a plot. -/
def State.flrPlot (s : State) (p : Nat) : State :=
  if !isPlot p || s.plotState p == 0 then s
  else
    let old := s.plotState p
    let s := s.overtake p
    if old = 1 then s.startQuiesce p { flr := true }
    else if old = 2 then
      let q := s.host.quiesce.getD {} p
      { s with host := { s.host with quiesce := s.host.quiesce.put p { q with flr := true, slot := none, old := 2 } } }
    else ((s.removePlot p).maskAll p).plotEvent p old 0 { flr := true }

/-- An FLR of a plot is asked for. -/
def execFlrPlot (p : Nat) (s : State) : Res := if s.hostUp then .next (s.flrPlot p) else .next s

/-- What an FLR of PF0 starts: FLRs of every plot, and the end of the manager's own ring work, of which its memory gets no record
(R367, R389). -/
def State.flrManager (s : State) : State :=
  let s := (List.range 127).foldl (fun s i => s.flrPlot (i + 1)) s
  s.startQuiesce 0 { flr := true }

/-- An FLR of PF0. -/
def execFlrPf0 (s : State) : Res := if s.hostUp then .next s.flrManager else .next s

/-- VF Enable is set, or NumVFs raised within TotalVFs: `n` virtual functions enumerate (R359). -/
def execVfEnable (n : Nat) (s : State) : Res :=
  if s.hostUp ∧ s.host.linkUp = true ∧ n ≤ s.srIov.totalVfs ∧ s.host.numVfs ≤ n then
    .next { s with host := { s.host with numVfs := n } }
  else .next s

/-- NumVFs is lowered to `n`, or VF Enable cleared (0): each plot that disappears takes an FLR. -/
def execVfDisable (n : Nat) (s : State) : Res :=
  if s.hostUp = false ∨ s.host.numVfs ≤ n then .next s
  else
    let s := (List.range (s.host.numVfs - n)).foldl (fun s i => s.flrPlot (n + 1 + i)) s
    .next { s with host := { s.host with numVfs := n } }

/-! ## Save and restore (R391, R392) -/

/-- A section of a state image. -/
def imageSection (ty : Nat) (es : List (List Byte)) : List Byte :=
  let body := es.flatten
  leBytes 2 ty ++ leBytes 2 es.length ++ leBytes 4 0 ++ leBytes 8 body.length ++ body

/-- A BASE in HBM as an offset in a plot's grant space. -/
def grantOffset : List (Nat × Nat) → Nat → Nat → Nat
  | [], _, a => a
  | (b, l) :: t, off, a => if b ≤ a ∧ a < b + l then off + (a - b) else grantOffset t (off + l) a

/-- Keys below a bound at which a map holds something, rising. -/
def entriesOf {α : Type} (m : Cells α) (lo hi : Nat) : List (Nat × α) :=
  (m.filter (fun (e : Nat × α) => decide (lo ≤ e.1) && decide (e.1 < hi))).map (fun (e : Nat × α) => (e.1 - lo, e.2))

/-- The eleven sections of a plot's image. -/
def State.imageSections (s : State) (p : Nat) : List (List Byte) :=
  let h := s.host
  let regs (f : Fld) : List Byte := (List.range 16).flatMap (fun k => leBytes 4 (s.rg f (16 * p + k)))
  let regions := (List.range 4096).filterMap (fun i =>
    let w := s.readN (s.regionAt i) 32
    if bitN w 5 ∧ bits w 192 7 = p then
      some (leBytes 8 i ++ leBytes 32 (if bits w 0 2 = 1 then setBits w 64 40 (grantOffset (s.grantsOf p) 0 (bits w 64 40)) else w))
    else none)
  [ imageSection 1 ((entriesOf h.rings (fnKey p 0) (fnKey (p + 1) 0)).map (fun (e : Nat × Ring) =>
      leBytes 1 e.1 ++ leBytes 1 e.2.kind ++ leBytes 1 e.2.log2 ++ leBytes 1 e.2.eq ++ leBytes 1 e.2.port ++ leBytes 1 e.2.queue
        ++ leBytes 1 e.2.err ++ leBytes 1 0 ++ leBytes 2 e.2.u ++ leBytes 2 e.2.f ++ leBytes 2 (e.2.bell.getD e.2.p) ++ leBytes 2 0
        ++ leBytes 8 e.2.base)),
    imageSection 2 ((entriesOf h.eqs (fnKey p 0) (fnKey (p + 1) 0)).map (fun (e : Nat × EvQueue) =>
      leBytes 1 e.1 ++ leBytes 1 e.2.log2 ++ leBytes 1 e.2.vector ++ leBytes 1 e.2.modCount ++ leBytes 2 e.2.modTime
        ++ leBytes 2 e.2.ci ++ leBytes 8 e.2.base ++ leBytes 8 e.2.n ++ leBytes 2 (s.rg Rg.plotStat_LOST (4 * p + e.1))
        ++ leBytes 6 (ofBool e.2.lost))),
    imageSection 3 [(List.range 8).flatMap (fun v =>
      let a := h.msix.getD (0, 0) (fnKey p v)
      leBytes 8 a.1 ++ leBytes 4 a.2 ++ leBytes 4 (ofBool (!h.unmasked.contains (fnKey p v))))
        ++ leBytes 8 ((List.range 8).foldl (fun a v => a + ofBool (h.pba.contains (fnKey p v)) * 2 ^ v) 0)],
    imageSection 4 ((entriesOf h.grants (8 * p) (8 * p + 8)).map (fun (e : Nat × Nat × Nat) => leBytes 8 e.1 ++ leBytes 8 e.2.2)),
    imageSection 5 ((s.eth.conns.filter (fun (e : Nat × EthConn) => e.2.fn == p)).map (fun (e : Nat × EthConn) =>
      leBytes 4 e.1 ++ leBytes 4 e.2.psn ++ leBytes 4 e.2.next ++ leBytes 4 0 ++ s.readB (s.ctxAt e.1) 64)),
    imageSection 6 regions,
    imageSection 7 ((s.gate.streams.filter (fun (e : Nat × StreamEnt) => e.2.plot == p && e.2.state == 2)).map
      (fun (e : Nat × StreamEnt) => leBytes 8 e.1 ++ leBytes 32 e.2.word)),
    imageSection 8 ((h.channels.filter (fun (c : Nat × Nat) => bits c.2 0 2 != 0 && bits c.2 2 7 == p)).map
      (fun (c : Nat × Nat) => leBytes 8 c.1 ++ leBytes 8 c.2)),
    imageSection 9 ((s.dv.send.filter (fun (e : Nat × SendConn) => e.2.isOpen && e.2.func == p)).map
      (fun (e : Nat × SendConn) =>
        leBytes 2 (e.1 % 4096) ++ leBytes 1 e.2.peer ++ leBytes 1 e.2.engine ++ leBytes 4 e.2.vc ++ leBytes 4 e.2.psn
          ++ leBytes 4 ((s.dv.recv.getD {} (2 ^ 14 * e.2.peer + e.1)).next))),
    imageSection 10 [regs Rg.plotStat_MB_REQ ++ regs Rg.plotStat_MB_REPLY ++ leBytes 2 (s.rg Rg.plotStat_MB_REQ_COUNT p)
      ++ leBytes 2 (s.rg Rg.plotStat_MB_REPLY_COUNT p) ++ leBytes 4 0],
    imageSection 11 ((h.deliveries.filter (fun d => s.channelFn d.channel == p)).map (fun d =>
      leBytes 8 d.channel ++ leBytes 8 d.beat ++ leBytes 8 (d.bytes.length - d.sent) ++ d.bytes.drop d.sent)) ]

/-- The state image of a plot. -/
def State.plotImage (s : State) (p : Nat) : List Byte :=
  let secs := s.imageSections p
  let body := secs.flatten
  let head := leBytes 4 0x544F4C50 ++ leBytes 2 1 ++ leBytes 1 p ++ leBytes 1 0 ++ leBytes 8 (96 + body.length)
    ++ leBytes 8 (s.rg Rg.identity_SERIAL_LO + s.rg Rg.identity_SERIAL_HI * 2 ^ 32) ++ leBytes 8 (s.rg Rg.beat_BEATNO)
    ++ leBytes 2 secs.length ++ leBytes 30 0
  head ++ body ++ sha3_256 (head ++ body)

/-- PLOT_SAVE. -/
def execPlotSave (s : State) : Res :=
  .next (s.manage 0x12 [(8, 1), (9, 1), (16, 8), (24, 8)] (fun s q =>
    let p := fieldAt q 8 1
    let sp := fieldAt q 9 1
    let a := fieldAt q 16 8
    let room := fieldAt q 24 8
    if !isPlot p || (sp != 0 && sp != 3) || (sp == 3 && decide (0x3C0000 < a + room)) then s.refuse 2
    else if s.plotState p ≠ 4 then s.refuse 4
    else
      let img := s.plotImage p
      if room < img.length then s.refuse 6
      else
        let s := { s with host := { s.host with saved := insertNat p s.host.saved } }
        (0, if sp = 0 then s.hostWrite 0 a img else s.writeB (kMgmt (0x40000 + a)) img, leBytes 8 img.length)))

/-- The sections of an image body: type, entry count, bytes. -/
def imageParts : Nat → List Byte → List (Nat × Nat × List Byte)
  | 0, _ => []
  | n + 1, b =>
    let len := fieldAt b 8 8
    (fieldAt b 0 2, fieldAt b 2 2, (b.drop 16).take len) :: imageParts n (b.drop (16 + len))

/-- The entries of a section of a type, each of `size` bytes. -/
def partEntries (ps : List (Nat × Nat × List Byte)) (ty size : Nat) : List (List Byte) :=
  (ps.filter (fun x => x.1 == ty)).flatMap (fun x => (List.range x.2.1).map (fun i => (x.2.2.drop (size * i)).take size))

/-- Waiting deliveries of a section. -/
def partDeliveries : Nat → List Byte → List Delivery
  | 0, _ => []
  | n + 1, b =>
    let len := fieldAt b 16 8
    { channel := fieldAt b 0 8, beat := fieldAt b 8 8, bytes := (b.drop 24).take len } :: partDeliveries n (b.drop (24 + len))

/-- Some numbered object of an image is present on this module. -/
def State.imageClash (s : State) (ps : List (Nat × Nat × List Byte)) : Bool :=
  (partEntries ps 5 80).any (fun e => (s.econn (fieldAt e 0 4)).st != 0)
    || (partEntries ps 6 40).any (fun e => bitN (s.readN (s.regionAt (fieldAt e 0 8)) 32) 5)
    || (partEntries ps 7 40).any (fun e => (s.ent (fieldAt e 0 8)).state != 0)
    || (partEntries ps 8 16).any (fun e => bits (s.host.channels.getD 0 (fieldAt e 0 8)) 0 2 != 0)
    || (partEntries ps 9 16).any (fun e => (s.conn (connKey 2 (fieldAt e 0 2))).isOpen)

/-- The host's side of a plot is re-created: rings, event queues, MSI-X, grants, mailbox. -/
def State.restoreHost (s : State) (p : Nat) (ps : List (Nat × Nat × List Byte)) (bases : List Nat) : State :=
  let s := (partEntries ps 1 24).foldl (fun s e =>
    let g : Ring := { kind := fieldAt e 1 1, log2 := fieldAt e 2 1, eq := fieldAt e 3 1, port := fieldAt e 4 1,
                      queue := fieldAt e 5 1, err := fieldAt e 6 1, u := fieldAt e 8 2, f := fieldAt e 10 2,
                      p := fieldAt e 10 2, base := fieldAt e 16 8,
                      bell := if fieldAt e 12 2 = fieldAt e 10 2 then none else some (fieldAt e 12 2) }
    s.setRing p (fieldAt e 0 1) g) s
  let s := (partEntries ps 2 32).foldl (fun s e =>
    let n := fieldAt e 0 1
    let q : EvQueue := { log2 := fieldAt e 1 1, vector := fieldAt e 2 1, modCount := fieldAt e 3 1, modTime := fieldAt e 4 2,
                         ci := fieldAt e 6 2, base := fieldAt e 8 8, n := fieldAt e 16 8, lost := fieldAt e 26 1 != 0 }
    ({ s with host := { s.host with eqs := s.host.eqs.put (fnKey p n) q } }.setRg Rg.plotStat_EQ_CI (4 * p + n) q.ci).setRg
      Rg.plotStat_LOST (4 * p + n) (fieldAt e 24 2)) s
  let s := (partEntries ps 3 136).foldl (fun s e =>
    (List.range 8).foldl (fun s v =>
      let k := fnKey p v
      let h := s.host
      { s with host := { h with
        msix := h.msix.put k (fieldAt e (16 * v) 8, fieldAt e (16 * v + 8) 4),
        unmasked := if fieldAt e (16 * v + 12) 4 % 2 = 0 then insertNat k h.unmasked else h.unmasked.filter (fun x => x != k),
        pba := if bitN (fieldAt e 128 8) v then insertNat k h.pba else h.pba.filter (fun x => x != k) } }) s) s
  let s := (partEntries ps 4 16).foldl (fun s e =>
    let i := fieldAt e 0 8
    { s with host := { s.host with grants := s.host.grants.put (8 * p + i) (bases.getD i 0, fieldAt e 8 8) } }) s
  (partEntries ps 10 136).foldl (fun s e =>
    let s := (List.range 16).foldl (fun s k =>
      (s.setRg Rg.plotStat_MB_REQ (16 * p + k) (fieldAt e (4 * k) 4)).setRg Rg.plotStat_MB_REPLY (16 * p + k)
        (fieldAt e (64 + 4 * k) 4)) s
    (s.setRg Rg.plotStat_MB_REQ_COUNT p (fieldAt e 128 2)).setRg Rg.plotStat_MB_REPLY_COUNT p (fieldAt e 130 2)) s

/-- The rest of a plot is re-created: contexts, regions, streams, channels, connections, deliveries. -/
def State.restoreRest (s : State) (ps : List (Nat × Nat × List Byte)) : State :=
  let s := (partEntries ps 5 80).foldl (fun s e =>
    let k := fieldAt e 0 4
    let w := fieldAt e 16 64
    (s.setEconn k { word := w, psn := fieldAt e 4 4, next := fieldAt e 8 4, rto := s.rg Rg.eth_RTO_INIT_E, frozen := true }).writeN
      (s.ctxAt k) 64 w) s
  let s := (partEntries ps 6 40).foldl (fun s e =>
    let w := fieldAt e 8 32
    s.writeN (s.regionAt (fieldAt e 0 8)) 32 ((s.regionAbs w).getD w)) s
  let s := (partEntries ps 7 40).foldl (fun s e =>
    let w := fieldAt e 8 32
    s.setEnt (fieldAt e 0 8) (entOf w (bits w 192 64))) s
  let s := (partEntries ps 8 16).foldl (fun s e =>
    { s with host := { s.host with channels := s.host.channels.set 0 (fieldAt e 0 8) (fieldAt e 8 8) } }) s
  let s := (partEntries ps 9 16).foldl (fun s e =>
    let k := connKey 2 (fieldAt e 0 2)
    let r := 2 ^ 14 * fieldAt e 2 1 + k
    let c : SendConn := { peer := fieldAt e 2 1, engine := fieldAt e 3 1, vc := fieldAt e 4 4, func := 0, isOpen := true,
                          psn := fieldAt e 8 4, una := fieldAt e 8 4 }
    let s := s.setConn k c
    { s with dv := { s.dv with recv := s.dv.recv.set {} r { next := fieldAt e 12 4 } } }) s
  let ds := (ps.filter (fun x => x.1 == 11)).flatMap (fun x => partDeliveries x.2.1 x.2.2)
  { s with host := { s.host with deliveries := ds ++ s.host.deliveries } }.showStaging

/-- PLOT_RESTORE; `dma` is the image where it lies in host memory. -/
def execPlotRestore (dma : List Byte) (s : State) : Res :=
  .next (s.manage 0x13 [(8, 1), (9, 1), (16, 8), (24, 8), (32, 64)] (fun s q =>
    let p := fieldAt q 8 1
    let sp := fieldAt q 9 1
    let a := fieldAt q 16 8
    let n := fieldAt q 24 8
    let bases := (List.range 8).map (fun i => fieldAt q (32 + 8 * i) 8)
    if !isPlot p || (sp != 0 && sp != 3) || (sp == 3 && decide (0x3C0000 < a + n)) then s.refuse 2
    else if s.plotState p ≠ 0 then s.refuse 4
    else
      let img := if sp = 0 then dma.take n else s.readB (kMgmt (0x40000 + a)) n
      let ps := imageParts (fieldAt img 32 2) ((img.drop 64).take (img.length - 96))
      let gs := (partEntries ps 4 16).map (fun e => (bases.getD (fieldAt e 0 8) 0, fieldAt e 8 8))
      if img.length < 96 ∨ fieldAt img 0 4 ≠ 0x544F4C50 ∨ fieldAt img 4 2 ≠ 1 ∨ fieldAt img 8 8 ≠ img.length
          ∨ sha3_256 (img.take (img.length - 32)) ≠ img.drop (img.length - 32) then s.refuse 5
      else if fieldAt img 6 1 ≠ p then s.refuse 2
      else if s.imageClash ps = true ∨ bases.any (fun b => b % 2 ^ 21 != 0) = true
          ∨ gs.any (fun g => decide (s.hbmBytes < g.1 + g.2)) = true then s.refuse 5
      else
        let s := ((s.plotClear p).restoreHost p ps bases).restoreRest ps
        let s := { s with dv := { s.dv with send := s.dv.send.map (fun (e : Nat × SendConn) =>
          if (partEntries ps 9 16).any (fun x => connKey 2 (fieldAt x 0 2) == e.1) then (e.1, { e.2 with func := p }) else e) } }
        ((s.setPlot p 4).showRings p).done))

end Sys2Proof.Machine
end

