-- ==== Sys2Proof/Machine/Mulch.lean ====
section
/-!
DEFINITION. Mulch: cutting a checkpoint, copy before write, sealing and storing an image, its failures, and restores
(R475-R497).
-/
namespace Sys2Proof.Machine

/-! ## The contents of a checkpoint (R475, R477, R487) -/

/-- The checkpoint ranges in use: first page, last page, KIND, DEDUP. -/
def State.ckRanges (s : State) : List (Nat × Nat × Nat × Bool) :=
  ((List.range 16).filter (fun k => s.flag Rg.mulch_CKR_EN k)).map (fun k =>
    (s.rg Rg.mulch_CK_BASE k, s.rg Rg.mulch_CK_LIM k, s.rg Rg.mulch_KIND k, s.flag Rg.mulch_DEDUP k))

/-- Two page ranges share a page. -/
def pagesMeet (a b : Nat × Nat) : Bool := decide (a.1 ≤ b.2) && decide (b.1 ≤ a.2)

/-- No two of the ranges meet. -/
def rangesApart : List (Nat × Nat) → Bool
  | [] => true
  | r :: t => t.all (fun q => !pagesMeet r q) && rangesApart t

/-- The ranges keep the rules of R475. -/
def State.ckConfigOk (s : State) : Bool :=
  let rs := s.ckRanges.map (fun r => (r.1, r.2.1))
  let slot := fun (f : Fld) => (s.rg f, s.rg f + s.rg Rg.mulch_LAND_PAGES - 1)
  let lands := if s.rg Rg.mulch_LAND_PAGES = 0 then [] else [slot Rg.mulch_LAND_A, slot Rg.mulch_LAND_B]
  let keep := (s.rg Rg.mulch_CUT_BASE, s.rg Rg.mulch_CUT_LIM) :: lands
  rs.all (fun r => decide (r.1 ≤ r.2) && decide ((r.2 + 1) * 2 ^ 21 ≤ s.hbmBytes))
    && rangesApart rs && rs.all (fun r => keep.all (fun q => !pagesMeet r q))
    && s.ckRanges.all (fun r => decide (r.2.2.1 ≤ 5))

/-- CK_EN is written: it stays 0, with FAIL_CAUSE 1, where the ranges break R475. -/
def State.ckEnable (s : State) (v : Bool) : State :=
  if v && !s.ckConfigOk then (s.setRg Rg.mulch_CK_EN 0 0).setRg Rg.mulch_FAIL_CAUSE 0 1
  else s.setRg Rg.mulch_CK_EN 0 (ofBool v)

/-- The 2 MiB page of HBM as committed, with its digest. -/
def State.ckPage (s : State) (p kind : Nat) (dedup : Bool) : CkPage :=
  { page := p, kind := kind, dedup := dedup, digest := sha3_256 ((s.readHbm (p * 2 ^ 21) (2 ^ 21)).getD (s.freeBytes (2 ^ 21))) }

/-- The pages of the contents in ascending order. -/
def State.ckPages (s : State) : List CkPage :=
  sortBy (fun p => p.page) (s.ckRanges.flatMap (fun r =>
    (List.range (r.2.1 + 1 - r.1)).map (fun i => s.ckPage (r.1 + i) r.2.2.1 r.2.2.2)))

/-- The 32-byte records of the open and frozen streams: PENDING 0, POS_WRITTEN at POS_VERIFIED, and the stream's number in
bits [159:144] (log entry 60). -/
def State.ckStreams (s : State) : List Nat :=
  (s.gate.streams.filter (fun (e : Nat × StreamEnt) => e.2.state == 1 || e.2.state == 2)).map (fun (e : Nat × StreamEnt) =>
    ({ e.2 with held := [] } : StreamEnt).word + e.1 * 2 ^ 144)

/-- The first 40 bytes of the image header. -/
def State.ckHead (s : State) (c : Nat) : List Byte :=
  leBytes 4 0x48434C4D ++ leBytes 2 1 ++ leBytes 1 (s.rg Rg.place_STRIP) ++ leBytes 1 (s.rg Rg.place_STRETCH) ++ leBytes 8 c
    ++ leBytes 4 (s.rg Rg.place_BED_ID) ++ leBytes 1 (s.rg Rg.place_STRIPS) ++ leBytes 1 (s.rg Rg.place_STRETCHES)
    ++ leBytes 2 0 ++ leBytes 4 (s.rg Rg.place_STRETCH_LEN_LO) ++ leBytes 2 (s.rg Rg.place_STRETCH_LEN_HI) ++ leBytes 2 0
    ++ leBytes 4 (s.rg Rg.identity_SERIAL_LO) ++ leBytes 4 (s.rg Rg.identity_SERIAL_HI)

/-- A reference to another image, if the page is one. -/
def Mulch.ref? (m : Mulch) (p : Nat) : Option (Nat × Nat × Nat) := (m.refs.find? (fun r => r.1 == p)).map (fun r => r.2)

/-- The entries of the page table from a page on, given the data offset that the next written page has. -/
def Mulch.table (m : Mulch) : Nat → List CkPage → List Byte
  | _, [] => []
  | off, p :: t =>
    match m.ref? p.page with
    | some (b, i, j) =>
      leBytes 6 (p.page * 2 ^ 21) ++ leBytes 1 (p.kind + 8) ++ leBytes 1 b ++ leBytes 1 i ++ leBytes 1 j ++ leBytes 6 0
        ++ p.digest ++ m.table off t
    | none => leBytes 6 (p.page * 2 ^ 21) ++ leBytes 1 p.kind ++ leBytes 1 0 ++ leBytes 8 off ++ p.digest ++ m.table (off + 2 ^ 21) t

/-- The header, the stream section and the page table of the image (R487). -/
def Mulch.front (m : Mulch) : List Byte :=
  let ns := m.streams.length
  let np := m.pages.length
  let head := m.head ++ leBytes 4 ns ++ leBytes 4 np
  let rest := m.streams.flatMap (fun w => leBytes 32 w) ++ m.table (256 + 32 * ns + 48 * np) m.pages
  let blank := List.replicate 176 (0 : Byte)
  head ++ sha3_256 (head ++ List.replicate 32 0 ++ blank ++ rest) ++ blank ++ rest

/-! ## Cutting and sealing (R478-R483) -/

/-- This member writes the page of a cutting: it is no DEDUP page, or the assignment leaves it here. -/
def Mulch.writesPage (m : Mulch) (p : Nat) : Bool :=
  (m.ref? p).isNone && (m.assigned || !(m.pages.any (fun x => x.page == p && x.dedup)))

/-- The neighbour's volume that the running checkpoint is written to (R483, R496). -/
def State.landVolume (s : State) : Nat := if s.mulch.vol = 0 then s.rg Rg.mulch_VOL_A else s.rg Rg.mulch_VOL_B

/-- Every page is written and assigned: the seal goes to the neighbour, with the slot's first page and the volume (R481, log
entry 72). -/
def State.sealTry (s : State) : State :=
  let m := s.mulch
  if m.run && m.cut.isNone && !m.sealed_ && m.assigned
      && m.marks.all (fun r => (List.range (r.2 - r.1)).all (fun i => m.copied.contains (r.1 + i)))
      && m.buffer.all (fun (b : Nat × Nat) => !m.marked b.2) then
    ({ s with mulch := { m with sealed_ := true } }).emit (.mulch 3 (s.rg Rg.mulch_MULCH_PEER)
      (leBytes 4 s.landPage ++ leBytes 1 s.landVolume ++ m.front))
  else s

/-- The cut tick of beat c: the contents are fixed and every cutting of them is pending (R479, R481). -/
def State.cutNow (s : State) (c : Nat) : State :=
  let ps := s.ckPages
  let s := { s with mulch := { s.mulch with
    cut := none, lastCut := s.rg Rg.system_MTIME, marks := ps.map (fun (p : CkPage) => (32 * p.page, 32 * p.page + 32)), copied := [],
    head := s.ckHead c, streams := s.ckStreams, pages := ps, refs := [], assigned := !ps.any (fun (p : CkPage) => p.dedup),
    sealed_ := false } }.drawn
  let s := (s.setRg Rg.mulch_CUT_BEAT 0 c).setRg Rg.mulch_STATE 0 2
  let s := if s.isMaster || s.mulch.assigned then s
    else s.mulchTell 4 ((ps.filter (fun (p : CkPage) => p.dedup)).flatMap (fun (p : CkPage) => leBytes 4 p.page ++ p.digest))
  s.sealTry

/-- The slot or volume that does not hold the latest held or durable checkpoint (R483). -/
def State.otherHalf (s : State) (count : Nat) (f : Fld) : Nat := if s.rg Rg.mulch_MCNT count = 0 then 0 else 1 - s.rg f

/-- The master starts a checkpoint with cut beat c (R479). -/
def State.startCut (s : State) (c : Nat) : State :=
  let slot := s.otherHalf 0 Rg.mulch_HELD_SLOT
  let vol := s.otherHalf 1 Rg.mulch_DURABLE_VOL
  let s := { s with mulch := { s.mulch with
    run := true, cut := some c, acks := [s.rg Rg.beat_MID], slot := slot, vol := vol, deferred := false, heldBy := [] } }
  (s.setRg Rg.mulch_STATE 0 1).mulchTell 0 (leBytes 8 c ++ leBytes 1 slot ++ leBytes 1 vol)

/-- Corrected records over the latest CE_WINDOW beats, as this fault manager has recorded them (log entry 146). -/
def State.ceCount (s : State) : Nat :=
  s.fm.ceBeats.countP (fun b => decide (s.rg Rg.beat_BEATNO - b ≤ s.rg Rg.mulch_CE_WINDOW))

/-- A trigger of R478 fires at the tick that has closed beat BEATNO − 1. -/
def State.triggered (s : State) : Bool :=
  let n := s.rg Rg.beat_BEATNO
  let every := s.rg Rg.mulch_CK_BEATS
  let secs := s.rg Rg.mulch_CK_TIMER_S
  let ce := s.rg Rg.mulch_CE_THRESH
  s.flag Rg.mulch_CK_EN && n != 0
    && ((every != 0 && n % every == 0) || (secs != 0 && decide (s.mulch.lastCut + secs * 10 ^ 9 ≤ s.rg Rg.system_MTIME))
      || (ce != 0 && decide (ce < s.ceCount)) || s.mulch.asked)

/-- The master evaluates its triggers after a COMMIT tick: it starts a checkpoint, or defers it while one is cut and not held
(R478-R480). A trigger that fires while the cut itself is still pending is met by that cut (log entry 74). -/
def execCheckpointTrigger (s : State) : Res :=
  if !s.isMaster || !s.dom.ticking || !s.triggered then .next s
  else
    let s := { s with mulch := { s.mulch with asked := false } }
    let m := s.mulch
    if !m.run then .next (s.startCut (s.rg Rg.beat_BEATNO + 1))
    else if m.cut.isSome || m.deferred then .next s
    else .next ({ s with mulch := { m with deferred := true } }.incRg Rg.mulch_MCNT 3 1)

/-- CUT(c) reaches a member, which acknowledges it, or, where CK_EN is 0, reports a configuration error; an acknowledgement
reaches the master. -/
def execCutMessage (m : CutMsg) (s : State) : Res :=
  match m with
  | .cut c slot vol =>
    if !s.dom.member || s.isMaster then .next s
    else if !s.flag Rg.mulch_CK_EN then
      .next ((s.setRg Rg.mulch_FAIL_CAUSE 0 1).mulchTell 5 (leBytes 1 1 ++ leBytes 1 (s.rg Rg.beat_MID)))
    else
      .next (({ s with mulch := { s.mulch with run := true, cut := some c, slot := slot % 2, vol := vol % 2 } }.setRg
        Rg.mulch_STATE 0 1).mulchTell 1 (leBytes 8 c))
  | .ack mid =>
    if s.isMaster && s.mulch.cut.isSome then
      .next { s with mulch := { s.mulch with acks := insertNat mid s.mulch.acks } }.tryDone
    else .next s

/-! ## The writer assignment (R482) -/

/-- The order of R482. -/
def pageRank (p : PageDigest) : Nat := ((p.bed * 2 ^ 8 + p.strip) * 2 ^ 8 + p.stretch) * 2 ^ 20 + p.page

/-- Whoever writes the page with a digest: the holder of lowest rank. -/
def pageWriter (all : List PageDigest) (d : List Byte) : Option PageDigest :=
  (sortBy pageRank (all.filter (fun p => p.digest == d))).head?

/-- The references that a member records: its pages whose writer is another page. -/
def refsOf (all : List PageDigest) (mid : Nat) : List (Nat × Nat × Nat × Nat) :=
  (all.filter (fun p => p.mid == mid)).filterMap (fun p =>
    match pageWriter all p.digest with
    | some w => if w.mid = p.mid ∧ w.page = p.page then none else some (p.page, w.bed, w.strip, w.stretch)
    | none => none)

/-- The index of this member's bed among the replicas. -/
def State.bedIndex (s : State) : Nat :=
  if s.flag Rg.fault_REP_EN then ((s.repBeds.zipIdx.find? (fun e => e.1 == s.rg Rg.place_BED_ID)).map (fun e => e.2)).getD 0 else 0

/-- The assignment is in force here: referenced pages are not copied. -/
def State.assign (s : State) (refs : List (Nat × Nat × Nat × Nat)) : State :=
  let m := s.mulch
  let gone := refs.flatMap (fun r => (List.range 32).map (fun i => 32 * r.1 + i))
  ({ s with mulch := { m with
    assigned := true, refs := refs, copied := m.copied ++ gone,
    buffer := m.buffer.filter (fun (b : Nat × Nat) => !gone.contains b.2) } }.incRg Rg.mulch_MCNT 6 refs.length).sealTry

/-- The master assigns a writer to every page, or its assignment arrives. -/
def execDedupAssign (m : AssignMsg) (s : State) : Res :=
  if !s.mulch.run || s.mulch.cut.isSome || (!s.isMaster && s.mulch.assigned) then .next s
  else match m with
    | .gathered ps =>
      if !s.isMaster then .next s
      else
        let me := s.rg Rg.beat_MID
        let own := (s.mulch.pages.filter (fun p => p.dedup)).map (fun p =>
          ({ mid := me, bed := s.bedIndex, strip := s.rg Rg.place_STRIP, stretch := s.rg Rg.place_STRETCH, page := p.page,
             digest := p.digest } : PageDigest))
        let all := own ++ ps
        let s := (ps.foldl (fun l p => insertNat p.mid l) []).foldl (fun s mid =>
          s.emit (.mulch 8 mid ((refsOf all mid).flatMap (fun r =>
            leBytes 4 r.1 ++ leBytes 1 r.2.1 ++ leBytes 1 r.2.2.1 ++ leBytes 1 r.2.2.2)))) s
        .next ((if s.mulch.assigned then s else s.assign (refsOf all me)).advanceWaiting)
    | .assigned refs => if s.isMaster then .next s else .next (s.assign refs).advanceWaiting

/-! ## Copy before write (R485, R486) -/

/-- A write to a pending cutting is held: its copy begins where the cut buffer has room. -/
def execCowHold (a : Nat) (s : State) : Res :=
  let c := a / 65536
  if !s.cutPending c || s.mulch.holding.contains c then .next s
  else match s.cutSlot with
    | none => .next (s.incRg Rg.mulch_MCNT 5 1)
    | some i => .next { s with mulch := { s.mulch with
        holding := s.mulch.holding ++ [c], buffer := s.mulch.buffer.put i c } }

/-- One step of the copy of a cutting. A held one lies in the cut buffer from now on and its write goes on, after `ns`; one in
the buffer, or one in background order, has been sent (R485). -/
def execCowCopyDone (c ns : Nat) (s : State) : Res :=
  let m := s.mulch
  let s :=
    if m.holding.contains c then
      let s := match m.buffer.find? (fun (b : Nat × Nat) => b.2 == c) with
        | some b => s.writeHbm (s.rg Rg.mulch_CUT_BASE * 2 ^ 21 + b.1 * 65536) ((s.readHbm (c * 65536) 65536).getD (s.freeBytes 65536))
        | none => s
      let s := ((s.cutDone c).incRg Rg.mulch_MCNT 4 1).incRg Rg.mulch_COW_STALL_NS 0 ns
      if m.marked c ∧ m.copied.contains c = false then s
      else { s with mulch := { s.mulch with buffer := s.mulch.buffer.filter (fun (b : Nat × Nat) => b.2 != c) } }
    else if !m.writesPage (c / 32) then s
    else if m.buffer.any (fun (b : Nat × Nat) => b.2 == c) then
      let s := s.sendCutting c
      { s with mulch := { s.mulch with buffer := m.buffer.filter (fun (b : Nat × Nat) => b.2 != c) } }
    else if m.marked c ∧ m.copied.contains c = false then (s.sendCutting c).cutDone c
    else s
  .next s.drawn.sealTry.advanceWaiting.eadvanceWaiting

/-! ## Held, durable, failed (R483, R484, R488) -/

/-- The neighbour's slot holds the image of `src`: Stash writes it to a volume, class C3 with FORCE 1, and a FLUSH follows. -/
def State.storeImage (s : State) (src page len volume : Nat) : State :=
  let sec := max 1 (s.sector (s.rg Rg.stash_V_SLOT volume))
  let n := ceilDiv len (2 ^ 30)
  let s := (List.range n).foldl (fun s i =>
    s.stashFirmware (.mulch src) 1 3 true volume 1 (page * 2 ^ 21 + i * 2 ^ 30) (i * 2 ^ 30 / sec)
      (ceilDiv (min (2 ^ 30) (len - i * 2 ^ 30)) sec)) s
  { s with mulch := { s.mulch with stores := s.mulch.stores ++ [(src, n + 1)] } }.stashFirmware (.mulch src) 3 3 false volume 0 0 0 0

/-- The seal has been acknowledged here, a member reports its image held, or this module's slot holds an image. -/
def execImageHeld (m : ImageMsg) (s : State) : Res :=
  match m with
  | .sealAcked =>
    if !s.mulch.run || !s.mulch.sealed_ then .next s
    else if s.isMaster then
      .next ({ s with mulch := { s.mulch with heldBy := insertNat (s.rg Rg.beat_MID) s.mulch.heldBy } }.setRg Rg.mulch_STATE 0 3)
    else .next (({ s with mulch := { s.mulch with run := false } }.setRg Rg.mulch_STATE 0 3).mulchTell 6
      (leBytes 1 (s.rg Rg.beat_MID)))
  | .member mid =>
    if s.isMaster && s.mulch.run && s.mulch.cut.isNone then
      .next { s with mulch := { s.mulch with heldBy := insertNat mid s.mulch.heldBy } }
    else .next s
  | .landed src page len volume => .next (s.storeImage src page len volume)

/-- Commands of the neighbour's that wrote the image of a source and have ended: their causes. -/
def State.storeEnds (s : State) (src : Nat) : List Nat :=
  (s.dv.ended.filter (fun e => e.owner == Owner.mulch src)).map (fun e => e.cause)

/-- The neighbour's FLUSH has completed; the report goes to the source and on to the master. -/
def execCheckpointDurable (m : DurableMsg) (s : State) : Res :=
  match m with
  | .flushed src =>
    (match s.mulch.stores.find? (fun e => e.1 == src) with
     | none => .next s
     | some (_, n) =>
       let ends := s.storeEnds src
       if ends.length < n then .next s
       else
         let s := { s with
           mulch := { s.mulch with stores := removeFirst (fun e => e.1 == src) s.mulch.stores },
           dv := { s.dv with ended := s.dv.ended.filter (fun e => e.owner != Owner.mulch src) } }
         if ends.all (fun c => c == 0) then .next (s.emit (.mulch 7 src [])) else .next (s.emit (.mulch 5 src (leBytes 1 5))))
  | .image =>
    if s.isMaster then
      (match s.mulch.storing with
       | some (c, v, l) => .next { s with mulch := { s.mulch with storing := some (c, v, insertNat (s.rg Rg.beat_MID) l) } }
       | none => .next s)
    else
      let s := if s.rg Rg.mulch_STATE = 3 then s.setRg Rg.mulch_STATE 0 0 else s
      .next (s.mulchTell 7 (leBytes 1 (s.rg Rg.beat_MID)))
  | .member mid =>
    (match s.isMaster, s.mulch.storing with
     | true, some (c, v, l) => .next { s with mulch := { s.mulch with storing := some (c, v, insertNat mid l) } }
     | _, _ => .next s)

/-- A failure of R488 is found here or reported to this module. A member whose own image is already held leaves STATE 3 with it. -/
def execCheckpointFail (cause mid : Nat) (s : State) : Res :=
  let held := !s.mulch.run && !s.isMaster && s.rg Rg.mulch_STATE == 3 && cause != 5
  let s := if held then (s.setRg Rg.mulch_STATE 0 0).setRg Rg.mulch_FAIL_CAUSE 0 cause else s
  .next (s.ckFail cause mid).eadvanceWaiting

/-- Every image is held: the bed's checkpoint is (R483). -/
def State.heldNow (s : State) : State :=
  let m := s.mulch
  if m.run && m.cut.isNone && s.ckMembers.all (fun x => m.heldBy.contains x) then
    let c := s.rg Rg.mulch_CUT_BEAT
    let s := { s with mulch := { m with run := false, heldBy := [], storing := some (c, m.vol, []) } }
    let s := ((s.setRg Rg.mulch_HELD_BEAT 0 c).setRg Rg.mulch_HELD_SLOT 0 m.slot).setRg Rg.mulch_STATE 0 4
    ((s.incRg Rg.mulch_MCNT 0 1).sqRaise Rg.mulch_CK_EVT Rg.mulch_CK_SEQ 0 1).event 0x0800
      (m.slot + s.rg Rg.place_BED_ID * 2 ^ 32 + b48 c)
  else s

/-- Every image is on its medium: the checkpoint is durable (R483). -/
def State.durableNow (s : State) : State :=
  match s.mulch.storing with
  | none => s
  | some (c, v, l) =>
    if s.ckMembers.all (fun x => l.contains x) then
      let s := { s with mulch := { s.mulch with storing := none } }
      let s := if s.mulch.run then s else s.setRg Rg.mulch_STATE 0 0
      let s := (s.setRg Rg.mulch_DURABLE_BEAT 0 c).setRg Rg.mulch_DURABLE_VOL 0 v
      ((s.incRg Rg.mulch_MCNT 1 1).sqRaise Rg.mulch_CK_EVT Rg.mulch_CK_SEQ 0 1).event 0x0801 (v + b48 c)
    else s

/-- Mulch at the COMMIT tick that closes beat n: a deferred trigger fires again, the contents are fixed at their cut beat, and
the master sees what has become held or durable (R479-R483). -/
def State.mulchTick (s : State) (n : Nat) : State :=
  let s := if s.mulch.cut = some n then s.cutNow n else s
  if s.isMaster then
    let s := if s.mulch.deferred && !s.mulch.run && s.flag Rg.mulch_CK_EN then s.startCut (n + 2) else s
    s.sealTry.durableNow.heldNow
  else s.sealTry

/-! ## Management commands (R494) -/

/-- MULCH_CHECKPOINT. -/
def execMulchCheckpoint (s : State) : Res :=
  .next (s.manage 0x40 [] (fun s _ =>
    if s.isMaster && s.flag Rg.mulch_CK_EN then ({ s with mulch := { s.mulch with asked := true } }).done else s.refuse 4))

/-- MULCH_CANCEL. -/
def execMulchCancel (s : State) : Res := .next (s.manage 0x42 [] (fun s _ => (s.ckFail 2 (s.rg Rg.beat_MID)).eadvanceWaiting.done))

/-- SUPPRESS_SET. -/
def execSuppressSet (s : State) : Res :=
  .next (s.manage 0x43 [(8, 2), (16, 6)] (fun s q =>
    let n := fieldAt q 8 2
    if 4096 ≤ n then s.refuse 2
    else ({ s with gate := { s.gate with suppress := s.gate.suppress.set 0 n (fieldAt q 16 6) } }).done))

/-- The map entries of a restore in the data area (R494): the first page, the page before the next entry's first (log
entry 61), the destination and the KIND mask. -/
def State.restoreMap (s : State) (off n : Nat) : List (Nat × Nat × Nat × Nat) :=
  let es := (List.range n).map (fun i =>
    let b := s.readB (kMgmt (0x40000 + off + 16 * i)) 16
    (fieldAt b 0 6, fieldAt b 6 6, fieldAt b 12 1))
  es.map (fun e =>
    (e.1, (((es.map (fun x => x.1)).filter (fun f => decide (e.1 < f))).foldl (fun a f => min a f) (2 ^ 48)) - 1, e.2.1, e.2.2))

/-- Bytes of the map that must be zero and are not. -/
def State.mapBad (s : State) (off n : Nat) : Bool :=
  (List.range n).any (fun i => s.readN (kMgmt (0x40000 + off + 16 * i + 13)) 3 != 0)

/-- MULCH_RESTORE: the image is asked of its holder, and Stash stays in RECOVERY. -/
def execMulchRestore (s : State) : Res :=
  .next (s.manageLong 0x41 [(8, 1), (9, 1), (10, 1), (11, 1), (12, 1), (16, 8)] (fun slot q =>
    let n := fieldAt q 12 1
    if 3 < fieldAt q 9 1 ∨ 1 < fieldAt q 11 1 ∨ 64 < n ∨ 0x3C0000 < fieldAt q 16 8 + 16 * n then .inl 2
    else if s.mapBad (fieldAt q 16 8) n = true then .inl 1
    else if s.mulch.restore.isSome ∨ s.flag Rg.beat_RUN = true then .inl 4
    else
      let x : Restore := { slot := slot, holder := fieldAt q 8 1, source := fieldAt q 9 1, index := fieldAt q 10 1,
                           streams := fieldAt q 11 1 == 1, map := s.restoreMap (fieldAt q 16 8) n }
      .inr ((({ s with mulch := { s.mulch with restore := some x } }.setRg Rg.mulch_STATE 0 5).setMode 3).emit
        (.mulch 9 x.holder (leBytes 1 x.source ++ leBytes 1 x.index)))))

/-! ## The end of a restore (R489-R492) -/

/-- The header of an image is valid: magic, version, lengths, IMAGE_DIGEST. -/
def imageOk (b : List Byte) : Bool :=
  let n := 256 + 32 * fieldAt b 40 4 + 48 * fieldAt b 44 4
  fieldAt b 0 4 == 0x48434C4D && fieldAt b 4 2 == 1 && decide (n ≤ b.length)
    && sha3_256 (b.take 48 ++ List.replicate 32 0 ++ (b.drop 80).take (n - 80)) == (b.drop 48).take 32

/-- Where the page map puts a page of a KIND: no entries, its own place; none where no entry covers it (R492). -/
def mapPage (map : List (Nat × Nat × Nat × Nat)) (p kind : Nat) : Option Nat :=
  if map.isEmpty then some p
  else (map.find? (fun e => decide (e.1 ≤ p) && decide (p ≤ e.2.1) && bitN e.2.2.2 kind)).map (fun e => e.2.2.1 + (p - e.1))

/-- The pages of an image are written in page-table order until one is missing or does not match: how many were written, and
the cause of the stop, 0 for none. -/
def State.restorePages (s : State) (x : Restore) (image : List Byte) (refs : List (Nat × List Byte)) (cause : Nat) :
    Nat → List Nat → State × Nat × Nat
  | done, [] => (s, done, 0)
  | done, i :: t =>
    let e := (image.drop (256 + 32 * fieldAt image 40 4 + 48 * i)).take 48
    let k := fieldAt e 6 1
    match mapPage x.map (fieldAt e 0 6 / 2 ^ 21) (k % 8) with
    | none => State.restorePages s x image refs cause done t
    | some q =>
      let data := if bitN k 3 then (refs.find? (fun r => r.1 == i)).map (fun r => r.2)
        else some ((image.drop (fieldAt e 8 8)).take (2 ^ 21))
      match data with
      | none => (s, done, if cause = 0 then 32 else cause)
      | some d =>
        if d.length ≠ 2 ^ 21 then (s, done, if cause = 0 then 32 else cause)
        else if sha3_256 d ≠ e.drop 16 then (s, done, 32)
        else State.restorePages (s.writeHbm (q * 2 ^ 21) d) x image refs cause (done + 1) t

/-- The stream records of an image become open entries with TOKENS 0. -/
def State.restoreStreams (s : State) (image : List Byte) : State :=
  (List.range (fieldAt image 40 4)).foldl (fun s i =>
    let w := fieldAt image (256 + 32 * i) 32
    s.setEnt (bits w 144 16 % 4096) { entOf w 0 with state := 1 }) s

/-- A restore ends: what of the image has been read (with the referenced pages, by index in the table), and the cause for
which the reading stopped. -/
def execRestoreEnd (cause : Nat) (image : List Byte) (refs : List (Nat × List Byte)) (s : State) : Res :=
  match s.mulch.restore with
  | none => .next s
  | some x =>
    let np := fieldAt image 44 4
    let goals := (List.range np).filterMap (fun i =>
      let e := (image.drop (256 + 32 * fieldAt image 40 4 + 48 * i)).take 48
      mapPage x.map (fieldAt e 0 6 / 2 ^ 21) (fieldAt e 6 1 % 8))
    if imageOk image = true ∧ goals.any (fun q => s.cowHeld (q * 2 ^ 21) (2 ^ 21)) = true then .next s
    else
    let (s, n, why) :=
      if image.length < 256 ∨ imageOk image = false then (s, 0, if cause = 0 then 32 else cause)
      else s.restorePages x image refs cause 0 (List.range np)
    let s := if why = 0 ∧ x.streams = true then s.restoreStreams image else s
    let st := if why = 0 then 0 else if n = 0 then 2 else 1
    let left := if s.mulch.run then 2 else if s.mulch.storing.isSome then 4 else 0
    let s := ({ s with mulch := { s.mulch with restore := none } }.setRg Rg.mulch_STATE 0 left).setMode 0
    let s := s.event 0x0803 (st + why * 4 + x.holder * 2 ^ 8 + n * 2 ^ 32 + b48 (fieldAt image 8 8))
    .next ({ s with host := { s.host with mrBusy := false } }.mrReply x.slot 0
      (leBytes 1 st ++ leBytes 1 why ++ leBytes 6 0 ++ leBytes 8 (n * 2 ^ 21)))

end Sys2Proof.Machine
end

