-- ==== Sys2Proof/WellFormed.lean ====
section
/-!
DEFINITION. Well-formed commands: every operand lies in the range its field or unit number has.
-/
namespace Sys2Proof

/-- Tiles 0 to 255 (R24), hub cores 0 to 15 (R23). -/
def CoreId.wf : CoreId → Bool
  | .tile t => decide (t < 256)
  | .hub c => decide (c < 16)

/-- How many units a register block has (R555, R558). -/
def Blk.units : Blk → Nat
  | .sched => 8 | .firewall => 16 | .plotStat => 128 | .seq => 256 | .tile => 256 | .dvport => 24
  | .system | .identity | .window | .fault | .beat | .place | .hbm | .dvorar | .eth | .stash | .cipher
  | .mulch | .cloche | .sieve | .host => 1

/-- Every register block exists. -/
def Blk.wf (b : Blk) : Bool := decide (0 < b.units)

/-- Requesters of R542. -/
def Req.wf : Req → Bool
  | .iw w => decide (w < 2)
  | .core c => c.wf
  | .plotFn f => decide (f < 128)
  | .bar0 | .i3c => true

/-- Registers a form can name: g0 to g7 in a short form (R169). -/
def regs (long : Bool) : Nat := if long then 32 else 8

/-- The offset of a lane instruction has 7 bits in a short form and 16 in a long one (R168, R169). -/
def LaneOff.wf : LaneOff → Bool
  | .short o => decide (o < 128)
  | .long imm => decide (imm < 2 ^ 16)

/-- Every operand lies in the range its field or unit number has. -/
def Instr.wf : Instr → Bool
  | .registerWrite r b unit off _ => r.wf && b.wf && decide (unit < 256) && decide (off < (2^22))
  | .sqStatusWrite r b unit off _ => r.wf && b.wf && decide (unit < 256) && decide (off < (2^22))
  | .aliasSet r b unit off _ => r.wf && b.wf && decide (unit < 256) && decide (off < (2^22))
  | .aliasClear r b unit off _ => r.wf && b.wf && decide (unit < 256) && decide (off < (2^22))
  | .aliasToggle r b unit off _ => r.wf && b.wf && decide (unit < 256) && decide (off < (2^22))
  | .tvFieldWrite r b unit off _ => r.wf && b.wf && decide (unit < 256) && decide (off < (2^22))
  | .tvVoteScrub b _ idx => b.wf && decide (idx < (2^20))
  | .counterPairLowRead r b unit off => r.wf && b.wf && decide (unit < 256) && decide (off < (2^22))
  | .bootSelfTestDone halves _ => decide (halves < 4)
  | .form => true
  | .formSymbol port dom founder depth => decide (port < 24) && decide (dom < 2^32) && decide (founder < 256) && decide (depth < 16)
  | .formationClose _ => true
  | .joinSymbol _ => true
  | .joinEnWrite _ => true
  | .runWrite _ => true
  | .dissolve => true
  | .nextPeriodWrite us at_ => decide (us < 4096) && decide (at_ < 2^64)
  | .doneSymbol port beat => decide (port < 24) && decide (beat < 2^24)
  | .memberDoneReady => true
  | .tickSymbol port beat kind time => decide (port < 24) && decide (beat < 2^24) && decide (kind < 4) && decide (time < 2^32)
  | .startTick => true
  | .commitTick _ => true
  | .abortTick cause _ => decide (cause < 3)
  | .restartTick => true
  | .timeDisciplineSend => true
  | .timeSymbol port time => decide (port < 24) && decide (time < 2^48)
  | .arm t => decide (t < 256)
  | .armSame t => decide (t < 256)
  | .disarm t _ => decide (t < 256)
  | .armVisibleOpenBeat t => decide (t < 256)
  | .matrixRow t => decide (t < 256)
  | .vectorRow t => decide (t < 256)
  | .moveRow t => decide (t < 256)
  | .exchangeRow t => decide (t < 256)
  | .anchorExchangeRow t => decide (t < 256)
  | .waitRow t => decide (t < 256)
  | .waitConditionMet t => decide (t < 256)
  | .markNote t => decide (t < 256)
  | .markExport t => decide (t < 256)
  | .markStamp t => decide (t < 256)
  | .rowComplete t slot chk _ => decide (t < 256) && decide (slot < 4096) && decide (chk < 4)
  | .exchangeAck t slot => decide (t < 256) && decide (slot < 4096)
  | .exchangePacketArrive _ => true
  | .heldPacketRelease t _ => decide (t < 256)
  | .anchorMaxCombine _ => true
  | .valueAddCombine _ => true
  | .perfClr t => decide (t < 256)
  | .add c long rd rs rt => c.wf && decide (rd < (regs long)) && decide (rs < (regs long)) && decide (rt < (regs long))
  | .sub c long rd rs rt => c.wf && decide (rd < (regs long)) && decide (rs < (regs long)) && decide (rt < (regs long))
  | .and c long rd rs rt => c.wf && decide (rd < (regs long)) && decide (rs < (regs long)) && decide (rt < (regs long))
  | .or c long rd rs rt => c.wf && decide (rd < (regs long)) && decide (rs < (regs long)) && decide (rt < (regs long))
  | .xor c long rd rs rt => c.wf && decide (rd < (regs long)) && decide (rs < (regs long)) && decide (rt < (regs long))
  | .shl c long rd rs rt => c.wf && decide (rd < (regs long)) && decide (rs < (regs long)) && decide (rt < (regs long))
  | .shr c long rd rs rt => c.wf && decide (rd < (regs long)) && decide (rs < (regs long)) && decide (rt < (regs long))
  | .sar c long rd rs rt => c.wf && decide (rd < (regs long)) && decide (rs < (regs long)) && decide (rt < (regs long))
  | .cmplt c long rd rs rt => c.wf && decide (rd < (regs long)) && decide (rs < (regs long)) && decide (rt < (regs long))
  | .cmpltu c long rd rs rt => c.wf && decide (rd < (regs long)) && decide (rs < (regs long)) && decide (rt < (regs long))
  | .mul c long rd rs rt => c.wf && decide (rd < (regs long)) && decide (rs < (regs long)) && decide (rt < (regs long))
  | .mulhi c rd rs rt => c.wf && decide (rd < 32) && decide (rs < 32) && decide (rt < 32)
  | .mulhiu c rd rs rt => c.wf && decide (rd < 32) && decide (rs < 32) && decide (rt < 32)
  | .div c rd rs rt => c.wf && decide (rd < 32) && decide (rs < 32) && decide (rt < 32)
  | .divu c rd rs rt => c.wf && decide (rd < 32) && decide (rs < 32) && decide (rt < 32)
  | .rem c rd rs rt => c.wf && decide (rd < 32) && decide (rs < 32) && decide (rt < 32)
  | .remu c rd rs rt => c.wf && decide (rd < 32) && decide (rs < 32) && decide (rt < 32)
  | .min c long rd rs rt => c.wf && decide (rd < (regs long)) && decide (rs < (regs long)) && decide (rt < (regs long))
  | .max c long rd rs rt => c.wf && decide (rd < (regs long)) && decide (rs < (regs long)) && decide (rt < (regs long))
  | .minu c rd rs rt => c.wf && decide (rd < 32) && decide (rs < 32) && decide (rt < 32)
  | .maxu c rd rs rt => c.wf && decide (rd < 32) && decide (rs < 32) && decide (rt < 32)
  | .clz c rd rs => c.wf && decide (rd < 32) && decide (rs < 32)
  | .popc c rd rs => c.wf && decide (rd < 32) && decide (rs < 32)
  | .madd c rd rs rt ru => c.wf && decide (rd < 32) && decide (rs < 32) && decide (rt < 32) && decide (ru < 32)
  | .addi c long rd rs imm => c.wf && decide (rd < (regs long)) && decide (rs < (regs long)) && decide (imm < (2^(if long then 16 else 8))) && (long || rs == rd)
  | .movi c long rd imm => c.wf && decide (rd < (regs long)) && decide (imm < (2^(if long then 21 else 8)))
  | .andi c long rd rs imm => c.wf && decide (rd < (regs long)) && decide (rs < (regs long)) && decide (imm < (2^(if long then 16 else 8))) && (long || rs == rd)
  | .ori c long rd rs imm => c.wf && decide (rd < (regs long)) && decide (rs < (regs long)) && decide (imm < (2^(if long then 16 else 8))) && (long || rs == rd)
  | .xori c rd rs imm => c.wf && decide (rd < 32) && decide (rs < 32) && decide (imm < 2^16)
  | .cmplti c long rd rs imm => c.wf && decide (rd < (regs long)) && decide (rs < (regs long)) && decide (imm < (2^(if long then 16 else 8))) && (long || rs == rd)
  | .cmpltiu c rd rs imm => c.wf && decide (rd < 32) && decide (rs < 32) && decide (imm < 2^16)
  | .shli c long rd rs imm => c.wf && decide (rd < (regs long)) && decide (rs < (regs long)) && decide (imm < 64) && (long || rs == rd)
  | .shri c long rd rs imm => c.wf && decide (rd < (regs long)) && decide (rs < (regs long)) && decide (imm < 64) && (long || rs == rd)
  | .sari c long rd rs imm => c.wf && decide (rd < (regs long)) && decide (rs < (regs long)) && decide (imm < 64) && (long || rs == rd)
  | .addsp c imm => c.wf && decide (imm < 2^16)
  | .ldhi c rd imm => c.wf && decide (rd < 32) && decide (imm < 2^21)
  | .pcrel c rd imm => c.wf && decide (rd < 32) && decide (imm < 2^21)
  | .ldw c long rd rs imm => c.wf && decide (rd < (regs long)) && decide (rs < (regs long)) && decide (imm < (2^(if long then 16 else 8)))
  | .stw c long rd rs imm => c.wf && decide (rd < (regs long)) && decide (rs < (regs long)) && decide (imm < (2^(if long then 16 else 8)))
  | .spwLoad c r off => c.wf && decide (r < 8) && decide (off < 2^10)
  | .spwStore c r off => c.wf && decide (r < 8) && decide (off < 2^10)
  | .ldl c rd rs off => c.wf && decide (rd < regs off.isLong) && decide (rs < regs off.isLong) && off.wf
  | .ldls c rd rs off => c.wf && decide (rd < regs off.isLong) && decide (rs < regs off.isLong) && off.wf
  | .stl c rd rs off => c.wf && decide (rd < regs off.isLong) && decide (rs < regs off.isLong) && off.wf
  | .ldf c rd rs imm => c.wf && decide (rd < 32) && decide (rs < 32) && decide (imm < (2^16))
  | .stf c rd rs imm => c.wf && decide (rd < 32) && decide (rs < 32) && decide (imm < (2^16))
  | .atadd c rd rs rt => c.wf && decide (rd < 32) && decide (rs < 32) && decide (rt < 32)
  | .atswap c rd rs rt => c.wf && decide (rd < 32) && decide (rs < 32) && decide (rt < 32)
  | .atcas c rd rs rt ru => c.wf && decide (rd < 32) && decide (rs < 32) && decide (rt < 32) && decide (ru < 32)
  | .blkld c rd rs rt ru _ => c.wf && decide (rd < 32) && decide (rs < 32) && decide (rt < 32) && decide (ru < 32)
  | .blkst c rd rs rt ru _ => c.wf && decide (rd < 32) && decide (rs < 32) && decide (rt < 32) && decide (ru < 32)
  | .wcopy c rd rs rt _ => c.wf && decide (rd < 32) && decide (rs < 32) && decide (rt < 32)
  | .nop c => c.wf
  | .mov c rd rs => c.wf && decide (rd < 8) && decide (rs < 8)
  | .neg c rd rs => c.wf && decide (rd < 8) && decide (rs < 8)
  | .not c rd rs => c.wf && decide (rd < 8) && decide (rs < 8)
  | .ret c => c.wf
  | .callr c rs => c.wf && decide (rs < 8)
  | .jr c rs => c.wf && decide (rs < 8)
  | .push c rs => c.wf && decide (rs < 8)
  | .pop c rd => c.wf && decide (rd < 8)
  | .fence c => c.wf
  | .bcz c cond rs off => c.wf && decide (cond < 6) && decide (rs < 8) && decide (off < 2^8)
  | .br c off => c.wf && decide (off < 2^14)
  | .cbeq c rd rs imm => c.wf && decide (rd < 32) && decide (rs < 32) && decide (imm < 2^16)
  | .cbne c rd rs imm => c.wf && decide (rd < 32) && decide (rs < 32) && decide (imm < 2^16)
  | .cblt c rd rs imm => c.wf && decide (rd < 32) && decide (rs < 32) && decide (imm < 2^16)
  | .cbge c rd rs imm => c.wf && decide (rd < 32) && decide (rs < 32) && decide (imm < 2^16)
  | .cbltu c rd rs imm => c.wf && decide (rd < 32) && decide (rs < 32) && decide (imm < 2^16)
  | .cbgeu c rd rs imm => c.wf && decide (rd < 32) && decide (rs < 32) && decide (imm < 2^16)
  | .j c imm => c.wf && decide (imm < 2^21)
  | .call c imm => c.wf && decide (imm < 2^21)
  | .mfs c rd info => c.wf && decide (rd < 32) && decide (info < 2^12)
  | .mts c rs info => c.wf && decide (rs < 32) && decide (info < 2^12)
  | .msgvalPop c rd => c.wf && decide (rd < 32)
  | .ctrctlClr c rs => c.wf && decide (rs < 32)
  | .cwset c imm => c.wf && decide (imm < 2^10)
  | .cwclr c imm => c.wf && decide (imm < 2^10)
  | .trap c imm => c.wf && decide (imm < 2^16)
  | .eret c => c.wf
  | .wfi c => c.wf
  | .fadd c long rd rs rt => c.wf && decide (rd < (regs long)) && decide (rs < (regs long)) && decide (rt < (regs long))
  | .fsub c long rd rs rt => c.wf && decide (rd < (regs long)) && decide (rs < (regs long)) && decide (rt < (regs long))
  | .fmul c long rd rs rt => c.wf && decide (rd < (regs long)) && decide (rs < (regs long)) && decide (rt < (regs long))
  | .fdiv c rd rs rt => c.wf && decide (rd < 32) && decide (rs < 32) && decide (rt < 32)
  | .fsqrt c rd rs => c.wf && decide (rd < 32) && decide (rs < 32)
  | .fma c rd rs rt ru => c.wf && decide (rd < 32) && decide (rs < 32) && decide (rt < 32) && decide (ru < 32)
  | .fmin c long rd rs rt => c.wf && decide (rd < (regs long)) && decide (rs < (regs long)) && decide (rt < (regs long))
  | .fmax c long rd rs rt => c.wf && decide (rd < (regs long)) && decide (rs < (regs long)) && decide (rt < (regs long))
  | .fneg c long rd rs => c.wf && decide (rd < (regs long)) && decide (rs < (regs long))
  | .fabs c long rd rs => c.wf && decide (rd < (regs long)) && decide (rs < (regs long))
  | .fcmp c rd rs rt => c.wf && decide (rd < 32) && decide (rs < 32) && decide (rt < 32)
  | .fcvtfi c rd rs => c.wf && decide (rd < 32) && decide (rs < 32)
  | .fcvtfu c rd rs => c.wf && decide (rd < 32) && decide (rs < 32)
  | .fcvtif c rd rs => c.wf && decide (rd < 32) && decide (rs < 32)
  | .fcvtifr c rd rs => c.wf && decide (rd < 32) && decide (rs < 32)
  | .fcvtuf c rd rs => c.wf && decide (rd < 32) && decide (rs < 32)
  | .fpack c rd rs fmt _ => c.wf && decide (rd < 32) && decide (rs < 32) && decide (fmt < 11) && (decide (6 ≤ fmt))
  | .funpack c rd rs fmt _ => c.wf && decide (rd < 32) && decide (rs < 32) && decide (fmt < 11) && (decide (6 ≤ fmt))
  | .tli c rd rs rt => c.wf && decide (rd < 32) && decide (rs < 32) && decide (rt < 32)
  | .tliv c rd rs rt ru _ => c.wf && decide (rd < 32) && decide (rs < 32) && decide (rt < 32) && decide (ru < 32)
  | .trapEntry c n _ _ => c.wf && decide (0 < n) && decide (n < 11)
  | .interruptEntry c => c.wf
  | .timerExpire c => c.wf
  | .msgInWrite src dst v => src.wf && dst.wf && decide (v < 2^32)
  | .cacheCtrlWrite t r _ => decide (t < 256) && decide (r < 9)
  | .cacheInv t => decide (t < 256)
  | .cacheMissFill t a => decide (t < 256) && decide (a < 2^39)
  | .hbmApply => true
  | .hbmEccError a kind _ => decide (a < 2^39) && decide (kind < 3)
  | .hbmRefresh st pc => decide (st < 6) && decide (pc < 32)
  | .reservedSlot st pc _ => decide (st < 6) && decide (pc < 32)
  | .scrubOperation st pc _ => decide (st < 6) && decide (pc < 32)
  | .opportunisticScrub st pc _ => decide (st < 6) && decide (pc < 32)
  | .idlePeriodTick => true
  | .furrowEn t k _ => decide (t < 256) && decide (k < 16)
  | .furrowStop t k => decide (t < 256) && decide (k < 16)
  | .furrowRequestIssue t pf => decide (t < 256) && decide (pf < 2)
  | .furrowLineLand t k _ _ res => decide (t < 256) && decide (k < 16) && decide (res < 2)
  | .placeValidWrite _ => true
  | .flitRx port _ _ => decide (port < 24)
  | .nakSymbol port fseq => decide (port < 24) && decide (fseq < 1024)
  | .creditSymbol port vc cum => decide (port < 24) && decide (vc < 8) && decide (cum < 4096)
  | .lstateSymbol port mid of_ _ seq => decide (port < 24) && decide (mid < 256) && decide (of_ < 32) && decide (seq < 4096)
  | .probeSend => true
  | .probeSymbol port target origin tag => decide (port < 24) && decide (target < 256) && decide (origin < 256) && decide (tag < 256)
  | .probeReply port target origin tag => decide (port < 24) && decide (target < 256) && decide (origin < 256) && decide (tag < 256)
  | .probeTimeout mid => decide (mid < 256)
  | .memberLost _ _ => true
  | .laneDropSymbol port mask _ => decide (port < 24) && decide (mask < 256)
  | .laneDeskewDone port => decide (port < 24)
  | .laneLockLost port lane => decide (port < 24) && decide (lane < 8)
  | .laneCeWindow port => decide (port < 24)
  | .negSymbol port idx word => decide (port < 24) && decide (idx < 16) && decide (word < 2^32)
  | .linkSignalDetect port => decide (port < 24)
  | .negotiationComplete port delay => decide (port < 24) && decide (delay < 4096)
  | .linkTimeout port => decide (port < 24)
  | .retrain port => decide (port < 24)
  | .retrainTimeout port => decide (port < 24)
  | .routeSwap => true
  | .dvWrite _ => true
  | .dvExch _ => true
  | .combineAnchor _ => true
  | .combineValue _ => true
  | .dvRead _ => true
  | .dvReadResp _ => true
  | .dvAck _ => true
  | .dvPageWait _ => true
  | .dvPageRetry _ => true
  | .dvNackErr _ => true
  | .ackTimer src origin cn => decide (src < 256) && decide (origin < 4) && decide (cn < 8192)
  | .rtoExpire origin cn => decide (origin < 3) && decide (cn < 4096)
  | .readRespTimeout origin cn psn => decide (origin < 4) && decide (cn < 8192) && decide (psn < 2^24)
  | .pageWaitTimeout src origin cn => decide (src < 256) && decide (origin < 4) && decide (cn < 8192)
  | .pageResolved src origin cn => decide (src < 256) && decide (origin < 4) && decide (cn < 8192)
  | .resendDelayExpire origin cn => decide (origin < 4) && decide (cn < 8192)
  | .frameRx p _ _ => decide (p < 8)
  | .sievePass p _ => decide (p < 8)
  | .sieveGo mask _ => decide (mask < 2^16)
  | .sieveSwapComplete => true
  | .tableEnWrite t _ units log2 => decide (t < 16) && decide (units < 4) && decide (log2 < 32)
  | .snap info _ => decide (info < 2^16)
  | .portModeWrite m => decide (m < 4)
  | .portEnWrite v => decide (v < 256)
  | .ethPortUp p => decide (p < 8)
  | .ethPortDown p => decide (p < 8)
  | .ctxOpen k _ => decide (k < 8192)
  | .ctxClose k _ => decide (k < 8192)
  | .ctxClear k _ => decide (k < 8192)
  | .udpWrite q => decide (q < 64)
  | .udpRead q => decide (q < 64)
  | .udpReadResp q => decide (q < 64)
  | .udpSend q => decide (q < 64)
  | .udpAck q => decide (q < 64)
  | .udpPageWait q => decide (q < 64)
  | .udpPageRetry q => decide (q < 64)
  | .udpNackErr q => decide (q < 64)
  | .rtoExpireE k => decide (k < 8192)
  | .roceSend q => decide (q < 64)
  | .roceRdmaWrite q => decide (q < 64)
  | .roceRdmaReadRequest q => decide (q < 64)
  | .roceReadResponse q => decide (q < 64)
  | .roceAcknowledge q => decide (q < 64)
  | .roceCnp q => decide (q < 64)
  | .roceRnrTimer k => decide (k < 8192)
  | .schedDecision p => decide (p < 8)
  | .egressEnqueue _ => true
  | .frameTxDone p => decide (p < 8)
  | .shaperRefill => true
  | .shpBurstWrite p q burst mode _ => decide (p < 8) && decide (q < 128) && decide (burst < 2^24) && decide (mode < 4)
  | .policerPenWrite p m unit _ rate => decide (p < 8) && decide (m < 16) && decide (unit < 128) && decide (rate < 2^20)
  | .ringDoorbell fn r v => decide (fn < 128) && decide (r < 64) && decide (v < 2^32)
  | .doorbellSample fn r => decide (fn < 128) && decide (r < 64)
  | .eqDoorbell fn q v => decide (fn < 128) && decide (q < 16) && decide (v < 2^32)
  | .descriptorFetch fn r _ => decide (fn < 128) && decide (r < 64)
  | .sendFrame fn r _ => decide (fn < 128) && decide (r < 64)
  | .postBuf fn r => decide (fn < 128) && decide (r < 64)
  | .xferWrite fn r _ => decide (fn < 128) && decide (r < 64)
  | .xferRead fn r => decide (fn < 128) && decide (r < 64)
  | .xferSend fn r _ => decide (fn < 128) && decide (r < 64)
  | .copy fn r _ _ => decide (fn < 128) && decide (r < 64)
  | .descriptorComplete fn r info => decide (fn < 128) && decide (r < 64) && decide (info < 2^16)
  | .msixModTimer fn q => decide (fn < 128) && decide (q < 16)
  | .msixUnmask fn v _ addr data => decide (fn < 128) && decide (v < 64) && decide (addr < 2^64) && decide (data < 2^32)
  | .exportDeliver ch => decide (ch < 1024)
  | .mrDb count _ => decide (count < 256)
  | .plotCreate => true
  | .hbmGrant => true
  | .ringCreate => true
  | .ringDestroy => true
  | .ringReset => true
  | .eqCreate => true
  | .eqDestroy => true
  | .streamWrite => true
  | .channelSet => true
  | .regionSet => true
  | .ctxWrite => true
  | .dconnOpen => true
  | .dconnClose => true
  | .plotQuiesce => true
  | .quiesceTimeout p => decide (p < 128)
  | .plotFreeze => true
  | .plotSave => true
  | .plotRestore _ => true
  | .plotResume => true
  | .plotRemove => true
  | .mbDb p => decide (p < 128)
  | .mbReplyDb p => decide (p < 128)
  | .flrPlot p => decide (p < 128)
  | .flrPf0 => true
  | .vfDisable n => decide (n < 128)
  | .stashAttach _ => true
  | .stashDetach => true
  | .volumeSet => true
  | .stashRescan _ _ => true
  | .stashIdentify => true
  | .stashRead fn r => decide (fn < 128) && decide (r < 64)
  | .stashWrite fn r => decide (fn < 128) && decide (r < 64)
  | .stashZero fn r => decide (fn < 128) && decide (r < 64)
  | .stashFlush fn r => decide (fn < 128) && decide (r < 64)
  | .pieceSubmit d _ => decide (d < 16)
  | .pieceComplete _ _ sct sc _ _ => decide (sct < 8) && decide (sc < 256)
  | .pieceTimeout _ _ => true
  | .abortTimeout d => decide (d < 16)
  | .driveFail d cause => decide (d < 16) && decide (cause < 4)
  | .driveReady d _ => decide (d < 16)
  | .stashModeWrite m => decide (m < 4)
  | .stashServiceFlushed => true
  | .gcmEnc c _ _ _ => decide (c < 8)
  | .gcmDec c _ _ _ _ => decide (c < 8)
  | .gmacGen c _ _ => decide (c < 8)
  | .gmacVer c _ _ _ => decide (c < 8)
  | .cmacGen c _ _ => decide (c < 8)
  | .cmacVer c _ _ _ => decide (c < 8)
  | .cipherAssign => true
  | .cipherComplete c _ => decide (c < 8)
  | .cipherGo w => decide (w < 18)
  | .claim w => decide (w < 18)
  | .renew w => decide (w < 18)
  | .release w => decide (w < 18)
  | .lockExpire => true
  | .sign w => decide (w < 18)
  | .labelSet => true
  | .spdmRelay => true
  | .getVersion _ => true
  | .getCapabilities _ => true
  | .negotiateAlgorithms _ => true
  | .getDigests _ => true
  | .getCertificate _ => true
  | .challenge _ => true
  | .getMeasurements _ => true
  | .spdmUnsupported _ => true
  | .faultReport _ => true
  | .replayDrainDone t => decide (t < 256)
  | .spareCopyDone t _ => decide (t < 256)
  | .seedlingRun t _ => decide (t < 256)
  | .greenhouseRotate => true
  | .greenhouseResult kind idx piece _ => decide (kind < 3) && decide (idx < 256) && decide (piece < 256)
  | .digestRound => true
  | .digestCompare _ => true
  | .sweepEnd _ => true
  | .mirrorWrite _ => true
  | .mirrorSync => true
  | .spareArmTimeout => true
  | .checkpointTrigger => true
  | .cutMessage _ => true
  | .dedupAssign _ => true
  | .cowHold a => decide (a < 549755813888)
  | .cowCopyDone c _ => decide (c < 8388608)
  | .imageHeld _ => true
  | .checkpointDurable _ => true
  | .checkpointFail cause mid => decide (cause < 6) && decide (mid < 256) && (0 < cause)
  | .mulchCheckpoint => true
  | .mulchRestore => true
  | .mulchCancel => true
  | .suppressSet => true
  | .restoreEnd cause _ _ => decide (cause < 5)
  | .countFrameSend => true
  | .countRefresh => true
  | .countFrame _ => true
  | .ackFrameRx _ => true
  | .energySample _ _ => true
  | .intervalClose => true
  | .recordFrameSend => true
  | .recordFrameRx _ => true
  | .overflowReadback => true
  | .meterHoldWrite _ => true
  | .clReset => true
  | .vclLow => true
  | .clocheRestart _ => true
  | .clProgEn _ => true
  | .hubAoResetRelease _ temp _ => decide (temp < 65536)
  | .mainImageVerified _ => true
  | .fuseRetry _ temp _ => decide (temp < 65536)
  | .recoveryReboot _ temp _ => decide (temp < 65536)
  | .compartmentRestart c vector _ => decide (c < 10) && decide (vector < 32)
  | .fwWrite => true
  | .fwVerify _ => true
  | .liveUpdate => true
  | .bootSelect _ => true
  | .timeSet => true
  | .handoverSafePoint _ => true
  | .iwDataRead r met => r.wf && decide (met < 3)
  | .iwDataWrite r _ met => r.wf && decide (met < 3)
  | .coreHoldWrite r k _ => r.wf && decide (k < 9)
  | .hubMain _ => true
  | .halfHoldWrite _ _ => true
  | .hostInterfaceReset => true
  | .mrst _ _ => true
  | .pwrokFall => true
  | .mainRailFault => true
  | .hubAoPowerValid => true
  | .mctpControl inst cmd _ => decide (inst < 32) && decide (cmd < 256)
  | .getTid inst => decide (inst < 32)
  | .getPldmTypes inst => decide (inst < 32)
  | .getPldmVersion inst ty => decide (inst < 32) && decide (ty < 64)
  | .getPldmCommands inst ty => decide (inst < 32) && decide (ty < 64)
  | .getPdr inst handle => decide (inst < 32) && decide (handle < 2^32)
  | .getSensorReading inst id => decide (inst < 32) && decide (id < 65536)
  | .pollForPlatformEventMessage inst ack => decide (inst < 32) && decide (ack < 65536)
  | .readEvents start => decide (start < 2^64)
  | .sensorUpdate _ => true
  | .safeStateQuery => true
  | .flowSample _ _ => true
  | .flowFaultDeadline => true
  | .thermalTrip cause => decide (cause < 5)
  | .powerWindow watts => decide (watts < 65536)
  | .thermalSample west east _ => decide (west < 4096) && decide (east < 4096)
  | .powerSet => true
  | .powerGet => true
  | .pcieLinkTrained rate width _ => decide (rate < 4) && decide (width < 17)
  | .vfEnable n => decide (n < 128)
  | .clocheAliveLapse => true
  | .tapClock _ _ _ _ => true

end Sys2Proof
end

