-- ==== Sys2Proof/Machine/OhmDec.lean ====
section
/-!
DEFINITION. Ohmette-36 encodings: the width of an instruction, the fields of its layout, and the instruction that it names; every other
encoding is reserved (R166-R173, R187).
-/
namespace Sys2Proof.Machine

/-- Whether an index names a system register (R197). -/
def sysNamed (i : Nat) : Bool :=
  i == 0 || (decide (0x10 ≤ i) && decide (i ≤ 0x12)) || (decide (0x20 ≤ i) && decide (i ≤ 0x2D)) || i == 0x30
    || (decide (0x38 ≤ i) && decide (i ≤ 0x3B)) || (decide (0x40 ≤ i) && decide (i ≤ 0x4B))
    || (decide (0x60 ≤ i) && decide (i ≤ 0x70))

/-- MAJ of an instruction's first half alone fixes its width: from 0xC the form is long (R167). -/
def ohmLong (half : Nat) : Bool := decide (0xC ≤ bits half 14 4)

/-- An instruction that its must-be-zero bits allow (R168). -/
def whenZero (z : Nat) (i : Instr) : Option Instr := if z = 0 then some i else none

/-- An instruction whose field has a value that is assigned. -/
def whenOk (ok : Bool) (i : Option Instr) : Option Instr := if ok then i else none

/-- Three-register forms ALU3, by FN (R169). -/
def alu3 (c : CoreId) (h : Nat) : Option Instr :=
  let rd := bits h 6 3
  let rs := bits h 3 3
  let rt := bits h 0 3
  ([Instr.add, .sub, .and, .or, .xor, .shl, .shr, .sar, .cmplt, .cmpltu, .mul, .min, .max][bits h 10 4]?).bind
    (fun f => whenZero (bits h 9 1) (f c false rd rs rt))

/-- Immediate forms ALUI, by FN; a shift has imm8[7:6] zero (R169). -/
def alui (c : CoreId) (h : Nat) : Option Instr :=
  let r := bits h 8 3
  let imm := bits h 0 8
  match bits h 11 3 with
  | 0 => some (.addi c false r r imm)
  | 1 => some (.movi c false r imm)
  | 2 => some (.andi c false r r imm)
  | 3 => some (.ori c false r r imm)
  | 4 => whenZero (bits h 6 2) (.shli c false r r imm)
  | 5 => whenZero (bits h 6 2) (.shri c false r r imm)
  | 6 => whenZero (bits h 6 2) (.sari c false r r imm)
  | _ => some (.cmplti c false r r imm)

/-- MISC forms, by SUB; a register field that a SUB does not use is zero (R169). -/
def misc (c : CoreId) (h : Nat) : Option Instr :=
  let rd := bits h 3 3
  let rs := bits h 0 3
  let z := bits h 6 4
  match bits h 10 4 with
  | 0 => whenZero (z + rd + rs) (.nop c)
  | 1 => whenZero z (.mov c rd rs)
  | 2 => whenZero z (.neg c rd rs)
  | 3 => whenZero z (.not c rd rs)
  | 4 => whenZero (z + rd + rs) (.ret c)
  | 5 => whenZero (z + rd) (.callr c rs)
  | 6 => whenZero (z + rd) (.jr c rs)
  | 7 => whenZero (z + rd) (.push c rs)
  | 8 => whenZero (z + rs) (.pop c rd)
  | 9 => whenZero (z + rd + rs) (.fence c)
  | _ => none

/-- F36 forms FOP, by FN (R169). -/
def fop (c : CoreId) (h : Nat) : Option Instr :=
  let rd := bits h 6 3
  let rs := bits h 3 3
  let rt := bits h 0 3
  let z := bits h 9 2
  match bits h 11 3 with
  | 0 => whenZero z (.fadd c false rd rs rt)
  | 1 => whenZero z (.fsub c false rd rs rt)
  | 2 => whenZero z (.fmul c false rd rs rt)
  | 3 => whenZero z (.fmin c false rd rs rt)
  | 4 => whenZero z (.fmax c false rd rs rt)
  | 5 => whenZero (z + rt) (.fneg c false rd rs)
  | 6 => whenZero (z + rt) (.fabs c false rd rs)
  | _ => none

/-- The instruction of a short form (R169). -/
def decodeShort (c : CoreId) (h : Nat) : Option Instr :=
  let a := bits h 11 3
  let b := bits h 8 3
  let imm := bits h 0 8
  match bits h 14 4 with
  | 0x0 => alu3 c h
  | 0x1 => alui c h
  | 0x2 => some (.ldw c false a b imm)
  | 0x3 => some (.stw c false a b imm)
  | 0x4 => some (if bitN h 13 then .spwStore c (bits h 10 3) (bits h 0 10) else .spwLoad c (bits h 10 3) (bits h 0 10))
  | 0x5 => if a < 6 then some (.bcz c a b imm) else none
  | 0x6 => some (.br c (bits h 0 14))
  | 0x7 => misc c h
  | 0x8 => some (if bitN h 13 then .ldls c (bits h 10 3) (bits h 7 3) (.short (bits h 0 7))
      else .ldl c (bits h 10 3) (bits h 7 3) (.short (bits h 0 7)))
  | 0x9 => whenZero (bits h 13 1) (.stl c (bits h 10 3) (bits h 7 3) (.short (bits h 0 7)))
  | 0xA => fop c h
  | _ => none

/-- The fields of the long layouts: rd, rs, rt, ru, the bits that LR has zero, and the immediates of LI and LU (R168). -/
structure LongForm where
  rd : Nat
  rs : Nat
  rt : Nat
  ru : Nat
  zero : Nat
  imm : Nat
  immU : Nat

/-- The fields of a long form. -/
def longForm (w : Nat) : LongForm :=
  { rd := bits w 3 5, rs := bits w 18 5, rt := bits w 23 5, ru := bits w 28 5, zero := bits w 0 3 + bits w 33 3,
    imm := bits w 23 13 * 8 + bits w 0 3, immU := bits w 18 18 * 8 + bits w 0 3 }

/-- Major 0xC, integer (R170). -/
def decodeInt (c : CoreId) (op : Nat) (f : LongForm) : Option Instr :=
  let three (i : CoreId → Bool → Nat → Nat → Nat → Instr) : Option Instr := whenZero (f.zero + f.ru) (i c true f.rd f.rs f.rt)
  let long (i : CoreId → Nat → Nat → Nat → Instr) : Option Instr := whenZero (f.zero + f.ru) (i c f.rd f.rs f.rt)
  let shift (i : CoreId → Bool → Nat → Nat → Nat → Instr) : Option Instr := whenOk (decide (f.imm < 64)) (some (i c true f.rd f.rs f.imm))
  match op with
  | 0x00 => three .add
  | 0x01 => three .sub
  | 0x02 => three .and
  | 0x03 => three .or
  | 0x04 => three .xor
  | 0x05 => three .shl
  | 0x06 => three .shr
  | 0x07 => three .sar
  | 0x08 => three .cmplt
  | 0x09 => three .cmpltu
  | 0x0A => three .mul
  | 0x0B => long .mulhi
  | 0x0C => long .mulhiu
  | 0x0D => long .div
  | 0x0E => long .divu
  | 0x0F => long .rem
  | 0x10 => long .remu
  | 0x11 => three .min
  | 0x12 => three .max
  | 0x13 => long .minu
  | 0x14 => long .maxu
  | 0x15 => whenZero (f.zero + f.ru + f.rt) (.clz c f.rd f.rs)
  | 0x16 => whenZero (f.zero + f.ru + f.rt) (.popc c f.rd f.rs)
  | 0x17 => whenZero f.zero (.madd c f.rd f.rs f.rt f.ru)
  | 0x20 => some (.addi c true f.rd f.rs f.imm)
  | 0x21 => some (.andi c true f.rd f.rs f.imm)
  | 0x22 => some (.ori c true f.rd f.rs f.imm)
  | 0x23 => some (.xori c f.rd f.rs f.imm)
  | 0x24 => some (.cmplti c true f.rd f.rs f.imm)
  | 0x25 => some (.cmpltiu c f.rd f.rs f.imm)
  | 0x26 => shift .shli
  | 0x27 => shift .shri
  | 0x28 => shift .sari
  | 0x29 => whenZero (f.rd + f.rs) (.addsp c f.imm)
  | 0x30 => some (.ldhi c f.rd f.immU)
  | 0x31 => some (.movi c true f.rd f.immU)
  | 0x32 => some (.pcrel c f.rd f.immU)
  | _ => none

/-- Major 0xD, memory; a block instruction runs `upto` granules before the next boundary (R171). -/
def decodeMem (c : CoreId) (upto op : Nat) (f : LongForm) : Option Instr :=
  match op with
  | 0x00 => some (.ldw c true f.rd f.rs f.imm)
  | 0x01 => some (.stw c true f.rd f.rs f.imm)
  | 0x02 => some (.ldl c f.rd f.rs (.long f.imm))
  | 0x03 => some (.ldls c f.rd f.rs (.long f.imm))
  | 0x04 => some (.stl c f.rd f.rs (.long f.imm))
  | 0x05 => some (.ldf c f.rd f.rs f.imm)
  | 0x06 => some (.stf c f.rd f.rs f.imm)
  | 0x08 => whenZero (f.zero + f.ru) (.atadd c f.rd f.rs f.rt)
  | 0x09 => whenZero (f.zero + f.ru) (.atswap c f.rd f.rs f.rt)
  | 0x0A => whenZero f.zero (.atcas c f.rd f.rs f.rt f.ru)
  | 0x10 => whenZero f.zero (.blkld c f.rd f.rs f.rt f.ru upto)
  | 0x11 => whenZero f.zero (.blkst c f.rd f.rs f.rt f.ru upto)
  | 0x12 => whenZero (f.zero + f.ru) (.wcopy c f.rd f.rs f.rt upto)
  | _ => none

/-- Major 0xE, control and system; MFS and MTS of an unlisted index are reserved (R172, R197). -/
def decodeCtl (c : CoreId) (op : Nat) (f : LongForm) : Option Instr :=
  match op with
  | 0x00 => some (.cbeq c f.rd f.rs f.imm)
  | 0x01 => some (.cbne c f.rd f.rs f.imm)
  | 0x02 => some (.cblt c f.rd f.rs f.imm)
  | 0x03 => some (.cbge c f.rd f.rs f.imm)
  | 0x04 => some (.cbltu c f.rd f.rs f.imm)
  | 0x05 => some (.cbgeu c f.rd f.rs f.imm)
  | 0x10 => whenZero f.rd (.j c f.immU)
  | 0x11 => whenZero f.rd (.call c f.immU)
  | 0x20 => whenOk (decide (f.imm < 2 ^ 12) && sysNamed f.imm) (whenZero f.rs (.mfs c f.rd f.imm))
  | 0x21 => whenOk (decide (f.imm < 2 ^ 12) && sysNamed f.imm) (whenZero f.rd (.mts c f.rs f.imm))
  | 0x22 => whenOk (decide (f.imm < 2 ^ 10)) (whenZero (f.rd + f.rs) (.cwset c f.imm))
  | 0x23 => whenOk (decide (f.imm < 2 ^ 10)) (whenZero (f.rd + f.rs) (.cwclr c f.imm))
  | 0x28 => whenZero (f.rd + f.rs) (.trap c f.imm)
  | 0x29 => whenZero (f.zero + f.rd + f.rs + f.rt + f.ru) (.eret c)
  | 0x2A => whenZero (f.zero + f.rd + f.rs + f.rt + f.ru) (.wfi c)
  | _ => none

/-- Major 0xF, F36; FPACK and FUNPACK have FMT and SAT in the rt field (R173). -/
def decodeFp (c : CoreId) (upto op : Nat) (f : LongForm) : Option Instr :=
  let two (i : CoreId → Nat → Nat → Instr) : Option Instr := whenZero (f.zero + f.ru + f.rt) (i c f.rd f.rs)
  let three (i : CoreId → Bool → Nat → Nat → Nat → Instr) : Option Instr := whenZero (f.zero + f.ru) (i c true f.rd f.rs f.rt)
  let fmt := f.rt % 16
  let pack (i : CoreId → Nat → Nat → Nat → Bool → Instr) : Option Instr :=
    whenOk (decide (6 ≤ fmt) && decide (fmt ≤ 0xA)) (whenZero (f.zero + f.ru) (i c f.rd f.rs fmt (bitN f.rt 4)))
  match op with
  | 0x00 => three .fadd
  | 0x01 => three .fsub
  | 0x02 => three .fmul
  | 0x03 => whenZero (f.zero + f.ru) (.fdiv c f.rd f.rs f.rt)
  | 0x04 => two .fsqrt
  | 0x05 => whenZero f.zero (.fma c f.rd f.rs f.rt f.ru)
  | 0x06 => three .fmin
  | 0x07 => three .fmax
  | 0x08 => two (fun c => .fneg c true)
  | 0x09 => two (fun c => .fabs c true)
  | 0x0A => whenZero (f.zero + f.ru) (.fcmp c f.rd f.rs f.rt)
  | 0x10 => two .fcvtfi
  | 0x11 => two .fcvtfu
  | 0x12 => two .fcvtif
  | 0x13 => two .fcvtifr
  | 0x14 => two .fcvtuf
  | 0x18 => pack .fpack
  | 0x19 => pack .funpack
  | 0x20 => whenZero (f.zero + f.ru) (.tli c f.rd f.rs f.rt)
  | 0x21 => whenZero f.zero (.tliv c f.rd f.rs f.rt f.ru upto)
  | _ => none

/-- The instruction of a long form (R170-R173). -/
def decodeLong (c : CoreId) (upto w : Nat) : Option Instr :=
  let f := longForm w
  let op := bits w 8 6
  match bits w 14 4 with
  | 0xC => decodeInt c op f
  | 0xD => decodeMem c upto op f
  | 0xE => decodeCtl c op f
  | _ => decodeFp c upto op f

/-- The instruction of core c that an encoding names: a half where MAJ has the short form, else 36 bits; none where the encoding is
reserved (R167, R187). -/
def decodeOhm (c : CoreId) (upto w : Nat) : Option Instr :=
  if ohmLong w then decodeLong c upto w else decodeShort c (w % 2 ^ 18)

/-- Half h of a core's private memory: the lower half of word h / 2, or the upper one (R166). -/
def Core.half (k : Core) (c : CoreId) (h : Nat) : Nat := bits (k.pmRead c (h / 2)).toNat (18 * (h % 2)) 18

/-- The encoding at a core's PC: one half, or the two halves of a long form (R166, R167). -/
def Core.fetched (k : Core) (c : CoreId) : Nat :=
  let h := k.half c k.pc.toNat
  if ohmLong h then h + k.half c (k.pc.toNat + 1) * 2 ^ 18 else h

/-- The instruction at a core's PC; none where its encoding is reserved and EMULATE is due (R182, R187). -/
def State.instrAt (s : State) (c : CoreId) (upto : Nat) : Option Instr := decodeOhm c upto ((s.core c).fetched c)

/-- An encoding that EMULATE reports: reserved, and of the width that its MAJ gives it (R182, R187). -/
def emulated (c : CoreId) (long : Bool) (w : Nat) : Bool :=
  decide (ohmLong w = long) && (decodeOhm c 0 w).isNone && (long || decide (w < 2 ^ 18))

end Sys2Proof.Machine
end

