-- ==== Sys2Proof/Machine/OhmInt.lean ====
section
/-!
DEFINITION. Ohmette-36 integer instructions: ALU, shifts, compares, multiply and divide, immediates (R169, R170, R174).
-/
namespace Sys2Proof.Machine

/-- rd = f rs rt. -/
def alu2 (rd rs rt : Nat) (f : Word36 → Word36 → Word36) (k : Core) : CRes :=
  .done (k.set rd (f (k.get rs) (k.get rt)))

/-- rd = f rs. -/
def alu1 (rd rs : Nat) (f : Word36 → Word36) (k : Core) : CRes := .done (k.set rd (f (k.get rs)))

/-- rd = f rs rt, setting IQF where `q` holds of the operands (R174). -/
def aluQ (rd rs rt : Nat) (f : Word36 → Word36 → Word36) (q : Word36 → Word36 → Bool) (k : Core) : CRes :=
  let a := k.get rs
  let b := k.get rt
  let k' := k.set rd (f a b)
  .done (if q a b then k'.cwSet fIQF else k')

/-- 1 when a relation holds (R174). -/
def flagWord (b : Bool) : Word36 := if b then 1 else 0

/-- SHL by rt[5:0]; amounts from 36 give 0 (R174). -/
def shlW (a b : Word36) : Word36 := a <<< (b.toNat % 64)
/-- SHR by rt[5:0]; amounts from 36 give 0 (R174). -/
def shrW (a b : Word36) : Word36 := a >>> (b.toNat % 64)
/-- SAR by rt[5:0]; amounts from 36 give copies of bit 35 (R174). -/
def sarW (a b : Word36) : Word36 := a.sshiftRight (b.toNat % 64)
/-- Bits [71:36] of the signed product (R170). -/
def mulhiW (a b : Word36) : Word36 := BitVec.ofInt 36 (a.toInt * b.toInt / 2 ^ 36)
/-- Bits [71:36] of the unsigned product (R170). -/
def mulhiuW (a b : Word36) : Word36 := BitVec.ofNat 36 (a.toNat * b.toNat / 2 ^ 36)
/-- The most negative int36. -/
def minW : Word36 := 0x800000000
/-- Signed division overflows or its divisor is 0 (R174). -/
def divBad (a b : Word36) : Bool := b == 0 || (a == minW && b == BitVec.allOnes 36)
/-- DIV: 0 for a zero divisor, 2^35 - 1 for the overflow, else truncated (R174). -/
def divW (a b : Word36) : Word36 :=
  if b = 0 then 0 else if a = minW ∧ b = BitVec.allOnes 36 then 0x7FFFFFFFF else a.sdiv b
/-- REM: 0 for a zero divisor and for the overflow (R174). -/
def remW (a b : Word36) : Word36 := if divBad a b then 0 else a.srem b
/-- DIVU: 0 for a zero divisor (R174). -/
def divuW (a b : Word36) : Word36 := if b = 0 then 0 else a / b
/-- REMU: 0 for a zero divisor (R174). -/
def remuW (a b : Word36) : Word36 := if b = 0 then 0 else a % b
/-- Leading zero bits (R170). -/
def clzW (a : Word36) : Word36 :=
  BitVec.ofNat 36 (if a = 0 then 36 else 35 - Nat.log2 a.toNat)
/-- One bits (R170). -/
def popcW (a : Word36) : Word36 := BitVec.ofNat 36 (popCount 36 a.toNat)
/-- Immediate width of the short and the long form. -/
def immW (long : Bool) (s l : Nat) : Nat := if long then l else s

/-- ADD: rd = rs + rt modulo 2^36 (R169, R170). -/
def execAdd (c : CoreId) (long : Bool) (rd rs rt : Nat) (s : State) : Res :=
  .next (s.runCore c long (alu2 rd rs rt (· + ·)))

/-- SUB: rd = rs - rt modulo 2^36 (R169, R170). -/
def execSub (c : CoreId) (long : Bool) (rd rs rt : Nat) (s : State) : Res :=
  .next (s.runCore c long (alu2 rd rs rt (· - ·)))

/-- AND: bitwise (R169, R170). -/
def execAnd (c : CoreId) (long : Bool) (rd rs rt : Nat) (s : State) : Res :=
  .next (s.runCore c long (alu2 rd rs rt (· &&& ·)))

/-- OR: bitwise (R169, R170). -/
def execOr (c : CoreId) (long : Bool) (rd rs rt : Nat) (s : State) : Res :=
  .next (s.runCore c long (alu2 rd rs rt (· ||| ·)))

/-- XOR: bitwise (R169, R170). -/
def execXor (c : CoreId) (long : Bool) (rd rs rt : Nat) (s : State) : Res :=
  .next (s.runCore c long (alu2 rd rs rt (· ^^^ ·)))

/-- SHL: shift left by rt[5:0] (R174). -/
def execShl (c : CoreId) (long : Bool) (rd rs rt : Nat) (s : State) : Res :=
  .next (s.runCore c long (alu2 rd rs rt shlW))

/-- SHR: logical shift right by rt[5:0] (R174). -/
def execShr (c : CoreId) (long : Bool) (rd rs rt : Nat) (s : State) : Res :=
  .next (s.runCore c long (alu2 rd rs rt shrW))

/-- SAR: arithmetic shift right by rt[5:0] (R174). -/
def execSar (c : CoreId) (long : Bool) (rd rs rt : Nat) (s : State) : Res :=
  .next (s.runCore c long (alu2 rd rs rt sarW))

/-- CMPLT: 1 when rs < rt as int36 (R174). -/
def execCmplt (c : CoreId) (long : Bool) (rd rs rt : Nat) (s : State) : Res :=
  .next (s.runCore c long (alu2 rd rs rt (fun a b => flagWord (a.slt b))))

/-- CMPLTU: 1 when rs < rt as uint36 (R174). -/
def execCmpltu (c : CoreId) (long : Bool) (rd rs rt : Nat) (s : State) : Res :=
  .next (s.runCore c long (alu2 rd rs rt (fun a b => flagWord (a.ult b))))

/-- MUL: low 36 bits of the product (R170). -/
def execMul (c : CoreId) (long : Bool) (rd rs rt : Nat) (s : State) : Res :=
  .next (s.runCore c long (alu2 rd rs rt (· * ·)))

/-- MULHI: bits [71:36] of the signed product (R170). -/
def execMulhi (c : CoreId) (rd rs rt : Nat) (s : State) : Res :=
  .next (s.runCore c true (alu2 rd rs rt mulhiW))

/-- MULHIU: bits [71:36] of the unsigned product (R170). -/
def execMulhiu (c : CoreId) (rd rs rt : Nat) (s : State) : Res :=
  .next (s.runCore c true (alu2 rd rs rt mulhiuW))

/-- DIV: signed quotient (R174). -/
def execDiv (c : CoreId) (rd rs rt : Nat) (s : State) : Res :=
  .next (s.runCore c true (aluQ rd rs rt divW divBad))

/-- DIVU: unsigned quotient (R174). -/
def execDivu (c : CoreId) (rd rs rt : Nat) (s : State) : Res :=
  .next (s.runCore c true (aluQ rd rs rt divuW (fun _ b => b == 0)))

/-- REM: signed remainder (R174). -/
def execRem (c : CoreId) (rd rs rt : Nat) (s : State) : Res :=
  .next (s.runCore c true (aluQ rd rs rt remW divBad))

/-- REMU: unsigned remainder (R174). -/
def execRemu (c : CoreId) (rd rs rt : Nat) (s : State) : Res :=
  .next (s.runCore c true (aluQ rd rs rt remuW (fun _ b => b == 0)))

/-- MIN: signed minimum (R170). -/
def execMin (c : CoreId) (long : Bool) (rd rs rt : Nat) (s : State) : Res :=
  .next (s.runCore c long (alu2 rd rs rt (fun a b => if a.slt b then a else b)))

/-- MAX: signed maximum (R170). -/
def execMax (c : CoreId) (long : Bool) (rd rs rt : Nat) (s : State) : Res :=
  .next (s.runCore c long (alu2 rd rs rt (fun a b => if a.slt b then b else a)))

/-- MINU: unsigned minimum (R170). -/
def execMinu (c : CoreId) (rd rs rt : Nat) (s : State) : Res :=
  .next (s.runCore c true (alu2 rd rs rt (fun a b => if a.ult b then a else b)))

/-- MAXU: unsigned maximum (R170). -/
def execMaxu (c : CoreId) (rd rs rt : Nat) (s : State) : Res :=
  .next (s.runCore c true (alu2 rd rs rt (fun a b => if a.ult b then b else a)))

/-- CLZ: leading zero bits (R170). -/
def execClz (c : CoreId) (rd rs : Nat) (s : State) : Res :=
  .next (s.runCore c true (alu1 rd rs clzW))

/-- POPC: one bits (R170). -/
def execPopc (c : CoreId) (rd rs : Nat) (s : State) : Res :=
  .next (s.runCore c true (alu1 rd rs popcW))

/-- MADD: rd = rs * rt + ru modulo 2^36 (R170). -/
def execMadd (c : CoreId) (rd rs rt ru : Nat) (s : State) : Res :=
  .next (s.runCore c true (fun k => .done (k.set rd (k.get rs * k.get rt + k.get ru))))

/-- ADDI: rd = rs + sext(imm); the short form has rs = rd (R169, R170). -/
def execAddi (c : CoreId) (long : Bool) (rd rs imm : Nat) (s : State) : Res :=
  .next (s.runCore c long (alu1 rd rs (· + immS (immW long 8 16) imm)))

/-- MOVI: rd = sext(imm) (R169, R170). -/
def execMovi (c : CoreId) (long : Bool) (rd imm : Nat) (s : State) : Res :=
  .next (s.runCore c long (fun k => .done (k.set rd (immS (immW long 8 21) imm))))

/-- ANDI: rd = rs AND zext(imm) (R169, R170). -/
def execAndi (c : CoreId) (long : Bool) (rd rs imm : Nat) (s : State) : Res :=
  .next (s.runCore c long (alu1 rd rs (· &&& immZ imm)))

/-- ORI: rd = rs OR zext(imm) (R169, R170). -/
def execOri (c : CoreId) (long : Bool) (rd rs imm : Nat) (s : State) : Res :=
  .next (s.runCore c long (alu1 rd rs (· ||| immZ imm)))

/-- XORI: rd = rs XOR zext(imm) (R170). -/
def execXori (c : CoreId) (rd rs imm : Nat) (s : State) : Res :=
  .next (s.runCore c true (alu1 rd rs (· ^^^ immZ imm)))

/-- CMPLTI: signed compare with sext(imm) (R169, R170). -/
def execCmplti (c : CoreId) (long : Bool) (rd rs imm : Nat) (s : State) : Res :=
  .next (s.runCore c long (alu1 rd rs (fun a => flagWord (a.slt (immS (immW long 8 16) imm)))))

/-- CMPLTIU: unsigned compare with sext(imm) (R170). -/
def execCmpltiu (c : CoreId) (rd rs imm : Nat) (s : State) : Res :=
  .next (s.runCore c true (alu1 rd rs (fun a => flagWord (a.ult (immS 16 imm)))))

/-- SHLI: shift rs by imm[5:0]; the short form has rs = rd (R169, R170). -/
def execShli (c : CoreId) (long : Bool) (rd rs imm : Nat) (s : State) : Res :=
  .next (s.runCore c long (alu1 rd rs (shlW · (immZ imm))))

/-- SHRI: shift rs by imm[5:0]; the short form has rs = rd (R169, R170). -/
def execShri (c : CoreId) (long : Bool) (rd rs imm : Nat) (s : State) : Res :=
  .next (s.runCore c long (alu1 rd rs (shrW · (immZ imm))))

/-- SARI: shift rs by imm[5:0]; the short form has rs = rd (R169, R170). -/
def execSari (c : CoreId) (long : Bool) (rd rs imm : Nat) (s : State) : Res :=
  .next (s.runCore c long (alu1 rd rs (sarW · (immZ imm))))

/-- ADDSP: sp = sp + sext(imm) (R170). -/
def execAddsp (c : CoreId) (imm : Nat) (s : State) : Res :=
  .next (s.runCore c true (fun k => .done { k with sp := k.sp + immS 16 imm }))

/-- LDHI: bits [35:15] from imm, the rest 0 (R170). -/
def execLdhi (c : CoreId) (rd imm : Nat) (s : State) : Res :=
  .next (s.runCore c true (fun k => .done (k.set rd (immZ imm <<< 15))))

/-- PCREL: rd = PC + sext(imm) in halves (R170). -/
def execPcrel (c : CoreId) (rd imm : Nat) (s : State) : Res :=
  .next (s.runCore c true (fun k => .done (k.set rd (k.pc.setWidth 36 + immS 21 imm))))

/-- NOP: no operation (R169). -/
def execNop (c : CoreId) (s : State) : Res :=
  .next (s.runCore c false (fun k => .done k))

/-- MOV: rd = rs (R169). -/
def execMov (c : CoreId) (rd rs : Nat) (s : State) : Res :=
  .next (s.runCore c false (alu1 rd rs id))

/-- NEG: rd = -rs (R169). -/
def execNeg (c : CoreId) (rd rs : Nat) (s : State) : Res :=
  .next (s.runCore c false (alu1 rd rs (fun a => -a)))

/-- NOT: rd = ~rs (R169). -/
def execNot (c : CoreId) (rd rs : Nat) (s : State) : Res :=
  .next (s.runCore c false (alu1 rd rs (fun a => ~~~a)))

end Sys2Proof.Machine
end

