-- ==== Sys2Proof/Machine/OhmCtl.lean ====
section
/-!
DEFINITION. Ohmette-36 private memory, stack, branches, system registers, traps, interrupts and messages (R169-R172, R177,
R182-R186, R197).
-/
namespace Sys2Proof.Machine

/-! ## Private memory and the stack -/

/-- A load from private memory into a register; PMEM_ACCESS where it is beyond memory or denied (R182, R199). -/
def pmLoad (c : CoreId) (rd : Nat) (a : Word36) (k : Core) : CRes :=
  if k.pmOk a 18 then .done (k.set rd (k.pmRead c a.toNat)) else .trap k 4 a

/-- A store to private memory. -/
def pmStore (a v : Word36) (k : Core) : CRes :=
  if k.pmOk a 19 then .done (k.pmWrite a.toNat v) else .trap k 4 a

/-- A word is pushed: STACK below SPLIM, else PMEM_ACCESS where the slot is denied (R177, R184). -/
def pushWord (v : Word36) (k : Core) (next : Core → CRes) : CRes :=
  if k.sp.toNat < k.splim.toNat + 1 then .trap k 7 k.sp
  else if k.pmOk (k.sp - 1) 19 then next ({ k with sp := k.sp - 1 }.pmWrite (k.sp - 1).toNat v)
  else .trap k 4 (k.sp - 1)

/-- A word is popped: STACK at or above SPTOP, else PMEM_ACCESS where the slot is denied (R177, R184). -/
def popWord (c : CoreId) (k : Core) (next : Core → Word36 → CRes) : CRes :=
  if k.sptop.toNat ≤ k.sp.toNat then .trap k 7 k.sp
  else if k.pmOk k.sp 18 then next { k with sp := k.sp + 1 } (k.pmRead c k.sp.toNat)
  else .trap k 4 k.sp

/-- LDW: rd = pmem[rs + imm], the short offset zero-extended, the long one sign-extended (R169, R171). -/
def execLdw (c : CoreId) (long : Bool) (rd rs imm : Nat) (s : State) : Res :=
  .next (s.runCore c long (fun k => pmLoad c rd (k.get rs + if long then immS 16 imm else immZ imm) k))

/-- STW: pmem[rs + imm] = rd (R169, R171). -/
def execStw (c : CoreId) (long : Bool) (rd rs imm : Nat) (s : State) : Res :=
  .next (s.runCore c long (fun k => pmStore (k.get rs + if long then immS 16 imm else immZ imm) (k.get rd) k))

/-- SPW dir 0: r = pmem[sp + zext(off)] (R169). -/
def execSpwLoad (c : CoreId) (r off : Nat) (s : State) : Res :=
  .next (s.runCore c false (fun k => pmLoad c r (k.sp + immZ off) k))

/-- SPW dir 1: pmem[sp + zext(off)] = r (R169). -/
def execSpwStore (c : CoreId) (r off : Nat) (s : State) : Res :=
  .next (s.runCore c false (fun k => pmStore (k.sp + immZ off) (k.get r) k))

/-- PUSH (R177). -/
def execPush (c : CoreId) (rs : Nat) (s : State) : Res :=
  .next (s.runCore c false (fun k => pushWord (k.get rs) k .done))

/-- POP (R177). -/
def execPop (c : CoreId) (rd : Nat) (s : State) : Res :=
  .next (s.runCore c false (fun k => popWord c k (fun k v => .done (k.set rd v))))

/-- RET: the PC takes bits [18:0] of the popped word (R177). -/
def execRet (c : CoreId) (s : State) : Res :=
  .next (s.runCore c false (fun k => popWord c k (fun k v => .jump k (v.setWidth 19))))

/-- CALLR: pushes the half after it and jumps to rs (R169, R177). -/
def execCallr (c : CoreId) (rs : Nat) (s : State) : Res :=
  .next (s.runCore c false (fun k =>
    pushWord ((k.pc + 1).setWidth 36) k (fun k' => .jump k' ((k.get rs).setWidth 19))))

/-- CALL: pushes the half after it and jumps by sext(imm) halves (R172, R177). -/
def execCall (c : CoreId) (imm : Nat) (s : State) : Res :=
  .next (s.runCore c true (fun k => pushWord ((k.pc + 2).setWidth 36) k (fun k' => .jump k' (k.target 21 imm))))

/-- WCOPY: one word per granule; a destination that begins inside the source range takes OPERAND (R179). -/
def execWcopy (c : CoreId) (rd rs rt upto : Nat) (s : State) : Res :=
  .next (s.runWith c true true (fun s k =>
    let n := (k.get rd).toNat
    let src := k.get rs
    let dst := k.get rt
    if 2 ^ 24 ≤ n then badOperand s k (k.get rd)
    else if src.toNat < dst.toNat ∧ dst.toNat < src.toNat + n then badOperand s k dst
    else granules n 1 (fun s k i =>
        let a := src + immZ i
        let b := dst + immZ i
        if !k.pmOk a 18 then (s, k, some (4, a))
        else if !k.pmOk b 19 then (s, k, some (4, b))
        else (s, k.pmWrite b.toNat (k.pmRead c a.toNat), none))
      upto s (k.cwClear 0x004) k.resumeAt))

/-! ## Branches and jumps -/

/-- A branch of `len` halves whose offset has `n` bits, taken where `p` holds (R169, R172). -/
def branch (len : BitVec 19) (n off : Nat) (p : Core → Bool) (k : Core) : CRes :=
  .jump k (if p k then k.target n off else k.pc + len)

/-- The condition codes of BCZ: EQZ, NEZ, LTZ, GEZ, GTZ, LEZ (R169). -/
def condZ (cond : Nat) (a : Word36) : Bool :=
  match cond with
  | 0 => a.toInt == 0
  | 1 => a.toInt != 0
  | 2 => decide (a.toInt < 0)
  | 3 => decide (0 ≤ a.toInt)
  | 4 => decide (0 < a.toInt)
  | _ => decide (a.toInt ≤ 0)

/-- BCZ (R169). -/
def execBcz (c : CoreId) (cond rs off : Nat) (s : State) : Res :=
  .next (s.runCore c false (branch 1 8 off (fun k => condZ cond (k.get rs))))

/-- BR (R169). -/
def execBr (c : CoreId) (off : Nat) (s : State) : Res := .next (s.runCore c false (branch 1 14 off (fun _ => true)))

/-- CBEQ: taken when rd = rs (R172). -/
def execCbeq (c : CoreId) (rd rs imm : Nat) (s : State) : Res :=
  .next (s.runCore c true (branch 2 16 imm (fun k => k.get rd == k.get rs)))

/-- CBNE (R172). -/
def execCbne (c : CoreId) (rd rs imm : Nat) (s : State) : Res :=
  .next (s.runCore c true (branch 2 16 imm (fun k => k.get rd != k.get rs)))

/-- CBLT: as int36 (R172). -/
def execCblt (c : CoreId) (rd rs imm : Nat) (s : State) : Res :=
  .next (s.runCore c true (branch 2 16 imm (fun k => (k.get rd).slt (k.get rs))))

/-- CBGE: as int36 (R172). -/
def execCbge (c : CoreId) (rd rs imm : Nat) (s : State) : Res :=
  .next (s.runCore c true (branch 2 16 imm (fun k => !(k.get rd).slt (k.get rs))))

/-- CBLTU: as uint36 (R172). -/
def execCbltu (c : CoreId) (rd rs imm : Nat) (s : State) : Res :=
  .next (s.runCore c true (branch 2 16 imm (fun k => (k.get rd).ult (k.get rs))))

/-- CBGEU: as uint36 (R172). -/
def execCbgeu (c : CoreId) (rd rs imm : Nat) (s : State) : Res :=
  .next (s.runCore c true (branch 2 16 imm (fun k => !(k.get rd).ult (k.get rs))))

/-- J (R172). -/
def execJ (c : CoreId) (imm : Nat) (s : State) : Res := .next (s.runCore c true (branch 2 21 imm (fun _ => true)))

/-- JR: the PC takes the low 19 bits of rs (R156, R169; log entry 6). -/
def execJr (c : CoreId) (rs : Nat) (s : State) : Res :=
  .next (s.runCore c false (fun k => .jump k ((k.get rs).setWidth 19)))

/-- FENCE: retires only when every earlier external access is acknowledged; a posted store that waits keeps it waiting
(R164). -/
def execFence (c : CoreId) (s : State) : Res :=
  .next (s.runCore c false (fun k => if k.heldStores.isEmpty then .done k else .stay k))

/-! ## System registers (R197) -/

/-- Whether the map marks a system register user (R197). -/
def sysUser (i : Nat) : Bool :=
  i == 0 || (decide (0x10 ≤ i) && decide (i ≤ 0x12)) || (decide (0x42 ≤ i) && decide (i ≤ 0x4B))

/-- FEATURE of a core (R189). -/
def featureOf : CoreId → Nat
  | .tile t => 0x02 + t * 2 ^ 9 + 7 * 2 ^ 17
  | .hub c => 0x02 + 2 ^ 8 + c * 2 ^ 9 + 7 * 2 ^ 17

/-- IPEND of a core (R197). -/
def Core.ipend (k : Core) : Nat :=
  ofBool k.beatPend * 2 ^ 16 + ofBool k.timerPend * 2 ^ 17 + ofBool (!k.msgs.isEmpty) * 2 ^ 18
    + ofBool k.fnPend * 2 ^ 19 + ofBool k.beatLost * 2 ^ 20

/-- A read of a system register: MSGVAL pops a message, a counter's LO latches its HI (R186, R197, R198). The RZ bits of
CW and CONT are undefined on a read (R20): `free` supplies them. -/
def Core.sysRead (k : Core) (c : CoreId) (free : Nat) (i : Nat) : Core × Word36 :=
  let z := BitVec.ofNat 36 free
  if i = 0 then (k, BitVec.ofNat 36 (featureOf c))
  else if i = 0x10 then (k, k.sp)
  else if i = 0x11 then (k, k.cw ||| (z &&& ~~~cwMask))
  else if i = 0x12 then (k, k.cont ||| (z &&& ~~~contMask))
  else if i = 0x20 then (k, k.epc)
  else if i = 0x21 then (k, k.ecw)
  else if i = 0x22 then (k, k.econt)
  else if i = 0x23 then (k, k.cause)
  else if i = 0x24 then (k, k.tval)
  else if i = 0x25 then (k, k.vbase)
  else if i = 0x26 then (k, k.ienable)
  else if i = 0x27 then (k, BitVec.ofNat 36 k.ipend)
  else if i = 0x28 then (k, k.splim)
  else if i = 0x29 then (k, k.sptop)
  else if i = 0x2A then (k, k.timer)
  else if i = 0x2B then
    match k.msgs with
    | [] => (k, 0)
    | m :: t => ({ k with msgs := t }, m.setWidth 36)
  else if i = 0x2C then (k, BitVec.ofNat 36 (k.fnCode + k.fnSeq * 2 ^ 20))
  else if i = 0x2D then (k, k.fnData)
  else if i = 0x30 then (k, k.hbmwin)
  else if i < 0x3C then (k, k.scratch.getD 0 (i - 0x38))
  else if i = 0x40 then (k, BitVec.ofNat 36 (ofBool k.ctrEn))
  else if i = 0x41 then (k, BitVec.ofNat 36 (k.ctrWrap + k.ctrWrapSeq * 2 ^ 20))
  else if i < 0x4C then
    let j := (i - 0x42) / 2
    if i % 2 = 0 then
      ({ k with ctrLatch := k.ctrLatch.set 0 j (k.ctr.getD 0 j / 2 ^ 36) }, BitVec.ofNat 36 (k.ctr.getD 0 j))
    else (k, BitVec.ofNat 36 (k.ctrLatch.getD 0 j))
  else if i = 0x70 then (k, k.extallow)
  else if i % 2 = 0 then (k, k.rgnBase.getD 0 ((i - 0x60) / 2))
  else (k, k.rgnLim.getD 0 ((i - 0x60) / 2))

/-- All counters and WRAP bits become zero (R197). -/
def Core.clearCounters (k : Core) : Core := { k with ctr := [], ctrWrap := 0 }

/-- A write of a system register; RO registers ignore it (R20, R197, R539). -/
def Core.sysWrite (k : Core) (i : Nat) (v : Word36) : Core :=
  if i = 0x10 then { k with sp := v }
  else if i = 0x11 then { k with cw := v &&& cwMask }
  else if i = 0x12 then { k with cont := v &&& contMask }
  else if i = 0x20 then { k with epc := v }
  else if i = 0x21 then { k with ecw := v }
  else if i = 0x22 then { k with econt := v }
  else if i = 0x25 then { k with vbase := v }
  else if i = 0x26 then { k with ienable := v }
  else if i = 0x27 then (if v.getLsbD 20 then { k with beatLost := false } else k)
  else if i = 0x28 then { k with splim := v }
  else if i = 0x29 then { k with sptop := v }
  else if i = 0x2A then { k with timer := v, timerSet := true }
  else if i = 0x2C then
    (if v.toNat / 2 ^ 20 = k.fnSeq then { k with fnPend := false, fnCode := 0 } else k)
  else if i = 0x30 then { k with hbmwin := v }
  else if 0x38 ≤ i ∧ i < 0x3C then { k with scratch := k.scratch.set 0 (i - 0x38) v }
  else if i = 0x40 then
    (let k := { k with ctrEn := v.getLsbD 0 }
     if v.getLsbD 1 then k.clearCounters else k)
  else if i = 0x41 then (if v.toNat / 2 ^ 20 = k.ctrWrapSeq then { k with ctrWrap := 0 } else k)
  else if i = 0x70 then { k with extallow := v }
  else if 0x60 ≤ i ∧ i < 0x70 then
    (if i % 2 = 0 then { k with rgnBase := k.rgnBase.set 0 ((i - 0x60) / 2) v }
     else { k with rgnLim := k.rgnLim.set 0 ((i - 0x60) / 2) v })
  else k

/-- MFS: EMULATE at a reserved index, PRIV in compartment mode unless marked user, else the read (R172, R184, R197). -/
def mfsBody (c : CoreId) (rd i : Nat) (s : State) (k : Core) : State × CRes :=
  if !sysNamed i then (s, .trap k 1 (encLI 0xE 0x20 rd 0 i))
  else if k.compartment && !sysUser i then (s, .trap k 8 (encLI 0xE 0x20 rd 0 i))
  else
    let r := k.sysRead c s.free i
    (if i = 0x11 ∨ i = 0x12 then s.drawn else s, .done (r.1.set rd r.2))

/-- MTS: EMULATE at a reserved index; PRIV in compartment mode unless marked user, and for CW, whose write reaches fields
other than FSTICKY; else the write (R157, R172, R184, R197; log entry 7). -/
def mtsBody (rs i : Nat) (k : Core) : CRes :=
  if !sysNamed i then .trap k 1 (encLI 0xE 0x21 0 rs i)
  else if k.compartment && (!sysUser i || i == 0x11) then .trap k 8 (encLI 0xE 0x21 0 rs i)
  else .done (k.sysWrite i (k.get rs))

/-- MFS (R172). -/
def execMfs (c : CoreId) (rd i : Nat) (s : State) : Res := .next (s.runWith c true false (mfsBody c rd i))

/-- MTS (R172). -/
def execMts (c : CoreId) (rs i : Nat) (s : State) : Res := .next (s.runCore c true (mtsBody rs i))

/-- A read of MSGVAL pops the oldest message (R186, R197). -/
def execMsgvalPop (c : CoreId) (rd : Nat) (s : State) : Res := .next (s.runWith c true false (mfsBody c rd 0x2B))

/-- A write of 1 to CTRCTL.CLR zeroes all counters and WRAP bits; EN takes bit 0 of the same word (R197). -/
def execCtrctlClr (c : CoreId) (rs : Nat) (s : State) : Res :=
  .next (s.runCore c true (fun k =>
    if k.compartment then .trap k 8 (encLI 0xE 0x21 0 rs 0x40)
    else .done (k.sysWrite 0x40 (k.get rs ||| 2))))

/-- CWSET: PRIV in compartment mode when imm names a field other than FSTICKY (R157, R172). -/
def execCwset (c : CoreId) (imm : Nat) (s : State) : Res :=
  .next (s.runCore c true (fun k =>
    if k.compartment && decide (imm % 16 ≠ 0) then .trap k 8 (encLI 0xE 0x22 0 0 imm)
    else .done (k.cwSet (immZ imm &&& cwMask))))

/-- CWCLR (R157, R172). -/
def execCwclr (c : CoreId) (imm : Nat) (s : State) : Res :=
  .next (s.runCore c true (fun k =>
    if k.compartment && decide (imm % 16 ≠ 0) then .trap k 8 (encLI 0xE 0x23 0 0 imm)
    else .done (k.cwClear (immZ imm &&& cwMask))))

/-! ## Traps, interrupts and waiting -/

/-- TRAP: vector 9 with TVAL zext(imm) (R172, R182). -/
def execTrap (c : CoreId) (imm : Nat) (s : State) : Res :=
  .next (s.runCore c true (fun k => .trap k 9 (immZ imm)))

/-- ERET (R172, R183). -/
def execEret (c : CoreId) (s : State) : Res :=
  .next (s.runCore c true (fun k =>
    if k.compartment then .trap k 8 (encLR 0xE 0x29 0 0 0 0)
    else .jump k.leave k.leave.pc))

/-- WFI: waits until a pending source is enabled; with none the core stops after it until one is (R172, R186). -/
def execWfi (c : CoreId) (s : State) : Res :=
  .next (s.runCore c true (fun k =>
    if k.compartment then .trap k 8 (encLR 0xE 0x2A 0 0 0 0)
    else .done { k with waiting := k.enabledSource.isNone }))

/-- A synchronous trap may be entered through vector n: it is listed, and EMULATE has a reserved encoding as its TVAL (R182, R187). -/
def trapTaken (c : CoreId) (n : Nat) (long : Bool) (tval : Word36) : Bool :=
  decide (0 < n) && decide (n ≤ 10) && (n != 1 || emulated c long tval.toNat)

/-- The words of private memory that hold the halves of the instruction at the PC (R166). -/
def Core.codeWord (k : Core) (long : Bool) (w : Nat) : Bool :=
  w == k.pc.toNat / 2 || (long && w == (k.pc.toNat + 1) / 2)

/-- A synchronous trap that the instruction at the PC raises, such as EMULATE on a reserved encoding, FETCH or PARITY: an interrupt due
at the boundary comes first (R184); a parity error is also reported (R160), and one in a word that is not the instruction's own meets
an instruction that has started, and so has consumed CV (R180). -/
def execTrapEntry (c : CoreId) (n : Nat) (long : Bool) (tval : Word36) (s : State) : Res :=
  let k := s.core c
  if !s.coreRuns c then .next s
  else match k.interrupt with
  | some i => .next (s.setCore c (k.takeInterrupt i (s.rg Rg.beat_BEATNO)))
  | none =>
    if k.waiting && k.enabledSource.isNone then .next s
    else if !trapTaken c n long tval then .next s
    else
      let s' := if n = 10 then s.detect (.coreParity c tval.toNat) else s
      let k := { k with waiting := false }
      .next (s'.trap c (if n = 10 ∧ k.codeWord long tval.toNat = false then k.cwClear 0x004 else k) n long tval)

/-- The interrupt due at this boundary is taken; nothing happens when none is due (R184). -/
def execInterruptEntry (c : CoreId) (s : State) : Res :=
  let k := s.core c
  if !s.coreRuns c then .next s
  else match k.interrupt with
  | some i => .next (s.setCore c (k.takeInterrupt i (s.rg Rg.beat_BEATNO)))
  | none => .next s

/-- TIMER reaches zero, so TIMER is pending (R186). -/
def execTimerExpire (c : CoreId) (s : State) : Res := .next (s.setCore c { s.core c with timer := 0, timerSet := true })

/-- A write to MSG_IN queues its value. Refused, or where a writing core does not have the range or may not use it, the core takes
EXT_ACCESS, and any other requester an error response (R161, R186, R199; log entry 123). -/
def execMsgInWrite (src : Req) (dst : CoreId) (v : Nat) (s : State) : Res :=
  let may : Bool := match src with
    | .core w => (msgRange w dst).any (s.core w).allowed
    | _ => true
  match src, (if may then s.postMsg dst v else none) with
  | _, some s' => .next s'
  | .core w, none => .next (s.trap w (s.core w) 5 false (BitVec.ofNat 36 (msgAddr w dst)))
  | r, none => .next (s.emit (.writeError r))

end Sys2Proof.Machine
end

