-- ==== Sys2Proof/Machine/OhmFp.lean ====
section
/-!
DEFINITION. Ohmette-36 F36 instructions and table interpolation (R169, R173, R175, R176, R178, R179).
-/
namespace Sys2Proof.Machine

/-- A result goes to rd, and its flags join the sticky flags of cw (R157, R175). -/
def Core.putF (k : Core) (rd : Nat) (r : Nat × FFlags) : Core :=
  (k.set rd (BitVec.ofNat 36 r.1)).cwSet (BitVec.ofNat 36 r.2.word)

/-- rd = f rs rt. -/
def fp2 (rd rs rt : Nat) (f : Nat → Nat → Nat × FFlags) (k : Core) : CRes :=
  .done (k.putF rd (f (k.get rs).toNat (k.get rt).toNat))

/-- rd = f rs. -/
def fp1 (rd rs : Nat) (f : Nat → Nat × FFlags) (k : Core) : CRes := .done (k.putF rd (f (k.get rs).toNat))

/-- A result that raises no flag. -/
def quiet (x : Nat) : Nat × FFlags := (x, {})

/-- An integer result as a word. -/
def intRes (r : Int × FFlags) : Nat × FFlags := (wrap 36 r.1, r.2)

/-- FCMP's result and flag (R173). -/
def fcmpRes (x y : Nat) : Nat × FFlags := (cmp36 x y, { inv := cmp36 x y == 3 })

/-- FADD: rd = rs + rt, rounded once (R175). -/
def execFadd (c : CoreId) (long : Bool) (rd rs rt : Nat) (s : State) : Res :=
  .next (s.runCore c long (fp2 rd rs rt add36))

/-- FSUB: rd = rs − rt, rounded once (R175). -/
def execFsub (c : CoreId) (long : Bool) (rd rs rt : Nat) (s : State) : Res :=
  .next (s.runCore c long (fp2 rd rs rt sub36))

/-- FMUL: rd = rs × rt, rounded once (R175). -/
def execFmul (c : CoreId) (long : Bool) (rd rs rt : Nat) (s : State) : Res :=
  .next (s.runCore c long (fp2 rd rs rt mul36))

/-- FDIV: rd = rs / rt, rounded once (R175). -/
def execFdiv (c : CoreId) (rd rs rt : Nat) (s : State) : Res :=
  .next (s.runCore c true (fp2 rd rs rt div36))

/-- FMIN: the smaller operand by R136; no flags. -/
def execFmin (c : CoreId) (long : Bool) (rd rs rt : Nat) (s : State) : Res :=
  .next (s.runCore c long (fp2 rd rs rt (fun x y => quiet (min36 x y))))

/-- FMAX: the larger operand by R136; no flags. -/
def execFmax (c : CoreId) (long : Bool) (rd rs rt : Nat) (s : State) : Res :=
  .next (s.runCore c long (fp2 rd rs rt (fun x y => quiet (max36 x y))))

/-- FCMP: 0 equal, 1 less, 2 greater, 3 unordered with INV (R173). -/
def execFcmp (c : CoreId) (rd rs rt : Nat) (s : State) : Res :=
  .next (s.runCore c true (fp2 rd rs rt fcmpRes))

/-- FSQRT: rd = √rs, rounded once (R175). -/
def execFsqrt (c : CoreId) (rd rs : Nat) (s : State) : Res :=
  .next (s.runCore c true (fp1 rd rs sqrt36))

/-- FNEG: the sign inverted, no flags (R173). -/
def execFneg (c : CoreId) (long : Bool) (rd rs : Nat) (s : State) : Res :=
  .next (s.runCore c long (fp1 rd rs (fun x => quiet (neg36 x))))

/-- FABS: the sign cleared, no flags (R173). -/
def execFabs (c : CoreId) (long : Bool) (rd rs : Nat) (s : State) : Res :=
  .next (s.runCore c long (fp1 rd rs (fun x => quiet (abs36 x))))

/-- FCVTFI: F36 of an int36 (R175). -/
def execFcvtfi (c : CoreId) (rd rs : Nat) (s : State) : Res :=
  .next (s.runCore c true (fp1 rd rs (fun x => ofInt36 (sext 36 x))))

/-- FCVTFU: F36 of a uint36 (R175). -/
def execFcvtfu (c : CoreId) (rd rs : Nat) (s : State) : Res :=
  .next (s.runCore c true (fp1 rd rs (fun x => ofInt36 x)))

/-- FCVTIF: int36 of rs, truncated (R175). -/
def execFcvtif (c : CoreId) (rd rs : Nat) (s : State) : Res :=
  .next (s.runCore c true (fp1 rd rs (fun x => intRes (toInt36 false (-(2 ^ 35)) (2 ^ 35 - 1) x))))

/-- FCVTIFR: int36 of rs, rounded to nearest even (R175). -/
def execFcvtifr (c : CoreId) (rd rs : Nat) (s : State) : Res :=
  .next (s.runCore c true (fp1 rd rs (fun x => intRes (toInt36 true (-(2 ^ 35)) (2 ^ 35 - 1) x))))

/-- FCVTUF: uint36 of rs, truncated (R175). -/
def execFcvtuf (c : CoreId) (rd rs : Nat) (s : State) : Res :=
  .next (s.runCore c true (fp1 rd rs (fun x => intRes (toInt36 false 0 (2 ^ 36 - 1) x))))

/-- FMA: rd = rs × rt + ru, rounded once (R173). -/
def execFma (c : CoreId) (rd rs rt ru : Nat) (s : State) : Res :=
  .next (s.runCore c true (fun k => .done (k.putF rd (fma36 (k.get rs).toNat (k.get rt).toNat (k.get ru).toNat))))

/-- FPACK: the encoding of rs rounded into FMT; SAT as the row bit (R176). -/
def execFpack (c : CoreId) (rd rs fmt : Nat) (sat : Bool) (s : State) : Res :=
  .next (s.runCore c true (fp1 rd rs (pack36 fmt sat)))

/-- FUNPACK: the F36 value of the FMT encoding in the low bits of rs (R176). SAT is not used. -/
def execFunpack (c : CoreId) (rd rs fmt : Nat) (_sat : Bool) (s : State) : Res :=
  .next (s.runCore c true (fp1 rd rs (fun x => quiet (unpack36 fmt x))))

/-! ## Table interpolation (R178) -/

/-- The descriptor word of a table that can be read has a bit that must be zero. -/
def Core.headBad (k : Core) (c : CoreId) (T : Nat) : Bool :=
  k.pmOk (BitVec.ofNat 36 (T + 2)) 18 && decide (2 ^ 11 ≤ (k.pmRead c (T + 2)).toNat)

/-- The first word of a table that lies beyond private memory or is denied. -/
def Core.tableDenied (k : Core) (c : CoreId) (T : Nat) : Option Nat :=
  let bad (n : Nat) : Option Nat := (List.range n).find? (fun i => !k.pmOk (BitVec.ofNat 36 (T + i)) 18)
  match bad 3 with
  | some i => some (T + i)
  | none => (bad (3 + 3 * ((k.pmRead c (T + 2)).toNat % 1024 + 1))).map (fun i => T + i)

/-- The value of one element by the table at T (R106, R178). -/
def Core.interp (k : Core) (c : CoreId) (T x : Nat) : Nat :=
  let w (i : Nat) : Nat := (k.pmRead c (T + i)).toNat
  interp36 x (w 0) (w 1) (w 2 % 1024 + 1) (w 2 / 1024 % 2) (fun j => (w (3 + 3 * j), w (4 + 3 * j), w (5 + 3 * j)))

/-- TLI: rd = the interpolation of rs by the table at rt (R178). -/
def execTli (c : CoreId) (rd rs rt : Nat) (s : State) : Res :=
  .next (s.runCore c true (fun k =>
    let T := (k.get rt).toNat
    if k.headBad c T then .trap k 2 (k.pmRead c (T + 2))
    else match k.tableDenied c T with
      | some a => .trap k 4 (BitVec.ofNat 36 a)
      | none => .done (k.set rd (BitVec.ofNat 36 (k.interp c T (k.get rs).toNat)))))

/-- TLIV: the interpolation of COUNT words, one per granule (R178, R179). DESIGN CHOICE: header and coefficients are read again for
each element, so a destination that overlaps the table changes the elements after it (log entry 129). -/
def execTliv (c : CoreId) (rd rs rt ru upto : Nat) (s : State) : Res :=
  .next (s.runWith c true true (fun s k =>
    let n := (k.get rd).toNat
    let src := k.get rs
    let dst := k.get rt
    let T := (k.get ru).toNat
    if 2 ^ 24 ≤ n then badOperand s k (k.get rd)
    else if src.toNat < dst.toNat ∧ dst.toNat < src.toNat + n then badOperand s k dst
    else if k.headBad c T then badOperand s k (k.pmRead c (T + 2))
    else granules n 1 (fun s k i =>
        let a := src + immZ i
        let b := dst + immZ i
        match k.tableDenied c T with
        | some e => (s, k, some (4, BitVec.ofNat 36 e))
        | none =>
          if !k.pmOk a 18 then (s, k, some (4, a))
          else if !k.pmOk b 19 then (s, k, some (4, b))
          else (s, k.pmWrite b.toNat (BitVec.ofNat 36 (k.interp c T (k.pmRead c a.toNat).toNat)), none))
      upto s (k.cwClear 0x004) k.resumeAt))

end Sys2Proof.Machine
end

