-- ==== Sys2Proof/Machine/Reset.lean ====
section
/-!
DEFINITION. The resets that the Preton does not coordinate (R36, R545, R547, R548, R566, R581, R589).
-/
namespace Sys2Proof.Machine

/-! ## Registers and memories of a domain -/

/-- The fields of a block, for the units named, return to their reset values. -/
def State.clearRegs (s : State) (fs : List Fld) (p : Nat → Bool) : State :=
  { s with regs := s.regs.filter (fun (e : Nat × Nat) =>
    !(fs.any (fun f => f.id == e.1 / 2 ^ 22 && p (e.1 / 4 % 2 ^ 20 / (f.n1 * f.n2 * f.nb))))) }

/-- Cores by key are reset, and their private memory holds undefined words (R589). -/
def State.resetCores (s : State) (lo n : Nat) : State :=
  let st := s.freeCtr + 1
  { s with cores := (List.range n).foldl (fun (m : Cells Core) i => m.put (lo + i) { pmStamp := st }) s.cores, freeCtr := st }

/-- The bytes of a stack become undefined. -/
def State.loseStack (s : State) (st : Nat) : State := s.loseRange (physKey st 0 0) (physKey (st + 1) 0 0)

/-! ## One half (R32, R33, R547, R548) -/

/-- The working fields of a half read zero until its self-test (R42, R550). -/
def State.halfUntested (s : State) (h : Nat) : State :=
  let s := (List.range 4).foldl (fun s i => s.setRg Rg.identity_TILE_WORKING (4 * h + i) 0) s
  let s := (List.range 3).foldl (fun s i => s.setRg Rg.identity_PC_WORKING (3 * h + i) 0) s
  let s := s.setRg Rg.identity_HBM_WORKING 0 (setBits (s.rg Rg.identity_HBM_WORKING) (3 * h) 3 0)
  let s := s.setRg Rg.identity_HUBPORT_WORKING 0 (setBits (s.rg Rg.identity_HUBPORT_WORKING) (4 * h) 4 0)
  let s := s.setRg Rg.identity_BRIDGE_WORKING 0 0
  let s := { s with fw := { s.fw with testedHalves := s.fw.testedHalves.filter (fun x => x != h) } }
  let s := s.setRg Rg.identity_LINK_WORKING 0 (setBits (s.rg Rg.identity_LINK_WORKING) (12 * h) 12 0)
  (s.setRg Rg.identity_TILES_WORKING 0
    ((List.range 8).foldl (fun a k => a + popCount 32 (s.rg Rg.identity_TILE_WORKING k)) 0)).mapUpdate

/-- What a half's tiles, streams, ports and engine hold is gone. -/
def State.halfState (s : State) (h : Nat) : State :=
  let f := s.fm
  let mine (t : Nat) : Bool := t / 128 == h
  { s with
    tiles := s.tiles.drop (128 * h) (128 * h + 128), streams := s.streams.drop (2048 * h) (2048 * h + 2048),
    trellis := s.trellis.filter (fun p => !mine p.srcTile && !mine p.dstTile),
    dv := { s.dv with
      ports := s.dv.ports.drop (12 * h) (12 * h + 12), send := s.dv.send.drop (4096 * h) (4096 * h + 4096) },
    fm := { f with
      replays := f.replays.filter (fun r => !mine r.tile && !(r.spare.any mine)),
      phys := f.phys.filter (fun (e : Nat × Nat) => !mine e.1 && !mine e.2),
      retiring := f.retiring.filter (fun e => !mine e.1), routers := f.routers.filter (fun r => !mine r),
      detour := f.detour.filter (fun r => !mine r), spares := f.spares.filter (fun t => !mine t) } }

/-- UNIT and INDEX name a unit of a half (R470). -/
def halfUnit (h unit index : Nat) : Bool :=
  match unit with
  | 0 | 1 | 10 => decide (index < 256) && index / 128 == h
  | 2 | 3 => index / 3 == h
  | 4 | 5 => index / 12 == h
  | 7 => index / 4 == h
  | _ => false

/-- UNIT and INDEX name a unit of the hub main domain. -/
def hubUnit (unit index : Nat) : Bool := [8, 9, 11, 12, 13, 14].contains unit || (unit == 10 && decide (256 ≤ index))

/-- A half's core and store domains enter reset: a running domain aborts and halts with cause 2, its links go down, its slices
and its three stacks hold undefined bytes, and its tile cores are held. -/
def State.resetHalf (s : State) (h : Nat) : State :=
  let s := if s.dom.ticking then s.abortBeat 2 (some 2) else s
  let s := (List.range 12).foldl (fun s i => s.linkLeave (12 * h + i) 0 0) s
  let s := (s.halfState h).setRg (if h = 0 then Rg.system_WEST_IN_RESET else Rg.system_EAST_IN_RESET) 0 1
  let s := (s.halfUntested h).forgetReports (halfUnit h)
  let s := (s.clearRegs (Rg.seqFlds ++ Rg.tileFlds) (fun t => t / 128 == h)).fuseTiles h
  let s := s.clearRegs Rg.dvportFlds (fun d => d / 12 == h)
  let s := (List.range 4).foldl (fun s i => s.setRg Rg.window_CORE_HOLD (4 * h + i) (2 ^ 32 - 1)) s
  let s := (s.resetCores (128 * h) 128).loseRange (kSlice (128 * h) 0) (kSlice (128 * h + 128) 0)
  let s := s.loseRange (kBank (128 * h) 0 0) (kBank (128 * h + 128) 0 0)
  (List.range 3).foldl (fun s i => s.loseStack (3 * h + i)) s

/-- WEST_HOLD and EAST_HOLD are written: a half is held while its bit is 1. -/
def State.holdHalves (s : State) (w e : Bool) : State :=
  let one (s : State) (h : Nat) (f : Fld) (v : Bool) : State :=
    let was := s.flag f
    let s := s.setRg f 0 (ofBool v)
    if v then (if s.halfUp h then s.resetHalf h else s)
    else if was && !s.hubMainReset && s.fw.mainUp then s.releaseHalf h
    else s
  one (one s 0 Rg.system_WEST_HOLD w) 1 Rg.system_EAST_HOLD e

/-- RST_CTRL's half bits are written. -/
def execHalfHoldWrite (w e : Bool) (s : State) : Res := .next (s.holdHalves w e)

/-! ## The host-interface domain (R389, R548) -/

/-- The host-interface domain is reset: what an FLR of PF0 does, at once, and then the domain's own state. -/
def State.resetHost (s : State) : State :=
  let s := (List.range 128).foldl (fun s p => s.cutAll p) s
  let s := (List.range 127).foldl (fun s i => if s.plotState (i + 1) = 0 then s else s.removePlot (i + 1)) s
  let s := (s.freezeStreams 0).freezeCtx 0 true
  let s := s.clearRegs (Rg.hostFlds ++ Rg.plotStatFlds) (fun _ => true)
  let h := s.host
  let s := { s with
    host := { evCount := h.evCount, channels := h.channels, deliveries := h.deliveries },
    dv := { s.dv with ended := s.dv.ended.filter (fun e => match e.owner with
      | .desc _ _ _ => false
      | _ => true) } }
  ((s.satRg Rg.system_HOST_RESETS 0 1).setRg Rg.system_HOST_IN_RESET 0 1).showStaging

/-- PERST#, a hot reset, or the host link going down. -/
def execHostInterfaceReset (s : State) : Res := .next s.resetHost

/-! ## The hub main domain (R547, R548) -/

/-- Blocks of the hub main domain; of the record port's, TOTAL_p and EPOCH are always-on (R555). -/
def hubMainFlds : List Fld :=
  Rg.beatFlds ++ Rg.placeFlds ++ Rg.hbmFlds ++ Rg.dvorarFlds ++ Rg.ethFlds ++ Rg.schedFlds ++ Rg.stashFlds ++ Rg.cipherFlds
    ++ Rg.mulchFlds ++ Rg.firewallFlds ++ Rg.sieveFlds
    ++ Rg.clocheFlds.filter (fun f => f.id != Rg.cloche_TOTAL.id && f.id != Rg.cloche_EPOCH.id)

/-- Hub main, hub PHY, host-interface and both halves are reset; hub main stays so until it is released. -/
def State.resetHubMain (s : State) (cause : Nat) : State :=
  let s := (((s.resetHalf 0).resetHalf 1).resetHost).forgetReports hubUnit
  let s := (s.clearRegs hubMainFlds (fun _ => true)).fuseMacs
  let s := s.setRg Rg.window_HUB_HOLD 0 0x7FFF
  let f := s.fw
  let s := { s with
    hubMainReset := true, core0Run := false, dom := {}, hbm := {}, dv := {},
    gate := { last := s.gate.last, lastHold := s.gate.lastHold }, mulch := {}, records := {}, sieve := {},
    eth := {}, stash := {}, cipher := {},
    fw := { f with mainUp := false, tested := false, testedHalves := [], live := none, cores := [], forced := false, eid := 0 },
    host := { evCount := s.host.evCount } }
  let s := ((s.resetCores 256 16).loseRange (kHub 0) (kHub (2 ^ 41))).loseRange (kSieve 0 0) (kSieve 16 0)
  s.setRg Rg.system_HUB_MAIN_CAUSE 0 cause

/-- Hub main leaves reset and the boot sequencer starts it again, unless fuse-hold or SAFE forbids. -/
def State.restartHub (s : State) (bad : List Nat) : State :=
  if s.power.state = 3 ∨ s.flag Rg.system_FUSE_HOLD = true then s
  else { s with hubMainReset := false }.bootSelect bad

/-- RST_CTRL.HUB_MAIN is written: the domains are reset, and the boot sequencer runs from the selector. -/
def execHubMain (bad : List Nat) (s : State) : Res := .next ((s.resetHubMain 2).restartHub bad)

/-- A start of the boot sequencer that has waited: from step 1 with its fuse reads, else from the selector. -/
def State.startBoot (s : State) (b : BootStart) : State :=
  let s := { s with fw := { s.fw with start := none } }
  match b.fuses with
  | some rs => ({ s with hubMainReset := false }.bootAll rs b.temp b.bad)
  | none => s.restartHub b.bad

/-- MRST# falls or rises. While it is low, SAFE is held; its release ends a SAFE entered in service after 50 good samples, and
starts the boot sequencer then, or at once outside SAFE (R577, R581; log entry 69). -/
def execMrst (low : Bool) (bad : List Nat) (s : State) : Res :=
  let was := s.power.mrst
  let s := { s with power := { s.power with mrst := low } }
  if low then .next (if was then s else s.resetHubMain 1)
  else if !was then .next s
  else if s.power.state = 3 then
    .next (if s.power.boot then s
      else { s with power := { s.power with boot := true, good := 0 }, fw := { s.fw with start := some { bad := bad } } })
  else .next (s.startBoot (s.fw.start.getD { bad := bad }))

/-- PWROK falls. -/
def execPwrokFall (s : State) : Res := .next (s.resetHubMain 1)

/-- A main rail leaves its range while PWROK is high. -/
def execMainRailFault (s : State) : Res := .next (s.resetHubMain 1)

/-! ## The hub always-on domain (R498, R547) -/

/-- The hub always-on supply becomes valid: everything but the Cloche, the boot flash and the fuses starts from reset, and a new
EPOCH is drawn. -/
def execHubAoPowerValid (s : State) : Res :=
  let old := s.rg Rg.cloche_EPOCH
  let e := s.free % 2 ^ 32
  let s := s.drawn
  let t : State := { pending := s.pending, freeCtr := s.freeCtr, out := s.out, mem := s.mem, cloche := s.cloche }
  let t := (t.resetCores 0 272).loseRange 0 (kFlash 0)
  let t := t.loseRange (kFlash (2 ^ 26)) (2 ^ 46)
  .next (t.setRg Rg.cloche_EPOCH 0 (if e = old then e + 1 else e))

end Sys2Proof.Machine
end

