-- ==== Sys2Proof/Machine/Power.lean ====
section
/-!
DEFINITION. The flow interlock, the step controller, power commands and the boundary-scan chain (R568-R577, R582, R584, R585).
-/
namespace Sys2Proof.Machine

/-! ## Steps (R569, R570) -/

/-- Power is changed. -/
def State.setPower (s : State) (p : Power) : State := { s with power := p }

/-- The thermal design power of the ordering code (R12). -/
def State.tdp (s : State) : Nat := if s.rg Rg.identity_ORDER_CODE = 2 then 1000 else 1200

/-- PLIMIT in force. -/
def State.plimit (s : State) : Nat := s.power.plimit.getD s.tdp

/-- The step controller of a half. -/
def Power.half (p : Power) (h : Nat) : HalfPower := if h = 0 then p.west else p.east

/-- The step controller of a half is replaced. -/
def Power.setHalf (p : Power) (h : Nat) (x : HalfPower) : Power := if h = 0 then { p with west := x } else { p with east := x }

/-- The step that a half's limits require. -/
def HalfPower.want (x : HalfPower) : Nat := max x.stepMax (max x.power x.thermal)

/-- A half's step changes, with its event. -/
def State.stepTo (s : State) (h new why : Nat) (beat : Nat) : State :=
  let x := s.power.half h
  if x.step = new then s
  else
    (s.setPower (s.power.setHalf h { x with step := new, upFrom := none })).event 0x0B02
      (h + x.step * 2 + new * 2 ^ 4 + why * 2 ^ 8 + b48 beat)

/-- What makes a half's step what it is: the thermal limit, the power limit, or the command. -/
def HalfPower.reason (x : HalfPower) : Nat :=
  if x.thermal = x.want ∧ 0 < x.thermal then 2 else if x.power = x.want ∧ 0 < x.power then 1 else x.why

/-- The controller notes the moment of a decision to step up, from which the core voltage rises (R569). -/
def HalfPower.decide (x : HalfPower) (now : Nat) (held : Bool) : HalfPower :=
  { x with upFrom := if !held && x.want < x.step then some (x.upFrom.getD now) else none }

/-- The controller decides for both halves. -/
def State.decideSteps (s : State) : State :=
  let p := s.power
  let now := s.rg Rg.system_MTIME
  s.setPower { p with west := p.west.decide now p.held, east := p.east.decide now p.held }

/-- A half moves one step towards what its limits require, upward no earlier than 5 µs after the decision; the interlock's step comes
at once (R569, R576). -/
def State.stepHalf (s : State) (beat h : Nat) : State :=
  let x := s.power.half h
  if s.power.held then s.stepTo h 6 3 beat
  else if x.step < x.want then s.stepTo h (x.step + 1) x.reason beat
  else if x.want < x.step ∧ x.upFrom.any (fun d => decide (d + 5000 ≤ s.rg Rg.system_MTIME)) = true then
    s.stepTo h (x.step - 1) x.why beat
  else s

/-- FLOW_FAULT's measures begin: every link is held DOWN and both halves go to step 6 (R576). -/
def State.flowMeasures (s : State) : State :=
  if s.power.faultPend then
    let s := s.setPower { s.power with faultPend := false, held := true }
    (List.range 24).foldl (fun s d => if s.rg Rg.dvport_STATE d = 0 ∨ s.rg Rg.dvport_STATE d = 6 then s else s.linkLeave d 0 0) s
  else s

/-- A tick, or an idle boundary that stands in for one: a waiting POWER_SET and FLOW_FAULT's measures take effect, and each half
changes its step by one at most (R569, R576, R584). -/
def State.powerTick (s : State) (beat : Nat) : State :=
  let p := s.power
  let p := match p.set with
    | none => p
    | some (lim, w, e, tj) =>
      { p with
        set := none, plimit := some lim, tj := tj, west := { p.west with stepMax := w, why := 0 },
        east := { p.east with stepMax := e, why := 0 } }
  let s := (s.setPower p).flowMeasures.decideSteps
  ((s.stepHalf beat 0).stepHalf beat 1).decideSteps

/-- A 1 ms window of module input power ends: above PLIMIT both halves are to step down, and after ten at or below 0.95 PLIMIT
up. -/
def execPowerWindow (watts : Nat) (s : State) : Res :=
  let p := { s.power with window := watts }
  let both (f : HalfPower → HalfPower) (p : Power) : Power := { p with west := f p.west, east := f p.east }
  if s.plimit < watts then
    .next (s.setPower (both (fun x => { x with power := min 6 (x.want + 1), why := 1 }) { p with calm := 0 })).decideSteps
  else if 100 * watts ≤ 95 * s.plimit then
    if p.calm + 1 < 10 then .next (s.setPower { p with calm := p.calm + 1 })
    else .next (s.setPower (both (fun x => { x with power := x.power - 1, why := 1 }) { p with calm := 0 })).decideSteps
  else .next (s.setPower { p with calm := 0 })

/-- A half's thermal limit after a millisecond at a temperature in 0.1 °C. -/
def HalfPower.heat (x : HalfPower) (tj t : Nat) : HalfPower :=
  if 10 * tj ≤ t then { x with thermal := min 6 (x.want + 1), cool := 0, why := 2 }
  else if t + 50 ≤ 10 * tj then
    if x.cool + 1 < 10 then { x with cool := x.cool + 1 } else { x with thermal := x.thermal - 1, cool := 0, why := 2 }
  else { x with cool := 0 }

/-- A millisecond's temperatures in 0.1 °C: the hottest point of each half, and the six stacks, which are paced from 95 °C down
to 90 °C. -/
def execThermalSample (west east : Nat) (hbm : List Nat) (s : State) : Res :=
  let p := s.power
  let hot := (List.range 6).filter (fun i =>
    let t := hbm.getD i 0
    decide (950 ≤ t) || (p.hbmHot.contains i && decide (900 < t)))
  .next (s.setPower { p with west := p.west.heat p.tj west, east := p.east.heat p.tj east, hbmHot := hot }).decideSteps

/-! ## The interlock (R574-R577) -/

/-- The interlock's state changes, with its event. -/
def State.lockState (s : State) (st : Nat) : State :=
  let old := s.power.state
  if old = st then s
  else
    (s.setPower { s.power with state := st }).event 0x0B01 (old + st * 4 + (if st = 3 then s.power.cause * 2 ^ 4 else 0))

/-- SAFE is entered: the event, THERMTRIP#, and then both halves, HBM, hub PHY and hub main lose their power. -/
def State.enterSafe (s : State) (cause : Nat) : State :=
  let s := (s.setPower { s.power with cause := cause }).lockState 3
  let s := (s.setPower { s.power with thermtrip := true, boot := false, faultPend := false, held := false }).emit (.thermtrip true)
  s.resetHubMain (s.rg Rg.system_HUB_MAIN_CAUSE)

/-- NORMAL is entered: the measures of FLOW_FAULT and THERMTRIP# end. -/
def State.enterNormal (s : State) : State :=
  let s := s.lockState 0
  let trip := s.power.thermtrip
  let s := (s.setPower { s.power with faultPend := false, held := false, thermtrip := false }).decideSteps
  if trip then s.emit (.thermtrip false) else s

/-- SAFE is left: NORMAL is entered, and a start of the boot sequencer that waits is made (R565, R577). -/
def State.leaveSafe (s : State) : State :=
  let s := (s.setPower { s.power with boot := false }).enterNormal
  match s.fw.start with
  | some b => s.startBoot b
  | none => s

/-- FLOW_FAULT is entered: its measures wait for the next tick. -/
def State.enterFlowFault (s : State) : State :=
  let s := s.lockState 2
  s.setPower { s.power with faultPend := true, flowFaults := satAdd 32 s.power.flowFaults 1 }

/-- A disagreement that ended is logged. -/
def State.logDisagreement (s : State) : State :=
  let p := s.power
  (s.setPower { p with disagreements := satAdd 32 p.disagreements 1 }).event 0x0B00
    (p.bad % 2 ^ 16 + bits p.wasLow 0 1 * 2 ^ 16 + bits p.wasLow 1 1 * 2 ^ 17)

/-- Every 1 ms the interlock samples FLOWOK_A and FLOWOK_B. -/
def execFlowSample (a b : Bool) (s : State) : Res :=
  let p := s.power
  let low := ofBool (!a) + 2 * ofBool (!b)
  let low2 := if !a && !b then p.low2 + 1 else 0
  let p := { p with low2 := low2, inputs := ofBool a + 2 * ofBool b }
  if p.state ≠ 3 ∧ 3 ≤ low2 then .next ((s.setPower p).enterSafe 1)
  else if !a || !b then
    let p := { p with good := 0 }
    let fresh := p.state == 0
    let p := if fresh then { p with bad := 0, wasLow := 0 } else p
    let s := s.setPower p
    let s := if fresh then s.lockState 1 else s
    if s.power.state = 1 then
      let p := s.power
      let s := s.setPower { p with bad := p.bad + 1, wasLow := p.wasLow ||| low }
      if p.d ≤ p.bad + 1 then .next s.enterFlowFault else .next s
    else .next s
  else
    let p := { p with good := p.good + 1 }
    let s := s.setPower p
    if p.state = 1 then .next (s.logDisagreement.lockState 0)
    else if p.state = 2 ∧ p.d ≤ p.good then .next s.enterNormal
    else if p.state = 3 ∧ p.boot = true ∧ 50 ≤ p.good ∧ p.mrst = false then .next s.leaveSafe
    else .next s

/-- P has passed since FLOW_FAULT was entered and no tick has come: its measures begin. -/
def execFlowFaultDeadline (s : State) : Res :=
  if s.power.faultPend then
    let s := s.flowMeasures
    let beat := s.rg Rg.beat_BEATNO
    .next ((s.stepHalf beat 0).stepHalf beat 1)
  else .next s

/-- A die or a stack reaches its trip temperature: cause 2 compute die, 3 hub die, 4 HBM. -/
def execThermalTrip (cause : Nat) (s : State) : Res :=
  if s.power.state = 3 ∨ cause < 2 ∨ 4 < cause then .next s else .next (s.enterSafe cause)

/-! ## Commands (R584) -/

/-- POWER_SET. D takes effect at the next sample, the rest at the next tick. -/
def execPowerSet (s : State) : Res :=
  .next (s.manage 0x60 [(8, 2), (10, 1), (11, 1), (12, 2), (14, 1)] (fun s q =>
    let lim := fieldAt q 8 2
    let w := fieldAt q 10 1
    let e := fieldAt q 11 1
    let d := fieldAt q 12 2
    let tj := fieldAt q 14 1
    if lim < 300 ∨ s.tdp < lim ∨ 6 < w ∨ 6 < e ∨ d < 10 ∨ 500 < d ∨ tj < 85 ∨ 105 < tj then s.refuse 2
    else (s.setPower { s.power with d := d, set := some (lim, w, e, tj) }).done))

/-- POWER_GET. -/
def execPowerGet (s : State) : Res :=
  .next (s.manage 0x61 [] (fun s _ =>
    let p := s.power
    (0, s, leBytes 2 s.plimit ++ leBytes 1 p.west.step ++ leBytes 1 p.east.step ++ leBytes 2 p.d ++ leBytes 1 p.tj
      ++ leBytes 1 p.state ++ leBytes 4 p.disagreements ++ leBytes 4 p.flowFaults ++ leBytes 2 p.window ++ leBytes 1 p.inputs
      ++ leBytes 1 p.cause)))

/-! ## Boundary scan (R582) -/

/-- States of the TAP controller: 0 Test-Logic-Reset, 1 Run-Test/Idle, 2 Select-DR, 3 Capture-DR, 4 Shift-DR, 5 Exit1-DR,
6 Pause-DR, 7 Exit2-DR, 8 Update-DR, 9 Select-IR, 10 Capture-IR, 11 Shift-IR, 12 Exit1-IR, 13 Pause-IR, 14 Exit2-IR,
15 Update-IR. The state that follows for TMS 0 and for TMS 1. -/
def tapNext (st : Nat) (tms : Bool) : Nat :=
  let x := [(1, 0), (1, 2), (3, 9), (4, 5), (4, 5), (6, 8), (6, 7), (4, 8), (1, 2), (10, 0), (11, 12), (11, 12), (13, 15), (13, 14),
    (11, 15), (1, 2)].getD st (0, 0)
  if tms then x.2 else x.1

/-- The low `n` bits of a number, least significant first. -/
def bitList (n v : Nat) : List Bool := (List.range n).map (fun i => bitN v i)

/-- The number that bits spell, least significant first. -/
def bitVal (l : List Bool) : Nat := l.foldr (fun b a => ofBool b + 2 * a) 0

/-- IDCODE of each die of the chain. -/
def idcode : Nat := 0x152907BF

/-- What the data registers of the three dies capture, nearest to TDO first, by their operations (none named: IDCODE): the identification code, the boundary cells, or
the bypass bit. `pins` are the pin levels of the boundary register. -/
def tapCapture (ir : List Nat) (pins : List Bool) : List Bool :=
  [2, 1, 0].flatMap (fun d =>
    match ir.getD d 1 with
    | 1 => bitList 32 idcode
    | 2 => (List.range (Config.bsrLen d)).map (fun i => pins.getD i false)
    | 3 => (List.range (Config.bsrLen d)).map (fun i => pins.getD i false)
    | _ => [false])

/-- The boundary cells among the bits shifted in. -/
def tapCells (ir : List Nat) (shift : List Bool) : List Bool :=
  ([2, 1, 0].foldl (fun (a : List Bool × List Bool) d =>
    match ir.getD d 1 with
    | 1 => (a.1, a.2.drop 32)
    | 2 => (a.1 ++ a.2.take (Config.bsrLen d), a.2.drop (Config.bsrLen d))
    | 3 => (a.1 ++ a.2.take (Config.bsrLen d), a.2.drop (Config.bsrLen d))
    | _ => (a.1, a.2.drop 1)) ([], shift)).1

/-- The operations of the instruction codes that bits spell: the die nearest to TDO first in the chain. -/
def tapIr (shift : List Bool) : List Nat :=
  let n := Config.irLen
  [shift.drop (2 * n), shift.drop n, shift].map (fun l => Config.tapCode (bitVal (l.take n)))

/-- The TAP held in reset: Test-Logic-Reset, where the instruction is IDCODE and TDO is high impedance. -/
def tapReset : Tap := { state := 0, shift := [], ir := [], cells := [], tdo := none }

/-- A rising edge of TCK, with the falling edge behind it: the TAP acts only while TEST_EN is high and MRST# is low. -/
def execTapClock (testEn tms tdi : Bool) (pins : List Bool) (s : State) : Res :=
  let t := s.power.tap
  if !testEn || !s.power.mrst then .next (s.setPower { s.power with tap := tapReset })
  else
    let t := match t.state with
      | 0 => { t with ir := [] }
      | 3 => { t with shift := tapCapture t.ir pins }
      | 10 => { t with shift := (List.range 3).flatMap (fun _ => bitList Config.irLen 1) }
      | 4 => { t with shift := t.shift.drop 1 ++ [tdi] }
      | 11 => { t with shift := t.shift.drop 1 ++ [tdi] }
      | _ => t
    let n := tapNext t.state tms
    let t := { t with state := n, tdo := if n == 4 || n == 11 then t.shift.head? else none }
    let t := match n with
      | 0 => { t with ir := [], cells := [] }
      | 8 => { t with cells := tapCells t.ir t.shift }
      | 15 => { t with ir := tapIr t.shift }
      | _ => t
    .next (s.setPower { s.power with tap := t })

end Sys2Proof.Machine
end

