-- ==== Sys2Proof/Machine/Tick.lean ====
section
/-!
DEFINITION. The START, COMMIT, ABORT and RESTART ticks, the idle period that stands in for a beat, and the loss of a member
(R40, R45, R54, R55, R60, R68, R69, R80-R86, R111, R186, R216, R292, R459, R460).
-/
namespace Sys2Proof.Machine

/-! ## What every tick does here -/

/-- The tiles that take part. -/
def State.upTiles (s : State) : List Nat := (List.range 256).filter s.tileUp

/-- The tick that waits, where it is of a kind and this module is a member: its BEATNO and its application time. -/
def State.dueTick (s : State) (kind : Nat) : Option (Nat × Nat) :=
  match s.dom.pend with
  | some (k, n, a) => if k = kind ∧ s.dom.member = true then some (n, a) else none
  | none => none

/-- The tick of a kind is applied: DTIME has reached its time. -/
def State.applied (s : State) (kind a : Nat) : State :=
  ({ s with dom := { s.dom with pend := none, doneFrom := [], doneSent := false, beatStart := a, lastA := a } }.setRg
    Rg.beat_DTIME 0 (max a (s.rg Rg.beat_DTIME))).setRg Rg.beat_LAST_KIND 0 kind

/-- The core of a tile takes the beat interrupt, or BEAT_LOST where it is still pending (R186). -/
def State.beatPend (s : State) (t : Nat) : State :=
  let k := s.core (.tile t)
  s.setCore (.tile t) { k with beatPend := true, beatLost := k.beatLost || k.beatPend }

/-- Retirements, the service level, the HBM map, the route bank, the caches and the steps change at a tick (R40, R203, R211,
R272, R450, R451, R569). -/
def State.unitsTick (s : State) (n : Nat) (abort : Bool) : State :=
  let s := s.retireTiles.levelTick.remapTick.routeTick
  let s := s.upTiles.foldl (fun s t => s.cacheTick t abort) s
  (({ s with fm := { s.fm with spares := s.spareTiles } }.powerTick n).postHeld true).serveLoads false

/-- Every Furrow stream of a tile at a tick that starts beat n. -/
def State.furrowTicks (s : State) (n : Nat) (closed : Option Nat) : State :=
  s.upTiles.foldl (fun s t => (List.range 16).foldl (fun s k => s.furrowTick n closed t k) s) s

/-- A tile at the tick that starts beat n. With `take`, or where it holds its beat open or no tick has yet taken a table, the armed
table takes over, and without one the beat stays open (R60, R68); else the table in the running bank runs again (R81, R82). -/
def State.startTile (s : State) (n : Nat) (take : Bool) (t : Nat) : State :=
  let k := s.tile t
  if take || k.openBeat || !k.loaded then
    if k.arm ≠ 0 then s.swapIn t n
    else s.setTile t { k with openBeat := true, running := false, stopped := false, track := [], waitRow := none }
  else
    let s := s.startTable t k.bank
    (s.setTile t { s.tile t with arm := k.arm }).setRg Rg.tile_HALTED_FAULT t 0

/-- The beat starts on every tile of an active member. -/
def State.startTiles (s : State) (n : Nat) (take : Nat → Bool) : State :=
  if s.active then s.upTiles.foldl (fun s t => s.startTile n (take t) t) s else s

/-- Arrival counters, provenance bits, the log and the marks of the beat go (R60, R80, R450). -/
def State.clearBeat (s : State) (t : Nat) : State :=
  s.setTile t { s.tile t with arrival := [], prov := [], own := [], sent := [], log := [], plain := [], notes := [], skip := [] }

/-- The loads of cores and the connections that wait for the tick go on (R65, R201). -/
def State.waitersTick (s : State) : State := (s.serveLoads true).advanceWaiting.eadvanceWaiting

/-! ## START (R60) -/

/-- The base of the schedule: beat `n` starts at `a` (R84). -/
def State.rebase (s : State) (n a : Nat) : State :=
  (({ s with dom := { s.dom with baseB := a, baseN := n, overrun := false } }.setRg Rg.beat_DEBT 0 0).setRg Rg.beat_OVR_RUN 0 0)

/-- The START tick. -/
def execStartTick (s : State) : Res :=
  match s.dueTick 0 with
  | none => .next s
  | some (n, a) =>
    let s := ((s.applied 0 a).rebase n a)
    let s := { s with dom := { s.dom with ticking := true, started := true, aborted := false } }
    let s := s.upTiles.foldl (fun s t => s.clearBeat t) (s.unitsTick n false)
    let s := (s.mirrorTick false).startTiles n (fun _ => true)
    .next (s.furrowTicks n none).joinTick

/-! ## COMMIT (R58-R60, R80, R84-R86) -/

/-- The debt after the tick that closes beat n at `a`, OVR_RUN, and a persistent overrun (R84, R85). Which member closed the beat the
tick brings; where it is this one, the tile is the one that finished last here (log entry 80). -/
def State.debtTick (s : State) (n a critMid critTile : Nat) : State :=
  let mid := if s.rg Rg.beat_MEMBERS = 1 then s.rg Rg.beat_MID else critMid
  let tile := if mid = s.rg Rg.beat_MID then s.dom.lastTile else critTile
  let d := a - (s.dom.baseB + (n + 1 - s.dom.baseN) * s.dom.period)
  let s := ((s.setRg Rg.beat_DEBT 0 (min d (2 ^ 32 - 1))).setRg Rg.beat_CRIT_MID 0 mid).setRg Rg.beat_CRIT_TILE 0 tile
  if d = 0 then { s with dom := { s.dom with overrun := false } }.setRg Rg.beat_OVR_RUN 0 0
  else
    let r := min 127 (s.rg Rg.beat_OVR_RUN + 1)
    let s := s.setRg Rg.beat_OVR_RUN 0 r
    if 65 ≤ r ∧ s.dom.overrun = false then
      ({ s with dom := { s.dom with overrun := true } }.incRg Rg.beat_OVR_EPISODES 0 1).event 0x0106
        (mid + tile * 2 ^ 8 + min d (2 ^ 32 - 1) * 2 ^ 32 + b48 n)
    else s

/-- The NOTE values of a committed beat replace those of a tile's note registers (R80, R89). -/
def State.noteTick (s : State) (t : Nat) : State :=
  let l := (s.tile t).notes
  if l.isEmpty then s
  else
    let s := if s.flag Rg.seq_NOTE_NEW t then s.setRg Rg.seq_NOTE_LOST t 1 else s
    let s := (l.mapIdx (fun i v => (i, v))).foldl (fun s (x : Nat × Nat) => s.setRg Rg.seq_NOTE (64 * t + x.1) x.2) s
    (s.setRg Rg.seq_NOTE_COUNT t l.length).sqRaise Rg.seq_NOTE_NEW Rg.seq_NOTE_SEQ t 1

/-- The beat of a tile has committed: no table of it runs (R80). -/
def State.closeTile (s : State) (t : Nat) : State :=
  let s := ((s.noteTick t).loseScratch t).clearBeat t
  s.setTile t { s.tile t with running := false }

/-- The replays of the committed beat are done: their action records and events, with the debt in ns (R447, R472). -/
def State.replaysDone (s : State) (n : Nat) : State :=
  let rs := s.fm.replays
  let ns := min (s.rg Rg.beat_DEBT * 5 / 8) (2 ^ 32 - 1)
  let s := { s with fm := { s.fm with replays := [], count := 0, passed := [], seeded := [] } }
  rs.foldl (fun s p =>
    let q := p.spare.getD 0
    let s := p.reports.foldl (fun s r => s.logFault r p.kind 0 q ns) s
    if p.tile < 256 then s.event 0x0701 (p.tile + p.spare.getD p.tile * 2 ^ 8 + p.kind * 2 ^ 16 + ns * 2 ^ 32 + b48 n) else s) s

/-- Beds are pruned: their members become standby members, this one too, and their homes move (R466). -/
def State.pruneTick (s : State) (n : Nat) (others : List Place) (homes : List Nat) : State :=
  let l := s.fm.prune
  let s := { s with fm := { s.fm with prune := [], sweep := s.fm.sweep - 1 } }
  let s := l.foldl (fun s e =>
    let out := ((s.myPlace :: others).filter (fun p => p.bed == e.1)).map (fun p => p.mid)
    let s := s.setMembers s.members (s.midSet Rg.beat_STANDBY ++ out)
    let s := if s.rg Rg.place_BED_ID = e.1 then
        let s : State := s.gate.streams.foldl (fun (s : State) (x : Nat × StreamEnt) => s.setEnt x.1 { x.2 with home := false }) s
        if s.rg Rg.beat_ROLE = 1 then s.setRg Rg.beat_ROLE 0 2 else s
      else s
    if s.isMaster then s.event 0x0706 (s.repBeds.findIdx (fun b => b == e.1) + s.repBeds.findIdx (fun b => b == e.2) * 4 + b48 n)
    else s) s
  homes.foldl (fun s h => s.setEnt h { s.ent h with home := true }) s

/-- A period takes effect with the beat n that the tick at `a` starts (R86). -/
def State.periodTick (s : State) (us n a : Nat) : State :=
  let old := s.dom.period / 1600
  let s := { s with dom := { s.dom with period := us * 1600, baseB := a, baseN := n, nextSet := false } }
  ((s.setRg Rg.beat_PERIOD_US 0 us).showBudget (us * 1600)).event 0x0107 (old + us * 2 ^ 16 + b48 n)

/-- The period that the tick starting beat n brings in: at the master, NEXT_PERIOD from PERIOD_AT on with zero debt. -/
def State.newPeriod (s : State) (n : Nat) (told : Option Nat) : Option Nat :=
  if s.isMaster then
    if s.dom.nextSet && decide (s.rg Rg.beat_PERIOD_AT_LO + s.rg Rg.beat_PERIOD_AT_HI * 2 ^ 32 ≤ n) && s.rg Rg.beat_DEBT == 0 then
      some (s.rg Rg.beat_NEXT_PERIOD_US)
    else none
  else told

/-- Losses after the last DONE are handled in the beat that has begun (R460). -/
def State.lateLosses (s : State) : State :=
  if s.dom.lostAfter.isEmpty then s
  else
    let l := s.dom.lostAfter
    let s := { s with dom := { s.dom with lostAfter := [], subst := s.dom.subst ++ l } }
    if s.isMaster then s.abortBeat 0 (if l.all (fun e => e.2.isSome) then none else some 3) else s

/-- Beat n commits at `a` (R80). -/
def State.commit (s : State) (n a : Nat) (i : TickInfo) : State :=
  let s := (s.applied 1 a).debtTick n a i.critMid i.critTile
  let s := s.upTiles.foldl (fun s t => s.closeTile t) s
  let s := (s.mirrorTick true).gateCommit n
  let s := (s.placement i.places).mulchTick n
  let s := (s.replaysDone n).pruneTick n i.places i.homes
  let s := s.setRg Rg.beat_BEATNO 0 (n + 1)
  let s := s.unitsTick n false
  let s := match s.newPeriod (n + 1) i.period with
    | some us => s.periodTick us (n + 1) a
    | none => s
  s.setRg Rg.cipher_LCLK 0 ((s.rg Rg.cipher_LCLK + 1) % 2 ^ 32)

/-- After a commit: what waited for it goes on, the banks swap, and the next beat starts, or the domain stops with the tables of the
next beat in the running banks (R56, R60). -/
def State.begin (s : State) (n : Nat) (stop : Bool) : State :=
  let s := if stop then { s with dom := { s.dom with ticking := false, stopReq := false } } else s
  let s := s.waitersTick.startTiles (n + 1) (fun _ => true)
  let s := s.upTiles.foldl (fun s t => s.beatPend t) s
  (s.furrowTicks (n + 1) (some n)).quiesceTick.lateLosses.joinTick

/-! ## ABORT (R81, R82, R292, R459) -/

/-- A tile at an ABORT tick: logged lines are restored, PLAIN lines and scratch are undefined, the sequencer stops. -/
def State.abortTile (s : State) (t : Nat) : State :=
  let s := s.undoLog t
  let s := (s.tile t).plain.foldl (fun s e =>
    match s.locKey e.1 with
    | some k => s.loseRange k (k + 32)
    | none => s) s
  let s := (s.loseScratch t).clearBeat t
  let k := s.tile t
  s.setTile t { k with track := [], waitRow := none, stopped := k.stopped || k.running }

/-- The SPACE 2 requests in flight towards a lost member: tile, stream, batch, chunk (R292). -/
def State.lostReads (s : State) (mid : Nat) : List (Nat × Nat × Nat × Nat) :=
  s.streams.flatMap (fun (e : Nat × Stream) =>
    let d := s.descr (e.1 / 16) (e.1 % 16)
    if d.space = 2 ∧ d.peer = mid then e.2.flight.map (fun f => (e.1 / 16, e.1 % 16, f.1, f.2)) else [])

/-- A spare member takes the place of a lost one; at the spare: ALIAS, the mirrored placement and streams, the notice
(R292, R456, R459). -/
def State.substitute (s : State) (n lost sp : Nat) : State :=
  let s := s.setMembers s.members ((s.midSet Rg.beat_STANDBY).filter (fun m => m != sp))
  let s := if s.isMaster then
      { s with dom := { s.dom with waitSpare := true } }.event 0x0702 (lost + sp * 2 ^ 8 + b48 n)
    else s
  if s.rg Rg.beat_MID = sp then
    let s := if s.rg Rg.beat_ROLE = 2 then s.setRg Rg.beat_ROLE 0 1 else s
    let s := (s.setRg Rg.dvorar_ALIAS_MID 0 lost).setRg Rg.dvorar_ALIAS_EN 0 1
    let s := match s.fm.covered with
      | none => s
      | some (p, es) =>
        let s := ((s.setRg Rg.place_BED_ID 0 p.bed).setRg Rg.place_STRIPS 0 p.strips).setRg Rg.place_STRETCHES 0 p.stretches
        let s := ((s.setRg Rg.place_STRIP 0 p.strip).setRg Rg.place_STRETCH 0 p.stretch).setRg Rg.place_STRETCH_LEN_LO 0
          (p.len % 2 ^ 32)
        let s := s.setRg Rg.place_STRETCH_LEN_HI 0 (p.len / 2 ^ 32)
        es.foldl (fun (s : State) (e : Nat × Nat × List Nat) =>
          s.setEnt e.1 { entOf e.2.1 (bits e.2.1 192 64) with held := e.2.2 }) s
    s.noticeAll 3 n
  else s

/-- The ABORT tick of beat n at `a`; `halt` is the halt that follows. -/
def State.abort (s : State) (n a cause : Nat) (halt : Option Nat) : State :=
  let s := s.applied 2 a
  let s := { s with dom := { s.dom with aborted := true, attempt := (s.dom.attempt + 1) % 16, haltWith := none } }
  let lost := s.dom.subst.flatMap (fun e => s.lostReads e.1)
  let s := { s with dv := { s.dv with lost := lost } }
  let s := s.upTiles.foldl (fun s t => s.abortTile t) s
  let s := (s.gateAbort.mirrorTick false).beatConnsReset
  let s := s.upTiles.foldl (fun s t => (List.range 16).foldl (fun s k => s.furrowAbort n t k) s) s
  let s := (s.unitsTick n true).sqRaise Rg.beat_ABORTED Rg.beat_ABORT_SEQ 0 1
  let s := (s.event 0x0103 (cause + b48 n)).serveLoads false
  let s := s.upTiles.foldl (fun s t => s.beatPend t) s
  let s := s.dom.subst.foldl (fun s e => match e.2 with
    | some sp => s.substitute n e.1 sp
    | none => s) s
  let s := s.joinTick
  match halt with
  | some h => s.haltNow h
  | none => s.tryRestart

/-- The ABORT tick. At the master its cause and the halt that follows are its own, at another member as told. -/
def execAbortTick (cause : Nat) (halt : Option Nat) (s : State) : Res :=
  match s.dueTick 2 with
  | none => .next s
  | some (n, a) =>
    if s.isMaster then .next (s.abort n a s.dom.abortCause s.dom.haltWith) else .next (s.abort n a cause halt)

/-- The COMMIT tick; where the service level falls below 2 at it, it is an ABORT tick (R40). -/
def execCommitTick (i : TickInfo) (s : State) : Res :=
  match s.dueTick 1 with
  | none => .next s
  | some (n, a) =>
    if s.active && s.levelDrops then .next (s.abort n a 0 (if s.isMaster && !s.hasSpare then some 3 else none))
    else .next ((s.commit n a i).begin n (if s.isMaster then s.dom.stopReq else i.stop))

/-! ## RESTART (R82, R84, R292, R455) -/

/-- The routing entries of lost members take the value of their spares' (R292). -/
def State.aliasRoutes (s : State) : State :=
  s.dom.subst.foldl (fun s e => match e.2 with
    | some sp =>
      (s.setRg Rg.dvorar_ROUTE_A e.1 (s.rg Rg.dvorar_ROUTE_A sp)).setRg Rg.dvorar_ROUTE_B e.1 (s.rg Rg.dvorar_ROUTE_B sp)
    | none => s) s

/-- Held SPACE 2 requests go to the spare, or their streams take error 6 (R292). -/
def State.resendReads (s : State) (subst : List (Nat × Option Nat)) : State :=
  let l := s.dv.lost
  l.foldl (fun s x =>
    let (t, k, b, c) := x
    if s.streamState t k ≠ 2 then s
    else if subst.any (fun e => e.1 == (s.descr t k).peer && e.2.isSome) then
      let y := s.stream t k
      if y.flight.contains (b, c) then s
      else (s.setStream t k { y with flight := y.flight ++ [(b, c)] }).peerRead t k b c
    else (s.streamErr t k 6).detect (.streamError t k 6)) { s with dv := { s.dv with lost := [] } }

/-- While the domain is halted a tile's next bank has been armed for the halted beat n (R82). -/
def State.armedFor (s : State) (n t : Nat) : Bool :=
  let k := s.tile t
  s.flag Rg.beat_HALTED && k.arm == 1 && s.forBeat t (1 - k.bank) == n

/-- The RESTART tick runs the table in every running bank; where the domain was halted, tables armed for its beat take over (R56, R60,
R82). -/
def execRestartTick (s : State) : Res :=
  match s.dueTick 3 with
  | none => .next s
  | some (n, a) =>
    let arms := (List.range 256).map (fun t => s.armedFor n t)
    let s := ((s.applied 3 a).rebase n a).setRg Rg.beat_HALTED 0 0
    let s := s.aliasRoutes
    let subst := s.dom.subst
    let s := { s with
      dom := { s.dom with ticking := true, started := true, aborted := false, subst := [] },
      fm := { s.fm with detour := s.fm.routers } }
    let s : State := s.upTiles.foldl (fun (s : State) t => s.clearBeat t) (s.unitsTick n false)
    let s := (s.mirrorTick false).startTiles n (fun t => arms.getD t false)
    let s := s.upTiles.foldl (fun s t => s.beatPend t) s
    .next ((s.furrowTicks n none).resendReads subst).joinTick

/-! ## While no domain runs (R40, R211, R216, R437, R569) -/

/-- A boundary of IDLE_PERIOD_US stands in for a tick. -/
def execIdlePeriodTick (s : State) : Res :=
  if s.dom.ticking then .next s
  else
    let s := { s with hbm := { s.hbm with idleBeat := s.hbm.idleBeat + 1 } }
    let s := s.setRg Rg.cipher_LCLK 0 ((s.rg Rg.cipher_LCLK + 1) % 2 ^ 32)
    let s := s.retireTiles.levelTick.remapTick
    let s := (s.powerTick (s.rg Rg.beat_BEATNO)).quiesceTick
    .next (if s.isMaster then s.durableNow.heldNow else s)

/-! ## Loss of a member (R54, R55, R458-R460) -/

/-- The report record of a lost member, at the master; its action record follows at the commit (R447). -/
def State.lossRecord (s : State) (mid : Nat) (sp : Option Nat) : State :=
  let r : FaultRec := { cls := 5, unit := 5, index := mid, check := 10, beat := s.rg Rg.beat_BEATNO }
  let s := (s.countReport r).logFault r (if sp.isSome then 5 else 6) 2 (sp.getD 0) 0
  { s with fm := { s.fm with replays := s.fm.replays ++
    [({ tile := 256 + mid, kind := if sp.isSome then 5 else 6, phase := 2, reports := [r] } : Replay)] } }

/-- The master after a loss: the one that was, where it survives, else the surviving active member with the lowest MID (R55); where no
active member survives, none takes its place and no tick follows (DESIGN CHOICE, log entry 118). -/
def State.masterAfter (s : State) (left : List Nat) : Nat :=
  if left.contains s.dom.master then s.dom.master
  else
    let sb := s.midSet Rg.beat_STANDBY
    (left.find? (fun m => !sb.contains m)).getD s.dom.master

/-- The tick tree is built anew: this member's place in it (R55). -/
def State.newTree (s : State) (master : Nat) (tree : Option DomInfo) : State :=
  let s := { s with dom := { s.dom with master := master } }
  let s := match tree with
    | none => if master = s.rg Rg.beat_MID then { s with dom := { s.dom with parent := none } } else s
    | some i =>
      let s := { s with dom := { s.dom with parent := i.parent, children := i.children, depth := i.depth } }
      (s.setTree i.delay i.treeDepth).showBudget s.dom.period
  if master = s.rg Rg.beat_MID then s.setRg Rg.beat_ROLE 0 3 else s

/-- The beat whose every DONE the master holds commits at the survivors: its tick goes down the tree, built anew or not (R54). -/
def State.commitAfterLoss (s : State) : State :=
  match s.dom.pend with
  | some (1, n, a) => s.toChildren 4 (tickWord n 1 a)
  | _ =>
    { s with dom := { s.dom with doneSent := true } }.schedule 1 (max s.earliest (s.rg Rg.beat_DTIME + s.rg Rg.beat_TICK_LEAD))

/-- A COMMIT tick waits here, or this is the master and it holds every DONE. -/
def State.holdsDones (s : State) : Bool :=
  (match s.dom.pend with
   | some (1, _, _) => true
   | _ => false) || (s.isMaster && s.doneReady && !(s.active && s.levelDrops))

/-- Members become unreachable, each given with its valid spare: at the master those that R280 shows to be so, at another member those
that it is told of; `tree` is this member's place in a tick tree that is built anew. A part without a majority halts; else the beat aborts, or commits where the master held every DONE. -/
def State.membersLost (s : State) (lost : List (Nat × Option Nat)) (tree : Option DomInfo) : State :=
  let ms := s.members
  let sb := s.midSet Rg.beat_STANDBY
  let gone := lost.filter (fun e => ms.contains e.1 && e.1 != s.rg Rg.beat_MID && (!s.isMaster || s.unreachable e.1))
  if !s.dom.member || gone.isEmpty then s
  else
    let left := ms.filter (fun m => !gone.any (fun e => e.1 == m))
    let master := s.masterAfter left
    let done := s.holdsDones && master == s.dom.master
    let s := gone.foldl (fun s e => (s.event 0x0102 (e.1 + master * 2 ^ 8 + s.nowB48)).connsLost e.1) s
    if 2 * left.length ≤ ms.length then s.haltNow 0
    else
      let s := (s.setMembers left (sb.filter (fun m => left.contains m))).newTree master tree
      let s := s.ckFail 2 ((gone.map (fun e => e.1)).headD 0)
      let busy := gone.filter (fun e => !sb.contains e.1)
      if !s.dom.ticking then s
      else if done then
        let s := { s with dom := { s.dom with lostAfter := s.dom.lostAfter ++ busy } }
        if s.isMaster then s.commitAfterLoss else s
      else
        let s := { s with dom := { s.dom with subst := s.dom.subst ++ gone } }
        if !s.isMaster then s
        else
          let s := busy.foldl (fun s e => s.lossRecord e.1 e.2) s
          s.abortBeat 0 (if busy.all (fun e => e.2.isSome) then none else some 3)

/-- Members become unreachable. -/
def execMemberLost (lost : List (Nat × Option Nat)) (tree : Option DomInfo) (s : State) : Res := .next (s.membersLost lost tree)

/-- The spare's tiles are armed, or SPARE_ARM_US has passed: the RESTART tick may go (R459). -/
def execSpareArmTimeout (s : State) : Res := .next ({ s with dom := { s.dom with waitSpare := false } }.tryRestart)

end Sys2Proof.Machine
end

