-- ==== Sys2Proof/Machine/RegAcc.lean ====
section
/-!
DEFINITION. Register accesses in general, and the blocks that lie beside a tile or a link port (R20, R22, R538-R542, R555-R558).
-/
namespace Sys2Proof.Machine

/-- The state that a command leaves, or the one before it where it stops. -/
def State.after (s : State) : Res → State
  | .next t => t
  | _ => s

/-! ## One access -/

/-- A write of one register: who, which register, the value, and the image it went to: 0 the register itself, 1 the set alias,
2 the clear alias, 3 the toggle alias (R538). -/
structure RegWr where
  req : Req
  blk : Blk
  unit : Nat
  off : Nat
  v : Nat
  image : Nat := 0

/-- How many like units a block has. -/
def blkUnits : Blk → Nat
  | .sched => 8
  | .firewall => 16
  | .plotStat => 128
  | .seq | .tile => 256
  | .dvport => 24
  | _ => 1

/-- The RW fields of a list. -/
def rwOf (fs : List Fld) : List Fld := fs.filter (fun f => f.acc == .rw)

/-- The word that a write carries for the RW fields: the value, or what an alias makes of the register's own word. -/
def State.carriedWord (s : State) (w : RegWr) : Nat :=
  let old := s.wordOf (rwOf (blkFlds w.blk)) w.unit w.off
  match w.image with
  | 0 => w.v
  | 1 => old ||| w.v
  | 2 => old &&& (w.v ^^^ (2 ^ 32 - 1))
  | _ => old ^^^ w.v

/-- Whether a write reaches a field, and with what: an alias acts on RW fields in which its value has a one, and a reserved
code leaves its field alone (R22, R538). DESIGN CHOICE: so does a value outside the range that the table states for the field,
where no rule says what it does (log entry 109). -/
def State.hit (s : State) (w : RegWr) (f : Fld) : Option (Nat × Nat) :=
  match f.at? w.unit w.off with
  | none => none
  | some (i, hi) =>
    let x := f.carried hi 0 (s.rg f i) (s.carriedWord w)
    if w.image ≠ 0 ∧ (f.acc ≠ .rw ∨ f.mask hi 0 &&& w.v = 0) then none
    else if f.takes x then some (i, x) else none

/-- The behaviour of a field that a write reaches. -/
def State.on (s : State) (w : RegWr) (f : Fld) (g : State → Nat → Nat → State) : State :=
  match s.hit w f with
  | some (i, v) => g s i v
  | none => s

/-- The behaviour of a WO bit that is written 1. -/
def State.onOne (s : State) (w : RegWr) (f : Fld) (g : State → Nat → State) : State :=
  s.on w f (fun s i v => if v = 0 then s else g s i)

/-- The RW fields without a behaviour of their own take the value; `own` names those with one. -/
def State.plainRw (s : State) (w : RegWr) (own : List Fld) : State :=
  s.writeRw (blkFlds w.blk) (own.map (fun f => f.id)) w.unit w.off (s.carriedWord w)

/-! ## SQ and TV fields (R539, R540) -/

/-- The sequence field of an SQ register. -/
def seqOf (fs : List Fld) (unit off : Nat) : Option (Fld × Nat) :=
  fs.findSome? (fun f =>
    if f.acc == .sq && f.lo == 16 && f.w == 16 then (f.at? unit off).map (fun x => (f, x.1)) else none)

/-- An SQ register is written: the status bits clear where the sequence field equals the current number. -/
def State.sqWrite (s : State) (fs : List Fld) (unit off v : Nat) : State :=
  match seqOf fs unit off with
  | none => s
  | some (sq, j) =>
    if v / 2 ^ 16 % 2 ^ 16 = s.rg sq j then
      fs.foldl (fun s f =>
        if f.acc == .sq && f.id != sq.id then
          (match f.at? unit off with
           | some (i, _) => s.setRg f i 0
           | none => s)
        else s) s
    else s

/-- TV fields are written, in all three copies; those that fuses fill ignore it. -/
def State.tvWrite (s : State) (fs : List Fld) (unit off v : Nat) : State :=
  fs.foldl (fun s f =>
    if f.acc == .tv && !f.fuse then
      (match f.at? unit off with
       | some (i, hi) => s.setRg f i (f.carried hi 0 (s.rg f i) v)
       | none => s)
    else s) s

/-- One TV field is voted: a copy in the minority is rewritten, and the disagreement is reported. -/
def State.scrubTv (s : State) (f : Fld) (i : Nat) : State :=
  let v := s.rg f i
  if f.acc = .tv ∧ (s.copyOf f i 0 ≠ v ∨ s.copyOf f i 1 ≠ v ∨ s.copyOf f i 2 ≠ v) then
    (s.setRg f i v).detect (.tvDisagree f.id i)
  else s

/-- The TV fields of a register are voted at a read. -/
def State.scrubReg (s : State) (fs : List Fld) (unit off : Nat) : State :=
  fs.foldl (fun s f =>
    match f.at? unit off with
    | some (i, _) => s.scrubTv f i
    | none => s) s

/-! ## Reads (R20, R542, R556) -/

/-- The latch of a requester in a block. -/
def State.latch? (s : State) (r : Req) (b : Blk) (unit : Nat) : Option (Nat × Nat) :=
  (s.latches.find? (fun l => decide (l.1 = r) && decide (l.2.1 = b) && l.2.2.1 == unit)).map (fun l => l.2.2.2)

/-- The latch of a requester in a block is emptied, or holds the upper part captured at a low offset. -/
def State.setLatch (s : State) (r : Req) (b : Blk) (unit : Nat) (x : Option (Nat × Nat)) : State :=
  let rest := s.latches.filter (fun l => !(decide (l.1 = r) && decide (l.2.1 = b) && l.2.2.1 == unit))
  { s with latches := match x with
      | some (off, up) => (r, b, unit, off, up) :: rest
      | none => rest }

/-- An offset is the lower register of a wide pair. -/
def isLow (fs : List Fld) (unit off : Nat) : Bool :=
  fs.any (fun f => f.pair && (match f.at? unit off with | some (_, hi) => !hi | none => false))

/-- A word as the register shows it: bits that no field names read undefined (R20), an offset that no register has reads zero
(R556). -/
def State.shown (s : State) (fs : List Fld) (unit off : Nat) : State × Nat :=
  if named fs unit off then
    (s.drawn, s.wordOf fs unit off ||| (s.free % 2 ^ 32 &&& (maskOf fs unit off ^^^ (2 ^ 32 - 1))))
  else (s, 0)

/-- WORKING and the attempt number of a tile's block are those of the identity block and of the domain (R36, R111, R119). -/
def State.tileShow (s : State) (t : Nat) : State :=
  ((s.setRg Rg.tile_WORKING t (ofBool (s.tileWorking t))).setRg Rg.tile_ATTEMPT t (s.dom.attempt % 8)).setRg Rg.tile_ATTEMPT_3 t
    (s.dom.attempt / 8)

/-- A register is read: TV fields are voted, the lower register of a pair captures the whole counter, and the upper one answers
from the latch where the requester's previous read in the block captured it (R540, R542). -/
def State.readReg (s : State) (r : Req) (b : Blk) (unit off : Nat) : State × Nat :=
  let fs := blkFlds b
  let s := (if b = .tile then s.tileShow unit else s).scrubReg fs unit off
  match s.latch? r b unit with
  | some (lo, up) =>
    if lo + 4 = off then (s.setLatch r b unit none, up)
    else if isLow fs unit off then (s.setLatch r b unit (some (off, s.wordOf fs unit (off + 4)))).shown fs unit off
    else (s.setLatch r b unit none).shown fs unit off
  | none =>
    if isLow fs unit off then (s.setLatch r b unit (some (off, s.wordOf fs unit (off + 4)))).shown fs unit off
    else s.shown fs unit off

/-! ## Blocks beside a tile or a link port (R558) -/

/-- The stream whose descriptor holds an offset of the tile block. -/
def streamAt (off : Nat) : Option Nat := if 0x800 ≤ off ∧ off < 0xC00 then some ((off - 0x800) / 0x40) else none

/-- A write to a tile's sequencer block: CMD is 1 ARM, 2 ARM_SAME, 3 DISARM (R66). -/
def State.seqWrite (s : State) (w : RegWr) : State :=
  (s.sqWrite Rg.seqFlds w.unit w.off w.v).on w Rg.seq_CMD (fun s t v =>
    match v with
    | 1 => s.after (execArm t s)
    | 2 => s.after (execArmSame t s)
    | 3 => s.after (execDisarm t false s)
    | _ => s)

/-- A write to a tile's block, its Furrow and its cache among it. A descriptor is locked while its stream is live or EN is 1
(R222). -/
def State.tileWrite (s : State) (w : RegWr) : State :=
  let t := w.unit
  let s := if w.image = 0 then s.sqWrite Rg.tileFlds t w.off w.v else s
  let s := s.onOne w Rg.tile_PERF_CLR (fun s t => s.after (execPerfClr t s))
  match streamAt w.off with
  | some k =>
    let s := if s.streamState t k = 2 ∨ s.flag Rg.tile_EN (16 * t + k) = true then s else s.plainRw w [Rg.tile_EN]
    let s := s.on w Rg.tile_EN (fun s i v => s.furrowEn t (i % 16) (v == 1))
    s.onOne w Rg.tile_STOP (fun s i => s.furrowStop t (i % 16))
  | none =>
    if 0xC00 ≤ w.off ∧ w.off < 0xC40 then (if named Rg.tileFlds t w.off then s.cacheWrite t w.off w.v else s)
    else s.plainRw w []

/-- A write to a Dvorar port block: EN 0 takes the link down, RETRAIN retrains it; a retired link stays retired (R275, R279). -/
def State.dvportWrite (s : State) (w : RegWr) : State :=
  let s := (s.sqWrite Rg.dvportFlds w.unit w.off w.v).plainRw w [Rg.dvport_EN]
  let s := s.on w Rg.dvport_EN (fun s d v =>
    let s := s.setRg Rg.dvport_EN d v
    if v = 0 ∧ s.rg Rg.dvport_STATE d ≠ 0 ∧ s.rg Rg.dvport_STATE d ≠ 6 then s.linkLeave d 0 0 else s)
  s.onOne w Rg.dvport_RETRAIN (fun s d => s.retrainNeg d 2)

/-- Where an offset of a tile's two register pages falls: block, offset of the register, image (R538, R558). -/
def tilePage (o : Nat) : Blk × Nat × Nat :=
  if o < 0x1000 then (.seq, o, 0)
  else
    let d := o - 0x1000
    if 0xD00 ≤ d ∧ d % 0x100 < 0x70 then (.tile, d % 0x100, d / 0x100 - 0xC)
    else (.tile, d, 0)

/-- A lane write at an offset of a tile's register pages. -/
def State.tilePageWrite (s : State) (r : Req) (t o v : Nat) : State :=
  let (b, off, im) := tilePage o
  let w : RegWr := { req := r, blk := b, unit := t, off := off, v := v, image := im }
  match b with
  | .seq => s.seqWrite w
  | _ => s.tileWrite w

/-- A lane read at an offset of a tile's register pages. -/
def State.tilePageRead (s : State) (r : Req) (t o : Nat) : State × Nat :=
  let (b, off, _) := tilePage o
  s.readReg r b t off

end Sys2Proof.Machine
end

