-- ==== Sys2Proof/Machine/Window.lean ====
section
/-!
DEFINITION. The indirect window block: its two windows onto tiles, private memories, link ports, hub SRAM, HBM and the boot
flash, and the holding of cores (R543-R546).
-/
namespace Sys2Proof.Machine

/-! ## Holding cores (R545) -/

/-- A core is held or released: held, its registers are at reset and its private memory is kept. -/
def State.holdCore (s : State) (c : CoreId) (was now : Bool) : State :=
  if now && !was then
    let k := s.core c
    s.setCore c { pm := k.pm, pmStamp := k.pmStamp, heldStores := k.heldStores }
  else s

/-- CORE_HOLD_k is written. -/
def State.holdTiles (s : State) (k v : Nat) : State :=
  let old := s.rg Rg.window_CORE_HOLD k
  (List.range 32).foldl (fun s n => s.holdCore (.tile (32 * k + n)) (bitN old n) (bitN v n)) (s.setRg Rg.window_CORE_HOLD k v)

/-- Hub core 0 in machine mode: the one requester that writes HUB_HOLD and the firewall (R529, R545). -/
def State.supervisor (s : State) (r : Req) : Bool := decide (r = .core (.hub 0)) && !(s.core (.hub 0)).compartment

/-- HUB_HOLD is written: bit c holds hub core c. -/
def State.holdHubs (s : State) (r : Req) (v : Nat) : State :=
  if s.supervisor r then
    let old := s.rg Rg.window_HUB_HOLD
    (List.range 15).foldl (fun s i => s.holdCore (.hub (i + 1)) (bitN old i) (bitN v i)) (s.setRg Rg.window_HUB_HOLD 0 v)
  else s

/-! ## Spaces (R543) -/

/-- The window that answers a requester: 0 PF0 through BAR0, 1 hub cores. -/
def windowOf : Req → Option Nat
  | .bar0 => some 0
  | .core (.hub _) => some 1
  | _ => none

/-- The address of a window. -/
def State.iwAddr (s : State) (w : Nat) : Nat := s.rg Rg.window_IW_ADDR_LO w + s.rg Rg.window_IW_ADDR_HI w * 2 ^ 32

/-- A 36-bit space. -/
def wideSpace (sp : Nat) : Bool := sp == 1 || sp == 2

/-- The error code of an access before it is made, 0 where it may be made: space, unit and address of the window (R543, R544). -/
def State.iwCheck (s : State) (r : Req) (w : Nat) (wr : Bool) : Nat :=
  let sp := s.rg Rg.window_IW_SPACE w
  let u := s.rg Rg.window_IW_UNIT w
  let a := s.iwAddr w
  match sp with
  | 0 =>
    if !s.tileUp u then 2
    else if wr && decide (a < 0x20000) && !(s.coreHeld (.tile u) && (s.tile u).arm == 0) then 3
    else if 0x22004 ≤ a ∨ a % 4 ≠ 0 then 4
    else 0
  | 1 => if !s.tileUp u then 2 else if !s.coreHeld (.tile u) then 3 else if 2 ^ 18 ≤ a then 4 else 0
  | 2 =>
    if 16 ≤ u then 1
    else if w = 0 then 3
    else if s.hubMainReset then 2
    else if !s.coreHeld (.hub u) then 3
    else if 2 ^ 18 ≤ a then 4
    else 0
  | 3 => if 24 ≤ u then 1 else if !s.halfUp (u / 12) then 2 else if 0x100 ≤ a ∨ a % 4 ≠ 0 then 4 else 0
  | 4 => if u ≠ 0 then 1 else if s.hubMainReset then 2 else if 96 * 2 ^ 20 < a + 4 ∨ a % 4 ≠ 0 then 4 else 0
  | 5 =>
    if u ≠ 0 then 1
    else if s.hubMainReset then 2
    else if s.hbmBytes < a + 4 ∨ a % 4 ≠ 0 then 4
    else if !s.halfUp ((hbmMap (s.rg Rg.hbm_MODE_CUR) s.pcs a).1 / 3) then 2
    else if (s.hbmKey a).isNone then 5
    else 0
  | 6 =>
    if u ≠ 0 then 1
    else if wr && ((w == 0 && s.rg Rg.system_STAGE != 4) || (w == 1 && r != .core (.hub 0))
        || (decide (0x10000 ≤ a) && decide (a < 0x20000))) then 3
    else if 2 ^ 26 < a + 4 ∨ a % 4 ≠ 0 then 4
    else 0
  | _ => 1

/-- A word of the boot flash: the reserved region reads as erased (R519). -/
def State.flashRead (s : State) (a : Nat) : Nat :=
  if 0x2000000 ≤ a ∧ a < 0x2400000 then 2 ^ 32 - 1 else s.readN (kFlash a) 4

/-- A word of the boot flash is written: the first write into a sector erases it. -/
def State.flashWrite (s : State) (a v : Nat) : State :=
  let n := a / 4096
  let s := if s.fw.erased.contains n then s else { s.eraseSectors a 4 with fw := { s.fw with erased := n :: s.fw.erased } }
  if 0x2000000 ≤ a ∧ a < 0x2400000 then s else s.writeN (kFlash a) 4 v

/-- A read at the window's address that may be made. -/
def State.iwGet (s : State) (w : Nat) : State × Nat :=
  let u := s.rg Rg.window_IW_UNIT w
  let a := s.iwAddr w
  match s.rg Rg.window_IW_SPACE w with
  | 0 =>
    if a < 0x20000 then (s, s.readN (kBank u (1 - (s.tile u).bank) a) 4)
    else if a < 0x22000 then s.tilePageRead (.iw w) u (a - 0x20000)
    else (s.drawn, s.free % 2 ^ 32)
  | 1 => (s, ((s.core (.tile u)).pmRead (.tile u) a).toNat)
  | 2 => (s, ((s.core (.hub u)).pmRead (.hub u) a).toNat)
  | 3 => s.readReg (.iw w) .dvport u a
  | 4 => (s, s.readN (kHub a) 4)
  | 5 => (s, leNat ((s.committedHbm a 4).getD []))
  | _ => (s, s.flashRead a)

/-- A write at the window's address that may be made; `none` where the target refuses it (R186). -/
def State.iwPut (s : State) (w v : Nat) : Option State :=
  let u := s.rg Rg.window_IW_UNIT w
  let a := s.iwAddr w
  let wide := BitVec.ofNat 36 (v + s.rg Rg.window_IW_DATA_HI w * 2 ^ 32)
  match s.rg Rg.window_IW_SPACE w with
  | 0 =>
    if a < 0x20000 then some (s.writeN (kBank u (1 - (s.tile u).bank) a) 4 v)
    else if a < 0x22000 then some (s.tilePageWrite (.iw w) u (a - 0x20000) v)
    else s.postMsg (.tile u) v
  | 1 => some (s.setCore (.tile u) ((s.core (.tile u)).pmWrite a wide))
  | 2 => some (s.setCore (.hub u) ((s.core (.hub u)).pmWrite a wide))
  | 3 => some (s.dvportWrite { req := .iw w, blk := .dvport, unit := u, off := a, v := v })
  | 4 => some (s.writeHub a (leBytes 4 v))
  | 5 => some (s.writeHbm a (leBytes 4 v))
  | _ => some (s.flashWrite a v)

/-! ## Accesses (R544) -/

/-- A failed access. -/
def State.iwFail (s : State) (w code : Nat) : State :=
  (s.setRg Rg.window_ERR_CODE w code).sqRaise Rg.window_IW_ERR Rg.window_ERR_SEQ w 1

/-- With INC 1 the address advances after an access, with carry. -/
def State.iwStep (s : State) (w : Nat) : State :=
  if s.flag Rg.window_INC w then
    let a := s.iwAddr w + (if wideSpace (s.rg Rg.window_IW_SPACE w) then 1 else 4)
    (s.setRg Rg.window_IW_ADDR_LO w a).setRg Rg.window_IW_ADDR_HI w (a / 2 ^ 32)
  else s

/-- What the target meets during an access: 1 a parity or uncorrectable error, 2 a reset or a loss of power. -/
def metCode (met : Nat) : Nat := match met with
  | 0 => 0
  | 1 => 5
  | _ => 6

/-- A read of IW_DATA. -/
def State.iwRead (s : State) (r : Req) (w met : Nat) : State × Nat :=
  let c := s.iwCheck r w false
  let c := if c = 0 then metCode met else c
  if c ≠ 0 then (((s.iwFail w c).setRg Rg.window_IW_DATA_HI w 0xF).iwStep w, 2 ^ 32 - 1)
  else
    let x := s.iwGet w
    let s := if wideSpace (x.1.rg Rg.window_IW_SPACE w) then x.1.setRg Rg.window_IW_DATA_HI w (x.2 / 2 ^ 32) else x.1
    (s.iwStep w, x.2 % 2 ^ 32)

/-- A write of HBM that a checkpoint holds back waits until the cutting has been copied (R485). -/
def State.iwHeld (s : State) (r : Req) (w : Nat) : Bool :=
  s.rg Rg.window_IW_SPACE w == 5 && s.iwCheck r w true == 0 && s.cowHeld (s.iwAddr w) 4

/-- A write of IW_DATA. One that fails is not performed. -/
def State.iwWrite (s : State) (r : Req) (w v met : Nat) : State :=
  let c := s.iwCheck r w true
  let c := if c = 0 then metCode met else c
  if c ≠ 0 then (s.iwFail w c).iwStep w
  else if s.iwHeld r w then s
  else match s.iwPut w v with
  | some s => s.iwStep w
  | none => (s.iwFail w 3).iwStep w

/-- A write to the window block: each window answers one kind of requester. -/
def State.windowWrite1 (s : State) (x : RegWr) : State :=
  if x.off < 0x200 then
    let w := x.off / 0x100
    if windowOf x.req = some w then
      let s := (s.sqWrite Rg.windowFlds 0 x.off x.v).plainRw x [Rg.window_IW_DATA]
      s.on x Rg.window_IW_DATA (fun s w v => s.iwWrite x.req w v 0)
    else s
  else
    let s := s.on x Rg.window_CORE_HOLD (fun s k v => s.holdTiles k v)
    s.on x Rg.window_HUB_HOLD (fun s _ v => s.holdHubs x.req v)

/-- A read of the window block. -/
def State.windowRead (s : State) (r : Req) (off : Nat) : State × Nat :=
  if off < 0x200 then
    let w := off / 0x100
    if windowOf r ≠ some w then (s, 0)
    else if off % 0x100 = 8 then s.iwRead r w 0
    else s.readReg r .window 0 off
  else s.readReg r .window 0 off

end Sys2Proof.Machine
end

