-- ==== Sys2Proof/Machine/RegHub.lean ====
section
/-!
DEFINITION. The register blocks of the hub register space: which requester reaches which block, the behaviour of the fields that
have one, and APPLY of the HBM control block (R20-R22, R210, R527, R529, R538-R542, R555-R557).
-/
namespace Sys2Proof.Machine

/-! ## The register space (R538, R555) -/

/-- Number, block, base, span, and whether it has aliases; of like units, the span of one. -/
def hubBlocks : List (Nat × Blk × Nat × Nat × Bool) :=
  [(0, .system, 0x000000, 0x40000, false), (1, .identity, 0x040000, 0x40000, false), (2, .window, 0x080000, 0x40000, false),
   (3, .fault, 0x0C0000, 0x40000, true), (4, .beat, 0x100000, 0x40000, true), (5, .place, 0x140000, 0x40000, true),
   (6, .hbm, 0x180000, 0x40000, true), (7, .dvorar, 0x1C0000, 0x40000, true), (8, .eth, 0x200000, 0x40000, true),
   (9, .sched, 0x240000, 0x10000, false), (10, .stash, 0x280000, 0x40000, true), (11, .cipher, 0x2C0000, 0x40000, false),
   (12, .mulch, 0x300000, 0x40000, true), (13, .cloche, 0x340000, 0x40000, true), (14, .firewall, 0x380000, 0x1000, false),
   (15, .sieve, 0x400000, 0x200000, false), (16, .host, 0x600000, 0x200000, false)]

/-- Where an offset of the register space falls: block number, block, unit, offset and image. -/
def hubAt (o : Nat) : Option (Nat × Blk × Nat × Nat × Nat) :=
  (hubBlocks.find? (fun b => decide (b.2.2.1 ≤ o) && decide (o < b.2.2.1 + b.2.2.2.1))).map (fun b =>
    let (n, blk, base, _, ali) := b
    let d := o - base
    if ali then (n, blk, 0, d % 0x10000, d / 0x10000)
    else match blk with
    | .sched => (n, blk, d / 0x2000, d % 0x2000, 0)
    | .firewall => (n, blk, d / 0x100, d % 0x100, 0)
    | .sieve => if 0x10000 ≤ d ∧ d < 0x40000 ∧ d % 0x10000 < 0x1000 then (n, blk, 0, d % 0x10000, d / 0x10000) else (n, blk, 0, d, 0)
    | .host => if 0x101000 ≤ d ∧ d < 0x180000 then (n, .plotStat, (d - 0x100000) / 0x1000, d % 0x1000, 0) else (n, blk, 0, d, 0)
    | _ => (n, blk, 0, d, 0))

/-- The number of a block; the plots' status pages lie in block 16. -/
def blkNumber : Blk → Nat
  | .plotStat => 16
  | b => ((hubBlocks.find? (fun x => decide (x.2.1 = b))).map (fun x => x.1)).getD 64

/-- Whether a block has the images of R538 at an offset. -/
def blkAliased (b : Blk) (off : Nat) : Bool :=
  match b with
  | .tile => decide (off < 0x70)
  | .sieve => decide (off < 0x1000)
  | b => hubBlocks.any (fun x => decide (x.2.1 = b) && x.2.2.2.2) && decide (off < 0x10000)

/-! ## Who reaches a block (R527, R529, R555-R558) -/

/-- The domain of a register is up. Of the record port, TOTAL_p and EPOCH are always-on. -/
def State.blkUp (s : State) (b : Blk) (unit off : Nat) : Bool :=
  match b with
  | .system | .identity | .window | .fault => true
  | .cloche => !s.hubMainReset || off == 8 || (decide (0x100 ≤ off) && decide (off < 0x500))
  | .host | .plotStat => s.hostUp
  | .seq | .tile => s.halfUp (unit / 128)
  | .dvport => s.halfUp (unit / 12)
  | _ => !s.hubMainReset

/-- The firewall allows a hub core's access to a block; core 0 is not restricted. -/
def State.maskAllows (s : State) (c n : Nat) : Bool :=
  c == 0 || bitN (s.rg Rg.firewall_MASK_LO c + s.rg Rg.firewall_MASK_HI c * 2 ^ 32) n

/-- The Ohmette-36 cores and the host reach the hub register space, tile cores and windows the blocks beside a tile or a port,
a plot its own status page; in fuse-hold only two blocks answer. A core in compartment mode needs the range's EXTALLOW bit (R199). -/
def State.reaches (s : State) (r : Req) (b : Blk) (unit : Nat) : Bool :=
  let hub := decide (b ≠ .seq) && decide (b ≠ .tile) && decide (b ≠ .dvport)
  match r with
  | .bar0 => hub && s.hostUp && (!s.flag Rg.system_FUSE_HOLD || decide (b = .system) || decide (b = .identity))
  | .core (.hub c) => hub && decide (c < 16) && !s.hubMainReset && s.maskAllows c (blkNumber b) && (s.core (.hub c)).allowed 8
  | .core (.tile t) => (decide (b = .seq) || decide (b = .tile)) && unit == t && s.tileUp t &&
      (s.core (.tile t)).allowed (if b = .seq then 5 else 6)
  | .iw _ => !hub && (decide (b = .dvport) || s.tileUp unit)
  | .plotFn f => decide (b = .plotStat) && unit == f && s.hostUp && s.plotState f != 0
  | .i3c => decide (b = .system)

/-- An access is performed. -/
def State.mayAccess (s : State) (r : Req) (b : Blk) (unit off : Nat) : Bool :=
  decide (unit < blkUnits b) && decide (off % 4 = 0) && s.reaches r b unit && s.blkUp b unit off

/-- The byte address at which a core reaches a register (R161, R555). -/
def regAddr (b : Blk) (unit off : Nat) : Nat :=
  match b with
  | .seq => 0xE00020000 + off
  | .tile => 0xE00021000 + off
  | .plotStat => 0xF00700000 + unit * 0x1000 + off
  | b => 0xF00000000 + ((hubBlocks.find? (fun x => decide (x.2.1 = b))).map (fun x => x.2.2.1)).getD 0 +
      unit * (if b = .sched then 0x2000 else if b = .firewall then 0x100 else 0) + off

/-- An access to a register that is not performed: a core takes OPERAND at an address that is no lane's, else EXT_ACCESS; for any other
requester nothing happens (R161, R163, R199; log entry 123). -/
def State.turnedAway (s : State) (r : Req) (b : Blk) (unit off : Nat) : State :=
  match r with
  | .core c =>
    if s.coreRuns c then s.trap c (s.core c) (if off % 4 ≠ 0 then 2 else 5) false (BitVec.ofNat 36 (regAddr b unit off)) else s
  | _ => s

/-! ## APPLY (R210) -/

/-- The bytes that an operation reads or writes here lie in HBM: a sink there, or the descriptor that started it. -/
def State.opHbm (s : State) (sink : Option Sink) (o : Owner) : Bool :=
  sink.any (fun x => x.aspace == 1) || (match o with
    | .desc fn r idx => ((s.ring fn r).bind (fun (g : Ring) => g.desc idx)).any (fun (d : Desc) => fieldAt d.bytes 8 1 == 1)
    | _ => false)

/-- An operation that addresses HBM is outstanding. -/
def State.hbmInUse (s : State) : Bool :=
  s.stash.cmds.any (fun c => c.aspace == 1)
    || s.dv.send.any (fun (e : Nat × SendConn) => e.2.ops.any (fun o => s.opHbm o.sink o.owner))
    || s.eth.conns.any (fun (e : Nat × EthConn) => e.2.ops.any (fun o => s.opHbm o.sink o.owner))
    || s.mulch.run || s.mulch.storing.isSome || !s.mulch.stores.isEmpty || s.mulch.restore.isSome

/-- MODE and SPARES are installed where nothing uses HBM, and every address then holds undefined bytes; else APPLY_ERR. -/
def State.applyHbm (s : State) : State :=
  let live := (List.range 4096).any (fun i => s.rg Rg.tile_STATE i == 2)
  let cached := (List.range 1024).any (fun i => s.flag Rg.tile_CRANGE_EN i)
  if s.flag Rg.beat_RUN || live || cached || s.hbmInUse then s.setRg Rg.hbm_APPLY_ERR 0 1
  else
    let s := ((s.setRg Rg.hbm_APPLY_ERR 0 0).setRg Rg.hbm_MODE_CUR 0 (s.rg Rg.hbm_MODE)).setRg Rg.hbm_SPARES_CUR 0
      (s.rg Rg.hbm_SPARES)
    let s := (List.range 192).foldl (fun s i => (s.setRg Rg.hbm_PHYS i (i % 32)).setRg Rg.hbm_HOLE i 0) s
    (List.range 6).foldl (fun s st => s.loseStack st) s

/-! ## Blocks with behaviour of their own -/

/-- The outcome of the fuse reads that a register write starts, which the spec leaves to the fuses: every margin of every word. -/
def State.freeFuses (s : State) : List FuseRead :=
  (List.range 1536).map (fun i =>
    { word := i / 3, copy := i % 3, low := Config.freeNat (s.freeCtr + 3 * i) % 2 ^ 32,
      nom := Config.freeNat (s.freeCtr + 3 * i + 1) % 2 ^ 32, high := Config.freeNat (s.freeCtr + 3 * i + 2) % 2 ^ 32 })

/-- The free values that `freeFuses` and `freeBad` read have been drawn. -/
def State.drawnFuses (s : State) : State := { s with freeCtr := s.freeCtr + 4610 }

/-- Which images the flash fails to read: free. -/
def State.freeBad (s : State) : List Nat := bitsSet 4 (Config.freeNat (s.freeCtr + 4608))

/-- The temperature at the fuse reads: free. -/
def State.freeTemp (s : State) : Nat := Config.freeNat (s.freeCtr + 4609) % 2 ^ 16

/-- The system block (R551). -/
def State.systemWrite (s : State) (w : RegWr) : State :=
  let s := if w.off = 0x030 then s.holdHalves (bitN w.v 0) (bitN w.v 1) else s
  let s := s.onOne w Rg.system_FUSE_RETRY (fun s _ => s.drawnFuses.after (execFuseRetry s.freeFuses s.freeTemp s.freeBad s.drawnFuses))
  let s := s.onOne w Rg.system_RECOVERY_REBOOT (fun s _ =>
    s.drawnFuses.after (execRecoveryReboot s.freeFuses s.freeTemp s.freeBad s.drawnFuses))
  s.onOne w Rg.system_HUB_MAIN (fun s _ => s.drawnFuses.after (execHubMain s.freeBad s.drawnFuses))

/-- The fault manager: below 0x040 only the master's block acts, except MIRROR_SYNC, which a covered member writes (R456,
R473). -/
def State.faultWrite (s : State) (w : RegWr) : State :=
  let s := if w.off < 0x040 ∧ s.ownMaster = false then s else s.plainRw w []
  s.onOne w Rg.fault_MIRROR_SYNC (fun s _ => s.after (execMirrorSync s))

/-- Beat control (R49, R51, R56, R86). At the master of a live domain PERIOD_US takes the value and the period in force stays (DESIGN
CHOICE, log entry 119); a module that DOMAIN_ID takes out of the formation under way leaves it (R49). -/
def State.beatWrite (s : State) (w : RegWr) : State :=
  let s := s.plainRw w [Rg.beat_RUN, Rg.beat_JOIN_EN, Rg.beat_PERIOD_US, Rg.beat_NEXT_PERIOD_US]
  let s := s.on w Rg.beat_PERIOD_US (fun s _ v =>
    if s.dom.member && !s.isMaster then s
    else
      let s := s.setRg Rg.beat_PERIOD_US 0 v
      if s.dom.member then s else s.showBudget (v * 1600))
  let s := s.on w Rg.beat_NEXT_PERIOD_US (fun s _ v =>
    s.after (execNextPeriodWrite v (s.rg Rg.beat_PERIOD_AT_LO + s.rg Rg.beat_PERIOD_AT_HI * 2 ^ 32) s))
  let s := s.on w Rg.beat_JOIN_EN (fun s _ v => s.after (execJoinEnWrite (v == 1) s))
  let s := (if w.off = 0x018 then s.formCheck else s).onOne w Rg.beat_FORM (fun s _ => s.form)
  let s := s.onOne w Rg.beat_DISSOLVE (fun s _ => s.dissolve)
  s.on w Rg.beat_RUN (fun s _ v => s.runWrite (v == 1))

/-- Placement: locked below 0x014 while PLACE_VALID is 1 (R238). -/
def State.placeWrite (s : State) (w : RegWr) : State :=
  if w.off ≤ 0x010 ∧ s.flag Rg.place_PLACE_VALID = true then s
  else
    (s.plainRw w [Rg.place_PLACE_VALID]).on w Rg.place_PLACE_VALID (fun s _ v => s.after (execPlaceValidWrite (v == 1) s))

/-- A routing entry: reserved port and spread codes leave their field unchanged (R22, R270). -/
def routeWord (old v : Nat) : Nat :=
  let w := (List.range 4).foldl (fun a k =>
    let p := bits v (5 * k) 5
    if 25 ≤ p ∧ p ≤ 30 then a else setBits a (5 * k) 5 p) old
  let w := if bits v 20 2 < 2 then setBits w 20 2 (bits v 20 2) else w
  setBits w 22 1 (bits v 22 1)

/-- Dvorar control: the active bank of routes ignores writes (R272). -/
def State.dvorarWrite (s : State) (w : RegWr) : State :=
  let put (f : Fld) (bank : Nat) (s : State) : State :=
    s.on w f (fun s m v => if s.rg Rg.dvorar_ACTIVE = bank then s else s.setRg f m (routeWord (s.rg f m) v))
  let s := put Rg.dvorar_ROUTE_B 1 (put Rg.dvorar_ROUTE_A 0 (s.plainRw w [Rg.dvorar_ROUTE_A, Rg.dvorar_ROUTE_B]))
  s.onOne w Rg.dvorar_SWAP (fun s _ => s.after (execRouteSwap s))

/-- Ethernet transport: writing OP runs a command on CTX (R330). -/
def State.ethWrite (s : State) (w : RegWr) : State :=
  (s.plainRw w []).on w Rg.eth_OP (fun s _ v => if v = 0 then s else s.ctxReg v (s.rg Rg.eth_CTX))

/-- A port scheduler: SHP_BURST applies the staged settings (R352), and a policer's word claims its unit (R351). -/
def State.schedWrite (s : State) (w : RegWr) : State :=
  let p := w.unit
  if 0x1000 ≤ w.off ∧ (w.off - 0x1000) % 0x20 = 4 then
    s.after (execShpBurstWrite p ((w.off - 0x1000) / 0x20) (bits w.v 0 24) (bits w.v 24 2) (bitN w.v 26) s)
  else if 0x100 ≤ w.off ∧ w.off < 0x180 ∧ w.off % 8 = 0 then
    s.after (execPolicerPenWrite p ((w.off - 0x100) / 8) (bits w.v 0 7) (bitN w.v 7) (bits w.v 8 20) s)
  else s.plainRw w []

/-- Stash control: MODE (R409, R410). -/
def State.stashWrite (s : State) (w : RegWr) : State :=
  (s.plainRw w [Rg.stash_MODE]).on w Rg.stash_MODE (fun s _ v => s.setMode v)

/-- The cipher lock's number for a requester: 0 PCIe, 1 + c hub core c (R436). -/
def lockOf : Req → Nat
  | .core (.hub c) => c + 1
  | _ => 0

/-- Cipher control: PCIe writes nothing, the command, label and digest registers are the owner's (R436). -/
def State.cipherWrite (s : State) (w : RegWr) : State :=
  let me := lockOf w.req
  if me = 0 then s
  else if 0x100 ≤ w.off ∧ w.off < 0x1A0 then
    (if s.rg Rg.cipher_OWNER = me then s.plainRw w [] else s.lockViol me)
  else
    let s := s.sqWrite Rg.cipherFlds 0 w.off w.v
    let s := s.plainRw w (if s.rg Rg.cipher_OWNER = 0 then [] else [Rg.cipher_LEASE_BEATS])
    let s := s.onOne w Rg.cipher_CLAIM (fun s _ => s.lockClaim me)
    let s := s.onOne w Rg.cipher_RENEW (fun s _ => s.lockRenew me)
    let s := s.onOne w Rg.cipher_GO (fun s _ => s.cipherGo me)
    let s := s.onOne w Rg.cipher_SIGN (fun s _ => s.sign me)
    s.onOne w Rg.cipher_RELEASE (fun s _ => s.lockRelease me)

/-- Mulch control: while STATE is not 0 only MULCH_RATE takes a write below 0x0BC (R496). -/
def State.mulchWrite (s : State) (w : RegWr) : State :=
  if s.rg Rg.mulch_STATE ≠ 0 ∧ w.off ≤ 0x0BC then s.on w Rg.mulch_MULCH_RATE (fun s i v => s.setRg Rg.mulch_MULCH_RATE i v)
  else (s.plainRw w [Rg.mulch_CK_EN]).on w Rg.mulch_CK_EN (fun s _ v => s.ckEnable (v == 1))

/-- Sieve control: ports, descriptors, swaps, snapshots and the shadow configuration bank (R297, R303, R308, R310, R311, R319). -/
def State.sieveWrite (s : State) (w : RegWr) : State :=
  let x := s.carriedWord w
  if 0x100000 ≤ w.off ∧ w.off < 0x1A8000 then
    (if s.flag Rg.sieve_BUSY then s.setRg Rg.sieve_WR_IGNORED 0 1
     else s.writeN (kSieve (1 - s.cfgBank) (w.off - 0x100000)) 4 w.v)
  else if 0x100 ≤ w.off ∧ w.off < 0x200 then
    let t := (w.off - 0x100) / 16
    if w.off % 16 = 0 then s.after (execTableEnWrite t (bitN x 0) (bits x 1 2) (bits x 3 5) s)
    else if s.flag Rg.sieve_TBL_EN t then s
    else s.plainRw w []
  else if w.off = 0x010 then
    (if w.image = 0 ∧ bitN w.v 17 = true then s.after (execSieveGo (bits w.v 0 16) (bitN w.v 16) s) else s.plainRw w [])
  else if w.off = 0x400 then
    (if w.image = 0 ∧ bitN w.v 17 = true then s.after (execSnap (bits w.v 0 16) (bitN w.v 16) s) else s.plainRw w [])
  else
    let s := s.plainRw w [Rg.sieve_PORT_MODE, Rg.sieve_PORT_EN]
    let s := s.on w Rg.sieve_PORT_MODE (fun s _ v => s.after (execPortModeWrite v s))
    s.on w Rg.sieve_PORT_EN (fun s _ v => s.after (execPortEnWrite v s))

/-- The host-interface block: MR_DB and the manager's own fields (R382, R394). -/
def State.hostRegs (s : State) (w : RegWr) : State :=
  (s.plainRw w []).on w Rg.host_MR_DB (fun s _ v => s.after (execMrDb v [] s))

/-- A plot's status page: the plot writes its request and rings, the manager's mirror its reply (R384, R395). -/
def State.plotWrite (s : State) (w : RegWr) : State :=
  let p := w.unit
  if isPlot p = false then s
  else match w.req with
  | .plotFn _ => (s.plainRw w []).onOne w Rg.plotStat_MB_DB (fun s _ => s.after (execMbDb p s))
  | _ =>
    let s := s.onOne w Rg.plotStat_MB_REPLY_DB (fun s _ => s.after (execMbReplyDb p s))
    s.on w Rg.plotStat_MB_REPLY (fun s i v => s.setRg Rg.plotStat_MB_REPLY i v)

/-- The effect of a write in its block. -/
def State.blkWrite (s : State) (w : RegWr) : State :=
  match w.blk with
  | .system => s.systemWrite w
  | .identity => s
  | .window => s.windowWrite1 w
  | .fault => s.faultWrite w
  | .beat => s.beatWrite w
  | .place => s.placeWrite w
  | .hbm => (s.plainRw w []).onOne w Rg.hbm_APPLY (fun s _ => s.applyHbm)
  | .dvorar => s.dvorarWrite w
  | .eth => s.ethWrite w
  | .sched => s.schedWrite w
  | .stash => s.stashWrite w
  | .cipher => s.cipherWrite w
  | .mulch => s.mulchWrite w
  | .cloche => s.plainRw w []
  | .firewall => if s.supervisor w.req then s.plainRw w [] else s
  | .sieve => s.sieveWrite w
  | .host => s.hostRegs w
  | .plotStat => s.plotWrite w
  | .seq => s.seqWrite w
  | .tile => s.tileWrite w
  | .dvport => s.dvportWrite w

/-- Blocks whose SQ and TV fields the general rule writes; the others see to their own. -/
def generalSq : Blk → Bool
  | .window | .cipher | .seq | .tile | .dvport => false
  | _ => true

/-- An offset that holds a register, or a word of Sieve's shadow configuration bank (R556). -/
def isRegister (b : Blk) (unit off : Nat) : Bool :=
  named (blkFlds b) unit off || (decide (b = .sieve) && decide (0x100000 ≤ off) && decide (off < 0x1A8000))

/-- What the I3C target writes of the register space: FUSE_RETRY, by the private write 0xF1, and nothing else (R527). -/
def RegWr.foreign (w : RegWr) : Bool := decide (w.req = .i3c) && !(w.off == 0x00C && w.v == 1)

/-- A write of a register: nothing where the requester does not reach it, else SQ and TV fields and then the block's. -/
def State.regWrite (s : State) (w : RegWr) : State :=
  if !s.mayAccess w.req w.blk w.unit w.off || !isRegister w.blk w.unit w.off || w.foreign then s
  else
    let fs := blkFlds w.blk
    let s := if w.image = 0 ∧ generalSq w.blk = true then (s.sqWrite fs w.unit w.off w.v).tvWrite fs w.unit w.off w.v else s
    s.blkWrite w

/-- A read of a register that the requester reaches: the special ones, and all others as they stand. -/
def State.regRead (s : State) (r : Req) (b : Blk) (unit off : Nat) : State × Nat :=
  match b with
  | .window => s.windowRead r off
  | .cipher => if 0x140 ≤ off ∧ off < 0x160 then (s, 0) else s.readReg r b unit off
  | .fault =>
    if 0x400 ≤ off ∧ off < 0x500 then
      let i := s.rg Rg.fault_LOG_READ_IDX
      let s' := { s with fm := { s.fm with logRead := insertNat i s.fm.logRead } }.setLatch r b unit none
      (match s.fm.log.get? i with
       | some bs => (s', leNat ((bs.drop (off - 0x400)).take 4))
       | none => (s'.drawn, s.free % 2 ^ 32))
    else s.readReg r b unit off
  | .sieve =>
    if 0x100000 ≤ off ∧ off < 0x1A8000 then (s, s.readN (kSieve (1 - s.cfgBank) (off - 0x100000)) 4) else s.readReg r b unit off
  | .plotStat => if isPlot unit then s.readReg r b unit off else (s, 0)
  | b => s.readReg r b unit off

/-! ## The commands on registers -/

/-- A register is written: its RW, SQ, TV and WO fields. -/
def execRegisterWrite (r : Req) (b : Blk) (unit off : Nat) (v : BitVec 32) (s : State) : Res :=
  if s.mayAccess r b unit off then .next (s.regWrite { req := r, blk := b, unit := unit, off := off, v := v.toNat })
  else .next (s.turnedAway r b unit off)

/-- An SQ register is written with a sequence number: its status bits clear where it is the current one. -/
def execSqStatusWrite (r : Req) (b : Blk) (unit off : Nat) (v : BitVec 32) (s : State) : Res :=
  if s.mayAccess r b unit off && (decide (b ≠ .window) || windowOf r == some (off / 0x100)) then
    .next (s.sqWrite (blkFlds b) unit off v.toNat)
  else .next (if s.mayAccess r b unit off then s else s.turnedAway r b unit off)

/-- A write to one of a register's three alias images; a block without images ignores it (R556). -/
def State.aliasWrite (s : State) (image : Nat) (r : Req) (b : Blk) (unit off : Nat) (v : BitVec 32) : State :=
  if !s.mayAccess r b unit off then s.turnedAway r b unit off
  else if blkAliased b off then s.regWrite { req := r, blk := b, unit := unit, off := off, v := v.toNat, image := image } else s

/-- A write to the set alias ORs into the RW fields. -/
def execAliasSet (r : Req) (b : Blk) (unit off : Nat) (v : BitVec 32) (s : State) : Res := .next (s.aliasWrite 1 r b unit off v)
/-- A write to the clear alias clears bits of the RW fields. -/
def execAliasClear (r : Req) (b : Blk) (unit off : Nat) (v : BitVec 32) (s : State) : Res := .next (s.aliasWrite 2 r b unit off v)
/-- A write to the toggle alias inverts bits of the RW fields. -/
def execAliasToggle (r : Req) (b : Blk) (unit off : Nat) (v : BitVec 32) (s : State) : Res := .next (s.aliasWrite 3 r b unit off v)

/-- A TV field is written: all three copies, unless fuses fill it. -/
def execTvFieldWrite (r : Req) (b : Blk) (unit off : Nat) (v : BitVec 32) (s : State) : Res :=
  if s.mayAccess r b unit off then .next (s.tvWrite (blkFlds b) unit off v.toNat) else .next (s.turnedAway r b unit off)

/-- The 1 ms vote of one TV field: of a block, by its place in the block's list, and its index. -/
def execTvVoteScrub (b : Blk) (n i : Nat) (s : State) : Res :=
  match (blkFlds b)[n]? with
  | some f => .next (s.scrubTv f i)
  | none => .next s

/-- The lower register of a wide pair is read: the whole counter is captured, the lower part answered and the upper part kept in
the requester's latch. -/
def execCounterPairLowRead (r : Req) (b : Blk) (unit off : Nat) (s : State) : Res :=
  if isLow (blkFlds b) unit off then
    (if s.mayAccess r b unit off then
       let x := s.regRead r b unit off
       .next (x.1.emit (.regRead r x.2))
     else match r with
       | .core _ => .next (s.turnedAway r b unit off)
       | _ => .next (s.emit (.regRead r (2 ^ 32 - 1))))
  else .next s

/-- APPLY is written. -/
def execHbmApply (s : State) : Res := if s.hubMainReset then .next s else .next s.applyHbm

/-! ## The commands on the windows (R544, R545) -/

/-- IW_DATA is read through the requester's own window; `met` is what the target meets. -/
def execIwDataRead (r : Req) (met : Nat) (s : State) : Res :=
  match windowOf r with
  | some w =>
    if s.reaches r .window 0 then
      let x := s.iwRead r w met
      .next (x.1.emit (.regRead r x.2))
    else .next s
  | none => .next s

/-- IW_DATA is written through the requester's own window. -/
def execIwDataWrite (r : Req) (v : BitVec 32) (met : Nat) (s : State) : Res :=
  match windowOf r with
  | some w => if s.reaches r .window 0 then .next (s.iwWrite r w v.toNat met) else .next s
  | none => .next s

/-- CORE_HOLD_k is written, or, k = 8, HUB_HOLD. -/
def execCoreHoldWrite (r : Req) (k : Nat) (v : BitVec 32) (s : State) : Res :=
  if !s.reaches r .window 0 then .next s
  else if k < 8 then .next (s.holdTiles k v.toNat)
  else .next (s.holdHubs r (v.toNat / 2))

end Sys2Proof.Machine
end

