-- ==== Sys2Proof/Machine/OhmExt.lean ====
section
/-!
DEFINITION. Ohmette-36 accesses to the external space: lane loads and stores, atomics and the block instructions (R161-R165,
R171, R176, R179-R181, R199, R201, R529).
-/
namespace Sys2Proof.Machine

/-! ## The external space (R161, R162) -/

/-- What an external address is to a core. -/
inductive ExtAt where
  | slice (t a : Nat)
  | hub (a : Nat)
  | hbm (a : Nat)
  | table (a : Nat)
  | page (o : Nat)
  | msg (dst : CoreId)
  | reg (o : Nat)

/-- The range of an address by its place in the table of R161, where the core has it, and what lies there. -/
def extAt (c : CoreId) (k : Core) (a : Nat) : Option (Nat × ExtAt) :=
  let own := match c with
    | .tile t => some t
    | .hub _ => none
  let hub := own.isNone
  if a < 0x1000000 then own.map (fun t => (0, .slice t a))
  else if 0x100000000 ≤ a ∧ a < 0x200000000 then some (1, .slice ((a - 0x100000000) / 2 ^ 24) (a % 2 ^ 24))
  else if 0x200000000 ≤ a ∧ a < 0x206000000 then (if hub then some (2, .hub (a - 0x200000000)) else none)
  else if 0x400000000 ≤ a ∧ a < 0x800000000 then some (3, .hbm (k.hbmwin.toNat * 2 ^ 30 + (a - 0x400000000)))
  else if 0xE00000000 ≤ a ∧ a < 0xE00020000 then own.map (fun _ => (4, .table (a - 0xE00000000)))
  else if 0xE00020000 ≤ a ∧ a < 0xE00021000 then own.map (fun _ => (5, .page (a - 0xE00020000)))
  else if 0xE00021000 ≤ a ∧ a < 0xE00022000 then own.map (fun _ => (6, .page (a - 0xE00020000)))
  else if 0xE00022000 ≤ a ∧ a < 0xE00022004 then some (7, .msg c)
  else if 0xF00000000 ≤ a ∧ a < 0x1000000000 then (if hub then some (8, .reg (a - 0xF00000000)) else none)
  else if 0xE00030000 ≤ a ∧ a < 0xE00030100 ∧ a % 16 < 4 then
    (if hub then some (9, .msg (.hub ((a - 0xE00030000) / 16))) else none)
  else if 0xE00040000 ≤ a ∧ a < 0xE00041000 ∧ a % 16 < 4 then
    (if hub then some (10, .msg (.tile ((a - 0xE00040000) / 16))) else none)
  else none

/-- The hub SRAM windows of a hub core allow an access to a lane (R529, R531). -/
def State.sramAllows (s : State) (c a : Nat) (wr : Bool) : Bool :=
  c == 0 || (List.range 8).any (fun i =>
    let w := 8 * c + i
    decide (s.rg Rg.firewall_WIN_BASE w ≤ a / 65536) && decide (a / 65536 ≤ s.rg Rg.firewall_WIN_LIM w)
      && (if wr then s.flag Rg.firewall_WIN_W w else s.flag Rg.firewall_WIN_R w))

/-- How an access goes: done, with the lane read; it waits, for the lanes of these keys; or a trap by its vector. -/
inductive ExtRes where
  | ok (s : State) (lane : Nat)
  | wait (lanes : List Nat)
  | fail (vector : Nat)

/-- An access to a lane that takes EXT_ACCESS before it reaches anything: no such range, EXTALLOW, a tile not working, hub SRAM
outside a window, HBM beyond the space, a block that the core may not access. -/
def State.extBad (s : State) (c : CoreId) (k : Core) (a : Nat) (wr : Bool) : Bool :=
  match extAt c k a with
  | none => true
  | some (n, x) =>
    !k.allowed n ||
    (match x, c with
     | .slice t o, .tile u => !s.tileUp t || !s.tilesMeet u t || decide (32 * s.sliceLines t < o + 4)
     | .slice t o, _ => !s.tileUp t || decide (32 * s.sliceLines t < o + 4)
     | .hub o, .hub h => !s.sramAllows h o wr
     | .hbm o, .tile u => k.extFail || !s.hbmFrom u o
     | .hbm o, _ => k.extFail || (s.hbmKey o).isNone
     | .msg (.tile t), _ => !s.tileUp t
     | .reg o, .hub h =>
       (match hubAt o with
        | some (b, blk, unit, off, _) => !s.maskAllows h b || !s.blkUp blk unit off
        | none => false)
     | _, _ => false)

/-- The key of a lane of a slice. -/
def sliceLane (c : CoreId) (k : Core) (a : Nat) : Option Nat :=
  match extAt c k a with
  | some (_, .slice t o) => some (kSlice t o)
  | _ => none

/-- A lane of a slice is read by a core: one in an output window of the running table waits for its tick, any other answers what has
committed; another tile's scratch and log answer undefined contents (R65, R83, R201). -/
def State.loadSlice (s : State) (c : CoreId) (k : Core) (t a : Nat) : ExtRes :=
  match k.servedLane (kSlice t a) with
  | some v => .ok s v
  | none =>
    if s.winWaits t (.slice t (a / 32)) then .wait [kSlice t a]
    else if s.moving t && decide (c ≠ .tile t) then .wait []
    else if decide (c ≠ .tile t) && (s.inScratch t (.slice t (a / 32)) || s.inLog t (.slice t (a / 32))) then
      .ok s.drawn (leNat (s.freeBytes 4))
    else .ok s (leNat (s.committedSlice t a 4))

/-- A lane of HBM is read as it has committed: a tile core's cacheable line goes through its cache, an atomic never (R83, R202). -/
def State.loadHbm (s : State) (c : CoreId) (a : Nat) (cached : Bool) : ExtRes :=
  let plain : ExtRes := .ok s (leNat ((s.committedHbm a 4).getD []))
  match c with
  | .tile t =>
    if cached && (s.tile t).cacheable a 4 then
      let x := s.cacheRead t (a / 32 * 32)
      (match x.2 with
       | some bs => .ok x.1 (leNat ((((s.oldLine (.hbm (a / 32))).getD bs).drop (a % 32)).take 4))
       | none => .fail 5)
    else plain
  | .hub _ => plain

/-- A lane is read, by a load or by an atomic; a read behind a posted store that waits comes after it (R163-R165). -/
def State.extRead (s : State) (c : CoreId) (k : Core) (a : Nat) (cached : Bool) : ExtRes :=
  if a % 4 ≠ 0 then .fail 2
  else if s.extBad c k a false then .fail 5
  else if !k.heldStores.isEmpty then
    .wait (match extAt c k a with
      | some (_, .slice t o) => if decide (c = .tile t) && s.winWaits t (.slice t (o / 32)) then [kSlice t o] else []
      | _ => [])
  else match extAt c k a, c with
  | some (_, .slice t o), _ => s.loadSlice c k t o
  | some (_, .hub o), _ => .ok s (s.readN (kHub o) 4)
  | some (_, .hbm o), _ => s.loadHbm c o cached
  | some (_, .table o), .tile t => .ok s (s.readN (kBank t (1 - (s.tile t).bank) o) 4)
  | some (_, .page o), .tile t => let x := s.tilePageRead (.core c) t o; .ok x.1 x.2
  | some (7, .msg _), _ => .ok s.drawn (s.free % 2 ^ 32)
  | some (_, .reg o), _ =>
    (match hubAt o with
     | some (_, b, unit, off, im) => if im = 0 ∨ blkAliased b off = true then let x := s.regRead (.core c) b unit off; .ok x.1 x.2 else .ok s 0
     | none => .ok s 0)
  | _, _ => .ok s 0

/-- A lane is loaded (R163, R165, R202). -/
def State.extLoad (s : State) (c : CoreId) (k : Core) (a : Nat) : ExtRes := s.extRead c k a true

/-- The core's own tile has an output window of its running table over a lane. -/
def State.ownWindow (s : State) (c : CoreId) (t a : Nat) : Bool := decide (c = .tile t) && s.winWaits t (.slice t (a / 32))

/-- A posted store joins those that wait. -/
def State.hold (s : State) (c : CoreId) (key v : Nat) : State :=
  let k := s.core c
  s.setCore c { k with heldStores := k.heldStores ++ [(key, BitVec.ofNat 32 v)] }

/-- A lane of a slice is stored. Inside an output window of the core's own running table the posted store waits for the next tick
(R65), in another tile that moves to a spare for the end of the copy (R450), and behind one that waits it waits as well (R164). -/
def State.storeSlice (s : State) (c : CoreId) (t a v : Nat) : State :=
  if s.ownWindow c t a || (s.moving t && decide (c ≠ .tile t)) || !(s.core c).heldStores.isEmpty then s.hold c (kSlice t a) v
  else s.writeN (kSlice t a) 4 v

/-- A lane of HBM is stored, after the tile's own cache has given up the line; a cutting that a checkpoint has marked holds the
posted store (R202, R485). -/
def State.storeHbm (s : State) (c : CoreId) (a v : Nat) : State :=
  let s := match c with
    | .tile t => s.uncache t a 4
    | .hub _ => s
  if s.cowHeld a 4 || !(s.core c).heldStores.isEmpty then s.hold c (kHbm a) v else s.writeHbm a (leBytes 4 v)

/-- A lane is stored (R163-R165, R186). While an earlier posted store waits, a later store waits in the core and is not posted behind it:
how many stores may be posted, the spec does not say (DESIGN CHOICE, log entry 122); a later store of the same granule is (`more`). -/
def State.extStore (s : State) (c : CoreId) (k : Core) (a v : Nat) (more : Bool) : ExtRes :=
  if a % 4 ≠ 0 then .fail 2
  else if s.extBad c k a true then .fail 5
  else if !k.heldStores.isEmpty && !more then .wait []
  else match extAt c k a, c with
  | some (_, .slice t o), _ => .ok (s.storeSlice c t o v) 0
  | some (_, .hub o), _ => .ok (s.writeHub o (leBytes 4 v)) 0
  | some (_, .hbm o), _ => .ok (s.storeHbm c o v) 0
  | some (_, .table o), .tile t =>
    if (s.tile t).arm ≠ 0 then .fail 6 else .ok (s.writeN (kBank t (1 - (s.tile t).bank) o) 4 v) 0
  | some (_, .page o), .tile t => .ok (s.tilePageWrite (.core c) t o v) 0
  | some (_, .msg dst), _ =>
    (match s.postMsg dst v with
     | some s => .ok s 0
     | none => .fail 5)
  | some (_, .reg o), _ =>
    (match hubAt o with
     | some (_, b, unit, off, im) =>
       if im = 0 ∨ blkAliased b off = true then
         .ok (s.regWrite { req := .core c, blk := b, unit := unit, off := off, v := v, image := im }) 0
       else .ok s 0
     | none => .ok s 0)
  | _, _ => .ok s 0

/-- A memory in which an atomic acts: a slice, HBM or hub SRAM (R163). -/
def extAtomic (c : CoreId) (k : Core) (a : Nat) : Bool :=
  match extAt c k a with
  | some (_, .slice _ _) | some (_, .hub _) | some (_, .hbm _) => true
  | _ => false

/-- An atomic waits where its store would wait: it is indivisible. -/
def State.atomicWaits (s : State) (c : CoreId) (k : Core) (a : Nat) : Bool :=
  match extAt c k a with
  | some (_, .hbm o) => !s.extBad c k a true && s.cowHeld o 4
  | _ => false

/-! ## Frame of an external access -/

/-- An instruction with one external access: the access acts on the state that holds the core as it stands, and the core is read
back after it, unless the access has reset it; it waits, with what it is to do if it is an atomic, or it traps with the byte address. -/
def extRun (c : CoreId) (a : Nat) (op : Option LaneOp) (acc : State → Core → ExtRes) (done : Core → Nat → Core) (s : State) (k : Core) :
    State × CRes :=
  match acc (s.setCore c k) k with
  | .ok s' v =>
    let k' := s'.core c
    if k'.pmStamp = k.pmStamp then let x := s'.stall (done k' v).accessed; (x.1, .done x.2) else (s', .stay k')
  | .wait ks => (s, .stay { k with extWait := true, waitLanes := ks, waitOp := op, served := [] })
  | .fail n => (s, .trap { k.accessed with extFail := false } n (BitVec.ofNat 36 a))

/-- The byte address of a lane instruction: a short form counts lanes (R169, R171). -/
def laneAddr (k : Core) (rs : Nat) : LaneOff → Nat
  | .short o => (k.get rs + immZ (4 * o)).toNat
  | .long imm => (k.get rs + immS 16 imm).toNat

/-- A lane load whose lane goes to rd through `f`. -/
def laneLoad (c : CoreId) (rd rs : Nat) (o : LaneOff) (f : Nat → Nat) (s : State) : State :=
  s.runWith c o.isLong false (fun s k =>
    let a := laneAddr k rs o
    extRun c a none (fun s k => s.extLoad c k a) (fun k v => k.set rd (BitVec.ofNat 36 (f v))) s k)

/-- A lane store of a value. -/
def laneStore (c : CoreId) (rs : Nat) (o : LaneOff) (f : Core → Nat) (s : State) : State :=
  s.runWith c o.isLong false (fun s k =>
    let a := laneAddr k rs o
    extRun c a none (fun s k => s.extStore c k a (f k) false) (fun k _ => k) s k)

/-- LDL: the lane, zero-extended (R163, R169, R171). -/
def execLdl (c : CoreId) (rd rs : Nat) (o : LaneOff) (s : State) : Res := .next (laneLoad c rd rs o (fun v => v) s)

/-- LDLS: the lane, sign-extended (R163, R169, R171). -/
def execLdls (c : CoreId) (rd rs : Nat) (o : LaneOff) (s : State) : Res :=
  .next (laneLoad c rd rs o (fun v => wrap 36 (sext 32 v)) s)

/-- STL: bits [31:0] of rd (R163, R164, R169, R171). -/
def execStl (c : CoreId) (rd rs : Nat) (o : LaneOff) (s : State) : Res :=
  .next (laneStore c rs o (fun k => (k.get rd).toNat % 2 ^ 32) s)

/-- LDF: the lane as binary32, converted exactly into F36 (R171, R176). -/
def execLdf (c : CoreId) (rd rs imm : Nat) (s : State) : Res := .next (laneLoad c rd rs (.long imm) (unpack36 0xA) s)

/-- STF: rd rounded to binary32, as FPACK with FMT 0xA, and its flags once the lane is stored (R157, R171, R176). -/
def execStf (c : CoreId) (rd rs imm : Nat) (s : State) : Res :=
  .next (s.runWith c true false (fun s k =>
    let a := laneAddr k rs (.long imm)
    let x := pack36 0xA false (k.get rd).toNat
    extRun c a none (fun s k => s.extStore c k a x.1 false) (fun k _ => k.cwSet (BitVec.ofNat 36 x.2.word)) s k))

/-! ## Atomics (R163, R171) -/

/-- The lane at rs becomes what the operation makes of it, and rd the old lane, indivisibly. One that waited for a tick has been done
there; the cache is passed by (R202). -/
def atomicOp (c : CoreId) (rd rs : Nat) (op : Core → LaneOp) (s : State) : State :=
  s.runWith c true false (fun s k =>
    let a := (k.get rs).toNat
    extRun c a (some (op k)) (fun s k =>
      if a % 4 ≠ 0 then .fail 2
      else if !extAtomic c k a then .fail 5
      else if s.atomicWaits c k a then .wait []
      else match s.extRead c k a false with
      | .ok s1 old =>
        if k.waitOp = some (op k) ∧ ((sliceLane c k a).bind k.servedLane).isSome then .ok s1 old
        else
          (match (op k).new old with
           | none => if s.extBad c k a true then .fail 5 else .ok s1 old
           | some v =>
             match s1.extStore c (s1.core c) a v false with
             | .ok s2 _ => .ok s2 old
             | r => r)
      | r => r)
      (fun k v => k.set rd (BitVec.ofNat 36 v)) s k)

/-- ATADD: lane + rt modulo 2^32. -/
def execAtadd (c : CoreId) (rd rs rt : Nat) (s : State) : Res :=
  .next (atomicOp c rd rs (fun k => .add (k.get rt).toNat) s)

/-- ATSWAP: the lane takes rt. -/
def execAtswap (c : CoreId) (rd rs rt : Nat) (s : State) : Res :=
  .next (atomicOp c rd rs (fun k => .swap ((k.get rt).toNat % 2 ^ 32)) s)

/-- ATCAS: the lane takes ru where it equals rt. -/
def execAtcas (c : CoreId) (rd rs rt ru : Nat) (s : State) : Res :=
  .next (atomicOp c rd rs (fun k => .cas ((k.get rt).toNat % 2 ^ 32) ((k.get ru).toNat % 2 ^ 32)) s)

/-! ## Block instructions (R179-R181) -/

/-- Elements of one granule (R179). -/
def blkGranule (fmt : Nat) : Nat := if isMx fmt then 128 else match fmt with
  | 6 | 7 => 4
  | 8 | 9 => 2
  | _ => 1

/-- Bytes of the lanes that one granule fills. -/
def blkBytes (fmt : Nat) : Nat := blkGranule fmt * rowWidth fmt / 8

/-- The first operand that breaks a rule of R179: the count and descriptor, the element address, the scale address. -/
def blkBad (desc elem scale : Word36) : Option Word36 :=
  let n := desc.toNat % 2 ^ 24
  let fmt := bits desc.toNat 24 4
  if 2 ^ 29 ≤ desc.toNat ∨ 10 < fmt then some desc
  else if n % blkGranule fmt ≠ 0 then some desc
  else if elem.toNat % 4 ≠ 0 then some elem
  else if isMx fmt = true ∧ scale.toNat % 4 ≠ 0 then some scale
  else none

/-- How a run of lanes goes. -/
inductive LanesRes where
  | ok (s : State) (bs : List Byte)
  | wait (lanes : List Nat)
  | fail (vector addr : Nat)

/-- The addresses of `n` lanes from an address upward. -/
def lanesFrom (a n : Nat) : List Nat := (List.range n).map (fun i => a + 4 * i)

/-- Lanes are loaded; where some wait, for all of those. -/
def State.loadLanes (s : State) (c : CoreId) : List Nat → LanesRes
  | [] => .ok s []
  | a :: t =>
    match s.extLoad c (s.core c) a with
    | .ok s v =>
      (match State.loadLanes s c t with
       | .ok s bs => .ok s (leBytes 4 v ++ bs)
       | r => r)
    | .wait ks =>
      (match State.loadLanes s c t with
       | .wait ls => .wait (ks ++ ls)
       | .fail x y => .fail x y
       | .ok _ _ => .wait ks)
    | .fail x => .fail x a

/-- Bytes are stored to lanes. -/
def State.storeLanes (s : State) (c : CoreId) (more : Bool) : List Nat → List Byte → LanesRes
  | [], _ => .ok s []
  | a :: t, bs =>
    match s.extStore c (s.core c) a (leNat (bs.take 4)) more with
    | .ok s _ => State.storeLanes s c true t (bs.drop 4)
    | .wait ks => .wait ks
    | .fail x => .fail x a

/-- The lanes of a granule, its scale lane last (R179). -/
def blkLanes (fmt : Nat) (a : Nat) (scale : Word36) (i : Nat) : List Nat :=
  lanesFrom a (blkBytes fmt / 4) ++ (if isMx fmt then [(scale + immZ (i / 32)).toNat] else [])

/-- The F36 words of a granule's bytes, under its scale bytes when the format is MX (R133, R176). -/
def blkWords (fmt : Nat) (data scales : List Byte) : List Word36 :=
  (List.range (blkGranule fmt)).map (fun i =>
    let code := bits (leNat data) (i * rowWidth fmt) (rowWidth fmt)
    BitVec.ofNat 36 (if isMx fmt then toF36 (mxDecode fmt code ((scales.getD (i / 32) 0).toNat)) else unpack36 fmt code))

/-- The bytes and scale bytes of a granule's F36 words (R130-R132, R176). -/
def blkCodes (fmt : Nat) (sat : Bool) (ws : List Word36) : List Byte × List Byte :=
  if isMx fmt then
    let blocks := (List.range 4).map (fun b => mxEncode fmt (((ws.drop (32 * b)).take 32).map (fun w => dec36 w.toNat)))
    (leBytes (blkBytes fmt) (packBits (rowWidth fmt) (blocks.flatMap (fun x => x.2))), blocks.map (fun x => BitVec.ofNat 8 x.1))
  else (leBytes (blkBytes fmt) (packBits (rowWidth fmt) (ws.map (fun w => (pack36 fmt sat w.toNat).1))), [])

/-- Words of private memory are written upward. -/
def Core.pmWrites (k : Core) : Nat → List Word36 → Core
  | _, [] => k
  | a, w :: t => Core.pmWrites (k.pmWrite a w) (a + 1) t

/-- The first word of a run that the core may not access. -/
def Core.pmDenied (k : Core) (a : Word36) (n bit : Nat) : Option Word36 :=
  ((List.range n).find? (fun i => !k.pmOk (a + immZ i) bit)).map (fun i => a + immZ i)

/-- Granules of a block instruction with external lanes: as `granules`, and a granule that waits leaves its progress. -/
def blkRun (n g : Nat) (elem : State → Core → Nat → State × Core × Option (Option (Nat × Word36))) :
    Nat → State → Core → Nat → State × CRes
  | 0, s, k, i =>
    if i < n then (s, .stay ({ k with cont := BitVec.ofNat 36 i }.cwSet 0x004))
    else let x := s.stall { k with cont := 0 }; (x.1, .done x.2)
  | fuel + 1, s, k, i =>
    if i < n then
      match elem s k i with
      | (s', k', none) => blkRun n g elem fuel s' { k' with extWait := false } (i + g)
      | (s', k', some none) => (s', .stay ({ k' with cont := BitVec.ofNat 36 i, extWait := true }.cwSet 0x004))
      | (s', k', some (some (v, tval))) => (s', .trap { k'.accessed with cont := BitVec.ofNat 36 i, extFail := false } v tval)
    else let x := s.stall { k with cont := 0 }; (x.1, .done x.2)

/-- One granule of BLKLD: its lanes and its scale lane, then the words. -/
def blkldElem (c : CoreId) (fmt : Nat) (elem dst scale : Word36) (s : State) (k : Core) (i : Nat) :
    State × Core × Option (Option (Nat × Word36)) :=
  let a := (elem + immZ (i * rowWidth fmt / 8)).toNat
  match k.pmDenied (dst + immZ i) (blkGranule fmt) 19 with
  | some w => (s, k, some (some (4, w)))
  | none =>
    match (s.setCore c k).loadLanes c (blkLanes fmt a scale i) with
    | .wait ks => (s, { k with waitLanes := ks, waitOp := none, served := [] }, some none)
    | .fail v x => (s, k, some (some (v, BitVec.ofNat 36 x)))
    | .ok s1 bs =>
      (s1, ((s1.core c).pmWrites (dst + immZ i).toNat (blkWords fmt (bs.take (blkBytes fmt)) (bs.drop (blkBytes fmt)))).accessed, none)

/-- One granule of BLKST: all its lanes are stored, or none. EXT_ACCESS at any of them comes before TABLE_LOCKED (R184). -/
def blkstElem (c : CoreId) (fmt : Nat) (sat : Bool) (src elem scale : Word36) (s : State) (k : Core) (i : Nat) :
    State × Core × Option (Option (Nat × Word36)) :=
  let lanes := blkLanes fmt (elem + immZ (i * rowWidth fmt / 8)).toNat scale i
  match k.pmDenied (src + immZ i) (blkGranule fmt) 18 with
  | some w => (s, k, some (some (4, w)))
  | none =>
    match lanes.find? (fun x => (s.setCore c k).extBad c k x true) with
    | some x => (s, k, some (some (5, BitVec.ofNat 36 x)))
    | none =>
      let x := blkCodes fmt sat ((List.range (blkGranule fmt)).map (fun j => k.pmRead c (src + immZ (i + j)).toNat))
      match (s.setCore c k).storeLanes c false lanes (x.1 ++ x.2) with
      | .wait ks => (s, { k with waitLanes := ks, waitOp := none, served := [] }, some none)
      | .fail v y => (s, k, some (some (v, BitVec.ofNat 36 y)))
      | .ok s1 _ => (s1, (s1.core c).accessed, none)

/-- BLKLD: elements from the external space into private memory, `upto` granules before the next boundary (R179). -/
def execBlkld (c : CoreId) (rd rs rt ru upto : Nat) (s : State) : Res :=
  .next (s.runWith c true true (fun s k =>
    let d := k.get rd
    let fmt := bits d.toNat 24 4
    match blkBad d (k.get rs) (k.get ru) with
    | some v => badOperand s k v
    | none =>
      blkRun (d.toNat % 2 ^ 24) (blkGranule fmt) (blkldElem c fmt (k.get rs) (k.get rt) (k.get ru)) upto s (k.cwClear 0x004)
        k.resumeAt))

/-- BLKST: elements from private memory into the external space (R179). -/
def execBlkst (c : CoreId) (rd rs rt ru upto : Nat) (s : State) : Res :=
  .next (s.runWith c true true (fun s k =>
    let d := k.get rd
    let fmt := bits d.toNat 24 4
    match blkBad d (k.get rt) (k.get ru) with
    | some v => badOperand s k v
    | none =>
      blkRun (d.toNat % 2 ^ 24) (blkGranule fmt) (blkstElem c fmt (bitN d.toNat 28) (k.get rs) (k.get rt) (k.get ru)) upto s
        (k.cwClear 0x004) k.resumeAt))

end Sys2Proof.Machine
end

