-- ==== Sys2Proof/Machine/Spdm.lean ====
section
/-!
DEFINITION. The SPDM responder: its subset of SPDM 1.3, over I3C and over the relay (R440, R441; the message formats are those
of DSP0274, log entry 43).
-/
namespace Sys2Proof.Machine

/-- An SPDM connection: 0 over I3C, 1 over the relay. -/
def State.spdm (s : State) (k : Nat) : Spdm := s.cipher.spdm.getD {} k

/-- A connection is replaced. -/
def State.setSpdm (s : State) (k : Nat) (c : Spdm) : State :=
  { s with cipher := { s.cipher with spdm := s.cipher.spdm.set {} k c } }

/-- Request codes that the responder serves. -/
def spdmCodes : List Nat := [0x81, 0x82, 0x83, 0x84, 0xE0, 0xE1, 0xE3]

/-- An ERROR response: code and data. -/
def spdmError (ver code data : Nat) : List Byte := leBytes 1 ver ++ [0x7F] ++ leBytes 1 code ++ leBytes 1 data

/-- The certificate chain of slot 0, as the certificate region holds it: its first two bytes are its length (R519). -/
def State.certChain (s : State) : List Byte := s.readB (kFlash 0x10000) (min 65536 (s.readN (kFlash 0x10000) 2))

/-- The value type of a measurement block; bit 7 marks a raw bit stream. -/
def measType (i : Nat) : Nat := [0, 0x00, 0x01, 0x01, 0x03, 0x82, 0x83].getD i 0

/-- A measurement block in its DMTF form. -/
def State.measBlock (s : State) (i : Nat) : List Byte :=
  let v := s.fw.meas.getD [] i
  leBytes 1 i ++ [1] ++ leBytes 2 (v.length + 3) ++ leBytes 1 (measType i) ++ leBytes 2 v.length ++ v

/-- Blocks from `i` on, `n` of them. -/
def State.measBlocks (s : State) (i n : Nat) : List Byte := (List.range n).flatMap (fun j => s.measBlock (i + j))

/-- ASCII bytes of a string. -/
def ascii (t : String) : List Byte := bytesOf (t.toList.map (·.toNat))

/-- The signature over a transcript under a context of SPDM 1.3. -/
def State.spdmSign (s : State) (context : String) (m : List Byte) : List Byte :=
  let one := ascii "dmtf-spdm-v1.3.*"
  let ctx := ascii context
  let pre := one ++ one ++ one ++ one ++ List.replicate (36 - ctx.length) 0 ++ ctx
  ecdsaSign s.attestKey (sha3_256 (pre ++ sha3_256 m))

/-- The answer to a request on a connection: the state that follows it and the response. -/
def State.spdmAnswer (s : State) (k : Nat) (req : List Byte) : State × List Byte :=
  let c := s.spdm k
  let code := fieldAt req 1 1
  let p1 := fieldAt req 2 1
  let p2 := fieldAt req 3 1
  let err (e d : Nat) : State × List Byte := (s, spdmError (if c.stage = 0 then 0x10 else 0x13) e d)
  let nonce_ := leBytes 32 (s.free % 2 ^ 256)
  if !spdmCodes.contains code then err 0x07 code
  else if code = 0x84 then
    if fieldAt req 0 1 ≠ 0x10 then err 0x41 0
    else
      let r : List Byte := [0x10, 0x04, 0, 0, 0, 1, 0x00, 0x13]
      (s.setSpdm k { stage := 1, vca := req ++ r }, r)
  else if c.stage = 0 then err 0x04 0
  else if fieldAt req 0 1 ≠ 0x13 then err 0x41 0
  else if code = 0xE1 then
    if c.stage ≠ 1 then err 0x04 0
    else if req.length ≠ 20 then err 0x01 0
    else
      let r : List Byte := [0x13, 0x61, 0, 0, 0] ++ leBytes 1 Config.spdmTime ++ [0, 0] ++ leBytes 4 0x16
        ++ leBytes 4 Config.spdmSize ++ leBytes 4 Config.spdmSize
      (s.setSpdm k { c with stage := 2, vca := c.vca ++ req ++ r }, r)
  else if code = 0xE3 then
    if c.stage ≠ 2 then err 0x04 0
    else if req.length < 32 ∨ fieldAt req 4 2 ≠ req.length then err 0x01 0
    else
      let r : List Byte := [0x13, 0x63, 0, 0] ++ leBytes 2 36 ++ leBytes 1 (fieldAt req 6 1 &&& 1) ++ [0] ++ leBytes 4 0x10
        ++ leBytes 4 (fieldAt req 8 4 &&& 0x80) ++ leBytes 4 (fieldAt req 12 4 &&& 0x08) ++ List.replicate 16 0
      (s.setSpdm k { c with stage := 3, vca := c.vca ++ req ++ r }, r)
  else if c.stage ≠ 3 then err 0x04 0
  else if code = 0x81 then
    let r : List Byte := [0x13, 0x01, 1, 1] ++ sha3_256 s.certChain
    (s.setSpdm k { c with digests := c.digests ++ req ++ r }, r)
  else if code = 0x82 then
    let ch := s.certChain
    let off := fieldAt req 4 2
    if p1 % 16 ≠ 0 ∨ req.length ≠ 8 ∨ ch.length ≤ off then err 0x01 0
    else
      let n := min (fieldAt req 6 2) (ch.length - off)
      let r : List Byte := [0x13, 0x02, 0, 0] ++ leBytes 2 n ++ leBytes 2 (ch.length - off - n) ++ (ch.drop off).take n
      (s.setSpdm k { c with digests := c.digests ++ req ++ r }, r)
  else if code = 0x83 then
    if p1 ≠ 0 ∨ (p2 ≠ 0 ∧ p2 ≠ 1 ∧ p2 ≠ 0xFF) ∨ req.length ≠ 44 then err 0x01 0
    else
      let body : List Byte := [0x13, 0x03, 0, 1] ++ sha3_256 s.certChain ++ nonce_
        ++ (if p2 = 0 then [] else sha3_256 (s.measBlocks 1 6)) ++ [0, 0] ++ (req.drop 36).take 8
      let sig := s.spdmSign "responder-challenge_auth signing" (c.vca ++ c.digests ++ req ++ body)
      (s.drawn.setSpdm k { c with digests := [] }, body ++ sig)
  else
    let signed := p1 % 2 == 1
    let ctx := if signed then 37 else 4
    if (p2 ≠ 0 ∧ p2 ≠ 0xFF ∧ 6 < p2) ∨ req.length ≠ ctx + 8 ∨ (signed = true ∧ fieldAt req 36 1 % 16 ≠ 0) then err 0x01 0
    else
      let rec_ := if p2 = 0 then [] else if p2 = 0xFF then s.measBlocks 1 6 else s.measBlock p2
      let n := if p2 = 0 then 0 else if p2 = 0xFF then 6 else 1
      let body : List Byte := [0x13, 0x60] ++ leBytes 1 (if p2 = 0 then 6 else 0) ++ [0] ++ leBytes 1 n
        ++ leBytes 3 rec_.length ++ rec_ ++ nonce_ ++ [0, 0] ++ (req.drop ctx).take 8
      let log := c.measured ++ req ++ body
      if signed then
        let sig := s.spdmSign "responder-measurements signing" (c.vca ++ log)
        (s.drawn.setSpdm k { c with measured := [] }, body ++ sig)
      else (s.drawn.setSpdm k { c with measured := log }, body)

/-- An SPDM message of a code arrives over I3C while the compartments run. -/
def State.spdmOver (s : State) (ok : Nat → Bool) (req : List Byte) : State :=
  if s.hubMainReset || !s.fw.mainUp || !ok (fieldAt req 1 1) then s
  else
    let x := s.spdmAnswer 0 req
    x.1.emit (.i3c 5 x.2)

/-- GET_VERSION. -/
def execGetVersion (req : List Byte) (s : State) : Res := .next (s.spdmOver (fun c => c == 0x84) req)
/-- GET_CAPABILITIES. -/
def execGetCapabilities (req : List Byte) (s : State) : Res := .next (s.spdmOver (fun c => c == 0xE1) req)
/-- NEGOTIATE_ALGORITHMS. -/
def execNegotiateAlgorithms (req : List Byte) (s : State) : Res := .next (s.spdmOver (fun c => c == 0xE3) req)
/-- GET_DIGESTS. -/
def execGetDigests (req : List Byte) (s : State) : Res := .next (s.spdmOver (fun c => c == 0x81) req)
/-- GET_CERTIFICATE. -/
def execGetCertificate (req : List Byte) (s : State) : Res := .next (s.spdmOver (fun c => c == 0x82) req)
/-- CHALLENGE. -/
def execChallenge (req : List Byte) (s : State) : Res := .next (s.spdmOver (fun c => c == 0x83) req)
/-- GET_MEASUREMENTS. -/
def execGetMeasurements (req : List Byte) (s : State) : Res := .next (s.spdmOver (fun c => c == 0xE0) req)
/-- Any other request. -/
def execSpdmUnsupported (req : List Byte) (s : State) : Res := .next (s.spdmOver (fun c => !spdmCodes.contains c) req)

/-- SPDM_RELAY: request and response lie in the data area. -/
def execSpdmRelay (s : State) : Res :=
  .next (s.manage 0x31 [(8, 2), (16, 8), (24, 8), (32, 4)] (fun s q =>
    let n := fieldAt q 8 2
    let src := fieldAt q 16 8
    let dst := fieldAt q 24 8
    let room := fieldAt q 32 4
    if 0x3C0000 < src + n ∨ 0x3C0000 < dst + room then s.refuse 2
    else
      let x := s.spdmAnswer 1 (s.readB (kMgmt (0x40000 + src)) n)
      if room < x.2.length then s.refuse 6
      else (0, x.1.writeB (kMgmt (0x40000 + dst)) x.2, leBytes 4 x.2.length)))

end Sys2Proof.Machine
end

