-- ==== Sys2Proof/Machine/Dispatch.lean ====
section
/-!
DEFINITION. One arm per command: the meaning that runs it, or its rejection by name.
-/
namespace Sys2Proof.Machine

def exec (i : Instr) (s : State) : Host.Outcome State Fault Refusal :=
  match i with
  | .registerWrite r b unit off v => Sys2Proof.Machine.execRegisterWrite r b unit off v s
  | .sqStatusWrite r b unit off v => Sys2Proof.Machine.execSqStatusWrite r b unit off v s
  | .aliasSet r b unit off v => Sys2Proof.Machine.execAliasSet r b unit off v s
  | .aliasClear r b unit off v => Sys2Proof.Machine.execAliasClear r b unit off v s
  | .aliasToggle r b unit off v => Sys2Proof.Machine.execAliasToggle r b unit off v s
  | .tvFieldWrite r b unit off v => Sys2Proof.Machine.execTvFieldWrite r b unit off v s
  | .tvVoteScrub b n idx => Sys2Proof.Machine.execTvVoteScrub b n idx s
  | .counterPairLowRead r b unit off => Sys2Proof.Machine.execCounterPairLowRead r b unit off s
  | .bootSelfTestDone halves t => Sys2Proof.Machine.execBootSelfTestDone halves t s
  | .form => Sys2Proof.Machine.execForm s
  | .formSymbol port dom founder depth => Sys2Proof.Machine.execFormSymbol port dom founder depth s
  | .formationClose info => Sys2Proof.Machine.execFormationClose info s
  | .joinSymbol m => Sys2Proof.Machine.execJoinSymbol m s
  | .joinEnWrite v => Sys2Proof.Machine.execJoinEnWrite v s
  | .runWrite v => Sys2Proof.Machine.execRunWrite v s
  | .dissolve => Sys2Proof.Machine.execDissolve s
  | .nextPeriodWrite us at_ => Sys2Proof.Machine.execNextPeriodWrite us at_ s
  | .doneSymbol port beat => Sys2Proof.Machine.execDoneSymbol port beat s
  | .memberDoneReady => Sys2Proof.Machine.execMemberDoneReady s
  | .tickSymbol port beat kind time => Sys2Proof.Machine.execTickSymbol port beat kind time s
  | .startTick => Sys2Proof.Machine.execStartTick s
  | .commitTick info => Sys2Proof.Machine.execCommitTick info s
  | .abortTick cause halt => Sys2Proof.Machine.execAbortTick cause halt s
  | .restartTick => Sys2Proof.Machine.execRestartTick s
  | .timeDisciplineSend => Sys2Proof.Machine.execTimeDisciplineSend s
  | .timeSymbol port time => Sys2Proof.Machine.execTimeSymbol port time s
  | .arm t => Sys2Proof.Machine.execArm t s
  | .armSame t => Sys2Proof.Machine.execArmSame t s
  | .disarm t late => Sys2Proof.Machine.execDisarm t late s
  | .armVisibleOpenBeat t => Sys2Proof.Machine.execArmVisibleOpenBeat t s
  | .matrixRow t => Sys2Proof.Machine.execMatrixRow t s
  | .vectorRow t => Sys2Proof.Machine.execVectorRow t s
  | .moveRow t => Sys2Proof.Machine.execMoveRow t s
  | .exchangeRow t => Sys2Proof.Machine.execExchangeRow t s
  | .anchorExchangeRow t => Sys2Proof.Machine.execAnchorExchangeRow t s
  | .waitRow t => Sys2Proof.Machine.execWaitRow t s
  | .waitConditionMet t => Sys2Proof.Machine.execWaitConditionMet t s
  | .markNote t => Sys2Proof.Machine.execMarkNote t s
  | .markExport t => Sys2Proof.Machine.execMarkExport t s
  | .markStamp t => Sys2Proof.Machine.execMarkStamp t s
  | .rowComplete t slot chk line => Sys2Proof.Machine.execRowComplete t slot chk line s
  | .exchangeAck t slot => Sys2Proof.Machine.execExchangeAck t slot s
  | .exchangePacketArrive n => Sys2Proof.Machine.execExchangePacketArrive n s
  | .heldPacketRelease t n => Sys2Proof.Machine.execHeldPacketRelease t n s
  | .anchorMaxCombine n => Sys2Proof.Machine.execAnchorMaxCombine n s
  | .valueAddCombine n => Sys2Proof.Machine.execValueAddCombine n s
  | .perfClr t => Sys2Proof.Machine.execPerfClr t s
  | .add c long rd rs rt => Sys2Proof.Machine.execAdd c long rd rs rt s
  | .sub c long rd rs rt => Sys2Proof.Machine.execSub c long rd rs rt s
  | .and c long rd rs rt => Sys2Proof.Machine.execAnd c long rd rs rt s
  | .or c long rd rs rt => Sys2Proof.Machine.execOr c long rd rs rt s
  | .xor c long rd rs rt => Sys2Proof.Machine.execXor c long rd rs rt s
  | .shl c long rd rs rt => Sys2Proof.Machine.execShl c long rd rs rt s
  | .shr c long rd rs rt => Sys2Proof.Machine.execShr c long rd rs rt s
  | .sar c long rd rs rt => Sys2Proof.Machine.execSar c long rd rs rt s
  | .cmplt c long rd rs rt => Sys2Proof.Machine.execCmplt c long rd rs rt s
  | .cmpltu c long rd rs rt => Sys2Proof.Machine.execCmpltu c long rd rs rt s
  | .mul c long rd rs rt => Sys2Proof.Machine.execMul c long rd rs rt s
  | .mulhi c rd rs rt => Sys2Proof.Machine.execMulhi c rd rs rt s
  | .mulhiu c rd rs rt => Sys2Proof.Machine.execMulhiu c rd rs rt s
  | .div c rd rs rt => Sys2Proof.Machine.execDiv c rd rs rt s
  | .divu c rd rs rt => Sys2Proof.Machine.execDivu c rd rs rt s
  | .rem c rd rs rt => Sys2Proof.Machine.execRem c rd rs rt s
  | .remu c rd rs rt => Sys2Proof.Machine.execRemu c rd rs rt s
  | .min c long rd rs rt => Sys2Proof.Machine.execMin c long rd rs rt s
  | .max c long rd rs rt => Sys2Proof.Machine.execMax c long rd rs rt s
  | .minu c rd rs rt => Sys2Proof.Machine.execMinu c rd rs rt s
  | .maxu c rd rs rt => Sys2Proof.Machine.execMaxu c rd rs rt s
  | .clz c rd rs => Sys2Proof.Machine.execClz c rd rs s
  | .popc c rd rs => Sys2Proof.Machine.execPopc c rd rs s
  | .madd c rd rs rt ru => Sys2Proof.Machine.execMadd c rd rs rt ru s
  | .addi c long rd rs imm => Sys2Proof.Machine.execAddi c long rd rs imm s
  | .movi c long rd imm => Sys2Proof.Machine.execMovi c long rd imm s
  | .andi c long rd rs imm => Sys2Proof.Machine.execAndi c long rd rs imm s
  | .ori c long rd rs imm => Sys2Proof.Machine.execOri c long rd rs imm s
  | .xori c rd rs imm => Sys2Proof.Machine.execXori c rd rs imm s
  | .cmplti c long rd rs imm => Sys2Proof.Machine.execCmplti c long rd rs imm s
  | .cmpltiu c rd rs imm => Sys2Proof.Machine.execCmpltiu c rd rs imm s
  | .shli c long rd rs imm => Sys2Proof.Machine.execShli c long rd rs imm s
  | .shri c long rd rs imm => Sys2Proof.Machine.execShri c long rd rs imm s
  | .sari c long rd rs imm => Sys2Proof.Machine.execSari c long rd rs imm s
  | .addsp c imm => Sys2Proof.Machine.execAddsp c imm s
  | .ldhi c rd imm => Sys2Proof.Machine.execLdhi c rd imm s
  | .pcrel c rd imm => Sys2Proof.Machine.execPcrel c rd imm s
  | .ldw c long rd rs imm => Sys2Proof.Machine.execLdw c long rd rs imm s
  | .stw c long rd rs imm => Sys2Proof.Machine.execStw c long rd rs imm s
  | .spwLoad c r off => Sys2Proof.Machine.execSpwLoad c r off s
  | .spwStore c r off => Sys2Proof.Machine.execSpwStore c r off s
  | .ldl c rd rs off => Sys2Proof.Machine.execLdl c rd rs off s
  | .ldls c rd rs off => Sys2Proof.Machine.execLdls c rd rs off s
  | .stl c rd rs off => Sys2Proof.Machine.execStl c rd rs off s
  | .ldf c rd rs imm => Sys2Proof.Machine.execLdf c rd rs imm s
  | .stf c rd rs imm => Sys2Proof.Machine.execStf c rd rs imm s
  | .atadd c rd rs rt => Sys2Proof.Machine.execAtadd c rd rs rt s
  | .atswap c rd rs rt => Sys2Proof.Machine.execAtswap c rd rs rt s
  | .atcas c rd rs rt ru => Sys2Proof.Machine.execAtcas c rd rs rt ru s
  | .blkld c rd rs rt ru upto => Sys2Proof.Machine.execBlkld c rd rs rt ru upto s
  | .blkst c rd rs rt ru upto => Sys2Proof.Machine.execBlkst c rd rs rt ru upto s
  | .wcopy c rd rs rt upto => Sys2Proof.Machine.execWcopy c rd rs rt upto s
  | .nop c => Sys2Proof.Machine.execNop c s
  | .mov c rd rs => Sys2Proof.Machine.execMov c rd rs s
  | .neg c rd rs => Sys2Proof.Machine.execNeg c rd rs s
  | .not c rd rs => Sys2Proof.Machine.execNot c rd rs s
  | .ret c => Sys2Proof.Machine.execRet c s
  | .callr c rs => Sys2Proof.Machine.execCallr c rs s
  | .jr c rs => Sys2Proof.Machine.execJr c rs s
  | .push c rs => Sys2Proof.Machine.execPush c rs s
  | .pop c rd => Sys2Proof.Machine.execPop c rd s
  | .fence c => Sys2Proof.Machine.execFence c s
  | .bcz c cond rs off => Sys2Proof.Machine.execBcz c cond rs off s
  | .br c off => Sys2Proof.Machine.execBr c off s
  | .cbeq c rd rs imm => Sys2Proof.Machine.execCbeq c rd rs imm s
  | .cbne c rd rs imm => Sys2Proof.Machine.execCbne c rd rs imm s
  | .cblt c rd rs imm => Sys2Proof.Machine.execCblt c rd rs imm s
  | .cbge c rd rs imm => Sys2Proof.Machine.execCbge c rd rs imm s
  | .cbltu c rd rs imm => Sys2Proof.Machine.execCbltu c rd rs imm s
  | .cbgeu c rd rs imm => Sys2Proof.Machine.execCbgeu c rd rs imm s
  | .j c imm => Sys2Proof.Machine.execJ c imm s
  | .call c imm => Sys2Proof.Machine.execCall c imm s
  | .mfs c rd info => Sys2Proof.Machine.execMfs c rd info s
  | .mts c rs info => Sys2Proof.Machine.execMts c rs info s
  | .msgvalPop c rd => Sys2Proof.Machine.execMsgvalPop c rd s
  | .ctrctlClr c rs => Sys2Proof.Machine.execCtrctlClr c rs s
  | .cwset c imm => Sys2Proof.Machine.execCwset c imm s
  | .cwclr c imm => Sys2Proof.Machine.execCwclr c imm s
  | .trap c imm => Sys2Proof.Machine.execTrap c imm s
  | .eret c => Sys2Proof.Machine.execEret c s
  | .wfi c => Sys2Proof.Machine.execWfi c s
  | .fadd c long rd rs rt => Sys2Proof.Machine.execFadd c long rd rs rt s
  | .fsub c long rd rs rt => Sys2Proof.Machine.execFsub c long rd rs rt s
  | .fmul c long rd rs rt => Sys2Proof.Machine.execFmul c long rd rs rt s
  | .fdiv c rd rs rt => Sys2Proof.Machine.execFdiv c rd rs rt s
  | .fsqrt c rd rs => Sys2Proof.Machine.execFsqrt c rd rs s
  | .fma c rd rs rt ru => Sys2Proof.Machine.execFma c rd rs rt ru s
  | .fmin c long rd rs rt => Sys2Proof.Machine.execFmin c long rd rs rt s
  | .fmax c long rd rs rt => Sys2Proof.Machine.execFmax c long rd rs rt s
  | .fneg c long rd rs => Sys2Proof.Machine.execFneg c long rd rs s
  | .fabs c long rd rs => Sys2Proof.Machine.execFabs c long rd rs s
  | .fcmp c rd rs rt => Sys2Proof.Machine.execFcmp c rd rs rt s
  | .fcvtfi c rd rs => Sys2Proof.Machine.execFcvtfi c rd rs s
  | .fcvtfu c rd rs => Sys2Proof.Machine.execFcvtfu c rd rs s
  | .fcvtif c rd rs => Sys2Proof.Machine.execFcvtif c rd rs s
  | .fcvtifr c rd rs => Sys2Proof.Machine.execFcvtifr c rd rs s
  | .fcvtuf c rd rs => Sys2Proof.Machine.execFcvtuf c rd rs s
  | .fpack c rd rs fmt sat => Sys2Proof.Machine.execFpack c rd rs fmt sat s
  | .funpack c rd rs fmt sat => Sys2Proof.Machine.execFunpack c rd rs fmt sat s
  | .tli c rd rs rt => Sys2Proof.Machine.execTli c rd rs rt s
  | .tliv c rd rs rt ru upto => Sys2Proof.Machine.execTliv c rd rs rt ru upto s
  | .trapEntry c n long tval => Sys2Proof.Machine.execTrapEntry c n long tval s
  | .interruptEntry c => Sys2Proof.Machine.execInterruptEntry c s
  | .timerExpire c => Sys2Proof.Machine.execTimerExpire c s
  | .msgInWrite src dst v => Sys2Proof.Machine.execMsgInWrite src dst v s
  | .cacheCtrlWrite t r v => Sys2Proof.Machine.execCacheCtrlWrite t r v s
  | .cacheInv t => Sys2Proof.Machine.execCacheInv t s
  | .cacheMissFill t a => Sys2Proof.Machine.execCacheMissFill t a s
  | .hbmApply => Sys2Proof.Machine.execHbmApply s
  | .hbmEccError a kind req => Sys2Proof.Machine.execHbmEccError a kind req s
  | .hbmRefresh st pc => Sys2Proof.Machine.execHbmRefresh st pc s
  | .reservedSlot st pc cal => Sys2Proof.Machine.execReservedSlot st pc cal s
  | .scrubOperation st pc fixed => Sys2Proof.Machine.execScrubOperation st pc fixed s
  | .opportunisticScrub st pc fixed => Sys2Proof.Machine.execOpportunisticScrub st pc fixed s
  | .idlePeriodTick => Sys2Proof.Machine.execIdlePeriodTick s
  | .furrowEn t k on => Sys2Proof.Machine.execFurrowEn t k on s
  | .furrowStop t k => Sys2Proof.Machine.execFurrowStop t k s
  | .furrowRequestIssue t pf => Sys2Proof.Machine.execFurrowRequestIssue t pf s
  | .furrowLineLand t k b info res => Sys2Proof.Machine.execFurrowLineLand t k b info res s
  | .placeValidWrite v => Sys2Proof.Machine.execPlaceValidWrite v s
  | .flitRx port bytes fixed => Sys2Proof.Machine.execFlitRx port bytes fixed s
  | .nakSymbol port fseq => Sys2Proof.Machine.execNakSymbol port fseq s
  | .creditSymbol port vc cum => Sys2Proof.Machine.execCreditSymbol port vc cum s
  | .lstateSymbol port mid of_ up seq => Sys2Proof.Machine.execLstateSymbol port mid of_ up seq s
  | .probeSend => Sys2Proof.Machine.execProbeSend s
  | .probeSymbol port target origin tag => Sys2Proof.Machine.execProbeSymbol port target origin tag s
  | .probeReply port target origin tag => Sys2Proof.Machine.execProbeReply port target origin tag s
  | .probeTimeout mid => Sys2Proof.Machine.execProbeTimeout mid s
  | .memberLost lost tree => Sys2Proof.Machine.execMemberLost lost tree s
  | .laneDropSymbol port mask confirm => Sys2Proof.Machine.execLaneDropSymbol port mask confirm s
  | .laneDeskewDone port => Sys2Proof.Machine.execLaneDeskewDone port s
  | .laneLockLost port lane => Sys2Proof.Machine.execLaneLockLost port lane s
  | .laneCeWindow port => Sys2Proof.Machine.execLaneCeWindow port s
  | .negSymbol port idx word => Sys2Proof.Machine.execNegSymbol port idx word s
  | .linkSignalDetect port => Sys2Proof.Machine.execLinkSignalDetect port s
  | .negotiationComplete port delay => Sys2Proof.Machine.execNegotiationComplete port delay s
  | .linkTimeout port => Sys2Proof.Machine.execLinkTimeout port s
  | .retrain port => Sys2Proof.Machine.execRetrain port s
  | .retrainTimeout port => Sys2Proof.Machine.execRetrainTimeout port s
  | .routeSwap => Sys2Proof.Machine.execRouteSwap s
  | .dvWrite n => Sys2Proof.Machine.execDvWrite n s
  | .dvExch n => Sys2Proof.Machine.execDvExch n s
  | .combineAnchor n => Sys2Proof.Machine.execCombineAnchor n s
  | .combineValue n => Sys2Proof.Machine.execCombineValue n s
  | .dvRead n => Sys2Proof.Machine.execDvRead n s
  | .dvReadResp n => Sys2Proof.Machine.execDvReadResp n s
  | .dvAck n => Sys2Proof.Machine.execDvAck n s
  | .dvPageWait n => Sys2Proof.Machine.execDvPageWait n s
  | .dvPageRetry n => Sys2Proof.Machine.execDvPageRetry n s
  | .dvNackErr n => Sys2Proof.Machine.execDvNackErr n s
  | .ackTimer src origin cn => Sys2Proof.Machine.execAckTimer src origin cn s
  | .rtoExpire origin cn => Sys2Proof.Machine.execRtoExpire origin cn s
  | .readRespTimeout origin cn psn => Sys2Proof.Machine.execReadRespTimeout origin cn psn s
  | .pageWaitTimeout src origin cn => Sys2Proof.Machine.execPageWaitTimeout src origin cn s
  | .pageResolved src origin cn => Sys2Proof.Machine.execPageResolved src origin cn s
  | .resendDelayExpire origin cn => Sys2Proof.Machine.execResendDelayExpire origin cn s
  | .frameRx p bytes fcs => Sys2Proof.Machine.execFrameRx p bytes fcs s
  | .sievePass p par => Sys2Proof.Machine.execSievePass p par s
  | .sieveGo mask cfg => Sys2Proof.Machine.execSieveGo mask cfg s
  | .sieveSwapComplete => Sys2Proof.Machine.execSieveSwapComplete s
  | .tableEnWrite t en units log2 => Sys2Proof.Machine.execTableEnWrite t en units log2 s
  | .snap info clr => Sys2Proof.Machine.execSnap info clr s
  | .portModeWrite m => Sys2Proof.Machine.execPortModeWrite m s
  | .portEnWrite v => Sys2Proof.Machine.execPortEnWrite v s
  | .ethPortUp p => Sys2Proof.Machine.execEthPortUp p s
  | .ethPortDown p => Sys2Proof.Machine.execEthPortDown p s
  | .ctxOpen k mr => Sys2Proof.Machine.execCtxOpen k mr s
  | .ctxClose k mr => Sys2Proof.Machine.execCtxClose k mr s
  | .ctxClear k mr => Sys2Proof.Machine.execCtxClear k mr s
  | .udpWrite q => Sys2Proof.Machine.execUdpWrite q s
  | .udpRead q => Sys2Proof.Machine.execUdpRead q s
  | .udpReadResp q => Sys2Proof.Machine.execUdpReadResp q s
  | .udpSend q => Sys2Proof.Machine.execUdpSend q s
  | .udpAck q => Sys2Proof.Machine.execUdpAck q s
  | .udpPageWait q => Sys2Proof.Machine.execUdpPageWait q s
  | .udpPageRetry q => Sys2Proof.Machine.execUdpPageRetry q s
  | .udpNackErr q => Sys2Proof.Machine.execUdpNackErr q s
  | .rtoExpireE k => Sys2Proof.Machine.execRtoExpireE k s
  | .roceSend q => Sys2Proof.Machine.execRoceSend q s
  | .roceRdmaWrite q => Sys2Proof.Machine.execRoceRdmaWrite q s
  | .roceRdmaReadRequest q => Sys2Proof.Machine.execRoceRdmaReadRequest q s
  | .roceReadResponse q => Sys2Proof.Machine.execRoceReadResponse q s
  | .roceAcknowledge q => Sys2Proof.Machine.execRoceAcknowledge q s
  | .roceCnp q => Sys2Proof.Machine.execRoceCnp q s
  | .roceRnrTimer k => Sys2Proof.Machine.execRoceRnrTimer k s
  | .schedDecision p => Sys2Proof.Machine.execSchedDecision p s
  | .egressEnqueue n => Sys2Proof.Machine.execEgressEnqueue n s
  | .frameTxDone p => Sys2Proof.Machine.execFrameTxDone p s
  | .shaperRefill => Sys2Proof.Machine.execShaperRefill s
  | .shpBurstWrite p q burst mode fill => Sys2Proof.Machine.execShpBurstWrite p q burst mode fill s
  | .policerPenWrite p m unit pen rate => Sys2Proof.Machine.execPolicerPenWrite p m unit pen rate s
  | .ringDoorbell fn r v => Sys2Proof.Machine.execRingDoorbell fn r v s
  | .doorbellSample fn r => Sys2Proof.Machine.execDoorbellSample fn r s
  | .eqDoorbell fn q v => Sys2Proof.Machine.execEqDoorbell fn q v s
  | .descriptorFetch fn r ds => Sys2Proof.Machine.execDescriptorFetch fn r ds s
  | .sendFrame fn r dma => Sys2Proof.Machine.execSendFrame fn r dma s
  | .postBuf fn r => Sys2Proof.Machine.execPostBuf fn r s
  | .xferWrite fn r dma => Sys2Proof.Machine.execXferWrite fn r dma s
  | .xferRead fn r => Sys2Proof.Machine.execXferRead fn r s
  | .xferSend fn r dma => Sys2Proof.Machine.execXferSend fn r dma s
  | .copy fn r n dma => Sys2Proof.Machine.execCopy fn r n dma s
  | .descriptorComplete fn r info => Sys2Proof.Machine.execDescriptorComplete fn r info s
  | .msixModTimer fn q => Sys2Proof.Machine.execMsixModTimer fn q s
  | .msixUnmask fn v masked addr data => Sys2Proof.Machine.execMsixUnmask fn v masked addr data s
  | .exportDeliver ch => Sys2Proof.Machine.execExportDeliver ch s
  | .mrDb count writes => Sys2Proof.Machine.execMrDb count writes s
  | .plotCreate => Sys2Proof.Machine.execPlotCreate s
  | .hbmGrant => Sys2Proof.Machine.execHbmGrant s
  | .ringCreate => Sys2Proof.Machine.execRingCreate s
  | .ringDestroy => Sys2Proof.Machine.execRingDestroy s
  | .ringReset => Sys2Proof.Machine.execRingReset s
  | .eqCreate => Sys2Proof.Machine.execEqCreate s
  | .eqDestroy => Sys2Proof.Machine.execEqDestroy s
  | .streamWrite => Sys2Proof.Machine.execStreamWrite s
  | .channelSet => Sys2Proof.Machine.execChannelSet s
  | .regionSet => Sys2Proof.Machine.execRegionSet s
  | .ctxWrite => Sys2Proof.Machine.execCtxWrite s
  | .dconnOpen => Sys2Proof.Machine.execDconnOpen s
  | .dconnClose => Sys2Proof.Machine.execDconnClose s
  | .plotQuiesce => Sys2Proof.Machine.execPlotQuiesce s
  | .quiesceTimeout p => Sys2Proof.Machine.execQuiesceTimeout p s
  | .plotFreeze => Sys2Proof.Machine.execPlotFreeze s
  | .plotSave => Sys2Proof.Machine.execPlotSave s
  | .plotRestore dma => Sys2Proof.Machine.execPlotRestore dma s
  | .plotResume => Sys2Proof.Machine.execPlotResume s
  | .plotRemove => Sys2Proof.Machine.execPlotRemove s
  | .mbDb p => Sys2Proof.Machine.execMbDb p s
  | .mbReplyDb p => Sys2Proof.Machine.execMbReplyDb p s
  | .flrPlot p => Sys2Proof.Machine.execFlrPlot p s
  | .flrPf0 => Sys2Proof.Machine.execFlrPf0 s
  | .vfDisable n => Sys2Proof.Machine.execVfDisable n s
  | .stashAttach ns => Sys2Proof.Machine.execStashAttach ns s
  | .stashDetach => Sys2Proof.Machine.execStashDetach s
  | .volumeSet => Sys2Proof.Machine.execVolumeSet s
  | .stashRescan mr found => Sys2Proof.Machine.execStashRescan mr found s
  | .stashIdentify => Sys2Proof.Machine.execStashIdentify s
  | .stashRead fn r => Sys2Proof.Machine.execStashRead fn r s
  | .stashWrite fn r => Sys2Proof.Machine.execStashWrite fn r s
  | .stashZero fn r => Sys2Proof.Machine.execStashZero fn r s
  | .stashFlush fn r => Sys2Proof.Machine.execStashFlush fn r s
  | .pieceSubmit d dma => Sys2Proof.Machine.execPieceSubmit d dma s
  | .pieceComplete cmd idx sct sc data par => Sys2Proof.Machine.execPieceComplete cmd idx sct sc data par s
  | .pieceTimeout cmd idx => Sys2Proof.Machine.execPieceTimeout cmd idx s
  | .abortTimeout d => Sys2Proof.Machine.execAbortTimeout d s
  | .driveFail d cause => Sys2Proof.Machine.execDriveFail d cause s
  | .driveReady d x => Sys2Proof.Machine.execDriveReady d x s
  | .stashModeWrite m => Sys2Proof.Machine.execStashModeWrite m s
  | .stashServiceFlushed => Sys2Proof.Machine.execStashServiceFlushed s
  | .gcmEnc c pay aad cut => Sys2Proof.Machine.execGcmEnc c pay aad cut s
  | .gcmDec c pay aad again cut => Sys2Proof.Machine.execGcmDec c pay aad again cut s
  | .gmacGen c pay cut => Sys2Proof.Machine.execGmacGen c pay cut s
  | .gmacVer c pay tag cut => Sys2Proof.Machine.execGmacVer c pay tag cut s
  | .cmacGen c pay cut => Sys2Proof.Machine.execCmacGen c pay cut s
  | .cmacVer c pay tag cut => Sys2Proof.Machine.execCmacVer c pay tag cut s
  | .cipherAssign => Sys2Proof.Machine.execCipherAssign s
  | .cipherComplete c parity => Sys2Proof.Machine.execCipherComplete c parity s
  | .cipherGo w => Sys2Proof.Machine.execCipherGo w s
  | .claim w => Sys2Proof.Machine.execClaim w s
  | .renew w => Sys2Proof.Machine.execRenew w s
  | .release w => Sys2Proof.Machine.execRelease w s
  | .lockExpire => Sys2Proof.Machine.execLockExpire s
  | .sign w => Sys2Proof.Machine.execSign w s
  | .labelSet => Sys2Proof.Machine.execLabelSet s
  | .spdmRelay => Sys2Proof.Machine.execSpdmRelay s
  | .getVersion req => Sys2Proof.Machine.execGetVersion req s
  | .getCapabilities req => Sys2Proof.Machine.execGetCapabilities req s
  | .negotiateAlgorithms req => Sys2Proof.Machine.execNegotiateAlgorithms req s
  | .getDigests req => Sys2Proof.Machine.execGetDigests req s
  | .getCertificate req => Sys2Proof.Machine.execGetCertificate req s
  | .challenge req => Sys2Proof.Machine.execChallenge req s
  | .getMeasurements req => Sys2Proof.Machine.execGetMeasurements req s
  | .spdmUnsupported req => Sys2Proof.Machine.execSpdmUnsupported req s
  | .faultReport x => Sys2Proof.Machine.execFaultReport x s
  | .replayDrainDone t => Sys2Proof.Machine.execReplayDrainDone t s
  | .spareCopyDone t e => Sys2Proof.Machine.execSpareCopyDone t e s
  | .seedlingRun t ok => Sys2Proof.Machine.execSeedlingRun t ok s
  | .greenhouseRotate => Sys2Proof.Machine.execGreenhouseRotate s
  | .greenhouseResult kind idx piece pass => Sys2Proof.Machine.execGreenhouseResult kind idx piece pass s
  | .digestRound => Sys2Proof.Machine.execDigestRound s
  | .digestCompare m => Sys2Proof.Machine.execDigestCompare m s
  | .sweepEnd m => Sys2Proof.Machine.execSweepEnd m s
  | .mirrorWrite m => Sys2Proof.Machine.execMirrorWrite m s
  | .mirrorSync => Sys2Proof.Machine.execMirrorSync s
  | .spareArmTimeout => Sys2Proof.Machine.execSpareArmTimeout s
  | .checkpointTrigger => Sys2Proof.Machine.execCheckpointTrigger s
  | .cutMessage m => Sys2Proof.Machine.execCutMessage m s
  | .dedupAssign m => Sys2Proof.Machine.execDedupAssign m s
  | .cowHold a => Sys2Proof.Machine.execCowHold a s
  | .cowCopyDone c ns => Sys2Proof.Machine.execCowCopyDone c ns s
  | .imageHeld m => Sys2Proof.Machine.execImageHeld m s
  | .checkpointDurable m => Sys2Proof.Machine.execCheckpointDurable m s
  | .checkpointFail cause mid => Sys2Proof.Machine.execCheckpointFail cause mid s
  | .mulchCheckpoint => Sys2Proof.Machine.execMulchCheckpoint s
  | .mulchRestore => Sys2Proof.Machine.execMulchRestore s
  | .mulchCancel => Sys2Proof.Machine.execMulchCancel s
  | .suppressSet => Sys2Proof.Machine.execSuppressSet s
  | .restoreEnd cause image refs => Sys2Proof.Machine.execRestoreEnd cause image refs s
  | .countFrameSend => Sys2Proof.Machine.execCountFrameSend s
  | .countRefresh => Sys2Proof.Machine.execCountRefresh s
  | .countFrame bad => Sys2Proof.Machine.execCountFrame bad s
  | .ackFrameRx bad => Sys2Proof.Machine.execAckFrameRx bad s
  | .energySample es range => Sys2Proof.Machine.execEnergySample es range s
  | .intervalClose => Sys2Proof.Machine.execIntervalClose s
  | .recordFrameSend => Sys2Proof.Machine.execRecordFrameSend s
  | .recordFrameRx bad => Sys2Proof.Machine.execRecordFrameRx bad s
  | .overflowReadback => Sys2Proof.Machine.execOverflowReadback s
  | .meterHoldWrite v => Sys2Proof.Machine.execMeterHoldWrite v s
  | .clReset => Sys2Proof.Machine.execClReset s
  | .vclLow => Sys2Proof.Machine.execVclLow s
  | .clocheRestart cfw => Sys2Proof.Machine.execClocheRestart cfw s
  | .clProgEn word => Sys2Proof.Machine.execClProgEn word s
  | .hubAoResetRelease rs temp bad => Sys2Proof.Machine.execHubAoResetRelease rs temp bad s
  | .mainImageVerified bad => Sys2Proof.Machine.execMainImageVerified bad s
  | .fuseRetry rs temp bad => Sys2Proof.Machine.execFuseRetry rs temp bad s
  | .recoveryReboot rs temp bad => Sys2Proof.Machine.execRecoveryReboot rs temp bad s
  | .compartmentRestart c vector busy => Sys2Proof.Machine.execCompartmentRestart c vector busy s
  | .fwWrite => Sys2Proof.Machine.execFwWrite s
  | .fwVerify bad => Sys2Proof.Machine.execFwVerify bad s
  | .liveUpdate => Sys2Proof.Machine.execLiveUpdate s
  | .bootSelect bad => Sys2Proof.Machine.execBootSelect bad s
  | .timeSet => Sys2Proof.Machine.execTimeSet s
  | .handoverSafePoint ok => Sys2Proof.Machine.execHandoverSafePoint ok s
  | .iwDataRead r met => Sys2Proof.Machine.execIwDataRead r met s
  | .iwDataWrite r v met => Sys2Proof.Machine.execIwDataWrite r v met s
  | .coreHoldWrite r k v => Sys2Proof.Machine.execCoreHoldWrite r k v s
  | .hubMain bad => Sys2Proof.Machine.execHubMain bad s
  | .halfHoldWrite w e => Sys2Proof.Machine.execHalfHoldWrite w e s
  | .hostInterfaceReset => Sys2Proof.Machine.execHostInterfaceReset s
  | .mrst low bad => Sys2Proof.Machine.execMrst low bad s
  | .pwrokFall => Sys2Proof.Machine.execPwrokFall s
  | .mainRailFault => Sys2Proof.Machine.execMainRailFault s
  | .hubAoPowerValid => Sys2Proof.Machine.execHubAoPowerValid s
  | .mctpControl inst cmd data => Sys2Proof.Machine.execMctpControl inst cmd data s
  | .getTid inst => Sys2Proof.Machine.execGetTid inst s
  | .getPldmTypes inst => Sys2Proof.Machine.execGetPldmTypes inst s
  | .getPldmVersion inst ty => Sys2Proof.Machine.execGetPldmVersion inst ty s
  | .getPldmCommands inst ty => Sys2Proof.Machine.execGetPldmCommands inst ty s
  | .getPdr inst handle => Sys2Proof.Machine.execGetPdr inst handle s
  | .getSensorReading inst id => Sys2Proof.Machine.execGetSensorReading inst id s
  | .pollForPlatformEventMessage inst ack => Sys2Proof.Machine.execPollForPlatformEventMessage inst ack s
  | .readEvents start => Sys2Proof.Machine.execReadEvents start s
  | .sensorUpdate vals => Sys2Proof.Machine.execSensorUpdate vals s
  | .safeStateQuery => Sys2Proof.Machine.execSafeStateQuery s
  | .flowSample a b => Sys2Proof.Machine.execFlowSample a b s
  | .flowFaultDeadline => Sys2Proof.Machine.execFlowFaultDeadline s
  | .thermalTrip cause => Sys2Proof.Machine.execThermalTrip cause s
  | .powerWindow watts => Sys2Proof.Machine.execPowerWindow watts s
  | .thermalSample west east hbm => Sys2Proof.Machine.execThermalSample west east hbm s
  | .powerSet => Sys2Proof.Machine.execPowerSet s
  | .powerGet => Sys2Proof.Machine.execPowerGet s
  | .pcieLinkTrained rate width flit => Sys2Proof.Machine.execPcieLinkTrained rate width flit s
  | .vfEnable n => Sys2Proof.Machine.execVfEnable n s
  | .clocheAliveLapse => Sys2Proof.Machine.execClocheAliveLapse s
  | .tapClock testEn tms tdi pins => Sys2Proof.Machine.execTapClock testEn tms tdi pins s

end Sys2Proof.Machine
end

