-- ==== Sys2Proof/Machine/Step.lean ====
section
/-!
DEFINITION. One step: the command at the front of the queue, or a cycle of the reference clock when none waits.
-/
namespace Sys2Proof.Machine

/-- The command in front is taken from the queue and runs on the state with the queue's rest. With no command waiting, one
cycle of the 100 MHz reference passes (log entry 4). -/
def step (s : State) : Host.Outcome State Fault Refusal :=
  match s.pending with
  | [] => .next s.refTick
  | c :: rest => exec c { s with pending := rest }

/-- The state with the command that a table word spells in front of the queue. -/
def State.withFetchWord (s : State) (nbits w : Nat) : State :=
  match decodeTableWord nbits w with
  | none => s
  | some c => { s with pending := c :: s.pending }

end Sys2Proof.Machine
end

