-- ==== Sys2Proof/Safety.lean ====
section
/-!
DEFINITION. What a safe state is, in the terms the statements use.
-/
namespace Sys2Proof.Machine

/-- The memory and the register file keep their canonical form. -/
def State.Inv (s : State) : Prop := s.mem.wf = true ∧ Cells.wf s.regs = true

end Sys2Proof.Machine
end

