-- ==== Sys2Proof/Certificates/Slice0/Obligations.lean ====
section
/-!
DEFINITION. The statements for the provers, and the terms they are written in.
-/
namespace Sys2Proof.Machine

/-! ## Terms: Ohmette-36 -/

/-- The core that an instruction belongs to and whether its encoding is long; none for the commands of other units. -/
def ohmOf : Instr → Option (CoreId × Bool)
  | .add c l _ _ _ | .sub c l _ _ _ | .and c l _ _ _ | .or c l _ _ _ | .xor c l _ _ _ | .shl c l _ _ _ | .shr c l _ _ _
  | .sar c l _ _ _ | .cmplt c l _ _ _ | .cmpltu c l _ _ _ | .mul c l _ _ _ | .min c l _ _ _ | .max c l _ _ _
  | .addi c l _ _ _ | .movi c l _ _ | .andi c l _ _ _ | .ori c l _ _ _ | .cmplti c l _ _ _ | .shli c l _ _ _
  | .shri c l _ _ _ | .sari c l _ _ _ | .ldw c l _ _ _ | .stw c l _ _ _ | .fadd c l _ _ _ | .fsub c l _ _ _
  | .fmul c l _ _ _ | .fmin c l _ _ _ | .fmax c l _ _ _ | .fneg c l _ _ | .fabs c l _ _ => some (c, l)
  | .mulhi c _ _ _ | .mulhiu c _ _ _ | .div c _ _ _ | .divu c _ _ _ | .rem c _ _ _ | .remu c _ _ _ | .minu c _ _ _
  | .maxu c _ _ _ | .clz c _ _ | .popc c _ _ | .madd c _ _ _ _ | .xori c _ _ _ | .cmpltiu c _ _ _ | .addsp c _
  | .ldhi c _ _ | .pcrel c _ _ | .ldf c _ _ _ | .stf c _ _ _
  | .atadd c _ _ _ | .atswap c _ _ _ | .atcas c _ _ _ _ | .blkld c _ _ _ _ _ | .blkst c _ _ _ _ _ | .wcopy c _ _ _ _
  | .cbeq c _ _ _ | .cbne c _ _ _ | .cblt c _ _ _ | .cbge c _ _ _ | .cbltu c _ _ _ | .cbgeu c _ _ _ | .j c _ | .call c _
  | .mfs c _ _ | .mts c _ _ | .msgvalPop c _ | .ctrctlClr c _ | .cwset c _ | .cwclr c _ | .trap c _ | .eret c | .wfi c
  | .fdiv c _ _ _ | .fsqrt c _ _ | .fma c _ _ _ _ | .fcmp c _ _ _ | .fcvtfi c _ _ | .fcvtfu c _ _ | .fcvtif c _ _
  | .fcvtifr c _ _ | .fcvtuf c _ _ | .fpack c _ _ _ _ | .funpack c _ _ _ _ | .tli c _ _ _ | .tliv c _ _ _ _ _ => some (c, true)
  | .spwLoad c _ _ | .spwStore c _ _ | .nop c | .mov c _ _ | .neg c _ _ | .not c _ _ | .ret c | .callr c _ | .jr c _
  | .push c _ | .pop c _ | .fence c | .bcz c _ _ _ | .br c _ => some (c, false)
  | .ldl c _ _ o | .ldls c _ _ o | .stl c _ _ o => some (c, o.isLong)
  | _ => none

/-- Core c runs its next instruction: it executes, no interrupt is due, it does not wait in WFI without an enabled source, and
the fetch of its halves is permitted. -/
def Ready (s : State) (c : CoreId) (long : Bool) : Prop :=
  s.coreRuns c = true ∧ (s.core c).interrupt = none ∧ ((s.core c).waiting && (s.core c).enabledSource.isNone) = false ∧
    (s.core c).fetchBad long = false

/-- The core as the body of a restartable instruction finds it. -/
def State.awake (s : State) (c : CoreId) : Core := { s.core c with waiting := false }

/-- The core as the body of any other instruction finds it: cw.CV is consumed (R180). -/
def State.begun (s : State) (c : CoreId) : Core := (s.awake c).cwClear 0x004

/-- The instruction of core c retires and leaves the registers k: RETIRED counts, and the PC passes its halves. -/
def State.retired (s : State) (c : CoreId) (long : Bool) (k : Core) : State :=
  s.setCore c { k.count 1 1 with pc := k.pc + (if long then 2 else 1) }

/-- A branch, jump, call or return of core c retires, leaves the registers k, and goes to a half. MISPRED and WPFETCH count by a free
value (log entry 121). -/
def State.goes (s : State) (c : CoreId) (k : Core) (pc : BitVec 19) : State :=
  let x := s.predicted (k.count 1 1)
  x.1.setCore c { x.2 with pc := pc }

/-- An instruction with an external access of core c retires, and leaves the registers k. STALLX counts by a free value (log entry 121). -/
def State.accessedAs (s : State) (c : CoreId) (long : Bool) (k : Core) : State :=
  let x := s.stall k.accessed
  x.1.retired c long x.2

/-- Instruction i of core c retires with rd = v, and nothing else changes. -/
def Sets (i : Instr) (s : State) (c : CoreId) (long : Bool) (rd : Nat) (v : Word36) : Prop :=
  exec i s = .next (s.retired c long ((s.begun c).set rd v))

/-- Instruction i of core c retires with rd = the number x, and the flags f join the sticky flags of cw. -/
def SetsF (i : Instr) (s : State) (c : CoreId) (long : Bool) (rd x : Nat) (f : FFlags) : Prop :=
  exec i s = .next (s.retired c long (((s.begun c).set rd (BitVec.ofNat 36 x)).cwSet (BitVec.ofNat 36 f.word)))

/-! ## Terms: the management ring and descriptors -/

/-- The front request of the management ring: it lies in the slot, has the OP, and is zero outside the fields. -/
def Asked (s : State) (op : Nat) (fields : List (Nat × Nat)) (slot : Nat) (q : List Byte) : Prop :=
  s.mrFront = some (slot, q) ∧ fieldAt q 0 1 = op ∧ reqZero q fields = true

/-- Command i answers the request of the slot with a STATUS and a response, in the state that its effect has left. -/
def Answers (i : Instr) (s t : State) (slot status : Nat) (res : List Byte) : Prop :=
  exec i s = .next (t.mrReply slot status res)

/-- The next descriptor of ring r of a function, to be started, is d; it has the kind and the OP, and the host interface is up. -/
def Begins (s : State) (fn r kind op : Nat) (g : Ring) (d : Desc) : Prop :=
  s.ring fn r = some g ∧ g.nextDesc = some d ∧ g.kind = kind ∧ s.hostUp = true ∧ fieldAt d.bytes 0 1 = op

/-- The state in which descriptor d of a ring has started. -/
def State.started (s : State) (fn r : Nat) (g : Ring) (d : Desc) : State :=
  s.setRing fn r (g.setDesc { d with started := true })

end Sys2Proof.Machine

open Sys2Proof Sys2Proof.Machine

/-! ## Ohmette-36 -/

/-- R154, R183-R186, R182, R199: what comes before any instruction of a core. A core that does not execute changes nothing; an
interrupt that is due is taken in the instruction's place; a core in WFI without an enabled source stays; a fetch beyond private
memory or denied takes FETCH with the PC as TVAL. -/
def Obligations.OhmBoundary : Prop :=
  ∀ (i : Instr) (s : State) (c : CoreId) (long : Bool), ohmOf i = some (c, long) →
    (s.coreRuns c = false → exec i s = .next s) ∧
    (s.coreRuns c = true → ∀ n, (s.core c).interrupt = some n →
      exec i s = .next (s.setCore c ((s.core c).takeInterrupt n (s.rg Rg.beat_BEATNO)))) ∧
    (s.coreRuns c = true → (s.core c).interrupt = none → (s.core c).waiting = true → (s.core c).enabledSource = none →
      exec i s = .next s) ∧
    (s.coreRuns c = true → (s.core c).interrupt = none → ((s.core c).waiting && (s.core c).enabledSource.isNone) = false →
      (s.core c).fetchBad long = true → exec i s = .next (s.trap c (s.awake c) 3 long ((s.core c).pc.setWidth 36)))

/-- R164, R169, R170: sums, logic and moves of 36-bit words, modulo 2^36; FENCE retires where no posted store waits, and else
stays. -/
def Clauses.OhmSumLogicMove : Prop :=
  ∀ (s : State) (c : CoreId) (l : Bool) (rd rs rt : Nat), Ready s c l → let k := s.begun c
    Sets (.add c l rd rs rt) s c l rd (k.get rs + k.get rt) ∧ Sets (.sub c l rd rs rt) s c l rd (k.get rs - k.get rt) ∧
    Sets (.and c l rd rs rt) s c l rd (k.get rs &&& k.get rt) ∧ Sets (.or c l rd rs rt) s c l rd (k.get rs ||| k.get rt) ∧
    Sets (.xor c l rd rs rt) s c l rd (k.get rs ^^^ k.get rt) ∧
    (l = false → Sets (.mov c rd rs) s c l rd (k.get rs) ∧ Sets (.neg c rd rs) s c l rd (0 - k.get rs) ∧
      Sets (.not c rd rs) s c l rd (~~~k.get rs) ∧ exec (.nop c) s = .next (s.retired c l k) ∧
      (k.heldStores = [] → exec (.fence c) s = .next (s.retired c l k)) ∧ (k.heldStores ≠ [] → exec (.fence c) s = .next (s.setCore c k)))

/-- R169, R170, R174: shifts take the low six bits of the amount, and amounts from 36 give 0, or copies of bit 35; compares give
1 or 0; minima and maxima. -/
def Clauses.OhmShiftCompare : Prop :=
  ∀ (s : State) (c : CoreId) (l : Bool) (rd rs rt : Nat), Ready s c l → let k := s.begun c
    Sets (.shl c l rd rs rt) s c l rd (BitVec.ofNat 36 ((k.get rs).toNat * 2 ^ ((k.get rt).toNat % 64))) ∧
    Sets (.shr c l rd rs rt) s c l rd (BitVec.ofNat 36 ((k.get rs).toNat / 2 ^ ((k.get rt).toNat % 64))) ∧
    Sets (.sar c l rd rs rt) s c l rd (BitVec.ofInt 36 ((k.get rs).toInt / 2 ^ ((k.get rt).toNat % 64))) ∧
    Sets (.cmplt c l rd rs rt) s c l rd (if (k.get rs).toInt < (k.get rt).toInt then 1 else 0) ∧
    Sets (.cmpltu c l rd rs rt) s c l rd (if (k.get rs).toNat < (k.get rt).toNat then 1 else 0) ∧
    Sets (.min c l rd rs rt) s c l rd (BitVec.ofInt 36 (min (k.get rs).toInt (k.get rt).toInt)) ∧
    Sets (.max c l rd rs rt) s c l rd (BitVec.ofInt 36 (max (k.get rs).toInt (k.get rt).toInt)) ∧
    (l = true → Sets (.minu c rd rs rt) s c l rd (BitVec.ofNat 36 (min (k.get rs).toNat (k.get rt).toNat)) ∧
      Sets (.maxu c rd rs rt) s c l rd (BitVec.ofNat 36 (max (k.get rs).toNat (k.get rt).toNat)))

/-- R170, R174: products, quotients and remainders; a zero divisor and the overflow of a division give the stated words, set IQF
and trap nothing; leading zeros and one bits. -/
def Clauses.OhmMulDivCount : Prop :=
  ∀ (s : State) (c : CoreId) (l : Bool) (rd rs rt ru : Nat), Ready s c l → let k := s.begun c
    let a := k.get rs
    let b := k.get rt
    let ovfl : Prop := a.toInt = -(2 ^ 35) ∧ b.toInt = -1
    Sets (.mul c l rd rs rt) s c l rd (BitVec.ofNat 36 (a.toNat * b.toNat)) ∧
    (l = true →
      Sets (.madd c rd rs rt ru) s c l rd (BitVec.ofNat 36 (a.toNat * b.toNat + (k.get ru).toNat)) ∧
      Sets (.mulhi c rd rs rt) s c l rd (BitVec.ofInt 36 (a.toInt * b.toInt / 2 ^ 36)) ∧
      Sets (.mulhiu c rd rs rt) s c l rd (BitVec.ofNat 36 (a.toNat * b.toNat / 2 ^ 36)) ∧
      (b ≠ 0 → ¬ovfl → Sets (.div c rd rs rt) s c l rd (BitVec.ofInt 36 (a.toInt.tdiv b.toInt)) ∧
        Sets (.rem c rd rs rt) s c l rd (BitVec.ofInt 36 (a.toInt.tmod b.toInt))) ∧
      (b ≠ 0 → Sets (.divu c rd rs rt) s c l rd (BitVec.ofNat 36 (a.toNat / b.toNat)) ∧
        Sets (.remu c rd rs rt) s c l rd (BitVec.ofNat 36 (a.toNat % b.toNat))) ∧
      (ovfl → exec (.div c rd rs rt) s = .next (s.retired c l ((k.set rd (BitVec.ofNat 36 (2 ^ 35 - 1))).cwSet 0x200)) ∧
        exec (.rem c rd rs rt) s = .next (s.retired c l ((k.set rd 0).cwSet 0x200))) ∧
      (b = 0 → ∀ i ∈ [Instr.div c rd rs rt, .divu c rd rs rt, .rem c rd rs rt, .remu c rd rs rt],
        exec i s = .next (s.retired c l ((k.set rd 0).cwSet 0x200))) ∧
      Sets (.popc c rd rs) s c l rd (BitVec.ofNat 36 ((List.range 36).countP (fun n => a.getLsbD n))) ∧
      ∃ z : Word36, Sets (.clz c rd rs) s c l rd z ∧ z.toNat ≤ 36 ∧ a.toNat < 2 ^ (36 - z.toNat) ∧
        (z.toNat < 36 → 2 ^ (35 - z.toNat) ≤ a.toNat))

/-- Integer instructions on registers: sums, logic, moves, shifts, compares, products, divisions, counts: the statements above
together. -/
def Obligations.OhmRegisterInstructions : Prop :=
  Clauses.OhmSumLogicMove ∧ Clauses.OhmShiftCompare ∧ Clauses.OhmMulDivCount

/-- R169, R170: the immediate forms; short immediates have 8 bits, long ones 16 or 21. -/
def Obligations.OhmImmediate : Prop :=
  ∀ (s : State) (c : CoreId) (l : Bool) (rd rs imm : Nat), Ready s c l → let k := s.begun c
    let a := k.get rs
    Sets (.addi c l rd rs imm) s c l rd (a + BitVec.ofInt 36 (sext (if l then 16 else 8) imm)) ∧
    Sets (.movi c l rd imm) s c l rd (BitVec.ofInt 36 (sext (if l then 21 else 8) imm)) ∧
    Sets (.andi c l rd rs imm) s c l rd (a &&& BitVec.ofNat 36 imm) ∧
    Sets (.ori c l rd rs imm) s c l rd (a ||| BitVec.ofNat 36 imm) ∧
    Sets (.cmplti c l rd rs imm) s c l rd
      (if a.toInt < (BitVec.ofInt 36 (sext (if l then 16 else 8) imm)).toInt then 1 else 0) ∧
    (imm < 64 → Sets (.shli c l rd rs imm) s c l rd (BitVec.ofNat 36 (a.toNat * 2 ^ imm)) ∧
      Sets (.shri c l rd rs imm) s c l rd (BitVec.ofNat 36 (a.toNat / 2 ^ imm)) ∧
      Sets (.sari c l rd rs imm) s c l rd (BitVec.ofInt 36 (a.toInt / 2 ^ imm))) ∧
    (l = true → Sets (.xori c rd rs imm) s c l rd (a ^^^ BitVec.ofNat 36 imm) ∧
      Sets (.cmpltiu c rd rs imm) s c l rd
        (if a.toNat < (BitVec.ofInt 36 (sext 16 imm)).toNat then 1 else 0) ∧
      Sets (.ldhi c rd imm) s c l rd (BitVec.ofNat 36 (imm * 2 ^ 15)) ∧
      Sets (.pcrel c rd imm) s c l rd (BitVec.ofInt 36 (k.pc.toNat + sext 21 imm)) ∧
      exec (.addsp c imm) s = .next (s.retired c l { k with sp := k.sp + BitVec.ofInt 36 (sext 16 imm) }))

/-- R159, R169, R171, R177, R184, R199: loads and stores of private memory, the stack, calls and returns. A denied word takes
PMEM_ACCESS with its address, a stack at its limit STACK with sp, and neither changes memory or sp. -/
def Obligations.OhmPrivateMemory : Prop :=
  ∀ (s : State) (c : CoreId) (l : Bool) (rd rs imm : Nat), Ready s c l → let k := s.begun c
    let a := k.get rs + (if l then BitVec.ofInt 36 (sext 16 imm) else BitVec.ofNat 36 imm)
    let b := k.sp + BitVec.ofNat 36 imm
    let p := k.sp - 1
    let load (i : Instr) (x : Word36) : Prop :=
      (k.pmOk x 18 = true → Sets i s c l rd (k.pmRead c x.toNat)) ∧ (k.pmOk x 18 = false → exec i s = .next (s.trap c k 4 l x))
    let store (i : Instr) (x : Word36) : Prop :=
      (k.pmOk x 19 = true → exec i s = .next (s.retired c l (k.pmWrite x.toNat (k.get rd)))) ∧
      (k.pmOk x 19 = false → exec i s = .next (s.trap c k 4 l x))
    let push (i : Instr) (v : Word36) (go : Core → State) : Prop :=
      (k.sp.toNat ≤ k.splim.toNat → exec i s = .next (s.trap c k 7 l k.sp)) ∧
      (k.splim.toNat < k.sp.toNat → k.pmOk p 19 = false → exec i s = .next (s.trap c k 4 l p)) ∧
      (k.splim.toNat < k.sp.toNat → k.pmOk p 19 = true → exec i s = .next (go ({ k with sp := p }.pmWrite p.toNat v)))
    let pop (i : Instr) (go : Core → Word36 → State) : Prop :=
      (k.sptop.toNat ≤ k.sp.toNat → exec i s = .next (s.trap c k 7 l k.sp)) ∧
      (k.sp.toNat < k.sptop.toNat → k.pmOk k.sp 18 = false → exec i s = .next (s.trap c k 4 l k.sp)) ∧
      (k.sp.toNat < k.sptop.toNat → k.pmOk k.sp 18 = true →
        exec i s = .next (go { k with sp := k.sp + 1 } (k.pmRead c k.sp.toNat)))
    load (.ldw c l rd rs imm) a ∧ store (.stw c l rd rs imm) a ∧
    (l = false → load (.spwLoad c rd imm) b ∧ store (.spwStore c rd imm) b ∧
      push (.push c rs) (k.get rs) (s.retired c l) ∧ pop (.pop c rd) (fun k v => s.retired c l (k.set rd v)) ∧
      push (.callr c rs) ((k.pc + 1).setWidth 36) (fun k => s.goes c k ((k.get rs).setWidth 19)) ∧
      pop (.ret c) (fun k v => s.goes c k (v.setWidth 19))) ∧
    (l = true → push (.call c imm) ((k.pc + 2).setWidth 36) (fun k' => s.goes c k' (BitVec.ofInt 19 (k.pc.toNat + sext 21 imm))))

/-- R169, R172: branches and jumps; offsets count halves from the branch itself. -/
def Obligations.OhmBranch : Prop :=
  ∀ (s : State) (c : CoreId) (l : Bool) (rd rs imm : Nat), Ready s c l → let k := s.begun c
    let a := k.get rd
    let b := k.get rs
    let br (i : Instr) (n : Nat) (p : Prop) : Prop :=
      (p → exec i s = .next (s.goes c k (BitVec.ofInt 19 (k.pc.toNat + sext n imm)))) ∧
      (¬p → exec i s = .next (s.goes c k (k.pc + (if l then 2 else 1))))
    (l = false →
      br (.bcz c 0 rs imm) 8 (b.toInt = 0) ∧ br (.bcz c 1 rs imm) 8 (b.toInt ≠ 0) ∧ br (.bcz c 2 rs imm) 8 (b.toInt < 0) ∧
      br (.bcz c 3 rs imm) 8 (0 ≤ b.toInt) ∧ br (.bcz c 4 rs imm) 8 (0 < b.toInt) ∧ br (.bcz c 5 rs imm) 8 (b.toInt ≤ 0) ∧
      br (.br c imm) 14 True ∧ exec (.jr c rs) s = .next (s.goes c k (b.setWidth 19))) ∧
    (l = true →
      br (.cbeq c rd rs imm) 16 (a = b) ∧ br (.cbne c rd rs imm) 16 (a ≠ b) ∧ br (.cblt c rd rs imm) 16 (a.toInt < b.toInt) ∧
      br (.cbge c rd rs imm) 16 (b.toInt ≤ a.toInt) ∧ br (.cbltu c rd rs imm) 16 (a.toNat < b.toNat) ∧
      br (.cbgeu c rd rs imm) 16 (b.toNat ≤ a.toNat) ∧ br (.j c imm) 21 True)

/-- R129, R136, R173, R175, R176: the F36 instructions write the rounded result of the operation and accumulate its flags;
minima, maxima, signs and FUNPACK raise none; comparison gives 0, 1, 2 or 3; integers wrap into rd. -/
def Clauses.OhmFloatPart : Prop :=
  ∀ (s : State) (c : CoreId) (l : Bool) (rd rs rt ru fmt : Nat) (sat : Bool), Ready s c l →
    let a := ((s.begun c).get rs).toNat
    let b := ((s.begun c).get rt).toNat
    let d := ((s.begun c).get ru).toNat
    let put (i : Instr) (x : Nat × FFlags) : Prop := SetsF i s c l rd x.1 x.2
    let int (i : Instr) (x : Int × FFlags) : Prop := SetsF i s c l rd (x.1 % 2 ^ 36).toNat x.2
    put (.fadd c l rd rs rt) (add36 a b) ∧ put (.fsub c l rd rs rt) (sub36 a b) ∧ put (.fmul c l rd rs rt) (mul36 a b) ∧
    put (.fmin c l rd rs rt) (min36 a b, {}) ∧ put (.fmax c l rd rs rt) (max36 a b, {}) ∧
    put (.fneg c l rd rs) (neg36 a, {}) ∧ put (.fabs c l rd rs) (abs36 a, {}) ∧
    (l = true →
      put (.fdiv c rd rs rt) (div36 a b) ∧ put (.fsqrt c rd rs) (sqrt36 a) ∧ put (.fma c rd rs rt ru) (fma36 a b d) ∧
      put (.fcmp c rd rs rt) (cmp36 a b, { inv := decide (cmp36 a b = 3) }) ∧
      put (.fcvtfi c rd rs) (ofInt36 (sext 36 a)) ∧ put (.fcvtfu c rd rs) (ofInt36 a) ∧
      int (.fcvtif c rd rs) (toInt36 false (-(2 ^ 35)) (2 ^ 35 - 1) a) ∧
      int (.fcvtifr c rd rs) (toInt36 true (-(2 ^ 35)) (2 ^ 35 - 1) a) ∧
      int (.fcvtuf c rd rs) (toInt36 false 0 (2 ^ 36 - 1) a) ∧
      put (.fpack c rd rs fmt sat) (pack36 fmt sat a) ∧ put (.funpack c rd rs fmt sat) (unpack36 fmt a, {}))

/-- R136, R173, R175: laws of F36 arithmetic: sums and products commute; the sign of a value that is not a NaN inverts twice to
itself; x − y is x + (−y); integers below 2^28 in magnitude convert exactly and come back. -/
def Clauses.FloatArithmetic : Prop :=
  (∀ x y, add36 x y = add36 y x ∧ mul36 x y = mul36 y x) ∧
  (∀ x, x < 2 ^ 36 → dec36 x ≠ .nan → neg36 (neg36 x) = x ∧ abs36 (neg36 x) = abs36 x) ∧
  (∀ x y, dec36 x ≠ .nan → dec36 y ≠ .nan → sub36 x y = add36 x (neg36 y)) ∧
  (∀ i : Int, -(2 ^ 28) < i → i < 2 ^ 28 → (ofInt36 i).2 = {} ∧
    ∀ nearest, toInt36 nearest (-(2 ^ 35)) (2 ^ 35 - 1) (ofInt36 i).1 = (i, {}))

/-- F36 instructions and laws of F36 arithmetic: the statements above together. -/
def Obligations.OhmFloat : Prop :=
  Clauses.OhmFloatPart ∧ Clauses.FloatArithmetic

/-- R178, R179: table interpolation of one word, and the restartable forms when they run to their end from the start: every word
of the range is copied or interpolated, in ascending order, cont becomes 0 and the instruction retires. Counts from 2^24 and a
destination inside the source range take OPERAND and change no memory. -/
def Obligations.OhmTableAndCopy : Prop :=
  ∀ (s : State) (c : CoreId) (rd rs rt ru : Nat), Ready s c true → let k := s.begun c
    let n := (k.get rd).toNat
    let src := k.get rs
    let dst := k.get rt
    let T := (k.get ru).toNat
    let at_ (x : Word36) (i : Nat) : Word36 := x + BitVec.ofNat 36 i
    let overlap : Prop := src.toNat < dst.toNat ∧ dst.toNat < src.toNat + n
    let writes (f : Core → Nat → Word36) : Nat → Core
      := fun m => (List.range m).foldl (fun k i => k.pmWrite (at_ dst i).toNat (f k i)) k
    let done (k' : Core) : State := s.retired c true { k' with cont := 0 }
    let bad (v : Word36) : State :=
      s.trap c { s.awake c with cw := (s.awake c).cw &&& ~~~(0x004 : Word36), cont := BitVec.ofNat 36 (s.awake c).resumeAt } 2 true v
    (k.headBad c (k.get rt).toNat = false → k.tableDenied c (k.get rt).toNat = none →
      Sets (.tli c rd rs rt) s c true rd (BitVec.ofNat 36 (k.interp c (k.get rt).toNat (k.get rs).toNat))) ∧
    (k.headBad c (k.get rt).toNat = true →
      exec (.tli c rd rs rt) s = .next (s.trap c k 2 true (k.pmRead c ((k.get rt).toNat + 2)))) ∧
    (n < 2 ^ 24 → ¬overlap → (s.core c).cv = false →
      (∀ i, i < n → k.pmOk (at_ src i) 18 = true ∧ k.pmOk (at_ dst i) 19 = true) →
      exec (.wcopy c rd rs rt n) s = .next (done (writes (fun k i => k.pmRead c (at_ src i).toNat) n)) ∧
      (k.headBad c T = false →
        (∀ i, i < n → (writes (fun k i => BitVec.ofNat 36 (k.interp c T (k.pmRead c (at_ src i).toNat).toNat)) i).tableDenied c T = none) →
        exec (.tliv c rd rs rt ru n) s =
          .next (done (writes (fun k i => BitVec.ofNat 36 (k.interp c T (k.pmRead c (at_ src i).toNat).toNat)) n)))) ∧
    (2 ^ 24 ≤ n → ∀ upto, exec (.wcopy c rd rs rt upto) s = .next (bad (k.get rd)) ∧
      exec (.tliv c rd rs rt ru upto) s = .next (bad (k.get rd))) ∧
    (n < 2 ^ 24 → ¬overlap → k.headBad c T = true → ∀ upto,
      exec (.tliv c rd rs rt ru upto) s = .next (bad (k.pmRead c (T + 2)))) ∧
    (n < 2 ^ 24 → overlap → ∀ upto, exec (.wcopy c rd rs rt upto) s = .next (bad dst) ∧
      exec (.tliv c rd rs rt ru upto) s = .next (bad dst))

/-- R156-R158, R172, R182-R184, R197: reads and writes of system registers. A reserved index takes EMULATE and, in compartment
mode, one not marked user takes PRIV, each with the instruction as TVAL. The RZ bits of CW and CONT read free. -/
def Clauses.OhmSystemRegistersPart : Prop :=
  ∀ (s : State) (c : CoreId) (rd rs i : Nat), Ready s c true → let k := s.begun c
    let v := k.get rs
    let rdEnc := encLI 0xE 0x20 rd 0 i
    let wrEnc := encLI 0xE 0x21 0 rs i
    (sysNamed i = false → exec (.mfs c rd i) s = .next (s.trap c k 1 true rdEnc) ∧
      exec (.mts c rs i) s = .next (s.trap c k 1 true wrEnc)) ∧
    (sysNamed i = true → k.compartment = true → sysUser i = false → exec (.mfs c rd i) s = .next (s.trap c k 8 true rdEnc) ∧
      exec (.mts c rs i) s = .next (s.trap c k 8 true wrEnc)) ∧
    (k.compartment = true → exec (.mts c rs 0x11) s = .next (s.trap c k 8 true (encLI 0xE 0x21 0 rs 0x11))) ∧
    (∀ p ∈ [(0x00, BitVec.ofNat 36 (featureOf c)), (0x10, k.sp)], Sets (.mfs c rd p.1) s c true rd p.2) ∧
    (∀ p ∈ [(0x11, k.cw, cwMask), (0x12, k.cont, contMask)], ∃ x : Word36,
      exec (.mfs c rd p.1) s = .next (s.drawn.retired c true (k.set rd x)) ∧ x &&& p.2.2 = p.2.1 &&& p.2.2) ∧
    (k.compartment = false →
      (∀ p ∈ [(0x20, k.epc), (0x21, k.ecw), (0x22, k.econt), (0x23, k.cause), (0x24, k.tval), (0x25, k.vbase), (0x26, k.ienable),
          (0x28, k.splim), (0x29, k.sptop), (0x2A, k.timer), (0x2C, BitVec.ofNat 36 (k.fnCode + k.fnSeq * 2 ^ 20)), (0x2D, k.fnData),
          (0x30, k.hbmwin), (0x40, BitVec.ofNat 36 (ofBool k.ctrEn)), (0x41, BitVec.ofNat 36 (k.ctrWrap + k.ctrWrapSeq * 2 ^ 20)),
          (0x70, k.extallow)],
        Sets (.mfs c rd p.1) s c true rd p.2) ∧
      Sets (.mfs c rd 0x27) s c true rd (BitVec.ofNat 36 (ofBool k.beatPend * 2 ^ 16 +
        ofBool (k.timerSet && k.timer == 0) * 2 ^ 17 + ofBool (decide (k.msgs ≠ [])) * 2 ^ 18 + ofBool k.fnPend * 2 ^ 19 +
        ofBool k.beatLost * 2 ^ 20)) ∧
      (∀ j, j < 4 → Sets (.mfs c rd (0x38 + j)) s c true rd (k.scratch.getD 0 j)) ∧
      (∀ j, j < 8 → Sets (.mfs c rd (0x60 + 2 * j)) s c true rd (k.rgnBase.getD 0 j) ∧
        Sets (.mfs c rd (0x61 + 2 * j)) s c true rd (k.rgnLim.getD 0 j)) ∧
      (∀ m t, k.msgs = m :: t → exec (.msgvalPop c rd) s = .next (s.retired c true ({ k with msgs := t }.set rd (m.setWidth 36)))) ∧
      (k.msgs = [] → Sets (.msgvalPop c rd) s c true rd 0)) ∧
    (∀ j, j < 5 → exec (.mfs c rd (0x42 + 2 * j)) s =
        .next (s.retired c true ({ k with ctrLatch := k.ctrLatch.set 0 j (k.ctr.getD 0 j / 2 ^ 36) }.set rd
          (BitVec.ofNat 36 (k.ctr.getD 0 j)))) ∧
      Sets (.mfs c rd (0x43 + 2 * j)) s c true rd (BitVec.ofNat 36 (k.ctrLatch.getD 0 j))) ∧
    exec (.mts c rs 0x10) s = .next (s.retired c true { k with sp := v }) ∧
    exec (.mts c rs 0x12) s = .next (s.retired c true { k with cont := v &&& 0xFFFFFF }) ∧
    (k.compartment = false →
      (∀ p ∈ [(0x11, { k with cw := v &&& 0x3FF }), (0x20, { k with epc := v }), (0x21, { k with ecw := v }),
          (0x22, { k with econt := v }), (0x23, k), (0x24, k), (0x25, { k with vbase := v }), (0x26, { k with ienable := v }),
          (0x28, { k with splim := v }), (0x29, { k with sptop := v }), (0x2A, { k with timer := v, timerSet := true }),
          (0x30, { k with hbmwin := v }), (0x70, { k with extallow := v }),
          (0x27, { k with beatLost := k.beatLost && !v.getLsbD 20 }),
          (0x2C, if v.toNat / 2 ^ 20 = k.fnSeq then { k with fnPend := false, fnCode := 0 } else k),
          (0x41, if v.toNat / 2 ^ 20 = k.ctrWrapSeq then { k with ctrWrap := 0 } else k)],
        exec (.mts c rs p.1) s = .next (s.retired c true p.2)) ∧
      (∀ j, j < 4 → exec (.mts c rs (0x38 + j)) s = .next (s.retired c true { k with scratch := k.scratch.set 0 j v })) ∧
      (∀ j, j < 8 →
        exec (.mts c rs (0x60 + 2 * j)) s = .next (s.retired c true { k with rgnBase := k.rgnBase.set 0 j v }) ∧
        exec (.mts c rs (0x61 + 2 * j)) s = .next (s.retired c true { k with rgnLim := k.rgnLim.set 0 j v })) ∧
      exec (.ctrctlClr c rs) s = .next (s.retired c true { k with ctrEn := v.getLsbD 0, ctr := [], ctrWrap := 0 }))

/-- R161, R186, R199: a write to MSG_IN joins the queue of a core in service that holds fewer than 8 messages; a core that writes has
the range of the target and, in compartment mode, its EXTALLOW bit. A refused write gives a core EXT_ACCESS with the address, and any
other requester an error response. -/
def Clauses.OhmMessages : Prop :=
  ∀ (s : State) (src : Req) (dst : CoreId) (v : Nat),
    let up : Bool := match dst with
      | .tile t => s.tileUp t
      | .hub n => decide (n < 16) && !s.hubMainReset
    let may : Prop := match src with
      | .core w => ∃ n, msgRange w dst = some n ∧ ((s.core w).compartment = false ∨ (s.core w).extallow.getLsbD n = true)
      | _ => True
    let room : Prop := may ∧ up = true ∧ (s.core dst).msgs.length < 8
    (room → exec (.msgInWrite src dst v) s =
      .next (s.setCore dst { s.core dst with msgs := (s.core dst).msgs ++ [BitVec.ofNat 32 v] })) ∧
    (¬room → match src with
      | .core w => exec (.msgInWrite src dst v) s = .next (s.trap w (s.core w) 5 false (BitVec.ofNat 36 (msgAddr w dst)))
      | r => exec (.msgInWrite src dst v) s = .next (s.emit (.writeError r)))

/-- Reads and writes of system registers, and messages to cores: the statements above together. -/
def Obligations.OhmSystemRegisters : Prop :=
  Clauses.OhmSystemRegistersPart ∧ Clauses.OhmMessages

/-- R157, R172, R183, R186: CWSET and CWCLR change the named bits of cw; TRAP takes vector 9 with its immediate; ERET restores
the PC, cw and cont that the entry saved; WFI retires and waits exactly where no pending source is enabled. The privileged ones
take PRIV in compartment mode. -/
def Clauses.OhmControl : Prop :=
  ∀ (s : State) (c : CoreId) (imm : Nat), Ready s c true → let k := s.begun c
    let allowed : Prop := k.compartment = false ∨ imm % 16 = 0
    (allowed → exec (.cwset c imm) s = .next (s.retired c true { k with cw := k.cw ||| (BitVec.ofNat 36 imm &&& 0x3FF) }) ∧
      exec (.cwclr c imm) s = .next (s.retired c true { k with cw := k.cw &&& ~~~(BitVec.ofNat 36 imm &&& 0x3FF) })) ∧
    (¬allowed → exec (.cwset c imm) s = .next (s.trap c k 8 true (encLI 0xE 0x22 0 0 imm)) ∧
      exec (.cwclr c imm) s = .next (s.trap c k 8 true (encLI 0xE 0x23 0 0 imm))) ∧
    exec (.trap c imm) s = .next (s.trap c k 9 true (BitVec.ofNat 36 imm)) ∧
    (k.compartment = false →
      exec (.eret c) s = .next (s.goes c { k with cw := k.ecw &&& 0x3FF, cont := k.econt &&& 0xFFFFFF } (k.epc.setWidth 19)) ∧
      exec (.wfi c) s = .next (s.retired c true { k with waiting := k.enabledSource.isNone })) ∧
    (k.compartment = true → exec (.eret c) s = .next (s.trap c k 8 true (encLR 0xE 0x29 0 0 0 0)) ∧
      exec (.wfi c) s = .next (s.trap c k 8 true (encLR 0xE 0x2A 0 0 0 0)) ∧
      ∀ rs, exec (.ctrctlClr c rs) s = .next (s.trap c k 8 true (encLI 0xE 0x21 0 rs 0x40)))

/-- R160, R182-R187: what entry saves and where it goes. A trap of vector n with TL 0 saves PC, cw and cont, sets CAUSE and TVAL,
clears IE, MODE and CV, sets TL, clears cont and continues 16 n halves above VBASE with its low nine bits ignored; with TL 1 the
core stops and is reported; WPFETCH counts by a free value (log entry 121). EMULATE has a reserved encoding as its TVAL; PARITY
reports the word, and one in another word than the instruction's consumes CV first. No vector beyond 10 is entered so. An interrupt
that is due is entered the same way; with none due nothing changes. -/
def Clauses.OhmEntry : Prop :=
  ∀ (s : State) (c : CoreId) (n : Nat) (long : Bool) (tval : Word36), let k := s.core c
    let entered (k' : Core) (code : Nat) (v : Nat) (tv : Word36) : Core := { k' with
      epc := k.pc.setWidth 36, ecw := k.cw, econt := k.cont, cause := BitVec.ofNat 36 code, tval := tv,
      cw := (k.cw &&& ~~~(0x7 : Word36)) ||| 0x8, cont := 0, pc := BitVec.ofNat 19 (k.vbase.toNat / 512 * 512 + 16 * v),
      waiting := false }
    let x := s.discarded k
    let awake : Core := { k with waiting := false }
    (s.coreRuns c = true → k.interrupt = none → (k.waiting && k.enabledSource.isNone) = false →
      (0 < n → n < 10 → (n = 1 → ohmLong tval.toNat = long ∧ decodeOhm c 0 tval.toNat = none ∧ (long = false → tval.toNat < 2 ^ 18)) →
        (k.tl = false → exec (.trapEntry c n long tval) s = .next (x.1.setCore c (entered x.2 (n + 64 * ofBool long) n tval))) ∧
        (k.tl = true → exec (.trapEntry c n long tval) s =
          .next ((x.1.setCore c { x.2 with waiting := false, stopped := true }).detect (.coreFault c n k.pc.toNat tval.toNat)))) ∧
      (let own : Prop := tval.toNat = k.pc.toNat / 2 ∨ (long = true ∧ tval.toNat = (k.pc.toNat + 1) / 2)
       (own → exec (.trapEntry c 10 long tval) s = .next ((s.detect (.coreParity c tval.toNat)).trap c awake 10 long tval)) ∧
       (¬own → exec (.trapEntry c 10 long tval) s =
         .next ((s.detect (.coreParity c tval.toNat)).trap c { awake with cw := k.cw &&& ~~~(0x004 : Word36) } 10 long tval))) ∧
      (n = 0 ∨ 10 < n → exec (.trapEntry c n long tval) s = .next s)) ∧
    (s.coreRuns c = true → ∀ i, k.interrupt = some i →
      exec (.interruptEntry c) s = .next (s.setCore c (entered (if i = 0 then { k with beatPend := false } else k) (16 + i + 32) (16 + i)
        (BitVec.ofNat 36 (if i = 0 then s.rg Rg.beat_BEATNO else if i = 3 then k.fnCode else 0))))) ∧
    (k.interrupt = none → exec (.interruptEntry c) s = .next s) ∧
    exec (.timerExpire c) s = .next (s.setCore c { k with timer := 0, timerSet := true })

/-- R166-R173, R187: decoding. MAJ of the first half alone fixes the width, and a short form ignores what stands above it; an encoding
names at most one instruction, of the core that fetched it and of that width, and one whose operands are well formed. -/
def Clauses.OhmDecoding : Prop :=
  ∀ (c : CoreId) (upto w : Nat) (i : Instr),
    (ohmLong w = true ↔ 0xC ≤ w / 2 ^ 14 % 16) ∧ (ohmLong w = false → decodeOhm c upto w = decodeOhm c upto (w % 2 ^ 18)) ∧
    (decodeOhm c upto w = some i → ohmOf i = some (c, ohmLong w)) ∧
    ((∃ t, c = .tile t ∧ t < 256) ∨ (∃ h, c = .hub h ∧ h < 16) → upto < 2 ^ 24 → decodeOhm c upto w = some i → i.wf = true)

/-- Control of cw, TRAP, ERET, WFI, what trap and interrupt entry save, and what an encoding names: the statements above together. -/
def Obligations.OhmControlAndEntry : Prop :=
  Clauses.OhmControl ∧ Clauses.OhmEntry ∧ Clauses.OhmDecoding

/-- R163-R165, R169, R171, R176, R181: lane loads, stores and atomics. The access acts on the state that holds the core with CV
consumed; where it is done, the load's lane goes to rd and the instruction retires; where it waits, so does the core, and where it
fails, the core takes the vector of the failure with the byte address. Short forms count lanes, long ones bytes. -/
def Clauses.OhmLanes : Prop :=
  ∀ (s : State) (c : CoreId) (rd rs rt ru imm : Nat) (o : LaneOff), let k := s.begun c
    let s0 := s.setCore c k
    let offset : LaneOff → Word36
      | .short n => BitVec.ofNat 36 (4 * n)
      | .long m => BitVec.ofInt 36 (sext 16 m)
    let at_ (o : LaneOff) : Nat := (k.get rs + offset o).toNat
    let done (l : Bool) (s' : State) (f : Core → Core) : State := s'.accessedAs c l (f (s'.core c))
    let waits (ks : List Nat) (op : Option LaneOp) : State :=
      s.setCore c { k with extWait := true, waitLanes := ks, waitOp := op, served := [] }
    let failed (l : Bool) (n addr : Nat) : State := s.trap c { k.accessed with extFail := false } n l (BitVec.ofNat 36 addr)
    (∀ p ∈ [(Instr.ldl c rd rs o, o, fun v => BitVec.ofNat 36 v), (.ldls c rd rs o, o, fun v => BitVec.ofInt 36 (sext 32 v)),
        (.ldf c rd rs imm, .long imm, fun v => BitVec.ofNat 36 (v % 2 ^ 32 * 16))], Ready s c p.2.1.isLong →
      (∀ s' v, s0.extLoad c k (at_ p.2.1) = .ok s' v → (s'.core c).pmStamp = k.pmStamp →
        exec p.1 s = .next (done p.2.1.isLong s' (fun k => k.set rd (p.2.2 v)))) ∧
      (∀ ks, s0.extLoad c k (at_ p.2.1) = .wait ks → exec p.1 s = .next (waits ks none)) ∧
      (∀ n, s0.extLoad c k (at_ p.2.1) = .fail n → exec p.1 s = .next (failed p.2.1.isLong n (at_ p.2.1)))) ∧
    (let x := pack36 0xA false (k.get rd).toNat
     ∀ p ∈ [(Instr.stl c rd rs o, o, (k.get rd).toNat % 2 ^ 32, fun (k : Core) => k),
        (.stf c rd rs imm, .long imm, x.1, fun (k : Core) => k.cwSet (BitVec.ofNat 36 x.2.word))], Ready s c p.2.1.isLong →
      (∀ s' v, s0.extStore c k (at_ p.2.1) p.2.2.1 false = .ok s' v → (s'.core c).pmStamp = k.pmStamp →
        exec p.1 s = .next (done p.2.1.isLong s' p.2.2.2)) ∧
      (∀ ks, s0.extStore c k (at_ p.2.1) p.2.2.1 false = .wait ks → exec p.1 s = .next (waits ks none)) ∧
      (∀ n, s0.extStore c k (at_ p.2.1) p.2.2.1 false = .fail n → exec p.1 s = .next (failed p.2.1.isLong n (at_ p.2.1)))) ∧
    (Ready s c true → let b := (k.get rs).toNat
     let old36 (old : Nat) (k : Core) : Core := k.set rd (BitVec.ofNat 36 old)
     (b % 4 = 0 → extAtomic c k b = true → s0.atomicWaits c k b = false → ∀ s1 old, s0.extRead c k b false = .ok s1 old →
      (k.waitOp = none →
        (∀ s2 v, s1.extStore c (s1.core c) b ((old + (k.get rt).toNat) % 2 ^ 32) false = .ok s2 v → (s2.core c).pmStamp = k.pmStamp →
          exec (.atadd c rd rs rt) s = .next (done true s2 (old36 old))) ∧
        (∀ s2 v, s1.extStore c (s1.core c) b ((k.get rt).toNat % 2 ^ 32) false = .ok s2 v → (s2.core c).pmStamp = k.pmStamp →
          exec (.atswap c rd rs rt) s = .next (done true s2 (old36 old))) ∧
        (old = (k.get rt).toNat % 2 ^ 32 → ∀ s2 v, s1.extStore c (s1.core c) b ((k.get ru).toNat % 2 ^ 32) false = .ok s2 v →
          (s2.core c).pmStamp = k.pmStamp → exec (.atcas c rd rs rt ru) s = .next (done true s2 (old36 old))) ∧
        (old ≠ (k.get rt).toNat % 2 ^ 32 → s0.extBad c k b true = false → (s1.core c).pmStamp = k.pmStamp →
          exec (.atcas c rd rs rt ru) s = .next (done true s1 (old36 old)))) ∧
      (∀ p ∈ [(Instr.atadd c rd rs rt, LaneOp.add (k.get rt).toNat), (.atswap c rd rs rt, .swap ((k.get rt).toNat % 2 ^ 32)),
          (.atcas c rd rs rt ru, .cas ((k.get rt).toNat % 2 ^ 32) ((k.get ru).toNat % 2 ^ 32))],
        k.waitOp = some p.2 → ((sliceLane c k b).bind k.servedLane).isSome = true → (s1.core c).pmStamp = k.pmStamp →
          exec p.1 s = .next (done true s1 (old36 old)))) ∧
     (b % 4 ≠ 0 → ∀ i ∈ [Instr.atadd c rd rs rt, .atswap c rd rs rt, .atcas c rd rs rt ru], exec i s = .next (failed true 2 b)))

/-- R163-R165, R171, R176, R201, R202: a lane of the tile core's own slice, outside every output window of the running table, with no
posted store waiting: a load takes its committed bytes, a store writes them, and an atomic does both. -/
def Clauses.OhmOwnSlice : Prop :=
  ∀ (s : State) (t rd rs rt ru imm : Nat) (o : LaneOff), let c : CoreId := .tile t
    let k := s.begun c
    let s0 := s.setCore c k
    let offset : LaneOff → Word36
      | .short n => BitVec.ofNat 36 (4 * n)
      | .long m => BitVec.ofInt 36 (sext 16 m)
    let at_ (o : LaneOff) : Nat := (k.get rs + offset o).toNat
    let free (a : Nat) : Prop := a % 4 = 0 ∧ a < 2 ^ 24 ∧ a + 4 ≤ 32 * s.sliceLines t ∧ s.winWaits t (.slice t (a / 32)) = false ∧
      k.heldStores = [] ∧ k.served = [] ∧ k.waitOp = none ∧ (k.compartment = false ∨ k.extallow.getLsbD 0 = true)
    let old (a : Nat) : Nat := leNat (s.committedSlice t a 4)
    Cells.wf s.cores = true →
    (∀ p ∈ [(Instr.ldl c rd rs o, o, fun v => BitVec.ofNat 36 v), (.ldls c rd rs o, o, fun v => BitVec.ofInt 36 (sext 32 v)),
        (.ldf c rd rs imm, .long imm, fun v => BitVec.ofNat 36 (v * 16))], Ready s c p.2.1.isLong → free (at_ p.2.1) →
      exec p.1 s = .next (s0.accessedAs c p.2.1.isLong (k.set rd (p.2.2 (old (at_ p.2.1)))))) ∧
    (let x := pack36 0xA false (k.get rd).toNat
     ∀ p ∈ [(Instr.stl c rd rs o, o, (k.get rd).toNat % 2 ^ 32, k),
        (.stf c rd rs imm, .long imm, x.1, k.cwSet (BitVec.ofNat 36 x.2.word))], Ready s c p.2.1.isLong → free (at_ p.2.1) →
      exec p.1 s = .next ((s0.writeN (kSlice t (at_ p.2.1)) 4 p.2.2.1).accessedAs c p.2.1.isLong p.2.2.2)) ∧
    (Ready s c true → let b := (k.get rs).toNat
     let v := old b
     free b →
     (∀ p ∈ [(Instr.atadd c rd rs rt, (v + (k.get rt).toNat) % 2 ^ 32), (.atswap c rd rs rt, (k.get rt).toNat % 2 ^ 32)],
       exec p.1 s = .next ((s0.writeN (kSlice t b) 4 p.2).accessedAs c true (k.set rd (BitVec.ofNat 36 v)))) ∧
     exec (.atcas c rd rs rt ru) s = .next ((if v = (k.get rt).toNat % 2 ^ 32 then
       s0.writeN (kSlice t b) 4 ((k.get ru).toNat % 2 ^ 32) else s0).accessedAs c true (k.set rd (BitVec.ofNat 36 v))))

/-- R179-R181: the block instructions when they run to their end from the start. Where the operands break no rule and every
granule in turn is carried out, BLKLD and BLKST leave what the last granule left, cont becomes 0 and the instruction retires;
operands that break a rule take OPERAND. -/
def Clauses.OhmBlock : Prop :=
  ∀ (s : State) (c : CoreId) (rd rs rt ru upto : Nat), Ready s c true → let k := s.begun c
    let d := k.get rd
    let n := d.toNat % 2 ^ 24
    let fmt := d.toNat / 2 ^ 24 % 16
    let g := blkGranule fmt
    let runs (elem : State → Core → Nat → State × Core × Option (Option (Nat × Word36))) (f : Nat → State × Core) : Prop :=
      f 0 = (s, k) ∧ ∀ j, j * g < n → ∃ k', elem (f j).1 (f j).2 (j * g) = ((f (j + 1)).1, k', none) ∧
        (f (j + 1)).2 = { k' with extWait := false }
    let end_ (f : Nat → State × Core) : State :=
      let x := (f (n / g)).1.stall { (f (n / g)).2 with cont := 0 }
      x.1.retired c true x.2
    let bad (v : Word36) : State :=
      s.trap c { s.awake c with cw := (s.awake c).cw &&& ~~~(0x004 : Word36), cont := BitVec.ofNat 36 (s.awake c).resumeAt } 2 true v
    (blkBad d (k.get rs) (k.get ru) = none → (s.core c).cv = false → n ≤ upto * g →
      ∀ f, runs (blkldElem c fmt (k.get rs) (k.get rt) (k.get ru)) f → exec (.blkld c rd rs rt ru upto) s = .next (end_ f)) ∧
    (blkBad d (k.get rt) (k.get ru) = none → (s.core c).cv = false → n ≤ upto * g →
      ∀ f, runs (blkstElem c fmt (bitN d.toNat 28) (k.get rs) (k.get rt) (k.get ru)) f →
        exec (.blkst c rd rs rt ru upto) s = .next (end_ f)) ∧
    (∀ v, blkBad d (k.get rs) (k.get ru) = some v → exec (.blkld c rd rs rt ru upto) s = .next (bad v)) ∧
    (∀ v, blkBad d (k.get rt) (k.get ru) = some v → exec (.blkst c rd rs rt ru upto) s = .next (bad v)) ∧
    (∀ a b : Word36, 2 ^ 29 ≤ d.toNat ∨ 10 < fmt ∨ n % g ≠ 0 → blkBad d a b = some d)

/-- Lane loads, stores, atomics and block transfers: the statements above together. -/
def Obligations.OhmLanesAndBlocks : Prop :=
  Clauses.OhmLanes ∧ Clauses.OhmOwnSlice ∧ Clauses.OhmBlock

/-- R156-R159, R163, R164: the frame of the instructions that touch one core: whatever state they leave, only registers and
private memory of that core, the list of detections and the count of free values have changed, so every byte of every addressed memory
reads as before. -/
def Clauses.OhmCoreFrame : Prop :=
  ∀ (i : Instr) (s t : State) (c : CoreId) (long : Bool), ohmOf i = some (c, long) →
    (∀ rd rs rt ru imm up o, i ∉ [.ldl c rd rs o, .ldls c rd rs o, .stl c rd rs o, .ldf c rd rs imm, .stf c rd rs imm,
      .atadd c rd rs rt, .atswap c rd rs rt, .atcas c rd rs rt ru, .blkld c rd rs rt ru up, .blkst c rd rs rt ru up]) →
    exec i s = .next t →
      (t = s ∨ ∃ k ds n, n ≤ 1 ∧
        t = { s with cores := s.cores.set {} (coreKey c) k, detections := s.detections ++ ds, freeCtr := s.freeCtr + n }) ∧
      ∀ a, t.mem.byte a = s.mem.byte a

/-- R163-R165, R171, R200: the frame of the lane instructions in memory. A load changes no byte of a slice, hub SRAM or HBM. A
store or an atomic whose lane lies in a store slice changes no byte outside the four bytes of that lane; one whose lane lies in
HBM none outside the places of its four bytes; one in hub SRAM none outside its four. -/
def Clauses.OhmLaneFrame : Prop :=
  ∀ (i : Instr) (s t : State) (c : CoreId) (l : Bool) (rd rs rt ru imm : Nat) (o : LaneOff) (x : Nat), ohmOf i = some (c, l) →
    Ready s c l → exec i s = .next t →
    let k := s.begun c
    let short (n : Nat) : Nat := (k.get rs + BitVec.ofNat 36 (4 * n)).toNat
    let long (m : Nat) : Nat := (k.get rs + BitVec.ofInt 36 (sext 16 m)).toNat
    let load : Prop := i ∈ [Instr.ldl c rd rs o, .ldls c rd rs o, .ldf c rd rs imm]
    let lane : Prop := i ∈ [Instr.ldl c rd rs o, .ldls c rd rs o, .stl c rd rs o]
    let atom : Prop := i ∈ [Instr.atadd c rd rs rt, .atswap c rd rs rt, .atcas c rd rs rt ru]
    let at_ (a n : Nat) (e : ExtAt) : Prop := extAt c k a = some (n, e) ∧
      ((lane ∧ ((∃ n, o = .short n ∧ a = short n) ∨ (∃ m, o = .long m ∧ a = long m))) ∨
        (i ∈ [Instr.ldf c rd rs imm, .stf c rd rs imm] ∧ a = long imm) ∨ (atom ∧ a = (k.get rs).toNat))
    (∀ a n u o, at_ a n (.slice u o) → (load ∨ x < kSlice u o ∨ kSlice u o + 4 ≤ x) → t.mem.byte x = s.mem.byte x) ∧
    (∀ a n o, at_ a n (.hub o) → (load ∨ x < kHub o ∨ kHub o + 4 ≤ x) → t.mem.byte x = s.mem.byte x) ∧
    (s.Inv → ∀ a n o, at_ a n (.hbm o) → (load ∨ ∀ j, j < 4 → s.hbmKey (o + j) ≠ some x) → t.mem.byte x = s.mem.byte x)

/-- The frames of the core instructions: registers, private memory and addressed memory: the statements above together. -/
def Obligations.OhmFrames : Prop :=
  Clauses.OhmCoreFrame ∧ Clauses.OhmLaneFrame

/-! ## Register accesses -/

/-- R20, R22, R538, R555: a write that the requester may make of a register of a block without fields of other behaviour. Every
RW field that the word reaches takes the bits the word carries for it (for the set, clear and toggle images what they make of
the register's own word), unless they are a reserved code or outside a stated range (log entry 109); every field that the word does not reach keeps its value, and nothing
but the register file changes. -/
def Clauses.RegisterWriteAndAliases : Prop :=
  ∀ (s : State) (r : Req) (off : Nat) (v : BitVec 32), s.Inv → s.mayAccess r .cloche 0 off = true →
    named (blkFlds .cloche) 0 off = true →
    ∀ p ∈ [(Instr.registerWrite r .cloche 0 off v, 0), (.aliasSet r .cloche 0 off v, 1), (.aliasClear r .cloche 0 off v, 2),
        (.aliasToggle r .cloche 0 off v, 3)],
      ∃ t, exec p.1 s = .next t ∧ t = { s with regs := t.regs } ∧
        let x := s.carriedWord { req := r, blk := .cloche, unit := 0, off := off, v := v.toNat, image := p.2 }
        (∀ f ∈ blkFlds .cloche, f.acc = .rw → ∀ i hi, f.at? 0 off = some (i, hi) → ∀ b, b < f.nb →
          t.rg f (i + b) =
            (let c := f.carried hi b (s.rg f (i + b)) x
             if f.takes c = true then c % 2 ^ f.w else s.rg f (i + b))) ∧
        (∀ (g : Fld) (j : Nat), j < 2 ^ 20 → (∀ f ∈ blkFlds .cloche, f.id = g.id → f.at? 0 off = none) → t.rg g j = s.rg g j)

/-- R538: the set image ORs, the clear image clears and the toggle image inverts the bits of the register's RW word; the
register itself takes the word. -/
def Clauses.AliasWords : Prop :=
  ∀ (s : State) (r : Req) (b : Blk) (unit off v : Nat),
    let w (im : Nat) : RegWr := { req := r, blk := b, unit := unit, off := off, v := v, image := im }
    let old := s.wordOf ((blkFlds b).filter (fun f => f.acc == .rw)) unit off
    s.carriedWord (w 0) = v ∧ s.carriedWord (w 1) = old ||| v ∧ s.carriedWord (w 2) = old &&& (v ^^^ 0xFFFFFFFF) ∧
      s.carriedWord (w 3) = old ^^^ v

/-- R539: an SQ register that is written clears its status bits where the written sequence number is the current one, and
changes nothing otherwise; the sequence number stays. -/
def Clauses.SqStatusWrite : Prop :=
  ∀ (s : State) (r : Req) (b : Blk) (unit off : Nat) (v : BitVec 32) (sq : Fld) (j : Nat), s.Inv → b ≠ .window →
    s.mayAccess r b unit off = true → seqOf (blkFlds b) unit off = some (sq, j) →
    (v.toNat / 2 ^ 16 ≠ s.rg sq j → exec (.sqStatusWrite r b unit off v) s = .next s) ∧
    (v.toNat / 2 ^ 16 = s.rg sq j → ∃ t, exec (.sqStatusWrite r b unit off v) s = .next t ∧ t = { s with regs := t.regs } ∧
      (∀ f ∈ blkFlds b, f.acc = .sq → f.id ≠ sq.id → ∀ i hi, f.at? unit off = some (i, hi) → i < 2 ^ 20 → t.rg f i = 0) ∧
      (∀ (g : Fld) (k : Nat), (∀ f ∈ blkFlds b, f.id = g.id → f.at? unit off = none) → k < 2 ^ 20 → t.rg g k = s.rg g k))

/-- R161, R163, R199, R541, R542: a write that its requester may not make is not performed:
a core that runs takes OPERAND where the address is no lane's, else EXT_ACCESS, with the address (log entry 123); for any other
requester nothing happens. -/
def Clauses.RegisterRefused : Prop :=
  ∀ (s : State) (r : Req) (b : Blk) (unit off : Nat) (v : BitVec 32), s.mayAccess r b unit off = false →
    ∀ i ∈ [Instr.registerWrite r b unit off v, .sqStatusWrite r b unit off v, .aliasSet r b unit off v, .aliasClear r b unit off v,
        .aliasToggle r b unit off v, .tvFieldWrite r b unit off v],
      (∀ c, r = .core c → s.coreRuns c = true →
        exec i s = .next (s.trap c (s.core c) (if off % 4 ≠ 0 then 2 else 5) false (BitVec.ofNat 36 (regAddr b unit off)))) ∧
      ((∀ c, r = .core c → s.coreRuns c = false) → exec i s = .next s)

/-- Register writes, alias images, SQ status registers, and writes that are not performed: the statements above together. -/
def Obligations.RegisterWrites : Prop :=
  Clauses.RegisterWriteAndAliases ∧ Clauses.AliasWords ∧ Clauses.SqStatusWrite ∧ Clauses.RegisterRefused

/-- R540: three copies hold a TV field. A write sets all three, unless fuses fill the field; a field reads as the bitwise
majority of its copies, so that one damaged copy changes no read; a vote that finds a copy different rewrites it and reports the
disagreement, and otherwise changes nothing. -/
def Obligations.TvCopies : Prop :=
  (∀ (s : State) (f : Fld) (i c v : Nat), s.Inv → f.acc = .tv → c < 3 →
    s.copyOf f i 0 = s.copyOf f i 1 → s.copyOf f i 1 = s.copyOf f i 2 → (s.setCopy f i c v).rg f i = s.rg f i) ∧
  (∀ (s : State) (r : Req) (off : Nat) (v : BitVec 32), s.Inv → s.mayAccess r .fault 0 off = true →
    ∃ t, exec (.tvFieldWrite r .fault 0 off v) s = .next t ∧
      ∀ f ∈ blkFlds .fault, f.acc = .tv → f.fuse = false → ∀ i hi, f.at? 0 off = some (i, hi) → ∀ c, c < 3 →
        t.copyOf f i c = f.carried hi 0 (s.rg f i) v.toNat % 2 ^ f.w) ∧
  (∀ (s : State) (b : Blk) (n i : Nat) (f : Fld), s.Inv → (blkFlds b)[n]? = some f → f.acc = .tv →
    (∀ c, c < 3 → s.copyOf f i c < 2 ^ f.w) →
    let v := (s.copyOf f i 0 &&& s.copyOf f i 1) ||| (s.copyOf f i 0 &&& s.copyOf f i 2) ||| (s.copyOf f i 1 &&& s.copyOf f i 2)
    ((∀ c, c < 3 → s.copyOf f i c = v) → exec (.tvVoteScrub b n i) s = .next s) ∧
    ((∃ c, c < 3 ∧ s.copyOf f i c ≠ v) → ∃ t, exec (.tvVoteScrub b n i) s = .next t ∧ t.rg f i = v ∧
      (∀ c, c < 3 → t.copyOf f i c = v) ∧ t.detections = s.detections ++ [.tvDisagree f.id i]))

/-- R542: a read of the lower register of a wide pair answers its word and captures the upper word at that moment in the latch
of the requester; where the requester does not reach the register, a core that runs takes EXT_ACCESS (log entry 123), any other
requester is answered all ones, and no latch changes. -/
def Clauses.CounterPairCapture : Prop :=
  ∀ (s : State) (r : Req) (off : Nat), isLow (blkFlds .dvorar) 0 off = true →
    (s.mayAccess r .dvorar 0 off = true → s.latch? r .dvorar 0 = none → ∃ t x, exec (.counterPairLowRead r .dvorar 0 off) s = .next t ∧
      t.out = .regRead r (s.wordOf (blkFlds .dvorar) 0 off ||| (x &&& (maskOf (blkFlds .dvorar) 0 off ^^^ 0xFFFFFFFF))) :: s.out ∧
      t.latch? r .dvorar 0 = some (off, s.wordOf (blkFlds .dvorar) 0 (off + 4)) ∧ t.regs = s.regs) ∧
    (s.mayAccess r .dvorar 0 off = false → off % 4 = 0 →
      ((∀ c, r ≠ .core c) → exec (.counterPairLowRead r .dvorar 0 off) s = .next (s.emit (.regRead r (2 ^ 32 - 1)))) ∧
      (∀ c, r = .core c →
        (s.coreRuns c = true → exec (.counterPairLowRead r .dvorar 0 off) s =
          .next (s.trap c (s.core c) 5 false (BitVec.ofNat 36 (0xF001C0000 + off)))) ∧
        (s.coreRuns c = false → exec (.counterPairLowRead r .dvorar 0 off) s = .next s)))

/-- R560: a counter that saturates stops at its largest value, one that wraps counts modulo its width, and where it wraps the
wrap bit of its SQ register is set and the sequence number advances. -/
def Clauses.CounterWidths : Prop :=
  ∀ (s : State) (f st sq : Fld) (i j d bit : Nat), s.Inv → s.rg f i < 2 ^ f.w →
    (s.satRg f i d).rg f i = min (s.rg f i + d) (2 ^ f.w - 1) ∧
    (s.incRg f i d).rg f i = (s.rg f i + d) % 2 ^ f.w ∧
    (st.id ≠ sq.id → st.id ≠ f.id → sq.id ≠ f.id → i < 2 ^ 20 → j < 2 ^ 20 → bit < st.w → 2 ^ f.w ≤ s.rg f i + d →
      ((s.wrapCount f i d st sq j bit).rg st j).testBit bit = true ∧
      (s.wrapCount f i d st sq j bit).rg sq j = (s.rg sq j + 1) % 2 ^ sq.w ∧
      (s.wrapCount f i d st sq j bit).rg f i = (s.rg f i + d) % 2 ^ f.w)

/-- Counter pairs and counter widths: the statements above together. -/
def Obligations.Counters : Prop :=
  Clauses.CounterPairCapture ∧ Clauses.CounterWidths

/-- R544, R546: the indirect windows. An access that must not be made, or that meets an error, is not performed: it raises
IW_ERR with its code, a read answers all ones and DATA_HI its four ones, and the address advances where INC is 1. A read of hub
SRAM answers the word there, and a write of private memory of a held tile stores DATA_HI and the word. -/
def Clauses.IndirectWindowsPart : Prop :=
  ∀ (s : State) (r : Req) (w met : Nat) (v : BitVec 32), windowOf r = some w → s.reaches r .window 0 = true →
    let rc := if s.iwCheck r w false = 0 then (if met = 0 then 0 else if met = 1 then 5 else 6) else s.iwCheck r w false
    let wc := if s.iwCheck r w true = 0 then (if met = 0 then 0 else if met = 1 then 5 else 6) else s.iwCheck r w true
    let fail (c : Nat) : State := (s.setRg Rg.window_ERR_CODE w c).sqRaise Rg.window_IW_ERR Rg.window_ERR_SEQ w 1
    (rc ≠ 0 → exec (.iwDataRead r met) s =
      .next ((((fail rc).setRg Rg.window_IW_DATA_HI w 0xF).iwStep w).emit (.regRead r (2 ^ 32 - 1)))) ∧
    (wc ≠ 0 → exec (.iwDataWrite r v met) s = .next ((fail wc).iwStep w)) ∧
    (rc = 0 → s.rg Rg.window_IW_SPACE w = 4 →
      exec (.iwDataRead r met) s = .next ((s.iwStep w).emit (.regRead r (s.readN (kHub (s.iwAddr w)) 4 % 2 ^ 32)))) ∧
    (wc = 0 → s.rg Rg.window_IW_SPACE w = 1 →
      let c := CoreId.tile (s.rg Rg.window_IW_UNIT w)
      exec (.iwDataWrite r v met) s = .next ((s.setCore c ((s.core c).pmWrite (s.iwAddr w)
        (BitVec.ofNat 36 (v.toNat + s.rg Rg.window_IW_DATA_HI w * 2 ^ 32)))).iwStep w))

/-- R544: the codes of refused accesses: 1 a space or unit that does not exist, 2 one that is not in service, 3 one that is not
held, 4 an address out of range or not aligned. -/
def Clauses.IndirectWindowCodes : Prop :=
  ∀ (s : State) (r : Req) (w : Nat) (wr : Bool), let sp := s.rg Rg.window_IW_SPACE w
    let u := s.rg Rg.window_IW_UNIT w
    let a := s.iwAddr w
    (7 ≤ sp → s.iwCheck r w wr = 1) ∧
    (sp = 1 → (s.tileUp u = false → s.iwCheck r w wr = 2) ∧
      (s.tileUp u = true → s.coreHeld (.tile u) = false → s.iwCheck r w wr = 3) ∧
      (s.tileUp u = true → s.coreHeld (.tile u) = true → (s.iwCheck r w wr = 4 ↔ 2 ^ 18 ≤ a) ∧
        (s.iwCheck r w wr = 0 ↔ a < 2 ^ 18))) ∧
    (sp = 3 → (24 ≤ u → s.iwCheck r w wr = 1) ∧ (u < 24 → s.halfUp (u / 12) = false → s.iwCheck r w wr = 2)) ∧
    (sp = 4 → u = 0 → s.hubMainReset = false → (s.iwCheck r w wr = 0 ↔ a + 4 ≤ 96 * 2 ^ 20 ∧ a % 4 = 0))

/-- The indirect windows and their error codes: the statements above together. -/
def Obligations.IndirectWindows : Prop :=
  Clauses.IndirectWindowsPart ∧ Clauses.IndirectWindowCodes

/-- R545: CORE_HOLD. A core whose bit rises returns to its registers at reset and keeps its private memory; the others stay as
they are; HUB_HOLD takes writes of hub core 0 in machine mode only. -/
def Obligations.CoreHold : Prop :=
  ∀ (s : State) (r : Req) (k : Nat) (v : BitVec 32), s.Inv → Cells.wf s.cores = true → s.reaches r .window 0 = true →
    (k < 8 → ∃ t, exec (.coreHoldWrite r k v) s = .next t ∧ t.rg Rg.window_CORE_HOLD k = v.toNat ∧
      ∀ n, n < 32 → let c := CoreId.tile (32 * k + n)
        t.core c = if v.toNat.testBit n = true ∧ (s.rg Rg.window_CORE_HOLD k).testBit n = false then
            { pm := (s.core c).pm, pmStamp := (s.core c).pmStamp, heldStores := (s.core c).heldStores }
          else s.core c) ∧
    (8 ≤ k → s.supervisor r = false → exec (.coreHoldWrite r k v) s = .next s) ∧
    (8 ≤ k → s.supervisor r = true → ∃ t, exec (.coreHoldWrite r k v) s = .next t ∧
      t.rg Rg.window_HUB_HOLD = v.toNat / 2 % 2 ^ Rg.window_HUB_HOLD.w)

/-- R210: APPLY. Where beats run, a stream is live, a cacheable range is enabled or an operation addresses HBM, APPLY_ERR
becomes 1 and nothing else changes; else MODE and SPARES are installed, every logical pseudo-channel maps to its own number
without holes, and every byte of HBM is undefined from then on. -/
def Obligations.HbmApply : Prop :=
  ∀ (s : State), s.Inv → s.hubMainReset = false →
    let busy : Prop := s.flag Rg.beat_RUN = true ∨ (∃ i, i < 4096 ∧ s.rg Rg.tile_STATE i = 2) ∨
      (∃ i, i < 1024 ∧ s.flag Rg.tile_CRANGE_EN i = true) ∨ s.hbmInUse = true
    (busy → exec .hbmApply s = .next (s.setRg Rg.hbm_APPLY_ERR 0 1)) ∧
    (¬busy → ∃ t, exec .hbmApply s = .next t ∧ t.rg Rg.hbm_APPLY_ERR = 0 ∧ t.rg Rg.hbm_MODE_CUR = s.rg Rg.hbm_MODE % 2 ^ Rg.hbm_MODE_CUR.w ∧
      t.rg Rg.hbm_SPARES_CUR = s.rg Rg.hbm_SPARES % 2 ^ Rg.hbm_SPARES_CUR.w ∧
      (∀ i, i < 192 → t.rg Rg.hbm_PHYS i = i % 32 ∧ t.rg Rg.hbm_HOLE i = 0) ∧
      ∀ st, st < 6 → ∀ o, o < 32 * pcBytes → t.mem.cells.get? (kHbm (st * 32 * pcBytes + o)) = none)

/-! ## The beat domain -/

/-- R49, R50: formation. FORM founds a domain at a module that may join and sends FORM on every port that carries ticks; a FORM
symbol on such a port makes it the parent's, goes on to the other ports and is answered by JOIN. When formation closes, a module whose
conditions no longer hold leaves it; the founder with distinct MIDs and a tree of depth at most 12 becomes the master, and any other
module enters as the domain tells it; else nobody is a member. Whoever enters shows its MID, its role, the members, the tree with
TICK_LEAD 1,024 above TREE_DELAY, and the beat; whoever leaves shows none of them. -/
def Obligations.DomainFormation : Prop :=
  ∀ (s : State) (port dom founder depth role k : Nat) (info : Option DomInfo) (i : DomInfo), s.Inv → k < 8 →
    let id := s.rg Rg.beat_DOMAIN_ID
    let me := s.rg Rg.beat_MID_REQ
    let sb := s.flag Rg.beat_STANDBY_REQ
    let may (d : Nat) : Prop := s.flag Rg.beat_RUN = false ∧ s.flag Rg.beat_JOIN_EN = true ∧ id = d ∧
      (s.dom.member = false ∨ s.rg Rg.beat_MEMBERS < 2)
    let forming : Prop := s.flag Rg.beat_FORMING = true
    let starts (d : Domain) : State :=
      { (if s.dom.member then s.leaveDomain else s) with dom := { d with attempt := s.dom.attempt } }.setRg Rg.beat_FORMING 0 1
    let u := starts { founding := true, formId := id }
    let v := starts { parent := some port, depth := depth + 1, formId := dom }
    (may id → ¬forming → exec .form s = .next (u.tickPorts.foldl (fun s d => s.symbol d 6 (formWord id me 0)) u)) ∧
    (¬may id ∨ forming → exec .form s = .next s) ∧
    (may dom → ¬forming → port ∈ s.tickPorts → exec (.formSymbol port dom founder depth) s =
      .next (((v.tickPorts.filter (fun d => d != port)).foldl (fun s d => s.symbol d 6 (formWord dom founder (depth + 1))) v).symbol
        port 7 (joinWord dom me sb))) ∧
    (¬may dom ∨ forming ∨ port ∉ s.tickPorts → exec (.formSymbol port dom founder depth) s = .next s) ∧
    (¬forming → exec (.formationClose info) s = .next s) ∧
    (forming → ¬may s.dom.formId → exec (.formationClose info) s = .next s.leaveDomain) ∧
    (forming → may s.dom.formId → s.dom.founding = true →
      let ms := me :: s.dom.joined.map (fun j => j.1)
      let ok : Prop := ms.Nodup ∧ ∀ j ∈ s.dom.joined, j.2.2.1 ≤ 12
      let f := s.founded
      f.members = ms ∧ f.master = me ∧ f.running = false ∧ f.beat = 0 ∧ f.period = s.rg Rg.beat_PERIOD_US ∧
      (ok → exec (.formationClose info) s = .next ((s.enter f 3).event 0x0100
        (id + ms.length * 2 ^ 32 + f.treeDepth * 2 ^ 41 + f.delay * 2 ^ 64))) ∧
      (¬ok → exec (.formationClose info) s = .next s.leaveDomain)) ∧
    (forming → may s.dom.formId → s.dom.founding = false → exec (.formationClose none) s = .next s.leaveDomain ∧
      exec (.formationClose (some i)) s =
        .next ((s.enter { i with parent := s.dom.parent } (if sb then 2 else 1)).joinedEvent sb)) ∧
    (let t := s.enter i role
     t.dom.member = true ∧ t.dom.ticking = i.running ∧ t.dom.master = i.master ∧ t.dom.period = i.period * 1600 ∧
     t.dom.parent = i.parent ∧ t.dom.children = i.children ∧ (t.dom.baseB, t.dom.baseN) = i.base ∧
     ∀ x ∈ [(Rg.beat_MID, me), (Rg.beat_ROLE, role), (Rg.beat_MEMBERS, i.members.length), (Rg.beat_TREE_DELAY, i.delay),
       (Rg.beat_TICK_LEAD, i.delay + 1024), (Rg.beat_DEPTH, i.treeDepth), (Rg.beat_BEATNO, i.beat), (Rg.beat_FORMING, 0),
       (Rg.beat_JOIN_REFUSED, 0), (Rg.beat_DEBT, i.debt.1), (Rg.beat_OVR_RUN, i.debt.2.1)], t.rg x.1 = x.2 % 2 ^ x.1.w) ∧
    (let t := s.leaveDomain
     t.dom = { attempt := s.dom.attempt } ∧ t.mem = s.mem ∧ t.rg Rg.beat_MEMBER k = 0 ∧ t.rg Rg.beat_STANDBY k = 0 ∧
     ∀ x ∈ [Rg.beat_MID, Rg.beat_ROLE, Rg.beat_MEMBERS, Rg.beat_TREE_DELAY, Rg.beat_DEPTH, Rg.beat_FORMING, Rg.beat_HALTED],
       t.rg x = 0)

/-- R51, R56, R86: what the registers of beat control start. JOIN_EN from 0 to 1 allows a new attempt, which asks over a tree link
(log entry 115); a request is noted by the founder, kept by the master for the next tick and passed up by another member; an admitted
module enters, a refused one raises JOIN_REFUSED with its cause. RUN 1 at a master that has never run sends the START tick, after a
stop the RESTART tick, and RUN 0 stops a running domain at its next COMMIT; DISSOLVE ends a stopped domain at every member (log entry
116); a period from 8 to 4,000 µs is kept for PERIOD_AT. -/
def Clauses.DomainControlPart : Prop :=
  ∀ (s : State) (us at_ cause port dom mid delay depth : Nat) (sb : Bool) (i : DomInfo), s.Inv →
    let id := s.rg Rg.beat_DOMAIN_ID
    let me := s.rg Rg.beat_MID_REQ
    let mine := s.flag Rg.beat_STANDBY_REQ
    let alone : Prop := s.dom.member = false ∨ s.rg Rg.beat_MEMBERS < 2
    let forming : Prop := s.flag Rg.beat_FORMING = true
    let en (v : Bool) : State := s.setRg Rg.beat_JOIN_EN 0 (ofBool v)
    (¬forming → s.flag Rg.beat_JOIN_EN = true → exec (.joinEnWrite true) s = .next (en true)) ∧
    (¬forming → exec (.joinEnWrite false) s = .next (en false)) ∧
    (forming → exec (.joinEnWrite false) s = .next (en false).leaveDomain) ∧
    (s.flag Rg.beat_JOIN_EN = false → let u : State := { en true with dom := { s.dom with joinSpent := false } }
      (u.joinPort = none → exec (.joinEnWrite true) s = .next u) ∧
      (∀ d, u.joinPort = some d →
        (s.flag Rg.beat_RUN = false → alone → ¬forming →
          exec (.joinEnWrite true) s = .next (u.symbol d 7 (joinWord id me mine))) ∧
        (s.flag Rg.beat_RUN = true ∨ ¬alone ∨ forming → exec (.joinEnWrite true) s = .next u))) ∧
    (let ask : Instr := .joinSymbol (.request port dom mid sb depth delay)
     (id ≠ dom ∨ port ∉ s.tickPorts → exec ask s = .next s) ∧
     (id = dom → port ∈ s.tickPorts →
       (s.dom.founding = true → exec ask s = .next { s with dom := { s.dom with
         joined := s.dom.joined ++ [(mid, sb, depth, delay)], children := insertNat port s.dom.children } }) ∧
       (s.dom.founding = false → s.isMaster = true → exec ask s =
         .next { s with dom := { s.dom with joins := s.dom.joins ++ [(mid, sb, depth, delay, port)] } }) ∧
       (s.dom.founding = false → s.isMaster = false → ∀ p, s.dom.parent = some p → exec ask s =
         .next ({ s with dom := { s.dom with children := insertNat port s.dom.children } }.symbol p 7 (joinWord dom mid sb))) ∧
       (s.dom.founding = false → s.isMaster = false → s.dom.parent = none → exec ask s = .next s))) ∧
    (let may : Prop := s.flag Rg.beat_RUN = false ∧ s.flag Rg.beat_JOIN_EN = true ∧ alone ∧ s.dom.joinSpent = false
     let u := s.enter i (if mine then 2 else 1)
     (may → exec (.joinSymbol (.admitted i)) s = .next ((if i.running && !mine then u.openTiles else u).joinedEvent mine)) ∧
     (¬may → exec (.joinSymbol (.admitted i)) s = .next s)) ∧
    (alone → exec (.joinSymbol (.refused cause)) s = .next
      ((({ s with dom := { s.dom with joinSpent := true } }.setRg Rg.beat_JOIN_REFUSED 0 1).setRg Rg.beat_REFUSE_CAUSE 0 cause).event
        0x010A (id + me * 2 ^ 32 + cause * 2 ^ 40))) ∧
    (¬alone → exec (.joinSymbol (.refused cause)) s = .next s) ∧
    (s.dom.member = true → s.isMaster = false → exec (.joinSymbol (.joining mid sb delay depth)) s =
      .next { s with dom := { s.dom with joining := s.dom.joining ++ [(mid, sb, delay, depth)] } }) ∧
    (s.dom.member = false ∨ s.isMaster = true → exec (.joinSymbol (.joining mid sb delay depth)) s = .next s) ∧
    (¬forming → s.isMaster = true → let r := s.setRg Rg.beat_RUN 0 1
     let q : State := { r with dom := { r.dom with stopReq := false } }
     (s.dom.ticking = false → s.dom.pend = none → s.flag Rg.beat_HALTED = false ∨ s.dom.haltCause = 1 → exec (.runWrite true) s =
       .next (q.schedule (if s.flag Rg.beat_HALTED = true ∨ s.dom.started = true then 3 else 0)
         (q.rg Rg.beat_DTIME + q.rg Rg.beat_TICK_LEAD))) ∧
     (s.dom.ticking = true ∨ s.dom.pend ≠ none ∨ (s.flag Rg.beat_HALTED = true ∧ s.dom.haltCause ≠ 1) →
       exec (.runWrite true) s = .next q)) ∧
    (¬forming → s.isMaster = true → let r := s.setRg Rg.beat_RUN 0 0
     (s.dom.ticking = true → exec (.runWrite false) s = .next { r with dom := { r.dom with stopReq := true } }) ∧
     (s.dom.ticking = false → exec (.runWrite false) s = .next r)) ∧
    (s.isMaster = false → (¬forming → ∀ v, exec (.runWrite v) s = .next (s.setRg Rg.beat_RUN 0 (ofBool v))) ∧
      (forming → exec (.runWrite true) s = .next (s.setRg Rg.beat_RUN 0 1).leaveDomain)) ∧
    (s.dom.member = true → s.dom.ticking = false → exec .dissolve s = .next (s.emit (.dissolved id)).leaveDomain) ∧
    (s.dom.member = false ∨ s.dom.ticking = true → exec .dissolve s = .next s) ∧
    (let u := (s.setRg Rg.beat_PERIOD_AT_LO 0 (at_ % 2 ^ 32)).setRg Rg.beat_PERIOD_AT_HI 0 (at_ / 2 ^ 32)
     (8 ≤ us → us ≤ 4000 → exec (.nextPeriodWrite us at_) s =
       .next ({ u with dom := { s.dom with nextSet := true } }.setRg Rg.beat_NEXT_PERIOD_US 0 us)) ∧
     (us < 8 ∨ 4000 < us → exec (.nextPeriodWrite us at_) s = .next u))

/-- R40, R57, R58, R263, R265: DONE goes up and ticks and time come down the tree. A member whose conditions hold reports DONE of the
current beat to its parent, once; the master with every DONE schedules the COMMIT tick no earlier than the schedule of R84 and
TICK_LEAD allow; a member whose level falls has the beat aborted instead. A child's DONE counts, and the TICK and TIME symbols of the
parent's port act; a DONE of another beat, and a TICK or TIME symbol from another port, change nothing. -/
def Clauses.DomainSymbols : Prop :=
  ∀ (s : State) (port beat kind time : Nat),
    let word := s.rg Rg.beat_BEATNO % 2 ^ 24 * 2 ^ 6
    (s.doneReady = true → (s.active && s.levelDrops) = false → s.isMaster = false → ∀ p, s.dom.parent = some p →
      exec .memberDoneReady s = .next ({ s with dom := { s.dom with doneSent := true } }.symbol p 5 word)) ∧
    (s.doneReady = true → (s.active && s.levelDrops) = false → s.isMaster = true → s.cutAcked = true →
      exec .memberDoneReady s = .next ({ s with dom := { s.dom with doneSent := true } }.schedule 1
        (max s.earliest (s.rg Rg.beat_DTIME + s.rg Rg.beat_TICK_LEAD)))) ∧
    (s.doneReady = true → (s.active && s.levelDrops) = false → s.isMaster = true → s.cutAcked = false →
      exec .memberDoneReady s = .next s) ∧
    (s.doneReady = true → (s.active && s.levelDrops) = true →
      exec .memberDoneReady s = .next (s.abortBeat 0 (if s.hasSpare then none else some 3))) ∧
    (s.doneReady = false → exec .memberDoneReady s = .next s) ∧
    (s.doneReady = true ↔ s.dom.ticking = true ∧ s.dom.aborted = false ∧ s.dom.pend = none ∧ s.dom.doneSent = false ∧
      (∀ d ∈ s.dom.children, d ∈ s.dom.doneFrom) ∧ (∀ r ∈ s.fm.replays, r.phase = 2) ∧ s.fm.mirrorOut = 0 ∧
      (s.active = true → ∀ t, t < 256 → s.tileWorking t = true → (s.tile t).finished = true ∧
        (s.seedDue t (s.rg Rg.beat_BEATNO) = true → s.seedRoom t = true → t ∈ s.fm.seeded))) ∧
    (s.dom.children.contains port = false ∨ s.rg Rg.beat_BEATNO % 2 ^ 24 ≠ beat % 2 ^ 24 →
      exec (.doneSymbol port beat) s = .next s) ∧
    (s.dom.children.contains port = true → s.rg Rg.beat_BEATNO % 2 ^ 24 = beat % 2 ^ 24 →
      let u : State := { s with dom := { s.dom with doneFrom := insertNat port s.dom.doneFrom } }
      exec (.doneSymbol port beat) s = .next u.tryDone ∧ (u.doneReady = false → exec (.doneSymbol port beat) s = .next u)) ∧
    (s.dom.parent = some port → ∃ n a, exec (.tickSymbol port beat kind time) s =
        .next ({ s with dom := { s.dom with pend := some (kind, n, a) } }.toChildren 4 (tickWord n kind a)) ∧
      n % 2 ^ 24 = beat % 2 ^ 24 ∧ a % 2 ^ 32 = time % 2 ^ 32) ∧
    (s.dom.parent ≠ some port → exec (.tickSymbol port beat kind time) s = .next s ∧ exec (.timeSymbol port time) s = .next s) ∧
    (s.dom.parent = some port → s.Inv → ∃ t a, exec (.timeSymbol port time) s = .next t ∧ a % 2 ^ 48 = time % 2 ^ 48 ∧
      t.rg Rg.beat_DTIME = (a + s.rg Rg.dvport_LINK_DELAY port + 7) % 2 ^ Rg.beat_DTIME.w) ∧
    (s.dom.member = true → exec .timeDisciplineSend s =
      .next ({ s with dom := { s.dom with timeSeq := (s.dom.timeSeq + 1) % 256 } }.toChildren 3
        (s.rg Rg.beat_DTIME % 2 ^ 48 * 2 ^ 6 + s.dom.timeSeq * 2 ^ 54))) ∧
    (s.dom.member = false → exec .timeDisciplineSend s = .next s)

/-- Beat control registers, and DONE, TICK and TIME symbols: the statements above together. -/
def Obligations.DomainControl : Prop :=
  Clauses.DomainControlPart ∧ Clauses.DomainSymbols

/-- R54-R60, R80-R84: a tick acts when its application time has come. START and RESTART run the beats and rebase the schedule;
COMMIT closes beat n, begins the next and, where the domain is to stop, stops it; ABORT leaves BEATNO and raises the attempt
number. A tick that is not waiting, or of another kind, changes nothing. -/
def Clauses.TickCommandsPart : Prop :=
  ∀ (s : State) (n a cause : Nat) (halt : Option Nat) (i : TickInfo),
    let due (k : Nat) : Prop := s.dom.member = true ∧ s.dom.pend = some (k, n, a)
    let idle (k : Nat) : Prop := s.dom.member = false ∨ ∀ m b, s.dom.pend ≠ some (k, m, b)
    (idle 0 → exec .startTick s = .next s) ∧ (idle 1 → exec (.commitTick i) s = .next s) ∧
    (idle 2 → exec (.abortTick cause halt) s = .next s) ∧ (idle 3 → exec .restartTick s = .next s) ∧
    (due 0 → ∃ t u : State, exec .startTick s = .next t ∧ u.dom.ticking = true ∧ u.dom.started = true ∧ u.dom.aborted = false ∧
      u.dom.baseB = a ∧ u.dom.baseN = n ∧ u.dom.pend = none ∧
      (let v := u.upTiles.foldl (fun s t => s.clearBeat t) (u.unitsTick n false)
       t = (((v.mirrorTick false).startTiles n (fun _ => true)).furrowTicks n none).joinTick)) ∧
    (due 1 → (s.active && s.levelDrops) = false →
      exec (.commitTick i) s = .next ((s.commit n a i).begin n (if s.isMaster then s.dom.stopReq else i.stop))) ∧
    (due 1 → (s.active && s.levelDrops) = true →
      exec (.commitTick i) s = .next (s.abort n a 0 (if s.isMaster && !s.hasSpare then some 3 else none))) ∧
    (due 2 → s.isMaster = true → exec (.abortTick cause halt) s = .next (s.abort n a s.dom.abortCause s.dom.haltWith)) ∧
    (due 2 → s.isMaster = false → exec (.abortTick cause halt) s = .next (s.abort n a cause halt)) ∧
    (due 3 → ∃ t u : State, exec .restartTick s = .next t ∧ u.dom.ticking = true ∧ u.dom.aborted = false ∧ u.dom.subst = [] ∧
      u.dom.baseB = a ∧ u.dom.baseN = n ∧
      (let v : State := u.upTiles.foldl (fun (s : State) t => s.clearBeat t) (u.unitsTick n false)
       let arms := (List.range 256).map (fun t => s.armedFor n t)
       let w := (v.mirrorTick false).startTiles n (fun t => arms.getD t false)
       t = (((w.upTiles.foldl (fun s t => s.beatPend t) w).furrowTicks n none).resendReads s.dom.subst).joinTick)) ∧
    (∀ t, s.armedFor n t = true ↔ s.flag Rg.beat_HALTED = true ∧ (s.tile t).arm = 1 ∧ s.forBeat t (1 - (s.tile t).bank) = n)

/-- R58, R84, R85: the schedule. A tick is applied at its time or later, and DTIME does not fall behind it; the COMMIT tick that
closes beat n at a leaves as debt what a exceeds the start of beat n + 1 of the schedule, held to 32 bits; zero debt ends
OVR_RUN, and else it counts up to 127. -/
def Clauses.ScheduleDebt : Prop :=
  ∀ (s : State) (k n a mid tile : Nat), s.Inv →
    (s.applied k a).dom.pend = none ∧ (s.applied k a).dom.lastA = a ∧
    (s.applied k a).rg Rg.beat_DTIME = max a (s.rg Rg.beat_DTIME) % 2 ^ Rg.beat_DTIME.w ∧
    (let d := a - (s.dom.baseB + (n + 1 - s.dom.baseN) * s.dom.period)
     (d = 0 → (s.debtTick n a mid tile).rg Rg.beat_DEBT = 0 ∧ (s.debtTick n a mid tile).rg Rg.beat_OVR_RUN = 0) ∧
     (0 < d → (min 127 (s.rg Rg.beat_OVR_RUN + 1) < 65 ∨ s.dom.overrun = true) →
       (s.debtTick n a mid tile).rg Rg.beat_DEBT = min d (2 ^ 32 - 1) ∧
       (s.debtTick n a mid tile).rg Rg.beat_OVR_RUN = min 127 (s.rg Rg.beat_OVR_RUN + 1)))

/-- The tick commands and the schedule: the statements above together. -/
def Obligations.TickCommands : Prop :=
  Clauses.TickCommandsPart ∧ Clauses.ScheduleDebt

/-- R54, R55, R216, R280, R437, R459, R460: while no beats run a period boundary counts LCLK and the idle period on. A loss of members
that are none, or that the master still reaches, changes nothing; a loss that leaves a domain without a majority halts this member
with cause 0; after any other the survivors go on, with the surviving active member of lowest MID as the master where the master is
lost: the beat commits where the master held every DONE, and else aborts. When the spare has armed, the master no longer waits for
it. -/
def Obligations.IdleAndLoss : Prop :=
  ∀ (s : State) (lost : List (Nat × Option Nat)) (tree : Option DomInfo) (m : Nat), let ms := s.members
    let sb := s.midSet Rg.beat_STANDBY
    let gone := lost.filter (fun e => ms.contains e.1 && e.1 != s.rg Rg.beat_MID && (!s.isMaster || s.unreachable e.1))
    let left := ms.filter (fun m => !gone.any (fun e => e.1 == m))
    let master := s.masterAfter left
    let told := gone.foldl (fun s e => (s.event 0x0102 (e.1 + master * 2 ^ 8 + s.nowB48)).connsLost e.1) s
    let busy := gone.filter (fun e => !sb.contains e.1)
    (s.dom.ticking = true → exec .idlePeriodTick s = .next s) ∧
    (s.dom.ticking = false → ∃ t u : State, exec .idlePeriodTick s = .next t ∧ u.hbm = { s.hbm with idleBeat := s.hbm.idleBeat + 1 } ∧
      u.regs = (s.setRg Rg.cipher_LCLK 0 ((s.rg Rg.cipher_LCLK + 1) % 2 ^ 32)).regs ∧
      (let v : State := u.retireTiles.levelTick.remapTick
       let w := (v.powerTick (v.rg Rg.beat_BEATNO)).quiesceTick
       t = if w.isMaster then w.durableNow.heldNow else w)) ∧
    (s.dom.member = false ∨ gone = [] → exec (.memberLost lost tree) s = .next s) ∧
    (s.dom.member = true → gone ≠ [] →
      (2 * left.length ≤ ms.length → exec (.memberLost lost tree) s = .next (told.haltNow 0)) ∧
      (ms.length < 2 * left.length →
        let u := (((told.setMembers left (sb.filter (fun m => left.contains m))).newTree master tree).ckFail 2
          ((gone.map (fun e => e.1)).headD 0))
        let done : Prop := s.holdsDones = true ∧ master = s.dom.master
        let late : State := { u with dom := { u.dom with lostAfter := u.dom.lostAfter ++ busy } }
        let subst : State := { u with dom := { u.dom with subst := u.dom.subst ++ gone } }
        (u.dom.ticking = false → exec (.memberLost lost tree) s = .next u) ∧
        (u.dom.ticking = true → done →
          exec (.memberLost lost tree) s = .next (if late.isMaster then late.commitAfterLoss else late)) ∧
        (u.dom.ticking = true → ¬done → subst.isMaster = false → exec (.memberLost lost tree) s = .next subst) ∧
        (u.dom.ticking = true → ¬done → subst.isMaster = true → exec (.memberLost lost tree) s =
          .next ((busy.foldl (fun s e => s.lossRecord e.1 e.2) subst).abortBeat 0
            (if busy.all (fun e => e.2.isSome) then none else some 3))))) ∧
    (s.dom.master ∈ left → master = s.dom.master) ∧
    (s.dom.master ∉ left → m ∈ left → m ∉ sb → master ∈ left ∧ master ∉ sb ∧ master ≤ m) ∧
    exec .spareArmTimeout s = .next ({ s with dom := { s.dom with waitSpare := false } }.tryRestart) ∧
    (let u : State := { s with dom := { s.dom with waitSpare := false } }
     s.isMaster = true → s.dom.ticking = true → s.dom.aborted = true → s.dom.pend = none → s.dom.haltWith = none →
     (∀ r ∈ s.fm.replays, r.spare = none ∨ r.phase = 2) →
     exec .spareArmTimeout s = .next (u.schedule 3 (s.rg Rg.beat_DTIME + s.rg Rg.beat_TICK_LEAD)))

/-! ## Tiles: tables, rows and the exchange -/

/-- R40, R66-R69: arming. ARM of a tile in service whose next table passes the check sets ARMED and shows its TABLE_ID; one that
fails only reports; ARM or ARM_SAME on an armed tile is error 7; ARM_SAME arms the running table again; DISARM in time clears
ARMED and sets DISARM_OK, too late it clears DISARM_OK (which DISARM of an open beat is late: log entry 15). While beats run, an
armed table becomes visible to a tile in service that holds an open beat. -/
def Obligations.TableArming : Prop :=
  ∀ (s : State) (t : Nat) (late : Bool), let k := s.tile t
    let level1 : Prop := s.rg Rg.identity_SERVICE_LEVEL = 1
    let c := s.armCheck t (1 - k.bank)
    (s.tileUp t = false → exec (.arm t) s = .next s ∧ exec (.armSame t) s = .next s ∧ exec (.disarm t late) s = .next s) ∧
    (level1 → exec (.arm t) s = .next s) ∧
    (s.tileUp t = true → k.arm ≠ 0 → exec (.armSame t) s = .next (s.armErr t 7 0) ∧
      (¬level1 → exec (.arm t) s = .next (s.armErr t 7 0))) ∧
    (s.tileUp t = true → k.arm = 0 → ¬level1 →
      (c.1 ≠ 0 → exec (.arm t) s = .next (s.armErr t c.1 c.2)) ∧
      (c.1 = 0 → exec (.arm t) s = .next (((s.armErr t 0 c.2).setTile t { k with arm := 1 }).setRg Rg.seq_NEXT_TABLE_ID t
        (s.slotOf t (1 - k.bank) 0 / 2 ^ 32 % 2 ^ 32)))) ∧
    (s.tileUp t = true → k.arm = 0 → exec (.armSame t) s = .next (((s.armErr t 0 0).setTile t { k with arm := 2 }).setRg
      Rg.seq_NEXT_TABLE_ID t (s.slotOf t k.bank 0 / 2 ^ 32 % 2 ^ 32))) ∧
    (s.tileUp t = true → (late || (k.openBeat && k.arm != 0)) = true →
      exec (.disarm t late) s = .next (s.setRg Rg.seq_DISARM_OK t 0)) ∧
    (s.tileUp t = true → (late || (k.openBeat && k.arm != 0)) = false →
      exec (.disarm t late) s = .next ((s.setTile t { k with arm := 0 }).setRg Rg.seq_DISARM_OK t 1)) ∧
    (s.tileUp t = true → k.openBeat = true → k.arm ≠ 0 → k.stopped = false → s.dom.ticking = true →
      exec (.armVisibleOpenBeat t) s = .next (s.swapIn t (s.rg Rg.beat_BEATNO))) ∧
    (s.tileUp t = false ∨ k.openBeat = false ∨ k.arm = 0 ∨ k.stopped = true ∨ s.dom.ticking = false →
      exec (.armVisibleOpenBeat t) s = .next s)

/-- R60, R64, R69: the armed table is taken when FOR_BEAT is all ones or the beat that starts: the sequencer stands at slot 2 of
the armed bank with nothing issued, ARMED is clear, RUN_TABLE_ID shows the table, and where beats run it starts: of memory only its
scratch region changes, to undefined contents. Any other FOR_BEAT is table error 9. -/
def Obligations.ArmedTableTakesOver : Prop :=
  ∀ (s : State) (t n : Nat), let k := s.tile t
    let bank := if k.arm = 1 then 1 - k.bank else k.bank
    let h := s.slotOf t bank 0
    let fb := h / 2 ^ 192 % 2 ^ 64
    let lo := h / 2 ^ 128 % 2 ^ 19
    let hi := lo + h / 2 ^ 147 % 2 ^ 19
    Cells.wf s.tiles = true →
    (fb = 2 ^ 64 - 1 ∨ fb = n % 2 ^ 64 → ((s.swapIn t n).tile t) = { k with
      bank := bank, arm := 0, openBeat := false, loaded := true, running := s.dom.ticking, rows := h / 2 ^ 16 % 2 ^ 12, next := 2,
      track := [], waitRow := none, skip := [], stopped := false, notes := [], log := [], plain := [] }) ∧
    (fb = 2 ^ 64 - 1 ∨ fb = n % 2 ^ 64 → s.Inv → t < 256 → (s.swapIn t n).rg Rg.seq_RUN_TABLE_ID t = h / 2 ^ 32 % 2 ^ 32 ∧
      ∀ x, (s.dom.ticking = true → x < kSlice t (32 * lo) ∨ kSlice t (32 * hi) ≤ x) → (s.swapIn t n).mem.byte x = s.mem.byte x) ∧
    (¬(fb = 2 ^ 64 - 1 ∨ fb = n % 2 ^ 64) →
      s.swapIn t n = (s.setTile t { k with arm := 0, running := false, openBeat := false }).tableErr t 9 0 none)

/-- R72-R75, R90, R115: matrix, vector and move rows. The next row of its class issues when its unit has room and no tracked row
conflicts with its footprints: it joins the tracker with what its unit computes, or the table error it meets, and the next slot is
due; a row with a hazard waits. -/
def Clauses.ComputeRowsIssue : Prop :=
  ∀ (s : State) (t slot w : Nat), let k := s.tile t
    let mat := MatRow.of w
    let vec := VecRow.of w
    let mov := MoveRow.of w
    (s.nextRow t 0 = some (slot, w) → (k.unitOk 0 && k.trackOk mat.foots) = true → exec (.matrixRow t) s =
      .next (s.track t slot { slot := slot, cls := 0, foots := mat.foots, writes := (s.runMatrix t mat).1, err := (s.runMatrix t mat).2 })) ∧
    (s.nextRow t 0 = some (slot, w) → (k.unitOk 0 && k.trackOk mat.foots) = false → exec (.matrixRow t) s = .next s) ∧
    (s.nextRow t 1 = some (slot, w) → (k.unitOk 1 && k.trackOk vec.foots) = true → exec (.vectorRow t) s =
      .next (s.track t slot { slot := slot, cls := 1, foots := vec.foots, writes := (s.runVector t vec).1, err := (s.runVector t vec).2 })) ∧
    (s.nextRow t 1 = some (slot, w) → (k.unitOk 1 && k.trackOk vec.foots) = false → exec (.vectorRow t) s = .next s) ∧
    (s.nextRow t 2 = some (slot, w) → (k.unitOk 2 && k.trackOk (mov.foots t)) = true → (s.runMove t mov).2.2 = 0 →
      exec (.moveRow t) s = .next (((s.runMove t mov).1.movePorts t mov).track t slot
        { slot := slot, cls := 2, foots := mov.foots t, writes := (s.runMove t mov).2.1, err := 0 })) ∧
    (s.nextRow t 2 = some (slot, w) → (k.unitOk 2 && k.trackOk (mov.foots t)) = true → (s.runMove t mov).2.2 ≠ 0 →
      exec (.moveRow t) s = .next ((s.runMove t mov).1.track t slot
        { slot := slot, cls := 2, foots := mov.foots t, writes := (s.runMove t mov).2.1, err := (s.runMove t mov).2.2 })) ∧
    (s.nextRow t 2 = some (slot, w) → (k.unitOk 2 && k.trackOk (mov.foots t)) = false → exec (.moveRow t) s = .next s) ∧
    (s.nextRow t 0 = none → exec (.matrixRow t) s = .next s) ∧ (s.nextRow t 1 = none → exec (.vectorRow t) s = .next s) ∧
    (s.nextRow t 2 = none → exec (.moveRow t) s = .next s)

/-- R76, R78, R112: exchange rows. With room and no hazard the row joins the tracker with its packets outstanding: a row to
this module puts them on the Trellis in order, one to another module sends them over Dvorar. A source beyond the slice space, or a
tile of this module that is not enabled, not in service, or in the other half with no bridge channel, is table error 10. EXCH_OUT_64
counts the row's bytes in 64-byte units (rounded up once: log entry 128). -/
def Clauses.ExchangeRowsIssue : Prop :=
  ∀ (s : State) (t slot w cls : Nat) (i : Instr) (x : XRow),
    (cls, i, x) ∈ [(3, Instr.exchangeRow t, XRow.ofExchange w), (5, .anchorExchangeRow t, XRow.ofAnchor w)] →
    let lines := (x.unit * x.len + 31) / 32
    let fs : List Foot := [{ hbm := false, lo := x.sa, hi := x.sa + lines, wr := false }]
    let ok := (s.tile t).unitOk cls && (s.tile t).trackOk fs
    let meets := s.tileHalf t == s.tileHalf x.tile || s.flag Rg.identity_BRIDGE_WORKING
    let bad := decide (s.sliceLines t < x.sa + lines) || (s.myMid x.mid && !(s.tileEnabled x.tile && s.tileUp x.tile && meets))
    let n64 := (x.unit * x.len + 63) / 64
    (s.nextRow t cls = none → exec i s = .next s) ∧
    (s.nextRow t cls = some (slot, w) → ok = false → exec i s = .next s) ∧
    (s.nextRow t cls = some (slot, w) → ok = true → bad = true →
      exec i s = .next ((s.track t slot { slot := slot, cls := cls, foots := fs, err := 10 }).tableErr t 10 slot none)) ∧
    (s.nextRow t cls = some (slot, w) → ok = true → bad = false →
      let u := s.track t slot { slot := slot, cls := cls, foots := fs, left := (s.packets t slot x).length }
      (s.myMid x.mid = true →
        exec i s = .next ({ u with trellis := u.trellis ++ s.packets t slot x }.perf t Rg.tile_EXCH_OUT_64 6 n64)) ∧
      (s.myMid x.mid = false →
        exec i s = .next ((u.dvExchange (s.packets t slot x)).perf t Rg.tile_EXCH_OUT_64 6 n64)))

/-- R77, R79, R92: wait and mark rows. A wait row holds the later rows until its condition is met; a NOTE joins the beat's
notes; an EXPORT that fits joins commit-gate staging with the bytes of its lines, and waits while there is no room; a STAMP inside an
output window writes BEATNO and its slot number to the line, which counts among the tile's own writes. A mark beyond the slice space is
table error 10, a STAMP outside the windows error 8, and a mark whose line a tracked row uses waits. -/
def Clauses.WaitAndMarkRows : Prop :=
  ∀ (s : State) (t slot w : Nat),
    let a := w / 2 ^ 64 % 2 ^ 19
    let n := w / 2 ^ 83 % 2 ^ 24
    let v := w / 2 ^ 32 % 2 ^ 32
    let lines := (n + 31) / 32
    (s.nextRow t 4 = some (slot, w) → exec (.waitRow t) s = .next (s.passed t slot (fun k => { k with
      waitRow := some { kind := w / 2 ^ 8 % 16, index := w / 2 ^ 12 % 16, value := v } }))) ∧
    (∀ r, (s.tile t).waitRow = some r →
      let holds : Prop :=
        (r.kind = 0 ∧ r.value ≤ (s.tile t).arrival.getD 0 r.index) ∨
        (r.kind = 1 ∧ r.value ≤ s.rg Rg.tile_DELIVERED (16 * t + r.index)) ∨
        (r.kind = 2 ∧ r.value ≤ s.rg Rg.beat_DTIME - s.dom.beatStart) ∨
        (3 ≤ r.kind ∧ (s.tile t).track = [])
      (holds → (s.tile t).stopped = false →
        exec (.waitConditionMet t) s = .next (s.setTile t { s.tile t with waitRow := none })) ∧
      (¬holds ∨ (s.tile t).stopped = true → exec (.waitConditionMet t) s = .next s)) ∧
    (s.nextMark t 0 = some (slot, w) → exec (.markNote t) s = .next (s.passed t slot (fun k => { k with notes := k.notes ++ [v] }))) ∧
    (s.nextMark t 1 = some (slot, w) →
      (s.tile t).trackOk [{ hbm := false, lo := a, hi := a + lines, wr := false }] = true → a + lines ≤ s.sliceLines t →
      s.stagingUnits + lines ≤ 2 ^ 18 →
      ∃ u, exec (.markExport t) s = .next u ∧ u.dom.staging = s.dom.staging ++
        [{ tile := t, slot := slot, channel := w / 2 ^ 16 % 2 ^ 16, bytes := s.readB (kSlice t (32 * a)) n }] ∧ u.mem = s.mem) ∧
    (s.nextMark t 2 = some (slot, w) → (s.tile t).trackOk [{ hbm := false, lo := a, hi := a + 1, wr := true }] = true →
      a < s.sliceLines t → ∀ lg, s.winHit t (.slice t a) = some lg →
      exec (.markStamp t) s = .next ((((s.passed t slot id).touch t (.slice t a) lg).writeB (kSlice t (32 * a))
        (leBytes 8 (s.rg Rg.beat_BEATNO) ++ leBytes 4 slot)).wroteOwn t a)) ∧
    (s.nextMark t 1 = some (slot, w) →
      ((s.tile t).trackOk [{ hbm := false, lo := a, hi := a + lines, wr := false }] = false → exec (.markExport t) s = .next s) ∧
      ((s.tile t).trackOk [{ hbm := false, lo := a, hi := a + lines, wr := false }] = true →
        (s.sliceLines t < a + lines → exec (.markExport t) s = .next ((s.passed t slot id).tableErr t 10 slot none)) ∧
        (a + lines ≤ s.sliceLines t → 2 ^ 18 < s.stagingUnits + lines → exec (.markExport t) s = .next s))) ∧
    (s.nextMark t 2 = some (slot, w) →
      ((s.tile t).trackOk [{ hbm := false, lo := a, hi := a + 1, wr := true }] = false → exec (.markStamp t) s = .next s) ∧
      ((s.tile t).trackOk [{ hbm := false, lo := a, hi := a + 1, wr := true }] = true →
        (s.sliceLines t ≤ a → exec (.markStamp t) s = .next ((s.passed t slot id).tableErr t 10 slot none)) ∧
        (a < s.sliceLines t → s.winHit t (.slice t a) = none →
          exec (.markStamp t) s = .next ((s.passed t slot id).tableErr t 8 slot none)))) ∧
    ((s.tile t).waitRow = none → exec (.waitConditionMet t) s = .next s) ∧
    (s.nextRow t 4 = none → exec (.waitRow t) s = .next s) ∧ (s.nextMark t 0 = none → exec (.markNote t) s = .next s) ∧
    (s.nextMark t 1 = none → exec (.markExport t) s = .next s) ∧ (s.nextMark t 2 = none → exec (.markStamp t) s = .next s)

/-- Issue of compute, exchange, wait and mark rows: the statements above together. -/
def Obligations.RowsIssue : Prop :=
  Clauses.ComputeRowsIssue ∧ Clauses.ExchangeRowsIssue ∧ Clauses.WaitAndMarkRows

/-- R90, R91, R96, R110, R118: completion. A row whose checks agree and whose writes hold no pending cutting writes its lines and
leaves the tracker; a table error met on the way is reported; a check that fails (a residue or duplicate check at a write of the row,
parity at a slice line) is a row fault, and the row's writes stop before the failing line. An exchange row leaves the tracker when all
its packets have been acknowledged. Rows that were not issued, that stand behind an earlier row of their class, or of a stopped
sequencer, complete nothing. -/
def Clauses.RowCompletionPart : Prop :=
  ∀ (s : State) (t slot chk line : Nat), let k := s.tile t
    let heldWrite (r : TrackRow) : Bool := r.writes.any (fun w => match w.1 with
      | .hbm u => s.cowHeld (32 * u) 32
      | .slice .. => false)
    (k.track.find? (fun r => r.slot == slot) = none → exec (.rowComplete t slot chk line) s = .next s) ∧
    (∀ r, k.track.find? (fun r => r.slot == slot) = some r → r.cls ≤ 2 → k.stopped = false →
      (r.cls < 2 → k.track.find? (fun q => q.cls == r.cls) = some r ∧ r.slot = slot) →
      (chk ≠ 0 →
        let at_ := if chk = 3 then line else ((r.writes[line]?).map (fun w => w.1.line)).getD 0
        let u := s.checkFails t slot (chk % 3) at_
        exec (.rowComplete t slot chk line) s =
          .next (u.detect (.rowFault t (u.rg Rg.seq_RUN_TABLE_ID t) slot (chk % 3) 0 at_))) ∧
      (chk = 0 → heldWrite r = true → exec (.rowComplete t slot chk line) s = .next s) ∧
      (chk = 0 → heldWrite r = false → r.err ≠ 0 → exec (.rowComplete t slot chk line) s = .next (s.tableErr t r.err slot none)) ∧
      (chk = 0 → heldWrite r = false → r.err = 0 →
        ((s.writeRows t r.writes).2 ≠ 0 → exec (.rowComplete t slot chk line) s =
          .next ((s.writeRows t r.writes).1.tableErr t (s.writeRows t r.writes).2 slot none)) ∧
        ((s.writeRows t r.writes).2 = 0 → let u := (s.writeRows t r.writes).1
          exec (.rowComplete t slot chk line) s =
            .next ((u.setTile t { u.tile t with track := (u.tile t).track.filter (fun q => q.slot != slot) }).perfCycles t)))) ∧
    (∀ r, k.track.find? (fun r => r.slot == slot) = some r →
      (2 < r.cls ∨ k.stopped = true ∨ (r.cls < 2 ∧ ∃ q, k.track.find? (fun q => q.cls == r.cls) = some q ∧ q.slot ≠ slot)) →
      exec (.rowComplete t slot chk line) s = .next s) ∧
    (k.stopped = false → (∃ r ∈ k.track, r.slot = slot ∧ (r.cls = 3 ∨ r.cls = 5) ∧ r.left = 0 ∧ r.err = 0) →
      exec (.exchangeAck t slot) s = .next (s.setTile t { k with track := k.track.filter (fun r => r.slot != slot) })) ∧
    ((∀ r ∈ k.track, r.slot = slot → r.left ≠ 0) ∨ k.stopped = true → exec (.exchangeAck t slot) s = .next s)

/-- R119, R121: PERF_CLR zeroes every performance counter, RES_ERRS, PAR_ERRS and every WRAP flag of its tile and no other register. -/
def Clauses.PerfClear : Prop :=
  ∀ (s : State) (t : Nat), s.Inv → t < 256 → ∃ u, exec (.perfClr t) s = .next u ∧ u = { s with regs := u.regs } ∧
    (∀ f ∈ [Rg.tile_CYC_MATRIX, Rg.tile_CYC_VECTOR, Rg.tile_CYC_CONFLICT, Rg.tile_CYC_HAZARD, Rg.tile_CYC_UNIT, Rg.tile_ROWS,
      Rg.tile_EXCH_OUT_64, Rg.tile_EXCH_IN_64, Rg.tile_RES_ERRS, Rg.tile_PAR_ERRS, Rg.tile_WRAP], u.rg f t = 0) ∧
    (∀ (g : Fld) (j : Nat), j < 2 ^ 20 → (j ≠ t ∨ ∀ f ∈ [Rg.tile_CYC_MATRIX, Rg.tile_CYC_VECTOR, Rg.tile_CYC_CONFLICT,
      Rg.tile_CYC_HAZARD, Rg.tile_CYC_UNIT, Rg.tile_ROWS, Rg.tile_EXCH_OUT_64, Rg.tile_EXCH_IN_64, Rg.tile_RES_ERRS, Rg.tile_PAR_ERRS,
      Rg.tile_WRAP], f.id ≠ g.id) →
      u.rg g j = s.rg g j)

/-- Completion of rows, and clearing the performance counters: the statements above together. -/
def Obligations.RowCompletion : Prop :=
  Clauses.RowCompletionPart ∧ Clauses.PerfClear

/-- R64, R112, R114: what a row writes. A line that no memory holds for the tile, or of a tile that is not enabled or in service, is
error 10, and one outside the output windows and the scratch region of the running table error 8, with nothing written; a line in the
scratch region is written at once. A line of a window then holds the bytes, where no exchange row has written it in this beat. No byte
changes outside the line and, for a LOGGED window, outside the next entry of the commit log. -/
def Obligations.RowWritesStayInWindows : Prop :=
  ∀ (s : State) (t : Nat) (l : Loc) (bs : List Byte),
    (s.locFrom t l = none → s.writeRow t l bs = (s, 10)) ∧
    (∀ u n, l = .slice u n → u ≠ t → (s.tileEnabled u = false ∨ s.tileUp u = false) → s.writeRow t l bs = (s, 10)) ∧
    (∀ k, s.locFrom t l = some k → (∀ u n, l = .slice u n → u = t ∨ (s.tileEnabled u = true ∧ s.tileUp u = true)) →
      let a := kSlice t (32 * (s.runSlot t 0 / 2 ^ 64 % 2 ^ 19) + 64 * (s.tile t).log.length)
      let u := (s.writeRow t l bs).1
      (s.winHit t l = none → s.inScratch t l = false → s.writeRow t l bs = (s, 8)) ∧
      (s.winHit t l = none → s.inScratch t l = true → s.writeRow t l bs = (s.writeB k bs, 0)) ∧
      (∀ lg, s.winHit t l = some lg → (s.writeRow t l bs).2 = 0) ∧
      (∀ lg, s.winHit t l = some lg → s.Inv → Cells.wf s.tiles = true → bs.length = 32 → s.flag Rg.fault_SPARE_VALID = false →
        (∀ n, l = .slice t n → ∀ e ∈ (s.tile t).sent, e.1 ≠ n) → u.readB k 32 = bs) ∧
      (∀ x, s.Inv → bs.length = 32 → s.flag Rg.fault_SPARE_VALID = false → (x < k ∨ k + 32 ≤ x) →
        (s.winHit t l = some true → x < a ∨ a + 64 ≤ x) → u.mem.byte x = s.mem.byte x))

/-- R109-R114, R147: arrival. The packet takes its turn on the Trellis: behind an earlier packet of its row, or where its
operation is another one, nothing happens; of another attempt it is discarded; for a tile that moves to a spare, or of a beat that is
ahead, it is held by its destination; for a tile out of service it is table error 10 of its sender's row in this module; else it lands
and is acknowledged. A held packet is taken once its beat has come. -/
def Clauses.ExchangeTurns : Prop :=
  ∀ (s : State) (n t op : Nat) (i : Instr),
    (op, i) ∈ [(0, Instr.exchangePacketArrive n), (1, .anchorMaxCombine n), (2, .valueAddCombine n)] →
    (s.trellis[n]? = none → exec i s = .next s) ∧
    (∀ p, s.trellis[n]? = some p →
      let first := !(s.trellis.take n).any (fun q => p.sameRow q)
      let u : State := { s with trellis := s.trellis.eraseIdx n }
      let ahead := (p.beat + 256 - s.rg Rg.beat_BEATNO % 256) % 256
      let held : State := u.setTile p.dstTile { u.tile p.dstTile with held := (u.tile p.dstTile).held ++ [p] }
      (p.op ≠ op ∨ first = false → exec i s = .next s) ∧
      (p.op = op → first = true → (s.tile p.dstTile).held.any (fun q => p.sameRow q) = true → exec i s = .next held) ∧
      (p.op = op → first = true → (s.tile p.dstTile).held.any (fun q => p.sameRow q) = false →
        (p.attempt ≠ s.dom.attempt → exec i s = .next u) ∧
        (p.attempt = s.dom.attempt → s.moving p.dstTile = true → exec i s = .next held) ∧
        (p.attempt = s.dom.attempt → s.moving p.dstTile = false → s.tileUp p.dstTile = false →
          (s.myMid p.srcMid = true → exec i s = .next (u.tableErr p.srcTile 10 p.srcSlot none)) ∧
          (s.myMid p.srcMid = false → exec i s = .next u)) ∧
        (p.attempt = s.dom.attempt → s.moving p.dstTile = false → s.tileUp p.dstTile = true → 0 < ahead → ahead < 128 →
          exec i s = .next held) ∧
        (p.attempt = s.dom.attempt → s.moving p.dstTile = false → s.tileUp p.dstTile = true → (ahead = 0 ∨ 128 ≤ ahead) →
          exec i s = .next ((u.landPacket p).acked p)))) ∧
    ((s.tile t).held[n]? = none → exec (.heldPacketRelease t n) s = .next s) ∧
    (∀ q, (s.tile t).held[n]? = some q →
      let far := (q.beat + 256 - s.rg Rg.beat_BEATNO % 256) % 256
      let behind := ((s.tile t).held.take n).any (fun r => q.sameRow r)
      ((0 < far ∧ far < 128) ∨ s.moving t = true ∨ behind = true → exec (.heldPacketRelease t n) s = .next s) ∧
      (far = 0 ∨ 128 ≤ far → s.moving t = false → behind = false → exec (.heldPacketRelease t n) s =
        .next ((s.setTile t { s.tile t with held := (s.tile t).held.eraseIdx n }).takePacket q)))

/-- R76, R112, R113, R147: what a packet does as it lands, EXCH_IN_64 counted (per packet rounded up: log entry 128). A line outside
the output windows (for anchors and partials: outside the LOGGED ones) is table error 8, agreed anchors beyond the slice space error
10, and nothing is written. Else the bytes are written, the anchors combined by signed maximum, or the partials added on their agreed
anchors, entry by entry; and the last packet of a row advances the arrival counter, which saturates. -/
def Clauses.ExchangeLanding : Prop :=
  ∀ (s : State) (p : XPkt), let t := p.dstTile
    let n := p.data.length
    let a := p.addr + (if p.op = 0 then 1 else if p.op = 1 then 2 else 20) * p.first
    let u := s.perf t Rg.tile_EXCH_IN_64 7 ((n + 63) / 64)
    let sender := some (p.srcMid, p.srcTile)
    let counted (v : State) : State := if p.last then v.setTile t { v.tile t with
      arrival := (v.tile t).arrival.set 0 p.dctr (min (2 ^ 16 - 1) ((v.tile t).arrival.getD 0 p.dctr + 1)) } else v
    (u.inWindows t a n (p.op != 0) = false → s.landPacket p = u.tableErr t 8 0 sender) ∧
    (u.inWindows t a n (p.op != 0) = true →
      (p.op = 2 → 32 * u.sliceLines t < p.aaddr + 2 * (p.first + n / 20) → s.landPacket p = u.tableErr t 10 0 sender) ∧
      (p.op = 0 → s.landPacket p = counted (u.exchangeWrite t a p.data (p.srcMid, p.srcTile))) ∧
      (p.op = 1 → s.landPacket p = counted (u.combineAnchors t a (n / 2) p.data)) ∧
      (p.op = 2 → p.aaddr + 2 * (p.first + n / 20) ≤ 32 * u.sliceLines t →
        s.landPacket p = counted (u.combineValues t a (p.aaddr + 2 * p.first) (n / 20) p.data)))

/-- The turn a packet takes, and its landing: the statements above together. -/
def Obligations.ExchangeArrival : Prop :=
  Clauses.ExchangeTurns ∧ Clauses.ExchangeLanding

/-! ## Store, HBM and Furrow -/

/-- R200, R207-R209: the interleave map. In every mode and with 0, 1 or 2 spare pseudo-channels, two different addresses of the
HBM space lie at different places, and each place is a stack below 6, a logical pseudo-channel below P and an offset of the
pseudo-channel. -/
def Obligations.InterleaveMapIsInjective : Prop :=
  ∀ (mode P a b : Nat), (P = 30 ∨ P = 31 ∨ P = 32) → mode < 8 → a < 6 * (P * pcBytes) → b < 6 * (P * pcBytes) →
    let x := hbmMap mode P a
    x.1 < 6 ∧ x.2.1 < P ∧ x.2.2 < pcBytes ∧ (hbmMap mode P b = x → a = b)

/-- R202, R203: the cache of a tile. Writes of CACHE_CTRL (number 0) and the CRANGE registers set their fields, and they and INV change
nothing in the cache before the next tick, which then puts the new partition and ranges in force and empties it; an ABORT tick empties
it too. A miss of a cacheable line that the tile reaches brings in the 256 bytes that hold it and counts; a line that is not cacheable,
cached already, or out of reach brings in nothing. -/
def Obligations.CacheCommands : Prop :=
  ∀ (s : State) (t r a : Nat) (v : BitVec 32), Cells.wf s.tiles = true →
    (let w := s.writeRw (blkFlds .tile) [] t (if r = 0 then 0xC00 else 0xC08 + 4 * (r - 1)) v.toNat
     exec (.cacheCtrlWrite t r v) s = .next (w.setTile t { w.tile t with cachePend := true })) ∧
    (∃ u, exec (.cacheCtrlWrite t r v) s = .next u ∧ u.tile t = { s.tile t with cachePend := true } ∧ u.mem = s.mem) ∧
    exec (.cacheInv t) s = .next (s.setTile t { s.tile t with cachePend := true }) ∧
    (∀ abort, (s.tile t).cachePend = true → ((s.cacheTick t abort).tile t) = { s.tile t with
      cachePend := false, cacheSize := s.rg Rg.tile_SIZE t, cache := [],
      cranges := (List.range 4).map (fun j => (s.rg Rg.tile_CRANGE_BASE (4 * t + j), s.rg Rg.tile_CRANGE_LIM (4 * t + j),
        s.flag Rg.tile_CRANGE_EN (4 * t + j))) }) ∧
    ((s.tile t).cachePend = false → ((s.cacheTick t true).tile t) = { s.tile t with cache := [] } ∧ s.cacheTick t false = s) ∧
    (let may := (s.tile t).cacheable (a / 32 * 32) 32
     (∀ bs, may = true → (s.tile t).cached (a / 256) = none → s.hbmFrom t a = true → s.readHbm (a / 256 * 256) 256 = some bs →
       exec (.cacheMissFill t a) s = .next ((s.setTile t ((s.tile t).fill (a / 256) bs)).cacheCount t Rg.tile_CACHE_MISSES 1)) ∧
     (may = false ∨ (s.tile t).cached (a / 256) ≠ none ∨ s.hbmFrom t a = false ∨ s.readHbm (a / 256 * 256) 256 = none →
       exec (.cacheMissFill t a) s = .next s))

/-- R206, R215-R218: HBM errors and upkeep. A corrected error counts and is reported; another one is reported, counts where it
is uncorrectable, and fails the access of its requester: a row takes error 10, a core's access fails, a live stream takes error 5. A
refresh changes nothing. A reserved slot opens in the beat that its number gives, with SLOT_OPS operations, one fewer with a
calibration; a scrub takes one of them and does 32 bursts; an idle pseudo-channel scrubs one. The pass completes with the last working
pseudo-channel that gets through, and counts. -/
def Obligations.HbmUpkeep : Prop :=
  ∀ (s : State) (a st pc fixed o : Nat) (cal : Bool) (req : HbmReq) (t slot k : Nat) (c : CoreId),
    let n := 32 * st + pc
    let left := s.hbm.slotOps.getD 0 n
    (s.hbmPhys a = none → ∀ kind, exec (.hbmEccError a kind req) s = .next s) ∧
    (s.hbmPhys a = some (st, pc, o) →
      exec (.hbmEccError a 0 req) s = .next ((s.incRg Rg.hbm_CE_COUNT 0 1).detect (.hbmCorrected st pc a)) ∧
      (∀ kind, kind = 1 ∨ kind = 2 →
       let u := (if kind = 1 then s.satRg Rg.hbm_UE_COUNT 0 1 else s).detect (.hbmError st pc a (kind == 2))
       exec (.hbmEccError a kind .scrub) s = .next u ∧
       exec (.hbmEccError a kind (.core c)) s = .next (u.setCore c { u.core c with extFail := true }) ∧
       exec (.hbmEccError a kind (.row t slot)) s = .next (u.setTile t { u.tile t with
         track := (u.tile t).track.map (fun r => if r.slot = slot then { r with err := 10 } else r) }) ∧
       (u.rg Rg.tile_STATE (16 * t + k) = 2 →
         exec (.hbmEccError a kind (.stream t k)) s = .next ((u.streamErr t k 5).detect (.streamError t k 5))) ∧
       (u.rg Rg.tile_STATE (16 * t + k) ≠ 2 → exec (.hbmEccError a kind (.stream t k)) s = .next u))) ∧
    exec (.hbmRefresh st pc) s = .next s ∧
    (let b := if s.dom.ticking then s.rg Rg.beat_BEATNO else s.hbm.idleBeat
     (b % 64 = n % 64 → exec (.reservedSlot st pc cal) s = .next { s with hbm := { s.hbm with
       slotOps := s.hbm.slotOps.set 0 n (s.rg Rg.hbm_SLOT_OPS - (if cal then 1 else 0)) } }) ∧
     (b % 64 ≠ n % 64 → exec (.reservedSlot st pc cal) s = .next s)) ∧
    (s.flag Rg.hbm_SCRUB_EN = true → left ≠ 0 → exec (.scrubOperation st pc fixed) s =
      .next (({ s with hbm := { s.hbm with slotOps := s.hbm.slotOps.set 0 n (left - 1) } }.scrub st pc 32).incRg Rg.hbm_CE_COUNT 0 fixed)) ∧
    (s.flag Rg.hbm_SCRUB_EN = false ∨ left = 0 → exec (.scrubOperation st pc fixed) s = .next s) ∧
    (s.flag Rg.hbm_SCRUB_EN = true → s.flag Rg.hbm_OPPORTUNE = true → left = 0 →
      exec (.opportunisticScrub st pc fixed) s = .next ((s.scrub st pc 1).incRg Rg.hbm_CE_COUNT 0 fixed)) ∧
    (s.flag Rg.hbm_SCRUB_EN = false ∨ s.flag Rg.hbm_OPPORTUNE = false ∨ left ≠ 0 →
      exec (.opportunisticScrub st pc fixed) s = .next s) ∧
    (∀ m, let pos := s.hbm.scrubPos.getD 0 n + m
      let w : State := { s with hbm := { s.hbm with
        scrubPos := s.hbm.scrubPos.set 0 n (pos % (pcBytes / 64)), scrubDone := insertNat n s.hbm.scrubDone } }
      let all : Prop := ∀ j < 192, w.pcWorking (j / 32) (j % 32) = true → j ∈ w.hbm.scrubDone
      (s.scrub st pc m).mem = s.mem ∧
      (pos < pcBytes / 64 → s.scrub st pc m = { s with hbm := { s.hbm with scrubPos := s.hbm.scrubPos.set 0 n pos } }) ∧
      (pcBytes / 64 ≤ pos → all →
        s.scrub st pc m = ({ w with hbm := { w.hbm with scrubDone := [] } } : State).incRg Rg.hbm_SCRUB_PASSES 0 1) ∧
      (pcBytes / 64 ≤ pos → ¬all → s.scrub st pc m = w))

/-- R222, R232: EN and STOP of a stream. EN 1 puts an idle stream into the armed state until a tick; EN 0 of a live stream waits
for the tick, and of any other returns it to idle with its error cleared; STOP waits for the tick on a live stream and else does
nothing. -/
def Clauses.FurrowControl : Prop :=
  ∀ (s : State) (t k : Nat), s.Inv → t < 256 → k < 16 → let i := 16 * t + k
    let st := s.rg Rg.tile_STATE i
    (st = 0 → exec (.furrowEn t k true) s =
      .next (((s.setRg Rg.tile_EN i 1).setRg Rg.tile_STATE i 1).setStream t k { pendEn := true })) ∧
    (st ≠ 0 → exec (.furrowEn t k true) s = .next (s.setRg Rg.tile_EN i 1)) ∧
    (st = 2 → exec (.furrowEn t k false) s = .next ((s.setRg Rg.tile_EN i 0).setStream t k { s.stream t k with pendOff := true }) ∧
      exec (.furrowStop t k) s = .next (s.setStream t k { s.stream t k with pendStop := true })) ∧
    (st ≠ 2 → exec (.furrowEn t k false) s =
        .next ((((s.setRg Rg.tile_EN i 0).setRg Rg.tile_STATE i 0).setRg Rg.tile_ERRCODE i 0).setStream t k {}) ∧
      exec (.furrowStop t k) s = .next s)

/-- R220, R223, R224, R226, R229: delivery. A prefetcher requests the chunk that is due first and notes it in flight; a line of a
requested chunk lands in the ring's slot of its batch and no other byte changes: as the source's bytes where they are those of the
opening of the delivery window, else undefined; a line of a peer's chunk waits for its response; a line whose access fails puts the
stream into error 5 and is reported; lines that were not requested do not land. -/
def Clauses.FurrowDelivery : Prop :=
  ∀ (s : State) (t pf k b c i res : Nat), let d := s.descr t k
    let x := s.stream t k
    let per := d.chunk / 32
    let due : Prop := s.streamState t k = 2 ∧ x.flight.contains (b, i / per) = true ∧
      x.landed.any (fun e => e.1 == b && e.2.1 == i) = false
    (s.dom.ticking = true → s.dom.aborted = false → s.tileUp t = true → s.nextRequest t pf = some (k, b, c) → d.space ≠ 2 →
      exec (.furrowRequestIssue t pf) s = .next (s.setStream t k { x with flight := x.flight ++ [(b, c)] })) ∧
    (s.dom.ticking = true → s.dom.aborted = false → s.tileUp t = true → s.nextRequest t pf = some (k, b, c) → d.space = 2 →
      exec (.furrowRequestIssue t pf) s = .next ((s.setStream t k { x with flight := x.flight ++ [(b, c)] }).peerRead t k b c)) ∧
    (s.dom.ticking = false ∨ s.dom.aborted = true ∨ s.tileUp t = false ∨ s.nextRequest t pf = none →
      exec (.furrowRequestIssue t pf) s = .next s) ∧
    (¬due → exec (.furrowLineLand t k b i res) s = .next s) ∧
    (due → res ≠ 0 → exec (.furrowLineLand t k b i res) s = .next ((s.streamErr t k 5).detect (.streamError t k 5))) ∧
    (let a := kSlice t (32 * (d.base + b % d.slots * d.batch + i))
     let src := d.source b (i / per) + 32 * (i % per)
     let kept (bs : List Byte) : Prop := ∃ w ∈ x.source, w.1 = b ∧ w.2.getD i none = some bs
     (due → d.space ≠ 2 → s.sourceLine t d src = none →
       exec (.furrowLineLand t k b i 0) s = .next ((s.streamErr t k 5).detect (.streamError t k 5))) ∧
     (∀ bs, due → d.space ≠ 2 → s.sourceLine t d src = some bs → bs.length = 32 →
       ∃ u, exec (.furrowLineLand t k b i 0) s = .next u ∧ (kept bs → u.mem = s.mem.write a bs) ∧
         (s.Inv → ∀ y, (y < a ∨ a + 32 ≤ y) → u.mem.byte y = s.mem.byte y) ∧
         (Cells.wf s.streams = true → (u.stream t k).landed = x.landed ++ [(b, i, true)])) ∧
     (due → d.space = 2 → (∀ e ∈ x.resp, ¬(e.1 = b ∧ e.2.1 = i)) → exec (.furrowLineLand t k b i 0) s = .next s) ∧
     (∀ e, due → d.space = 2 → x.resp.find? (fun e => e.1 == b && e.2.1 == i) = some e → e.2.2.length = 32 →
       ∃ u, exec (.furrowLineLand t k b i 0) s = .next u ∧ u.mem = s.mem.write a e.2.2 ∧
         (Cells.wf s.streams = true → (u.stream t k).landed = x.landed ++ [(b, i, true)])))

/-- R222-R225, R227: a stream at a tick. An armed stream whose descriptor meets every rule becomes live in the beat that starts; one
that breaks a rule enters its error state with the lowest code; a live stream with EN 0 pending becomes idle, with STOP pending or
after its last batch done, and else stays live and shows the lines of the beat's batch. An ABORT tick drops what the attempt has
requested and delivered. -/
def Clauses.FurrowAtTick : Prop :=
  ∀ (s : State) (t k n : Nat) (closed : Option Nat), s.Inv → t < 256 → k < 16 → let i := 16 * t + k
    (s.rg Rg.tile_STATE i = 1 → s.enError t k n ≠ 0 → (s.furrowTick n closed t k).rg Rg.tile_STATE i = 4 ∧
      (s.furrowTick n closed t k).rg Rg.tile_ERRCODE i = s.enError t k n) ∧
    (s.rg Rg.tile_STATE i = 1 → s.enError t k n = 0 → (s.furrowTick n closed t k).rg Rg.tile_STATE i = 2) ∧
    (s.rg Rg.tile_STATE i = 2 → (s.stream t k).pendOff = true → (s.furrowTick n closed t k).rg Rg.tile_STATE i = 0) ∧
    (s.rg Rg.tile_STATE i = 2 → (s.stream t k).pendOff = false → (s.stream t k).pendStop = true →
      (s.furrowTick n closed t k).rg Rg.tile_STATE i = 3) ∧
    (let d := s.descr t k
     let ended : Prop := ∃ c, closed = some c ∧ d.cyclic = false ∧ d.start + d.count ≤ c + 1
     s.rg Rg.tile_STATE i = 2 → (s.stream t k).pendOff = false → (s.stream t k).pendStop = false →
      (ended → (s.furrowTick n closed t k).rg Rg.tile_STATE i = 3) ∧
      (¬ended → (s.furrowTick n closed t k).rg Rg.tile_STATE i = 2 ∧
        (Cells.wf s.streams = true → (∀ c, closed = some c → c < n) → d.start ≤ n →
          (s.furrowTick n closed t k).rg Rg.tile_DELIVERED i =
            (s.stream t k).count (n - d.start) % 2 ^ Rg.tile_DELIVERED.w))) ∧
    (s.rg Rg.tile_STATE i = 2 → Cells.wf s.streams = true → ((s.furrowAbort n t k).stream t k) = { s.stream t k with
      flight := [], resp := [], landed := (s.stream t k).landed.filter (fun e => !e.2.2) }) ∧
    (s.rg Rg.tile_STATE i ≠ 2 → s.furrowAbort n t k = s)

/-- Furrow streams: control, delivery and ticks: the statements above together. -/
def Obligations.Furrow : Prop :=
  Clauses.FurrowControl ∧ Clauses.FurrowDelivery ∧ Clauses.FurrowAtTick

/-! ## Dvorar: links, routes and the transport -/

/-- R258-R264: a flit slot arrives. On a link that is not UP nothing changes. The FEC corrects at most 2 bytes of each codeword where
the parity then holds, and FEC_CORR counts the codewords corrected; else the bytes stay as they came. A flit whose CRC is wrong counts
and is reported, and retrains the link as the fourth in a row; a data flit among them asks for the next FSEQ again. A good flit's
symbol is acted on; a data flit in sequence advances the FSEQ and its body is taken, which frees its buffer at once; one out of
sequence asks once for the next FSEQ. A whole packet for this module, alone in a body, is delivered. -/
def Clauses.FlitReceive : Prop :=
  ∀ (s : State) (port : Nat) (bytes : List Byte) (fixed : List (Nat × Byte)), s.Inv → port < 24 →
    Cells.wf s.dv.ports = true → let k := s.port port
    Cells.wf k.freed = true →
    let even := fixed.filter (fun f => f.1 % 2 == 0)
    let odd := fixed.filter (fun f => f.1 % 2 == 1)
    let mended := fixed.foldl (fun (b : List Byte) f => b.set f.1 f.2) bytes
    let mends : Prop := fixed ≠ [] ∧ even.length ≤ 2 ∧ odd.length ≤ 2 ∧
      leNat (mended.drop 248) = (Config.fecParity (mended.take 248)).toNat
    (s.linkUp port = false → exec (.flitRx port bytes fixed) s = .next s) ∧
    (s.countFec port fixed).rg Rg.dvport_FEC_CORR port =
      (s.rg Rg.dvport_FEC_CORR port + (if even = [] then 0 else 1) + (if odd = [] then 0 else 1)) % 2 ^ Rg.dvport_FEC_CORR.w ∧
    (s.linkUp port = true → ∀ (u : State) (bs : List Byte),
      (mends → u = s.countFec port fixed ∧ bs = mended) → (¬mends → u = s ∧ bs = bytes) →
      let head := leNat (bs.take 4)
      let good : Prop := crc32c (bs.take 244) = leNat ((bs.drop 244).take 4)
      let v : State := u.setPort port (u.port port).nextSlot
      let bad : State := ((if bits head 3 2 = 0 then v.detect (.linkRetry port) else v).satRg Rg.dvport_CRC_ERRS port 1).setPort port
        { v.port port with badRun := (v.port port).badRun + 1 }
      let w : State := (v.setPort port { v.port port with badRun := 0, replay := unacked (v.port port).replay head }).actSym port
        (leNat ((bs.drop 4).take 8))
      let vc := bits head 0 3
      let body := (bs.drop 12).take 232
      let next : State := (w.setPort port { w.port port with
        rxNext := ((w.port port).rxNext + 1) % 1024, rxAny := true, nakOpen := false }).wrapCount
          Rg.dvport_FLITS_RX port 1 Rg.dvport_WRAP Rg.dvport_WRAP_SEQ port 1
      (¬good → 3 ≤ (v.port port).badRun → exec (.flitRx port bytes fixed) s = .next (bad.retrainNeg port 3)) ∧
      (¬good → (v.port port).badRun < 3 →
        (bits head 3 2 = 0 → exec (.flitRx port bytes fixed) s = .next ((bad.sendNak port).run port)) ∧
        (bits head 3 2 ≠ 0 → exec (.flitRx port bytes fixed) s = .next (bad.run port))) ∧
      (good → w.linkUp port = false → exec (.flitRx port bytes fixed) s = .next w) ∧
      (good → w.linkUp port = true →
        (bits head 3 2 ≠ 0 → exec (.flitRx port bytes fixed) s = .next (w.run port)) ∧
        (bits head 3 2 = 0 → bits head 5 10 ≠ (w.port port).rxNext → exec (.flitRx port bytes fixed) s =
          .next ((if (w.port port).nakOpen then w else w.sendNak port).run port)) ∧
        (bits head 3 2 = 0 → bits head 5 10 = (w.port port).rxNext → exec (.flitRx port bytes fixed) s =
          .next ((next.takeBody port vc (bits head 15 5) body).run port))) ∧
      (good → bits head 3 2 = 0 → bits (leNat ((bs.drop 4).take 8)) 0 6 = 0 → bits head 5 10 = k.rxNext →
        ∃ t, exec (.flitRx port bytes fixed) s = .next t ∧
          (t.port port).rxNext = (k.rxNext + 1) % 1024 ∧ (t.port port).badRun = 0 ∧ (t.port port).nakOpen = false ∧
          (t.port port).freed.getD 0 vc = (k.freed.getD 0 vc + 1) % 4096 ∧
          (let h := leNat (body.take 32)
           let data := (body.drop 32).take (if pktCarries (bits h 0 8) then bits h 80 13 else 0)
           bits head 15 5 = 0 → k.pass.get? vc = none → k.asm.getD [] vc = [] → bs.length = 256 → pktOk h = true → pktLen h ≤ 232 →
             s.forMe (pktOf h []) = true → (∀ b ∈ body.drop (pktLen h), b = 0) → t.dv.inbox = s.dv.inbox ++ [pktOf h data])))

/-- R262-R264, R267: retry, symbols and credits. A NAK on a link that is not UP changes nothing; else it counts and sends every flit
from its FSEQ on again, and the fourth in a row for one FSEQ retrains. A CREDIT symbol gives back what was freed since the latest one;
a waiting packet leaves in a flit that carries the oldest symbol due and is kept for a replay, and the other symbols due leave on
idle flits. A symbol leaves an UP link at once, in four slots where its type asks for it; of a type that comes four times a further copy
is ignored. -/
def Clauses.RetryAndCredits : Prop :=
  ∀ (s : State) (port fseq vc cum : Nat), s.Inv → port < 24 →
    Cells.wf s.dv.ports = true → let k := s.port port
    Cells.wf k.credit = true →
    let lanes := s.rg Rg.dvport_LANES port
    let n := if k.nakSeq.1 = fseq ∧ k.nakSeq.2 ≠ 0 then k.nakSeq.2 + 1 else 1
    let named : State := (s.setPort port { k with nakSeq := (fseq, n) }).satRg Rg.dvport_REPLAYS port 1
    let back := (cum + 4096 - k.creditSeen.getD 0 vc % 4096) % 4096
    let c := { k with credit := k.credit.set 0 vc (k.credit.getD 0 vc + back), creditSeen := k.creditSeen.set 0 vc cum }
    let idle (w : Nat) : Out := .idle port lanes (k.header 0 1 0 31) w
    (s.linkUp port = false → exec (.nakSymbol port fseq) s = .next s) ∧
    (s.linkUp port = true → n < 4 →
      (let fs := k.replay.dropWhile (fun f => f.fseq != fseq)
       exec (.nakSymbol port fseq) s = .next (fs.foldl (fun s f => s.sendFlit port f) named) ∧
       (k.due = [] → ∃ t, exec (.nakSymbol port fseq) s = .next t ∧
         t.out = (fs.map (fun f => Out.flit port lanes (flitBytes (k.header f.vc 0 f.fseq f.first) 0 f.body))).reverse ++ s.out ∧
         t.port port = { k with nakSeq := (fseq, n) }))) ∧
    (s.linkUp port = true → 4 ≤ n → exec (.nakSymbol port fseq) s = .next ((named.retrain port 1).sendNeg port)) ∧
    (k.queue = [] → exec (.creditSymbol port vc cum) s = .next ((s.setPort port c).idle port)) ∧
    (k.queue = [] → k.drop = none → ∃ t, exec (.creditSymbol port vc cum) s = .next t ∧
      t.out = (k.due.map idle).reverse ++ s.out ∧ t.port port = { c with due := [] }) ∧
    (∀ e, k.queue = [e] → e.vc = vc → e.toCome = 0 → e.begun = false → e.bytes ≠ [] → e.bytes.length ≤ 232 →
      s.linkUp port = true → k.drop = none → k.replay.length < 512 → k.credit.getD 0 vc + back ≠ 0 →
      ∃ t, exec (.creditSymbol port vc cum) s = .next t ∧
        t.out = (k.due.tail.map idle).reverse ++
          .flit port lanes (flitBytes (k.header vc 0 k.txNext 0) (k.due.headD 0) e.bytes) :: s.out ∧
        (t.port port).queue = [] ∧ (t.port port).due = [] ∧ (t.port port).txNext = (k.txNext + 1) % 1024 ∧
        (t.port port).replay = k.replay ++ [{ fseq := k.txNext, vc := vc, first := 0, body := e.bytes }] ∧
        (t.port port).credit.getD 0 vc = k.credit.getD 0 vc + back - 1) ∧
    (∀ ty pay, k.due = [] → k.drop = none →
      (s.linkUp port = true → (s.symbol port ty pay).out =
        List.replicate (if ty = 4 ∨ ty = 5 ∨ ty = 6 ∨ ty = 7 ∨ ty = 8 ∨ ty = 11 then 4 else 1) (idle (ty + pay)) ++ s.out) ∧
      (s.linkUp port = false → ty ≠ 12 → (s.symbol port ty pay).out = s.out)) ∧
    (∀ w m, fourTimes (bits w 0 6) = true → k.lastSym = some (w, m) → s.actSym port w = s)

/-- Flits, retry and credits of a link: the statements above together. -/
def Obligations.LinkRetryAndCredits : Prop :=
  Clauses.FlitReceive ∧ Clauses.RetryAndCredits

/-- R275, R276, R279, R576: training. Signal on an enabled link whose half is up starts it, unless a flow fault holds links
DOWN; in TRAINING it shows that the end is trained, which negotiates and sends its words (log entry 137), as the first NEG word of the
other end does; the end of a negotiation fails it with code 1 for the version, 2 for fewer than four lanes and 3 for
the flight time, and else the link is UP with version 1, the features both ends have and the lanes of both. A timeout or a write
of RETRAIN retrains a link that is UP; a retrain that fails starts again, and the third in a row retires the link. -/
def Clauses.LinkTraining : Prop :=
  ∀ (s : State) (d idx word delay : Nat), s.Inv → d < 24 → Cells.wf s.dv.ports = true → let k := s.port d
    let st := s.rg Rg.dvport_STATE d
    let w0 := k.neg.getD 0 0
    let lanes := bits w0 16 8 &&& k.lanes
    let noted : State := s.setPort d { k with neg := k.neg.put idx word }
    let failed : State := s.setPort d { k with fails := k.fails + 1, neg := [] }
    (s.flag Rg.dvport_EN d = true → s.halfUp (d / 12) = true → s.power.held = false → (st = 0 ∨ st = 5) →
      exec (.linkSignalDetect d) s = .next ((s.setPort d { k with neg := [] }).linkSet d 1 0)) ∧
    (s.flag Rg.dvport_EN d = true → s.halfUp (d / 12) = true → s.power.held = false → st = 1 →
      exec (.linkSignalDetect d) s = .next ((s.linkSet d 2 0).sendNeg d)) ∧
    (s.flag Rg.dvport_EN d = false ∨ s.halfUp (d / 12) = false ∨ s.power.held = true ∨ (st ≠ 0 ∧ st ≠ 1 ∧ st ≠ 5) →
      exec (.linkSignalDetect d) s = .next s) ∧
    (st = 1 → exec (.negSymbol d idx word) s = .next ((noted.linkSet d 2 (s.rg Rg.dvport_LANES d)).sendNeg d)) ∧
    (st = 2 ∨ st = 4 → exec (.negSymbol d idx word) s = .next noted) ∧
    (st ≠ 1 ∧ st ≠ 2 ∧ st ≠ 4 → exec (.negSymbol d idx word) s = .next s) ∧
    (st = 2 ∨ st = 4 →
      (bitN w0 1 = false → exec (.negotiationComplete d delay) s = .next (s.negFail d 1)) ∧
      (bitN w0 1 = true → popCount 8 lanes < 4 → exec (.negotiationComplete d delay) s = .next (s.negFail d 2)) ∧
      (bitN w0 1 = true → 4 ≤ popCount 8 lanes → 800 < delay → exec (.negotiationComplete d delay) s = .next (s.negFail d 3)) ∧
      (bitN w0 1 = true → 4 ≤ popCount 8 lanes → delay ≤ 800 → ∃ t, exec (.negotiationComplete d delay) s = .next t ∧
        t.rg Rg.dvport_STATE d = 3 ∧ t.rg Rg.dvport_LANES d = lanes ∧ t.rg Rg.dvport_VERSION d = 1 ∧
        t.rg Rg.dvport_FEATURES d = (k.neg.getD 0 1 &&& 0x1F) % 2 ^ Rg.dvport_FEATURES.w ∧ t.rg Rg.dvport_NEG_ERR d = 0)) ∧
    (∀ code, code < 4 → (s.negFail d code).rg Rg.dvport_STATE d = 5 ∧ (s.negFail d code).rg Rg.dvport_NEG_ERR d = code) ∧
    (st ≠ 2 ∧ st ≠ 4 → exec (.negotiationComplete d delay) s = .next s) ∧
    (s.linkUp d = true → exec (.linkTimeout d) s = .next ((s.retrain d 0).sendNeg d) ∧
      exec (.retrain d) s = .next ((s.retrain d 2).sendNeg d) ∧ (s.retrain d 2).rg Rg.dvport_STATE d = 4) ∧
    (s.linkUp d = false → exec (.linkTimeout d) s = .next s ∧ exec (.retrain d) s = .next s) ∧
    (st = 4 → k.fails < 2 → exec (.retrainTimeout d) s = .next ((failed.satRg Rg.dvport_RETRAINS d 1).sendNeg d)) ∧
    (st = 4 → 2 ≤ k.fails → let r : FaultRec := { cls := 2, unit := 5, index := d, check := 10, beat := s.rg Rg.beat_BEATNO }
      exec (.retrainTimeout d) s = .next (((failed.countReport r).logPair r 4 0).retireLink d 0)) ∧
    (st ≠ 4 → exec (.retrainTimeout d) s = .next s)

/-- R277: lanes. A lane in use that loses lock, or the lowest one whose corrected codewords of a window pass LANE_CE_LIMIT, is logged
and retired, one at a time: one that loses lock while another is being dropped waits for its turn, and on a link that is not UP the end
trains without it. A retired lane asks the other end to drop it, or retires the link where fewer than four are left or LANE_RETIRE is not
agreed. A window shows its counts and starts again. LANE_DROP moves an UP link to the lanes in use that the mask keeps, and is
confirmed; with fewer than four lanes left the link retires. When the lanes are deskewed, every flit not acknowledged is sent again, and
a lane that waits has its turn. -/
def Clauses.LinkLanes : Prop :=
  ∀ (s : State) (d lane mask check : Nat), s.Inv → d < 24 → Cells.wf s.dv.ports = true → let k := s.port d
    let r (check : Nat) : FaultRec := { cls := 2, unit := 4, index := d, sub := lane, check := check, beat := s.rg Rg.beat_BEATNO }
    let inUse := s.rg Rg.dvport_LANES d
    let free : Prop := k.asked = none ∧ k.drop = none
    let m := mask &&& inUse
    let asked (s : State) : State := s.setPort d { s.port d with asked := none, drop := some m, lanes := (s.port d).lanes &&& m }
    let confirmed : State := s.symbol d 11 (dropWord mask true)
    let counts : State := ((List.range 8).foldl (fun s l => s.setRg Rg.dvport_LANE_CE (8 * d + l) (k.ce.getD 0 l)) s).setPort d { k with ce := [] }
    let again : State := ((s.setPort d { k with drop := none, slot := 0, unlocked := k.unlocked.tail }).resendFlits d k.replay).run d
    (s.linkUp d = false → exec (.laneLockLost d lane) s = .next (s.setPort d { k with lanes := setBits k.lanes lane 1 0 })) ∧
    (s.linkUp d = true → ¬free →
      exec (.laneLockLost d lane) s = .next (s.setPort d { k with unlocked := insertNat lane k.unlocked })) ∧
    (s.linkUp d = true → free → bitN inUse lane = true →
      exec (.laneLockLost d lane) s = .next (((s.countReport (r 10)).logPair (r 10) 4 0).retireLane d lane)) ∧
    (s.linkUp d = true → free → bitN inUse lane = false → exec (.laneLockLost d lane) s = .next s) ∧
    (s.linkUp d = true → free → bitN inUse lane = true →
      s.laneOut d lane check = ((s.countReport (r check)).logPair (r check) 4 0).retireLane d lane ∧
      (let left := inUse - 2 ^ lane
       (popCount 8 left < 4 ∨ s.rg Rg.dvport_FEATURES d % 2 = 0 → (s.retireLane d lane).rg Rg.dvport_STATE d = 6) ∧
       (4 ≤ popCount 8 left → s.rg Rg.dvport_FEATURES d % 2 = 1 → ((s.retireLane d lane).port d).asked = some left))) ∧
    (s.linkUp d = false ∨ ¬free ∨ bitN inUse lane = false → s.laneOut d lane check = s) ∧
    ((∀ l, l < 8 → k.ce.getD 0 l ≤ s.rg Rg.dvport_LANE_CE_LIMIT d) → exec (.laneCeWindow d) s = .next counts) ∧
    (lane < 8 → s.rg Rg.dvport_LANE_CE_LIMIT d < k.ce.getD 0 lane → (∀ l, l < lane → k.ce.getD 0 l ≤ s.rg Rg.dvport_LANE_CE_LIMIT d) →
      exec (.laneCeWindow d) s = .next (counts.laneOut d lane 5)) ∧
    (∀ l, l < 8 → counts.rg Rg.dvport_LANE_CE (8 * d + l) = k.ce.getD 0 l % 2 ^ Rg.dvport_LANE_CE.w) ∧
    (s.linkUp d = false → ∀ b, exec (.laneDropSymbol d mask b) s = .next s) ∧
    (s.linkUp d = true → 4 ≤ popCount 8 m → exec (.laneDropSymbol d mask true) s = .next ((asked s).linkSet d 3 m) ∧
      exec (.laneDropSymbol d mask false) s = .next ((asked confirmed).linkSet d 3 m)) ∧
    (s.linkUp d = true → popCount 8 m < 4 → exec (.laneDropSymbol d mask true) s = .next ((asked s).retireLink d 1) ∧
      exec (.laneDropSymbol d mask false) s = .next ((asked confirmed).retireLink d 1)) ∧
    (s.linkUp d = true → k.drop ≠ none →
      (k.unlocked = [] → exec (.laneDeskewDone d) s = .next again) ∧
      (∀ l t, k.unlocked = l :: t → exec (.laneDeskewDone d) s = .next (again.laneOut d l 10))) ∧
    (s.linkUp d = false ∨ k.drop = none → exec (.laneDeskewDone d) s = .next s)

/-- Dvorar link training and lanes: the statements above together. -/
def Obligations.LinkTrainingAndLanes : Prop :=
  Clauses.LinkTraining ∧ Clauses.LinkLanes

/-- R238, R239, R264, R270-R272, R280: placement, the link map, routes and probes. PLACE_VALID 1 asks for the check at the next COMMIT
tick. An LSTATE symbol newer than the map's entry updates it and is passed on; an older one, and one of this module's own, only show
that the other end has it. The master probes every active member but itself; the target of a PROBE answers it; an answer clears the
misses it had, and two misses in a row, or no working path in the link map, make a member unreachable. SWAP waits for the next tick,
which makes the other bank the active one. The fault manager computes entries only with AUTO_EN 1 and only where one has no usable port,
and then asks for the swap; the port of a route it computes is UP. -/
def Obligations.RoutesAndProbes : Prop :=
  ∀ (s : State) (d mid p seq target origin tag : Nat) (up v : Bool), s.Inv →
    let i := 32 * mid + p
    let new (e : Bool × Nat) : Prop := 0 < (seq + 4096 - e.2) % 4096 ∧ (seq + 4096 - e.2) % 4096 < 2048
    let noted : State := { s with dv := { s.dv with linkMap := s.dv.linkMap.put i (up, seq) } }
    (∃ t, exec (.placeValidWrite v) s = .next t ∧ t.gate = { s.gate with placeAsk := v } ∧ t.rg Rg.place_PLACE_VALID = ofBool v ∧
      t.mem = s.mem) ∧
    (mid ≠ s.rg Rg.beat_MID → (∀ e, s.dv.linkMap.get? i = some e → new e) →
      exec (.lstateSymbol d mid p up seq) s =
        .next (((noted.flood (lstateWord mid p (ofBool up) seq)).echoed d mid p seq).reroute)) ∧
    (mid = s.rg Rg.beat_MID ∨ (∃ e, s.dv.linkMap.get? i = some e ∧ ¬new e) →
      exec (.lstateSymbol d mid p up seq) s = .next (s.echoed d mid p seq)) ∧
    ((s.port d).unechoed = [] → s.echoed d mid p seq = s) ∧
    (s.isMaster = true → Cells.wf s.dv.missed = true → 1 ≤ s.dv.missed.getD 0 target →
      ∃ t, exec (.probeTimeout target) s = .next t ∧ t.unreachable target = true) ∧
    (s.unreachable target = false → s.dv.missed.getD 0 target < 2 ∧ s.pathTo target = true) ∧
    (s.flag Rg.dvorar_AUTO_EN = false ∨ s.unrouted = [] → s.reroute = s) ∧
    (s.flag Rg.dvorar_AUTO_EN = true → s.unrouted ≠ [] → s.reroute.dv.swapPend = true) ∧
    ((∀ q, q < 24 → s.rg Rg.dvport_PEER_MID q ≠ s.rg Rg.beat_MID) → ∀ q, s.upDown target = some q →
      q < 24 ∧ s.linkUp q = true ∧ (s.port q).barred = false) ∧
    (24 ≤ d → exec (.probeReply d target origin tag) s = .next s) ∧
    (s.isMaster = true → exec .probeSend s = .next ((s.members.filter (fun m => m != s.rg Rg.beat_MID && !s.standby m)).foldl
      (fun t m => t.hop m 9 (probeWord m (s.rg Rg.beat_MID) ((s.dv.tag + 1) % 256)))
      { s with dv := { s.dv with tag := (s.dv.tag + 1) % 256 } })) ∧
    (s.isMaster = false → exec .probeSend s = .next s ∧ exec (.probeTimeout target) s = .next s) ∧
    (target = s.rg Rg.beat_MID → exec (.probeSymbol d target origin tag) s = .next (s.symbol d 10 (probeWord target origin tag))) ∧
    (target ≠ s.rg Rg.beat_MID → exec (.probeSymbol d target origin tag) s = .next (s.hop target 9 (probeWord target origin tag))) ∧
    (d < 24 → origin = s.rg Rg.beat_MID → exec (.probeReply d target origin tag) s =
      .next { s with dv := { s.dv with missed := s.dv.missed.del target } }) ∧
    (d < 24 → origin ≠ s.rg Rg.beat_MID → exec (.probeReply d target origin tag) s =
      .next (s.hop origin 10 (probeWord target origin tag))) ∧
    (s.isMaster = true → exec (.probeTimeout target) s = .next { s with dv := { s.dv with
      missed := s.dv.missed.set 0 target (s.dv.missed.getD 0 target + 1) } }) ∧
    exec .routeSwap s = .next { s with dv := { s.dv with swapPend := true } } ∧
    (s.dv.swapPend = true → s.rg Rg.dvorar_ACTIVE ≤ 1 → s.routeTick.rg Rg.dvorar_ACTIVE = 1 - s.rg Rg.dvorar_ACTIVE ∧
      s.routeTick.dv.swapPend = false) ∧
    (∀ q e, q.dst ≠ s.rg Rg.beat_MID → s.flag Rg.dvorar_ALIAS_EN = false → s.route (s.rg Rg.dvorar_ACTIVE) q.dst = e → bitN e 22 = true →
      ∀ x y, s.usable e = [x, y] → bits e 20 2 = 1 → s.choose q = some (if q.psn % 2 = 0 then x else y))

/-- R284-R288: a request packet. One of another attempt of the beat is discarded; one of an operation that has been refused draws the
refusal again at its turn, and is discarded before it (a READ is refused by itself); a duplicate is acknowledged and discarded; one ahead
of its turn is held while the reorder store of 2 MiB of its engine has room (which engine: log entry 141); the next one is applied,
after which the connection expects the PSN behind it and, behind the last packet of an operation, an ACK has gone out. -/
def Clauses.DvRequests : Prop :=
  ∀ (s : State) (n op : Nat) (i : Instr) (p : DvPkt),
    (op, i) ∈ [(1, Instr.dvWrite n), (2, .dvExch n), (3, .combineAnchor n), (4, .combineValue n), (5, .dvRead n)] →
    let u : State := { s with dv := { s.dv with inbox := s.dv.inbox.eraseIdx n } }
    let k := recvKey p.src p.origin p.cn
    let r := s.recv k
    let live : Prop := p.origin = 2 ∨ p.epoch = s.dom.attempt
    let dup := !psnGe p.psn r.next || r.held.any (fun q => q.psn == p.psn)
    let engine := if p.origin ≠ 2 then p.cn / 8 % 2 else if p.space = 0 then p.addr / 2 ^ 24 / 128 % 2 else 2
    let held : State := u.setRecv k { r with held := r.held ++ [p] }
    let taken : Prop := s.dv.inbox[n]? = some p ∧ p.op = op ∧ live ∧ (op = 5 ∨ ∀ c, r.refused ≠ some (p.opid, c))
    (s.dv.inbox[n]? = none → exec i s = .next s) ∧
    (s.dv.inbox[n]? = some p → p.op ≠ op → exec i s = .next s) ∧
    (s.dv.inbox[n]? = some p → p.op = op → ¬live → exec i s = .next u) ∧
    (s.dv.inbox[n]? = some p → p.op = op → live → op ≠ 5 → ∀ c, r.refused = some (p.opid, c) →
      (p.psn = r.next → exec i s = .next (u.respond k 0x13 p.psn c p.opid 0 [] p.last)) ∧
      (p.psn ≠ r.next → exec i s = .next u)) ∧
    (taken → dup = true → exec i s = .next (u.ack k)) ∧
    (taken → dup = false → p.psn ≠ r.next →
      (2 * 2 ^ 20 < s.reorderUsed engine + p.data.length → exec i s = .next u) ∧
      (s.reorderUsed engine + p.data.length ≤ 2 * 2 ^ 20 → exec i s = .next (held.ack k))) ∧
    (taken → dup = false → p.psn = r.next →
      exec i s = .next (held.advance k (r.held.length + 1)) ∧
      (∀ v, r.held = [] → p.last = true → held.applyPkt k p = .ok v → v.recv k = { r with held := [p] } →
        Cells.wf v.dv.recv = true → ∃ t, exec i s = .next t ∧ (t.recv k).next = (r.next + 1) % 2 ^ 24 ∧ (t.recv k).held = [] ∧
          (t.recv k).since = 0 ∧ t.mem = v.mem))

/-- R201, R285, R288, R290-R292, R450: what a packet in turn does. A WRITE and a READ store and answer bytes of a tile's slice, of HBM (with XLATE
through the page's entry), or of hub SRAM; a range beyond its space and SPACE 3 are cause 4, a tile out of service cause 5, a read-only
page cause 6, a page without a valid entry a miss; a READ inside an output window, a WRITE to a pending cutting, and both at a tile that
moves wait. EXCH and COMBINE go to the destination tile's exchange. A refused READ is answered with the cause and passed; any other
refused packet is answered with NACK_ERR, and its operation's packets go; a miss is answered with PAGE_WAIT and told to the paging
service; a packet that waits stalls its connection. -/
def Clauses.DvApplied : Prop :=
  ∀ (s : State) (k n : Nat) (p : DvPkt),
    let r := s.recv k
    let t := p.addr / 2 ^ 24
    let o := p.addr % 2 ^ 24
    let answer (bs : List Byte) : Applied := .ok ((s.respond k 6 p.psn 0 p.opid p.addr bs p.last).drawn)
    let plain : Prop := p.xlate = false ∨ s.flag Rg.dvorar_XLATE_EN = false
    (p.space = 2 → p.addr + p.len ≤ 96 * 2 ^ 20 →
      (p.op = 1 → s.applyPkt k p = .ok (s.writeHub p.addr p.data) ∧
        ((∀ j, j < p.data.length → s.sieveBank (p.addr + j) = none) →
          (s.writeHub p.addr p.data) = s.writeB (kHub p.addr) p.data)) ∧
      (p.op = 5 → s.applyPkt k p = answer (s.readB (kHub p.addr) p.len))) ∧
    (p.op = 1 ∨ p.op = 5 → (p.space = 2 ∧ 96 * 2 ^ 20 < p.addr + p.len) ∨ p.space = 3 → s.applyPkt k p = .refuse 4) ∧
    (p.op = 1 ∨ p.op = 5 → p.space = 0 →
      (s.moving t = true → s.applyPkt k p = .waitTick) ∧
      (s.moving t = false → s.tileUp t = false → s.applyPkt k p = .refuse 5) ∧
      (s.moving t = false → s.tileUp t = true → 32 * s.sliceLines t < o + p.len → s.applyPkt k p = .refuse 4) ∧
      (s.moving t = false → s.tileUp t = true → o + p.len ≤ 32 * s.sliceLines t →
        (p.op = 1 → s.applyPkt k p = .ok (s.writeB (kSlice t o) p.data)) ∧
        (p.op = 5 → (∃ l ∈ linesOf o p.len, s.winWaits t (.slice t l) = true) → s.applyPkt k p = .waitTick) ∧
        (p.op = 5 → (∀ l ∈ linesOf o p.len, s.winWaits t (.slice t l) = false ∧ s.inScratch t (.slice t l) = false ∧
          s.inLog t (.slice t l) = false) → s.applyPkt k p = answer (s.committedSlice t o p.len)))) ∧
    (p.space = 1 → plain →
      (p.op = 1 → (s.cowHeld p.addr p.len = true → s.applyPkt k p = .waitTick) ∧
        (s.cowHeld p.addr p.len = false → s.hbmOk p.addr p.len = true →
          s.applyPkt k p = .ok (s.writeHbm p.addr (p.data.take p.len))) ∧
        (s.cowHeld p.addr p.len = false → s.hbmOk p.addr p.len = false → s.applyPkt k p = .refuse 4)) ∧
      (p.op = 5 → (∀ bs, s.committedHbm p.addr p.len = some bs → s.applyPkt k p = answer bs) ∧
        (s.committedHbm p.addr p.len = none → s.applyPkt k p = .refuse 4))) ∧
    (p.op = 1 ∨ p.op = 5 → p.space = 1 → p.xlate = true → s.flag Rg.dvorar_XLATE_EN = true → p.addr + p.len ≤ 2 ^ 39 →
      p.addr % 2 ^ 21 + p.len ≤ 2 ^ 21 →
      let e := s.rattEntry p.addr
      let a := e % 2 ^ 18 * 2 ^ 21 + p.addr % 2 ^ 21
      (bitN e 18 = false → s.applyPkt k p = .miss) ∧
      (bitN e 18 = true → bitN e 19 = false → p.op = 1 → s.applyPkt k p = .refuse 6) ∧
      (bitN e 18 = true → bitN e 19 = true → p.op = 1 → s.cowHeld a p.len = false → s.hbmOk a p.len = true →
        s.applyPkt k p = .ok (s.writeHbm a (p.data.take p.len))) ∧
      (bitN e 18 = true → p.op = 5 → ∀ bs, s.committedHbm a p.len = some bs → s.applyPkt k p = answer bs)) ∧
    (2 ≤ p.op → p.op ≤ 4 →
      (p.space ≠ 0 → s.applyPkt k p = .refuse 4) ∧
      (p.space = 0 → s.tileUp t = false → s.applyPkt k p = .refuse 5) ∧
      (p.space = 0 → s.tileUp t = true → let v := s.takePacket (xpktOf p r.entry)
        s.applyPkt k p = .ok (v.setRecv k { v.recv k with entry := if p.last then 0 else r.entry + pktEntries p }))) ∧
    (r.held.find? (fun q => q.psn == r.next) = none → s.advance k n = s) ∧
    (r.held.find? (fun q => q.psn == r.next) = some p →
      (∀ c, s.applyPkt k p = .refuse c → p.op ≠ 5 → s.advance k (n + 1) = (s.setRecv k { r with
        held := r.held.filter (fun q => q.opid != p.opid), refused := some (p.opid, c), stall := none, stallTick := false }).respond
          k 0x13 p.psn c p.opid 0 [] p.last) ∧
      (∀ c, s.applyPkt k p = .refuse c → p.op = 5 → ∃ v : State, s.advance k (n + 1) = v.advance k n ∧
        v.mem = (s.respond k 6 p.psn (1 + 2 * c) p.opid p.addr [] p.last).mem ∧
        (Cells.wf s.dv.recv = true → (v.recv k).next = (r.next + 1) % 2 ^ 24)) ∧
      (s.applyPkt k p = .miss → s.advance k (n + 1) = ((s.setRecv k { r with stall := some p.psn }).respond k 0x11 p.psn 0 p.opid 0 []
        false).emit (.paging p.src p.cn p.addr)) ∧
      (s.applyPkt k p = .waitTick → s.advance k (n + 1) = s.setRecv k { r with stall := some p.psn, stallTick := true }))

/-- R284, R285, R287, R288, R291: responses. One that is not there, or of another attempt, changes nothing else. An ACK takes
what its PSN covers from the window, restarts RTO, and ends with a full record the operation that has nothing left; PAGE_WAIT stops the
RTO; PAGE_RETRY has everything from its PSN on sent again, and after PAGE_RETRIES of them ends the operation with cause 3; a READ_RESP stores
its bytes and answers one packet of its operation, or with an error ends it with its cause, as NACK_ERR does, after which empty packets
take the places of its own (log entry 140); a beat connection's NACK_ERR is table error 10 of the row. An operation that ends leaves its
record: STATE 1 with the bytes done, or 2 with none, and the cause. -/
def Clauses.DvResponses : Prop :=
  ∀ (s u : State) (n op : Nat) (i : Instr) (p : DvPkt),
    (op, i) ∈ [(0x10, Instr.dvAck n), (6, .dvReadResp n), (0x11, .dvPageWait n), (0x12, .dvPageRetry n), (0x13, .dvNackErr n)] →
    let k := connKey p.origin p.cn
    let c := u.conn k
    let live : Prop := p.origin = 2 ∨ p.epoch = u.dom.attempt
    let tries := if c.pageTry.1 = p.psn then c.pageTry.2 + 1 else 1
    let again : State := u.setConn k { c with pageTry := (p.psn, tries), resend := some p.psn, pageWait := some p.psn }
    let answered (o : DvOp) : DvOp := { o with left := o.left.filter (fun x => x.1 != p.psn) }
    (s.fromInbox n op = none → exec i s = .next s) ∧
    (s.fromInbox n op = some (p, u) → ¬live → exec i s = .next u) ∧
    (s.fromInbox n op = some (p, u) → live →
      (op = 0x10 → exec i s = .next (u.takeAck k p) ∧
        (c.wait = [] → c.sent ≠ [] → (∀ q ∈ c.sent, psnGe p.psn q.psn = true ∧ q.op = 5 ∧ ∀ o ∈ c.ops, q.psn ∉ o.uncovered) →
          Cells.wf u.dv.send = true →
          u.takeAck k p = u.setConn k { c with
            sent := [], una := (p.psn + 1) % 2 ^ 24, rto := u.rg Rg.dvorar_RTO_INIT, expiries := 0, pageWait := none }) ∧
        (∀ q o x, c.wait = [] → c.sent = [q] → psnGe p.psn q.psn = true → q.op = 1 → c.ops = [o] → o.read = false →
          o.left = [(q.psn, x)] → o.uncovered = [] → (∀ t j b c, o.owner ≠ .chunk t j b c) → Cells.wf u.dv.send = true →
          (u.takeAck k p).dv.ended = u.dv.ended ++ [{ owner := o.owner, opid := o.opid, state := 0, cause := 0, bytes := o.len }] ∧
          ((u.takeAck k p).conn k).ops = [] ∧ ((u.takeAck k p).conn k).sent = [])) ∧
      (op = 0x11 → exec i s = .next (u.setConn k { c with pageWait := some p.psn })) ∧
      (op = 0x12 → tries < u.rg Rg.dvorar_PAGE_RETRIES → exec i s = .next again) ∧
      (op = 0x12 → u.rg Rg.dvorar_PAGE_RETRIES ≤ tries →
        let q? := c.sent.find? (fun q => q.psn == p.psn)
        let o? := c.ops.find? (fun o => o.left.any (fun x => x.1 == p.psn))
        (q? = none ∨ o? = none → exec i s = .next again) ∧
        (∀ q o, q? = some q → o? = some o →
          let v := (again.opFail k o 3 (if o.read then o.prefixBytes else o.offsetOf p.psn)).voidOp k o.opid
          let w : State := v.setConn k { v.conn k with pageTry := (0, 0), resend := none, pageWait := none }
          exec i s = .next ((w.againFrom k p.psn).event 0x0307 (c.peer + q.cn * 2 ^ 8 + q.addr * 2 ^ 64) (s.connFunc k)))) ∧
      (op = 6 → u.opOf k p.psn true = none → exec i s = .next u) ∧
      (op = 6 → ∀ o, u.opOf k p.psn true = some o →
        (p.aux % 2 = 1 → exec i s = .next (u.opFail k o (bits p.aux 1 6) o.prefixBytes)) ∧
        (p.aux % 2 = 0 → (∀ t j b c, o.owner ≠ .chunk t j b c) →
          (∀ x, o.sink = some x →
            exec i s = .next ((u.storeSink x (p.addr - o.addr) p.data).opStep k (answered o))) ∧
          (o.sink = none → exec i s = .next (u.opStep k (answered o)))) ∧
        (p.aux % 2 = 0 → ∀ t j b c, o.owner = .chunk t j b c →
          exec i s = .next ((u.chunkLines t j b c (p.addr - o.addr) p.data).opStep k (answered o)))) ∧
      (op = 0x13 → ∀ o, u.opOf k p.psn false = some o →
        exec i s = .next (((u.opFail k o (p.aux % 64) (o.offsetOf p.psn)).voidOp k o.opid).againFrom k p.psn)) ∧
      (op = 0x13 → u.opOf k p.psn false = none →
        (∀ q, c.sent.find? (fun q => q.psn == p.psn) = some q →
          (k < 2 ^ 13 → 2 ≤ q.op → q.op ≤ 4 →
            exec i s = .next (u.tableErr (q.opid / 4096) 10 (q.opid % 4096) none)) ∧
          (2 ^ 13 ≤ k ∨ q.op < 2 ∨ 4 < q.op → exec i s = .next u)) ∧
        (c.sent.find? (fun q => q.psn == p.psn) = none → exec i s = .next u))) ∧
    (∀ (o : DvOp) (key cause done : Nat), (∀ t j b c, o.owner ≠ .chunk t j b c) → (o.left ≠ [] ∨ o.uncovered ≠ []) →
      (u.opFail key o cause done).dv.ended = u.dv.ended ++
        [{ owner := o.owner, opid := o.opid, state := if done = 0 then 2 else 1, cause := cause, bytes := done }])

/-- R285, R288, R291, R337: the timers of connections. An applied packet is acknowledged within its time; an RTO sends the
oldest open packet again and doubles, and at RETRY_LIMIT the connection errs and reports its peer; a stalled packet is performed
when its entry is valid, and after its time, the entry still invalid, it and all behind it are discarded and PAGE_RETRY goes out; after
RESEND_DELAY everything from the PSN on is sent again; a READ without its response goes out again under a new PSN. ORIGIN 3 names an
Ethernet context. -/
def Clauses.ConnectionTimers : Prop :=
  ∀ (s : State) (src origin cn psn : Nat), let k := connKey origin cn
    let c := s.conn k
    let rk := recvKey src origin cn
    let r := s.recv rk
    let e := s.econn cn
    (origin ≠ 3 → (r.since = 0 → exec (.ackTimer src origin cn) s = .next s) ∧
      (r.since ≠ 0 → exec (.ackTimer src origin cn) s = .next (s.ack rk)) ∧
      (r.stall = none → exec (.pageWaitTimeout src origin cn) s = .next s ∧ exec (.pageResolved src origin cn) s = .next s) ∧
      (∀ q, r.stall = some q → r.stallTick = false →
        let valid : Prop := ∃ p, r.held.find? (fun p => p.psn == q) = some p ∧ s.pktSpans p (p.op == 1) ≠ none
        exec (.pageResolved src origin cn) s = .next (s.advance rk (r.held.length + 1)) ∧
        (valid → exec (.pageWaitTimeout src origin cn) s = .next (s.advance rk (r.held.length + 1))) ∧
        (¬valid → exec (.pageWaitTimeout src origin cn) s = .next (((s.setRecv rk { r with held := [], stall := none }).respond rk 0x12
          q 0 0 0 [] false).incRg Rg.dvorar_PAGE_STALLS 0 1))) ∧
      (r.stallTick = true → exec (.pageResolved src origin cn) s = .next s ∧ exec (.pageWaitTimeout src origin cn) s = .next s) ∧
      (c.resend = none → exec (.resendDelayExpire origin cn) s = .next s) ∧
      (∀ q, c.resend = some q → let v := (s.setConn k { c with resend := none, pageWait := none }).againFrom k q
        exec (.resendDelayExpire origin cn) s = .next (v.window k (v.conn k).wait.length)) ∧
      (∀ q, c.resend = some q → c.sent = [] → c.wait = [] → Cells.wf s.dv.send = true → exec (.resendDelayExpire origin cn) s =
        .next (s.setConn k { c with resend := none, pageWait := none })) ∧
      ((∃ q ∈ c.sent ++ c.wait, q.psn = psn) → exec (.readRespTimeout origin cn psn) s = .next s) ∧
      ((∀ q ∈ c.sent ++ c.wait, q.psn ≠ psn) → s.opOf k psn true = none → exec (.readRespTimeout origin cn psn) s = .next s) ∧
      (∀ o x, (∀ q ∈ c.sent ++ c.wait, q.psn ≠ psn) → s.opOf k psn true = some o → o.left.find? (fun x => x.1 == psn) = some x →
        exec (.readRespTimeout origin cn psn) s = .next ((s.setOp k { o with
          left := o.left.map (fun y => if y.1 = psn then (c.psn, y.2) else y), uncovered := c.psn :: o.uncovered }).connSend k
            [{ blankPkt with
               op := 5, last := x.2.1 + x.2.2 == o.len, xlate := o.xlate, cn := cn, origin := origin, len := x.2.2,
               addr := o.addr + x.2.1, space := o.space, opid := o.opid }]))) ∧
    (c.sent = [] ∨ c.pageWait ≠ none ∨ c.failed = true → exec (.rtoExpire origin cn) s = .next s) ∧
    (∀ q t, c.sent = q :: t → c.pageWait = none → c.failed = false →
      (c.expiries + 1 < s.rg Rg.dvorar_RETRY_LIMIT → exec (.rtoExpire origin cn) s =
        .next ((s.setConn k { c with expiries := c.expiries + 1, rto := min 256 (2 * c.rto), fast := [] }).again q)) ∧
      (s.rg Rg.dvorar_RETRY_LIMIT ≤ c.expiries + 1 →
        let f : State := s.setConn k { c with expiries := c.expiries + 1, failed := true }
        let v : State := (f.event 0x0306 (origin + cn * 2 ^ 16 + c.peer * 2 ^ 32) (f.connFunc k)).detect (.connError origin cn c.peer)
        exec (.rtoExpire origin cn) s = .next (if origin = 2 then v.connEnd k 2 else v))) ∧
    (origin = 3 → (e.since = 0 → exec (.ackTimer src origin cn) s = .next s) ∧
      (e.since ≠ 0 → exec (.ackTimer src origin cn) s = .next (s.eack cn)) ∧
      (e.stall = none → exec (.pageResolved src origin cn) s = .next s ∧ exec (.pageWaitTimeout src origin cn) s = .next s) ∧
      (e.stallTick = true ∨ e.roce = true →
        exec (.pageResolved src origin cn) s = .next s ∧ exec (.pageWaitTimeout src origin cn) s = .next s) ∧
      (∀ q, e.stall = some q → e.stallTick = false → e.roce = false →
        let valid : Prop := ∃ p, e.held.find? (fun p => p.psn == q) = some p ∧ s.emiss cn p = false
        exec (.pageResolved src origin cn) s = .next (s.eadvance cn (e.held.length + 1)) ∧
        (valid → exec (.pageWaitTimeout src origin cn) s = .next (s.eadvance cn (e.held.length + 1))) ∧
        (¬valid → exec (.pageWaitTimeout src origin cn) s = .next (((s.setEconn cn { e with held := [], stall := none }).udpSend cn
          { op := 0x12, psn := q }).incRg Rg.dvorar_PAGE_STALLS 0 1))) ∧
      (e.resend = none → exec (.resendDelayExpire origin cn) s = .next s) ∧
      (∀ q, e.resend = some q → let v := (s.setEconn cn { e with resend := none, pageWait := none }).eagainFrom cn q
        exec (.resendDelayExpire origin cn) s = .next (v.ewindow cn (v.econn cn).wait.length)) ∧
      ((∃ q ∈ e.sent ++ e.wait, q.psn = psn) → exec (.readRespTimeout origin cn psn) s = .next s) ∧
      ((∀ q ∈ e.sent ++ e.wait, q.psn ≠ psn) → exec (.readRespTimeout origin cn psn) s = .next (s.eread cn psn)))

/-- Dvorar transport: requests, responses and timers: the statements above together. -/
def Obligations.DvorarTransport : Prop :=
  Clauses.DvRequests ∧ Clauses.DvApplied ∧ Clauses.DvResponses ∧ Clauses.ConnectionTimers

/-! ## Sieve, the Ethernet ports and connections -/

/-- R298-R300, R304-R306, R311, R315, R318, R321-R324: frames. A port that is not up takes none; a frame that the PHY has not delivered whole
or whose FCS is wrong, a wrong length, a pause frame and a full buffer each count in a drop counter of their own and change nothing else
of Sieve, and any other frame joins the ingress buffer without its FCS and counts. A pass takes the oldest recirculated frame, else the
port's oldest in the round-robin of the ports; a parity error discards it and is reported, where a counter is read the pass has its other
effects first; without a frame nothing happens. DROP is final among the actions of a pass. A disposition of DROP changes nothing, NONE
counts, FORWARD sends the frame to its queue, STEER to a plot's ring, RECIRCULATE to another pass up to its limits, TRANSPORT to receive
queue 0; USE_IND takes them from the indirection entry of the hash. -/
def Clauses.SieveFrames : Prop :=
  ∀ (s : State) (p : Nat) (bytes : List Byte) (st i : Nat), s.Inv → p < 8 →
    let n := bytes.length
    let f := bytes.take (n - 4)
    let whole : Prop := bytes.drop (n - 4) = fcsOf f
    let used := s.sieve.ingress.foldl (fun a f => if f.port = p then a + frameLen f.bytes else a) 0
    let sized : Prop := 64 ≤ n ∧ n ≤ s.rg Rg.sieve_MAX_FRAME
    let pause : Prop := beNat ((f.drop 12).take 2) = 0x8808
    let seen : State := (s.incRg Rg.sieve_RX_FRAMES p 1).incRg Rg.sieve_RX_BYTES p n
    (s.portUp p = false → ∀ b, exec (.frameRx p bytes b) s = .next s) ∧
    (s.portUp p = true → exec (.frameRx p bytes false) s = .next (s.drop 0) ∧
      (¬whole → exec (.frameRx p bytes true) s = .next (s.drop 0)) ∧
      (whole → ¬sized → exec (.frameRx p bytes true) s = .next (s.drop 1)) ∧
      (whole → sized → pause → exec (.frameRx p bytes true) s = .next (s.drop 2)) ∧
      (whole → sized → ¬pause → 4 * 2 ^ 20 / max 1 s.ethPorts < used + n → exec (.frameRx p bytes true) s = .next (s.drop 3)) ∧
      (whole → sized → ¬pause → used + n ≤ 4 * 2 ^ 20 / max 1 s.ethPorts → exec (.frameRx p bytes true) s = .next { seen with
        sieve := { seen.sieve with ingress := seen.sieve.ingress ++ [{ port := p, bytes := f }] } })) ∧
    (∀ j, j < 16 → (s.drop j).rg Rg.sieve_DROP j = (s.rg Rg.sieve_DROP j + 1) % 2 ^ Rg.sieve_DROP.w) ∧
    (s.takeFrame p = none → ∀ x, exec (.sievePass p x) s = .next s) ∧
    (∀ f t, s.sieve.recirc = f :: t → s.takeFrame p = some ({ s with sieve := { s.sieve with recirc := t } }, f)) ∧
    (∀ f, s.sieve.recirc = [] → s.readyFrame p = some f → (∀ q, q < 8 → q ≠ p → s.readyFrame q = none) → s.sieve.turn < 8 →
      s.takeFrame p = some ({ s with sieve := { s.sieve with
        ingress := removeFirst (fun g => decide (g.port = p)) s.sieve.ingress, turn := (p + 1) % 8 } },
        { f with prog := s.rg Rg.sieve_ENTRY_PROG p })) ∧
    (s.sieve.recirc = [] → s.readyFrame p = none → s.takeFrame p = none) ∧
    (s.sieve.recirc = [] → s.sieve.turn < 8 → s.sieve.turn ≠ p → s.readyFrame s.sieve.turn ≠ none →
      bitN (s.prog s.cfgBank (s.rg Rg.sieve_ENTRY_PROG s.sieve.turn)) 132 = false → s.takeFrame p = none) ∧
    (∀ u f, s.takeFrame p = some (u, f) →
      let r : FaultRec := { cls := 2, unit := 13, index := 0, sub := st, check := 0, addr := i, beat := u.rg Rg.beat_BEATNO }
      (st ≠ 3 → exec (.sievePass p (some (st, i))) s = .next ((((u.drop 8).event 0x0402 (st + i * 2 ^ 32)).countReport r).logPair r 0 0)) ∧
      (∃ t, exec (.sievePass p none) s = .next t ∧ t.cores = s.cores ∧ t.tiles = s.tiles) ∧
      (let pr := u.prog u.cfgBank f.prog
       let walked := u.walk u.cfgBank (f.bytes.take 512) 16 (bits pr 0 8) 0 []
       ∀ x : State × Layers × List Nat × Nat × Nat × Nat,
        ((∃ code ls, walked = .reject code ls ∧
            x = ((u.drop 4).setRg Rg.sieve_LAST_REJECT 0 code, ls, [bits pr 32 16], 0, 0, 0)) ∨
          (∃ ls pos, walked = .accept ls pos ∧
            x = (u, ls, (u.passActions u.cfgBank pr f.bytes ls pos).1, (u.passActions u.cfgBank pr f.bytes ls pos).2.1, pos,
              (u.passActions u.cfgBank pr f.bytes ls pos).2.2))) →
        let v := x.1.incRg Rg.sieve_DROP 12 x.2.2.2.2.2
        let tag := x.2.2.2.1
        let start := x.2.2.2.2.1
        let c := (x.2.2.1.map v.action).foldl Combined.add {}
        let hash := if bitN pr 150 then toeplitz (v.tkey f.port)
          (sortPairs (v.fields u.cfgBank (bits pr 144 6) (f.bytes.take 512) x.2.1)).flatten else 0
        let ip := (x.2.1.find? (fun l => l.2.1 == 1 || l.2.1 == 2)).map (fun l => (l.2.1 == 2, l.2.2))
        let m := v.mark f.bytes ip c
        let count (l : List Nat) : State := l.foldl (fun s i => s.countFrame (frameLen m.2) i) m.1
        let copied (w : State) : State := match c.mir with
          | some k => w.mirror k f.port start tag m.2
          | none => w
        exec (.sievePass p none) s =
          .next ((copied (count c.counted)).dispose c hash tag start ip { f with passes := f.passes + 1, bytes := m.2 }) ∧
        exec (.sievePass p (some (3, i))) s =
          .next ((copied (count (c.counted.filter (fun j => j != i)))).sieveParity 3 i))) ∧
    (∀ a c, (Combined.add c a).disp = (if bits a 0 3 ≠ 0 ∧ c.disp ≠ 2 then (if 6 ≤ bits a 0 3 then 2 else bits a 0 3) else c.disp)) ∧
    (∀ c h tag o ip f, let a := c.target
      let fwd (port q : Nat) : State := s.toEgress { key := 128 * port + q, bytes := f.bytes, src := 0, ip := ip }
      (bitN a 3 = false →
        (c.disp = 0 → s.dispose c h tag o ip f = s.drop 5) ∧
        (c.disp = 1 → s.dispose c h tag o ip f = fwd (bits a 4 3) (bits a 7 7)) ∧
        (c.disp = 2 → s.dispose c h tag o ip f = s) ∧
        (c.disp = 3 → s.dispose c h tag o ip f = s.steer (bits a 14 7) (bits a 21 4) f.port o tag f.bytes) ∧
        (c.disp = 4 → 3 ≤ f.passes → s.dispose c h tag o ip f = s.drop 6) ∧
        (c.disp = 4 → f.passes < 3 → 256 ≤ s.sieve.recirc.length → s.dispose c h tag o ip f = s.drop 7) ∧
        (c.disp = 4 → f.passes < 3 → s.sieve.recirc.length < 256 → s.dispose c h tag o ip f = { s with sieve := { s.sieve with
          recirc := s.sieve.recirc ++ [{ f with tag := tag, prog := bits a 25 6 }] } }) ∧
        (c.disp = 5 → s.dispose c h tag o ip f = s.toTransport 0 f.port f.bytes o)) ∧
      (bitN a 3 = true → c.disp = 1 ∨ c.disp = 3 ∨ c.disp = 5 → let e := s.rg Rg.sieve_IND (512 * f.port + h % 512)
        (e % 4 = 0 → s.dispose c h tag o ip f = fwd (bits e 2 3) (bits e 5 7)) ∧
        (e % 4 = 1 → s.dispose c h tag o ip f = s.steer (bits e 2 7) (bits e 9 4) f.port o tag f.bytes) ∧
        (e % 4 = 2 → s.dispose c h tag o ip f = s.toTransport (bits e 2 6) f.port f.bytes o) ∧
        (e % 4 = 3 → s.dispose c h tag o ip f = s)))

/-- R308, R310, R319, R326: Sieve's registers. GO while BUSY is error 7, a shadow configuration that fails a check keeps its
code and index, and a mask with a table that is not enabled is error 6: nothing is swapped; else the banks swap and BUSY is 1
until the swap is complete, when SWAP_DONE is raised. An enabled table keeps its geometry; it cannot be disabled while the
loaded configuration uses it (code 3), nor one be enabled whose banks do not fit (code 1). SNAP copies a counter and with CLR
zeroes it. -/
def Clauses.SieveConfiguration : Prop :=
  ∀ (s : State) (mask t units log2 i : Nat) (cfg : Bool), s.Inv → t < 16 → mask < 2 ^ 16 → i < 65536 →
    let g : State := (s.setRg Rg.sieve_SWAP_MASK 0 mask).setRg Rg.sieve_SWAP_CFG 0 (ofBool cfg)
    let bad (u : State) (c : Nat) : State := (u.setRg Rg.sieve_TBL_ERR 0 c).setRg Rg.sieve_TBL_ERR_T 0 t
    let sized : State := (s.writeFld Rg.sieve_UNITS t units).writeFld Rg.sieve_BUCKETS_LOG2 t log2
    let used := s.flag Rg.sieve_CFG_LOADED && (List.range 64).any (fun i =>
      (List.range 4).any (fun k => let g := stageOf (s.prog s.cfgBank i) k; bitN g 10 && g % 16 == t))
    (s.flag Rg.sieve_BUSY = true → exec (.sieveGo mask cfg) s =
      .next ((g.setRg Rg.sieve_CFG_ERR 0 7).setRg Rg.sieve_CFG_ERR_IDX 0 0)) ∧
    (s.flag Rg.sieve_BUSY = false → ∀ c j, cfg = true → g.cfgCheck (1 - g.cfgBank) = some (c, j) →
      exec (.sieveGo mask cfg) s = .next ((g.setRg Rg.sieve_CFG_ERR 0 c).setRg Rg.sieve_CFG_ERR_IDX 0 j)) ∧
    (s.flag Rg.sieve_BUSY = false → (cfg = true → g.cfgCheck (1 - g.cfgBank) = none) →
      (∀ b, b < 16 → bitN mask b = true → s.flag Rg.sieve_TBL_EN b = true) → ∃ u, exec (.sieveGo mask cfg) s = .next u ∧
        u.rg Rg.sieve_BUSY = 1 ∧ u.rg Rg.sieve_CFG_ERR = 0 ∧ u.rg Rg.sieve_ACTIVE_B = (s.rg Rg.sieve_ACTIVE_B ^^^ mask) % 2 ^ 16 ∧
        (cfg = false → u.rg Rg.sieve_CFG_B = s.rg Rg.sieve_CFG_B)) ∧
    (s.flag Rg.sieve_BUSY = true → exec .sieveSwapComplete s =
      .next ((s.setRg Rg.sieve_BUSY 0 0).sqRaise Rg.sieve_SWAP_DONE Rg.sieve_SWAP_SEQ 0 1)) ∧
    (s.flag Rg.sieve_BUSY = false → exec .sieveSwapComplete s = .next s) ∧
    (s.flag Rg.sieve_TBL_EN t = true → exec (.tableEnWrite t true units log2) s = .next s ∧
      (used = true → exec (.tableEnWrite t false units log2) s = .next (bad s 3)) ∧
      (used = false → exec (.tableEnWrite t false units log2) s = .next (s.setRg Rg.sieve_TBL_EN t 0))) ∧
    (s.flag Rg.sieve_TBL_EN t = false → exec (.tableEnWrite t false units log2) s = .next sized ∧
      (sized.banksOk t = true → exec (.tableEnWrite t true units log2) s = .next (sized.setRg Rg.sieve_TBL_EN t 1)) ∧
      (sized.banksOk t = false → exec (.tableEnWrite t true units log2) s = .next (bad sized 1))) ∧
    (∀ clr, ∃ u, exec (.snap i clr) s = .next u ∧
      let a := kHub ((s.rg Rg.sieve_SV_BASE + 34) * 2 ^ 20 + 16 * i)
      u.rg Rg.sieve_SNAP_PKTS = bits (s.readN a 16) 0 64 ∧ u.rg Rg.sieve_SNAP_BYTES = bits (s.readN a 16) 64 63 ∧
      u.mem = (if clr = true then s.mem.write a (leBytes 16 0) else s.mem))

/-- Sieve: frames and configuration: the statements above together. -/
def Obligations.Sieve : Prop :=
  Clauses.SieveFrames ∧ Clauses.SieveConfiguration

/-- R297, R325, R343-R352: ports and the scheduler. PORT_MODE takes a mode only while no port is enabled; PORT_EN waits for a
loaded configuration, and a port it disables is up no longer; a port comes up with its event and one that loses lock drops its
queued frames. A frame on its way keeps its turn for its queue, a frame of Sieve's only behind others of Sieve's; it is queued where
the port is up and the queue has room, else a frame of Sieve's is dropped and a frame of the transport or of a plot waits. A decision of an idle port
sends the head frame of the chosen queue, of which queues 0 to 3 come first by number; the frame's end counts it. A refill adds RATE up to BURST; SHP_BURST waits for the next decision; a policer's write fills its
bucket. -/
def Obligations.PortsAndScheduler : Prop :=
  ∀ (s : State) (p n q m v burst mode unit rate : Nat) (fill pen : Bool), s.Inv → p < 8 → q < 128 → m < 16 →
    let k := 128 * p + q
    let off := (List.range 8).filter (fun p => bitN (s.rg Rg.sieve_PORT_EN) p && !bitN v p)
    let shp : State := (s.writeFld Rg.sched_BURST k burst).writeFld Rg.sched_MODE k mode
    (s.rg Rg.sieve_PORT_EN = 0 ∧ v < 3 → exec (.portModeWrite v) s = .next (s.setRg Rg.sieve_PORT_MODE 0 v).showRates) ∧
    (s.rg Rg.sieve_PORT_EN ≠ 0 ∨ 3 ≤ v → exec (.portModeWrite v) s = .next s) ∧
    (s.flag Rg.sieve_CFG_LOADED = false → exec (.portEnWrite v) s = .next s) ∧
    (s.flag Rg.sieve_CFG_LOADED = true → exec (.portEnWrite v) s = .next (off.foldl (fun s p =>
      ((s.setRg Rg.sieve_UP p 0).setRg Rg.sieve_FEC_LOCK p 0).portDrop p) (s.setRg Rg.sieve_PORT_EN 0 v))) ∧
    (s.portOn p = true → s.hubMainReset = false → s.flag Rg.sieve_UP p = false → ∃ t, exec (.ethPortUp p) s = .next t ∧
      t.rg Rg.sieve_UP p = 1 ∧ t.rg Rg.sieve_FEC_LOCK p = 1) ∧
    (s.portOn p = false ∨ s.hubMainReset = true ∨ s.flag Rg.sieve_UP p = true → exec (.ethPortUp p) s = .next s) ∧
    (s.portUp p = true → ∃ t, exec (.ethPortDown p) s = .next t ∧ t.rg Rg.sieve_UP p = 0) ∧
    (s.portUp p = false → exec (.ethPortDown p) s = .next s ∧ exec (.schedDecision p) s = .next s) ∧
    (s.eth.waiting[n]? = none → exec (.egressEnqueue n) s = .next s) ∧
    (∀ w, s.eth.waiting[n]? = some w →
      let behind : Prop := ∃ x ∈ s.eth.waiting.take n, x.key = w.key ∧ (x.src < 2 ∨ 2 ≤ w.src)
      let full : Prop := 4096 * s.rg Rg.sched_QLIM w.key < (s.egQueue w.key).depth + frameLen w.bytes ∨
        2 ^ 23 < s.egressUsed + frameLen w.bytes
      let gone : State := { s with eth := { s.eth with waiting := s.eth.waiting.eraseIdx n } }
      (behind → exec (.egressEnqueue n) s = .next s) ∧
      (¬behind → exec (.egressEnqueue n) s = .next (s.egressOne n w) ∧
        (w.src < 2 → s.portOn (w.key / 128) = false →
          s.egressOne n w = gone.incRg Rg.sieve_DROP (if w.src = 1 then 10 else 11) 1) ∧
        (s.portUp (w.key / 128) = true → full → w.src < 2 → s.egressOne n w =
          (gone.satRg Rg.sched_DROPS w.key 1).incRg Rg.sieve_DROP (if w.src = 1 then 10 else 11) 1) ∧
        (s.portUp (w.key / 128) = true → full → 2 ≤ w.src → s.egressOne n w = s) ∧
        (s.portUp (w.key / 128) = true → w.desc = none → w.ip = none →
          let g := s.egQueue w.key
          g.depth + frameLen w.bytes ≤ 4096 * s.rg Rg.sched_QLIM w.key → s.egressUsed + frameLen w.bytes ≤ 2 ^ 23 →
          s.egressOne n w = ({ s with eth := { s.eth with waiting := s.eth.waiting.eraseIdx n } } : State).setQueue w.key
            { g with frames := g.frames ++ [w.bytes] }))) ∧
    (∀ x, s.eth.sending.get? p = some x → exec (.schedDecision p) s = .next s ∧ exec (.frameTxDone p) s =
      .next ((({ s with eth := { s.eth with sending := s.eth.sending.del p } } : State).incRg Rg.sieve_TX_FRAMES p 1).incRg
        Rg.sieve_TX_BYTES p x.2)) ∧
    (s.eth.sending.get? p = none → exec (.frameTxDone p) s = .next s) ∧
    (s.portUp p = true → s.eth.sending.get? p = none → (∀ e ∈ s.eth.queues, e.2.staged = none) →
      (s.chosen p = none → exec (.schedDecision p) s = .next s) ∧
      (∀ c f rest, s.chosen p = some c → (s.egQueue (128 * p + c)).frames = f :: rest →
        ∃ t, exec (.schedDecision p) s = .next t ∧ t.out = .frame p (f ++ fcsOf f) :: s.out ∧
          t.eth.sending.get? p = some (c, f.length + 4) ∧
          (Cells.wf s.eth.queues = true → (t.egQueue (128 * p + c)).frames = rest))) ∧
    ((s.egQueue (128 * p)).eligible = true → s.chosen p = some 0) ∧
    (exec .shaperRefill s = .next (let u := (s.eth.queues.map (fun e => e.1)).foldl (fun s k => s.refillQueue k) s
      { u with eth := { u.eth with policers := u.eth.policers.map (fun e =>
        (e.1, min ((u.rg Rg.sched_PBURST e.1 * 128 : Nat) : Int) (e.2 + (u.rg Rg.sched_PRATE e.1 : Nat)))) } })) ∧
    (let g := s.egQueue k
     g.mode = 1 → s.claimed k = false → Cells.wf s.eth.queues = true →
      ((s.refillQueue k).egQueue k).tokens = min ((g.burst * 128 : Nat) : Int) (g.tokens + (g.rate : Nat))) ∧
    (exec (.shpBurstWrite p q burst mode fill) s = .next (shp.setQueue k { shp.egQueue k with
      staged := some (shp.rg Rg.sched_SHP_RATE k, shp.rg Rg.sched_BURST k, shp.rg Rg.sched_MODE k, fill) })) ∧
    (s.flag Rg.sched_PEN (16 * p + m) = false → Cells.wf s.eth.policers = true → ∃ t,
      exec (.policerPenWrite p m unit pen rate) s = .next t ∧ t.rg Rg.sched_PEN (16 * p + m) = ofBool pen ∧
      (pen = true → t.eth.policers.get? (16 * p + m) = some ((s.rg Rg.sched_PBURST (16 * p + m) * 128 : Nat) : Int)))

/-- R329, R332-R336: Ethernet contexts. OPEN of a closed context whose fields are in range loads it and writes STATE 1, and else
shows CMD_ERR 1 or 2; CLOSE and CLEAR of a context in another state show CMD_ERR 3. -/
def Clauses.EthContexts : Prop :=
  ∀ (s : State) (k : Nat), s.Inv → k < 8192 →
    let reg (op : Nat) (i : Instr) : Prop :=
      let x := (s.setRg Rg.eth_CTX 0 k).ctxCmd op k
      exec i s = .next (x.1.setRg Rg.eth_CMD_ERR 0 x.2)
    (s.hubMainReset = false → reg 1 (.ctxOpen k false) ∧ reg 2 (.ctxClose k false) ∧ reg 3 (.ctxClear k false)) ∧
    ((s.econn k).st ≠ 0 → s.ctxOpen k = (s, 1)) ∧
    ((s.econn k).st = 0 → s.ctxOk (s.readN (s.ctxAt k) 64) = false → s.ctxOpen k = (s, 2)) ∧
    ((s.econn k).st = 0 → s.ctxOk (s.readN (s.ctxAt k) 64) = true → Cells.wf s.eth.conns = true →
      (s.ctxOpen k).2 = 0 ∧ ((s.ctxOpen k).1.econn k).st = 1 ∧ (s.ctxOpen k).1.readN (s.ctxAt k) 1 % 4 = 1) ∧
    ((s.econn k).st ≠ 1 → s.ctxClose k = (s, 3)) ∧ ((s.econn k).st ≠ 2 → s.ctxClear k = (s, 3))

/-- R285-R291, R335, R337, R338: a request of the UDP transport. One of a quiesced function is not taken; one of a refused operation draws the
refusal again at its turn; a duplicate counts and is acknowledged; one ahead is held while the reorder store of the hub has room; the next
one is applied. A WRITE and a READ act on the region that the key names (cause 8 where it names none); a SEND fills the head buffer, and
without one leaves the store and counts; a request of LENGTH 0 touches nothing (log entry 140). -/
def Clauses.EthRequests : Prop :=
  ∀ (s : State) (k n : Nat) (ce : Bool) (p : EPkt),
    let c := s.econn k
    let q : EPkt := { p with ce := ce }
    let dup := !psnGe p.psn c.next || c.held.any (fun q => q.psn == p.psn)
    let held : State := s.setEconn k { c with held := c.held ++ [q] }
    let taken : Prop := c.frozen = false ∧ (p.op = 5 ∨ ∀ e, c.refused ≠ some (p.opid, e))
    (c.frozen = true → s.erequest k ce p = s) ∧
    (c.frozen = false → p.op ≠ 5 → ∀ e, c.refused = some (p.opid, e) →
      (p.psn = c.next → s.erequest k ce p = s.udpSend k { op := 0x13, psn := p.psn, opid := p.opid, aux := e }) ∧
      (p.psn ≠ c.next → s.erequest k ce p = s)) ∧
    (taken → dup = true → s.erequest k ce p = (s.ecnt 3).eack k) ∧
    (taken → dup = false → p.psn ≠ c.next →
      (2 * 2 ^ 20 < s.reorderUsed 2 + p.data.length → s.erequest k ce p = s) ∧
      (s.reorderUsed 2 + p.data.length ≤ 2 * 2 ^ 20 → s.erequest k ce p = held.eack k)) ∧
    (taken → dup = false → p.psn = c.next → s.erequest k ce p = held.eadvance k (c.held.length + 1)) ∧
    (p.len = 0 → s.eapply k p = .ok s) ∧
    (p.len ≠ 0 → p.op = 1 → s.eapply k p = s.regionWrite c.fn p.rkey p.off p.data ∧
      (s.region c.fn p.rkey p.off p.data.length true = none → s.eapply k p = .refuse 8)) ∧
    (p.len ≠ 0 → p.op = 5 →
      (s.region c.fn p.rkey p.off p.len false = none → s.eapply k p = .refuse 8) ∧
      (∀ bs, s.regionRead c.fn p.rkey p.off p.len = .inr bs → s.eapply k p = .ok ((s.readResp k p bs).drawn))) ∧
    (p.len ≠ 0 → p.op = 7 →
      (s.sendPiece k p.isFirst p.isLast p.data = none → s.eapply k p = .waitTick) ∧
      (∀ a, s.sendPiece k p.isFirst p.isLast p.data = some a → s.eapply k p = a)) ∧
    (c.held.find? (fun q => q.psn == c.next) = none → s.eadvance k n = s) ∧
    (c.held.find? (fun q => q.psn == c.next) = some p →
      (s.eapply k p = .waitTick → p.op = 7 → s.eadvance k (n + 1) =
        (s.setEconn k { c with held := c.held.filter (fun q => q.psn != p.psn) }).ecnt 8) ∧
      (s.eapply k p = .waitTick → p.op ≠ 7 → s.eadvance k (n + 1) =
        s.setEconn k { c with stall := some p.psn, stallTick := true }) ∧
      (s.eapply k p = .miss → s.eadvance k (n + 1) = ((s.setEconn k { c with stall := some p.psn }).udpSend k
        { op := 0x11, psn := p.psn, opid := p.opid }).emit (.paging 256 k p.off)) ∧
      (∀ v, s.eapply k p = .ok v → Cells.wf v.eth.conns = true → (v.econn k).held = [p] → (v.econn k).next = p.psn →
        ((s.eadvance k (n + 1)).econn k).next = (p.psn + 1) % 2 ^ 24 ∧ ((s.eadvance k (n + 1)).econn k).held = []))

/-- R330, R335, R337-R342: Ethernet packets. A packet of the UDP transport or of RoCEv2 at the head of a receive queue leaves it: requests
are taken by their connection, an ACK, PAGE_WAIT, PAGE_RETRY, NACK_ERR or response goes to the sending end; a queue without such a packet
at its head gives nothing. NACK_ERR, and the last PAGE_RETRY, end the operation, and empty packets take the places of its own (log entry
140). A RoCEv2 WRITE or READ that must wait stays at the head of its queue; a refused request draws a NAK; a CNP counts; an RNR NAK
starts the RNR timer, or ends the queue pair with cause 9 once RNR_RETRY is used up, and the timer's end sends every open request again.
An RTO sends again, and at the limit the context enters state 2 with cause 2. -/
def Clauses.EthPackets : Prop :=
  ∀ (s u : State) (q k : Nat) (ce : Bool) (p : EPkt), s.Inv → k < 8192 →
    let c := u.econn k
    let none? (roce : Bool) (ops : List Nat) (i : Instr) : Prop := s.fromTq q roce ops = (u, none) → exec i s = .next u
    let got (roce : Bool) (ops : List Nat) : Prop := s.fromTq q roce ops = (u, some (k, ce, p))
    let op? := c.ops.find? (fun o => o.kind != 5 && o.left.any (fun x => x.1 == p.psn))
    let any? := c.ops.find? (fun o => o.left.any (fun x => x.1 == p.psn))
    let rd? := c.ops.find? (fun o => o.kind == 5 && o.left.any (fun x => x.1 == p.psn))
    let tries := if c.pageTry.1 = p.psn then c.pageTry.2 + 1 else 1
    let retry : State := u.setEconn k { c with pageTry := (p.psn, tries), resend := some p.psn, pageWait := some p.psn }
    let again (v : State) : State := c.sent.foldl (fun s q => if q.op = 0x0C then s.eread k q.psn else s.eagain k q) v
    none? false [1] (.udpWrite q) ∧ none? false [5] (.udpRead q) ∧ none? false [7] (.udpSend q) ∧ none? false [6] (.udpReadResp q) ∧
    none? false [0x10] (.udpAck q) ∧ none? false [0x11] (.udpPageWait q) ∧ none? false [0x12] (.udpPageRetry q) ∧
    none? false [0x13] (.udpNackErr q) ∧ none? true [0x00, 0x01, 0x02, 0x04] (.roceSend q) ∧
    none? true [0x06, 0x07, 0x08, 0x0A] (.roceRdmaWrite q) ∧ none? true [0x0C] (.roceRdmaReadRequest q) ∧
    none? true [0x0D, 0x0E, 0x0F, 0x10] (.roceReadResponse q) ∧ none? true [0x11] (.roceAcknowledge q) ∧ none? true [0x81] (.roceCnp q) ∧
    (got false [1] → exec (.udpWrite q) s = .next (u.erequest k ce p)) ∧ (got false [5] → exec (.udpRead q) s = .next (u.erequest k ce p)) ∧
    (got false [7] → exec (.udpSend q) s = .next (u.erequest k ce p)) ∧
    (got false [0x11] → exec (.udpPageWait q) s = .next (u.setEconn k { c with pageWait := some p.psn })) ∧
    (got false [0x13] → (op? = none → exec (.udpNackErr q) s = .next u) ∧
      (∀ o, op? = some o → exec (.udpNackErr q) s =
        .next (((u.eopEndAt k o (p.aux % 64) (o.offsetOf p.psn)).evoid k o.opid).eagainFrom k p.psn))) ∧
    (got false [0x12] → tries < u.rg Rg.dvorar_PAGE_RETRIES → exec (.udpPageRetry q) s = .next retry) ∧
    (got false [0x12] → u.rg Rg.dvorar_PAGE_RETRIES ≤ tries → (any? = none → exec (.udpPageRetry q) s = .next retry) ∧
      (∀ o, any? = some o →
        let v := (retry.eopEndAt k o 3 (if o.kind = 5 then o.prefixBytes else o.offsetOf p.psn)).evoid k o.opid
        exec (.udpPageRetry q) s = .next ((v.setEconn k { v.econn k with
          pageTry := (0, 0), resend := none, pageWait := none }).eagainFrom k p.psn))) ∧
    (∀ o cause done, o.left ≠ [] ∨ o.uncovered ≠ [] → (u.eopEndAt k o cause done).dv.ended = u.dv.ended ++
      [{ owner := o.owner, opid := o.opid, state := if done = 0 then 2 else 1, cause := cause, bytes := done }]) ∧
    (got false [6] → (rd? = none → exec (.udpReadResp q) s = .next u) ∧
      (∀ o, rd? = some o →
        (p.aux % 2 = 1 → exec (.udpReadResp q) s = .next (u.eopEnd k o (bits p.aux 1 6))) ∧
        (∀ x, p.aux % 2 = 0 → o.left.find? (fun x => x.1 == p.psn) = some x →
          let lo := x.2.1 / max 64 c.pmtu * max 64 c.pmtu + p.off
          let v := match o.sink with
            | some d => u.storeSink d lo (p.data.take (o.len - lo))
            | none => u
          exec (.udpReadResp q) s = .next (v.eopStep k { o with
            left := o.left.flatMap (fun x => if x.1 = p.psn then cutLeft lo (lo + p.data.length) [x] else [x]) })))) ∧
    (got false [0x10] → p.aux % 2 = 0 → c.sent = [] → c.wait = [] → Cells.wf u.eth.conns = true →
      exec (.udpAck q) s = .next (u.setEconn k c)) ∧
    (∀ x, got false [0x10] → p.aux % 2 = 0 → c.sent = [x] → c.wait = [] → psnGe p.psn x.psn = true → Cells.wf u.eth.conns = true →
      (∀ o ∈ c.ops, (∀ y ∈ o.left, y.1 ≠ x.psn) ∧ x.psn ∉ o.uncovered) →
      exec (.udpAck q) s = .next (u.setEconn k { c with
        sent := [], rto := u.rg Rg.eth_RTO_INIT_E, expiries := 0, pageWait := none, rnr := 0 })) ∧
    (got true [0x00, 0x01, 0x02, 0x04] → (∀ v, u.roceTurn k p = some v → exec (.roceSend q) s = .next v) ∧
      (u.roceTurn k p = none → p.isFirst = false → c.buf = none → exec (.roceSend q) s = .next (u.roceRefuse k 1)) ∧
      (u.roceTurn k p = none → (p.isFirst = true ∨ c.buf ≠ none) → ∀ v, u.sendPiece k p.isFirst p.isLast p.data = some (.ok v) →
        exec (.roceSend q) s = .next ((v.rocePass k ce p.isLast 1).roceSoon k p.isLast)) ∧
      (u.roceTurn k p = none → (p.isFirst = true ∨ c.buf ≠ none) → u.sendPiece k p.isFirst p.isLast p.data = none →
        exec (.roceSend q) s = .next (((u.setEconn k { c with stall := some c.next }).roceAck k (0x20 + c.fd 152 5) c.next).ecnt 8))) ∧
    (got true [0x06, 0x07, 0x08, 0x0A] → (∀ v, u.roceTurn k p = some v → exec (.roceRdmaWrite q) s = .next v) ∧
      (u.roceTurn k p = none →
        let key := if p.isFirst then p.rkey else c.dest.1
        let off := if p.isFirst then p.off else c.dest.2
        let left := if p.isFirst then p.len else c.msg
        let fits : Prop := p.data.length ≤ left ∧ (p.isLast = true → left = p.data.length)
        let ok : Prop := p.isFirst = true → u.region c.fn key off p.len true ≠ none
        let pass (v : State) : State := ((v.setEconn k { v.econn k with
          dest := (key, off + p.data.length), msg := left - p.data.length }).rocePass k ce p.isLast 1).roceSoon k p.isLast
        (¬fits → exec (.roceRdmaWrite q) s = .next (u.roceRefuse k 1)) ∧
        (fits → ¬ok → exec (.roceRdmaWrite q) s = .next (u.roceRefuse k 2)) ∧
        (fits → ok → p.data = [] → exec (.roceRdmaWrite q) s = .next (pass u)) ∧
        (fits → ok → p.data ≠ [] →
          (∀ v, u.regionWrite c.fn key off p.data = .ok v → exec (.roceRdmaWrite q) s = .next (pass v)) ∧
          (∀ e, u.regionWrite c.fn key off p.data = .refuse e → exec (.roceRdmaWrite q) s = .next (u.roceRefuse k 2)) ∧
          (u.regionWrite c.fn key off p.data = .miss → exec (.roceRdmaWrite q) s = .next (u.emit (.paging 256 k off))) ∧
          (u.regionWrite c.fn key off p.data = .waitTick → exec (.roceRdmaWrite q) s = .next s)))) ∧
    (got true [0x0C] →
      let old := !psnGe p.psn c.next
      let turn := if old && !c.frozen then none else u.roceTurn k p
      let pass : State := if old then u.ecnt 3 else u.rocePass k ce true (c.span p)
      (∀ v, turn = some v → exec (.roceRdmaReadRequest q) s = .next v) ∧
      (turn = none →
        (∀ bs, u.regionRead c.fn p.rkey p.off p.len = .inr bs →
          exec (.roceRdmaReadRequest q) s = .next ((pass.roceResp k p.psn bs).drawn)) ∧
        (u.regionRead c.fn p.rkey p.off p.len = .inl .waitTick → exec (.roceRdmaReadRequest q) s = .next s) ∧
        (u.regionRead c.fn p.rkey p.off p.len = .inl .miss →
          exec (.roceRdmaReadRequest q) s = .next (u.emit (.paging 256 k p.off))) ∧
        (∀ e, u.regionRead c.fn p.rkey p.off p.len = .inl (.refuse e) →
          exec (.roceRdmaReadRequest q) s = .next (u.roceRefuse k 2)))) ∧
    (got true [0x0D, 0x0E, 0x0F, 0x10] →
      let rsp? := c.ops.find? (fun o => o.kind == 5 && ((o.left.head?).map (fun x => x.1)) == some p.psn)
      (rsp? = none → exec (.roceReadResponse q) s = .next u) ∧
      (∀ o x rest, rsp? = some o → o.left = x :: rest →
        (x.2.2 ≠ p.data.length → exec (.roceReadResponse q) s = .next u) ∧
        (x.2.2 = p.data.length →
          let v := match o.sink with
            | some d => u.storeSink d x.2.1 p.data
            | none => u
          exec (.roceReadResponse q) s = .next ((v.eopStep k { o with left := rest }).roceAcked k p.psn)))) ∧
    (got true [0x11] → (p.aux / 2 ^ 24 < 0x20 → exec (.roceAcknowledge q) s = .next (u.roceAcked k p.psn)) ∧
      (let b := u.roceAcked k (psnPred p.psn)
       let d := b.econn k
       (0x20 ≤ p.aux / 2 ^ 24 → p.aux / 2 ^ 24 < 0x40 → (d.fd 149 3 = 7 ∨ d.rnr + 1 ≤ d.fd 149 3) →
         exec (.roceAcknowledge q) s = .next (b.setEconn k { d with rnr := d.rnr + 1, rnrWait := true })) ∧
       (0x20 ≤ p.aux / 2 ^ 24 → p.aux / 2 ^ 24 < 0x40 → d.fd 149 3 ≠ 7 → d.fd 149 3 < d.rnr + 1 →
         exec (.roceAcknowledge q) s = .next (b.ectxFail k 9)) ∧
       (p.aux / 2 ^ 24 = 0x60 → exec (.roceAcknowledge q) s = .next (d.sent.foldl (fun s q =>
         if q.op = 0x0C then s.eread k q.psn else s.eagain k q) b)) ∧
       (0x60 < p.aux / 2 ^ 24 → exec (.roceAcknowledge q) s = .next (b.ectxFail k 10)))) ∧
    (got true [0x81] → exec (.roceCnp q) s = .next ((u.ceEcho k).ecnt 11)) ∧
    (c.rnrWait = false → exec (.roceRnrTimer k) u = .next u) ∧
    (c.rnrWait = true → exec (.roceRnrTimer k) u = .next (let v := again (u.setEconn k { c with rnrWait := false })
      v.ewindow k (v.econn k).wait.length)) ∧
    (c.st ≠ 1 ∨ c.pageWait ≠ none ∨ c.rnrWait = true → exec (.rtoExpireE k) u = .next u) ∧
    (c.st = 1 → c.pageWait = none → c.rnrWait = false →
      let limit := if c.roce then min 7 (u.rg Rg.eth_RETRY_LIMIT_E) else u.rg Rg.eth_RETRY_LIMIT_E
      let up : State := u.setEconn k { c with
        expiries := c.expiries + 1, rto := min (1000 * u.rg Rg.eth_RTO_MAX_E) (2 * c.rto), fast := [] }
      let reads := (c.ops.filter (fun o => o.kind == 5)).flatMap (fun o => o.left)
      (∀ x t, c.sent = x :: t →
        (limit ≤ c.expiries + 1 → exec (.rtoExpireE k) u = .next (u.ectxFail k 2)) ∧
        (c.expiries + 1 < limit → c.roce = false → exec (.rtoExpireE k) u = .next (up.eagain k x)) ∧
        (c.expiries + 1 < limit → c.roce = true → exec (.rtoExpireE k) u = .next (again up))) ∧
      (c.sent = [] →
        (reads = [] → exec (.rtoExpireE k) u = .next u) ∧
        (∀ x t, reads = x :: t →
          (limit ≤ c.expiries + 1 → exec (.rtoExpireE k) u = .next (u.ectxFail k 2)) ∧
          (c.expiries + 1 < limit → exec (.rtoExpireE k) u = .next (up.eread k x.1)))))

/-- Ethernet contexts, requests and packets: the statements above together. -/
def Obligations.EthernetConnections : Prop :=
  Clauses.EthContexts ∧ Clauses.EthRequests ∧ Clauses.EthPackets

/-! ## The host interface -/

/-- R365-R370: doorbells and fetching. A doorbell of a ring that is served and not in error is latched. A sample of a function
in service takes a PI that is ahead, ignores and counts a stale one, and one beyond the ring is ring error 1; a fetch takes what
the host's memory holds at F, and a failed read is ring error 2. A CI that is ahead takes effect. A ring that does not exist
does nothing. -/
def Clauses.Doorbells : Prop :=
  ∀ (s : State) (fn r v : Nat) (g : Ring) (l : List (List Byte)) (e : EvQueue),
    let ahead := idxDiff (v % 2 ^ 16) g.f
    let served : Prop := s.rings? fn = true ∧ g.err = 0
    let n := min 16 ((g.p + 2 ^ 16 - g.f) % 2 ^ 16)
    let fetch : Prop := s.fnReady fn = true ∧ g.err = 0 ∧ n ≠ 0 ∧ ∃ q, s.host.eqs.get? (fnKey fn g.eq) = some q ∧ q.hold.length < 64
    (s.ring fn r = none → exec (.ringDoorbell fn r v) s = .next s ∧ exec (.doorbellSample fn r) s = .next s ∧
      exec (.descriptorFetch fn r (some l)) s = .next s ∧ exec (.postBuf fn r) s = .next s ∧ exec (.xferRead fn r) s = .next s) ∧
    (s.ring fn r = some g →
      (served → exec (.ringDoorbell fn r v) s = .next (s.setRing fn r { g with bell := some (v % 2 ^ 16) })) ∧
      (¬served → exec (.ringDoorbell fn r v) s = .next s) ∧
      (g.bell = none ∨ s.fnReady fn = false ∨ g.err ≠ 0 → exec (.doorbellSample fn r) s = .next s) ∧
      (g.bell = some (v % 2 ^ 16) → s.fnReady fn = true → g.err = 0 →
        let u : State := s.setRing fn r { g with bell := none }
        (ahead < 0 → exec (.doorbellSample fn r) s = .next (u.satRg Rg.host_DB_STALE 0 1)) ∧
        (ahead = 0 → exec (.doorbellSample fn r) s = .next u) ∧
        (0 < ahead → 2 ^ g.log2 < (v % 2 ^ 16 + 2 ^ 16 - g.u) % 2 ^ 16 →
          exec (.doorbellSample fn r) s = .next (u.ringError fn r 1 (v % 2 ^ 16))) ∧
        (0 < ahead → (v % 2 ^ 16 + 2 ^ 16 - g.u) % 2 ^ 16 ≤ 2 ^ g.log2 →
          exec (.doorbellSample fn r) s = .next (u.setRing fn r { g with bell := none, p := v % 2 ^ 16 }))) ∧
      (¬fetch → ∀ ds, exec (.descriptorFetch fn r ds) s = .next s) ∧
      (fetch → exec (.descriptorFetch fn r none) s = .next (s.ringError fn r 2 g.p) ∧
        (l.length = n → (∀ b ∈ l, b.length = 64) → exec (.descriptorFetch fn r (some l)) s = .next (s.setRing fn r { g with
          f := (g.f + n) % 2 ^ 16, descs := g.descs ++ l.mapIdx (fun i b => ({ idx := (g.f + i) % 2 ^ 16, bytes := b } : Desc)) })))) ∧
    (s.host.eqs.get? (fnKey fn r) = none → exec (.eqDoorbell fn r v) s = .next s ∧ exec (.msixModTimer fn r) s = .next s) ∧
    (s.host.eqs.get? (fnKey fn r) = some e →
      (s.rings? fn = true → 0 < idxDiff (v % 2 ^ 16) e.ci → exec (.eqDoorbell fn r v) s = .next ((({ s with
        host := { s.host with eqs := s.host.eqs.put (fnKey fn r) { e with ci := v % 2 ^ 16 } } } : State).setFn Rg.host_EQ_CI
          Rg.plotStat_EQ_CI fn r 4 (v % 2 ^ 16)).drainQueue fn r e.hold.length)) ∧
      (s.rings? fn = false ∨ idxDiff (v % 2 ^ 16) e.ci ≤ 0 → exec (.eqDoorbell fn r v) s = .next s) ∧
      (e.since ≠ 0 → e.modTime ≠ 0 → s.hostUp = true → exec (.msixModTimer fn r) s = .next (({ s with
        host := { s.host with eqs := s.host.eqs.put (fnKey fn r) { e with since := 0 } } } : State).sendMsix fn e.vector)) ∧
      (e.since = 0 ∨ e.modTime = 0 ∨ s.hostUp = false → exec (.msixModTimer fn r) s = .next s))

/-- R365-R367, R374, R385: descriptors. A descriptor starts in ring order: without one, on a ring of another kind, or with the host
interface down nothing happens; one of no OP of the kind, or whose fields break a rule, completes not started with cause 14, one whose
memory is not the function's with cause 12, one whose connection is not with cause 13. A frame goes to the ring's port and queue; a
buffer is posted; a transfer starts on its context or its programmed connection; a COPY moves its next bytes, in part done (STATE 1) or
not started where they cannot be read, and is done with the last. A descriptor whose work has ended gets its record, in ring order but
for transfers, and leaves the ring; the end of an operation reaches its descriptor first. An unmasked vector with its pending bit set
sends its message. -/
def Clauses.Descriptors : Prop :=
  ∀ (s : State) (fn r n v addr data : Nat) (dma bs : List Byte) (g : Ring) (d : Desc), let b := d.bytes
    let u := s.started fn r g d
    let len := fieldAt b 24 4
    let frameOk : Prop := zeroBytes b [(8, 1), (16, 8), (24, 4)] = true ∧ fieldAt b 8 1 ≤ 3 ∧ 60 ≤ len ∧ len ≤ u.rg Rg.sieve_MAX_FRAME - 4
    let bufOk : Prop := zeroBytes b [(8, 1), (16, 8), (24, 4)] = true ∧ fieldAt b 8 1 ≤ 3 ∧ 64 ≤ len ∧ len ≤ 2 ^ 30
    (Begins s fn r 0 1 g d →
      (¬frameOk → exec (.sendFrame fn r dma) s = .next (u.endDesc fn r d.idx 2 14 0)) ∧
      (frameOk → u.localRead fn (fieldAt b 8 1) (fieldAt b 16 8) len dma = some bs → exec (.sendFrame fn r dma) s =
        .next (u.toEgress { key := 128 * g.port + g.queue, bytes := bs, src := 3, desc := some (fn, r, d.idx) })) ∧
      (frameOk → u.localRead fn (fieldAt b 8 1) (fieldAt b 16 8) len dma = none →
        exec (.sendFrame fn r dma) s = .next (u.endDesc fn r d.idx 2 12 0))) ∧
    (Begins s fn r 1 2 g d →
      (bufOk → (u.localSpans fn (fieldAt b 8 1) (fieldAt b 16 8) len).isSome = true → exec (.postBuf fn r) s = .next u) ∧
      (bufOk → u.localSpans fn (fieldAt b 8 1) (fieldAt b 16 8) len = none →
        exec (.postBuf fn r) s = .next (u.endDesc fn r d.idx 2 12 0)) ∧
      (¬bufOk → exec (.postBuf fn r) s = .next (u.endDesc fn r d.idx 2 14 0))) ∧
    (∀ kind op ops i, (kind, op, ops, i) ∈ [(0, 0x01, [0x01], Instr.sendFrame fn r dma), (1, 0x02, [0x02], .postBuf fn r),
        (2, 0x10, [0x10, 0x11, 0x12], .xferWrite fn r dma), (2, 0x11, [0x10, 0x11, 0x12], .xferRead fn r),
        (2, 0x12, [0x10, 0x11, 0x12], .xferSend fn r dma), (3, 0x20, [0x20], .copy fn r n dma)] →
      (s.ring fn r = none → exec i s = .next s) ∧
      (s.ring fn r = some g → (kind = 3 → ∀ x ∈ g.descs, x.started = true → x.fin ≠ none) →
        (g.nextDesc = none ∨ g.kind ≠ kind ∨ s.hostUp = false → exec i s = .next s) ∧
        (g.nextDesc = some d → g.kind = kind → s.hostUp = true → fieldAt b 0 1 ∉ ops →
          exec i s = .next (s.endDesc fn r d.idx 2 14 0)) ∧
        (g.nextDesc = some d → g.kind = kind → s.hostUp = true → fieldAt b 0 1 ∈ ops → fieldAt b 0 1 ≠ op → exec i s = .next s))) ∧
    (∀ kind op i, (kind, op, i) ∈ [(1, 0x10, Instr.xferWrite fn r dma), (5, 0x11, .xferRead fn r)] →
      Begins s fn r 2 op g d → fieldAt b 9 1 = 1 →
      let cn := fieldAt b 10 2
      let c := u.conn (connKey 2 cn)
      let ok : Prop := zeroBytes b [(8, 1), (9, 1), (10, 2), (16, 8), (24, 4), (32, 8)] = true ∧ fieldAt b 8 1 ≤ 3
      let mine : Prop := cn < 4096 ∧ c.isOpen = true ∧ c.failed = false ∧ c.func = fn
      (¬ok → exec i s = .next (u.endDesc fn r d.idx 2 14 0)) ∧
      (ok → ¬mine → exec i s = .next (u.endDesc fn r d.idx 2 13 0)) ∧
      (ok → mine → len = 0 → exec i s = .next (u.endDesc fn r d.idx 2 14 0)) ∧
      (ok → mine → len ≠ 0 → u.localSpans fn (fieldAt b 8 1) (fieldAt b 16 8) len = none →
        exec i s = .next (u.endDesc fn r d.idx 2 12 0)) ∧
      (ok → mine → len ≠ 0 → (u.localSpans fn (fieldAt b 8 1) (fieldAt b 16 8) len).isSome = true →
        (kind = 5 → bs = []) → (kind ≠ 5 → u.localRead fn (fieldAt b 8 1) (fieldAt b 16 8) len dma = some bs) →
        exec i s = .next (u.dvStart 2 cn (kind == 5) true 1 (fieldAt b 32 8) len bs
          (if kind = 5 then some { aspace := fieldAt b 8 1, fn := fn, addr := fieldAt b 16 8 } else none) (.desc fn r d.idx)))) ∧
    (Begins s fn r 2 0x12 g d → fieldAt b 9 1 = 1 → exec (.xferSend fn r dma) s = .next (u.endDesc fn r d.idx 2 14 0)) ∧
    (∀ kind op i, (kind, op, i) ∈ [(1, 0x10, Instr.xferWrite fn r dma), (5, 0x11, .xferRead fn r), (7, 0x12, .xferSend fn r dma)] →
      Begins s fn r 2 op g d →
      let cn := fieldAt b 10 2
      let e := u.econn cn
      let fields := [(8, 1), (9, 1), (10, 2), (16, 8), (24, 4)] ++ (if kind = 7 then [] else [(28, 4), (32, 8)])
      fieldAt b 9 1 = 0 →
      (zeroBytes b fields = false ∨ 3 < fieldAt b 8 1 → exec i s = .next (u.endDesc fn r d.idx 2 14 0)) ∧
      (zeroBytes b fields = true → fieldAt b 8 1 ≤ 3 →
        (8192 ≤ cn ∨ e.st ≠ 1 ∨ e.fn ≠ fn → exec i s = .next (u.endDesc fn r d.idx 2 13 0)) ∧
        (cn < 8192 → e.st = 1 → e.fn = fn → e.lenOk len = false → exec i s = .next (u.endDesc fn r d.idx 2 14 0)) ∧
        (cn < 8192 → e.st = 1 → e.fn = fn → e.lenOk len = true →
          (u.localSpans fn (fieldAt b 8 1) (fieldAt b 16 8) len).isSome = true →
          (kind = 5 → bs = []) → (kind ≠ 5 → u.localRead fn (fieldAt b 8 1) (fieldAt b 16 8) len dma = some bs) →
          exec i s = .next (u.ethStart cn kind (fieldAt b 32 8) len (fieldAt b 28 4) bs
            (if kind = 5 then some { aspace := fieldAt b 8 1, fn := fn, addr := fieldAt b 16 8 } else none) (.desc fn r d.idx))))) ∧
    (Begins s fn r 3 0x20 g d → (∀ x ∈ g.descs, x.started = true → x.fin ≠ none) →
      let total := fieldAt b 32 4
      let ok : Prop := zeroBytes b [(8, 1), (9, 1), (16, 8), (24, 8), (32, 4)] = true ∧ fieldAt b 8 1 ≤ 3 ∧ fieldAt b 9 1 ≤ 3 ∧
        1 ≤ total ∧ total ≤ 2 ^ 30
      let mine : Prop := u.localSpans fn (fieldAt b 8 1) (fieldAt b 16 8) total ≠ none ∧
        u.localSpans fn (fieldAt b 9 1) (fieldAt b 24 8) total ≠ none
      let m := min n (total - d.done)
      let dst := fieldAt b 24 8 + d.done
      let x : Desc := { d with started := true }
      (¬ok → exec (.copy fn r n dma) s = .next (u.endDesc fn r d.idx 2 14 0)) ∧
      (ok → ¬mine → exec (.copy fn r n dma) s = .next (u.endDesc fn r d.idx 2 12 0)) ∧
      (ok → mine → u.writeWaits fn (fieldAt b 9 1) dst m = true → exec (.copy fn r n dma) s = .next u) ∧
      (ok → mine → u.writeWaits fn (fieldAt b 9 1) dst m = false →
        u.localRead fn (fieldAt b 8 1) (fieldAt b 16 8 + d.done) m dma = some bs →
        let w : State := (u.localWrite fn (fieldAt b 9 1) dst bs).setDesc fn r { x with done := d.done + m }
        (d.done + m ≠ total → exec (.copy fn r n dma) s = .next w) ∧
        (d.done + m = total → exec (.copy fn r n dma) s = .next (w.endDesc fn r d.idx 0 0 total)))) ∧
    (s.ring fn r = some g → g.kind = 3 → g.descs.find? (fun d => d.started && d.fin.isNone) = some d →
      s.writeWaits fn (fieldAt b 9 1) (fieldAt b 24 8 + d.done) (min n (fieldAt b 32 4 - d.done)) = false →
      s.localRead fn (fieldAt b 8 1) (fieldAt b 16 8 + d.done) (min n (fieldAt b 32 4 - d.done)) dma = none →
      exec (.copy fn r n dma) s = .next (s.endDesc fn r d.idx (if d.done = 0 then 2 else 1) 12 d.done)) ∧
    (s.ring fn r = some g → g.kind = 3 → g.descs.find? (fun d => d.started && d.fin.isNone) = some d →
      let m := min n (fieldAt b 32 4 - d.done)
      let dst := fieldAt b 24 8 + d.done
      (s.writeWaits fn (fieldAt b 9 1) dst m = true → exec (.copy fn r n dma) s = .next s) ∧
      (s.writeWaits fn (fieldAt b 9 1) dst m = false → s.localRead fn (fieldAt b 8 1) (fieldAt b 16 8 + d.done) m dma = some bs →
        let w : State := (s.localWrite fn (fieldAt b 9 1) dst bs).setDesc fn r { d with done := d.done + m }
        (d.done + m < fieldAt b 32 4 → exec (.copy fn r n dma) s = .next w) ∧
        (d.done + m = fieldAt b 32 4 → exec (.copy fn r n dma) s = .next (w.endDesc fn r d.idx 0 0 (fieldAt b 32 4))))) ∧
    (∀ x, s.dv.ended.find? (fun e => e.owner == .desc fn r n) = some x →
      let w : State := { s with dv := { s.dv with ended := removeFirst (fun e => decide (e.owner = .desc fn r n)) s.dv.ended } }
      exec (.descriptorComplete fn r n) s = .next ((w.endDesc fn r n x.state x.cause x.bytes).complete fn r n)) ∧
    ((∀ e ∈ s.dv.ended, e.owner ≠ .desc fn r n) → s.ring fn r = none → exec (.descriptorComplete fn r n) s = .next s) ∧
    (s.ring fn r = some g → (∀ e ∈ s.dv.ended, e.owner ≠ .desc fn r n) →
      (g.desc n = none ∨ (∃ x, g.desc n = some x ∧ x.fin = none) → exec (.descriptorComplete fn r n) s = .next s) ∧
      (∀ x h t ty pay, g.desc n = some x → x.fin = some (ty, pay) → g.descs = h :: t →
        let ordered : Prop := g.kind = 0 ∨ g.kind = 1 ∨ g.kind = 3
        (ordered → h.idx ≠ n → exec (.descriptorComplete fn r n) s = .next s) ∧
        (¬ordered ∨ h.idx = n → exec (.descriptorComplete fn r n) s =
          .next (((if ty = 0 then s else s.record fn g.eq fn ty pay).countEnd fn pay).setRing fn r
          (({ g with descs := g.descs.filter (fun y => y.idx != n), doneIdx := insertNat n g.doneIdx } : Ring).passU
            (insertNat n g.doneIdx).length))))) ∧
    (s.hostUp = false ∨ vecCount fn ≤ v → ∀ mk, exec (.msixUnmask fn v mk addr data) s = .next s) ∧
    (s.hostUp = true → v < vecCount fn → ∃ t, exec (.msixUnmask fn v false addr data) s = .next t ∧
      t.host.msix = s.host.msix.put (fnKey fn v) (addr, data) ∧ (fnKey fn v) ∈ t.host.unmasked ∧
      t.out = (if s.host.pba.contains (fnKey fn v) = true then .msix fn v :: s.out else s.out)) ∧
    (s.hostUp = true → v < vecCount fn → ∃ t, exec (.msixUnmask fn v true addr data) s = .next t ∧
      (fnKey fn v) ∉ t.host.unmasked ∧ t.out = s.out)

/-- R378, R379, R501: deliveries. The oldest delivery of a channel leaves only while the Cloche has acknowledged its beat, if
METER_HOLD holds it, and its function is in service: as one SEND on an open context of the function, or into the next posted
buffer of its ring, as much as fits. Without a delivery, a buffer or an open context nothing changes. -/
def Clauses.ExportDeliveries : Prop :=
  ∀ (s : State) (ch n : Nat) (d : Delivery), let e := s.host.channels.getD 0 ch
    let fn := bits e 2 7
    let c := s.econn (bits e 15 13)
    let m := min n (d.bytes.length - d.sent)
    (s.host.deliveries.find? (fun d => d.channel == ch) = none → exec (.exportDeliver ch) s = .next s) ∧
    (s.host.deliveries.find? (fun d => d.channel == ch) = some d →
      (s.heldOk d = false ∨ s.fnReady fn = false → exec (.exportDeliver ch) s = .next s) ∧
      (s.heldOk d = true → s.fnReady fn = true →
        (bits e 0 2 = 2 → c.st = 1 → c.fn = fn → c.lenOk d.bytes.length = true → exec (.exportDeliver ch) s =
          .next ((s.ethStart (bits e 15 13) 7 0 d.bytes.length 0 d.bytes none (.agent 0)).dropDelivery d)) ∧
        (bits e 0 2 = 2 → c.st ≠ 1 ∨ c.fn ≠ fn ∨ c.lenOk d.bytes.length = false → exec (.exportDeliver ch) s = .next s) ∧
        (bits e 0 2 = 0 ∨ bits e 0 2 = 3 → exec (.exportDeliver ch) s = .next s) ∧
        (bits e 0 2 = 1 → s.bufferRoom fn (bits e 9 6) = none → exec (.exportDeliver ch) s = .next s) ∧
        (bits e 0 2 = 1 → s.bufferRoom fn (bits e 9 6) = some n →
          ∀ t, s.fillBuffer fn (bits e 9 6) ((d.bytes.drop d.sent).take m) 2 ch (ofBool (decide (d.sent + m < d.bytes.length)) * 2 ^ 107) = some t →
          (d.sent + m < d.bytes.length → exec (.exportDeliver ch) s = .next (t.setDelivery d { d with sent := d.sent + m })) ∧
          (d.bytes.length ≤ d.sent + m → exec (.exportDeliver ch) s = .next (t.dropDelivery d))))) ∧
    (d.tokens = true → d.hold = true → ∀ ep b, s.records.acked = some (ep, b) →
      (s.heldOk d = true ↔ ep = s.rg Rg.cloche_EPOCH ∧ d.beat ≤ b)) ∧
    (d.tokens = true → d.hold = true → s.records.acked = none → s.heldOk d = false)

/-- Doorbells, fetching, descriptors and export deliveries: the statements above together. -/
def Obligations.RingsAndDescriptors : Prop :=
  Clauses.Doorbells ∧ Clauses.Descriptors ∧ Clauses.ExportDeliveries

/-- R381, R382: the management ring. MR_DB takes the BAR4 writes behind which it comes and counts the requests that wait. The
firmware takes the oldest request, while none runs and the host interface is served; a command whose OP is not the front
request's changes nothing, and one with a byte outside its fields answers STATUS 1 and has no effect. An answer fills bytes 192
to 255 of the slot, and MR_CI advances. -/
def Obligations.ManagementRing : Prop :=
  ∀ (s : State) (op : Nat) (i : Instr) (fields : List (Nat × Nat)) (dma : List Byte) (x : Option NsInfo) (bad : List Nat)
    (ds : List DriveInfo) (slot st count : Nat) (q res : List Byte) (ws : List (Nat × List Byte)), s.Inv →
    (s.host.mrPending = 0 ∨ s.host.mrBusy = true ∨ s.hostServed = false → s.mrFront = none) ∧
    (s.host.mrPending ≠ 0 → s.host.mrBusy = false → s.hostServed = true →
      s.mrFront = some (s.rg Rg.host_MR_CI, s.readB (kMgmt (256 * s.rg Rg.host_MR_CI)) 192)) ∧
    ((op, i, fields) ∈ [(0x01, Instr.plotCreate, [(8, 1)]), (0x02, .hbmGrant, [(8, 1), (9, 1), (16, 8), (24, 8)]),
      (0x04, .ringDestroy, [(8, 1), (9, 1)]), (0x05, .ringReset, [(8, 1), (9, 1), (10, 2)]), (0x07, .eqDestroy, [(8, 1), (9, 1)]),
      (0x03, .ringCreate, [(8, 1), (9, 1), (10, 1), (11, 1), (12, 1), (13, 1), (14, 1), (16, 8), (24, 2)]),
      (0x06, .eqCreate, [(8, 1), (9, 1), (10, 1), (11, 1), (12, 1), (14, 2), (16, 8)]), (0x08, .streamWrite, [(8, 2), (32, 32)]),
      (0x09, .channelSet, [(8, 2), (16, 8)]), (0x0A, .regionSet, [(8, 2), (32, 32)]), (0x0B, .ctxWrite, [(8, 2), (64, 64)]),
      (0x0D, .dconnOpen, [(8, 2), (10, 1), (11, 1), (12, 1), (13, 1)]), (0x0E, .dconnClose, [(8, 2)]),
      (0x10, .plotQuiesce, [(8, 1), (10, 2)]), (0x11, .plotFreeze, [(8, 1)]), (0x12, .plotSave, [(8, 1), (9, 1), (16, 8), (24, 8)]),
      (0x13, .plotRestore dma, [(8, 1), (9, 1), (16, 8), (24, 8), (32, 64)]), (0x14, .plotResume, [(8, 1)]), (0x15, .plotRemove, [(8, 1)]),
      (0x20, .stashAttach x, [(8, 1), (9, 1), (10, 1), (11, 1), (12, 4)]), (0x21, .stashDetach, [(8, 1)]),
      (0x22, .volumeSet, [(8, 2), (10, 1), (11, 1), (12, 1), (16, 8), (24, 8)]), (0x23, .stashRescan true ds, []),
      (0x24, .stashIdentify, [(8, 1), (16, 8)]), (0x30, .labelSet, [(8, 2), (10, 1), (11, 1), (32, 32)]),
      (0x31, .spdmRelay, [(8, 2), (16, 8), (24, 8), (32, 4)]), (0x40, .mulchCheckpoint, []), (0x42, .mulchCancel, []),
      (0x41, .mulchRestore, [(8, 1), (9, 1), (10, 1), (11, 1), (12, 1), (16, 8)]), (0x43, .suppressSet, [(8, 2), (16, 6)]),
      (0x50, .fwWrite, [(8, 1), (16, 8), (24, 8), (32, 4)]), (0x51, .fwVerify bad, [(8, 1)]), (0x53, .bootSelect bad, [(8, 1), (9, 1)]),
      (0x52, .liveUpdate, [(8, 1)]), (0x54, .timeSet, [(8, 8)]), (0x60, .powerSet, [(8, 2), (10, 1), (11, 1), (12, 2), (14, 1)]), (0x61, .powerGet, [])] →
      (s.mrFront = none → exec i s = .next s) ∧
      (s.mrFront = some (slot, q) → fieldAt q 0 1 ≠ op → exec i s = .next s) ∧
      (s.mrFront = some (slot, q) → fieldAt q 0 1 = op → reqZero q fields = false → Answers i s s slot 1 [])) ∧
    (slot < 256 → st < 256 → res.length ≤ 56 → let t := s.mrAnswer slot st res
      t.rg Rg.host_MR_CI = (slot + 1) % 256 ∧ t.host.mrPending = s.host.mrPending - 1 ∧
      t.mem.byte (kMgmt (256 * slot + 193)) = BitVec.ofNat 8 st ∧
      t.readB (kMgmt (256 * slot + 200)) res.length = res ∧
      ∀ y, (y < kMgmt (256 * slot + 192) ∨ kMgmt (256 * slot + 256) ≤ y) → t.mem.byte y = s.mem.byte y) ∧
    (s.hostServed = false → exec (.mrDb count ws) s = .next s) ∧
    (s.hostServed = true → let u := ws.foldl (fun s w => s.bar4 w.1 w.2) s
      let n := (count + 256 - u.rg Rg.host_MR_CI) % 256
      exec (.mrDb count ws) s = .next (({ u with host := { u.host with mrPending := n } } : State).mrSkip n))

/-- R246, R331, R378, R383: what functions own. Each command, asked for with fields that are in range, answers STATUS 0 in the
state that its effect leaves: a plot becomes READY with its counters clear, a grant is set or, with LENGTH 0, removed, rings,
event queues, stream, channel, region and context entries and connections are made as the request says, and removed. A plot that
exists, a ring or queue that exists or does not, or is in use, is refused with STATUS 4 or 3 and no effect. -/
def Obligations.ManagedObjects : Prop :=
  ∀ (s : State) (slot : Nat) (q : List Byte), let f := fieldAt q
    let p := f 8 1
    let n := f 9 1
    let k := f 8 2
    let w := f 32 32
    let ring : Ring := { kind := f 10 1, log2 := f 11 1, eq := f 12 1, port := f 13 1, queue := f 14 1, base := f 16 8,
                         u := f 24 2, f := f 24 2, p := f 24 2 }
    let eq : EvQueue := { log2 := f 10 1, vector := f 11 1, modCount := f 12 1, modTime := f 14 2, base := f 16 8 }
    (Asked s 0x01 [(8, 1)] slot q → 1 ≤ p → p < 128 →
      (s.plotState p = 0 → Answers .plotCreate s ((s.plotClear p).setPlot p 1) slot 0 []) ∧
      (s.plotState p ≠ 0 → Answers .plotCreate s s slot 4 [])) ∧
    (Asked s 0x02 [(8, 1), (9, 1), (16, 8), (24, 8)] slot q → 1 ≤ p → p < 128 → n ≤ 7 → f 16 8 % 2 ^ 21 = 0 → f 24 8 % 2 ^ 21 = 0 →
      f 16 8 + f 24 8 ≤ s.hbmBytes →
      let may : Prop := s.plotState p = 3 ∨ (s.plotState p = 1 ∧ ∀ r g, r < 32 → s.ring p r = some g → g.kind < 2)
      (may → Answers .hbmGrant s { s with host := { s.host with
        grants := if f 24 8 = 0 then s.host.grants.del (8 * p + n) else s.host.grants.put (8 * p + n) (f 16 8, f 24 8) } } slot 0 []) ∧
      (¬may → Answers .hbmGrant s s slot 4 [])) ∧
    (Asked s 0x03 [(8, 1), (9, 1), (10, 1), (11, 1), (12, 1), (13, 1), (14, 1), (16, 8), (24, 2)] slot q → p < 128 → n < ringCount p →
      ring.kind ≤ 5 → 6 ≤ ring.log2 → ring.log2 ≤ 15 → ring.eq < eqCount p → ring.port ≤ 7 → ring.queue ≤ 127 → ring.base % 64 = 0 →
      s.fnExists p = true →
      (s.ring p n = none → (s.host.eqs.get? (fnKey p ring.eq)).isSome = true → Answers .ringCreate s (s.setRing p n ring) slot 0 []) ∧
      ((s.ring p n).isSome = true → Answers .ringCreate s s slot 3 [])) ∧
    (Asked s 0x04 [(8, 1), (9, 1)] slot q → p < 128 → n < ringCount p →
      (s.ring p n = none → Answers .ringDestroy s s slot 3 []) ∧
      (∀ g, s.ring p n = some g → g.descs = [] → Answers .ringDestroy s (s.delRing p n) slot 0 [])) ∧
    (Asked s 0x05 [(8, 1), (9, 1), (10, 2)] slot q → p < 128 → n < ringCount p → ∀ g, s.ring p n = some g →
      (g.err ≠ 0 → g.descs = [] → Answers .ringReset s (s.setRing p n { g with
        err := 0, bell := none, u := f 10 2, f := f 10 2, p := f 10 2, doneIdx := [] }) slot 0 []) ∧
      (g.err = 0 → Answers .ringReset s s slot 3 [])) ∧
    (Asked s 0x06 [(8, 1), (9, 1), (10, 1), (11, 1), (12, 1), (14, 2), (16, 8)] slot q → p < 128 → n < eqCount p → 6 ≤ eq.log2 →
      eq.log2 ≤ 15 → eq.vector < vecCount p → eq.modTime ≤ 1023 → eq.base % 4096 = 0 → s.fnExists p = true →
      s.host.eqs.get? (fnKey p n) = none → Answers .eqCreate s (({ s with host := { s.host with
        eqs := s.host.eqs.put (fnKey p n) eq } } : State).setFn Rg.host_EQ_CI Rg.plotStat_EQ_CI p n 4 0) slot 0 []) ∧
    (Asked s 0x07 [(8, 1), (9, 1)] slot q → p < 128 → n < eqCount p → (s.host.eqs.get? (fnKey p n)).isSome = true →
      (s.eqNamed p n = false → Answers .eqDestroy s { s with host := { s.host with eqs := s.host.eqs.del (fnKey p n) } } slot 0 []) ∧
      (s.eqNamed p n = true → Answers .eqDestroy s s slot 3 [])) ∧
    (Asked s 0x08 [(8, 2), (32, 32)] slot q → k < 4096 → bits w 0 2 ≠ 3 → entOk w = true →
      ((s.ent k).state = 0 → Answers .streamWrite s (s.setEnt k (entOf w 0)) slot 0 []) ∧
      ((s.ent k).state = 3 → Answers .streamWrite s (s.setEnt k (entOf w (s.ent k).tokens)) slot 0 []) ∧
      ((s.ent k).state = 1 → Answers .streamWrite s s slot 3 [])) ∧
    (Asked s 0x09 [(8, 2), (16, 8)] slot q → k < 1024 → s.channelOk (f 16 8) = true → Answers .channelSet s { s with
      host := { s.host with channels := s.host.channels.set 0 k (f 16 8) } } slot 0 []) ∧
    (Asked s 0x0A [(8, 2), (32, 32)] slot q → k < 4096 → regionZero w = true → (∀ e ∈ s.eth.conns, e.2.msg = 0 ∧ e.2.held = []) →
      (∀ v, s.regionAbs w = some v → Answers .regionSet s (s.writeN (s.regionAt k) 32 v) slot 0 []) ∧
      (s.regionAbs w = none → Answers .regionSet s s slot 2 [])) ∧
    (Asked s 0x0B [(8, 2), (64, 64)] slot q → k < 8192 → (s.econn k).st = 0 → Answers .ctxWrite s (s.writeN (s.ctxAt k) 64
      (setBits (setBits (f 64 64) 0 2 0) 208 32 (bits (s.readN (s.ctxAt k) 64) 208 32))) slot 0 []) ∧
    (Asked s 0x0C [(8, 2), (10, 1)] slot q → s.hubMainReset = false → k < 8192 →
      (f 10 1 = 1 → Answers (.ctxOpen 0 true) s (s.ctxOpen k).1 slot 0 (leBytes 1 (s.ctxOpen k).2)) ∧
      (f 10 1 = 2 → Answers (.ctxClose 0 true) s (s.ctxClose k).1 slot 0 (leBytes 1 (s.ctxClose k).2)) ∧
      (f 10 1 = 3 → Answers (.ctxClear 0 true) s (s.ctxClear k).1 slot 0 (leBytes 1 (s.ctxClear k).2))) ∧
    (Asked s 0x0D [(8, 2), (10, 1), (11, 1), (12, 1), (13, 1)] slot q → k < 4096 → f 10 1 < 128 → f 12 1 ≤ 2 → f 13 1 ≤ 5 →
      s.fnExists (f 10 1) = true → let key := connKey 2 k
      ((s.conn key).isOpen = false → Answers .dconnOpen s (s.setConn key
        { peer := f 11 1, engine := f 12 1, vc := f 13 1, func := f 10 1, isOpen := true }) slot 0 []) ∧
      ((s.conn key).isOpen = true → Answers .dconnOpen s s slot 3 [])) ∧
    (Asked s 0x0E [(8, 2)] slot q → k < 4096 → let key := connKey 2 k
      ((s.conn key).isOpen = true → Answers .dconnClose s (s.dconnClose key) slot 0 []) ∧
      ((s.conn key).isOpen = false → Answers .dconnClose s s slot 3 []))

/-- R358, R359, R384-R392: plots. A quiesce of a READY plot starts and holds the ring until it ends; its time limit cuts every
descriptor that still runs; a QUIESCED plot can be frozen, a FROZEN one saved; both can be resumed and removed; an image is
restored into an ABSENT plot only as it was saved, and one that is cut or changed, or whose objects are present or whose grants are
beyond HBM, answers STATUS 5. A mailbox rings the other side. An FLR removes a plot, at the end of its quiesce where it is READY or
QUIESCING; an FLR of PF0 takes one to every plot and ends the manager's own ring work; VFs enumerate up to TotalVFs, of which fuse-hold
has none, and those that disappear take an FLR. The configuration headers are R358's, those of an unconfigured module in fuse-hold.
Anything of a plot in another state is refused with STATUS 4 and no effect. -/
def Obligations.PlotLifecycle : Prop :=
  ∀ (s : State) (slot p n : Nat) (q dma : List Byte) (vf : Bool), s.Inv → let f := fieldAt q
    let plot : Prop := 1 ≤ f 8 1 ∧ f 8 1 < 128
    let st := s.plotState (f 8 1)
    let x := f 8 1
    (Asked s 0x10 [(8, 1), (10, 2)] slot q → plot → f 10 2 ≠ 0 → f 10 2 ≤ 1000 →
      (st = 1 → exec .plotQuiesce s = .next (let t := (s.startQuiesce x { slot := some slot });
        { t with host := { t.host with mrBusy := true } })) ∧
      (st ≠ 1 → Answers .plotQuiesce s s slot 4 [])) ∧
    (s.host.quiesce.get? p = none → exec (.quiesceTimeout p) s = .next s) ∧
    (∀ z, s.host.quiesce.get? p = some z →
      (z.timed = true → exec (.quiesceTimeout p) s = .next s) ∧
      (z.timed = false → exec (.quiesceTimeout p) s = .next (({ s with host := { s.host with
        quiesce := s.host.quiesce.put p { z with timed := true } } } : State).cutAll p))) ∧
    (Asked s 0x11 [(8, 1)] slot q → plot → (st ≠ 3 → Answers .plotFreeze s s slot 4 []) ∧
      (st = 3 → ∃ t, Answers .plotFreeze s t slot 0 [] ∧ t.plotState x = 4 ∧ t.mem = s.mem ∧ t.host = s.host)) ∧
    (Asked s 0x12 [(8, 1), (9, 1), (16, 8), (24, 8)] slot q → plot → st = 4 → f 9 1 = 0 → (s.plotImage x).length ≤ f 24 8 →
      Answers .plotSave s (({ s with host := { s.host with saved := insertNat x s.host.saved } } : State).hostWrite 0 (f 16 8)
        (s.plotImage x)) slot 0 (leBytes 8 (s.plotImage x).length)) ∧
    (Asked s 0x12 [(8, 1), (9, 1), (16, 8), (24, 8)] slot q → plot → f 9 1 = 3 → f 16 8 + f 24 8 ≤ 0x3C0000 →
      (st ≠ 4 → Answers .plotSave s s slot 4 []) ∧
      (st = 4 → f 24 8 < (s.plotImage x).length → Answers .plotSave s s slot 6 []) ∧
      (st = 4 → (s.plotImage x).length ≤ f 24 8 → Answers .plotSave s
        (({ s with host := { s.host with saved := insertNat x s.host.saved } } : State).writeB (kMgmt (0x40000 + f 16 8)) (s.plotImage x))
        slot 0 (leBytes 8 (s.plotImage x).length))) ∧
    (Asked s 0x13 [(8, 1), (9, 1), (16, 8), (24, 8), (32, 64)] slot q → plot →
      f 9 1 = 0 ∨ (f 9 1 = 3 ∧ f 16 8 + f 24 8 ≤ 0x3C0000) →
      (st ≠ 0 → Answers (.plotRestore dma) s s slot 4 []) ∧
      (st = 0 → let img := if f 9 1 = 0 then dma.take (f 24 8) else s.readB (kMgmt (0x40000 + f 16 8)) (f 24 8)
        let ps := imageParts (fieldAt img 32 2) ((img.drop 64).take (img.length - 96))
        let whole : Prop := 96 ≤ img.length ∧ fieldAt img 0 4 = 0x544F4C50 ∧ fieldAt img 4 2 = 1 ∧ fieldAt img 8 8 = img.length ∧
          sha3_256 (img.take (img.length - 32)) = img.drop (img.length - 32)
        let base (i : Nat) : Nat := if i < 8 then f (32 + 8 * i) 8 else 0
        let fits : Prop := s.imageClash ps = false ∧ (∀ i, i < 8 → base i % 2 ^ 21 = 0) ∧
          ∀ e ∈ partEntries ps 4 16, base (fieldAt e 0 8) + fieldAt e 8 8 ≤ s.hbmBytes
        (¬whole → Answers (.plotRestore dma) s s slot 5 []) ∧
        (whole → fieldAt img 6 1 ≠ x → Answers (.plotRestore dma) s s slot 2 []) ∧
        (whole → fieldAt img 6 1 = x → ¬fits → Answers (.plotRestore dma) s s slot 5 []) ∧
        (whole → fieldAt img 6 1 = x → fits → ∃ t, Answers (.plotRestore dma) s t slot 0 [] ∧ t.plotState x = 4))) ∧
    (Asked s 0x14 [(8, 1)] slot q → plot → (st ≠ 3 ∧ st ≠ 4 → Answers .plotResume s s slot 4 []) ∧
      (st = 3 ∨ st = 4 → ∃ t, Answers .plotResume s t slot 0 [] ∧ t.plotState x = 1 ∧ t.mem = s.mem)) ∧
    (Asked s 0x15 [(8, 1)] slot q → plot → (st ≠ 3 ∧ st ≠ 4 → Answers .plotRemove s s slot 4 []) ∧
      (st = 3 ∨ st = 4 → Answers .plotRemove s (s.removePlot x) slot 0 [] ∧ (s.removePlot x).plotState x = 0)) ∧
    (let on : Prop := s.hostServed = true ∧ 1 ≤ p ∧ p < 128 ∧ s.plotState p ≠ 0
     (¬on → exec (.mbDb p) s = .next s ∧ exec (.mbReplyDb p) s = .next s) ∧
     (on → ∃ t, exec (.mbDb p) s = .next t ∧ t.rg Rg.plotStat_MB_REQ_COUNT p = (s.rg Rg.plotStat_MB_REQ_COUNT p + 1) % 2 ^ 16) ∧
     (on → ∃ t, exec (.mbReplyDb p) s = .next t ∧ t.rg Rg.plotStat_MB_REPLY_COUNT p = (s.rg Rg.plotStat_MB_REPLY_COUNT p + 1) % 2 ^ 16)) ∧
    (s.hostUp = false → exec (.flrPlot p) s = .next s ∧ exec .flrPf0 s = .next s ∧ exec (.vfEnable n) s = .next s ∧
      exec (.vfDisable n) s = .next s) ∧
    (s.hostUp = true → (s.plotState p = 0 ∨ p = 0 ∨ 128 ≤ p → exec (.flrPlot p) s = .next s) ∧
      (1 ≤ p → p < 128 → s.plotState p = 2 → exec (.flrPlot p) s = .next (let t := s.overtake p
        { t with host := { t.host with
          quiesce := t.host.quiesce.put p { t.host.quiesce.getD {} p with flr := true, slot := none, old := 2 } } })) ∧
      (1 ≤ p → p < 128 → s.plotState p = 1 → exec (.flrPlot p) s = .next ((s.overtake p).startQuiesce p { flr := true })) ∧
      (1 ≤ p → p < 128 → 3 ≤ s.plotState p → exec (.flrPlot p) s =
        .next ((((s.overtake p).removePlot p).maskAll p).plotEvent p (s.plotState p) 0 { flr := true })) ∧
      exec .flrPf0 s = .next (((List.range 127).foldl (fun s i => s.flrPlot (i + 1)) s).startQuiesce 0 { flr := true }) ∧
      (s.host.linkUp = true → s.rg Rg.system_FUSE_HOLD = 0 → n ≤ 127 → s.host.numVfs ≤ n →
        exec (.vfEnable n) s = .next { s with host := { s.host with numVfs := n } }) ∧
      (s.host.linkUp = false ∨ s.rg Rg.system_FUSE_HOLD ≠ 0 ∨ 127 < n ∨ n < s.host.numVfs → exec (.vfEnable n) s = .next s) ∧
      (s.host.numVfs ≤ n → exec (.vfDisable n) s = .next s) ∧
      (n < s.host.numVfs → exec (.vfDisable n) s = .next (let t := (List.range (s.host.numVfs - n)).foldl (fun s i => s.flrPlot (n + 1 + i)) s;
        { t with host := { t.host with numVfs := n } }))) ∧
    (let h := s.pciHeader vf
     h.vendor = 0x1F7E ∧ h.device = (if vf then 0x5291 else 0x5290) ∧ h.revision = s.rg Rg.identity_STEPPING ∧
     (s.rg Rg.system_FUSE_HOLD = 0 → h.classCode = 0x120000 ∧ s.srIov.totalVfs = 127 ∧ s.srIov.initialVfs = 127) ∧
     (s.rg Rg.system_FUSE_HOLD ≠ 0 → h.classCode = 0xFF0000 ∧ h.subVendor = 0 ∧ h.subsystem = 0 ∧ s.srIov.totalVfs = 0))

/-! ## Stash -/

/-- R400-R404, R406: Stash descriptors. The STASH rings with a descriptor to accept are served in turn. A descriptor that fails a check
completes not started with the cause of the first one; one that passes them all is accepted, and its pieces join the queues in order.
The pieces cut the range without a gap, and none crosses a multiple of the piece size. While Stash does not serve, or out of turn,
nothing happens. -/
def Clauses.StashDescriptors : Prop :=
  ∀ (s : State) (fn r kind size b e : Nat) (i : Instr) (g : Ring) (d : Desc),
    (kind, i) ∈ [(0, Instr.stashRead fn r), (1, .stashWrite fn r), (2, .stashZero fn r), (3, .stashFlush fn r)] →
    let u : State := let t := s.started fn r g d
      { t with stash := { t.stash with ringTurn := fnKey fn r + 1 } }
    let start := (u.rg Rg.stash_V_FIRST (fieldAt d.bytes 12 2) + fieldAt d.bytes 24 8) * u.sector (u.rg Rg.stash_V_SLOT (fieldAt d.bytes 12 2))
    let size' := u.pieceSize (u.rg Rg.stash_V_SLOT (fieldAt d.bytes 12 2))
    let total := fieldAt d.bytes 32 4 * u.sector (u.rg Rg.stash_V_SLOT (fieldAt d.bytes 12 2))
    (s.stashUp = false ∨ s.stashTurn fn r = false ∨ s.ring fn r = none → exec i s = .next s) ∧
    (s.stashUp = true → s.stashTurn fn r = true → s.ring fn r = some g →
      (g.nextDesc = none ∨ g.kind ≠ 4 ∨ s.hostUp = false → exec i s = .next s) ∧
      (g.nextDesc = some d → g.kind = 4 → s.hostUp = true →
        (fieldAt d.bytes 0 1 ∉ [0x30, 0x31, 0x32, 0x33] → exec i s = .next (s.endDesc fn r d.idx 2 14 0)) ∧
        (fieldAt d.bytes 0 1 ∈ [0x30, 0x31, 0x32, 0x33] → fieldAt d.bytes 0 1 ≠ 0x30 + kind → exec i s = .next s))) ∧
    (s.stashUp = true → s.stashTurn fn r = true → Begins s fn r 4 (0x30 + kind) g d →
      (u.stashCheck fn kind d.bytes ≠ 0 → exec i s = .next (u.endDesc fn r d.idx 2 (u.stashCheck fn kind d.bytes) 0)) ∧
      (u.stashCheck fn kind d.bytes = 0 → exec i s = .next (u.stashAccept (.desc fn r d.idx) fn kind d.bytes) ∧
        (kind < 3 → ∃ t ps, exec i s = .next t ∧ t.stash.waiting = s.stash.waiting ++ ps ∧
          ps.map (fun y => y.2.bytes) = (cutPieces size' start (start + total)).map (fun y => y.2) ∧
          ∀ y ∈ ps, y.2.kind = kind ∧ y.2.cmd = s.stash.nextId ∧ y.2.cls = fieldAt d.bytes 9 1 ∧ s.stash.seq ≤ y.1) ∧
        (kind = 3 → ∃ t p, exec i s = .next t ∧ t.stash.waiting = s.stash.waiting ++ [(s.stash.seq, p)] ∧ p.kind = 3 ∧
          p.cmd = s.stash.nextId ∧ p.cls = fieldAt d.bytes 9 1))) ∧
    (s.stashCheck fn kind d.bytes = 0 → kind < 3 → let v := fieldAt d.bytes 12 2
      v < 256 ∧ s.flag Rg.stash_V_VALID v = true ∧ s.rg Rg.stash_V_OWNER v = fn ∧
      fieldAt d.bytes 24 8 + fieldAt d.bytes 32 4 ≤ s.rg Rg.stash_V_COUNT v ∧ fieldAt d.bytes 32 4 ≠ 0 ∧
      (1 ≤ kind → s.flag Rg.stash_V_RO v = false)) ∧
    (0 < size → ((cutPieces size b e).map (fun x => x.2)).sum = e - b ∧
      ∀ x ∈ cutPieces size b e, b ≤ x.1 ∧ x.1 + x.2 ≤ e ∧ 0 < x.2 ∧ x.1 / size = (x.1 + x.2 - 1) / size)

/-- R405-R413, R418: the drives. A drive with room takes the oldest urgent piece that may go, in its order; a piece whose
completion is a success ends with its bytes where they belong and counts them, and with another status, a parity error or an
abort with cause 19 to 22; where no urgent piece may go, deficit round robin picks one of the other classes; a READ's bytes wait where
their destination does; a piece that is overdue is aborted, once; a drive whose abort does not end is reset and initialised
again; a drive that fails ends everything of its with cause 18 and is logged; one that is ready shows what it reported. MODE
changes at once to anything but SERVICE, which waits for what is unflushed. -/
def Clauses.StashDrives : Prop :=
  ∀ (s : State) (dr cmd idx sct sc n cause m : Nat) (dma data : List Byte) (par : Bool) (p : Piece) (c : StashCmd) (x : DriveId),
    s.Inv → dr < 16 →
    let here : Prop := s.stash.atDrive.find? (fun y => y.2.cmd == cmd && y.2.idx == idx) = some (n, p) ∧ s.stashCmd cmd = some c
    let none? : Prop := s.stash.atDrive.find? (fun y => y.2.cmd == cmd && y.2.idx == idx) = none
    let at_ := c.addr + c.offset idx
    let full : Prop := s.stashUp = false ∨ s.rg Rg.stash_DSTATE dr ≠ 2 ∨
      s.rg Rg.stash_QD ≤ s.stash.atDrive.countP (fun y => y.2.drive == dr)
    let done (sct sc : Nat) (par : Bool) : Instr := .pieceComplete cmd idx sct sc data par
    let urgent : Prop := s.stash.atDrive.countP (fun y => y.2.drive == dr && y.2.cls == 0) < s.rg Rg.stash_URG_MAX
    let turn := s.stash.turn.getD 0 dr
    (full ∨ s.stash.waiting = [] → exec (.pieceSubmit dr dma) s = .next s) ∧
    (∀ y, s.stashCmd y.2.cmd = some c →
      (urgent ∧ s.oldest dr 0 = some y) ∨
        ((¬urgent ∨ s.oldest dr 0 = none) ∧ ∃ d' t', s.drr dr 4096 s.stash.deficit turn = some (y, d', t')) → ¬full →
      (y.2.kind < 2 → 16 * 2 ^ 20 < s.bufferUsed + y.2.bytes → exec (.pieceSubmit dr dma) s = .next s) ∧
      ((y.2.kind < 2 → s.bufferUsed + y.2.bytes ≤ 16 * 2 ^ 20) →
        (y.2.kind = 1 → s.localRead c.fn c.aspace (c.addr + c.offset y.2.idx) y.2.bytes dma = some data) →
        ∃ t q, exec (.pieceSubmit dr dma) s = .next t ∧
          t.out = .nvme dr q :: s.out ∧ q.cmd = y.2.cmd ∧ q.idx = y.2.idx ∧ q.lba = y.2.lba ∧ q.blocks = y.2.blocks ∧
          (y.2.kind = 1 → q.data = data) ∧
          t.stash.waiting = s.stash.waiting.filter (fun z => z.1 != y.1) ∧ t.stash.atDrive = s.stash.atDrive ++ [(y.1, q)])) ∧
    (none? → exec (done sct sc par) s = .next s ∧ exec (.pieceTimeout cmd idx) s = .next s) ∧
    (here → p.aborting = true → exec (done sct sc par) s = .next (s.pieceEnd p 20) ∧ exec (.pieceTimeout cmd idx) s = .next s) ∧
    (here → p.aborting = false →
      exec (done 2 0x81 par) s = .next (s.pieceEnd p 19) ∧ exec (done 2 0x80 par) s = .next (s.pieceEnd p 19) ∧
      (sct ≠ 0 ∨ sc ≠ 0 → ¬(sct = 2 ∧ (sc = 0x81 ∨ sc = 0x80)) → exec (done sct sc par) s =
        .next (((s.setRg Rg.stash_LAST_SCT p.drive sct).setRg Rg.stash_LAST_SC p.drive sc).pieceEnd p 21)) ∧
      (let r : FaultRec := { cls := 2, unit := 14, index := 0, check := 0, beat := s.rg Rg.beat_BEATNO }
       exec (done 0 0 true) s = .next (((s.countReport r).logPair r 0 0).pieceEnd p 22)) ∧
      (p.kind = 0 → s.writeWaits c.fn c.aspace at_ p.bytes = false → exec (done 0 0 false) s =
        .next (((s.loseBuffer.localWrite c.fn c.aspace at_ ((data ++ List.replicate p.bytes 0).take p.bytes)).incRg
          Rg.stash_READ_BYTES p.drive p.bytes).pieceEnd p 0)) ∧
      (p.kind = 0 → s.writeWaits c.fn c.aspace at_ p.bytes = true → exec (done 0 0 false) s = .next s) ∧
      (p.kind = 1 ∨ p.kind = 2 → exec (done 0 0 false) s = .next ((s.incRg Rg.stash_WRITE_BYTES p.drive p.bytes).pieceEnd p 0)) ∧
      (p.kind = 3 → exec (done 0 0 false) s = .next (s.pieceEnd p 0)) ∧
      exec (.pieceTimeout cmd idx) s = .next (((s.setQueues s.stash.waiting (s.stash.atDrive.map (fun y =>
        if y.1 = n then (n, { p with aborting := true }) else y))).satRg Rg.stash_TIMEOUTS p.drive 1).emit (.nvmeAbort p.drive false))) ∧
    ((∃ y ∈ s.stash.atDrive, y.2.drive = dr ∧ y.2.aborting = true) → exec (.abortTimeout dr) s =
      .next (((s.pieceFail (s.stash.atDrive.filter (fun y => y.2.drive == dr)) 20).setDrive dr 1).emit (.nvmeAbort dr true))) ∧
    ((∀ y ∈ s.stash.atDrive, y.2.drive = dr → y.2.aborting = false) → exec (.abortTimeout dr) s = .next s) ∧
    (let st := s.rg Rg.stash_DSTATE dr
     (s.stashUp = false ∨ (st ≠ 1 ∧ st ≠ 2) → exec (.driveFail dr cause) s = .next s) ∧
     (s.stashUp = false ∨ st ≠ 1 → exec (.driveReady dr x) s = .next s) ∧
     (s.stashUp = true → st = 1 ∨ st = 2 →
       let ps := (s.stash.atDrive ++ s.stash.waiting).filter (fun y => y.2.drive == dr)
       let u := (s.pieceFail ps 18).setDrive dr 3
       let r : FaultRec := { cls := 2, unit := 9, index := u.rg Rg.stash_DPORT dr, check := 10, beat := u.rg Rg.beat_BEATNO }
       (ps = [] → u.rg Rg.stash_DSTATE dr = 3) ∧
       exec (.driveFail dr cause) s =
         .next (((u.event 0x0501 (dr + cause * 2 ^ 4 + ps.length * 2 ^ 32)).countReport r).logPair r 0 0)) ∧
     (s.stashUp = true → st = 1 →
       let u := ((s.setDrive dr 2).setRg Rg.stash_VWC dr (ofBool x.vwc)).setRg Rg.stash_MDTS_LOG2 dr (max 12 (min 20 x.mdts))
       let v : State := { u with stash := { u.stash with
         serial := u.stash.serial.put dr x.serial, nsids := u.stash.nsids.put dr x.nsids,
         identify := u.stash.identify.put dr x.identify } }
       let w := v.pieceFail (v.stash.waiting.filter (fun y => y.2.drive == dr && v.slotFailed y.2.slot)) 18
       v.rg Rg.stash_DSTATE dr = 2 ∧ v.rg Rg.stash_VWC dr = ofBool x.vwc ∧
       v.rg Rg.stash_MDTS_LOG2 dr = max 12 (min 20 x.mdts) ∧
       exec (.driveReady dr x) s = .next (w.event 0x0500 (dr + w.rg Rg.stash_DPORT dr * 2 ^ 4 + w.rg Rg.stash_DRATE dr * 2 ^ 6 +
         w.rg Rg.stash_DWIDTH dr * 2 ^ 8 + w.rg Rg.stash_BDF dr * 2 ^ 16)))) ∧
    (s.hubMainReset = true → exec (.stashModeWrite m) s = .next s) ∧
    (s.hubMainReset = false → m ≠ 0 → exec (.stashModeWrite m) s = .next (let t := s.setRg Rg.stash_MODE 0 m
      ({ t with stash := { t.stash with modePend := false } } : State).modeCur m)) ∧
    (s.hubMainReset = false → s.rg Rg.stash_MODE ≠ 0 → exec (.stashModeWrite 0) s = .next (let t := s.setRg Rg.stash_MODE 0 0
      { t with stash := { t.stash with modePend := true } })) ∧
    (s.hubMainReset = false → s.rg Rg.stash_MODE = 0 → exec (.stashModeWrite 0) s = .next (s.setRg Rg.stash_MODE 0 0)) ∧
    (s.stash.modePend = false ∨ (∃ y ∈ s.stash.atDrive, y.2.writes = true ∧ y.2.force = false ∧ y.2.service = false) →
      exec .stashServiceFlushed s = .next s) ∧
    (s.stash.modePend = true → (∀ y ∈ s.stash.atDrive, y.2.writes = true → y.2.force = true ∨ y.2.service = true) →
      ∃ t, exec .stashServiceFlushed s = .next t ∧ t.rg Rg.stash_MODE_CUR = 0 ∧ t.stash.modePend = false)

/-- Stash descriptors, pieces and drives: the statements above together. -/
def Obligations.StashCommands : Prop :=
  Clauses.StashDescriptors ∧ Clauses.StashDrives

/-- R397, R400, R401, R417: Stash's management. An attach that meets every check binds the slot to the namespace as the drive
reports it, and one that does not answers STATUS 7 with the reason of the first; a slot that a volume uses is not detached; a
volume is set within its slot, and COUNT 0 invalidates it; a rescan numbers the drives as found; IDENTIFY copies the drive's
data. -/
def Obligations.StashManagement : Prop :=
  ∀ (s : State) (slot : Nat) (q : List Byte) (x : NsInfo) (ns : Option NsInfo) (ds : List DriveInfo), s.Inv → let f := fieldAt q
    let n := f 8 1
    let d := f 9 1
    let v := f 8 2
    let reason := s.attachReason d (f 10 1) (f 11 1) (f 12 4) ns
    (Asked s 0x20 [(8, 1), (9, 1), (10, 1), (11, 1), (12, 4)] slot q → n < 32 → d < 16 →
      f 10 1 = 0 ∨ (f 10 1 = 1 ∧ 12 ≤ f 11 1 ∧ f 11 1 ≤ 18) → s.flag Rg.stash_NS_VALID n = false →
      (s.rg Rg.stash_DSTATE d ≠ 2 → reason = 1) ∧ (s.rg Rg.stash_DSTATE d = 2 → ns = none → reason = 2) ∧
      (reason ≠ 0 → Answers (.stashAttach ns) s s slot 7 (leBytes 1 reason)) ∧
      (reason = 0 → ns = some x → x.size = 512 ∨ x.size = 4096 → ∃ t, Answers (.stashAttach ns) s t slot 0 [] ∧
        t.rg Rg.stash_NS_VALID n = 1 ∧ t.rg Rg.stash_NS_DRIVE n = d ∧ t.rg Rg.stash_NSID n = f 12 4 ∧
        t.aunit n = (if f 10 1 = 1 then some (2 ^ f 11 1) else none) ∧ t.sector n = x.size ∧ t.mem = s.mem)) ∧
    (Asked s 0x20 [(8, 1), (9, 1), (10, 1), (11, 1), (12, 4)] slot q → n < 32 → d < 16 →
      f 10 1 = 0 ∨ (f 10 1 = 1 ∧ 12 ≤ f 11 1 ∧ f 11 1 ≤ 18) → s.flag Rg.stash_NS_VALID n = true →
      Answers (.stashAttach ns) s s slot 3 []) ∧
    (Asked s 0x21 [(8, 1)] slot q → n < 32 → s.flag Rg.stash_NS_VALID n = true →
      ((∃ w, w < 256 ∧ s.flag Rg.stash_V_VALID w = true ∧ s.rg Rg.stash_V_SLOT w = n) → Answers .stashDetach s s slot 3 []) ∧
      ((∀ w, w < 256 → s.flag Rg.stash_V_VALID w = true → s.rg Rg.stash_V_SLOT w ≠ n) → ∃ t, Answers .stashDetach s t slot 0 [] ∧
        t.rg Rg.stash_NS_VALID n = 0)) ∧
    (Asked s 0x22 [(8, 2), (10, 1), (11, 1), (12, 1), (16, 8), (24, 8)] slot q → v < 256 → f 10 1 < 32 → f 11 1 ≤ 128 → f 12 1 ≤ 1 →
      ((∃ c ∈ s.stash.cmds, c.volume = v) → Answers .volumeSet s s slot 3 []) ∧
      ((∀ c ∈ s.stash.cmds, c.volume ≠ v) → f 24 8 = 0 → ∃ t, Answers .volumeSet s t slot 0 [] ∧ t.rg Rg.stash_V_VALID v = 0) ∧
      ((∀ c ∈ s.stash.cmds, c.volume ≠ v) → f 24 8 ≠ 0 → s.flag Rg.stash_NS_VALID (f 10 1) = false →
        Answers .volumeSet s s slot 3 []) ∧
      ((∀ c ∈ s.stash.cmds, c.volume ≠ v) → f 24 8 ≠ 0 → s.flag Rg.stash_NS_VALID (f 10 1) = true →
        (s.rg Rg.stash_NS_LBAS (f 10 1) < f 16 8 + f 24 8 ∨
          ∃ u, s.aunit (f 10 1) = some u ∧ f 16 8 % (u / s.sector (f 10 1)) ≠ 0) → Answers .volumeSet s s slot 2 []) ∧
      ((∀ c ∈ s.stash.cmds, c.volume ≠ v) → f 24 8 ≠ 0 → s.flag Rg.stash_NS_VALID (f 10 1) = true →
        (∀ u, s.aunit (f 10 1) = some u → f 16 8 % (u / s.sector (f 10 1)) = 0) →
        f 16 8 + f 24 8 ≤ s.rg Rg.stash_NS_LBAS (f 10 1) → f 16 8 + f 24 8 < 2 ^ 48 → ∃ t, Answers .volumeSet s t slot 0 [] ∧ t.rg Rg.stash_V_VALID v = 1 ∧
          t.rg Rg.stash_V_SLOT v = f 10 1 ∧ t.rg Rg.stash_V_OWNER v = f 11 1 ∧ t.rg Rg.stash_V_RO v = f 12 1 ∧
          t.rg Rg.stash_V_FIRST v = f 16 8 ∧ t.rg Rg.stash_V_COUNT v = f 24 8)) ∧
    (Asked s 0x23 [] slot q → ((∀ y ∈ s.stash.atDrive, s.rg Rg.stash_DSTATE y.2.drive = 3) → Answers (.stashRescan true ds) s (s.rescan ds) slot 0 []) ∧
      ((∃ y ∈ s.stash.atDrive, s.rg Rg.stash_DSTATE y.2.drive ≠ 3) → Answers (.stashRescan true ds) s s slot 3 [])) ∧
    (s.stashUp = true → s.rg Rg.stash_DRIVES = 0 → exec (.stashRescan false ds) s = .next (s.rescan ds)) ∧
    (s.stashUp = false ∨ s.rg Rg.stash_DRIVES ≠ 0 → exec (.stashRescan false ds) s = .next s) ∧
    (s.stash.waiting = [] → (s.rescan ds).rg Rg.stash_DRIVES = min 16 ds.length) ∧
    (Asked s 0x24 [(8, 1), (16, 8)] slot q → n < 16 → f 16 8 + 4096 ≤ 0x3C0000 →
      (s.rg Rg.stash_DSTATE n = 2 → Answers .stashIdentify s (s.writeB (kMgmt (0x40000 + f 16 8))
        ((s.stash.identify.getD [] n ++ List.replicate 4096 0).take 4096)) slot 0 []) ∧
      (s.rg Rg.stash_DSTATE n ≠ 2 → Answers .stashIdentify s s slot 3 []))

/-! ## The cipher block, SPDM and the management controller -/

/-- R423, R428-R434: cipher commands. A job whose command fails a check ends not started with the cause of the first one and
writes nothing; a core without a job of the OP does nothing. GCM_ENC writes the ciphertext and TLEN bytes of the tag, GCM_DEC
the plaintext once the tag has matched and nothing before, and zeros over it where the tag then differs (cause 31); the generating MAC
commands write their tag, the verifying ones write nothing and end with cause 25 where it differs; a fault of the core leaves cause 29,
and retires the core when the command completes. The scheduler gives the lowest free core the register-mode command first, and then the
next ring in its turn; the end of a command is its descriptor's record, or the result registers with the release that has waited. -/
def Obligations.CipherCommands : Prop :=
  ∀ (s : State) (c op n e : Nat) (i : Instr) (j : CipherJob) (pay aad again tag p q : List Byte) (cut : Option Nat) (parity ok : Bool),
    let a := cipherArgs j.image
    let reads : Prop := s.jobOf c op = some j ∧ s.cipherCheck j = 0 ∧ s.localRead j.fn a.sspace a.saddr a.inLen pay = some p ∧
      (a.gcm = true → s.localRead j.fn a.aspace a.aaddr a.alen aad = some q) ∧
      (a.verifies = false → s.writeWaits j.fn a.dspace a.daddr a.outLen = false)
    let key := s.jobKey j
    let out (bs : List Byte) : State := s.localWrite j.fn a.dspace a.daddr bs
    ((op, i) ∈ [(0x40, Instr.gcmEnc c pay aad cut), (0x41, .gcmDec c pay aad again cut), (0x42, .gmacGen c pay cut),
        (0x43, .gmacVer c pay tag cut), (0x44, .cmacGen c pay cut), (0x45, .cmacVer c pay tag cut)] →
      (s.jobOf c op = none → exec i s = .next s) ∧
      (s.jobOf c op = some j → s.cipherCheck j = e → e ≠ 0 → exec i s = .next (s.endJob c j 2 e 0 false)) ∧
      (s.jobOf c op = some j → s.cipherCheck j = 0 → a.verifies = false → s.writeWaits j.fn a.dspace a.daddr a.outLen = true →
        exec i s = .next s)) ∧
    (op = 0x40 → reads → a.gcm = true → let w := gcmEnc key a.iv q p
      exec (.gcmEnc c pay aad none) s = .next (((out (w.1 ++ w.2.take a.tlen)).units (a.plen + a.alen)).endJob c j 0 0 a.plen false) ∧
      exec (.gcmEnc c pay aad (some n)) s = .next (((out (w.1.take (min n a.plen))).units (min n a.plen + a.alen)).endJob c j 1 29
        (min n a.plen) false)) ∧
    (op = 0x41 → reads → a.gcm = true → let w := gcmDec key a.iv q (p.take a.plen)
      let u := s.units (a.plen + a.alen)
      let w' := gcmDec key a.iv q (if a.sspace = 0 then (again ++ List.replicate a.plen 0).take a.plen else p.take a.plen)
      let m := min n a.plen
      let wrote (m : Nat) : State := (u.localWrite j.fn a.dspace a.daddr (w'.1.take m)).units m
      (w.2.take a.tlen ≠ p.drop a.plen → exec (.gcmDec c pay aad again cut) s = .next (u.endJob c j 2 25 0 false)) ∧
      (w.2.take a.tlen = p.drop a.plen →
        exec (.gcmDec c pay aad again (some n)) s =
          .next (((wrote m).localWrite j.fn a.dspace a.daddr (List.replicate m 0)).endJob c j 2 29 0 false) ∧
        (w'.2.take a.tlen = p.drop a.plen → exec (.gcmDec c pay aad again none) s = .next ((wrote a.plen).endJob c j 0 0 a.plen true)) ∧
        (w'.2.take a.tlen ≠ p.drop a.plen → exec (.gcmDec c pay aad again none) s =
          .next (((wrote a.plen).localWrite j.fn a.dspace a.daddr (List.replicate a.plen 0)).endJob c j 2 31 0 false)))) ∧
    ((op, i) ∈ [(0x42, Instr.gmacGen c pay none), (0x44, .cmacGen c pay none)] → reads → a.gcm = false →
      exec i s = .next (((out ((s.macTag j a p).take a.tlen)).units a.plen).endJob c j 0 0 a.plen false)) ∧
    ((op, i) ∈ [(0x42, Instr.gmacGen c pay (some n)), (0x43, .gmacVer c pay tag (some n)), (0x44, .cmacGen c pay (some n)),
        (0x45, .cmacVer c pay tag (some n))] → reads → a.gcm = false →
      exec i s = .next ((s.units (min n a.plen)).endJob c j 2 29 0 false)) ∧
    ((op, i) ∈ [(0x43, Instr.gmacVer c pay tag none), (0x45, .cmacVer c pay tag none)] → reads → a.gcm = false → ∀ want,
      s.localRead j.fn a.dspace a.daddr a.tlen tag = some want →
      ((s.macTag j a p).take a.tlen = want → exec i s = .next ((s.units a.plen).endJob c j 0 0 a.plen true)) ∧
      ((s.macTag j a p).take a.tlen ≠ want → exec i s = .next ((s.units a.plen).endJob c j 2 25 0 false))) ∧
    (s.freeCipher = none ∨ s.hubMainReset = true → exec .cipherAssign s = .next s) ∧
    (s.freeCipher = some c → s.hubMainReset = false →
      (s.cipher.go = some j → exec .cipherAssign s = .next (({ s with cipher := { s.cipher with go := none } } : State).setJob c
        { j with result := if cipherOps.contains (fieldAt j.image 0 1) then none else some (2, 14, 0, false) })) ∧
      (s.cipher.go = none → s.cipherRings = [] → exec .cipherAssign s = .next s) ∧
      (s.cipher.go = none → s.hostUp = false → exec .cipherAssign s = .next s) ∧
      (s.cipher.go = none → s.hostUp = true → n ∈ s.cipherRings →
        ((s.cipher.rr < n ∧ (s.cipherRings.filter (fun k => decide (s.cipher.rr < k))).head? = some n) ∨
          ((∀ k ∈ s.cipherRings, k ≤ s.cipher.rr) ∧ s.cipherRings.head? = some n)) →
        exec .cipherAssign s = .next (s.assignRing c n))) ∧
    (s.cipher.jobs.get? c = none → exec (.cipherComplete c parity) s = .next s) ∧
    (s.cipher.jobs.get? c = some j → j.result = none → exec (.cipherComplete c parity) s = .next s) ∧
    (let u : State := ({ s with cipher := { s.cipher with jobs := s.cipher.jobs.del c } } : State).incRg Rg.cipher_COMMANDS 0 1
     ∀ st, s.cipher.jobs.get? c = some j → j.result = some (st, e, n, ok) →
      let after (t : State) : State := if e = 29 then t.retireCipher c parity else t
      (∀ fn r k, j.desc = some (fn, r, k) →
        exec (.cipherComplete c parity) s = .next (after ((u.endDesc fn r k st e n).complete fn r k))) ∧
      (j.desc = none →
        let v := if a.verifies = true ∨ a.op = 0x41 then u.setRg Rg.cipher_TAG_OK 0 (ofBool ok) else u
        let w := (v.regResult st e n).setRg Rg.cipher_BUSY 0 0
        exec (.cipherComplete c parity) s = .next (after (if s.cipher.releasing then w.lockFree else w))))

/-- SP 800-38D, R429, R431: what GCM_DEC computes from the ciphertext of GCM_ENC, under the same key, IV and associated data, is
the plaintext and the same tag, of every length. -/
def Obligations.GcmRoundTrip : Prop :=
  ∀ (key iv aad p : List Byte), key.length = 32 → iv.length = 12 →
    (gcmEnc key iv aad p).1.length = p.length ∧ gcmDec key iv aad (gcmEnc key iv aad p).1 = (p, (gcmEnc key iv aad p).2)

/-- R435-R437, R439, R441: the lock, register mode, signing and labels. A free lock goes to its claimant; the record port waits
for an owned one, and any other requester that does not own it is counted, PCIe apart. The owner renews and releases it; a
release waits for a running command; a lease that has expired frees it, to the record port where it waits. GO of the owner
starts its command, or ends it with cause 28 while one runs. LABEL_SET writes its entry. -/
def Obligations.CipherLock : Prop :=
  ∀ (s : State) (w slot : Nat) (q : List Byte), s.Inv → 0 < w → w < 18 → let o := s.rg Rg.cipher_OWNER
    let sig := ecdsaSign s.attestKey (s.regBytes Rg.cipher_DIGEST 8)
    let f := fieldAt q
    (s.hubMainReset = true → ∀ i ∈ [Instr.claim w, .renew w, .release w, .cipherGo w, .sign w], exec i s = .next s) ∧
    (s.hubMainReset = false →
      (o = 0 → ∃ t, exec (.claim w) s = .next t ∧ t.rg Rg.cipher_OWNER = w ∧ t.rg Rg.cipher_STAMP = s.rg Rg.cipher_LCLK % 2 ^ 32 ∧
        t.rg Rg.cipher_LOCK_SEQ = (s.rg Rg.cipher_LOCK_SEQ + 1) % 2 ^ Rg.cipher_LOCK_SEQ.w) ∧
      (o = w → exec (.claim w) s = .next s) ∧
      (o ≠ 0 → o ≠ w → w = 17 → exec (.claim w) s = .next (s.setRg Rg.cipher_CLOCHE_WAIT 0 1)) ∧
      (o ≠ 0 → o ≠ w → w ≠ 17 → exec (.claim w) s = .next (s.satRg Rg.cipher_LOCK_VIOL 0 1)) ∧
      (o ≠ w → ∀ i ∈ [Instr.renew w, .release w, .cipherGo w, .sign w], exec i s = .next (s.satRg Rg.cipher_LOCK_VIOL 0 1)) ∧
      (o = w → s.flag Rg.cipher_CLOCHE_WAIT = false → exec (.renew w) s = .next (s.setRg Rg.cipher_STAMP 0 (s.rg Rg.cipher_LCLK))) ∧
      (o = w → s.flag Rg.cipher_CLOCHE_WAIT = true → exec (.renew w) s = .next s) ∧
      (o = w → s.flag Rg.cipher_BUSY = true → exec (.release w) s = .next { s with cipher := { s.cipher with releasing := true } } ∧
        exec (.cipherGo w) s = .next (s.regResult 2 28 0)) ∧
      (o = w → s.flag Rg.cipher_BUSY = false → s.flag Rg.cipher_CLOCHE_WAIT = false → ∃ t, exec (.release w) s = .next t ∧
        t.rg Rg.cipher_OWNER = 0) ∧
      (o = w → s.flag Rg.cipher_BUSY = false → s.flag Rg.cipher_CLOCHE_WAIT = true → ∃ t, exec (.release w) s = .next t ∧
        t.rg Rg.cipher_OWNER = 17 ∧ t.rg Rg.cipher_CLOCHE_WAIT = 0) ∧
      (o = w → s.flag Rg.cipher_BUSY = false → ∃ t, exec (.cipherGo w) s = .next t ∧ t.rg Rg.cipher_BUSY = 1 ∧
        (t.cipher.go.map (fun j => j.image)) = some (s.regBytes Rg.cipher_CMD 16)) ∧
      (o = w → w = s.compCore 6 + 1 → exec (.sign w) s = .next ((List.range 24).foldl (fun s k =>
        s.setRg Rg.cipher_SIG k (leNat ((sig.drop (4 * k)).take 4))) s)) ∧
      (o = w → w ≠ s.compCore 6 + 1 → exec (.sign w) s = .next s)) ∧
    (let kept : Prop := o = 0 ∨ s.flag Rg.cipher_BUSY = true ∨ s.hubMainReset = true ∨
       (s.rg Rg.cipher_LCLK + 2 ^ 32 - s.rg Rg.cipher_STAMP) % 2 ^ 32 < s.rg Rg.cipher_LEASE_BEATS
     (kept → exec .lockExpire s = .next s) ∧
     (¬kept → s.flag Rg.cipher_CLOCHE_WAIT = false → ∃ t, exec .lockExpire s = .next t ∧ t.rg Rg.cipher_OWNER = 0) ∧
     (¬kept → s.flag Rg.cipher_CLOCHE_WAIT = true → ∃ t, exec .lockExpire s = .next t ∧ t.rg Rg.cipher_OWNER = 17)) ∧
    (Asked s 0x30 [(8, 2), (10, 1), (11, 1), (32, 32)] slot q → f 8 2 < 4096 → f 10 1 < 128 → f 11 1 < 8 → Answers .labelSet s
      (s.writeB (kHub (s.rg Rg.cipher_LBL_BASE * 2 ^ 18 + 64 * f 8 2))
        ((q.drop 32).take 32 ++ leBytes 1 (f 11 1) ++ leBytes 1 (f 10 1) ++ List.replicate 30 0)) slot 0 [])

/-- R440, R441 (message formats: DSP0274, log entry 43): SPDM. A request of each code, over I3C while the compartments run,
sends the answer of the connection's stage and otherwise nothing: the version always, then capabilities, algorithms and the rest
in that order, each with the error of an unexpected request before its stage; a code that is not served is an error of its own.
The relay answers in the data area, or STATUS 6 where there is no room. -/
def Clauses.SpdmResponder : Prop :=
  ∀ (s : State) (req q : List Byte) (slot code : Nat) (i : Instr), Cells.wf s.cipher.spdm = true →
    let on : Prop := s.hubMainReset = false ∧ s.fw.mainUp = true
    let c := s.spdm 0
    let f := fieldAt q
    let x := s.spdmAnswer 1 (s.readB (kMgmt (0x40000 + f 16 8)) (f 8 2))
    ((code, i) ∈ [(0x84, Instr.getVersion req), (0xE1, .getCapabilities req), (0xE3, .negotiateAlgorithms req), (0x81, .getDigests req),
        (0x82, .getCertificate req), (0x83, .challenge req), (0xE0, .getMeasurements req)] →
      (on → fieldAt req 1 1 = code → exec i s = .next ((s.spdmAnswer 0 req).1.emit (.i3c 5 (s.spdmAnswer 0 req).2))) ∧
      (¬on ∨ fieldAt req 1 1 ≠ code → exec i s = .next s) ∧
      (on → fieldAt req 1 1 = code → code ≠ 0x84 → c.stage = 0 → exec i s = .next (s.emit (.i3c 5 (spdmError 0x10 4 0))))) ∧
    (on → spdmCodes.contains (fieldAt req 1 1) = false → c.stage ≠ 0 →
      exec (.spdmUnsupported req) s = .next (s.emit (.i3c 5 (spdmError 0x13 7 (fieldAt req 1 1))))) ∧
    (¬on ∨ spdmCodes.contains (fieldAt req 1 1) = true → exec (.spdmUnsupported req) s = .next s) ∧
    (on → fieldAt req 0 1 = 0x10 → fieldAt req 1 1 = 0x84 → ∃ t, exec (.getVersion req) s = .next t ∧ (t.spdm 0).stage = 1 ∧
      t.out = .i3c 5 [0x10, 0x04, 0, 0, 0, 1, 0x00, 0x13] :: s.out) ∧
    (on → fieldAt req 0 1 = 0x13 → fieldAt req 1 1 = 0xE1 → c.stage = 1 → req.length = 20 →
      ∃ t, exec (.getCapabilities req) s = .next t ∧ (t.spdm 0).stage = 2) ∧
    (on → fieldAt req 0 1 = 0x13 → fieldAt req 1 1 = 0xE3 → c.stage = 2 → 32 ≤ req.length → fieldAt req 4 2 = req.length →
      ∃ t, exec (.negotiateAlgorithms req) s = .next t ∧ (t.spdm 0).stage = 3) ∧
    (on → fieldAt req 0 1 = 0x13 → fieldAt req 1 1 = 0x81 → c.stage = 3 → ∃ t, exec (.getDigests req) s = .next t ∧
      t.out = .i3c 5 ([0x13, 0x01, 1, 1] ++ sha3_256 s.certChain) :: s.out ∧ (t.spdm 0).stage = 3) ∧
    (Asked s 0x31 [(8, 2), (16, 8), (24, 8), (32, 4)] slot q → f 16 8 + f 8 2 ≤ 0x3C0000 → f 24 8 + f 32 4 ≤ 0x3C0000 →
      (x.2.length ≤ f 32 4 → Answers .spdmRelay s (x.1.writeB (kMgmt (0x40000 + f 24 8)) x.2) slot 0 (leBytes 4 x.2.length)) ∧
      (f 32 4 < x.2.length → Answers .spdmRelay s s slot 6 []))

/-- R527, R534-R536, R577 (message formats: DSP0236, DSP0240 and DSP0248, log entry 44): the management controller. Every
request is answered while the compartments run, with an error code of its own for what is not served, and nothing else changes;
Set Endpoint ID keeps the endpoint, a poll takes the oldest event once it has been acknowledged, an update keeps the sensors;
SAFE answers the interlock's state and cause. -/
def Clauses.ManagementController : Prop :=
  ∀ (s : State) (inst ty handle id ack start eid : Nat) (data : List Byte) (vals : List Nat),
    let say (cmd cc : Nat) (r : List Byte) : State := s.i3cAnswer 0 (leBytes 1 (inst % 32) ++ leBytes 1 cmd ++ leBytes 1 cc ++ r)
    (s.i3cUp = false → ∀ t bs, s.i3cAnswer t bs = s) ∧ (s.i3cUp = true → ∀ t bs, s.i3cAnswer t bs = s.emit (.i3c t bs)) ∧
    (s.i3cUp = true → 8 ≤ eid → eid < 0xFF → exec (.mctpControl inst 1 [0, BitVec.ofNat 8 eid]) s =
      .next (({ s with fw := { s.fw with eid := eid } } : State).emit (.i3c 0 (leBytes 1 (inst % 32) ++ [1, 0, 0, BitVec.ofNat 8 eid, 0])))) ∧
    exec (.mctpControl inst 2 data) s = .next (say 2 0 (leBytes 1 s.fw.eid ++ [0, 0])) ∧
    exec (.mctpControl inst 5 data) s = .next (say 5 0 [3, 0x01, 0x05, 0x7E]) ∧
    (id = 0 ∨ id = 3 ∨ 7 ≤ id → exec (.mctpControl inst id data) s = .next (say id 5 [])) ∧
    (data.length ≠ 2 → exec (.mctpControl inst 1 data) s = .next (say 1 3 [])) ∧
    (data.length = 2 → (let e := fieldAt data 1 1; 1 < fieldAt data 0 1 % 4 ∨ e < 8 ∨ e = 0xFF) →
      exec (.mctpControl inst 1 data) s = .next (say 1 2 [])) ∧
    (fieldAt data 0 1 ∈ [0x00, 0x01, 0x05, 0x7E, 0xFF] → exec (.mctpControl inst 4 data) s =
      .next (say 4 0 [1, 0xF1, 0xF3, 0xF1, 0x00])) ∧
    (fieldAt data 0 1 ∉ [0x00, 0x01, 0x05, 0x7E, 0xFF] → exec (.mctpControl inst 4 data) s = .next (say 4 0x80 [])) ∧
    (fieldAt data 0 1 = 0 → exec (.mctpControl inst 6 data) s = .next (say 6 0 [0xFF, 0, 0x1F, 0x7E, 0, 0])) ∧
    (fieldAt data 0 1 ≠ 0 → exec (.mctpControl inst 6 data) s = .next (say 6 2 [])) ∧
    exec (.getTid inst) s = .next (s.pldm inst 0 0x02 0 [0]) ∧
    exec (.getPldmTypes inst) s = .next (s.pldm inst 0 0x04 0 [5, 0, 0, 0, 0, 0, 0, 0]) ∧
    (ty = 0 ∨ ty = 2 → exec (.getPldmVersion inst ty) s = .next (let v := leBytes 4 (Config.pldmVersion ty)
        s.pldm inst 0 0x03 0 ([0, 0, 0, 0, 5] ++ v ++ leBytes 4 (crc32Of v))) ∧
      exec (.getPldmCommands inst ty) s = .next (s.pldm inst 0 0x05 0 (leBytes 32 (if ty = 0 then 0x3C else 2 ^ 10 + 2 ^ 11 + 2 ^ 17 + 2 ^ 81)))) ∧
    (ty ≠ 0 ∧ ty ≠ 2 → exec (.getPldmVersion inst ty) s = .next (s.pldm inst 0 0x03 0x83 []) ∧
      exec (.getPldmCommands inst ty) s = .next (s.pldm inst 0 0x05 0x83 [])) ∧
    (13 < handle → exec (.getPdr inst handle) s = .next (s.pldm inst 2 0x51 0x82 [])) ∧
    (1 ≤ handle → handle < 13 → exec (.getPdr inst handle) s = .next (s.pldm inst 2 0x51 0 (leBytes 4 (handle + 1) ++ [0, 0, 0, 0, 5] ++
      leBytes 2 (Config.pdr handle).length ++ Config.pdr handle))) ∧
    exec (.getPdr inst 0) s = exec (.getPdr inst 1) s ∧
    exec (.getPdr inst 13) s = .next (s.pldm inst 2 0x51 0 ([0, 0, 0, 0, 0, 0, 0, 0, 5] ++ leBytes 2 (Config.pdr 13).length ++ Config.pdr 13)) ∧
    (id = 10 ∨ id = 13 → exec (.getSensorReading inst id) s =
      .next (s.pldm inst 2 0x11 0 ([2, 0, 0, 0, 0, 0] ++ leBytes 2 (s.fw.sensors.getD 0 id)))) ∧
    (id = 11 ∨ id = 12 → exec (.getSensorReading inst id) s =
      .next (s.pldm inst 2 0x11 0 ([0, 0, 0, 0, 0, 0] ++ leBytes 1 (s.fw.sensors.getD 0 id)))) ∧
    (id = 0 ∨ 13 < id → exec (.getSensorReading inst id) s = .next (s.pldm inst 2 0x11 0x80 [])) ∧
    (1 ≤ id → id ≤ 9 → exec (.getSensorReading inst id) s =
      .next (s.pldm inst 2 0x11 0 ([3, 0, 0, 0, 0, 0] ++ leBytes 2 (s.fw.sensors.getD 0 id)))) ∧
    (s.i3cUp = false → exec (.pollForPlatformEventMessage inst ack) s = .next s ∧ exec (.sensorUpdate vals) s = .next s) ∧
    (s.i3cUp = true → s.fw.events = [] → exec (.pollForPlatformEventMessage inst ack) s = .next (s.pldm inst 2 0x0B 0 [0, 0, 0])) ∧
    (s.i3cUp = true → ∀ cls bs t, s.fw.events = (cls, bs) :: t →
      (ack ≠ s.fw.eventId → exec (.pollForPlatformEventMessage inst ack) s = .next (s.pldm inst 2 0x0B 0 ([0] ++ leBytes 2 s.fw.eventId ++
        [0, 0, 0, 0, 5] ++ leBytes 1 cls ++ leBytes 4 bs.length ++ bs))) ∧
      (ack = s.fw.eventId → ∃ u, exec (.pollForPlatformEventMessage inst ack) s = .next u ∧ u.fw.events = t)) ∧
    (s.host.evCount ≤ start → exec (.readEvents start) s = .next (s.i3cAnswer 0x7E (beBytes 2 0x1F7E ++ leBytes 8 start ++ [0]))) ∧
    (start + 1 = s.host.evCount → exec (.readEvents start) s = .next (s.i3cAnswer 0x7E (beBytes 2 0x1F7E ++ leBytes 8 start ++ [1] ++
      s.readB (kMgmt (0x10000 + 32 * (start % 4096))) 32))) ∧
    (let lo := max start (s.host.evCount - 4096)
     let k := min 40 (s.host.evCount - lo)
     exec (.readEvents start) s = .next (s.i3cAnswer 0x7E (beBytes 2 0x1F7E ++ leBytes 8 lo ++ leBytes 1 k ++
       (List.range k).flatMap (fun i => s.readB (kMgmt (0x10000 + 32 * ((lo + i) % 4096))) 32)))) ∧
    (s.i3cUp = true → Cells.wf s.fw.sensors = true → ∃ t, exec (.sensorUpdate vals) s = .next t ∧
      (∀ k, 1 ≤ k → k ≤ 10 → t.fw.sensors.getD 0 k = vals.getD (k - 1) 0 % 2 ^ 16) ∧ t.fw.sensors.getD 0 11 = s.power.inputs) ∧
    (s.power.state = 3 → exec .safeStateQuery s = .next (s.emit (.i3c 0xF2 [3, BitVec.ofNat 8 s.power.cause]))) ∧
    (s.power.state ≠ 3 → exec .safeStateQuery s = .next s)

/-- SPDM, MCTP and PLDM: the statements above together. -/
def Obligations.ManagementPorts : Prop :=
  Clauses.SpdmResponder ∧ Clauses.ManagementController

/-! ## Faults, replays, digests -/

/-- R447, R453, R455, R470, R471: reports. An uncorrectable report of a unit, a core or a committed line counts, and with no
beat running is logged as a pair of records, acted on and outcome 0; a corrected error counts and is logged alone; a tile stops.
A cipher core and a copy of the log that fail leave service. A router that fails, by a report or by its resends, retires with what it
carries, and its tile moves to a spare where one is free and the beats run; a beat is aborted, and where the detours cannot pass, that is
data loss. A pseudo-channel that corrects too often retires. A report of a tile that does not work, of a waiting report that is not there,
of a retired router or log copy changes no more than its count. -/
def Obligations.FaultReports : Prop :=
  ∀ (s : State) (n t slot check line req unit index sub addr c h x y : Nat) (k : CoreId) (b : Bool), s.Inv →
    let now := s.rg Rg.beat_BEATNO
    let counted (r : FaultRec) : State := s.countReport r
    let u : FaultRec := { cls := 2, unit := unit, index := index, sub := sub, check := check, addr := addr, beat := now }
    let core : FaultRec := { cls := 3, unit := 10, index := coreKey k, check := 0, beat := now }
    let row : FaultRec := { cls := 4, unit := 0, index := t, check := check, table := s.rg Rg.seq_RUN_TABLE_ID t, slot := slot,
                            addr := line, req := req, beat := now }
    let ce : FaultRec := { u with cls := 0 }
    let rt : FaultRec := { cls := 2, unit := 1, index := 128 * h + 16 * y + x, check := 0, beat := now }
    exec (.faultReport (.unit unit index sub check addr)) s = .next ((counted u).logPair u 0 0) ∧
    exec (.faultReport (.coreRegs k)) s = .next (((s.setCore k { s.core k with stopped := true }).countReport core).haltReport core) ∧
    (s.dom.ticking = false → ∀ r, s.haltReport r = s.logPair r 0 0) ∧
    (s.dom.ticking = true → ∀ r, s.haltReport r = ({ s.logFault r 6 2 0 0 with fm := { (s.logFault r 6 2 0 0).fm with
      replays := (s.logFault r 6 2 0 0).fm.replays ++ [{ tile := 0, kind := 6, phase := 2, reports := [r] }] } } : State).abortBeat 1 (some 2)) ∧
    (s.tileUp t = false → exec (.faultReport (.tile t slot check line req b)) s = .next s) ∧
    (s.tileUp t = true →
      let st := s.checkFails t slot check line
      exec (.faultReport (.tile t slot check line req true)) s = .next (((st.countReport row).retireSoon t none).haltReport row) ∧
      exec (.faultReport (.tile t slot check line req false)) s =
        .next ((st.countReport { row with cls := 1 }).tileFault { row with cls := 1 })) ∧
    (let v : State := let v := (counted ce).logFault ce 0 0 0 0
       { v with fm := { v.fm with ceBeats := s.faultBeat :: v.fm.ceBeats.filter (fun b => decide (s.faultBeat - b < 65536)) } }
     let i : Instr := .faultReport (.corrected unit index sub check addr)
     (unit ≠ 1 → ¬(unit = 2 ∧ check = 3) → exec i s = .next v) ∧
     (unit = 2 → check = 3 → let z := within v.fm.corrected (32 * index + sub) s.faultBeat 64
       let w : State := { v with fm := { v.fm with corrected := z.1 } }
       (z.2 = false → exec i s = .next w) ∧
       (z.2 = true → exec i s = .next ((w.logPair { ce with cls := 2 } 4 0).retirePc index sub))) ∧
     (unit = 1 → let z := within v.fm.resends index s.faultBeat 256
       let w : State := { v with fm := { v.fm with resends := z.1 } }
       (z.2 = false → exec i s = .next w) ∧ (z.2 = true → exec i s = .next (w.failRouter { ce with cls := 2 } index)))) ∧
    (s.detections[n]? = none → exec (.faultReport (.waiting n b)) s = .next s) ∧
    (∀ d, s.detections[n]? = some d → exec (.faultReport (.waiting n b)) s =
      .next (({ s with detections := s.detections.eraseIdx n } : State).takeDetection b d)) ∧
    (s.fm.routers.contains rt.index = true → exec (.faultReport (.router h x y)) s = .next (counted rt)) ∧
    (s.fm.routers.contains rt.index = false →
      let w := (counted rt).retireRouter rt.index
      let v := w.logFault rt 4 2 0 0
      let bare : Prop := ∀ u, u < 256 → w.tileWorking u = true → w.physOf u ≠ rt.index
      let here (u : Nat) : Prop := u < 256 ∧ w.tileWorking u = true ∧ w.physOf u = rt.index ∧
        ∀ z, z < u → w.tileWorking z = true → w.physOf z ≠ rt.index
      let ends (z : State) : State := (z.logFault rt 4 0 0 0).abortBeat 1 none
      (routersApart (rt.index :: (counted rt).fm.routers) = false →
        (bare → exec (.faultReport (.router h x y)) s = .next (w.haltReport { rt with cls := 4 })) ∧
        (here t → exec (.faultReport (.router h x y)) s = .next ((w.retireSoon t none).haltReport { rt with cls := 4 }))) ∧
      (routersApart (rt.index :: (counted rt).fm.routers) = true →
        (bare → exec (.faultReport (.router h x y)) s = .next (ends v)) ∧
        (here t → v.dom.ticking = false → exec (.faultReport (.router h x y)) s = .next (ends (v.retireSoon t none))) ∧
        (here t → v.dom.ticking = true → ∀ z,
          (∀ q, v.chooseSpare t = (z, some q) → exec (.faultReport (.router h x y)) s = .next (ends (z.setReplay
            { tile := t, kind := 3, spare := some q, aborted := true }))) ∧
          (v.chooseSpare t = (z, none) → exec (.faultReport (.router h x y)) s = .next (ends (z.retireSoon t none)))))) ∧
    (exec (.faultReport (.cipherCore c)) s = .next (s.retireCipher c false) ∧
      bitN ((s.retireCipher c false).rg Rg.cipher_CORE_WORKING) c = false) ∧
    (bitN (s.rg Rg.fault_LOG_COPIES) c = false → exec (.faultReport (.logCopy c)) s = .next s) ∧
    (bitN (s.rg Rg.fault_LOG_COPIES) c = true → ∃ v, exec (.faultReport (.logCopy c)) s = .next v ∧
      v.rg Rg.fault_LOG_COPIES = (s.rg Rg.fault_LOG_COPIES - 2 ^ c) % 2 ^ Rg.fault_LOG_COPIES.w)

/-- R449-R451, R463, R464: replays, Seedling and Greenhouse. The drain of a spare-tile replay ends in its copy, with the tile's
core stopped; the copy ends with the spare answering for the tile, with the beat aborted where an inbound line failed, or with a
report. A seed kernel runs once in a seed beat, is skipped where the scratch has no room, and a mismatch stops the tile with a
row fault. A Greenhouse move starts on its beat and only with no replay, in ascending order of the tiles; a test of an enabled unit
counts, one that fails counts and retires its unit, and a unit that passes returns to service. -/
def Obligations.ReplaysAndTests : Prop :=
  ∀ (s : State) (t q kind idx sub line check : Nat) (p : Replay) (ring : List (Nat × Nat × Nat)) (e : CopyEnd) (ok : Bool),
    let now := s.rg Rg.beat_BEATNO
    let report (u l c k : Nat) : FaultRec :=
      { cls := c, unit := 0, index := u, check := k, table := s.rg Rg.seq_RUN_TABLE_ID t, addr := l, beat := now }
    (s.replayOf t = none → exec (.replayDrainDone t) s = .next s ∧ exec (.spareCopyDone t e) s = .next s) ∧
    (s.replayOf t = some p → p.spare = none ∨ p.phase ≠ 0 → exec (.replayDrainDone t) s = .next s) ∧
    (s.replayOf t = some p → p.spare = some q → p.phase = 0 → exec (.replayDrainDone t) s = .next (
      let slot := match p.reports.getLast? with
        | some r => if r.index = t then r.slot else 0
        | none => 0
      let d := if p.kind = 2 ∧ p.aborted = false then (s.drainTile t slot).undoLog t else s
      (d.setTile t { d.tile t with stopped := true }).setReplay { p with phase := 1 })) ∧
    (s.replayOf t = some p → p.spare = none ∨ p.phase ≠ 1 → exec (.spareCopyDone t e) s = .next s) ∧
    (s.replayOf t = some p → p.spare = some q → p.phase = 1 →
      exec (.spareCopyDone t (.good ring)) s = .next (s.takeOver p ring).tryRestart ∧
      exec (.spareCopyDone t (.lost line)) s = .next ((s.countReport (report t line 4 0)).haltReport (report t line 4 0)) ∧
      exec (.spareCopyDone t (.spareFault check line)) s =
        .next ((s.countReport (report q line 1 check)).tileFault (report q line 1 check)) ∧
      (p.aborted = true → exec (.spareCopyDone t .inbound) s = .next (s.takeOver p []).tryRestart) ∧
      (p.aborted = false → exec (.spareCopyDone t .inbound) s =
        .next (((s.takeOver { p with kind := 3, aborted := true } []).incRg Rg.fault_FCNT 2 1).abortBeat 1 none))) ∧
    (let due : Prop := s.tileUp t = true ∧ (s.tile t).finished = true ∧ s.seedDue t now = true ∧ s.fm.seeded.contains t = false
     let r : State := { s with fm := { s.fm with seeded := s.fm.seeded ++ [t] } }
     let sc := scratchOf (s.runSlot t 0) t
     (¬due → exec (.seedlingRun t ok) s = .next s) ∧
     (due → s.seedRoom t = false → exec (.seedlingRun t ok) s = .next (r.incRg Rg.fault_FCNT 5 1)) ∧
     (due → s.seedRoom t = true → exec (.seedlingRun t true) s =
       .next ((r.incRg Rg.fault_FCNT 3 1).loseRange (kSlice t (32 * sc.lo)) (kSlice t (32 * sc.hi)))) ∧
     (due → s.seedRoom t = true → exec (.seedlingRun t false) s = .next (
       let k := (r.incRg Rg.fault_FCNT 3 1).loseRange (kSlice t (32 * sc.lo)) (kSlice t (32 * sc.hi))
       let k := if k.fm.sweep = 0 then k
         else { k with fm := { k.fm with sweepFail := insertNat (k.rg Rg.place_BED_ID) k.fm.sweepFail } }
       let x : FaultRec := { cls := 1, unit := 0, index := t, check := 7, table := k.rg Rg.seq_RUN_TABLE_ID t, beat := now }
       let z := (k.setTile t { k.tile t with stopped := true }).setRg Rg.tile_HALTED_FAULT t 1
       ((z.incRg Rg.fault_FCNT 4 1).countReport x).tileFault x))) ∧
    (s.flag Rg.fault_GH_EN = false ∨ s.dom.ticking = false ∨ s.dom.aborted = true ∨ now % 2 ^ s.rg Rg.fault_GH_ROTATE_LOG2 ≠ 0 ∨
        s.fm.replays ≠ [] ∨ s.fm.test ≠ none →
      exec .greenhouseRotate s = .next s) ∧
    (s.flag Rg.fault_GH_EN = true → s.dom.ticking = true → s.dom.aborted = false → now % 2 ^ s.rg Rg.fault_GH_ROTATE_LOG2 = 0 →
      s.fm.replays = [] → s.fm.test = none → let may (u : Nat) : Prop := s.tileUp u = true ∧ s.fm.spares.contains u = false
      ((∀ u, u < 256 → ¬may u) → exec .greenhouseRotate s = .next s) ∧
      (t < 256 → may t →
        (s.fm.nextMove ≤ t ∧ ∀ u, s.fm.nextMove ≤ u → u < t → ¬may u) ∨
          ((∀ u, s.fm.nextMove ≤ u → u < 256 → ¬may u) ∧ ∀ u, u < t → ¬may u) → ∀ w,
        (s.chooseSpare t = (w, none) → exec .greenhouseRotate s = .next w) ∧
        (s.chooseSpare t = (w, some q) → exec .greenhouseRotate s = .next ((({ w with fm := { w.fm with
          nextMove := t + 1, test := some (0, w.physOf t, 0) } } : State).setReplay
          { tile := t, kind := 2, spare := some q, planned := true }).incRg Rg.fault_FCNT 6 1)))) ∧
    (let on : Prop := (kind = 0 → s.tileEnabled idx = true) ∧ (kind = 2 → bitN (s.rg Rg.identity_HBM_ENABLED) idx = true)
     (s.flag Rg.fault_GH_EN = false ∨ ¬on → exec (.greenhouseResult kind idx sub ok) s = .next s) ∧
     (s.flag Rg.fault_GH_EN = true → on →
      let r : FaultRec := { cls := 2, unit := [0, 5, 2].getD kind 0, index := idx, sub := sub, check := 8, beat := now }
      let v : State := let m : State := { s with fm := { s.fm with test := none } }
        if s.fm.test = some (kind, idx, sub) then m else m.incRg Rg.fault_FCNT 6 1
      let f := ((v.incRg Rg.fault_FCNT 7 1).countReport r).logPair r 4 0
      let pay (b : Nat) : Nat := kind + idx * 2 ^ 8 + sub * 2 ^ 16 + b * 2 ^ 24
      (kind = 0 → exec (.greenhouseResult kind idx sub false) s = .next (f.event 0x0704 (pay 0)) ∧
        exec (.greenhouseResult kind idx sub true) s = .next ((v.returnTile idx).event 0x0704 (pay 1))) ∧
      (kind = 1 → exec (.greenhouseResult kind idx sub false) s = .next ((f.retireLink idx 0).event 0x0704 (pay 0)) ∧
        (¬(idx < 24 ∧ v.rg Rg.dvport_STATE idx = 6) → exec (.greenhouseResult kind idx sub true) s = .next (v.event 0x0704 (pay 1))) ∧
        (idx < 24 → v.rg Rg.dvport_STATE idx = 6 → exec (.greenhouseResult kind idx sub true) s =
          .next ((((v.setPort idx { v.port idx with lanes := 0xFF }).linkSet idx 0 0).unitReturned).event 0x0704 (pay 1)))) ∧
      (kind = 2 → exec (.greenhouseResult kind idx sub false) s = .next ((f.retirePc idx sub).event 0x0704 (pay 0)) ∧
        exec (.greenhouseResult kind idx sub true) s = .next ((v.returnPc idx sub).event 0x0704 (pay 1)))))

/-- R456, R465, R466, R473: digests, Prune and mirroring. A round digests the member's ranges page by page and starts the next
round, and one that had not ended counts as skipped; the master compares the bed digests, prunes the minority, or pauses every
bed where no digest has a majority; what it decides reaches the other members. A mirrored write is staged and acknowledged;
MIRROR_SYNC fills the spare. -/
def Obligations.DigestsAndMirrors : Prop :=
  ∀ (s : State) (n b h a : Nat) (m : BedMsg) (ds : List (Nat × Nat × Nat × List Byte)) (fs : List Nat) (bs : List Byte) (p : Place)
    (es : List (Nat × Nat × List Nat)), s.Inv →
    let now := s.rg Rg.beat_BEATNO
    let every := s.rg Rg.fault_DIG_STEPS * s.rg Rg.fault_STEP_BEATS
    let due : Prop := s.isMaster = false ∨
      (every ≠ 0 ∧ now ≠ 0 ∧ now % every = 0 ∧ s.flag Rg.fault_REP_EN = true ∧ s.fm.roundAt ≠ some now)
    let ov : State := ({ s with mulch := { s.mulch with digMarks := [], digCopied := [] } } : State).advanceWaiting
    let ended : State := { ov with fm := { ov.fm with roundAt := none } }
    (¬due ∨ s.active = false ∨ s.dom.aborted = true → exec .digestRound s = .next s) ∧
    (due → s.active = true → s.dom.aborted = false → s.fm.roundAt = none → exec .digestRound s =
      .next (({ s with
        mulch := { s.mulch with digMarks := s.digestPages.map (fun p => (32 * p, 32 * p + 32)), digCopied := [] }
        fm := { s.fm with round := (s.fm.round + 1) % 2 ^ 32, roundAt := some now, digest := s.memberDigest } } : State).drawn)) ∧
    (due → s.active = true → s.dom.aborted = false → s.fm.roundAt ≠ none →
      let c := s.incRg Rg.fault_FCNT 8 1
      let k := if c.isMaster then c.event 0x0705 (c.fm.round + 2 ^ 36 + c.nowB48) else c
      exec .digestRound s = .next (({ k with
        mulch := { k.mulch with digMarks := k.digestPages.map (fun p => (32 * p, 32 * p + 32)), digCopied := [] }
        fm := { k.fm with round := (k.fm.round + 1) % 2 ^ 32, roundAt := some now, digest := k.memberDigest } } : State).drawn)) ∧
    exec (.digestCompare (.failed fs)) s = .next ov ∧
    (ov.isMaster = true → ∀ x ∈ [BedMsg.paused n, .pruned b h, .resumed], exec (.digestCompare x) s = .next ov) ∧
    (ov.isMaster = false → exec (.digestCompare (.digests ds)) s = .next ov ∧
      exec (.digestCompare (.paused n)) s = .next (ended.pauseBeds [ov.rg Rg.place_BED_ID] n) ∧
      exec (.digestCompare (.pruned b h)) s = .next { ended with fm := { ended.fm with prune := ov.fm.prune ++ [(b, h)] } } ∧
      exec (.digestCompare .resumed) s = .next ended) ∧
    (ov.isMaster = true → ov.fm.roundAt = none → exec (.digestCompare (.digests ds)) s = .next ov) ∧
    (ov.isMaster = true → ov.fm.roundAt = some n →
      let set := ov.repBeds
      let own := (set.zipIdx.filter (fun e => e.1 == ov.rg Rg.place_BED_ID)).map (fun e =>
         (e.2, ov.rg Rg.place_STRIP, ov.rg Rg.place_STRETCH, ov.fm.digest))
      let beds := (List.range set.length).map (fun i => (i, bedDigest (((own ++ ds).filter (fun d => d.1 == i)).map (fun d => d.2))))
      let v : State := { ov with fm := { ov.fm with roundAt := none, beds := beds } }
      (majority beds = none → exec (.digestCompare (.digests ds)) s =
        .next (((v.event 0x0705 (v.fm.round + v.nowB48)).pauseBeds set n).emit (.prune 1 0 n))) ∧
      (∀ d, majority beds = some d → let good := (beds.filter (fun e => e.2 == d)).map (fun e => e.1)
        exec (.digestCompare (.digests ds)) s = .next ((v.event 0x0705 (v.fm.round + bitSet good * 2 ^ 32 + v.nowB48)).pruneBeds
          ((beds.filter (fun e => e.2 != d)).map (fun e => e.1)) (good.headD 0)))) ∧
    (s.fm.sweep ≠ 0 ∨ s.fm.sweepBeds = [] → exec (.sweepEnd m) s = .next s) ∧
    (s.fm.sweep = 0 → s.fm.sweepBeds ≠ [] → let v : State := { s with fm := { s.fm with sweepBeds := [] } }
      (s.isMaster = false → exec (.sweepEnd (.failed fs)) s = .next s ∧ exec (.sweepEnd .resumed) s = .next (v.noticeAll 2 0) ∧
        exec (.sweepEnd (.pruned b h)) s = .next { v with fm := { v.fm with prune := s.fm.prune ++ [(b, h)] } }) ∧
      (∀ x ∈ [BedMsg.paused n, .digests ds], (s.isMaster = true → exec (.sweepEnd x) s = .next s) ∧
        (s.isMaster = false → exec (.sweepEnd x) s = .next v)) ∧
      (s.isMaster = true → (∀ x ∈ [BedMsg.resumed, .pruned b h], exec (.sweepEnd x) s = .next s) ∧
        let idx := List.range s.repBeds.length
        let failed := idx.filter (fun i => (s.fm.sweepFail ++ fs).contains (s.repBeds.getD i 0))
        let left := idx.filter (fun i => !failed.contains i)
        let agree : Prop := ∃ d, (∃ e ∈ s.fm.beds, e.1 ∈ left) ∧ ∀ e ∈ s.fm.beds, e.1 ∈ left → e.2 = d
        let w := v.pruneBeds failed (left.headD 0)
        let mine : Prop := s.rg Rg.place_BED_ID ∈ s.fm.sweepBeds ∧ ∃ i ∈ left, w.repBeds.getD i 0 = w.rg Rg.place_BED_ID
        (left = [] → exec (.sweepEnd (.failed fs)) s = .next (v.event 0x0707 (bitSet idx + bitSet failed * 2 ^ 4 + v.nowB48))) ∧
        (left ≠ [] → ¬agree → exec (.sweepEnd (.failed fs)) s = .next (w.event 0x0707 (bitSet left + bitSet failed * 2 ^ 4 + w.nowB48))) ∧
        (left ≠ [] → agree → ¬mine → exec (.sweepEnd (.failed fs)) s = .next (w.emit (.prune 2 0 0))) ∧
        (left ≠ [] → agree → mine → exec (.sweepEnd (.failed fs)) s = .next ((w.noticeAll 2 0).emit (.prune 2 0 0))))) ∧
    exec (.mirrorWrite (.write a bs)) s =
      .next (({ s with fm := { s.fm with staged := s.fm.staged ++ [(a, bs)] } } : State).emit .mirrorAck) ∧
    exec (.mirrorWrite (.cover p es)) s = .next { s with fm := { s.fm with covered := some (p, es) } } ∧
    exec (.mirrorWrite .acked) s = .next { s with fm := { s.fm with mirrorOut := s.fm.mirrorOut - 1 } } ∧
    (s.flag Rg.place_SPARE_EN = false → exec .mirrorSync s = .next s) ∧
    (s.flag Rg.place_SPARE_EN = true → ∃ v, exec .mirrorSync s = .next v ∧ v.rg Rg.fault_SPARE_VALID = 1 ∧ v.mem = s.mem) ∧
    (s.flag Rg.place_SPARE_EN = true → (∀ k, k < 8 → s.flag Rg.fault_MIRROR_EN k = false) →
      exec .mirrorSync s = .next (s.setRg Rg.fault_SPARE_VALID 0 1))

/-! ## Mulch -/

/-- R478-R480, R482, R488, R494: starting a checkpoint. A trigger at the master with none running starts one at the beat after
next, and while one is cut but not held it is deferred, once. CUT is acknowledged by a member that has checkpoints enabled, and
refused with cause 1 by one that has not. The master gives every page its writer and tells each member its references, which are then in
force. A failure of a running checkpoint drops it with its cause; with none running, any cause but 5 does nothing, but that a member whose
own image is held shows the cause. -/
def Clauses.CheckpointStart : Prop :=
  ∀ (s : State) (c slot vol mid cause n : Nat) (ps : List PageDigest) (refs : List (Nat × Nat × Nat × Nat)) (q : List Byte), s.Inv →
    let m := s.mulch
    let asked : Prop := s.isMaster = true ∧ s.dom.ticking = true ∧ s.triggered = true
    let seen : State := { s with mulch := { m with asked := false } }
    (¬asked → exec .checkpointTrigger s = .next s) ∧
    (asked → m.run = false → exec .checkpointTrigger s = .next (seen.startCut (s.rg Rg.beat_BEATNO + 1))) ∧
    (asked → m.run = true → m.cut.isSome = true ∨ m.deferred = true → exec .checkpointTrigger s = .next seen) ∧
    (asked → m.run = true → m.cut = none → m.deferred = false → exec .checkpointTrigger s =
      .next (({ s with mulch := { m with asked := false, deferred := true } } : State).incRg Rg.mulch_MCNT 3 1)) ∧
    (let t := s.startCut c
     t.mulch.run = true ∧ t.mulch.cut = some c ∧ t.mulch.acks = [s.rg Rg.beat_MID] ∧ t.rg Rg.mulch_STATE = 1) ∧
    (s.dom.member = false ∨ s.isMaster = true → exec (.cutMessage (.cut c slot vol)) s = .next s) ∧
    (s.dom.member = true → s.isMaster = false →
      (s.flag Rg.mulch_CK_EN = false → exec (.cutMessage (.cut c slot vol)) s = .next
        ((s.setRg Rg.mulch_FAIL_CAUSE 0 1).mulchTell 5 (leBytes 1 1 ++ leBytes 1 (s.rg Rg.beat_MID)))) ∧
      (s.flag Rg.mulch_CK_EN = true → exec (.cutMessage (.cut c slot vol)) s = .next ((({ s with mulch := { m with
        run := true, cut := some c, slot := slot % 2, vol := vol % 2 } } : State).setRg Rg.mulch_STATE 0 1).mulchTell 1 (leBytes 8 c)))) ∧
    (s.isMaster = true → m.cut.isSome = true → exec (.cutMessage (.ack mid)) s =
      .next ({ s with mulch := { m with acks := insertNat mid m.acks } } : State).tryDone) ∧
    (s.isMaster = false ∨ m.cut = none → exec (.cutMessage (.ack mid)) s = .next s) ∧
    (m.run = false ∨ m.cut.isSome = true → exec (.dedupAssign (.gathered ps)) s = .next s ∧
      exec (.dedupAssign (.assigned refs)) s = .next s) ∧
    (s.isMaster = false → m.assigned = true → exec (.dedupAssign (.assigned refs)) s = .next s) ∧
    (s.isMaster = false → m.run = true → m.cut = none → m.assigned = false →
      exec (.dedupAssign (.assigned refs)) s = .next (s.assign refs).advanceWaiting ∧
      exec (.dedupAssign (.gathered ps)) s = .next s) ∧
    (s.isMaster = true → m.run = true → m.cut = none → exec (.dedupAssign (.assigned refs)) s = .next s ∧
      let me := s.rg Rg.beat_MID
      let own := (m.pages.filter (fun p => p.dedup)).map (fun p => ({
        mid := me, bed := s.bedIndex, strip := s.rg Rg.place_STRIP, stretch := s.rg Rg.place_STRETCH, page := p.page,
        digest := p.digest } : PageDigest))
      let told := (ps.foldl (fun l p => insertNat p.mid l) []).foldl (fun s mid =>
        s.emit (.mulch 8 mid ((refsOf (own ++ ps) mid).flatMap (fun r =>
          leBytes 4 r.1 ++ leBytes 1 r.2.1 ++ leBytes 1 r.2.2.1 ++ leBytes 1 r.2.2.2)))) s
      (m.assigned = false → exec (.dedupAssign (.gathered ps)) s = .next (told.assign (refsOf (own ++ ps) me)).advanceWaiting) ∧
      (m.assigned = true → exec (.dedupAssign (.gathered ps)) s = .next told.advanceWaiting)) ∧
    (let held : Prop := m.run = false ∧ s.isMaster = false ∧ s.rg Rg.mulch_STATE = 3 ∧ cause ≠ 5
     (¬held → exec (.checkpointFail cause mid) s = .next (s.ckFail cause mid).eadvanceWaiting) ∧
     (held → exec (.checkpointFail cause mid) s =
       .next ((((s.setRg Rg.mulch_STATE 0 0).setRg Rg.mulch_FAIL_CAUSE 0 cause).ckFail cause mid).eadvanceWaiting))) ∧
    (cause ≠ 5 → m.run = false → s.ckFail cause mid = s) ∧
    (Asked s 0x40 [] slot q →
      (s.isMaster = true → s.flag Rg.mulch_CK_EN = true →
        Answers .mulchCheckpoint s { s with mulch := { m with asked := true } } slot 0 []) ∧
      (s.isMaster = false ∨ s.flag Rg.mulch_CK_EN = false → Answers .mulchCheckpoint s s slot 4 [])) ∧
    (Asked s 0x42 [] slot q → Answers .mulchCancel s (s.ckFail 2 (s.rg Rg.beat_MID)).eadvanceWaiting slot 0 []) ∧
    (Asked s 0x43 [(8, 2), (16, 6)] slot q → n = fieldAt q 8 2 →
      (n < 4096 → Answers .suppressSet s
        { s with gate := { s.gate with suppress := s.gate.suppress.set 0 n (fieldAt q 16 6) } } slot 0 []) ∧
      (4096 ≤ n → Answers .suppressSet s s slot 2 []))

/-- R481, R483, R485, R486, R489-R494: copies, images and restores. A write to a pending cutting takes the lowest free slot of
the cut buffer, or counts where there is none; a cutting that has been copied in background order has been sent. An image is
held, stored by its neighbour with FORCE 1 in class C3 and flushed, and durable when its commands have ended well, failed with
cause 5 otherwise. A restore needs a stopped domain, sends Stash to RECOVERY, waits for the copies of the pages that it writes, and ends
with how many bytes were written and why it stopped. -/
def Clauses.CheckpointImages : Prop :=
  ∀ (s : State) (a i c ns mid src page len vol cause n slot : Nat) (q image : List Byte) (refs : List (Nat × List Byte))
    (l : List Nat) (x : Restore), s.Inv →
    let m := s.mulch
    let f := fieldAt q
    (s.cutPending (a / 65536) = false ∨ m.holding.contains (a / 65536) = true → exec (.cowHold a) s = .next s) ∧
    (s.cutPending (a / 65536) = true → m.holding.contains (a / 65536) = false →
      (s.cutSlot = none → exec (.cowHold a) s = .next (s.incRg Rg.mulch_MCNT 5 1)) ∧
      (s.cutSlot = some i → exec (.cowHold a) s = .next { s with mulch := { m with
        holding := m.holding ++ [a / 65536], buffer := m.buffer.put i (a / 65536) } })) ∧
    (let go (t : State) : Host.Outcome State Fault Refusal := .next t.drawn.sealTry.advanceWaiting.eadvanceWaiting
     (m.holding.contains c = false →
      (m.writesPage (c / 32) = false → exec (.cowCopyDone c ns) s = go s) ∧
      (m.writesPage (c / 32) = true → m.buffer.any (fun (b : Nat × Nat) => b.2 == c) = false →
        (m.marked c = true → m.copied.contains c = false → exec (.cowCopyDone c ns) s = go ((s.sendCutting c).cutDone c)) ∧
        (m.marked c = false ∨ m.copied.contains c = true → exec (.cowCopyDone c ns) s = go s)) ∧
      (m.writesPage (c / 32) = true → m.buffer.any (fun (b : Nat × Nat) => b.2 == c) = true → exec (.cowCopyDone c ns) s =
        go { s.sendCutting c with mulch := { m with buffer := m.buffer.filter (fun (b : Nat × Nat) => b.2 != c) } })) ∧
     (m.holding.contains c = true → ∀ w,
      (m.buffer.find? (fun (b : Nat × Nat) => b.2 == c) = none ∧ w = s) ∨
        (∃ b, m.buffer.find? (fun (b : Nat × Nat) => b.2 == c) = some b ∧ w = s.writeHbm
          (s.rg Rg.mulch_CUT_BASE * 2 ^ 21 + b.1 * 65536) ((s.readHbm (c * 65536) 65536).getD (s.freeBytes 65536))) →
      let z := ((w.cutDone c).incRg Rg.mulch_MCNT 4 1).incRg Rg.mulch_COW_STALL_NS 0 ns
      (m.marked c = true → m.copied.contains c = false → exec (.cowCopyDone c ns) s = go z) ∧
      (m.marked c = false ∨ m.copied.contains c = true → exec (.cowCopyDone c ns) s =
        go { z with mulch := { z.mulch with buffer := z.mulch.buffer.filter (fun (b : Nat × Nat) => b.2 != c) } }))) ∧
    (m.run = false ∨ m.sealed_ = false → exec (.imageHeld .sealAcked) s = .next s) ∧
    (m.run = true → m.sealed_ = true →
      (s.isMaster = true → exec (.imageHeld .sealAcked) s = .next (({ s with mulch := { m with
        heldBy := insertNat (s.rg Rg.beat_MID) m.heldBy } } : State).setRg Rg.mulch_STATE 0 3)) ∧
      (s.isMaster = false → exec (.imageHeld .sealAcked) s = .next ((({ s with mulch := { m with run := false } } : State).setRg
        Rg.mulch_STATE 0 3).mulchTell 6 (leBytes 1 (s.rg Rg.beat_MID))))) ∧
    (s.isMaster = true → m.run = true → m.cut = none →
      exec (.imageHeld (.member mid)) s = .next { s with mulch := { m with heldBy := insertNat mid m.heldBy } }) ∧
    (s.isMaster = false ∨ m.run = false ∨ m.cut ≠ none → exec (.imageHeld (.member mid)) s = .next s) ∧
    exec (.imageHeld (.landed src page len vol)) s = .next (s.storeImage src page len vol) ∧
    (m.stores.find? (fun e => e.1 == src) = none → exec (.checkpointDurable (.flushed src)) s = .next s) ∧
    (m.stores.find? (fun e => e.1 == src) = some (src, n) →
      let ended : State := { s with
        mulch := { m with stores := removeFirst (fun e => e.1 == src) m.stores }
        dv := { s.dv with ended := s.dv.ended.filter (fun e => e.owner != Owner.mulch src) } }
      ((s.storeEnds src).length < n → exec (.checkpointDurable (.flushed src)) s = .next s) ∧
      (n ≤ (s.storeEnds src).length → (∀ e ∈ s.storeEnds src, e = 0) →
        exec (.checkpointDurable (.flushed src)) s = .next (ended.emit (.mulch 7 src []))) ∧
      (n ≤ (s.storeEnds src).length → (∃ e ∈ s.storeEnds src, e ≠ 0) →
        exec (.checkpointDurable (.flushed src)) s = .next (ended.emit (.mulch 5 src (leBytes 1 5))))) ∧
    (s.isMaster = true → m.storing = some (c, vol, l) →
      exec (.checkpointDurable .image) s =
        .next { s with mulch := { m with storing := some (c, vol, insertNat (s.rg Rg.beat_MID) l) } } ∧
      exec (.checkpointDurable (.member mid)) s = .next { s with mulch := { m with storing := some (c, vol, insertNat mid l) } }) ∧
    (s.isMaster = false → s.rg Rg.mulch_STATE ≠ 3 →
      exec (.checkpointDurable .image) s = .next (s.mulchTell 7 (leBytes 1 (s.rg Rg.beat_MID)))) ∧
    (s.isMaster = false → s.rg Rg.mulch_STATE = 3 → exec (.checkpointDurable .image) s =
      .next ((s.setRg Rg.mulch_STATE 0 0).mulchTell 7 (leBytes 1 ((s.setRg Rg.mulch_STATE 0 0).rg Rg.beat_MID)))) ∧
    (s.isMaster = true → m.storing = none → exec (.checkpointDurable .image) s = .next s) ∧
    (s.isMaster = false ∨ m.storing = none → exec (.checkpointDurable (.member mid)) s = .next s) ∧
    (Asked s 0x41 [(8, 1), (9, 1), (10, 1), (11, 1), (12, 1), (16, 8)] slot q → f 9 1 ≤ 3 → f 11 1 ≤ 1 → f 12 1 ≤ 64 →
      f 16 8 + 16 * f 12 1 ≤ 0x3C0000 →
      (s.mapBad (f 16 8) (f 12 1) = true → Answers .mulchRestore s s slot 1 []) ∧
      (s.mapBad (f 16 8) (f 12 1) = false → (m.restore.isSome = true ∨ s.flag Rg.beat_RUN = true → Answers .mulchRestore s s slot 4 [])) ∧
      (s.mapBad (f 16 8) (f 12 1) = false → m.restore = none → s.flag Rg.beat_RUN = false →
        let r : Restore := { slot := slot, holder := f 8 1, source := f 9 1, index := f 10 1, streams := f 11 1 == 1, map := s.restoreMap (f 16 8) (f 12 1) }
        let u := (({ s with mulch := { m with restore := some r } } : State).setRg Rg.mulch_STATE 0 5).setMode 3
        let t := u.emit (.mulch 9 r.holder (leBytes 1 r.source ++ leBytes 1 r.index));
        exec .mulchRestore s = .next { t with host := { t.host with mrBusy := true } })) ∧
    (m.restore = none → exec (.restoreEnd cause image refs) s = .next s) ∧
    (m.restore = some x →
      let ends (y : State) (n why : Nat) : State :=
        let left := if y.mulch.run then 2 else if y.mulch.storing.isSome then 4 else 0
        let st := if why = 0 then 0 else if n = 0 then 2 else 1
        let t := ((({ y with mulch := { y.mulch with restore := none } } : State).setRg Rg.mulch_STATE 0 left).setMode 0).event 0x0803
          (st + why * 4 + x.holder * 2 ^ 8 + n * 2 ^ 32 + b48 (fieldAt image 8 8))
        let u : State := { t with host := { t.host with mrBusy := false } }
        u.mrReply x.slot 0 (leBytes 1 st ++ leBytes 1 why ++ leBytes 6 0 ++ leBytes 8 (n * 2 ^ 21))
      let np := fieldAt image 44 4
      let entry (i : Nat) : List Byte := (image.drop (256 + 32 * fieldAt image 40 4 + 48 * i)).take 48
      let waits : Prop := ∃ i p, i < np ∧ mapPage x.map (fieldAt (entry i) 0 6 / 2 ^ 21) (fieldAt (entry i) 6 1 % 8) = some p ∧
        s.cowHeld (p * 2 ^ 21) (2 ^ 21) = true
      (imageOk image = false → exec (.restoreEnd cause image refs) s = .next (ends s 0 (if cause = 0 then 32 else cause))) ∧
      (imageOk image = true → waits → exec (.restoreEnd cause image refs) s = .next s) ∧
      (imageOk image = true → ¬waits → 256 ≤ image.length → ∀ y why,
        s.restorePages x image refs cause 0 (List.range np) = (y, n, why) →
        (why = 0 → x.streams = true → exec (.restoreEnd cause image refs) s = .next (ends (y.restoreStreams image) n 0)) ∧
        (why ≠ 0 ∨ x.streams = false → exec (.restoreEnd cause image refs) s = .next (ends y n why))) ∧
      (np = 0 → s.restorePages x image refs cause 0 (List.range np) = (s, 0, 0)))

/-- Mulch: checkpoints and restores: the statements above together. -/
def Obligations.Checkpoints : Prop :=
  Clauses.CheckpointStart ∧ Clauses.CheckpointImages

/-! ## The Cloche -/

/-- R499-R502, R505-R507: the count wire and intervals. With the wire idle a frame of the changed totals begins, every
millisecond one of the nonzero totals; a frame that arrives corrupted or at a stopped Cloche is lost, one of the epoch is
applied, with every total taken over and an acknowledgement due, and rejected whole where a total has fallen, and one of another
epoch closes the interval first. Samples add up; at its due time, a multiple of the length, the interval closes, keeps what remains of its
energies and counts on, and the next one is due a length later. -/
def Clauses.ClocheCounting : Prop :=
  ∀ (s : State) (bad range : Bool) (es : List Nat) (b bs : List Byte),
    let c := s.cloche
    let idle : Prop := s.hubMainReset = false ∧ s.gate.wire = none
    (¬idle ∨ s.gate.dirty = [] → exec .countFrameSend s = .next s) ∧
    (idle → s.gate.dirty ≠ [] → exec .countFrameSend s =
      .next (s.beginFrame ((List.range 128).filter (fun f => s.gate.dirty.contains f)))) ∧
    (¬idle → exec .countRefresh s = .next s) ∧
    (idle → exec .countRefresh s = .next (s.beginFrame ((List.range 128).filter (fun f => s.rg Rg.cloche_TOTAL f != 0)))) ∧
    (s.gate.wire = none → exec (.countFrame bad) s = .next s) ∧
    (s.gate.wire = some b → let t : State := { s with gate := { s.gate with wire := none } }
      (c.running = false ∨ bad = true → exec (.countFrame bad) s = .next t) ∧
      (c.running = true → fieldAt b 0 4 = c.epoch → exec (.countFrame false) s = .next { t with cloche := c.apply b }) ∧
      (c.running = true → fieldAt b 0 4 ≠ c.epoch → 
        let d := c.close c.ctime 0x0C (if c.ctime % intervalNs c.code = 0 then 0 else 4)
        exec (.countFrame false) s =
          .next { t with cloche := ({ d with epoch := fieldAt b 0 4, held := [], active := [] } : Cloche).apply b })) ∧
    ((∃ e ∈ frameEntries bs, e.2 < c.held.getD 0 e.1) → c.apply bs = { c with flags := c.flags ||| 0x40 }) ∧
    ((∀ e ∈ frameEntries bs, c.held.getD 0 e.1 ≤ e.2) → (c.apply bs).ackDue = true ∧
      (c.apply bs).latest = (fieldAt bs 0 4, fieldAt bs 4 8) ∧ (c.apply bs).lastBeat = fieldAt bs 4 8) ∧
    (c.running = false → exec (.energySample es range) s = .next s) ∧
    (c.running = true → Cells.wf c.energy = true → ∃ t, exec (.energySample es range) s = .next t ∧
      (∀ k, k < 8 → t.cloche.energy.getD 0 k = c.energy.getD 0 k + es.getD k 0) ∧
      t.cloche.flags = if range then c.flags ||| 0x80 else c.flags) ∧
    (let l := intervalNs c.code
     (c.running = false ∨ c.ctime < c.due → exec .intervalClose s = .next s) ∧
     (c.running = true → c.due ≤ c.ctime → ∃ t, exec .intervalClose s = .next t ∧ t.cloche.tStart = c.due ∧
      t.cloche.due = (c.due / l + 1) * l ∧ t.cloche.ino = c.ino + 1 ∧
      t.cloche.counts = [] ∧ t.cloche.flags = 0 ∧ t.cloche.energy = c.energy.map (fun (x : Nat × Nat) => (x.1, x.2 % 100))))

/-- R509, R510, R512-R516, R564: the record wire and the record port. A due acknowledgement goes before records, new records
before those of the ring. A corrupted frame counts; an acknowledgement shows the Cloche alive; a record that has come before, or lies behind the
262,144 that the port remembers, counts as a duplicate; another is dropped where no ring is to receive it or the store stays full, and
otherwise stored, to be delivered in order. A block is read back only with the lock, and put aside where its tag does not match. The
Cloche stops at its reset and below 3.0 V, keeps what it saves, and restarts with its certificates, on new firmware only where the
programmer reached it and its ROM accepts it, and with the length that its word gives; its word and its firmware are written only in
reset. -/
def Clauses.ClocheRecords : Prop :=
  ∀ (s : State) (v bad : Bool) (word cfw : Option Nat) (r : List Byte) (rs : List (List Byte)) (n : Nat)
    (ms : List (Nat × List Nat)) (t : List (Nat × List (Nat × List Nat))), s.Inv →
    let c := s.cloche
    (c.running = false → exec .recordFrameSend s = .next s) ∧
    (c.running = true → c.ackDue = true → exec .recordFrameSend s = .next { s with cloche := { c with
      ackDue := false, wire := c.wire ++ [wireFrame 1 (leBytes 4 c.latest.1 ++ leBytes 8 c.latest.2)] } }) ∧
    (c.running = true → c.ackDue = false → c.queue = r :: rs → exec .recordFrameSend s = .next { s with cloche := { c with
      queue := rs, wire := c.wire ++ [wireFrame 0 r] } }) ∧
    (c.running = true → c.ackDue = false → c.queue = [] → c.ring[c.ringPos % max 1 c.ring.length]? = some r →
      exec .recordFrameSend s = .next { s with cloche := { c with
        ringPos := c.ringPos % max 1 c.ring.length + 1, wire := c.wire ++ [wireFrame 0 r] } }) ∧
    (c.wire = [] → exec (.recordFrameRx bad) s = .next s ∧ exec (.ackFrameRx bad) s = .next s) ∧
    (c.wire = r :: rs → let u : State := { s with cloche := { c with wire := rs } }
      (fieldAt r 0 1 ≠ 1 → exec (.ackFrameRx bad) s = .next s) ∧ (fieldAt r 0 1 ≠ 0 → exec (.recordFrameRx bad) s = .next s) ∧
      (fieldAt r 0 1 = 1 →
        (s.hubMainReset = true → exec (.ackFrameRx bad) s = .next u) ∧
        (s.hubMainReset = false → exec (.ackFrameRx true) s = .next (u.satRg Rg.cloche_WIRE_CRC_ERRS 0 1) ∧
          (let b := (r.drop 1).take (r.length - 5)
           ∃ w, exec (.ackFrameRx false) s = .next w ∧ w.records.acked = some (fieldAt b 0 4, fieldAt b 4 8) ∧
            w.flag Rg.cloche_ALIVE = true))) ∧
      (fieldAt r 0 1 = 0 →
        (s.hubMainReset = true → exec (.recordFrameRx bad) s = .next u) ∧
        (s.hubMainReset = false → exec (.recordFrameRx true) s = .next (u.satRg Rg.cloche_WIRE_CRC_ERRS 0 1) ∧
          (let b := (r.drop 1).take (r.length - 5)
           let w := ((((u.setRg Rg.cloche_SEALED 0 (ofBool (bitN (fieldAt b 7 1) 0))).incRg Rg.cloche_RECORDS_RX 0 1).setRg
             Rg.cloche_CLOCHE_ID 0 (fieldAt b 8 8)).setRg Rg.cloche_CFW_VERSION 0 (fieldAt b 60 4)).setAlive true
           let seq := fieldAt b 24 8
           let old : Prop := w.records.seen.contains seq = true ∨ seq + 262144 ≤ w.records.seen.foldl max 0
           let p := w.pumpPort
           let v := if p.records.store.length < 4681 ∨ p.flag Rg.cloche_OVF_EN = false then p else p.overflow
           let fs := v.recordFns b
           (old → exec (.recordFrameRx false) s = .next ((w.incRg Rg.cloche_RECORDS_DUP 0 1).pumpPort)) ∧
           (¬old → fs = [] ∨ 4681 ≤ v.records.store.length → exec (.recordFrameRx false) s =
             .next (v.satRg Rg.cloche_RECORDS_DROPPED 0 1)) ∧
           (¬old → fs ≠ [] → v.records.store.length < 4681 → ∃ x : State, exec (.recordFrameRx false) s = .next x.pumpPort ∧
             x.records.store = v.records.store ++ [(b, fs)] ∧ x.records.seen.contains seq = true))))) ∧
    (s.records.blocks = [] → exec .overflowReadback s = .next s) ∧
    (s.records.blocks = (n, ms) :: t →
      (s.records.front ≠ [] ∨ s.hubMainReset = true → exec .overflowReadback s = .next s) ∧
      (s.records.front = [] → s.hubMainReset = false → let u := s.portClaim
        (u.rg Rg.cipher_OWNER ≠ 17 ∨ u.flag Rg.cipher_BUSY = true → exec .overflowReadback s = .next u) ∧
        (u.rg Rg.cipher_OWNER = 17 → u.flag Rg.cipher_BUSY = false → let got := (u.committedHbm (u.blockAt n) 14352).getD []
          let w : State := { u with records := { u.records with blocks := t } }
          (got.drop 14336 = w.blockTag n (got.take 14336) → exec .overflowReadback s = .next ((({ w with records := { w.records with
            front := ms.mapIdx (fun i m => (((got.take 14336).drop (224 * i)).take 224, m.2)) } } : State).portCommand 0 0 14336).pumpPort)) ∧
          (got.drop 14336 ≠ w.blockTag n (got.take 14336) → exec .overflowReadback s = .next (((({ w with records := { w.records with
            seen := w.records.seen.filter (fun x => !(ms.map (fun m => m.1)).contains x) } } : State).satRg Rg.cipher_TAG_FAILS 0 1).portCommand
              2 25 0 |>.satRg Rg.cloche_OVF_TAG_FAILS 0 1).event 0x0901 n))))) ∧
    (s.hubMainReset = true → exec (.meterHoldWrite v) s = .next s ∧ exec .clocheAliveLapse s = .next s) ∧
    (s.hubMainReset = false → exec (.meterHoldWrite v) s = .next (s.setRg Rg.cloche_METER_HOLD 0 (ofBool v)) ∧
      exec .clocheAliveLapse s = .next (s.setAlive false)) ∧
    (let stopped : Cloche := { c with running := false, queue := [], wire := [], ackDue := false }
     exec .vclLow s = .next { s with cloche := stopped } ∧
     exec .clReset s = .next { s with cloche := { stopped with inReset := true } }) ∧
    (c.inReset = true → exec (.clProgEn word) s = .next { s with cloche := { c with prog := true, word := word.getD c.word } }) ∧
    (c.inReset = false → exec (.clProgEn word) s = .next s) ∧
    (c.running = true → exec (.clocheRestart cfw) s = .next s) ∧
    (c.running = false → let d := c.setLength (wordCode c.word)
      let with_ (v : Nat) : Host.Outcome State Fault Refusal := .next { s with cloche := ({ d with
        running := true, inReset := false, prog := false, cfw := v, ackDue := c.accepted, ringPos := 0
        flags := d.flags ||| 0x02 } : Cloche).certs }
      exec (.clocheRestart none) s = with_ c.cfw ∧
      ∀ n, (c.prog = true → c.sealedPart = false ∨ Config.clocheRollback ≤ n → exec (.clocheRestart (some n)) s = with_ n) ∧
        (c.prog = false ∨ (c.sealedPart = true ∧ n < Config.clocheRollback) → exec (.clocheRestart (some n)) s = with_ c.cfw)) ∧
    (wordCode c.word = c.code → c.setLength (wordCode c.word) = c) ∧
    (∀ k, k ≠ c.code → (c.setLength k).code = k ∧ (c.setLength k).due = (c.ctime / intervalNs k + 1) * intervalNs k ∧
      bitN (c.setLength k).flags 5 = true)

/-- The count wire, the Cloche and the record port: the statements above together. -/
def Obligations.Cloche : Prop :=
  Clauses.ClocheCounting ∧ Clauses.ClocheRecords

/-! ## Booting and firmware -/

/-- R520-R527, R37, R38, R42, R357: booting. A word whose copies or margins disagree holds the module in fuse-hold, STAGE 3,
with its report; otherwise the bank of the selector is tried, then the other, and with no image STAGE is 4. A verified main
image gives STAGE 2, its version, and the halves that are not held; a main image that fails forces the other bank once. The
self-test sets the working fields of its halves within the enabled set. Each command does nothing where its condition does not
hold; a release of the always-on reset in SAFE, or with MRST# low, waits for both. -/
def Obligations.BootSequence : Prop :=
  ∀ (s : State) (rs : List FuseRead) (temp halves rate width w c h : Nat) (bad : List Nat) (st : SelfTest) (flit : Bool), s.Inv →
    let b := s.fw.bank
    (let wait : State := { s with fw := { s.fw with start := some { fuses := some rs, temp := temp, bad := bad } } }
     (s.power.state = 3 → s.power.boot = true → exec (.hubAoResetRelease rs temp bad) s = .next wait) ∧
     (s.power.state = 3 → s.power.boot = false → exec (.hubAoResetRelease rs temp bad) s =
       .next { wait with power := { s.power with boot := true, good := 0 } }) ∧
     (s.power.state ≠ 3 → s.core0Run = false → s.power.mrst = true → exec (.hubAoResetRelease rs temp bad) s = .next wait)) ∧
    (s.power.state ≠ 3 → s.core0Run = true → exec (.hubAoResetRelease rs temp bad) s = .next s) ∧
    (s.power.state ≠ 3 → s.core0Run = false → s.power.mrst = false →
      exec (.hubAoResetRelease rs temp bad) s = .next (({ s with hubMainReset := false } : State).bootAll rs temp bad)) ∧
    (s.flag Rg.system_FUSE_HOLD = false → exec (.fuseRetry rs temp bad) s = .next s) ∧
    (s.flag Rg.system_FUSE_HOLD = true → exec (.fuseRetry rs temp bad) s = .next (s.bootAll rs temp bad)) ∧
    (s.rg Rg.system_STAGE ≠ 4 ∨ s.hubMainReset = true → exec (.recoveryReboot rs temp bad) s = .next s) ∧
    (s.rg Rg.system_STAGE = 4 → s.hubMainReset = false → exec (.recoveryReboot rs temp bad) s = .next (s.bootAll rs temp bad)) ∧
    (fuseReject rs = some (w, c) → let t := s.bootAll rs temp bad
      t.rg Rg.system_STAGE = 3 ∧ t.rg Rg.system_FUSE_HOLD = 1 ∧ t.rg Rg.system_FH_WORD = w % 2 ^ Rg.system_FH_WORD.w ∧
      t.rg Rg.system_FH_COPY = c % 2 ^ Rg.system_FH_COPY.w ∧ t.rg Rg.identity_SERVICE_LEVEL = 0 ∧ t.fw.fuses = []) ∧
    (fuseReject rs = none → let t := s.bootAll rs temp bad
      (t.rg Rg.system_STAGE = 1 ∨ t.rg Rg.system_STAGE = 4) ∧ t.rg Rg.system_FUSE_HOLD = 0 ∧
      (t.rg Rg.system_STAGE = 1 → t.core0Run = true) ∧ (t.rg Rg.system_STAGE = 4 → t.core0Run = false)) ∧
    (s.rg Rg.system_STAGE ≠ 1 ∨ s.hubMainReset = true → exec (.mainImageVerified bad) s = .next s) ∧
    (s.rg Rg.system_STAGE = 1 → s.hubMainReset = false →
      (s.imageCause bad b 2 = 0 → ∃ t, exec (.mainImageVerified bad) s = .next t ∧ t.fw.mainUp = true ∧ t.rg Rg.system_STAGE = 2 ∧
        t.rg Rg.system_FW_VERSION = s.readN (imageAt b 2 + 8) 4 % 2 ^ Rg.system_FW_VERSION.w ∧
        (s.flag Rg.system_WEST_HOLD = false → t.rg Rg.system_WEST_IN_RESET = 0) ∧
        (s.flag Rg.system_EAST_HOLD = false → t.rg Rg.system_EAST_IN_RESET = 0)) ∧
      (s.imageCause bad b 2 ≠ 0 → let f := (s.bankCause b 6).setRg Rg.system_FALLBACK 0 1
        (s.fw.forced = true → exec (.mainImageVerified bad) s = .next f.noImage) ∧
        (s.fw.forced = false → let g : State := { f with fw := { f.fw with forced := true } }
          (g.imageCause bad (1 - b) 1 = 0 → exec (.mainImageVerified bad) s = .next (g.loadStage1 (1 - b))) ∧
          (g.imageCause bad (1 - b) 1 ≠ 0 → exec (.mainImageVerified bad) s =
            .next ((g.bankCause (1 - b) (g.imageCause bad (1 - b) 1)).noImage))))) ∧
    (s.hubMainReset = true ∨ s.fw.mainUp = false → exec (.bootSelfTestDone halves st) s = .next s) ∧
    (s.hubMainReset = false → s.fw.mainUp = true → ∃ t, exec (.bootSelfTestDone halves st) s = .next t ∧ t.fw.tested = true ∧
      (h < 2 → bitN halves h = true → s.halfUp h = true → ∀ i, i < 4 → t.rg Rg.identity_TILE_WORKING (4 * h + i) =
        (st.tiles.getD (4 * h + i) 0 &&& s.rg Rg.identity_TILE_ENABLED (4 * h + i)) % 2 ^ Rg.identity_TILE_WORKING.w) ∧
      (s.host.linkUp = false → s.rg Rg.identity_SERVICE_LEVEL = 0 → t.rg Rg.identity_SERVICE_LEVEL = 0)) ∧
    (s.hubMainReset = true → exec (.pcieLinkTrained rate width flit) s = .next s) ∧
    (s.hubMainReset = false → ∃ t, exec (.pcieLinkTrained rate width flit) s = .next t ∧ t.host.linkUp = true ∧
      t.rg Rg.system_HOST_IN_RESET = 0 ∧ t.rg Rg.host_RATE = rate % 2 ^ Rg.host_RATE.w ∧
      t.rg Rg.host_WIDTH = width % 2 ^ Rg.host_WIDTH.w)

/-- R528-R533, R537, R552: firmware in service. FW_WRITE erases the sectors that it touches and writes the data, of the bank
that does not run; FW_VERIFY answers the versions, or STATUS 5 with the cause; BOOT_SELECT writes the other selector copy. The
first TIME_SET steps MTIME forward, and any other slews it. A compartment that traps moves to the lowest spare core, with its
event. A live update moves compartment by compartment, ends with the new bank in force, and goes back whole at the first that
refuses. -/
def Obligations.FirmwareService : Prop :=
  ∀ (s : State) (slot v c new : Nat) (q : List Byte) (bad : List Nat) (busy : Bool) (l : LiveUpdate), s.Inv →
    let f := fieldAt q
    let b := f 8 1
    (Asked s 0x50 [(8, 1), (16, 8), (24, 8), (32, 4)] slot q →
      (1 < b ∨ f 16 8 % 4096 ≠ 0 ∨ bankBytes < f 16 8 + f 32 4 ∨ 0x3C0000 < f 24 8 + f 32 4 → Answers .fwWrite s s slot 2 []) ∧
      (b ≤ 1 → f 16 8 % 4096 = 0 → f 16 8 + f 32 4 ≤ bankBytes → f 24 8 + f 32 4 ≤ 0x3C0000 →
        (b = s.fw.bank → Answers .fwWrite s s slot 3 []) ∧
        (b ≠ s.fw.bank → Answers .fwWrite s (let a := bankBase b + f 16 8
          let t := s.eraseSectors a (f 32 4)
          let u := t.writeB (kFlash a) (s.readB (kMgmt (0x40000 + f 24 8)) (f 32 4));
          { u with fw := { u.fw with verified := u.fw.verified.filter (fun x => x != b) } }) slot 0 []))) ∧
    (Asked s 0x51 [(8, 1)] slot q →
      (1 < b → Answers (.fwVerify bad) s s slot 2 []) ∧
      (b ≤ 1 → s.verifyBank bad b = 0 → Answers (.fwVerify bad) s { s with fw := { s.fw with verified := insertNat b s.fw.verified } } slot 0
        (s.readB (imageAt b 1 + 8) 4 ++ s.readB (imageAt b 2 + 8) 4 ++ s.readB (imageAt b 2 + 12) 2)) ∧
      (b ≤ 1 → s.verifyBank bad b ≠ 0 → Answers (.fwVerify bad) s s slot 5 (leBytes 1 (s.verifyBank bad b)))) ∧
    (Asked s 0x53 [(8, 1), (9, 1)] slot q →
      (1 < b ∨ 1 < f 9 1 → Answers (.bootSelect bad) s s slot 2 []) ∧
      (b ≤ 1 → f 9 1 ≤ 1 → s.verifyBank bad b = 0 → Answers (.bootSelect bad) s (s.writeSelector b (f 9 1)) slot 0 []) ∧
      (b ≤ 1 → f 9 1 ≤ 1 → s.verifyBank bad b ≠ 0 → Answers (.bootSelect bad) s s slot 5 (leBytes 1 (s.verifyBank bad b)))) ∧
    (Asked s 0x54 [(8, 8)] slot q → let t := s.setRg Rg.system_TIME_SET_DONE 0 1
      let now := s.rg Rg.system_MTIME
      (s.flag Rg.system_TIME_SET_DONE = false → now ≤ f 8 8 → Answers .timeSet s (t.setRg Rg.system_MTIME 0 (f 8 8)) slot 0 []) ∧
      (s.flag Rg.system_TIME_SET_DONE = true ∨ f 8 8 < now → now ≠ f 8 8 → Answers .timeSet s
        (({ t with fw := { t.fw with target := some (f 8 8) } } : State).setRg Rg.system_SLEW 0 (if now < f 8 8 then 1 else 2)) slot 0 []) ∧
      (s.flag Rg.system_TIME_SET_DONE = true → now = f 8 8 → Answers .timeSet s
        (({ t with fw := { t.fw with target := none } } : State).setRg Rg.system_SLEW 0 0) slot 0 [])) ∧
    (s.spareCore = none ∨ s.hubMainReset = true ∨ s.fw.mainUp = false ∨ c = 0 ∨ 9 < c →
      exec (.compartmentRestart c v busy) s = .next s) ∧
    (s.spareCore = some new → s.hubMainReset = false → s.fw.mainUp = true → 2 ≤ c → c ≤ 9 → c ≠ 7 →
      exec (.compartmentRestart c v busy) s = .next ((s.moveWork c new).event 0x0A02 (compOf c + new * 2 ^ 8 + v * 2 ^ 16))) ∧
    (s.spareCore = some new → s.hubMainReset = false → s.fw.mainUp = true → compOf c = 5 → exec (.compartmentRestart c v busy) s =
      .next ((s.moveWork c new).repostPaging.event 0x0A02 (5 + new * 2 ^ 8 + v * 2 ^ 16))) ∧
    (s.spareCore = some new → s.hubMainReset = false → s.fw.mainUp = true → exec (.compartmentRestart 1 v false) s =
      .next ((s.moveWork 1 new).event 0x0A02 (1 + new * 2 ^ 8 + v * 2 ^ 16))) ∧
    (s.spareCore = some new → s.hubMainReset = false → s.fw.mainUp = true → let w := s.moveWork 1 new
      (w.mrFront = none → exec (.compartmentRestart 1 v true) s = .next (w.event 0x0A02 (1 + new * 2 ^ 8 + v * 2 ^ 16))) ∧
      (∀ front, w.mrFront = some front → exec (.compartmentRestart 1 v true) s =
        .next ((w.mrReply front.1 8 []).event 0x0A02 (1 + new * 2 ^ 8 + v * 2 ^ 16)))) ∧
    (Asked s 0x52 [(8, 1)] slot q →
      (1 < b → exec .liveUpdate s = .next (s.mrReply slot 2 [])) ∧
      (b ≤ 1 → b = s.fw.bank ∨ s.fw.live.isSome = true ∨ s.fw.verified.contains b = false →
        exec .liveUpdate s = .next (s.mrReply slot 5 [])) ∧
      (b ≤ 1 → b ≠ s.fw.bank → s.fw.live = none → s.fw.verified.contains b = true → exec .liveUpdate s = .next { s with
        fw := { s.fw with live := some { bank := b, slot := slot } }
        host := { s.host with mrBusy := true } })) ∧
    (s.fw.live = none → exec (.handoverSafePoint busy) s = .next s) ∧
    (s.fw.live = some l →
      (l.comp < 7 → exec (.handoverSafePoint true) s = .next (let x := s.moveComp l l.comp;
        { x.1 with fw := { x.1.fw with live := some { x.2 with comp := l.comp + 1 } } })) ∧
      (l.comp = 7 → ∃ t, exec (.handoverSafePoint true) s = .next t ∧ t.fw.bank = l.bank ∧ t.fw.live = none ∧
        t.host.mrBusy = false) ∧
      exec (.handoverSafePoint false) s = .next (let t := l.moved.foldl (fun s (e : Nat × Nat) => s.moveWork e.1 e.2) s;
        (t.event 0x0A01 (1 + l.comp * 2 ^ 8 + t.rg Rg.system_FW_VERSION * 2 ^ 32)).liveReply l.slot 5))

/-! ## Resets, power, pins -/

/-- R36, R389, R498, R547, R548, R581: resets. A reset of hub main resets both halves and the host interface with it, empties
what its domains hold, holds every hub core and keeps its cause, 1 from a pin and 2 from RST_CTRL; the boot sequencer then runs,
unless fuse-hold or SAFE forbids. With MRST# released a start that has waited is made, outside SAFE at once. A half
is held while its bit is 1. Valid always-on power starts everything but the Cloche and the flash afresh, with another EPOCH. -/
def Clauses.Resets : Prop :=
  ∀ (s : State) (bad : List Nat) (w e : Bool) (cause : Nat), s.Inv →
    exec (.hubMain bad) s = .next ((s.resetHubMain 2).restartHub bad) ∧
    exec .pwrokFall s = .next (s.resetHubMain 1) ∧ exec .mainRailFault s = .next (s.resetHubMain 1) ∧
    (let t := s.resetHubMain cause
     t.hubMainReset = true ∧ t.core0Run = false ∧ t.rg Rg.system_HUB_MAIN_CAUSE = cause % 2 ^ Rg.system_HUB_MAIN_CAUSE.w ∧
     t.rg Rg.window_HUB_HOLD = 0x7FFF ∧ t.rg Rg.system_WEST_IN_RESET = 1 ∧ t.rg Rg.system_EAST_IN_RESET = 1 ∧
     t.rg Rg.system_HOST_IN_RESET = 1 ∧ t.fw.mainUp = false ∧ t.dom.member = false ∧ t.gate.streams = [] ∧ t.gate.dirty = [] ∧ t.cipher = {} ∧
     t.pending = s.pending ∧ t.cloche = s.cloche ∧ t.fw.fuses = s.fw.fuses) ∧
    (s.power.state = 3 ∨ s.flag Rg.system_FUSE_HOLD = true → s.restartHub bad = s) ∧
    (s.power.state ≠ 3 → s.flag Rg.system_FUSE_HOLD = false →
      s.restartHub bad = ({ s with hubMainReset := false } : State).bootSelect bad) ∧
    (let t (b : Bool) : State := { s with power := { s.power with mrst := b } }
     (s.power.mrst = true → exec (.mrst true bad) s = .next (t true)) ∧
     (s.power.mrst = false → exec (.mrst true bad) s = .next ((t true).resetHubMain 1) ∧ exec (.mrst false bad) s = .next (t false)) ∧
     (s.power.mrst = true → s.power.state = 3 →
       (s.power.boot = true → exec (.mrst false bad) s = .next (t false)) ∧
       (s.power.boot = false → exec (.mrst false bad) s = .next { s with
         power := { s.power with mrst := false, boot := true, good := 0 }, fw := { s.fw with start := some { bad := bad } } })) ∧
     (s.power.mrst = true → s.power.state ≠ 3 → exec (.mrst false bad) s = .next ((t false).startBoot (s.fw.start.getD { bad := bad })))) ∧
    (∀ b : BootStart, let u : State := { s with fw := { s.fw with start := none } }
      (b.fuses = none → s.startBoot b = u.restartHub b.bad) ∧
      (∀ rs, b.fuses = some rs → s.startBoot b = ({ u with hubMainReset := false } : State).bootAll rs b.temp b.bad)) ∧
    (∃ t, exec (.halfHoldWrite w e) s = .next t ∧ t.rg Rg.system_EAST_HOLD = ofBool e ∧ t.rg Rg.system_WEST_HOLD = ofBool w ∧
      (w = true → t.halfUp 0 = false) ∧ (e = true → t.halfUp 1 = false) ∧ t.cloche = s.cloche) ∧
    exec .hostInterfaceReset s = .next s.resetHost ∧
    (s.resetHost.host.linkUp = false ∧ s.resetHost.rg Rg.system_HOST_IN_RESET = 1 ∧
      ∀ p, 1 ≤ p → p < 128 → s.resetHost.plotState p = 0) ∧
    (∃ t, exec .hubAoPowerValid s = .next t ∧ t.cloche = s.cloche ∧ t.pending = s.pending ∧ t.out = s.out ∧ t.hubMainReset = false ∧
      t.core0Run = false ∧ t.power.state = 3 ∧ t.rg Rg.system_WEST_IN_RESET = 1 ∧ t.rg Rg.system_EAST_IN_RESET = 1 ∧
      t.rg Rg.system_STAGE = 0 ∧ (s.rg Rg.cloche_EPOCH < 2 ^ 32 → t.rg Rg.cloche_EPOCH ≠ s.rg Rg.cloche_EPOCH))

/-- R568-R577, R582, R584, R585: power, temperature and flow. A window above PLIMIT steps both halves down, the tenth calm one
up; a sample sets the thermal limits and the stacks to pace; three samples with both flow inputs low enter SAFE, D samples of
disagreement FLOW_FAULT, whose measures begin at its deadline. A trip enters SAFE once. POWER_SET refuses what is out of range;
POWER_GET answers what is in force. SAFE that may end does so after 50 good samples, unless MRST# is low, and a start of the boot
sequencer that has waited is made. Outside test mode the scan chain stays in reset. -/
def Clauses.PowerAndFlow : Prop :=
  ∀ (s : State) (watts west east cause slot : Nat) (hbm : List Nat) (a b tms tdi : Bool) (pins : List Bool) (q : List Byte),
    let p := s.power
    let f := fieldAt q
    let up (g : HalfPower → Nat) (n : Nat) : State := ({ s with power := { p with
      window := watts, calm := n
      west := { p.west with power := g p.west, why := 1 }, east := { p.east with power := g p.east, why := 1 } } } : State).decideSteps
    (s.plimit < watts → exec (.powerWindow watts) s = .next (up (fun x => min 6 (x.want + 1)) 0)) ∧
    (watts ≤ s.plimit → 100 * watts ≤ 95 * s.plimit → 9 ≤ p.calm → exec (.powerWindow watts) s = .next (up (fun x => x.power - 1) 0)) ∧
    (watts ≤ s.plimit → 100 * watts ≤ 95 * s.plimit → p.calm < 9 →
      exec (.powerWindow watts) s = .next { s with power := { p with window := watts, calm := p.calm + 1 } }) ∧
    (watts ≤ s.plimit → 95 * s.plimit < 100 * watts →
      exec (.powerWindow watts) s = .next { s with power := { p with window := watts, calm := 0 } }) ∧
    (∃ t, exec (.thermalSample west east hbm) s = .next t ∧
      t = { s with power := { p with west := t.power.west, east := t.power.east, hbmHot := t.power.hbmHot } } ∧
      (10 * p.tj ≤ west → t.power.west.thermal = min 6 (p.west.want + 1)) ∧
      (10 * p.tj ≤ east → t.power.east.thermal = min 6 (p.east.want + 1)) ∧
      (10 * p.tj < west + 50 → west < 10 * p.tj → t.power.west.thermal = p.west.thermal ∧ t.power.west.cool = 0) ∧
      (∀ i, i < 6 → 950 ≤ hbm.getD i 0 → t.power.hbmHot.contains i = true) ∧
      (∀ i, hbm.getD i 0 ≤ 900 → t.power.hbmHot.contains i = false)) ∧
    (let u : Power := { p with low2 := p.low2 + 1, inputs := 0 }
     (p.state ≠ 3 → 2 ≤ p.low2 → exec (.flowSample false false) s = .next ((s.setPower u).enterSafe 1)) ∧
     (p.state = 3 → exec (.flowSample false false) s = .next { s with power := { u with good := 0 } })) ∧
    (a ≠ b → p.state = 2 → exec (.flowSample a b) s =
      .next { s with power := { p with low2 := 0, inputs := ofBool a + 2 * ofBool b, good := 0 } }) ∧
    (a ≠ b → p.state = 1 → let u : State := { s with power := { p with
          low2 := 0, inputs := ofBool a + 2 * ofBool b, good := 0
          bad := p.bad + 1, wasLow := p.wasLow ||| (ofBool (!a) + 2 * ofBool (!b)) } }
      (p.bad + 1 < p.d → exec (.flowSample a b) s = .next u) ∧
      (p.d ≤ p.bad + 1 → exec (.flowSample a b) s = .next u.enterFlowFault)) ∧
    (a ≠ b → p.state = 0 → 1 < p.d → ∃ t, exec (.flowSample a b) s = .next t ∧ t.power.state = 1 ∧ t.power.bad = 1 ∧
      t.power.wasLow = ofBool (!a) + 2 * ofBool (!b)) ∧
    (let u : State := { s with power := { p with low2 := 0, inputs := 3, good := p.good + 1 } }
     let v := (u.setPower { u.power with boot := false }).enterNormal
     (p.state = 3 → p.boot = true → 50 ≤ p.good + 1 → p.mrst = false →
       (v.fw.start = none → exec (.flowSample true true) s = .next v) ∧
       (∀ x, v.fw.start = some x → exec (.flowSample true true) s = .next (v.startBoot x))) ∧
     (p.state = 3 → p.boot = false ∨ p.good + 1 < 50 ∨ p.mrst = true → exec (.flowSample true true) s = .next u) ∧
     (p.state = 0 → exec (.flowSample true true) s = .next u) ∧
     (p.state = 1 → exec (.flowSample true true) s = .next (u.logDisagreement.lockState 0)) ∧
     (p.state = 2 → p.d ≤ p.good + 1 → exec (.flowSample true true) s = .next u.enterNormal) ∧
     (p.state = 2 → p.good + 1 < p.d → exec (.flowSample true true) s = .next u)) ∧
    (let t := s.enterFlowFault
     t.power.state = 2 ∧ t.power.faultPend = true ∧ t.power.flowFaults = satAdd 32 p.flowFaults 1) ∧
    (p.faultPend = false → exec .flowFaultDeadline s = .next s) ∧
    (p.faultPend = true → let t := s.flowMeasures
      exec .flowFaultDeadline s = .next ((t.stepHalf (t.rg Rg.beat_BEATNO) 0).stepHalf (t.rg Rg.beat_BEATNO) 1)) ∧
    (p.state = 3 ∨ cause < 2 ∨ 4 < cause → exec (.thermalTrip cause) s = .next s) ∧
    (p.state ≠ 3 → 2 ≤ cause → cause ≤ 4 → ∃ t, exec (.thermalTrip cause) s = .next t ∧ t.power.state = 3 ∧ t.power.cause = cause ∧
      t.power.thermtrip = true ∧ t.hubMainReset = true) ∧
    (Asked s 0x60 [(8, 2), (10, 1), (11, 1), (12, 2), (14, 1)] slot q →
      let ok : Prop := 300 ≤ f 8 2 ∧ f 8 2 ≤ s.tdp ∧ f 10 1 ≤ 6 ∧ f 11 1 ≤ 6 ∧ 10 ≤ f 12 2 ∧ f 12 2 ≤ 500 ∧ 85 ≤ f 14 1 ∧ f 14 1 ≤ 105
      (¬ok → Answers .powerSet s s slot 2 []) ∧
      (ok → Answers .powerSet s { s with power := { p with d := f 12 2, set := some (f 8 2, f 10 1, f 11 1, f 14 1) } } slot 0 [])) ∧
    (Asked s 0x61 [] slot q → Answers .powerGet s s slot 0 (leBytes 2 s.plimit ++ leBytes 1 p.west.step ++ leBytes 1 p.east.step ++
      leBytes 2 p.d ++ leBytes 1 p.tj ++ leBytes 1 p.state ++ leBytes 4 p.disagreements ++ leBytes 4 p.flowFaults ++ leBytes 2 p.window ++
      leBytes 1 p.inputs ++ leBytes 1 p.cause)) ∧
    (p.mrst = false → exec (.tapClock a tms tdi pins) s = .next { s with power := { p with tap := tapReset } }) ∧
    exec (.tapClock false tms tdi pins) s = .next { s with power := { p with tap := tapReset } } ∧
    (p.mrst = true → ∃ t, exec (.tapClock true tms tdi pins) s = .next { s with power := { p with tap := t } } ∧
      t.state = tapNext p.tap.state tms)

/-- Resets, the flow interlock, power and boundary scan: the statements above together. -/
def Obligations.ResetsAndPower : Prop :=
  Clauses.Resets ∧ Clauses.PowerAndFlow

/-! ## Every command -/

/-- The queue is served first in, first out: with command c at the front, a step is exec of c on the block with the queue's
rest; on an empty queue the block idles for one tick of the 100 MHz reference (log entry 4), and its queue stays empty. -/
def Obligations.StepRunsFront : Prop :=
  ∀ (s : State) (c : Instr) (rest : List Instr),
    step { s with pending := c :: rest } = exec c { s with pending := rest } ∧
    step { s with pending := [] } = .next ({ s with pending := [] } : State).refTick ∧
    ({ s with pending := [] } : State).refTick.pending = []

/-- R20, R21, R589: the block right after reset keeps the invariant, has an empty queue, and is in SAFE with hub core 0 not
started, both halves and the host interface in reset, every core of the halves held, BEATNO 0, and no domain. -/
def Obligations.ResetState : Prop :=
  State.reset.Inv ∧ State.reset.pending = [] ∧ State.reset.power.state = 3 ∧ State.reset.core0Run = false ∧
    State.reset.rg Rg.system_WEST_IN_RESET = 1 ∧ State.reset.rg Rg.system_EAST_IN_RESET = 1 ∧
    State.reset.rg Rg.system_HOST_IN_RESET = 1 ∧ State.reset.rg Rg.window_CORE_HOLD = 2 ^ 32 - 1 ∧
    State.reset.rg Rg.beat_BEATNO = 0 ∧ State.reset.dom.member = false

/-- Every command of the table completes in every state: exec answers a next state, never a fault or a refusal, and leaves the
queue alone. -/
def Obligations.EveryCommandCompletes : Prop :=
  ∀ (i : Instr) (s : State), ∃ t, exec i s = .next t ∧ t.pending = s.pending

/-- The invariant: the memory keeps its canonical form, addresses strictly rising, and so do the register fields that differ
from reset. Every step keeps it, from every state that has it. -/
def Obligations.StepKeepsInvariant : Prop :=
  ∀ (s t : State), s.Inv → step s = .next t → t.Inv
end

