-- ==== Sys2Proof/Laws/Cells.lean ====
section
/-!
SUPPORT. Laws of the sparse maps: reading after writing, and the canonical form.
-/
namespace Sys2Proof
variable {α : Type}

@[simp] theorem Cells.get?_nil (a : Nat) : Cells.get? ([] : Cells α) a = none := rfl

/-- A key that was set reads as what was set. -/
theorem Cells.get?_put_self (m : Cells α) (a : Nat) (x : α) : (Cells.put m a x).get? a = some x := by
  induction m with
  | nil => simp [Cells.put, Cells.get?]
  | cons e t ih =>
    obtain ⟨k, v⟩ := e
    simp only [Cells.put]
    split
    · simp [Cells.get?]
    · split
      · simp [Cells.get?]
      · simp_all [Cells.get?]

/-- Setting a key changes no other key. -/
theorem Cells.get?_put_other (m : Cells α) {a b : Nat} (x : α) (h : b ≠ a) :
    (Cells.put m a x).get? b = m.get? b := by
  induction m with
  | nil => simp [Cells.put, Cells.get?, h]
  | cons e t ih =>
    obtain ⟨k, v⟩ := e
    simp only [Cells.put]
    split
    · subst_vars; simp [Cells.get?, h]
    · split
      · simp only [Cells.get?, h, if_false]
        split
        · rw [if_neg (by omega), if_pos (by omega)]
        · rfl
      · simp only [Cells.get?]; rw [ih]

/-- In a map whose keys rise from above `lo`, no key at or below `lo` is listed. -/
theorem Cells.get?_of_all_lt (m : Cells α) (lo a : Nat) (h : m.all (fun c => decide (lo < c.1)) = true) (ha : a ≤ lo) :
    m.get? a = none := by
  cases m with
  | nil => rfl
  | cons e t =>
    obtain ⟨k, v⟩ := e
    simp only [List.all_cons, Bool.and_eq_true, decide_eq_true_eq] at h
    simp only [Cells.get?]
    rw [if_neg (by omega), if_pos (by omega)]

/-- A removed key is not listed. -/
theorem Cells.get?_del_self (m : Cells α) (a : Nat) (h : Cells.wf m = true) : (Cells.del m a).get? a = none := by
  induction m with
  | nil => rfl
  | cons e t ih =>
    obtain ⟨k, v⟩ := e
    simp only [Cells.wf, Bool.and_eq_true] at h
    simp only [Cells.del]
    split
    · subst_vars; exact Cells.get?_of_all_lt t _ _ h.1 (Nat.le_refl _)
    · split
      · simp_all [Cells.get?]
      · simp_all [Cells.get?]

/-- Removing a key changes no other key. -/
theorem Cells.get?_del_other (m : Cells α) {a b : Nat} (hn : b ≠ a) (h : Cells.wf m = true) :
    (Cells.del m a).get? b = m.get? b := by
  induction m with
  | nil => rfl
  | cons e t ih =>
    obtain ⟨k, v⟩ := e
    simp only [Cells.wf, Bool.and_eq_true] at h
    simp only [Cells.del]
    split
    · subst_vars
      simp only [Cells.get?, hn, if_false]
      split
      · exact Cells.get?_of_all_lt t _ _ h.1 (by omega)
      · rfl
    · split
      · rfl
      · simp only [Cells.get?]; rw [ih h.2]

theorem Cells.all_lt_put (m : Cells α) (a lo : Nat) (x : α) (h : m.all (fun c => decide (lo < c.1)) = true) (ha : lo < a) :
    (Cells.put m a x).all (fun c => decide (lo < c.1)) = true := by
  induction m with
  | nil => simp [Cells.put, ha]
  | cons e t ih =>
    obtain ⟨k, v⟩ := e
    simp only [List.all_cons, Bool.and_eq_true, decide_eq_true_eq] at h
    simp only [Cells.put]
    split
    · simp [ha]; simpa using h.2
    · split
      · simp [ha, h.1]; simpa using h.2
      · simp only [List.all_cons, Bool.and_eq_true, decide_eq_true_eq]; exact ⟨h.1, ih h.2⟩

/-- Setting a key keeps the canonical form. -/
theorem Cells.wf_put (m : Cells α) (a : Nat) (x : α) (h : Cells.wf m = true) : Cells.wf (Cells.put m a x) = true := by
  induction m with
  | nil => simp [Cells.put, Cells.wf]
  | cons e t ih =>
    obtain ⟨k, v⟩ := e
    simp only [Cells.wf, Bool.and_eq_true] at h
    simp only [Cells.put]
    split
    · subst_vars; simp [Cells.wf, h.2]; simpa using h.1
    · split
      · rename_i h1
        simp only [Cells.wf, List.all_cons, Bool.and_eq_true, decide_eq_true_eq]
        refine ⟨⟨h1, ?_⟩, h.1, h.2⟩
        have h2 := h.1
        simp only [List.all_eq_true, decide_eq_true_eq] at h2 ⊢
        intro c hc; have := h2 c hc; omega
      · simp only [Cells.wf, Bool.and_eq_true]
        exact ⟨Cells.all_lt_put t a k x h.1 (by omega), ih h.2⟩

theorem Cells.all_del (m : Cells α) (a : Nat) (p : Nat × α → Bool) (h : m.all p = true) : (Cells.del m a).all p = true := by
  induction m with
  | nil => rfl
  | cons e t ih =>
    obtain ⟨k, v⟩ := e
    simp only [List.all_cons, Bool.and_eq_true] at h
    simp only [Cells.del]
    split
    · exact h.2
    · split
      · simp [h.1]; simpa using h.2
      · simp only [List.all_cons, Bool.and_eq_true]; exact ⟨h.1, ih h.2⟩

/-- Removing a key keeps the canonical form. -/
theorem Cells.wf_del (m : Cells α) (a : Nat) (h : Cells.wf m = true) : Cells.wf (Cells.del m a) = true := by
  induction m with
  | nil => rfl
  | cons e t ih =>
    obtain ⟨k, v⟩ := e
    simp only [Cells.wf, Bool.and_eq_true] at h
    simp only [Cells.del]
    split
    · exact h.2
    · split
      · simp [Cells.wf, h.2]; simpa using h.1
      · simp only [Cells.wf, Bool.and_eq_true]; exact ⟨Cells.all_del t a _ h.1, ih h.2⟩

/-- A map filtered by any test keeps the canonical form. -/
theorem Cells.wf_filter (m : Cells α) (p : Nat × α → Bool) (h : Cells.wf m = true) : Cells.wf (m.filter p) = true := by
  induction m with
  | nil => rfl
  | cons e t ih =>
    obtain ⟨k, v⟩ := e
    simp only [Cells.wf, Bool.and_eq_true] at h
    simp only [List.filter_cons]
    split
    · simp only [Cells.wf, Bool.and_eq_true]
      refine ⟨?_, ih h.2⟩
      have h2 := h.1
      simp only [List.all_eq_true] at h2 ⊢
      exact fun c hc => h2 c (List.mem_filter.mp hc).1
    · exact ih h.2

/-- Dropping a range of keys keeps the canonical form. -/
theorem Cells.wf_drop (m : Cells α) (lo hi : Nat) (h : Cells.wf m = true) : Cells.wf (Cells.drop m lo hi) = true :=
  Cells.wf_filter m _ h

/-- Setting a key of a map with a default keeps the canonical form. -/
theorem Cells.wf_set [DecidableEq α] (m : Cells α) (d : α) (a : Nat) (x : α) (h : Cells.wf m = true) :
    Cells.wf (Cells.set m d a x) = true := by
  unfold Cells.set; split
  · exact Cells.wf_del m a h
  · exact Cells.wf_put m a x h

/-- A key that was set reads as what was set. -/
theorem Cells.getD_set_self [DecidableEq α] (m : Cells α) (d : α) (a : Nat) (x : α) (h : Cells.wf m = true) :
    (Cells.set m d a x).getD d a = x := by
  unfold Cells.set Cells.getD; split
  · rw [Cells.get?_del_self m a h]; simp_all
  · rw [Cells.get?_put_self]; rfl

/-- Setting a key changes no other key. -/
theorem Cells.getD_set_other [DecidableEq α] (m : Cells α) (d : α) {a b : Nat} (x : α) (hn : b ≠ a) (h : Cells.wf m = true) :
    (Cells.set m d a x).getD d b = m.getD d b := by
  unfold Cells.set Cells.getD; split
  · rw [Cells.get?_del_other m hn h]
  · rw [Cells.get?_put_other m x hn]

end Sys2Proof
end

