-- ==== Sys2Proof/Laws/State.lean ====
section
/-!
SUPPORT. One lemma per field of State for each basic update.
-/
namespace Sys2Proof.Machine

/-! ### `State.drawn` -/
@[simp] theorem State.drawn_pending (s : State) : (s.drawn).pending = s.pending := rfl
@[simp] theorem State.drawn_freeCtr (s : State) : (s.drawn).freeCtr = s.freeCtr + 1 := rfl
@[simp] theorem State.drawn_out (s : State) : (s.drawn).out = s.out := rfl
@[simp] theorem State.drawn_regs (s : State) : (s.drawn).regs = s.regs := rfl
@[simp] theorem State.drawn_latches (s : State) : (s.drawn).latches = s.latches := rfl
@[simp] theorem State.drawn_mem (s : State) : (s.drawn).mem = s.mem := rfl
@[simp] theorem State.drawn_cores (s : State) : (s.drawn).cores = s.cores := rfl
@[simp] theorem State.drawn_hubMainReset (s : State) : (s.drawn).hubMainReset = s.hubMainReset := rfl
@[simp] theorem State.drawn_core0Run (s : State) : (s.drawn).core0Run = s.core0Run := rfl
@[simp] theorem State.drawn_tiles (s : State) : (s.drawn).tiles = s.tiles := rfl
@[simp] theorem State.drawn_trellis (s : State) : (s.drawn).trellis = s.trellis := rfl
@[simp] theorem State.drawn_streams (s : State) : (s.drawn).streams = s.streams := rfl
@[simp] theorem State.drawn_dom (s : State) : (s.drawn).dom = s.dom := rfl
@[simp] theorem State.drawn_hbm (s : State) : (s.drawn).hbm = s.hbm := rfl
@[simp] theorem State.drawn_dv (s : State) : (s.drawn).dv = s.dv := rfl
@[simp] theorem State.drawn_host (s : State) : (s.drawn).host = s.host := rfl
@[simp] theorem State.drawn_gate (s : State) : (s.drawn).gate = s.gate := rfl
@[simp] theorem State.drawn_fm (s : State) : (s.drawn).fm = s.fm := rfl
@[simp] theorem State.drawn_mulch (s : State) : (s.drawn).mulch = s.mulch := rfl
@[simp] theorem State.drawn_power (s : State) : (s.drawn).power = s.power := rfl
@[simp] theorem State.drawn_cloche (s : State) : (s.drawn).cloche = s.cloche := rfl
@[simp] theorem State.drawn_records (s : State) : (s.drawn).records = s.records := rfl
@[simp] theorem State.drawn_fw (s : State) : (s.drawn).fw = s.fw := rfl
@[simp] theorem State.drawn_sieve (s : State) : (s.drawn).sieve = s.sieve := rfl
@[simp] theorem State.drawn_eth (s : State) : (s.drawn).eth = s.eth := rfl
@[simp] theorem State.drawn_stash (s : State) : (s.drawn).stash = s.stash := rfl
@[simp] theorem State.drawn_cipher (s : State) : (s.drawn).cipher = s.cipher := rfl
@[simp] theorem State.drawn_detections (s : State) : (s.drawn).detections = s.detections := rfl

/-! ### `State.emit` -/
@[simp] theorem State.emit_pending (s : State) (o : Out) : (s.emit o).pending = s.pending := rfl
@[simp] theorem State.emit_freeCtr (s : State) (o : Out) : (s.emit o).freeCtr = s.freeCtr := rfl
@[simp] theorem State.emit_out (s : State) (o : Out) : (s.emit o).out = o :: s.out := rfl
@[simp] theorem State.emit_regs (s : State) (o : Out) : (s.emit o).regs = s.regs := rfl
@[simp] theorem State.emit_latches (s : State) (o : Out) : (s.emit o).latches = s.latches := rfl
@[simp] theorem State.emit_mem (s : State) (o : Out) : (s.emit o).mem = s.mem := rfl
@[simp] theorem State.emit_cores (s : State) (o : Out) : (s.emit o).cores = s.cores := rfl
@[simp] theorem State.emit_hubMainReset (s : State) (o : Out) : (s.emit o).hubMainReset = s.hubMainReset := rfl
@[simp] theorem State.emit_core0Run (s : State) (o : Out) : (s.emit o).core0Run = s.core0Run := rfl
@[simp] theorem State.emit_tiles (s : State) (o : Out) : (s.emit o).tiles = s.tiles := rfl
@[simp] theorem State.emit_trellis (s : State) (o : Out) : (s.emit o).trellis = s.trellis := rfl
@[simp] theorem State.emit_streams (s : State) (o : Out) : (s.emit o).streams = s.streams := rfl
@[simp] theorem State.emit_dom (s : State) (o : Out) : (s.emit o).dom = s.dom := rfl
@[simp] theorem State.emit_hbm (s : State) (o : Out) : (s.emit o).hbm = s.hbm := rfl
@[simp] theorem State.emit_dv (s : State) (o : Out) : (s.emit o).dv = s.dv := rfl
@[simp] theorem State.emit_host (s : State) (o : Out) : (s.emit o).host = s.host := rfl
@[simp] theorem State.emit_gate (s : State) (o : Out) : (s.emit o).gate = s.gate := rfl
@[simp] theorem State.emit_fm (s : State) (o : Out) : (s.emit o).fm = s.fm := rfl
@[simp] theorem State.emit_mulch (s : State) (o : Out) : (s.emit o).mulch = s.mulch := rfl
@[simp] theorem State.emit_power (s : State) (o : Out) : (s.emit o).power = s.power := rfl
@[simp] theorem State.emit_cloche (s : State) (o : Out) : (s.emit o).cloche = s.cloche := rfl
@[simp] theorem State.emit_records (s : State) (o : Out) : (s.emit o).records = s.records := rfl
@[simp] theorem State.emit_fw (s : State) (o : Out) : (s.emit o).fw = s.fw := rfl
@[simp] theorem State.emit_sieve (s : State) (o : Out) : (s.emit o).sieve = s.sieve := rfl
@[simp] theorem State.emit_eth (s : State) (o : Out) : (s.emit o).eth = s.eth := rfl
@[simp] theorem State.emit_stash (s : State) (o : Out) : (s.emit o).stash = s.stash := rfl
@[simp] theorem State.emit_cipher (s : State) (o : Out) : (s.emit o).cipher = s.cipher := rfl
@[simp] theorem State.emit_detections (s : State) (o : Out) : (s.emit o).detections = s.detections := rfl

/-! ### `State.detect` -/
@[simp] theorem State.detect_pending (s : State) (d : Detection) : (s.detect d).pending = s.pending := rfl
@[simp] theorem State.detect_freeCtr (s : State) (d : Detection) : (s.detect d).freeCtr = s.freeCtr := rfl
@[simp] theorem State.detect_out (s : State) (d : Detection) : (s.detect d).out = s.out := rfl
@[simp] theorem State.detect_regs (s : State) (d : Detection) : (s.detect d).regs = s.regs := rfl
@[simp] theorem State.detect_latches (s : State) (d : Detection) : (s.detect d).latches = s.latches := rfl
@[simp] theorem State.detect_mem (s : State) (d : Detection) : (s.detect d).mem = s.mem := rfl
@[simp] theorem State.detect_cores (s : State) (d : Detection) : (s.detect d).cores = s.cores := rfl
@[simp] theorem State.detect_hubMainReset (s : State) (d : Detection) : (s.detect d).hubMainReset = s.hubMainReset := rfl
@[simp] theorem State.detect_core0Run (s : State) (d : Detection) : (s.detect d).core0Run = s.core0Run := rfl
@[simp] theorem State.detect_tiles (s : State) (d : Detection) : (s.detect d).tiles = s.tiles := rfl
@[simp] theorem State.detect_trellis (s : State) (d : Detection) : (s.detect d).trellis = s.trellis := rfl
@[simp] theorem State.detect_streams (s : State) (d : Detection) : (s.detect d).streams = s.streams := rfl
@[simp] theorem State.detect_dom (s : State) (d : Detection) : (s.detect d).dom = s.dom := rfl
@[simp] theorem State.detect_hbm (s : State) (d : Detection) : (s.detect d).hbm = s.hbm := rfl
@[simp] theorem State.detect_dv (s : State) (d : Detection) : (s.detect d).dv = s.dv := rfl
@[simp] theorem State.detect_host (s : State) (d : Detection) : (s.detect d).host = s.host := rfl
@[simp] theorem State.detect_gate (s : State) (d : Detection) : (s.detect d).gate = s.gate := rfl
@[simp] theorem State.detect_fm (s : State) (d : Detection) : (s.detect d).fm = s.fm := rfl
@[simp] theorem State.detect_mulch (s : State) (d : Detection) : (s.detect d).mulch = s.mulch := rfl
@[simp] theorem State.detect_power (s : State) (d : Detection) : (s.detect d).power = s.power := rfl
@[simp] theorem State.detect_cloche (s : State) (d : Detection) : (s.detect d).cloche = s.cloche := rfl
@[simp] theorem State.detect_records (s : State) (d : Detection) : (s.detect d).records = s.records := rfl
@[simp] theorem State.detect_fw (s : State) (d : Detection) : (s.detect d).fw = s.fw := rfl
@[simp] theorem State.detect_sieve (s : State) (d : Detection) : (s.detect d).sieve = s.sieve := rfl
@[simp] theorem State.detect_eth (s : State) (d : Detection) : (s.detect d).eth = s.eth := rfl
@[simp] theorem State.detect_stash (s : State) (d : Detection) : (s.detect d).stash = s.stash := rfl
@[simp] theorem State.detect_cipher (s : State) (d : Detection) : (s.detect d).cipher = s.cipher := rfl
@[simp] theorem State.detect_detections (s : State) (d : Detection) : (s.detect d).detections = s.detections ++ [d] := rfl

/-! ### `State.setCopy` -/
@[simp] theorem State.setCopy_pending (s : State) (f : Fld) (i c v : Nat) : (s.setCopy f i c v).pending = s.pending := rfl
@[simp] theorem State.setCopy_freeCtr (s : State) (f : Fld) (i c v : Nat) : (s.setCopy f i c v).freeCtr = s.freeCtr := rfl
@[simp] theorem State.setCopy_out (s : State) (f : Fld) (i c v : Nat) : (s.setCopy f i c v).out = s.out := rfl
@[simp] theorem State.setCopy_latches (s : State) (f : Fld) (i c v : Nat) : (s.setCopy f i c v).latches = s.latches := rfl
@[simp] theorem State.setCopy_mem (s : State) (f : Fld) (i c v : Nat) : (s.setCopy f i c v).mem = s.mem := rfl
@[simp] theorem State.setCopy_cores (s : State) (f : Fld) (i c v : Nat) : (s.setCopy f i c v).cores = s.cores := rfl
@[simp] theorem State.setCopy_hubMainReset (s : State) (f : Fld) (i c v : Nat) : (s.setCopy f i c v).hubMainReset = s.hubMainReset := rfl
@[simp] theorem State.setCopy_core0Run (s : State) (f : Fld) (i c v : Nat) : (s.setCopy f i c v).core0Run = s.core0Run := rfl
@[simp] theorem State.setCopy_tiles (s : State) (f : Fld) (i c v : Nat) : (s.setCopy f i c v).tiles = s.tiles := rfl
@[simp] theorem State.setCopy_trellis (s : State) (f : Fld) (i c v : Nat) : (s.setCopy f i c v).trellis = s.trellis := rfl
@[simp] theorem State.setCopy_streams (s : State) (f : Fld) (i c v : Nat) : (s.setCopy f i c v).streams = s.streams := rfl
@[simp] theorem State.setCopy_dom (s : State) (f : Fld) (i c v : Nat) : (s.setCopy f i c v).dom = s.dom := rfl
@[simp] theorem State.setCopy_hbm (s : State) (f : Fld) (i c v : Nat) : (s.setCopy f i c v).hbm = s.hbm := rfl
@[simp] theorem State.setCopy_dv (s : State) (f : Fld) (i c v : Nat) : (s.setCopy f i c v).dv = s.dv := rfl
@[simp] theorem State.setCopy_host (s : State) (f : Fld) (i c v : Nat) : (s.setCopy f i c v).host = s.host := rfl
@[simp] theorem State.setCopy_gate (s : State) (f : Fld) (i c v : Nat) : (s.setCopy f i c v).gate = s.gate := rfl
@[simp] theorem State.setCopy_fm (s : State) (f : Fld) (i c v : Nat) : (s.setCopy f i c v).fm = s.fm := rfl
@[simp] theorem State.setCopy_mulch (s : State) (f : Fld) (i c v : Nat) : (s.setCopy f i c v).mulch = s.mulch := rfl
@[simp] theorem State.setCopy_power (s : State) (f : Fld) (i c v : Nat) : (s.setCopy f i c v).power = s.power := rfl
@[simp] theorem State.setCopy_cloche (s : State) (f : Fld) (i c v : Nat) : (s.setCopy f i c v).cloche = s.cloche := rfl
@[simp] theorem State.setCopy_records (s : State) (f : Fld) (i c v : Nat) : (s.setCopy f i c v).records = s.records := rfl
@[simp] theorem State.setCopy_fw (s : State) (f : Fld) (i c v : Nat) : (s.setCopy f i c v).fw = s.fw := rfl
@[simp] theorem State.setCopy_sieve (s : State) (f : Fld) (i c v : Nat) : (s.setCopy f i c v).sieve = s.sieve := rfl
@[simp] theorem State.setCopy_eth (s : State) (f : Fld) (i c v : Nat) : (s.setCopy f i c v).eth = s.eth := rfl
@[simp] theorem State.setCopy_stash (s : State) (f : Fld) (i c v : Nat) : (s.setCopy f i c v).stash = s.stash := rfl
@[simp] theorem State.setCopy_cipher (s : State) (f : Fld) (i c v : Nat) : (s.setCopy f i c v).cipher = s.cipher := rfl
@[simp] theorem State.setCopy_detections (s : State) (f : Fld) (i c v : Nat) : (s.setCopy f i c v).detections = s.detections := rfl

/-! ### `State.setRg` -/
@[simp] theorem State.setRg_pending (s : State) (f : Fld) (i v : Nat) : (s.setRg f i v).pending = s.pending := by unfold State.setRg; split <;> rfl
@[simp] theorem State.setRg_freeCtr (s : State) (f : Fld) (i v : Nat) : (s.setRg f i v).freeCtr = s.freeCtr := by unfold State.setRg; split <;> rfl
@[simp] theorem State.setRg_out (s : State) (f : Fld) (i v : Nat) : (s.setRg f i v).out = s.out := by unfold State.setRg; split <;> rfl
@[simp] theorem State.setRg_latches (s : State) (f : Fld) (i v : Nat) : (s.setRg f i v).latches = s.latches := by unfold State.setRg; split <;> rfl
@[simp] theorem State.setRg_mem (s : State) (f : Fld) (i v : Nat) : (s.setRg f i v).mem = s.mem := by unfold State.setRg; split <;> rfl
@[simp] theorem State.setRg_cores (s : State) (f : Fld) (i v : Nat) : (s.setRg f i v).cores = s.cores := by unfold State.setRg; split <;> rfl
@[simp] theorem State.setRg_hubMainReset (s : State) (f : Fld) (i v : Nat) : (s.setRg f i v).hubMainReset = s.hubMainReset := by unfold State.setRg; split <;> rfl
@[simp] theorem State.setRg_core0Run (s : State) (f : Fld) (i v : Nat) : (s.setRg f i v).core0Run = s.core0Run := by unfold State.setRg; split <;> rfl
@[simp] theorem State.setRg_tiles (s : State) (f : Fld) (i v : Nat) : (s.setRg f i v).tiles = s.tiles := by unfold State.setRg; split <;> rfl
@[simp] theorem State.setRg_trellis (s : State) (f : Fld) (i v : Nat) : (s.setRg f i v).trellis = s.trellis := by unfold State.setRg; split <;> rfl
@[simp] theorem State.setRg_streams (s : State) (f : Fld) (i v : Nat) : (s.setRg f i v).streams = s.streams := by unfold State.setRg; split <;> rfl
@[simp] theorem State.setRg_dom (s : State) (f : Fld) (i v : Nat) : (s.setRg f i v).dom = s.dom := by unfold State.setRg; split <;> rfl
@[simp] theorem State.setRg_hbm (s : State) (f : Fld) (i v : Nat) : (s.setRg f i v).hbm = s.hbm := by unfold State.setRg; split <;> rfl
@[simp] theorem State.setRg_dv (s : State) (f : Fld) (i v : Nat) : (s.setRg f i v).dv = s.dv := by unfold State.setRg; split <;> rfl
@[simp] theorem State.setRg_host (s : State) (f : Fld) (i v : Nat) : (s.setRg f i v).host = s.host := by unfold State.setRg; split <;> rfl
@[simp] theorem State.setRg_gate (s : State) (f : Fld) (i v : Nat) : (s.setRg f i v).gate = s.gate := by unfold State.setRg; split <;> rfl
@[simp] theorem State.setRg_fm (s : State) (f : Fld) (i v : Nat) : (s.setRg f i v).fm = s.fm := by unfold State.setRg; split <;> rfl
@[simp] theorem State.setRg_mulch (s : State) (f : Fld) (i v : Nat) : (s.setRg f i v).mulch = s.mulch := by unfold State.setRg; split <;> rfl
@[simp] theorem State.setRg_power (s : State) (f : Fld) (i v : Nat) : (s.setRg f i v).power = s.power := by unfold State.setRg; split <;> rfl
@[simp] theorem State.setRg_cloche (s : State) (f : Fld) (i v : Nat) : (s.setRg f i v).cloche = s.cloche := by unfold State.setRg; split <;> rfl
@[simp] theorem State.setRg_records (s : State) (f : Fld) (i v : Nat) : (s.setRg f i v).records = s.records := by unfold State.setRg; split <;> rfl
@[simp] theorem State.setRg_fw (s : State) (f : Fld) (i v : Nat) : (s.setRg f i v).fw = s.fw := by unfold State.setRg; split <;> rfl
@[simp] theorem State.setRg_sieve (s : State) (f : Fld) (i v : Nat) : (s.setRg f i v).sieve = s.sieve := by unfold State.setRg; split <;> rfl
@[simp] theorem State.setRg_eth (s : State) (f : Fld) (i v : Nat) : (s.setRg f i v).eth = s.eth := by unfold State.setRg; split <;> rfl
@[simp] theorem State.setRg_stash (s : State) (f : Fld) (i v : Nat) : (s.setRg f i v).stash = s.stash := by unfold State.setRg; split <;> rfl
@[simp] theorem State.setRg_cipher (s : State) (f : Fld) (i v : Nat) : (s.setRg f i v).cipher = s.cipher := by unfold State.setRg; split <;> rfl
@[simp] theorem State.setRg_detections (s : State) (f : Fld) (i v : Nat) : (s.setRg f i v).detections = s.detections := by unfold State.setRg; split <;> rfl

/-! ### `State.writeB` -/
@[simp] theorem State.writeB_pending (s : State) (k : Nat) (bs : List Byte) : (s.writeB k bs).pending = s.pending := rfl
@[simp] theorem State.writeB_freeCtr (s : State) (k : Nat) (bs : List Byte) : (s.writeB k bs).freeCtr = s.freeCtr := rfl
@[simp] theorem State.writeB_out (s : State) (k : Nat) (bs : List Byte) : (s.writeB k bs).out = s.out := rfl
@[simp] theorem State.writeB_regs (s : State) (k : Nat) (bs : List Byte) : (s.writeB k bs).regs = s.regs := rfl
@[simp] theorem State.writeB_latches (s : State) (k : Nat) (bs : List Byte) : (s.writeB k bs).latches = s.latches := rfl
@[simp] theorem State.writeB_mem (s : State) (k : Nat) (bs : List Byte) : (s.writeB k bs).mem = s.mem.write k bs := rfl
@[simp] theorem State.writeB_cores (s : State) (k : Nat) (bs : List Byte) : (s.writeB k bs).cores = s.cores := rfl
@[simp] theorem State.writeB_hubMainReset (s : State) (k : Nat) (bs : List Byte) : (s.writeB k bs).hubMainReset = s.hubMainReset := rfl
@[simp] theorem State.writeB_core0Run (s : State) (k : Nat) (bs : List Byte) : (s.writeB k bs).core0Run = s.core0Run := rfl
@[simp] theorem State.writeB_tiles (s : State) (k : Nat) (bs : List Byte) : (s.writeB k bs).tiles = s.tiles := rfl
@[simp] theorem State.writeB_trellis (s : State) (k : Nat) (bs : List Byte) : (s.writeB k bs).trellis = s.trellis := rfl
@[simp] theorem State.writeB_streams (s : State) (k : Nat) (bs : List Byte) : (s.writeB k bs).streams = s.streams := rfl
@[simp] theorem State.writeB_dom (s : State) (k : Nat) (bs : List Byte) : (s.writeB k bs).dom = s.dom := rfl
@[simp] theorem State.writeB_hbm (s : State) (k : Nat) (bs : List Byte) : (s.writeB k bs).hbm = s.hbm := rfl
@[simp] theorem State.writeB_dv (s : State) (k : Nat) (bs : List Byte) : (s.writeB k bs).dv = s.dv := rfl
@[simp] theorem State.writeB_host (s : State) (k : Nat) (bs : List Byte) : (s.writeB k bs).host = s.host := rfl
@[simp] theorem State.writeB_gate (s : State) (k : Nat) (bs : List Byte) : (s.writeB k bs).gate = s.gate := rfl
@[simp] theorem State.writeB_fm (s : State) (k : Nat) (bs : List Byte) : (s.writeB k bs).fm = s.fm := rfl
@[simp] theorem State.writeB_mulch (s : State) (k : Nat) (bs : List Byte) : (s.writeB k bs).mulch = s.mulch := rfl
@[simp] theorem State.writeB_power (s : State) (k : Nat) (bs : List Byte) : (s.writeB k bs).power = s.power := rfl
@[simp] theorem State.writeB_cloche (s : State) (k : Nat) (bs : List Byte) : (s.writeB k bs).cloche = s.cloche := rfl
@[simp] theorem State.writeB_records (s : State) (k : Nat) (bs : List Byte) : (s.writeB k bs).records = s.records := rfl
@[simp] theorem State.writeB_fw (s : State) (k : Nat) (bs : List Byte) : (s.writeB k bs).fw = s.fw := rfl
@[simp] theorem State.writeB_sieve (s : State) (k : Nat) (bs : List Byte) : (s.writeB k bs).sieve = s.sieve := rfl
@[simp] theorem State.writeB_eth (s : State) (k : Nat) (bs : List Byte) : (s.writeB k bs).eth = s.eth := rfl
@[simp] theorem State.writeB_stash (s : State) (k : Nat) (bs : List Byte) : (s.writeB k bs).stash = s.stash := rfl
@[simp] theorem State.writeB_cipher (s : State) (k : Nat) (bs : List Byte) : (s.writeB k bs).cipher = s.cipher := rfl
@[simp] theorem State.writeB_detections (s : State) (k : Nat) (bs : List Byte) : (s.writeB k bs).detections = s.detections := rfl

/-! ### `State.loseRange` -/
@[simp] theorem State.loseRange_pending (s : State) (lo hi : Nat) : (s.loseRange lo hi).pending = s.pending := rfl
@[simp] theorem State.loseRange_freeCtr (s : State) (lo hi : Nat) : (s.loseRange lo hi).freeCtr = s.freeCtr + 1 := rfl
@[simp] theorem State.loseRange_out (s : State) (lo hi : Nat) : (s.loseRange lo hi).out = s.out := rfl
@[simp] theorem State.loseRange_regs (s : State) (lo hi : Nat) : (s.loseRange lo hi).regs = s.regs := rfl
@[simp] theorem State.loseRange_latches (s : State) (lo hi : Nat) : (s.loseRange lo hi).latches = s.latches := rfl
@[simp] theorem State.loseRange_mem (s : State) (lo hi : Nat) : (s.loseRange lo hi).mem = s.mem.lose lo hi (s.freeCtr + 1) := rfl
@[simp] theorem State.loseRange_cores (s : State) (lo hi : Nat) : (s.loseRange lo hi).cores = s.cores := rfl
@[simp] theorem State.loseRange_hubMainReset (s : State) (lo hi : Nat) : (s.loseRange lo hi).hubMainReset = s.hubMainReset := rfl
@[simp] theorem State.loseRange_core0Run (s : State) (lo hi : Nat) : (s.loseRange lo hi).core0Run = s.core0Run := rfl
@[simp] theorem State.loseRange_tiles (s : State) (lo hi : Nat) : (s.loseRange lo hi).tiles = s.tiles := rfl
@[simp] theorem State.loseRange_trellis (s : State) (lo hi : Nat) : (s.loseRange lo hi).trellis = s.trellis := rfl
@[simp] theorem State.loseRange_streams (s : State) (lo hi : Nat) : (s.loseRange lo hi).streams = s.streams := rfl
@[simp] theorem State.loseRange_dom (s : State) (lo hi : Nat) : (s.loseRange lo hi).dom = s.dom := rfl
@[simp] theorem State.loseRange_hbm (s : State) (lo hi : Nat) : (s.loseRange lo hi).hbm = s.hbm := rfl
@[simp] theorem State.loseRange_dv (s : State) (lo hi : Nat) : (s.loseRange lo hi).dv = s.dv := rfl
@[simp] theorem State.loseRange_host (s : State) (lo hi : Nat) : (s.loseRange lo hi).host = s.host := rfl
@[simp] theorem State.loseRange_gate (s : State) (lo hi : Nat) : (s.loseRange lo hi).gate = s.gate := rfl
@[simp] theorem State.loseRange_fm (s : State) (lo hi : Nat) : (s.loseRange lo hi).fm = s.fm := rfl
@[simp] theorem State.loseRange_mulch (s : State) (lo hi : Nat) : (s.loseRange lo hi).mulch = s.mulch := rfl
@[simp] theorem State.loseRange_power (s : State) (lo hi : Nat) : (s.loseRange lo hi).power = s.power := rfl
@[simp] theorem State.loseRange_cloche (s : State) (lo hi : Nat) : (s.loseRange lo hi).cloche = s.cloche := rfl
@[simp] theorem State.loseRange_records (s : State) (lo hi : Nat) : (s.loseRange lo hi).records = s.records := rfl
@[simp] theorem State.loseRange_fw (s : State) (lo hi : Nat) : (s.loseRange lo hi).fw = s.fw := rfl
@[simp] theorem State.loseRange_sieve (s : State) (lo hi : Nat) : (s.loseRange lo hi).sieve = s.sieve := rfl
@[simp] theorem State.loseRange_eth (s : State) (lo hi : Nat) : (s.loseRange lo hi).eth = s.eth := rfl
@[simp] theorem State.loseRange_stash (s : State) (lo hi : Nat) : (s.loseRange lo hi).stash = s.stash := rfl
@[simp] theorem State.loseRange_cipher (s : State) (lo hi : Nat) : (s.loseRange lo hi).cipher = s.cipher := rfl
@[simp] theorem State.loseRange_detections (s : State) (lo hi : Nat) : (s.loseRange lo hi).detections = s.detections := rfl

/-! ### `State.setCore` -/
@[simp] theorem State.setCore_pending (s : State) (c : CoreId) (k : Core) : (s.setCore c k).pending = s.pending := rfl
@[simp] theorem State.setCore_freeCtr (s : State) (c : CoreId) (k : Core) : (s.setCore c k).freeCtr = s.freeCtr := rfl
@[simp] theorem State.setCore_out (s : State) (c : CoreId) (k : Core) : (s.setCore c k).out = s.out := rfl
@[simp] theorem State.setCore_regs (s : State) (c : CoreId) (k : Core) : (s.setCore c k).regs = s.regs := rfl
@[simp] theorem State.setCore_latches (s : State) (c : CoreId) (k : Core) : (s.setCore c k).latches = s.latches := rfl
@[simp] theorem State.setCore_mem (s : State) (c : CoreId) (k : Core) : (s.setCore c k).mem = s.mem := rfl
@[simp] theorem State.setCore_cores (s : State) (c : CoreId) (k : Core) : (s.setCore c k).cores = s.cores.set {} (coreKey c) k := rfl
@[simp] theorem State.setCore_hubMainReset (s : State) (c : CoreId) (k : Core) : (s.setCore c k).hubMainReset = s.hubMainReset := rfl
@[simp] theorem State.setCore_core0Run (s : State) (c : CoreId) (k : Core) : (s.setCore c k).core0Run = s.core0Run := rfl
@[simp] theorem State.setCore_tiles (s : State) (c : CoreId) (k : Core) : (s.setCore c k).tiles = s.tiles := rfl
@[simp] theorem State.setCore_trellis (s : State) (c : CoreId) (k : Core) : (s.setCore c k).trellis = s.trellis := rfl
@[simp] theorem State.setCore_streams (s : State) (c : CoreId) (k : Core) : (s.setCore c k).streams = s.streams := rfl
@[simp] theorem State.setCore_dom (s : State) (c : CoreId) (k : Core) : (s.setCore c k).dom = s.dom := rfl
@[simp] theorem State.setCore_hbm (s : State) (c : CoreId) (k : Core) : (s.setCore c k).hbm = s.hbm := rfl
@[simp] theorem State.setCore_dv (s : State) (c : CoreId) (k : Core) : (s.setCore c k).dv = s.dv := rfl
@[simp] theorem State.setCore_host (s : State) (c : CoreId) (k : Core) : (s.setCore c k).host = s.host := rfl
@[simp] theorem State.setCore_gate (s : State) (c : CoreId) (k : Core) : (s.setCore c k).gate = s.gate := rfl
@[simp] theorem State.setCore_fm (s : State) (c : CoreId) (k : Core) : (s.setCore c k).fm = s.fm := rfl
@[simp] theorem State.setCore_mulch (s : State) (c : CoreId) (k : Core) : (s.setCore c k).mulch = s.mulch := rfl
@[simp] theorem State.setCore_power (s : State) (c : CoreId) (k : Core) : (s.setCore c k).power = s.power := rfl
@[simp] theorem State.setCore_cloche (s : State) (c : CoreId) (k : Core) : (s.setCore c k).cloche = s.cloche := rfl
@[simp] theorem State.setCore_records (s : State) (c : CoreId) (k : Core) : (s.setCore c k).records = s.records := rfl
@[simp] theorem State.setCore_fw (s : State) (c : CoreId) (k : Core) : (s.setCore c k).fw = s.fw := rfl
@[simp] theorem State.setCore_sieve (s : State) (c : CoreId) (k : Core) : (s.setCore c k).sieve = s.sieve := rfl
@[simp] theorem State.setCore_eth (s : State) (c : CoreId) (k : Core) : (s.setCore c k).eth = s.eth := rfl
@[simp] theorem State.setCore_stash (s : State) (c : CoreId) (k : Core) : (s.setCore c k).stash = s.stash := rfl
@[simp] theorem State.setCore_cipher (s : State) (c : CoreId) (k : Core) : (s.setCore c k).cipher = s.cipher := rfl
@[simp] theorem State.setCore_detections (s : State) (c : CoreId) (k : Core) : (s.setCore c k).detections = s.detections := rfl

/-! ### `State.writeN` -/
@[simp] theorem State.writeN_pending (s : State) (k n v : Nat) : (s.writeN k n v).pending = s.pending := rfl
@[simp] theorem State.writeN_freeCtr (s : State) (k n v : Nat) : (s.writeN k n v).freeCtr = s.freeCtr := rfl
@[simp] theorem State.writeN_out (s : State) (k n v : Nat) : (s.writeN k n v).out = s.out := rfl
@[simp] theorem State.writeN_regs (s : State) (k n v : Nat) : (s.writeN k n v).regs = s.regs := rfl
@[simp] theorem State.writeN_latches (s : State) (k n v : Nat) : (s.writeN k n v).latches = s.latches := rfl
@[simp] theorem State.writeN_mem (s : State) (k n v : Nat) : (s.writeN k n v).mem = s.mem.write k (leBytes n v) := rfl
@[simp] theorem State.writeN_cores (s : State) (k n v : Nat) : (s.writeN k n v).cores = s.cores := rfl
@[simp] theorem State.writeN_hubMainReset (s : State) (k n v : Nat) : (s.writeN k n v).hubMainReset = s.hubMainReset := rfl
@[simp] theorem State.writeN_core0Run (s : State) (k n v : Nat) : (s.writeN k n v).core0Run = s.core0Run := rfl
@[simp] theorem State.writeN_tiles (s : State) (k n v : Nat) : (s.writeN k n v).tiles = s.tiles := rfl
@[simp] theorem State.writeN_trellis (s : State) (k n v : Nat) : (s.writeN k n v).trellis = s.trellis := rfl
@[simp] theorem State.writeN_streams (s : State) (k n v : Nat) : (s.writeN k n v).streams = s.streams := rfl
@[simp] theorem State.writeN_dom (s : State) (k n v : Nat) : (s.writeN k n v).dom = s.dom := rfl
@[simp] theorem State.writeN_hbm (s : State) (k n v : Nat) : (s.writeN k n v).hbm = s.hbm := rfl
@[simp] theorem State.writeN_dv (s : State) (k n v : Nat) : (s.writeN k n v).dv = s.dv := rfl
@[simp] theorem State.writeN_host (s : State) (k n v : Nat) : (s.writeN k n v).host = s.host := rfl
@[simp] theorem State.writeN_gate (s : State) (k n v : Nat) : (s.writeN k n v).gate = s.gate := rfl
@[simp] theorem State.writeN_fm (s : State) (k n v : Nat) : (s.writeN k n v).fm = s.fm := rfl
@[simp] theorem State.writeN_mulch (s : State) (k n v : Nat) : (s.writeN k n v).mulch = s.mulch := rfl
@[simp] theorem State.writeN_power (s : State) (k n v : Nat) : (s.writeN k n v).power = s.power := rfl
@[simp] theorem State.writeN_cloche (s : State) (k n v : Nat) : (s.writeN k n v).cloche = s.cloche := rfl
@[simp] theorem State.writeN_records (s : State) (k n v : Nat) : (s.writeN k n v).records = s.records := rfl
@[simp] theorem State.writeN_fw (s : State) (k n v : Nat) : (s.writeN k n v).fw = s.fw := rfl
@[simp] theorem State.writeN_sieve (s : State) (k n v : Nat) : (s.writeN k n v).sieve = s.sieve := rfl
@[simp] theorem State.writeN_eth (s : State) (k n v : Nat) : (s.writeN k n v).eth = s.eth := rfl
@[simp] theorem State.writeN_stash (s : State) (k n v : Nat) : (s.writeN k n v).stash = s.stash := rfl
@[simp] theorem State.writeN_cipher (s : State) (k n v : Nat) : (s.writeN k n v).cipher = s.cipher := rfl
@[simp] theorem State.writeN_detections (s : State) (k n v : Nat) : (s.writeN k n v).detections = s.detections := rfl

/-! ### `State.incRg` -/
@[simp] theorem State.incRg_pending (s : State) (f : Fld) (i d : Nat) : (s.incRg f i d).pending = s.pending := by simp [State.incRg]
@[simp] theorem State.incRg_freeCtr (s : State) (f : Fld) (i d : Nat) : (s.incRg f i d).freeCtr = s.freeCtr := by simp [State.incRg]
@[simp] theorem State.incRg_out (s : State) (f : Fld) (i d : Nat) : (s.incRg f i d).out = s.out := by simp [State.incRg]
@[simp] theorem State.incRg_latches (s : State) (f : Fld) (i d : Nat) : (s.incRg f i d).latches = s.latches := by simp [State.incRg]
@[simp] theorem State.incRg_mem (s : State) (f : Fld) (i d : Nat) : (s.incRg f i d).mem = s.mem := by simp [State.incRg]
@[simp] theorem State.incRg_cores (s : State) (f : Fld) (i d : Nat) : (s.incRg f i d).cores = s.cores := by simp [State.incRg]
@[simp] theorem State.incRg_hubMainReset (s : State) (f : Fld) (i d : Nat) : (s.incRg f i d).hubMainReset = s.hubMainReset := by simp [State.incRg]
@[simp] theorem State.incRg_core0Run (s : State) (f : Fld) (i d : Nat) : (s.incRg f i d).core0Run = s.core0Run := by simp [State.incRg]
@[simp] theorem State.incRg_tiles (s : State) (f : Fld) (i d : Nat) : (s.incRg f i d).tiles = s.tiles := by simp [State.incRg]
@[simp] theorem State.incRg_trellis (s : State) (f : Fld) (i d : Nat) : (s.incRg f i d).trellis = s.trellis := by simp [State.incRg]
@[simp] theorem State.incRg_streams (s : State) (f : Fld) (i d : Nat) : (s.incRg f i d).streams = s.streams := by simp [State.incRg]
@[simp] theorem State.incRg_dom (s : State) (f : Fld) (i d : Nat) : (s.incRg f i d).dom = s.dom := by simp [State.incRg]
@[simp] theorem State.incRg_hbm (s : State) (f : Fld) (i d : Nat) : (s.incRg f i d).hbm = s.hbm := by simp [State.incRg]
@[simp] theorem State.incRg_dv (s : State) (f : Fld) (i d : Nat) : (s.incRg f i d).dv = s.dv := by simp [State.incRg]
@[simp] theorem State.incRg_host (s : State) (f : Fld) (i d : Nat) : (s.incRg f i d).host = s.host := by simp [State.incRg]
@[simp] theorem State.incRg_gate (s : State) (f : Fld) (i d : Nat) : (s.incRg f i d).gate = s.gate := by simp [State.incRg]
@[simp] theorem State.incRg_fm (s : State) (f : Fld) (i d : Nat) : (s.incRg f i d).fm = s.fm := by simp [State.incRg]
@[simp] theorem State.incRg_mulch (s : State) (f : Fld) (i d : Nat) : (s.incRg f i d).mulch = s.mulch := by simp [State.incRg]
@[simp] theorem State.incRg_power (s : State) (f : Fld) (i d : Nat) : (s.incRg f i d).power = s.power := by simp [State.incRg]
@[simp] theorem State.incRg_cloche (s : State) (f : Fld) (i d : Nat) : (s.incRg f i d).cloche = s.cloche := by simp [State.incRg]
@[simp] theorem State.incRg_records (s : State) (f : Fld) (i d : Nat) : (s.incRg f i d).records = s.records := by simp [State.incRg]
@[simp] theorem State.incRg_fw (s : State) (f : Fld) (i d : Nat) : (s.incRg f i d).fw = s.fw := by simp [State.incRg]
@[simp] theorem State.incRg_sieve (s : State) (f : Fld) (i d : Nat) : (s.incRg f i d).sieve = s.sieve := by simp [State.incRg]
@[simp] theorem State.incRg_eth (s : State) (f : Fld) (i d : Nat) : (s.incRg f i d).eth = s.eth := by simp [State.incRg]
@[simp] theorem State.incRg_stash (s : State) (f : Fld) (i d : Nat) : (s.incRg f i d).stash = s.stash := by simp [State.incRg]
@[simp] theorem State.incRg_cipher (s : State) (f : Fld) (i d : Nat) : (s.incRg f i d).cipher = s.cipher := by simp [State.incRg]
@[simp] theorem State.incRg_detections (s : State) (f : Fld) (i d : Nat) : (s.incRg f i d).detections = s.detections := by simp [State.incRg]

/-! ### `State.satRg` -/
@[simp] theorem State.satRg_pending (s : State) (f : Fld) (i d : Nat) : (s.satRg f i d).pending = s.pending := by simp [State.satRg]
@[simp] theorem State.satRg_freeCtr (s : State) (f : Fld) (i d : Nat) : (s.satRg f i d).freeCtr = s.freeCtr := by simp [State.satRg]
@[simp] theorem State.satRg_out (s : State) (f : Fld) (i d : Nat) : (s.satRg f i d).out = s.out := by simp [State.satRg]
@[simp] theorem State.satRg_latches (s : State) (f : Fld) (i d : Nat) : (s.satRg f i d).latches = s.latches := by simp [State.satRg]
@[simp] theorem State.satRg_mem (s : State) (f : Fld) (i d : Nat) : (s.satRg f i d).mem = s.mem := by simp [State.satRg]
@[simp] theorem State.satRg_cores (s : State) (f : Fld) (i d : Nat) : (s.satRg f i d).cores = s.cores := by simp [State.satRg]
@[simp] theorem State.satRg_hubMainReset (s : State) (f : Fld) (i d : Nat) : (s.satRg f i d).hubMainReset = s.hubMainReset := by simp [State.satRg]
@[simp] theorem State.satRg_core0Run (s : State) (f : Fld) (i d : Nat) : (s.satRg f i d).core0Run = s.core0Run := by simp [State.satRg]
@[simp] theorem State.satRg_tiles (s : State) (f : Fld) (i d : Nat) : (s.satRg f i d).tiles = s.tiles := by simp [State.satRg]
@[simp] theorem State.satRg_trellis (s : State) (f : Fld) (i d : Nat) : (s.satRg f i d).trellis = s.trellis := by simp [State.satRg]
@[simp] theorem State.satRg_streams (s : State) (f : Fld) (i d : Nat) : (s.satRg f i d).streams = s.streams := by simp [State.satRg]
@[simp] theorem State.satRg_dom (s : State) (f : Fld) (i d : Nat) : (s.satRg f i d).dom = s.dom := by simp [State.satRg]
@[simp] theorem State.satRg_hbm (s : State) (f : Fld) (i d : Nat) : (s.satRg f i d).hbm = s.hbm := by simp [State.satRg]
@[simp] theorem State.satRg_dv (s : State) (f : Fld) (i d : Nat) : (s.satRg f i d).dv = s.dv := by simp [State.satRg]
@[simp] theorem State.satRg_host (s : State) (f : Fld) (i d : Nat) : (s.satRg f i d).host = s.host := by simp [State.satRg]
@[simp] theorem State.satRg_gate (s : State) (f : Fld) (i d : Nat) : (s.satRg f i d).gate = s.gate := by simp [State.satRg]
@[simp] theorem State.satRg_fm (s : State) (f : Fld) (i d : Nat) : (s.satRg f i d).fm = s.fm := by simp [State.satRg]
@[simp] theorem State.satRg_mulch (s : State) (f : Fld) (i d : Nat) : (s.satRg f i d).mulch = s.mulch := by simp [State.satRg]
@[simp] theorem State.satRg_power (s : State) (f : Fld) (i d : Nat) : (s.satRg f i d).power = s.power := by simp [State.satRg]
@[simp] theorem State.satRg_cloche (s : State) (f : Fld) (i d : Nat) : (s.satRg f i d).cloche = s.cloche := by simp [State.satRg]
@[simp] theorem State.satRg_records (s : State) (f : Fld) (i d : Nat) : (s.satRg f i d).records = s.records := by simp [State.satRg]
@[simp] theorem State.satRg_fw (s : State) (f : Fld) (i d : Nat) : (s.satRg f i d).fw = s.fw := by simp [State.satRg]
@[simp] theorem State.satRg_sieve (s : State) (f : Fld) (i d : Nat) : (s.satRg f i d).sieve = s.sieve := by simp [State.satRg]
@[simp] theorem State.satRg_eth (s : State) (f : Fld) (i d : Nat) : (s.satRg f i d).eth = s.eth := by simp [State.satRg]
@[simp] theorem State.satRg_stash (s : State) (f : Fld) (i d : Nat) : (s.satRg f i d).stash = s.stash := by simp [State.satRg]
@[simp] theorem State.satRg_cipher (s : State) (f : Fld) (i d : Nat) : (s.satRg f i d).cipher = s.cipher := by simp [State.satRg]
@[simp] theorem State.satRg_detections (s : State) (f : Fld) (i d : Nat) : (s.satRg f i d).detections = s.detections := by simp [State.satRg]

/-! ### `State.sqRaise` -/
@[simp] theorem State.sqRaise_pending (s : State) (st sq : Fld) (i v : Nat) : (s.sqRaise st sq i v).pending = s.pending := by simp [State.sqRaise]
@[simp] theorem State.sqRaise_freeCtr (s : State) (st sq : Fld) (i v : Nat) : (s.sqRaise st sq i v).freeCtr = s.freeCtr := by simp [State.sqRaise]
@[simp] theorem State.sqRaise_out (s : State) (st sq : Fld) (i v : Nat) : (s.sqRaise st sq i v).out = s.out := by simp [State.sqRaise]
@[simp] theorem State.sqRaise_latches (s : State) (st sq : Fld) (i v : Nat) : (s.sqRaise st sq i v).latches = s.latches := by simp [State.sqRaise]
@[simp] theorem State.sqRaise_mem (s : State) (st sq : Fld) (i v : Nat) : (s.sqRaise st sq i v).mem = s.mem := by simp [State.sqRaise]
@[simp] theorem State.sqRaise_cores (s : State) (st sq : Fld) (i v : Nat) : (s.sqRaise st sq i v).cores = s.cores := by simp [State.sqRaise]
@[simp] theorem State.sqRaise_hubMainReset (s : State) (st sq : Fld) (i v : Nat) : (s.sqRaise st sq i v).hubMainReset = s.hubMainReset := by simp [State.sqRaise]
@[simp] theorem State.sqRaise_core0Run (s : State) (st sq : Fld) (i v : Nat) : (s.sqRaise st sq i v).core0Run = s.core0Run := by simp [State.sqRaise]
@[simp] theorem State.sqRaise_tiles (s : State) (st sq : Fld) (i v : Nat) : (s.sqRaise st sq i v).tiles = s.tiles := by simp [State.sqRaise]
@[simp] theorem State.sqRaise_trellis (s : State) (st sq : Fld) (i v : Nat) : (s.sqRaise st sq i v).trellis = s.trellis := by simp [State.sqRaise]
@[simp] theorem State.sqRaise_streams (s : State) (st sq : Fld) (i v : Nat) : (s.sqRaise st sq i v).streams = s.streams := by simp [State.sqRaise]
@[simp] theorem State.sqRaise_dom (s : State) (st sq : Fld) (i v : Nat) : (s.sqRaise st sq i v).dom = s.dom := by simp [State.sqRaise]
@[simp] theorem State.sqRaise_hbm (s : State) (st sq : Fld) (i v : Nat) : (s.sqRaise st sq i v).hbm = s.hbm := by simp [State.sqRaise]
@[simp] theorem State.sqRaise_dv (s : State) (st sq : Fld) (i v : Nat) : (s.sqRaise st sq i v).dv = s.dv := by simp [State.sqRaise]
@[simp] theorem State.sqRaise_host (s : State) (st sq : Fld) (i v : Nat) : (s.sqRaise st sq i v).host = s.host := by simp [State.sqRaise]
@[simp] theorem State.sqRaise_gate (s : State) (st sq : Fld) (i v : Nat) : (s.sqRaise st sq i v).gate = s.gate := by simp [State.sqRaise]
@[simp] theorem State.sqRaise_fm (s : State) (st sq : Fld) (i v : Nat) : (s.sqRaise st sq i v).fm = s.fm := by simp [State.sqRaise]
@[simp] theorem State.sqRaise_mulch (s : State) (st sq : Fld) (i v : Nat) : (s.sqRaise st sq i v).mulch = s.mulch := by simp [State.sqRaise]
@[simp] theorem State.sqRaise_power (s : State) (st sq : Fld) (i v : Nat) : (s.sqRaise st sq i v).power = s.power := by simp [State.sqRaise]
@[simp] theorem State.sqRaise_cloche (s : State) (st sq : Fld) (i v : Nat) : (s.sqRaise st sq i v).cloche = s.cloche := by simp [State.sqRaise]
@[simp] theorem State.sqRaise_records (s : State) (st sq : Fld) (i v : Nat) : (s.sqRaise st sq i v).records = s.records := by simp [State.sqRaise]
@[simp] theorem State.sqRaise_fw (s : State) (st sq : Fld) (i v : Nat) : (s.sqRaise st sq i v).fw = s.fw := by simp [State.sqRaise]
@[simp] theorem State.sqRaise_sieve (s : State) (st sq : Fld) (i v : Nat) : (s.sqRaise st sq i v).sieve = s.sieve := by simp [State.sqRaise]
@[simp] theorem State.sqRaise_eth (s : State) (st sq : Fld) (i v : Nat) : (s.sqRaise st sq i v).eth = s.eth := by simp [State.sqRaise]
@[simp] theorem State.sqRaise_stash (s : State) (st sq : Fld) (i v : Nat) : (s.sqRaise st sq i v).stash = s.stash := by simp [State.sqRaise]
@[simp] theorem State.sqRaise_cipher (s : State) (st sq : Fld) (i v : Nat) : (s.sqRaise st sq i v).cipher = s.cipher := by simp [State.sqRaise]
@[simp] theorem State.sqRaise_detections (s : State) (st sq : Fld) (i v : Nat) : (s.sqRaise st sq i v).detections = s.detections := by simp [State.sqRaise]

/-! ### `State.wrapCount` -/
@[simp] theorem State.wrapCount_pending (s : State) (f : Fld) (i d : Nat) (st sq : Fld) (j bit : Nat) : (s.wrapCount f i d st sq j bit).pending = s.pending := by unfold State.wrapCount; split <;> simp
@[simp] theorem State.wrapCount_freeCtr (s : State) (f : Fld) (i d : Nat) (st sq : Fld) (j bit : Nat) : (s.wrapCount f i d st sq j bit).freeCtr = s.freeCtr := by unfold State.wrapCount; split <;> simp
@[simp] theorem State.wrapCount_out (s : State) (f : Fld) (i d : Nat) (st sq : Fld) (j bit : Nat) : (s.wrapCount f i d st sq j bit).out = s.out := by unfold State.wrapCount; split <;> simp
@[simp] theorem State.wrapCount_latches (s : State) (f : Fld) (i d : Nat) (st sq : Fld) (j bit : Nat) : (s.wrapCount f i d st sq j bit).latches = s.latches := by unfold State.wrapCount; split <;> simp
@[simp] theorem State.wrapCount_mem (s : State) (f : Fld) (i d : Nat) (st sq : Fld) (j bit : Nat) : (s.wrapCount f i d st sq j bit).mem = s.mem := by unfold State.wrapCount; split <;> simp
@[simp] theorem State.wrapCount_cores (s : State) (f : Fld) (i d : Nat) (st sq : Fld) (j bit : Nat) : (s.wrapCount f i d st sq j bit).cores = s.cores := by unfold State.wrapCount; split <;> simp
@[simp] theorem State.wrapCount_hubMainReset (s : State) (f : Fld) (i d : Nat) (st sq : Fld) (j bit : Nat) : (s.wrapCount f i d st sq j bit).hubMainReset = s.hubMainReset := by unfold State.wrapCount; split <;> simp
@[simp] theorem State.wrapCount_core0Run (s : State) (f : Fld) (i d : Nat) (st sq : Fld) (j bit : Nat) : (s.wrapCount f i d st sq j bit).core0Run = s.core0Run := by unfold State.wrapCount; split <;> simp
@[simp] theorem State.wrapCount_tiles (s : State) (f : Fld) (i d : Nat) (st sq : Fld) (j bit : Nat) : (s.wrapCount f i d st sq j bit).tiles = s.tiles := by unfold State.wrapCount; split <;> simp
@[simp] theorem State.wrapCount_trellis (s : State) (f : Fld) (i d : Nat) (st sq : Fld) (j bit : Nat) : (s.wrapCount f i d st sq j bit).trellis = s.trellis := by unfold State.wrapCount; split <;> simp
@[simp] theorem State.wrapCount_streams (s : State) (f : Fld) (i d : Nat) (st sq : Fld) (j bit : Nat) : (s.wrapCount f i d st sq j bit).streams = s.streams := by unfold State.wrapCount; split <;> simp
@[simp] theorem State.wrapCount_dom (s : State) (f : Fld) (i d : Nat) (st sq : Fld) (j bit : Nat) : (s.wrapCount f i d st sq j bit).dom = s.dom := by unfold State.wrapCount; split <;> simp
@[simp] theorem State.wrapCount_hbm (s : State) (f : Fld) (i d : Nat) (st sq : Fld) (j bit : Nat) : (s.wrapCount f i d st sq j bit).hbm = s.hbm := by unfold State.wrapCount; split <;> simp
@[simp] theorem State.wrapCount_dv (s : State) (f : Fld) (i d : Nat) (st sq : Fld) (j bit : Nat) : (s.wrapCount f i d st sq j bit).dv = s.dv := by unfold State.wrapCount; split <;> simp
@[simp] theorem State.wrapCount_host (s : State) (f : Fld) (i d : Nat) (st sq : Fld) (j bit : Nat) : (s.wrapCount f i d st sq j bit).host = s.host := by unfold State.wrapCount; split <;> simp
@[simp] theorem State.wrapCount_gate (s : State) (f : Fld) (i d : Nat) (st sq : Fld) (j bit : Nat) : (s.wrapCount f i d st sq j bit).gate = s.gate := by unfold State.wrapCount; split <;> simp
@[simp] theorem State.wrapCount_fm (s : State) (f : Fld) (i d : Nat) (st sq : Fld) (j bit : Nat) : (s.wrapCount f i d st sq j bit).fm = s.fm := by unfold State.wrapCount; split <;> simp
@[simp] theorem State.wrapCount_mulch (s : State) (f : Fld) (i d : Nat) (st sq : Fld) (j bit : Nat) : (s.wrapCount f i d st sq j bit).mulch = s.mulch := by unfold State.wrapCount; split <;> simp
@[simp] theorem State.wrapCount_power (s : State) (f : Fld) (i d : Nat) (st sq : Fld) (j bit : Nat) : (s.wrapCount f i d st sq j bit).power = s.power := by unfold State.wrapCount; split <;> simp
@[simp] theorem State.wrapCount_cloche (s : State) (f : Fld) (i d : Nat) (st sq : Fld) (j bit : Nat) : (s.wrapCount f i d st sq j bit).cloche = s.cloche := by unfold State.wrapCount; split <;> simp
@[simp] theorem State.wrapCount_records (s : State) (f : Fld) (i d : Nat) (st sq : Fld) (j bit : Nat) : (s.wrapCount f i d st sq j bit).records = s.records := by unfold State.wrapCount; split <;> simp
@[simp] theorem State.wrapCount_fw (s : State) (f : Fld) (i d : Nat) (st sq : Fld) (j bit : Nat) : (s.wrapCount f i d st sq j bit).fw = s.fw := by unfold State.wrapCount; split <;> simp
@[simp] theorem State.wrapCount_sieve (s : State) (f : Fld) (i d : Nat) (st sq : Fld) (j bit : Nat) : (s.wrapCount f i d st sq j bit).sieve = s.sieve := by unfold State.wrapCount; split <;> simp
@[simp] theorem State.wrapCount_eth (s : State) (f : Fld) (i d : Nat) (st sq : Fld) (j bit : Nat) : (s.wrapCount f i d st sq j bit).eth = s.eth := by unfold State.wrapCount; split <;> simp
@[simp] theorem State.wrapCount_stash (s : State) (f : Fld) (i d : Nat) (st sq : Fld) (j bit : Nat) : (s.wrapCount f i d st sq j bit).stash = s.stash := by unfold State.wrapCount; split <;> simp
@[simp] theorem State.wrapCount_cipher (s : State) (f : Fld) (i d : Nat) (st sq : Fld) (j bit : Nat) : (s.wrapCount f i d st sq j bit).cipher = s.cipher := by unfold State.wrapCount; split <;> simp
@[simp] theorem State.wrapCount_detections (s : State) (f : Fld) (i d : Nat) (st sq : Fld) (j bit : Nat) : (s.wrapCount f i d st sq j bit).detections = s.detections := by unfold State.wrapCount; split <;> simp

/-! ### `State.writeFld` -/
@[simp] theorem State.writeFld_pending (s : State) (f : Fld) (i v : Nat) : (s.writeFld f i v).pending = s.pending := by unfold State.writeFld; split <;> simp
@[simp] theorem State.writeFld_freeCtr (s : State) (f : Fld) (i v : Nat) : (s.writeFld f i v).freeCtr = s.freeCtr := by unfold State.writeFld; split <;> simp
@[simp] theorem State.writeFld_out (s : State) (f : Fld) (i v : Nat) : (s.writeFld f i v).out = s.out := by unfold State.writeFld; split <;> simp
@[simp] theorem State.writeFld_latches (s : State) (f : Fld) (i v : Nat) : (s.writeFld f i v).latches = s.latches := by unfold State.writeFld; split <;> simp
@[simp] theorem State.writeFld_mem (s : State) (f : Fld) (i v : Nat) : (s.writeFld f i v).mem = s.mem := by unfold State.writeFld; split <;> simp
@[simp] theorem State.writeFld_cores (s : State) (f : Fld) (i v : Nat) : (s.writeFld f i v).cores = s.cores := by unfold State.writeFld; split <;> simp
@[simp] theorem State.writeFld_hubMainReset (s : State) (f : Fld) (i v : Nat) : (s.writeFld f i v).hubMainReset = s.hubMainReset := by unfold State.writeFld; split <;> simp
@[simp] theorem State.writeFld_core0Run (s : State) (f : Fld) (i v : Nat) : (s.writeFld f i v).core0Run = s.core0Run := by unfold State.writeFld; split <;> simp
@[simp] theorem State.writeFld_tiles (s : State) (f : Fld) (i v : Nat) : (s.writeFld f i v).tiles = s.tiles := by unfold State.writeFld; split <;> simp
@[simp] theorem State.writeFld_trellis (s : State) (f : Fld) (i v : Nat) : (s.writeFld f i v).trellis = s.trellis := by unfold State.writeFld; split <;> simp
@[simp] theorem State.writeFld_streams (s : State) (f : Fld) (i v : Nat) : (s.writeFld f i v).streams = s.streams := by unfold State.writeFld; split <;> simp
@[simp] theorem State.writeFld_dom (s : State) (f : Fld) (i v : Nat) : (s.writeFld f i v).dom = s.dom := by unfold State.writeFld; split <;> simp
@[simp] theorem State.writeFld_hbm (s : State) (f : Fld) (i v : Nat) : (s.writeFld f i v).hbm = s.hbm := by unfold State.writeFld; split <;> simp
@[simp] theorem State.writeFld_dv (s : State) (f : Fld) (i v : Nat) : (s.writeFld f i v).dv = s.dv := by unfold State.writeFld; split <;> simp
@[simp] theorem State.writeFld_host (s : State) (f : Fld) (i v : Nat) : (s.writeFld f i v).host = s.host := by unfold State.writeFld; split <;> simp
@[simp] theorem State.writeFld_gate (s : State) (f : Fld) (i v : Nat) : (s.writeFld f i v).gate = s.gate := by unfold State.writeFld; split <;> simp
@[simp] theorem State.writeFld_fm (s : State) (f : Fld) (i v : Nat) : (s.writeFld f i v).fm = s.fm := by unfold State.writeFld; split <;> simp
@[simp] theorem State.writeFld_mulch (s : State) (f : Fld) (i v : Nat) : (s.writeFld f i v).mulch = s.mulch := by unfold State.writeFld; split <;> simp
@[simp] theorem State.writeFld_power (s : State) (f : Fld) (i v : Nat) : (s.writeFld f i v).power = s.power := by unfold State.writeFld; split <;> simp
@[simp] theorem State.writeFld_cloche (s : State) (f : Fld) (i v : Nat) : (s.writeFld f i v).cloche = s.cloche := by unfold State.writeFld; split <;> simp
@[simp] theorem State.writeFld_records (s : State) (f : Fld) (i v : Nat) : (s.writeFld f i v).records = s.records := by unfold State.writeFld; split <;> simp
@[simp] theorem State.writeFld_fw (s : State) (f : Fld) (i v : Nat) : (s.writeFld f i v).fw = s.fw := by unfold State.writeFld; split <;> simp
@[simp] theorem State.writeFld_sieve (s : State) (f : Fld) (i v : Nat) : (s.writeFld f i v).sieve = s.sieve := by unfold State.writeFld; split <;> simp
@[simp] theorem State.writeFld_eth (s : State) (f : Fld) (i v : Nat) : (s.writeFld f i v).eth = s.eth := by unfold State.writeFld; split <;> simp
@[simp] theorem State.writeFld_stash (s : State) (f : Fld) (i v : Nat) : (s.writeFld f i v).stash = s.stash := by unfold State.writeFld; split <;> simp
@[simp] theorem State.writeFld_cipher (s : State) (f : Fld) (i v : Nat) : (s.writeFld f i v).cipher = s.cipher := by unfold State.writeFld; split <;> simp
@[simp] theorem State.writeFld_detections (s : State) (f : Fld) (i v : Nat) : (s.writeFld f i v).detections = s.detections := by unfold State.writeFld; split <;> simp

end Sys2Proof.Machine
end

