-- ==== Sys2Proof/Laws/Memory.lean ====
section
/-!
SUPPORT. Laws of the byte memories and of the register file.
-/
namespace Sys2Proof.Machine

/-- Writing a byte keeps the canonical form. -/
theorem Memory.wf_put (m : Memory) (k : Nat) (b : Byte) (h : m.wf = true) : (m.put k b).wf = true :=
  Cells.wf_put m.cells k b h

/-- Losing a range keeps the canonical form. -/
theorem Memory.wf_lose (m : Memory) (lo hi st : Nat) (h : m.wf = true) : (m.lose lo hi st).wf = true :=
  Cells.wf_drop m.cells lo hi h

/-- Writing bytes keeps the canonical form. -/
theorem Memory.wf_write (m : Memory) (k : Nat) (bs : List Byte) (h : m.wf = true) : (m.write k bs).wf = true := by
  induction bs generalizing m k with
  | nil => exact h
  | cons b t ih => exact ih (m.put k b) (k + 1) (Memory.wf_put m k b h)

/-- The memory after reset has the canonical form. -/
theorem Memory.wf_reset : State.reset.mem.wf = true := rfl

/-- A written byte reads back. -/
@[simp] theorem Memory.byte_put_self (m : Memory) (k : Nat) (b : Byte) : (m.put k b).byte k = b := by
  simp [Memory.byte, Memory.put, Cells.get?_put_self]

/-- Writing a byte changes no other byte. -/
theorem Memory.byte_put_other (m : Memory) {k a : Nat} (b : Byte) (h : a ≠ k) : (m.put k b).byte a = m.byte a := by
  simp [Memory.byte, Memory.put, Cells.get?_put_other m.cells b h]

/-- Writing bytes changes no byte outside them. -/
theorem Memory.byte_write_other (m : Memory) (k a : Nat) (bs : List Byte) (h : a < k ∨ k + bs.length ≤ a) :
    (m.write k bs).byte a = m.byte a := by
  induction bs generalizing m k with
  | nil => rfl
  | cons b t ih =>
    simp only [List.length_cons] at h
    simp only [Memory.write]
    rw [ih (m.put k b) (k + 1) (by omega), Memory.byte_put_other m b (by omega)]

/-- Each written byte reads back. -/
theorem Memory.byte_write_at (m : Memory) (k i : Nat) (bs : List Byte) (h : i < bs.length) :
    (m.write k bs).byte (k + i) = bs[i] := by
  induction bs generalizing m k i with
  | nil => simp at h
  | cons b t ih =>
    simp only [Memory.write]
    cases i with
    | zero => rw [Memory.byte_write_other _ _ _ _ (by omega)]; simp
    | succ i =>
      have := ih (m.put k b) (k + 1) i (by simpa using h)
      rw [show k + (i + 1) = k + 1 + i by omega, this]; rfl

/-- Reading gives as many bytes as asked. -/
@[simp] theorem Memory.length_read (m : Memory) (k n : Nat) : (m.read k n).length = n := by
  induction n generalizing k with
  | zero => rfl
  | succ n ih => simp [Memory.read, ih]

/-- What was written is what is read. -/
theorem Memory.read_write_self (m : Memory) (k : Nat) (bs : List Byte) : (m.write k bs).read k bs.length = bs := by
  have key : ∀ (m : Memory) (k n : Nat) (l : List Byte), l.length = n → (∀ i (h : i < l.length), m.byte (k + i) = l[i]) →
      m.read k n = l := by
    intro m k n
    induction n generalizing k with
    | zero => intro l hl _; cases l with
      | nil => rfl
      | cons _ _ => simp at hl
    | succ n ih =>
      intro l hl h
      cases l with
      | nil => simp at hl
      | cons b t =>
        simp only [Memory.read]
        have h0 := h 0 (by simp)
        simp only [Nat.add_zero, List.getElem_cons_zero] at h0
        rw [h0, ih (k + 1) t (by simpa using hl)]
        intro i hi
        have := h (i + 1) (by simpa using hi)
        rw [show k + 1 + i = k + (i + 1) by omega, this]; rfl
  exact key _ _ _ _ rfl (fun i hi => Memory.byte_write_at m k i bs hi)

/-! ## The register file -/

/-- Storing a copy keeps the canonical form. -/
theorem State.wf_setCopy (s : State) (f : Fld) (i c v : Nat) (h : Cells.wf s.regs = true) :
    Cells.wf (s.setCopy f i c v).regs = true := Cells.wf_set s.regs _ _ _ h

/-- Setting a field keeps the canonical form. -/
theorem State.wf_setRg (s : State) (f : Fld) (i v : Nat) (h : Cells.wf s.regs = true) : Cells.wf (s.setRg f i v).regs = true := by
  unfold State.setRg; split
  · exact State.wf_setCopy _ _ _ _ _ (State.wf_setCopy _ _ _ _ _ (State.wf_setCopy _ _ _ _ _ h))
  · exact State.wf_setCopy _ _ _ _ _ h

theorem State.copyOf_setCopy_self (s : State) (f : Fld) (i c v : Nat) (h : Cells.wf s.regs = true) :
    (s.setCopy f i c v).copyOf f i c = v := Cells.getD_set_self s.regs _ _ _ h

theorem State.copyOf_setCopy_other (s : State) (f g : Fld) (i j c d v : Nat) (h : Cells.wf s.regs = true)
    (hk : g.key j d ≠ f.key i c) : (s.setCopy f i c v).copyOf g j d = s.copyOf g j d := by
  unfold State.copyOf State.setCopy Cells.set Cells.getD
  split
  · rw [Cells.get?_del_other s.regs hk h]
  · rw [Cells.get?_put_other s.regs _ hk]

/-- The vote of three equal copies. -/
@[simp] theorem vote_self (a : Nat) : vote a a a = a := by simp [vote]

/-- The keys of different fields, or of different indices below 2^20, differ. -/
theorem Fld.key_ne (f g : Fld) (i j c d : Nat) (hi : i < 2 ^ 20) (hj : j < 2 ^ 20) (hc : c < 4) (hd : d < 4)
    (h : g.id ≠ f.id ∨ j ≠ i ∨ d ≠ c) : g.key j d ≠ f.key i c := by
  unfold Fld.key; omega

/-- A field that was set reads as the low bits of the value. -/
theorem State.rg_setRg_self (s : State) (f : Fld) (i v : Nat) (h : Cells.wf s.regs = true) :
    (s.setRg f i v).rg f i = v % 2 ^ f.w := by
  unfold State.setRg State.rg
  by_cases ht : f.acc = .tv
  · simp only [ht, if_true]
    have h1 := State.wf_setCopy s f i 0 (v % 2 ^ f.w) h
    have h2 := State.wf_setCopy _ f i 1 (v % 2 ^ f.w) h1
    rw [State.copyOf_setCopy_self _ _ _ _ _ h2, State.copyOf_setCopy_other _ f f i i 2 1 _ h2 (by unfold Fld.key; omega),
      State.copyOf_setCopy_self _ _ _ _ _ h1, State.copyOf_setCopy_other _ f f i i 2 0 _ h2 (by unfold Fld.key; omega),
      State.copyOf_setCopy_other _ f f i i 1 0 _ h1 (by unfold Fld.key; omega), State.copyOf_setCopy_self _ _ _ _ _ h,
      vote_self]
  · simp only [ht, if_false]; exact State.copyOf_setCopy_self _ _ _ _ _ h

/-- Setting a field changes no other field and no other index. -/
theorem State.rg_setRg_other (s : State) (f g : Fld) (i j v : Nat) (h : Cells.wf s.regs = true) (hi : i < 2 ^ 20)
    (hj : j < 2 ^ 20) (hn : g.id ≠ f.id ∨ j ≠ i) : (s.setRg f i v).rg g j = s.rg g j := by
  have key : ∀ c d, c < 4 → d < 4 → g.key j d ≠ f.key i c := by intros; unfold Fld.key; omega
  have one : ∀ (s : State) (c d : Nat), c < 4 → d < 4 → Cells.wf s.regs = true →
      (s.setCopy f i c (v % 2 ^ f.w)).copyOf g j d = s.copyOf g j d :=
    fun s c d hc hd hs => State.copyOf_setCopy_other s f g i j c d _ hs (key c d hc hd)
  have all : ∀ d, d < 4 → (s.setRg f i v).copyOf g j d = s.copyOf g j d := by
    intro d hd
    unfold State.setRg; split
    · rw [one _ 2 d (by omega) hd (State.wf_setCopy _ _ _ _ _ (State.wf_setCopy _ _ _ _ _ h)),
        one _ 1 d (by omega) hd (State.wf_setCopy _ _ _ _ _ h), one _ 0 d (by omega) hd h]
    · exact one _ 0 d (by omega) hd h
  unfold State.rg
  rw [all 0 (by omega), all 1 (by omega), all 2 (by omega)]

end Sys2Proof.Machine
end

