-- ==== Sys2Proof/Tests/Slice0.lean ====
section
/-!
SUPPORT. Tests of the model: ill-formed commands are refused by the well-formedness check; results written out from the
rules of spec/; and, for each statement with hypotheses, concrete states and operands that meet them.
-/
namespace Sys2Proof.Tests
open Sys2Proof Sys2Proof.Machine
set_option Elab.async false

/-- Each list holds, for the commands of one shape, a term outside each range that the shape has: none is well formed. -/
theorem test_wf_refuses_domain_and_tiles : [
    (([.registerWrite, .sqStatusWrite, .aliasSet, .aliasClear, .aliasToggle, .tvFieldWrite] : List (Req → Blk → Nat → Nat →
      BitVec 32 → Instr)).all fun f => [f (.iw 2) .system 0 0 0, f (.core (.tile 256)) .system 0 0 0, f (.plotFn 128) .system
      0 0 0, f .bar0 .system 256 0 0, f .bar0 .system 0 4194304 0].all fun i => !i.wf),
    (([.tvVoteScrub] : List (Blk → Nat → Nat → Instr)).all fun f => [f .system 0 1048576].all fun i => !i.wf),
    (([.counterPairLowRead] : List (Req → Blk → Nat → Nat → Instr)).all fun f => [f (.iw 2) .system 0 0, f (.core (.tile 256))
      .system 0 0, f (.plotFn 128) .system 0 0, f .bar0 .system 256 0, f .bar0 .system 0 4194304].all fun i => !i.wf),
    (([.bootSelfTestDone] : List (Nat → SelfTest → Instr)).all fun f => [f 4 ⟨[], 0, [], 0, 0⟩].all fun i => !i.wf),
    (([.formSymbol] : List (Nat → Nat → Nat → Nat → Instr)).all fun f => [f 24 0 0 0, f 0 4294967296 0 0, f 0 0 256 0, f 0 0 0
      16].all fun i => !i.wf),
    (([.nextPeriodWrite] : List (Nat → Nat → Instr)).all fun f => [f 4096 0, f 0 18446744073709551616].all fun i => !i.wf),
    (([.doneSymbol] : List (Nat → Nat → Instr)).all fun f => [f 24 0, f 0 16777216].all fun i => !i.wf),
    (([.tickSymbol] : List (Nat → Nat → Nat → Nat → Instr)).all fun f => [f 24 0 0 0, f 0 16777216 0 0, f 0 0 4 0, f 0 0 0
      4294967296].all fun i => !i.wf),
    (([.abortTick] : List (Nat → Option Nat → Instr)).all fun f => [f 3 none].all fun i => !i.wf),
    (([.timeSymbol] : List (Nat → Nat → Instr)).all fun f => [f 24 0, f 0 281474976710656].all fun i => !i.wf),
    (([.arm, .armSame, .armVisibleOpenBeat, .matrixRow, .vectorRow, .moveRow, .exchangeRow, .anchorExchangeRow, .waitRow,
      .waitConditionMet, .markNote, .markExport, .markStamp, .perfClr, .cacheInv, .probeTimeout, .portEnWrite,
      .replayDrainDone] : List (Nat → Instr)).all fun f => [f 256].all fun i => !i.wf),
    (([.disarm, .seedlingRun] : List (Nat → Bool → Instr)).all fun f => [f 256 true].all fun i => !i.wf),
    (([.rowComplete] : List (Nat → Nat → Nat → Nat → Instr)).all fun f => [f 256 0 0 0, f 0 4096 0 0, f 0 0 4 0].all fun i =>
      !i.wf),
    (([.exchangeAck] : List (Nat → Nat → Instr)).all fun f => [f 256 0, f 0 4096].all fun i => !i.wf),
    (([.heldPacketRelease] : List (Nat → Nat → Instr)).all fun f => [f 256 0].all fun i => !i.wf),
    (([.add, .sub, .and, .or, .xor, .shl, .shr, .sar, .cmplt, .cmpltu, .mul, .min, .max, .fadd, .fsub, .fmul, .fmin, .fmax] :
      List (CoreId → Bool → Nat → Nat → Nat → Instr)).all fun f => [f (.tile 256) true 0 0 0, f (.hub 16) true 0 0 0, f
      (.tile 0) true 32 0 0, f (.tile 0) true 0 32 0, f (.tile 0) true 0 0 32, f (.tile 0) false 8 0 0, f (.tile 0) false 0 8
      0, f (.tile 0) false 0 0 8].all fun i => !i.wf)].all id = true := by decide +kernel

/-- Each list holds, for the commands of one shape, a term outside each range that the shape has: none is well formed. -/
theorem test_wf_refuses_cores : [
    (([.mulhi, .mulhiu, .div, .divu, .rem, .remu, .minu, .maxu, .atadd, .atswap, .fdiv, .fcmp, .tli] : List (CoreId → Nat → Nat →
      Nat → Instr)).all fun f => [f (.tile 256) 0 0 0, f (.hub 16) 0 0 0, f (.tile 0) 32 0 0, f (.tile 0) 0 32 0, f (.tile 0)
      0 0 32].all fun i => !i.wf),
    (([.clz, .popc, .fsqrt, .fcvtfi, .fcvtfu, .fcvtif, .fcvtifr, .fcvtuf] : List (CoreId → Nat → Nat → Instr)).all fun f => [f
      (.tile 256) 0 0, f (.hub 16) 0 0, f (.tile 0) 32 0, f (.tile 0) 0 32].all fun i => !i.wf),
    (([.madd, .atcas, .fma] : List (CoreId → Nat → Nat → Nat → Nat → Instr)).all fun f => [f (.tile 256) 0 0 0 0, f (.hub 16) 0 0
      0 0, f (.tile 0) 32 0 0 0, f (.tile 0) 0 32 0 0, f (.tile 0) 0 0 32 0, f (.tile 0) 0 0 0 32].all fun i => !i.wf),
    (([.addi, .andi, .ori, .cmplti] : List (CoreId → Bool → Nat → Nat → Nat → Instr)).all fun f => [f (.tile 256) true 0 0 0, f
      (.hub 16) true 0 0 0, f (.tile 0) true 32 0 0, f (.tile 0) true 0 32 0, f (.tile 0) true 0 0 65536, f (.tile 0) false 8
      8 0, f (.tile 0) false 0 0 256, f (.tile 0) false 0 1 0].all fun i => !i.wf),
    (([.movi] : List (CoreId → Bool → Nat → Nat → Instr)).all fun f => [f (.tile 256) true 0 0, f (.hub 16) true 0 0, f (.tile 0)
      true 32 0, f (.tile 0) true 0 2097152, f (.tile 0) false 8 0, f (.tile 0) false 0 256].all fun i => !i.wf),
    (([.xori, .cmpltiu, .cbeq, .cbne, .cblt, .cbge, .cbltu, .cbgeu] : List (CoreId → Nat → Nat → Nat → Instr)).all fun f => [f
      (.tile 256) 0 0 0, f (.hub 16) 0 0 0, f (.tile 0) 32 0 0, f (.tile 0) 0 32 0, f (.tile 0) 0 0 65536].all fun i =>
      !i.wf),
    (([.shli, .shri, .sari] : List (CoreId → Bool → Nat → Nat → Nat → Instr)).all fun f => [f (.tile 256) true 0 0 0, f (.hub 16)
      true 0 0 0, f (.tile 0) true 32 0 0, f (.tile 0) true 0 32 0, f (.tile 0) true 0 0 64, f (.tile 0) false 8 8 0, f
      (.tile 0) false 0 0 64, f (.tile 0) false 0 1 0].all fun i => !i.wf),
    (([.addsp, .trap] : List (CoreId → Nat → Instr)).all fun f => [f (.tile 256) 0, f (.hub 16) 0, f (.tile 0) 65536].all fun i
      => !i.wf),
    (([.ldhi, .pcrel] : List (CoreId → Nat → Nat → Instr)).all fun f => [f (.tile 256) 0 0, f (.hub 16) 0 0, f (.tile 0) 32 0, f
      (.tile 0) 0 2097152].all fun i => !i.wf),
    (([.ldw, .stw] : List (CoreId → Bool → Nat → Nat → Nat → Instr)).all fun f => [f (.tile 256) true 0 0 0, f (.hub 16) true 0 0
      0, f (.tile 0) true 32 0 0, f (.tile 0) true 0 32 0, f (.tile 0) true 0 0 65536, f (.tile 0) false 8 0 0, f (.tile 0)
      false 0 8 0, f (.tile 0) false 0 0 256].all fun i => !i.wf),
    (([.spwLoad, .spwStore] : List (CoreId → Nat → Nat → Instr)).all fun f => [f (.tile 256) 0 0, f (.hub 16) 0 0, f (.tile 0) 8
      0, f (.tile 0) 0 1024].all fun i => !i.wf),
    (([.ldf, .stf] : List (CoreId → Nat → Nat → Nat → Instr)).all fun f => [f (.tile 256) 0 0 0, f (.hub 16) 0
      0 0, f (.tile 0) 32 0 0, f (.tile 0) 0 32 0, f (.tile 0) 0 0 65536].all fun i => !i.wf),
    (([.ldl, .ldls, .stl] : List (CoreId → Nat → Nat → LaneOff → Instr)).all fun f => [f (.tile 256) 0 0 (.long 0), f (.hub 16) 0
      0 (.short 0), f (.tile 0) 32 0 (.long 0), f (.tile 0) 0 32 (.long 0), f (.tile 0) 0 0 (.long 65536), f (.tile 0) 8 0
      (.short 0), f (.tile 0) 0 8 (.short 0), f (.tile 0) 0 0 (.short 128)].all fun i => !i.wf),
    (([.blkld, .blkst, .tliv] : List (CoreId → Nat → Nat → Nat → Nat → Nat → Instr)).all fun f => [f (.tile 256) 0 0 0 0 0, f
      (.hub 16) 0 0 0 0 0, f (.tile 0) 32 0 0 0 0, f (.tile 0) 0 32 0 0 0, f (.tile 0) 0 0 32 0 0, f (.tile 0) 0 0 0 32
      0].all fun i => !i.wf),
    (([.wcopy] : List (CoreId → Nat → Nat → Nat → Nat → Instr)).all fun f => [f (.tile 256) 0 0 0 0, f (.hub 16) 0 0 0 0, f
      (.tile 0) 32 0 0 0, f (.tile 0) 0 32 0 0, f (.tile 0) 0 0 32 0].all fun i => !i.wf),
    (([.nop, .ret, .fence, .eret, .wfi, .interruptEntry, .timerExpire] : List (CoreId → Instr)).all fun f => [f (.tile 256), f
      (.hub 16)].all fun i => !i.wf),
    (([.mov, .neg, .not] : List (CoreId → Nat → Nat → Instr)).all fun f => [f (.tile 256) 0 0, f (.hub 16) 0 0, f (.tile 0) 8 0,
      f (.tile 0) 0 8].all fun i => !i.wf),
    (([.callr, .jr, .push, .pop] : List (CoreId → Nat → Instr)).all fun f => [f (.tile 256) 0, f (.hub 16) 0, f (.tile 0) 8].all
      fun i => !i.wf),
    (([.bcz] : List (CoreId → Nat → Nat → Nat → Instr)).all fun f => [f (.tile 256) 0 0 0, f (.hub 16) 0 0 0, f (.tile 0) 6 0 0,
      f (.tile 0) 0 8 0, f (.tile 0) 0 0 256].all fun i => !i.wf),
    (([.br] : List (CoreId → Nat → Instr)).all fun f => [f (.tile 256) 0, f (.hub 16) 0, f (.tile 0) 16384].all fun i => !i.wf),
    (([.j, .call] : List (CoreId → Nat → Instr)).all fun f => [f (.tile 256) 0, f (.hub 16) 0, f (.tile 0) 2097152].all fun i =>
      !i.wf),
    (([.mfs, .mts] : List (CoreId → Nat → Nat → Instr)).all fun f => [f (.tile 256) 0 0, f (.hub 16) 0 0, f (.tile 0) 32 0, f
      (.tile 0) 0 4096].all fun i => !i.wf),
    (([.msgvalPop, .ctrctlClr] : List (CoreId → Nat → Instr)).all fun f => [f (.tile 256) 0, f (.hub 16) 0, f (.tile 0) 32].all
      fun i => !i.wf),
    (([.cwset, .cwclr] : List (CoreId → Nat → Instr)).all fun f => [f (.tile 256) 0, f (.hub 16) 0, f (.tile 0) 1024].all fun i
      => !i.wf),
    (([.fneg, .fabs] : List (CoreId → Bool → Nat → Nat → Instr)).all fun f => [f (.tile 256) true 0 0, f (.hub 16) true 0 0, f
      (.tile 0) true 32 0, f (.tile 0) true 0 32, f (.tile 0) false 8 0, f (.tile 0) false 0 8].all fun i => !i.wf),
    (([.fpack, .funpack] : List (CoreId → Nat → Nat → Nat → Bool → Instr)).all fun f => [f (.tile 256) 0 0 6 true, f (.hub 16) 0
      0 6 true, f (.tile 0) 32 0 6 true, f (.tile 0) 0 32 6 true, f (.tile 0) 0 0 11 true, f (.tile 0) 0 0 5 true].all fun i
      => !i.wf),
    (([.trapEntry] : List (CoreId → Nat → Bool → BitVec 36 → Instr)).all fun f => [f (.tile 256) 1 true 0, f (.hub 16) 1 true 0,
      f (.tile 0) 11 true 0, f (.tile 0) 0 true 0].all fun i => !i.wf),
    (([.msgInWrite] : List (Req → CoreId → Nat → Instr)).all fun f => [f (.iw 2) (.tile 0) 0, f (.core (.tile 256)) (.tile 0) 0,
      f (.plotFn 128) (.tile 0) 0, f .bar0 (.tile 256) 0, f .bar0 (.hub 16) 0, f .bar0 (.tile 0) 4294967296].all fun i =>
      !i.wf),
    (([.cacheCtrlWrite] : List (Nat → Nat → BitVec 32 → Instr)).all fun f => [f 256 0 0, f 0 9 0].all fun i => !i.wf),
    (([.cacheMissFill] : List (Nat → Nat → Instr)).all fun f => [f 256 0, f 0 549755813888].all fun i => !i.wf)].all id = true := by decide +kernel

/-- Each list holds, for the commands of one shape, a term outside each range that the shape has: none is well formed. -/
theorem test_wf_refuses_memory_and_links : [
    (([.hbmEccError] : List (Nat → Nat → HbmReq → Instr)).all fun f => [f 549755813888 0 .scrub, f 0 3 .scrub].all fun i =>
      !i.wf),
    (([.hbmRefresh] : List (Nat → Nat → Instr)).all fun f => [f 6 0, f 0 32].all fun i => !i.wf),
    (([.reservedSlot] : List (Nat → Nat → Bool → Instr)).all fun f => [f 6 0 true, f 0 32 true].all fun i => !i.wf),
    (([.scrubOperation, .opportunisticScrub] : List (Nat → Nat → Nat → Instr)).all fun f => [f 6 0 0, f 0 32 0].all fun i =>
      !i.wf),
    (([.furrowEn] : List (Nat → Nat → Bool → Instr)).all fun f => [f 256 0 true, f 0 16 true].all fun i => !i.wf),
    (([.furrowStop] : List (Nat → Nat → Instr)).all fun f => [f 256 0, f 0 16].all fun i => !i.wf),
    (([.furrowRequestIssue] : List (Nat → Nat → Instr)).all fun f => [f 256 0, f 0 2].all fun i => !i.wf),
    (([.furrowLineLand] : List (Nat → Nat → Nat → Nat → Nat → Instr)).all fun f => [f 256 0 0 0 0, f 0 16 0 0 0, f 0 0 0 0 2].all
      fun i => !i.wf),
    (([.flitRx] : List (Nat → List Byte → List (Nat × Byte) → Instr)).all fun f => [f 24 [] []].all fun i => !i.wf),
    (([.nakSymbol] : List (Nat → Nat → Instr)).all fun f => [f 24 0, f 0 1024].all fun i => !i.wf),
    (([.creditSymbol] : List (Nat → Nat → Nat → Instr)).all fun f => [f 24 0 0, f 0 8 0, f 0 0 4096].all fun i => !i.wf),
    (([.lstateSymbol] : List (Nat → Nat → Nat → Bool → Nat → Instr)).all fun f => [f 24 0 0 true 0, f 0 256 0 true 0, f 0 0 32
      true 0, f 0 0 0 true 4096].all fun i => !i.wf),
    (([.probeSymbol, .probeReply] : List (Nat → Nat → Nat → Nat → Instr)).all fun f => [f 24 0 0 0, f 0 256 0 0, f 0 0 256 0, f 0
      0 0 256].all fun i => !i.wf),
    (([.laneDropSymbol] : List (Nat → Nat → Bool → Instr)).all fun f => [f 24 0 true, f 0 256 true].all fun i => !i.wf),
    (([.laneDeskewDone, .laneCeWindow, .linkSignalDetect, .linkTimeout, .retrain, .retrainTimeout] : List (Nat → Instr)).all fun
      f => [f 24].all fun i => !i.wf),
    (([.laneLockLost] : List (Nat → Nat → Instr)).all fun f => [f 24 0, f 0 8].all fun i => !i.wf),
    (([.negSymbol] : List (Nat → Nat → Nat → Instr)).all fun f => [f 24 0 0, f 0 16 0, f 0 0 4294967296].all fun i => !i.wf),
    (([.negotiationComplete] : List (Nat → Nat → Instr)).all fun f => [f 24 0, f 0 4096].all fun i => !i.wf),
    (([.ackTimer, .pageWaitTimeout, .pageResolved] : List (Nat → Nat → Nat → Instr)).all fun f => [f 256 0 0, f 0 4 0, f 0 0
      8192].all fun i => !i.wf),
    (([.rtoExpire] : List (Nat → Nat → Instr)).all fun f => [f 3 0, f 0 4096].all fun i => !i.wf),
    (([.readRespTimeout] : List (Nat → Nat → Nat → Instr)).all fun f => [f 4 0 0, f 0 8192 0, f 0 0 16777216].all fun i => !i.wf),
    (([.resendDelayExpire] : List (Nat → Nat → Instr)).all fun f => [f 4 0, f 0 8192].all fun i => !i.wf),
    (([.frameRx] : List (Nat → List Byte → Bool → Instr)).all fun f => [f 8 [] true].all fun i => !i.wf),
    (([.sieveGo, .snap] : List (Nat → Bool → Instr)).all fun f => [f 65536 true].all fun i => !i.wf),
    (([.tableEnWrite] : List (Nat → Bool → Nat → Nat → Instr)).all fun f => [f 16 true 0 0, f 0 true 4 0, f 0 true 0 32].all fun
      i => !i.wf),
    (([.portModeWrite, .stashModeWrite] : List (Nat → Instr)).all fun f => [f 4].all fun i => !i.wf),
    (([.ethPortUp, .ethPortDown, .schedDecision, .frameTxDone] : List (Nat → Instr)).all fun f => [f 8].all fun i => !i.wf),
    (([.ctxOpen, .ctxClose, .ctxClear] : List (Nat → Bool → Instr)).all fun f => [f 8192 true].all fun i => !i.wf),
    (([.udpWrite, .udpRead, .udpReadResp, .udpSend, .udpAck, .udpPageWait, .udpPageRetry, .udpNackErr, .roceSend, .roceRdmaWrite,
      .roceRdmaReadRequest, .roceReadResponse, .roceAcknowledge, .roceCnp] : List (Nat → Instr)).all fun f => [f 64].all fun
      i => !i.wf),
    (([.rtoExpireE, .roceRnrTimer] : List (Nat → Instr)).all fun f => [f 8192].all fun i => !i.wf)].all id = true := by decide +kernel

/-- Each list holds, for the commands of one shape, a term outside each range that the shape has: none is well formed. -/
theorem test_wf_refuses_services : [
    (([.shpBurstWrite] : List (Nat → Nat → Nat → Nat → Bool → Instr)).all fun f => [f 8 0 0 0 true, f 0 128 0 0 true, f 0 0
      16777216 0 true, f 0 0 0 4 true].all fun i => !i.wf),
    (([.policerPenWrite] : List (Nat → Nat → Nat → Bool → Nat → Instr)).all fun f => [f 8 0 0 true 0, f 0 16 0 true 0, f 0 0 128
      true 0, f 0 0 0 true 1048576].all fun i => !i.wf),
    (([.ringDoorbell] : List (Nat → Nat → Nat → Instr)).all fun f => [f 128 0 0, f 0 64 0, f 0 0 4294967296].all fun i => !i.wf),
    (([.doorbellSample, .postBuf, .xferRead, .stashRead, .stashWrite, .stashZero, .stashFlush] : List (Nat → Nat → Instr)).all
      fun f => [f 128 0, f 0 64].all fun i => !i.wf),
    (([.eqDoorbell] : List (Nat → Nat → Nat → Instr)).all fun f => [f 128 0 0, f 0 16 0, f 0 0 4294967296].all fun i => !i.wf),
    (([.sendFrame, .xferWrite, .xferSend] : List (Nat → Nat → List Byte → Instr)).all fun f => [f 128 0 [], f 0 64 []].all fun i
      => !i.wf),
    (([.copy] : List (Nat → Nat → Nat → List Byte → Instr)).all fun f => [f 128 0 0 [], f 0 64 0 []].all fun i => !i.wf),
    (([.descriptorComplete] : List (Nat → Nat → Nat → Instr)).all fun f => [f 128 0 0, f 0 64 0, f 0 0 65536].all fun i => !i.wf),
    (([.msixModTimer] : List (Nat → Nat → Instr)).all fun f => [f 128 0, f 0 16].all fun i => !i.wf),
    (([.msixUnmask] : List (Nat → Nat → Bool → Nat → Nat → Instr)).all fun f => [f 128 0 true 0 0, f 0 64 true 0 0, f 0 0 true
      18446744073709551616 0, f 0 0 true 0 4294967296].all fun i => !i.wf),
    (([.exportDeliver] : List (Nat → Instr)).all fun f => [f 1024].all fun i => !i.wf),
    (([.quiesceTimeout, .mbDb, .mbReplyDb, .flrPlot, .vfDisable, .vfEnable] : List (Nat → Instr)).all fun f => [f 128].all fun i
      => !i.wf),
    (([.pieceSubmit] : List (Nat → List Byte → Instr)).all fun f => [f 16 []].all fun i => !i.wf),
    (([.pieceComplete] : List (Nat → Nat → Nat → Nat → List Byte → Bool → Instr)).all fun f => [f 0 0 8 0 [] true, f 0 0 0 256 []
      true].all fun i => !i.wf),
    (([.abortTimeout] : List (Nat → Instr)).all fun f => [f 16].all fun i => !i.wf),
    (([.driveFail] : List (Nat → Nat → Instr)).all fun f => [f 16 0, f 0 4].all fun i => !i.wf),
    (([.driveReady] : List (Nat → DriveId → Instr)).all fun f => [f 16 ⟨0, false, 12, [], []⟩].all fun i => !i.wf),
    (([.gcmEnc, .gmacVer, .cmacVer] : List (Nat → List Byte → List Byte → Option Nat → Instr)).all fun f => [f 8 [] [] none].all
      fun i => !i.wf),
    (([.gcmDec] : List (Nat → List Byte → List Byte → List Byte → Option Nat → Instr)).all fun f => [f 8 [] [] [] none].all fun i
      => !i.wf),
    (([.gmacGen, .cmacGen] : List (Nat → List Byte → Option Nat → Instr)).all fun f => [f 8 [] none].all fun i => !i.wf),
    (([.cipherComplete] : List (Nat → Bool → Instr)).all fun f => [f 8 true].all fun i => !i.wf),
    (([.cipherGo, .claim, .renew, .release, .sign] : List (Nat → Instr)).all fun f => [f 18].all fun i => !i.wf),
    (([.spareCopyDone] : List (Nat → CopyEnd → Instr)).all fun f => [f 256 (.good [])].all fun i => !i.wf),
    (([.greenhouseResult] : List (Nat → Nat → Nat → Bool → Instr)).all fun f => [f 3 0 0 true, f 0 256 0 true, f 0 0 256
      true].all fun i => !i.wf),
    (([.cowHold] : List (Nat → Instr)).all fun f => [f 549755813888].all fun i => !i.wf),
    (([.cowCopyDone] : List (Nat → Nat → Instr)).all fun f => [f 8388608 0].all fun i => !i.wf),
    (([.checkpointFail] : List (Nat → Nat → Instr)).all fun f => [f 6 0, f 1 256, f 0 0].all fun i => !i.wf),
    (([.hubAoResetRelease, .fuseRetry, .recoveryReboot] : List (List FuseRead → Nat → List Nat → Instr)).all fun f => [f [] 65536
      []].all fun i => !i.wf),
    (([.compartmentRestart] : List (Nat → Nat → Bool → Instr)).all fun f => [f 10 0 true, f 0 32 true].all fun i => !i.wf),
    (([.iwDataRead] : List (Req → Nat → Instr)).all fun f => [f (.iw 2) 0, f (.core (.tile 256)) 0, f (.plotFn 128) 0, f .bar0
      3].all fun i => !i.wf),
    (([.iwDataWrite] : List (Req → BitVec 32 → Nat → Instr)).all fun f => [f (.iw 2) 0 0, f (.core (.tile 256)) 0 0, f (.plotFn
      128) 0 0, f .bar0 0 3].all fun i => !i.wf),
    (([.coreHoldWrite] : List (Req → Nat → BitVec 32 → Instr)).all fun f => [f (.iw 2) 0 0, f (.core (.tile 256)) 0 0, f (.plotFn
      128) 0 0, f .bar0 9 0].all fun i => !i.wf),
    (([.mctpControl] : List (Nat → Nat → List Byte → Instr)).all fun f => [f 32 0 [], f 0 256 []].all fun i => !i.wf),
    (([.getTid, .getPldmTypes] : List (Nat → Instr)).all fun f => [f 32].all fun i => !i.wf),
    (([.getPldmVersion, .getPldmCommands] : List (Nat → Nat → Instr)).all fun f => [f 32 0, f 0 64].all fun i => !i.wf),
    (([.getPdr] : List (Nat → Nat → Instr)).all fun f => [f 32 0, f 0 4294967296].all fun i => !i.wf),
    (([.getSensorReading, .pollForPlatformEventMessage] : List (Nat → Nat → Instr)).all fun f => [f 32 0, f 0 65536].all fun i =>
      !i.wf),
    (([.readEvents] : List (Nat → Instr)).all fun f => [f 18446744073709551616].all fun i => !i.wf),
    (([.thermalTrip] : List (Nat → Instr)).all fun f => [f 5].all fun i => !i.wf),
    (([.powerWindow] : List (Nat → Instr)).all fun f => [f 65536].all fun i => !i.wf),
    (([.thermalSample] : List (Nat → Nat → List Nat → Instr)).all fun f => [f 4096 0 [], f 0 4096 []].all fun i => !i.wf),
    (([.pcieLinkTrained] : List (Nat → Nat → Bool → Instr)).all fun f => [f 4 0 true, f 0 17 true].all fun i => !i.wf)].all id = true := by decide +kernel

/-- The greatest operands of each shape are well formed. -/
theorem test_wf_accepts_domain_and_tiles : [
    (([.registerWrite, .sqStatusWrite, .aliasSet, .aliasClear, .aliasToggle, .tvFieldWrite] : List (Req → Blk → Nat → Nat →
      BitVec 32 → Instr)).all fun f => [f (.plotFn 127) .dvport 255 4194303 0].all Instr.wf),
    (([.tvVoteScrub] : List (Blk → Nat → Nat → Instr)).all fun f => [f .dvport 0 1048575].all Instr.wf),
    (([.counterPairLowRead] : List (Req → Blk → Nat → Nat → Instr)).all fun f => [f (.plotFn 127) .dvport 255 4194303].all
      Instr.wf),
    (([.bootSelfTestDone] : List (Nat → SelfTest → Instr)).all fun f => [f 3 ⟨[], 0, [], 0, 0⟩].all Instr.wf),
    (([.formSymbol] : List (Nat → Nat → Nat → Nat → Instr)).all fun f => [f 23 4294967295 255 15].all Instr.wf),
    (([.nextPeriodWrite] : List (Nat → Nat → Instr)).all fun f => [f 4095 18446744073709551615].all Instr.wf),
    (([.doneSymbol] : List (Nat → Nat → Instr)).all fun f => [f 23 16777215].all Instr.wf),
    (([.tickSymbol] : List (Nat → Nat → Nat → Nat → Instr)).all fun f => [f 23 16777215 3 4294967295].all Instr.wf),
    (([.abortTick] : List (Nat → Option Nat → Instr)).all fun f => [f 2 none].all Instr.wf),
    (([.timeSymbol] : List (Nat → Nat → Instr)).all fun f => [f 23 281474976710655].all Instr.wf),
    (([.arm, .armSame, .armVisibleOpenBeat, .matrixRow, .vectorRow, .moveRow, .exchangeRow, .anchorExchangeRow, .waitRow,
      .waitConditionMet, .markNote, .markExport, .markStamp, .perfClr, .cacheInv, .probeTimeout, .portEnWrite,
      .replayDrainDone] : List (Nat → Instr)).all fun f => [f 255].all Instr.wf),
    (([.disarm, .seedlingRun] : List (Nat → Bool → Instr)).all fun f => [f 255 true].all Instr.wf),
    (([.rowComplete] : List (Nat → Nat → Nat → Nat → Instr)).all fun f => [f 255 4095 3 0].all Instr.wf),
    (([.exchangeAck] : List (Nat → Nat → Instr)).all fun f => [f 255 4095].all Instr.wf),
    (([.heldPacketRelease] : List (Nat → Nat → Instr)).all fun f => [f 255 0].all Instr.wf),
    (([.add, .sub, .and, .or, .xor, .shl, .shr, .sar, .cmplt, .cmpltu, .mul, .min, .max, .fadd, .fsub, .fmul, .fmin, .fmax] :
      List (CoreId → Bool → Nat → Nat → Nat → Instr)).all fun f => [f (.tile 255) true 31 31 31, f (.tile 255) false 7 7
      7].all Instr.wf)].all id = true := by decide +kernel

/-- The greatest operands of each shape are well formed. -/
theorem test_wf_accepts_cores : [
    (([.mulhi, .mulhiu, .div, .divu, .rem, .remu, .minu, .maxu, .atadd, .atswap, .fdiv, .fcmp, .tli] : List (CoreId → Nat → Nat →
      Nat → Instr)).all fun f => [f (.tile 255) 31 31 31].all Instr.wf),
    (([.clz, .popc, .fsqrt, .fcvtfi, .fcvtfu, .fcvtif, .fcvtifr, .fcvtuf] : List (CoreId → Nat → Nat → Instr)).all fun f => [f
      (.tile 255) 31 31].all Instr.wf),
    (([.madd, .atcas, .fma] : List (CoreId → Nat → Nat → Nat → Nat → Instr)).all fun f => [f (.tile 255) 31 31 31 31].all
      Instr.wf),
    (([.addi, .andi, .ori, .cmplti] : List (CoreId → Bool → Nat → Nat → Nat → Instr)).all fun f => [f (.tile 255) true 31 31
      65535, f (.tile 255) false 7 7 255].all Instr.wf),
    (([.movi] : List (CoreId → Bool → Nat → Nat → Instr)).all fun f => [f (.tile 255) true 31 2097151, f (.tile 255) false 7
      255].all Instr.wf),
    (([.xori, .cmpltiu, .cbeq, .cbne, .cblt, .cbge, .cbltu, .cbgeu] : List (CoreId → Nat → Nat → Nat → Instr)).all fun f => [f
      (.tile 255) 31 31 65535].all Instr.wf),
    (([.shli, .shri, .sari] : List (CoreId → Bool → Nat → Nat → Nat → Instr)).all fun f => [f (.tile 255) true 31 31 63, f (.tile
      255) false 7 7 63].all Instr.wf),
    (([.addsp, .trap] : List (CoreId → Nat → Instr)).all fun f => [f (.tile 255) 65535].all Instr.wf),
    (([.ldhi, .pcrel] : List (CoreId → Nat → Nat → Instr)).all fun f => [f (.tile 255) 31 2097151].all Instr.wf),
    (([.ldw, .stw] : List (CoreId → Bool → Nat → Nat → Nat → Instr)).all fun f => [f (.tile 255) true 31 31 65535, f (.tile 255)
      false 7 7 255].all Instr.wf),
    (([.spwLoad, .spwStore] : List (CoreId → Nat → Nat → Instr)).all fun f => [f (.tile 255) 7 1023].all Instr.wf),
    (([.ldf, .stf] : List (CoreId → Nat → Nat → Nat → Instr)).all fun f => [f (.tile 255) 31 31 65535].all Instr.wf),
    (([.ldl, .ldls, .stl] : List (CoreId → Nat → Nat → LaneOff → Instr)).all fun f => [f (.tile 255) 31 31 (.long 65535), f
      (.tile 255) 7 7 (.short 127)].all Instr.wf),
    (([.blkld, .blkst, .tliv] : List (CoreId → Nat → Nat → Nat → Nat → Nat → Instr)).all fun f => [f (.tile 255) 31 31 31 31
      0].all Instr.wf),
    (([.wcopy] : List (CoreId → Nat → Nat → Nat → Nat → Instr)).all fun f => [f (.tile 255) 31 31 31 0].all Instr.wf),
    (([.nop, .ret, .fence, .eret, .wfi, .interruptEntry, .timerExpire] : List (CoreId → Instr)).all fun f => [f (.tile 255)].all
      Instr.wf),
    (([.mov, .neg, .not] : List (CoreId → Nat → Nat → Instr)).all fun f => [f (.tile 255) 7 7].all Instr.wf),
    (([.callr, .jr, .push, .pop] : List (CoreId → Nat → Instr)).all fun f => [f (.tile 255) 7].all Instr.wf),
    (([.bcz] : List (CoreId → Nat → Nat → Nat → Instr)).all fun f => [f (.tile 255) 5 7 255].all Instr.wf),
    (([.br] : List (CoreId → Nat → Instr)).all fun f => [f (.tile 255) 16383].all Instr.wf),
    (([.j, .call] : List (CoreId → Nat → Instr)).all fun f => [f (.tile 255) 2097151].all Instr.wf),
    (([.mfs, .mts] : List (CoreId → Nat → Nat → Instr)).all fun f => [f (.tile 255) 31 4095].all Instr.wf),
    (([.msgvalPop, .ctrctlClr] : List (CoreId → Nat → Instr)).all fun f => [f (.tile 255) 31].all Instr.wf),
    (([.cwset, .cwclr] : List (CoreId → Nat → Instr)).all fun f => [f (.tile 255) 1023].all Instr.wf),
    (([.fneg, .fabs] : List (CoreId → Bool → Nat → Nat → Instr)).all fun f => [f (.tile 255) true 31 31, f (.tile 255) false 7
      7].all Instr.wf),
    (([.fpack, .funpack] : List (CoreId → Nat → Nat → Nat → Bool → Instr)).all fun f => [f (.tile 255) 31 31 10 true].all
      Instr.wf),
    (([.trapEntry] : List (CoreId → Nat → Bool → BitVec 36 → Instr)).all fun f => [f (.tile 255) 10 true 0].all Instr.wf),
    (([.msgInWrite] : List (Req → CoreId → Nat → Instr)).all fun f => [f (.plotFn 127) (.tile 255) 4294967295].all Instr.wf),
    (([.cacheCtrlWrite] : List (Nat → Nat → BitVec 32 → Instr)).all fun f => [f 255 8 0].all Instr.wf),
    (([.cacheMissFill] : List (Nat → Nat → Instr)).all fun f => [f 255 549755813887].all Instr.wf)].all id = true := by decide +kernel

/-- The greatest operands of each shape are well formed. -/
theorem test_wf_accepts_memory_and_links : [
    (([.hbmEccError] : List (Nat → Nat → HbmReq → Instr)).all fun f => [f 549755813887 2 .scrub].all Instr.wf),
    (([.hbmRefresh] : List (Nat → Nat → Instr)).all fun f => [f 5 31].all Instr.wf),
    (([.reservedSlot] : List (Nat → Nat → Bool → Instr)).all fun f => [f 5 31 true].all Instr.wf),
    (([.scrubOperation, .opportunisticScrub] : List (Nat → Nat → Nat → Instr)).all fun f => [f 5 31 0].all Instr.wf),
    (([.furrowEn] : List (Nat → Nat → Bool → Instr)).all fun f => [f 255 15 true].all Instr.wf),
    (([.furrowStop] : List (Nat → Nat → Instr)).all fun f => [f 255 15].all Instr.wf),
    (([.furrowRequestIssue] : List (Nat → Nat → Instr)).all fun f => [f 255 1].all Instr.wf),
    (([.furrowLineLand] : List (Nat → Nat → Nat → Nat → Nat → Instr)).all fun f => [f 255 15 0 0 1].all Instr.wf),
    (([.flitRx] : List (Nat → List Byte → List (Nat × Byte) → Instr)).all fun f => [f 23 [] []].all Instr.wf),
    (([.nakSymbol] : List (Nat → Nat → Instr)).all fun f => [f 23 1023].all Instr.wf),
    (([.creditSymbol] : List (Nat → Nat → Nat → Instr)).all fun f => [f 23 7 4095].all Instr.wf),
    (([.lstateSymbol] : List (Nat → Nat → Nat → Bool → Nat → Instr)).all fun f => [f 23 255 31 true 4095].all Instr.wf),
    (([.probeSymbol, .probeReply] : List (Nat → Nat → Nat → Nat → Instr)).all fun f => [f 23 255 255 255].all Instr.wf),
    (([.laneDropSymbol] : List (Nat → Nat → Bool → Instr)).all fun f => [f 23 255 true].all Instr.wf),
    (([.laneDeskewDone, .laneCeWindow, .linkSignalDetect, .linkTimeout, .retrain, .retrainTimeout] : List (Nat → Instr)).all fun
      f => [f 23].all Instr.wf),
    (([.laneLockLost] : List (Nat → Nat → Instr)).all fun f => [f 23 7].all Instr.wf),
    (([.negSymbol] : List (Nat → Nat → Nat → Instr)).all fun f => [f 23 15 4294967295].all Instr.wf),
    (([.negotiationComplete] : List (Nat → Nat → Instr)).all fun f => [f 23 4095].all Instr.wf),
    (([.ackTimer, .pageWaitTimeout, .pageResolved] : List (Nat → Nat → Nat → Instr)).all fun f => [f 255 3 8191].all Instr.wf),
    (([.rtoExpire] : List (Nat → Nat → Instr)).all fun f => [f 2 4095].all Instr.wf),
    (([.readRespTimeout] : List (Nat → Nat → Nat → Instr)).all fun f => [f 3 8191 16777215].all Instr.wf),
    (([.resendDelayExpire] : List (Nat → Nat → Instr)).all fun f => [f 3 8191].all Instr.wf),
    (([.frameRx] : List (Nat → List Byte → Bool → Instr)).all fun f => [f 7 [] true].all Instr.wf),
    (([.sieveGo, .snap] : List (Nat → Bool → Instr)).all fun f => [f 65535 true].all Instr.wf),
    (([.tableEnWrite] : List (Nat → Bool → Nat → Nat → Instr)).all fun f => [f 15 true 3 31].all Instr.wf),
    (([.portModeWrite, .stashModeWrite] : List (Nat → Instr)).all fun f => [f 3].all Instr.wf),
    (([.ethPortUp, .ethPortDown, .schedDecision, .frameTxDone] : List (Nat → Instr)).all fun f => [f 7].all Instr.wf),
    (([.ctxOpen, .ctxClose, .ctxClear] : List (Nat → Bool → Instr)).all fun f => [f 8191 true].all Instr.wf),
    (([.udpWrite, .udpRead, .udpReadResp, .udpSend, .udpAck, .udpPageWait, .udpPageRetry, .udpNackErr, .roceSend, .roceRdmaWrite,
      .roceRdmaReadRequest, .roceReadResponse, .roceAcknowledge, .roceCnp] : List (Nat → Instr)).all fun f => [f 63].all
      Instr.wf),
    (([.rtoExpireE, .roceRnrTimer] : List (Nat → Instr)).all fun f => [f 8191].all Instr.wf)].all id = true := by decide +kernel

/-- The greatest operands of each shape are well formed. -/
theorem test_wf_accepts_services : [
    (([.shpBurstWrite] : List (Nat → Nat → Nat → Nat → Bool → Instr)).all fun f => [f 7 127 16777215 3 true].all Instr.wf),
    (([.policerPenWrite] : List (Nat → Nat → Nat → Bool → Nat → Instr)).all fun f => [f 7 15 127 true 1048575].all Instr.wf),
    (([.ringDoorbell] : List (Nat → Nat → Nat → Instr)).all fun f => [f 127 63 4294967295].all Instr.wf),
    (([.doorbellSample, .postBuf, .xferRead, .stashRead, .stashWrite, .stashZero, .stashFlush] : List (Nat → Nat → Instr)).all
      fun f => [f 127 63].all Instr.wf),
    (([.eqDoorbell] : List (Nat → Nat → Nat → Instr)).all fun f => [f 127 15 4294967295].all Instr.wf),
    (([.sendFrame, .xferWrite, .xferSend] : List (Nat → Nat → List Byte → Instr)).all fun f => [f 127 63 []].all Instr.wf),
    (([.copy] : List (Nat → Nat → Nat → List Byte → Instr)).all fun f => [f 127 63 0 []].all Instr.wf),
    (([.descriptorComplete] : List (Nat → Nat → Nat → Instr)).all fun f => [f 127 63 65535].all Instr.wf),
    (([.msixModTimer] : List (Nat → Nat → Instr)).all fun f => [f 127 15].all Instr.wf),
    (([.msixUnmask] : List (Nat → Nat → Bool → Nat → Nat → Instr)).all fun f => [f 127 63 true 18446744073709551615
      4294967295].all Instr.wf),
    (([.exportDeliver] : List (Nat → Instr)).all fun f => [f 1023].all Instr.wf),
    (([.quiesceTimeout, .mbDb, .mbReplyDb, .flrPlot, .vfDisable, .vfEnable] : List (Nat → Instr)).all fun f => [f 127].all
      Instr.wf),
    (([.pieceSubmit] : List (Nat → List Byte → Instr)).all fun f => [f 15 []].all Instr.wf),
    (([.pieceComplete] : List (Nat → Nat → Nat → Nat → List Byte → Bool → Instr)).all fun f => [f 0 0 7 255 [] true].all
      Instr.wf),
    (([.abortTimeout] : List (Nat → Instr)).all fun f => [f 15].all Instr.wf),
    (([.driveFail] : List (Nat → Nat → Instr)).all fun f => [f 15 3].all Instr.wf),
    (([.driveReady] : List (Nat → DriveId → Instr)).all fun f => [f 15 ⟨0, false, 12, [], []⟩].all Instr.wf),
    (([.gcmEnc, .gmacVer, .cmacVer] : List (Nat → List Byte → List Byte → Option Nat → Instr)).all fun f => [f 7 [] [] none].all
      Instr.wf),
    (([.gcmDec] : List (Nat → List Byte → List Byte → List Byte → Option Nat → Instr)).all fun f => [f 7 [] [] [] none].all
      Instr.wf),
    (([.gmacGen, .cmacGen] : List (Nat → List Byte → Option Nat → Instr)).all fun f => [f 7 [] none].all Instr.wf),
    (([.cipherComplete] : List (Nat → Bool → Instr)).all fun f => [f 7 true].all Instr.wf),
    (([.cipherGo, .claim, .renew, .release, .sign] : List (Nat → Instr)).all fun f => [f 17].all Instr.wf),
    (([.spareCopyDone] : List (Nat → CopyEnd → Instr)).all fun f => [f 255 (.good [])].all Instr.wf),
    (([.greenhouseResult] : List (Nat → Nat → Nat → Bool → Instr)).all fun f => [f 2 255 255 true].all Instr.wf),
    (([.cowHold] : List (Nat → Instr)).all fun f => [f 549755813887].all Instr.wf),
    (([.cowCopyDone] : List (Nat → Nat → Instr)).all fun f => [f 8388607 0].all Instr.wf),
    (([.checkpointFail] : List (Nat → Nat → Instr)).all fun f => [f 5 255].all Instr.wf),
    (([.hubAoResetRelease, .fuseRetry, .recoveryReboot] : List (List FuseRead → Nat → List Nat → Instr)).all fun f => [f [] 65535
      []].all Instr.wf),
    (([.compartmentRestart] : List (Nat → Nat → Bool → Instr)).all fun f => [f 9 31 true].all Instr.wf),
    (([.iwDataRead] : List (Req → Nat → Instr)).all fun f => [f (.plotFn 127) 2].all Instr.wf),
    (([.iwDataWrite] : List (Req → BitVec 32 → Nat → Instr)).all fun f => [f (.plotFn 127) 0 2].all Instr.wf),
    (([.coreHoldWrite] : List (Req → Nat → BitVec 32 → Instr)).all fun f => [f (.plotFn 127) 8 0].all Instr.wf),
    (([.mctpControl] : List (Nat → Nat → List Byte → Instr)).all fun f => [f 31 255 []].all Instr.wf),
    (([.getTid, .getPldmTypes] : List (Nat → Instr)).all fun f => [f 31].all Instr.wf),
    (([.getPldmVersion, .getPldmCommands] : List (Nat → Nat → Instr)).all fun f => [f 31 63].all Instr.wf),
    (([.getPdr] : List (Nat → Nat → Instr)).all fun f => [f 31 4294967295].all Instr.wf),
    (([.getSensorReading, .pollForPlatformEventMessage] : List (Nat → Nat → Instr)).all fun f => [f 31 65535].all Instr.wf),
    (([.readEvents] : List (Nat → Instr)).all fun f => [f 18446744073709551615].all Instr.wf),
    (([.thermalTrip] : List (Nat → Instr)).all fun f => [f 4].all Instr.wf),
    (([.powerWindow] : List (Nat → Instr)).all fun f => [f 65535].all Instr.wf),
    (([.thermalSample] : List (Nat → Nat → List Nat → Instr)).all fun f => [f 4095 4095 []].all Instr.wf),
    (([.pcieLinkTrained] : List (Nat → Nat → Bool → Instr)).all fun f => [f 3 16 true].all Instr.wf)].all id = true := by decide +kernel

/-! ## Helpers -/

/-- The state that a command leaves, if it completes. -/
def after (i : Instr) (s : State) : Option State :=
  match exec i s with
  | .next t => some t
  | _ => none

/-- What is read of the state that a command leaves. -/
def sees {α : Type} (i : Instr) (s : State) (f : State → α) : Option α := (after i s).map f

/-- Hub core 0 runs with registers g and private memory p. -/
def hub0 (k : Core) : State := { core0Run := true, cores := [(256, k)] }

/-- Hub core 0 runs with g1, g2, g3, g4. -/
def runs (a b d e : Word36) : State := hub0 { g := [(1, a), (2, b), (3, d), (4, e)] }

/-- Register n of hub core 0 after a command. -/
def reg (i : Instr) (s : State) (n : Nat) : Option Nat := sees i s (fun t => ((t.core (.hub 0)).get n).toNat)

/-- Flags and control of hub core 0 after a command. -/
def word (i : Instr) (s : State) : Option Nat := sees i s (fun t => (t.core (.hub 0)).cw.toNat)

/-- The greatest word, −1. -/
def m1 : Word36 := 0xFFFFFFFFF
/-- The least signed word. -/
def least : Word36 := 0x800000000

/-! ## Ohmette-36: results (R169-R186) -/

/-- R170: sums wrap modulo 2^36, and the PC passes one half of a short form, two of a long one. -/
theorem test_add_wraps : reg (.add (.hub 0) false 3 1 2) (runs m1 2 0 0) 3 = some 1 ∧
    sees (.add (.hub 0) false 3 1 2) (runs m1 2 0 0) (fun t => (t.core (.hub 0)).pc) = some 1 ∧
    sees (.sub (.hub 0) true 20 1 2) (runs 1 2 0 0) (fun t => ((t.core (.hub 0)).pc, (t.core (.hub 0)).get 20)) = some (2, m1) := by
  decide +kernel

/-- R170: a destination that is also a source: operands are read first. -/
theorem test_destination_is_source : reg (.sub (.hub 0) false 1 2 1) (runs 3 10 0 0) 1 = some 7 ∧
    reg (.madd (.hub 0) 4 4 4 4) (runs 0 0 0 5) 4 = some 30 := by decide +kernel

/-- R170: amounts 35, 36 and 64 + 1 of a shift. -/
theorem test_shift_amounts : reg (.shl (.hub 0) false 3 1 2) (runs 1 35 0 0) 3 = some (2 ^ 35) ∧
    reg (.shl (.hub 0) false 3 1 2) (runs 1 36 0 0) 3 = some 0 ∧ reg (.shl (.hub 0) false 3 1 2) (runs 1 65 0 0) 3 = some 2 ∧
    reg (.sar (.hub 0) false 3 1 2) (runs least 63 0 0) 3 = some (2 ^ 36 - 1) ∧
    reg (.shr (.hub 0) false 3 1 2) (runs least 35 0 0) 3 = some 1 := by decide +kernel

/-- R170: signed and unsigned compares of −1 and 1. -/
theorem test_compare_signs : reg (.cmplt (.hub 0) false 3 1 2) (runs m1 1 0 0) 3 = some 1 ∧
    reg (.cmpltu (.hub 0) false 3 1 2) (runs m1 1 0 0) 3 = some 0 ∧ reg (.max (.hub 0) false 3 1 2) (runs m1 1 0 0) 3 = some 1 ∧
    reg (.maxu (.hub 0) 3 1 2) (runs m1 1 0 0) 3 = some (2 ^ 36 - 1) := by decide +kernel

/-- R174: −7 / 2 is −3 and leaves −1; division by zero and the overflow set IQF. -/
theorem test_division : reg (.div (.hub 0) 3 1 2) (runs (0 - 7) 2 0 0) 3 = some (2 ^ 36 - 3) ∧
    reg (.rem (.hub 0) 3 1 2) (runs (0 - 7) 2 0 0) 3 = some (2 ^ 36 - 1) ∧
    (reg (.divu (.hub 0) 3 1 2) (runs 7 0 0 0) 3 = some 0 ∧ word (.divu (.hub 0) 3 1 2) (runs 7 0 0 0) = some 0x200) ∧
    (reg (.div (.hub 0) 3 1 2) (runs least m1 0 0) 3 = some (2 ^ 35 - 1) ∧ word (.div (.hub 0) 3 1 2) (runs least m1 0 0) = some 0x200) ∧
    word (.div (.hub 0) 3 1 2) (runs 7 2 0 0) = some 0 := by decide +kernel

/-- R170: high products, counts of bits. -/
theorem test_products_and_counts : reg (.mulhi (.hub 0) 3 1 2) (runs m1 1 0 0) 3 = some (2 ^ 36 - 1) ∧
    reg (.mulhiu (.hub 0) 3 1 2) (runs m1 m1 0 0) 3 = some (2 ^ 36 - 2) ∧ reg (.clz (.hub 0) 3 1) (runs 0 0 0 0) 3 = some 36 ∧
    reg (.clz (.hub 0) 3 1) (runs 1 0 0 0) 3 = some 35 ∧ reg (.popc (.hub 0) 3 1) (runs m1 0 0 0) 3 = some 36 := by decide +kernel

/-- R169: short immediates are sign-extended from 8 bits, those of ANDI are not; LDHI shifts by 15. -/
theorem test_immediates : reg (.addi (.hub 0) false 1 1 0xFF) (runs 5 0 0 0) 1 = some 4 ∧
    reg (.movi (.hub 0) false 1 0x80) (runs 5 0 0 0) 1 = some (2 ^ 36 - 128) ∧
    reg (.andi (.hub 0) false 1 1 0xF0) (runs m1 0 0 0) 1 = some 0xF0 ∧
    reg (.ldhi (.hub 0) 1 0x1FFFFF) (runs 0 0 0 0) 1 = some (2 ^ 36 - 2 ^ 15) ∧
    reg (.pcrel (.hub 0) 1 0x1FFFFF) (runs 0 0 0 0) 1 = some (2 ^ 36 - 1) := by decide +kernel

/-- R159, R169: a store and a load of private memory, at the last word; beyond it, PMEM_ACCESS: vector 4 with TVAL the address. -/
theorem test_private_memory :
    sees (.stw (.hub 0) true 2 1 0) (runs 0x3FFFF 9 0 0) (fun t => (t.core (.hub 0)).pm) = some [(0x3FFFF, 9)] ∧
    reg (.ldw (.hub 0) true 3 1 0xFFFF) (hub0 { g := [(1, 8)], pm := [(7, 5)] }) 3 = some 5 ∧
    sees (.ldw (.hub 0) true 3 1 0) (runs 0x40000 0 0 0) (fun t => ((t.core (.hub 0)).cause, (t.core (.hub 0)).tval,
      (t.core (.hub 0)).pc)) = some (4 + 64, 0x40000, 64) := by decide +kernel

/-- R177: CALL pushes the half behind it and RET takes it back; a push at splim takes STACK, vector 7. -/
theorem test_call_and_ret :
    sees (.call (.hub 0) 0x10) (hub0 { pc := 4 }) (fun t => ((t.core (.hub 0)).pc, (t.core (.hub 0)).sp, (t.core (.hub 0)).pm)) =
      some (0x14, 0x3FFFF, [(0x3FFFF, 6)]) ∧
    sees (.ret (.hub 0)) (hub0 { sp := 0x3FFFF, pm := [(0x3FFFF, 6)] }) (fun t => ((t.core (.hub 0)).pc, (t.core (.hub 0)).sp)) =
      some (6, 0x40000) ∧
    sees (.push (.hub 0) 1) (hub0 { sp := 8, splim := 8 }) (fun t => ((t.core (.hub 0)).cause, (t.core (.hub 0)).sp)) = some (7, 8) := by
  decide +kernel

/-- R172: branches count halves from the branch itself; BCZ by its condition. -/
theorem test_branches : sees (.br (.hub 0) 0x3FFF) (hub0 { pc := 4 }) (fun t => (t.core (.hub 0)).pc) = some 3 ∧
    sees (.bcz (.hub 0) 4 1 0x10) (runs 0 0 0 0) (fun t => (t.core (.hub 0)).pc) = some 1 ∧
    sees (.bcz (.hub 0) 5 1 0x10) (runs 0 0 0 0) (fun t => (t.core (.hub 0)).pc) = some 0x10 ∧
    sees (.cbltu (.hub 0) 1 2 0x10) (runs 1 m1 0 0) (fun t => (t.core (.hub 0)).pc) = some 0x10 ∧
    sees (.cblt (.hub 0) 1 2 0x10) (runs 1 m1 0 0) (fun t => (t.core (.hub 0)).pc) = some 2 := by decide +kernel

/-- R129, R136: F36 has the fields of binary32 and four more fraction bits: 1 + 1 = 2, 1 / 3 rounds to
nearest, 1 / 0 sets DIV0. -/
theorem test_float : reg (.fadd (.hub 0) false 3 1 1) (runs (0x3F8000000) 0 0 0) 3 = some 0x400000000 ∧
    word (.fadd (.hub 0) false 3 1 1) (runs (0x3F8000000) 0 0 0) = some 0 ∧
    reg (.fdiv (.hub 0) 3 1 2) (runs (0x3F8000000) (0x404000000) 0 0) 3 = some (125 * 2 ^ 27 + 0x2AAAAAB) ∧
    word (.fdiv (.hub 0) 3 1 2) (runs (0x3F8000000) 0 0 0) = some 0x020 ∧
    reg (.fsqrt (.hub 0) 3 1) (runs (0x408000000) 0 0 0) 3 = some 0x400000000 ∧
    reg (.fcvtif (.hub 0) 3 1) (runs (0xC00000000) 0 0 0) 3 = some (2 ^ 36 - 2) := by decide +kernel

/-- R172, R182, R183: TRAP saves PC and cw, sets CAUSE and TVAL, and goes to VBASE + 16 n with TL 1; ERET comes back. -/
theorem test_trap_and_eret :
    sees (.trap (.hub 0) 0x1234) (hub0 { pc := 8, cw := 0x1, vbase := 0x3FF }) (fun t => let k := t.core (.hub 0)
      (k.pc, k.epc, k.ecw, k.cause, k.tval, k.cw)) = some (0x290, 8, 1, 9 + 64, 0x1234, 8) ∧
    sees (.eret (.hub 0)) (hub0 { epc := 8, ecw := 1, cw := 8 }) (fun t => ((t.core (.hub 0)).pc, (t.core (.hub 0)).cw)) = some (8, 1) := by
  decide +kernel

/-- R185: a trap with TL 1 stops the core and is reported. -/
theorem test_double_trap :
    sees (.trap (.hub 0) 5) (hub0 { pc := 8, cw := 8 }) (fun t => ((t.core (.hub 0)).stopped, t.detections)) =
      some (true, [.coreFault (.hub 0) 9 8 5]) := by decide +kernel

/-- R172, R183: in compartment mode CWSET of a control bit and ERET take PRIV, vector 8, with the instruction as TVAL. -/
theorem test_privilege : let s := hub0 { cw := 2, rgnLim := [(0, 0x33FFFF)] }
    sees (.cwset (.hub 0) 0x001) s (fun t => ((t.core (.hub 0)).cause, (t.core (.hub 0)).tval)) = some (8 + 64, encLI 0xE 0x22 0 0 1) ∧
    sees (.cwset (.hub 0) 0x010) s (fun t => (t.core (.hub 0)).cw) = some 0x12 ∧
    sees (.eret (.hub 0)) s (fun t => ((t.core (.hub 0)).cause, (t.core (.hub 0)).tval)) = some (8 + 64, encLR 0xE 0x29 0 0 0 0) := by
  decide +kernel

/-- R184, R186: the timer interrupts at a boundary, and WFI waits only where nothing enabled is pending. -/
theorem test_interrupt_and_wfi :
    sees (.nop (.hub 0)) (hub0 { pc := 8, cw := 1, ienable := 0x20000, timerSet := true }) (fun t => ((t.core (.hub 0)).cause, (t.core (.hub 0)).pc,
      (t.core (.hub 0)).epc)) = some (17 + 32, 0x110, 8) ∧
    sees (.wfi (.hub 0)) (hub0 { timer := 5, ienable := 0x20000 }) (fun t => (t.core (.hub 0)).waiting) = some true ∧
    sees (.wfi (.hub 0)) (hub0 { ienable := 0x20000, timerSet := true }) (fun t => (t.core (.hub 0)).waiting) = some false := by decide +kernel

/-- R163-R165: STL and LDL of a lane of hub SRAM; an address that is not a multiple of 4 takes OPERAND, vector 2; ATADD answers
the old lane. -/
theorem test_lanes :
    sees (.stl (.hub 0) 2 1 (.short 0)) (runs 0x200000004 0xA11223344 0 0) (fun t => t.readB (kHub 4) 4) = some [0x44, 0x33, 0x22, 0x11] ∧
    sees (.ldl (.hub 0) 2 1 (.long 2)) (runs 0x200000004 0 0 0) (fun t => ((t.core (.hub 0)).cause, (t.core (.hub 0)).tval)) =
      some (2 + 64, 0x200000006) ∧
    reg (.ldls (.hub 0) 2 1 (.long 0)) ((runs 0x200000004 0 0 0).writeN (kHub 4) 4 0xFFFFFFFE) 2 = some (2 ^ 36 - 2) ∧
    sees (.atadd (.hub 0) 4 1 2) ((runs 0x200000004 3 0 0).writeN (kHub 4) 4 0xFFFFFFFE)
      (fun t => ((t.core (.hub 0)).get 4, t.readN (kHub 4) 4)) = some (0xFFFFFFFE, 1) := by decide +kernel

/-- R179, R180: WCOPY copies words in ascending order and clears cont; a part of the way leaves CV and the count. -/
theorem test_wcopy :
    let s := hub0 { g := [(1, 2), (2, 8), (3, 16)], pm := [(8, 5), (9, 6)] }
    sees (.wcopy (.hub 0) 1 2 3 2) s (fun t => ((t.core (.hub 0)).pm, (t.core (.hub 0)).pc)) = some ([(8, 5), (9, 6), (16, 5), (17, 6)], 2) := by
  decide +kernel

/-! ## Ohmette-36: hypotheses -/

/-- OhmRegisterInstructions: an ordinary division, one by zero, the overflow; FENCE with and without a posted store. -/
theorem test_hyp_registers : Ready (runs 7 2 0 0) (.hub 0) true ∧ Ready (runs 7 2 0 0) (.hub 0) false ∧
    ((runs 7 2 0 0).begun (.hub 0)).get 2 ≠ 0 ∧ ¬(((runs 7 2 0 0).begun (.hub 0)).get 1).toInt = -(2 ^ 35) ∧
    Ready (runs least m1 0 0) (.hub 0) true ∧ ((least.toInt = -(2 ^ 35)) ∧ (((runs least m1 0 0).begun (.hub 0)).get 2).toInt = -1) ∧
    ((runs 7 2 0 0).begun (.hub 0)).heldStores = [] ∧ Ready (hub0 { heldStores := [(0, 0)] }) (.hub 0) false ∧
    ((hub0 { heldStores := [(0, 0)] }).begun (.hub 0)).heldStores ≠ [] := by
  unfold Ready; decide +kernel

/-- OhmPrivateMemory and OhmBranch: permitted and denied words, stacks within and at their limits, either way of a condition. -/
theorem test_hyp_private_memory : (let k := (runs 0x3FFFF 0x40000 0 0).begun (.hub 0)
      Ready (runs 0x3FFFF 0x40000 0 0) (.hub 0) true ∧ k.pmOk (k.get 1) 18 = true ∧ k.pmOk (k.get 2) 19 = false ∧
      k.splim.toNat < k.sp.toNat ∧ k.pmOk (k.sp - 1) 19 = true ∧ k.sptop.toNat ≤ k.sp.toNat) ∧
    (let k := (hub0 { sp := 8, splim := 8 }).begun (.hub 0)
     Ready (hub0 { sp := 8, splim := 8 }) (.hub 0) false ∧ k.sp.toNat ≤ k.splim.toNat ∧ k.sp.toNat < k.sptop.toNat ∧
     k.pmOk k.sp 18 = true) ∧
    (let k := (hub0 { sp := 0x40002, sptop := 0x40003 }).begun (.hub 0)
     k.splim.toNat < k.sp.toNat ∧ k.pmOk (k.sp - 1) 19 = false ∧ k.sp.toNat < k.sptop.toNat ∧ k.pmOk k.sp 18 = false) := by
  unfold Ready; decide +kernel

/-- OhmBoundary: a core that is held, one with an interrupt due, one that waits, one whose fetch lies beyond private memory. -/
theorem test_hyp_boundary : ohmOf (.nop (.hub 0)) = some (.hub 0, false) ∧ ({} : State).coreRuns (.hub 0) = false ∧
    (let s := hub0 { cw := 1, ienable := 0x20000, timerSet := true }
     s.coreRuns (.hub 0) = true ∧ (s.core (.hub 0)).interrupt = some 1) ∧
    (let s := hub0 { waiting := true, timer := 1 }
     s.coreRuns (.hub 0) = true ∧ (s.core (.hub 0)).interrupt = none ∧ (s.core (.hub 0)).enabledSource = none) ∧
    (let s := hub0 { pc := 0x7FFFF }
     s.coreRuns (.hub 0) = true ∧ (s.core (.hub 0)).interrupt = none ∧ (s.core (.hub 0)).fetchBad true = true) := by decide +kernel

/-- OhmTableAndCopy: a count of words to copy, one from 2^24, a destination inside its source; a table of one segment, and one whose head has a reserved bit. -/
theorem test_hyp_table_and_copy : (let s := hub0 { g := [(1, 2), (2, 8), (3, 16)], pm := [] }
      let k := s.begun (.hub 0)
      Ready s (.hub 0) true ∧ (k.get 1).toNat < 2 ^ 24 ∧ ¬((k.get 2).toNat < (k.get 3).toNat ∧ (k.get 3).toNat < (k.get 2).toNat + (k.get 1).toNat) ∧
      (s.core (.hub 0)).cv = false ∧
      ∀ i, i < 2 → k.pmOk (k.get 2 + BitVec.ofNat 36 i) 18 = true ∧ k.pmOk (k.get 3 + BitVec.ofNat 36 i) 19 = true) ∧
    (let k := (hub0 { g := [(1, 0x1000000)] }).begun (.hub 0)
     2 ^ 24 ≤ (k.get 1).toNat) ∧
    (let k := (hub0 { g := [(1, 9), (2, 8), (3, 16)] }).begun (.hub 0)
     (k.get 2).toNat < (k.get 3).toNat ∧ (k.get 3).toNat < (k.get 2).toNat + (k.get 1).toNat) ∧
    (let s := hub0 { g := [(3, 100)], pm := [(100, 0), (101, 0x3F8000000), (102, 0), (103, 0), (104, 0x3F8000000)] }
     let k := s.begun (.hub 0)
     k.headBad (.hub 0) 100 = false ∧ k.tableDenied (.hub 0) 100 = none) ∧
    (let s := hub0 { g := [(3, 100)], pm := [(100, 0), (101, 0x3F8000000), (102, 0x800)] }
     (s.begun (.hub 0)).headBad (.hub 0) 100 = true) := by
  unfold Ready; decide +kernel

/-- OhmSystemRegisters and OhmControlAndEntry: reserved and privileged indices, either mode, messages, rooms, TL and vectors. -/
theorem test_hyp_system_registers : sysNamed 0x13 = false ∧ sysNamed 0x20 = true ∧ sysUser 0x20 = false ∧
    (let s := hub0 { cw := 2, rgnLim := [(0, 0x33FFFF)] }
     Ready s (.hub 0) true ∧ (s.begun (.hub 0)).compartment = true) ∧
    (let s := hub0 { msgs := [7], cw := 8 }
     Ready s (.hub 0) true ∧ (s.begun (.hub 0)).compartment = false ∧
     (s.begun (.hub 0)).msgs = [7] ∧ (s.core (.hub 0)).tl = true ∧ ({} : State).hubMainReset = false ∧ (s.core (.hub 0)).msgs.length < 8) ∧
    (let s := hub0 { msgs := List.replicate 8 0 }
     ¬(s.core (.hub 0)).msgs.length < 8) := by
  unfold Ready; decide +kernel

/-- The state and the lane of an access that is done, and the vector of one that fails. -/
def lane (r : ExtRes) : Option (State × Nat) :=
  match r with
  | .ok s v => some (s, v)
  | _ => none

/-- The vector of an access that fails. -/
def vector (r : ExtRes) : Option Nat :=
  match r with
  | .fail n => some n
  | _ => none

/-- Where an address of the external space lies: its kind, and its place. -/
def place (c : CoreId) (a : Nat) : Option (Nat × Nat × Nat) :=
  match extAt c {} a with
  | some (n, .slice t o) => some (n, t, o)
  | some (n, .hub o) => some (n, 256, o)
  | some (n, .hbm o) => some (n, 257, o)
  | _ => none

/-- OhmLanesAndBlocks: lanes of hub SRAM done and failed, an atomic there; block operands that break no rule and one that does. -/
theorem test_hyp_lanes :
    let s := (runs 0x200000004 3 0 0).writeN (kHub 4) 4 7
    let k := s.begun (.hub 0)
    let s0 := s.setCore (.hub 0) k
    Ready s (.hub 0) true ∧
      (lane (s0.extLoad (.hub 0) k 0x200000004)).map (fun x => (x.2, (x.1.core (.hub 0)).pmStamp)) = some (7, k.pmStamp) ∧
      (lane (s0.extStore (.hub 0) k 0x200000004 10 false)).map (fun x => (x.1.core (.hub 0)).pmStamp) = some k.pmStamp ∧
      vector (s0.extLoad (.hub 0) k 0x200000006) = some 2 ∧ vector (s0.extStore (.hub 0) k 0x206000000 0 false) = some 5 ∧
      extAtomic (.hub 0) k 0x200000004 = true ∧ s0.atomicWaits (.hub 0) k 0x200000004 = false ∧
      s0.extBad (.hub 0) k 0x200000004 true = false ∧
    blkBad 0x0A000001 8 0 = none ∧ blkBad 0x06000002 8 0 = some 0x06000002 ∧ blkBad 0x0A000001 6 0 = some 6 ∧
    2 ^ 29 ≤ (0x20000000 : Word36).toNat := by
  unfold Ready; decide +kernel

/-- OhmFloat: numbers that are not NaN, the least and the greatest integer that converts exactly; and a granule of BLKLD that is
carried out. -/
theorem test_hyp_float_and_block : dec36 0x3F8000000 ≠ .nan ∧ dec36 0xC00000000 ≠ .nan ∧ -(2 ^ 28) < (1 - 2 ^ 28 : Int) ∧
    (ofInt36 (2 ^ 28 - 1)).2 = {} ∧ toInt36 false (-(2 ^ 35)) (2 ^ 35 - 1) (ofInt36 (1 - 2 ^ 28)).1 = (1 - 2 ^ 28, {}) ∧
    (let s := (hub0 {}).writeN (kHub 0) 4 0x3F800000
     let x := blkldElem (.hub 0) 0xA 0x200000000 5 0 s (s.begun (.hub 0)) 0
     x.2.2 = none ∧ x.2.1.pm = [(5, 0x3F8000000)] ∧ blkBad 0x0A000001 0x200000000 0 = none) := by decide +kernel

/-- OhmFrames: a lane of hub SRAM, one of a slice, and one of HBM, as a core reaches them. -/
theorem test_hyp_frames : ohmOf (.add (.hub 0) false 1 2 3) = some (.hub 0, false) ∧ place (.hub 0) 0x200000004 = some (2, 256, 4) ∧
    place (.tile 3) 0x100 = some (0, 3, 0x100) ∧ place (.hub 0) 0x400000000 = some (3, 257, 0) := by decide +kernel
/-! ## Registers -/

/-- The requester that reaches every hub block after reset. -/
def core0 : Req := .core (.hub 0)

/-- R20, R538: a write reaches the RW fields of its word; the set, clear and toggle images OR, clear and invert. -/
theorem test_register_write_and_images :
    sees (.registerWrite core0 .cloche 0 0x28 0x5) {} (fun t => t.rg Rg.cloche_OVF_BASE) = some 5 ∧
    sees (.aliasSet core0 .cloche 0 0x28 0x3) (State.reset.setRg Rg.cloche_OVF_BASE 0 5) (fun t => t.rg Rg.cloche_OVF_BASE) = some 7 ∧
    sees (.aliasClear core0 .cloche 0 0x28 0x4) (State.reset.setRg Rg.cloche_OVF_BASE 0 5) (fun t => t.rg Rg.cloche_OVF_BASE) = some 1 ∧
    sees (.aliasToggle core0 .cloche 0 0x28 0x6) (State.reset.setRg Rg.cloche_OVF_BASE 0 5) (fun t => t.rg Rg.cloche_OVF_BASE) = some 3 ∧
    sees (.registerWrite core0 .cloche 0 0x8 0x5) {} (fun t => t.rg Rg.cloche_EPOCH) = some 0 := by decide +kernel

/-- R22: a reserved code leaves its field, SEED_EVERY from 256, as it is; the other field of the word is written. -/
theorem test_reserved_code :
    sees (.registerWrite core0 .fault 0 0x4 0x00FF0007) {} (fun t => (t.rg Rg.fault_SEED_EVERY, t.rg Rg.fault_FAULT_WINDOW)) =
      some (4096, 7) := by decide +kernel

/-- R539: the status bit of an SQ register clears with the current sequence number only. -/
theorem test_sq_write :
    let s := (State.reset.setRg Rg.cloche_CL_EVT 0 1).setRg Rg.cloche_CL_SEQ 0 3
    sees (.sqStatusWrite core0 .cloche 0 0x30 0x00020001) s (fun t => t.rg Rg.cloche_CL_EVT) = some 1 ∧
    sees (.sqStatusWrite core0 .cloche 0 0x30 0x00030001) s (fun t => (t.rg Rg.cloche_CL_EVT, t.rg Rg.cloche_CL_SEQ)) = some (0, 3) := by
  decide +kernel

/-- R540: one damaged copy changes no read; a vote rewrites it and reports the disagreement. -/
theorem test_tv_vote :
    let s := (State.reset.setRg Rg.fault_LAST_GASP 5 0xF0).setCopy Rg.fault_LAST_GASP 5 1 0xFF
    s.rg Rg.fault_LAST_GASP 5 = 0xF0 ∧
    sees (.tvVoteScrub .fault 32 5) s (fun t => (t.copyOf Rg.fault_LAST_GASP 5 1, t.detections)) =
      some (0xF0, [.tvDisagree 426 5]) ∧
    sees (.tvFieldWrite core0 .fault 0 0x214 7) s (fun t => (t.copyOf Rg.fault_LAST_GASP 5 1, t.rg Rg.fault_LAST_GASP 5)) = some (7, 7) := by
  decide +kernel

/-- R560: FCNT-like counters wrap or stop at their width. -/
theorem test_counter_widths :
    ((State.reset.setRg Rg.dvorar_NOROUTE 0 0xFFFF).satRg Rg.dvorar_NOROUTE 0 1).rg Rg.dvorar_NOROUTE = 0xFFFF ∧
    ((State.reset.setRg Rg.dvport_FEC_CORR 3 (2 ^ Rg.dvport_FEC_CORR.w - 1)).wrapCount Rg.dvport_FEC_CORR 3 1 Rg.dvport_WRAP
      Rg.dvport_WRAP_SEQ 3 2).rg Rg.dvport_WRAP 3 = 4 := by decide +kernel

/-- R544: a write through the window to private memory of a held tile, and one to a space that does not exist. -/
theorem test_indirect_window :
    let s := (((State.reset.setRg Rg.system_WEST_IN_RESET 0 0).setRg Rg.identity_TILE_WORKING 0 2).setRg Rg.window_IW_SPACE 1 1).setRg
      Rg.window_IW_UNIT 1 1
    sees (.iwDataWrite core0 9 0) (s.setRg Rg.window_IW_DATA_HI 1 2) (fun t => (t.core (.tile 1)).pm) = some [(0, 0x200000009)] ∧
    sees (.iwDataRead core0 0) (s.setRg Rg.window_IW_SPACE 1 9) (fun t => (t.rg Rg.window_ERR_CODE 1, t.out)) =
      some (1, [.regRead core0 0xFFFFFFFF]) := by decide +kernel

/-- RegisterWrites, TvCopies, Counters, IndirectWindows, CoreHold, HbmApply: requesters that reach their registers and one that
does not, SQ registers, TV fields with like and unlike copies, pairs, windows, held cores, and HBM in use or not. -/
theorem test_hyp_registers_blocks :
    State.reset.Inv ∧ State.reset.mayAccess core0 .cloche 0 0x28 = true ∧ named (blkFlds .cloche) 0 0x28 = true ∧
    (seqOf (blkFlds .cloche) 0 0x30).map (fun x => (x.1.id, x.2)) = some (469, 0) ∧ State.reset.mayAccess core0 .cloche 0 0x30 = true ∧
    ((blkFlds .fault)[32]?).map (fun f => (f.id, f.acc)) = some (426, .tv) ∧ State.reset.mayAccess core0 .fault 0 0x214 = true ∧
    (let s := (State.reset.setRg Rg.fault_LAST_GASP 5 0xF0).setCopy Rg.fault_LAST_GASP 5 1 0xFF
     s.Inv ∧ (∃ c, c < 3 ∧ s.copyOf Rg.fault_LAST_GASP 5 c ≠ 0xF0) ∧ ∀ c, c < 3 → s.copyOf Rg.fault_LAST_GASP 5 c < 2 ^ 32) ∧
    isLow (blkFlds .dvorar) 0 0x18 = true ∧ State.reset.mayAccess core0 .dvorar 0 0x18 = true ∧
    State.reset.latch? core0 .dvorar 0 = none ∧ State.reset.mayAccess .bar0 .dvorar 0 0x18 = false ∧
    State.reset.rg Rg.dvorar_NOROUTE < 2 ^ Rg.dvorar_NOROUTE.w ∧
    windowOf core0 = some 1 ∧ State.reset.reaches core0 .window 0 = true ∧ State.reset.supervisor .bar0 = false ∧
    Cells.wf State.reset.cores = true ∧ State.reset.hubMainReset = false ∧ State.reset.flag Rg.beat_RUN = false ∧
    State.reset.hbmInUse = false ∧ (State.reset.setRg Rg.beat_RUN 0 1).flag Rg.beat_RUN = true := by
  unfold State.Inv; decide +kernel

/-- HbmApply: no stream is live and no cacheable range enabled after reset. -/
theorem test_hyp_hbm_idle : ((List.range 4096).all fun i => State.reset.rg Rg.tile_STATE i != 2) = true ∧
    ((List.range 1024).all fun i => !State.reset.flag Rg.tile_CRANGE_EN i) = true := by decide +kernel

/-- IndirectWindows: a tile that is in service and held, one that is not, one that is not held; a port and its half; hub SRAM. -/
theorem test_hyp_window_codes :
    let s := ((((State.reset.setRg Rg.system_WEST_IN_RESET 0 0).setRg Rg.identity_TILE_WORKING 0 3).setRg Rg.window_IW_SPACE 1 1).setRg
      Rg.window_IW_UNIT 1 1).setRg Rg.window_CORE_HOLD 0 0xFFFFFFFE
    s.tileUp 1 = true ∧ s.coreHeld (.tile 1) = true ∧ s.tileUp 2 = false ∧ s.tileUp 0 = true ∧ s.coreHeld (.tile 0) = false ∧
    s.iwCheck core0 1 true = 0 ∧ (s.setRg Rg.window_IW_UNIT 1 0).iwCheck core0 1 true = 3 ∧ (s.setRg Rg.window_IW_UNIT 1 2).iwCheck core0 1 true = 2 ∧
    (s.setRg Rg.window_IW_ADDR_LO 1 (2 ^ 18)).iwCheck core0 1 true = 4 ∧ (s.setRg Rg.window_IW_SPACE 1 7).iwCheck core0 1 true = 1 ∧
    s.halfUp 1 = false ∧ ((s.setRg Rg.window_IW_SPACE 1 3).setRg Rg.window_IW_UNIT 1 23).iwCheck core0 1 true = 2 ∧
    ((s.setRg Rg.window_IW_SPACE 1 3).setRg Rg.window_IW_UNIT 1 24).iwCheck core0 1 true = 1 ∧
    ((s.setRg Rg.window_IW_SPACE 1 4).setRg Rg.window_IW_UNIT 1 0).iwCheck core0 1 false = 0 := by decide +kernel
/-! ## The beat domain -/

/-- The master of a domain whose beats run, or not; `p` is the tick that waits. -/
def master (run : Bool) (p : Option (Nat × Nat × Nat)) : State :=
  ({ dom := { member := true, ticking := run, started := true, children := [4], pend := p, period := 1000 } } : State).setRg Rg.beat_ROLE 0 3

/-- Another member, whose parent lies at port 2. -/
def member (run : Bool) (p : Option (Nat × Nat × Nat)) : State :=
  ({ dom := { member := true, ticking := run, parent := some 2, pend := p, period := 1000 } } : State).setRg Rg.beat_ROLE 0 1

/-- JOIN_EN is 1, and DOMAIN_ID is 5. -/
def joins : State := (State.reset.setRg Rg.beat_JOIN_EN 0 1).setRg Rg.beat_DOMAIN_ID 0 5

/-- Port d is UP with eight lanes, and may carry tick symbols. -/
def upAt (d : Nat) (s : State) : State := ((s.setRg Rg.dvport_STATE d 3).setRg Rg.dvport_LANES d 255).setRg Rg.dvport_FEATURES d 4

/-- Idle flits of a port that has received nothing, one for each control symbol (R259, R263): KIND 1, FIRST 31, ACKSEQ before the first
FSEQ. -/
def idles (d : Nat) (ws : List Nat) : List Out := ws.map (fun w => .idle d 255 (1 * 2 ^ 3 + 31 * 2 ^ 15 + 1023 * 2 ^ 20) w)

/-- R50: FORM founds a domain, and a FORM symbol on a tick port makes it the parent and is answered by JOIN, symbol type 7, in
four flit slots (R264). -/
theorem test_formation : sees .form joins (fun t => (t.dom.founding, t.rg Rg.beat_FORMING)) = some (true, 1) ∧
    sees (.formSymbol 3 5 9 2) (upAt 3 joins) (fun t => (t.dom.parent, t.dom.depth, t.out)) =
      some (some 3, 3, idles 3 (List.replicate 4 (7 + 5 * 64))) ∧
    sees (.formSymbol 3 6 9 2) (upAt 3 joins) (fun t => t.dom.parent) = some none ∧
    sees (.formSymbol 3 5 9 2) joins (fun t => t.dom.parent) = some none := by decide +kernel

/-- R57, R58: a member's DONE goes to its parent, symbol type 5; the master with every DONE schedules the COMMIT tick. -/
theorem test_done : sees .memberDoneReady (upAt 2 ((member true none).setRg Rg.beat_BEATNO 0 7)) (fun t => (t.dom.doneSent, t.out)) =
      some (true, idles 2 (List.replicate 4 (5 + 7 * 64))) ∧
    sees (.doneSymbol 4 7) ((master true none).setRg Rg.beat_BEATNO 0 7) (fun t => t.dom.pend.map (fun p => (p.1, p.2.1))) =
      some (some (1, 7)) ∧
    sees (.doneSymbol 4 6) ((master true none).setRg Rg.beat_BEATNO 0 7) (fun t => t.dom.pend) = some none := by decide +kernel

/-- R263: a TICK symbol's BEAT and TIME are the low bits of numbers near BEATNO and DTIME. -/
theorem test_tick_symbol_extends :
    let s := ((member true none).setRg Rg.beat_BEATNO 0 (2 ^ 24 + 1)).setRg Rg.beat_DTIME 0 (2 ^ 32 - 5)
    sees (.tickSymbol 2 1 1 3) s (fun t => t.dom.pend) = some (some (1, 2 ^ 24 + 1, 2 ^ 32 + 3)) ∧
    sees (.tickSymbol 3 1 1 3) s (fun t => t.dom.pend) = some none := by decide +kernel

/-- R84, R85: a COMMIT tick later than the schedule leaves debt; one in time leaves none. -/
theorem test_debt : ((master true none).debtTick 0 1300 1 2).rg Rg.beat_DEBT = 300 ∧
    ((master true none).debtTick 0 1300 1 2).rg Rg.beat_OVR_RUN = 1 ∧
    (((master true none).setRg Rg.beat_OVR_RUN 0 9).debtTick 0 1000 1 2).rg Rg.beat_OVR_RUN = 0 := by decide +kernel

/-- R56: RUN 0 of a running master asks for the stop; RUN 1 of a stopped one sends the RESTART tick, kind 3, symbol type 4. -/
theorem test_run : sees (.runWrite false) (master true none) (fun t => t.dom.stopReq) = some true ∧
    sees (.runWrite true) (upAt 4 (master false none)) (fun t => (t.dom.pend.map (fun p => p.1), t.out.length)) = some (some 3, 4) := by
  decide +kernel

/-- DomainFormation, DomainControl, TickCommands, IdleAndLoss: each hypothesis of their clauses holds of some state. -/
theorem test_hyp_domain : joins.mayJoin 5 = true ∧ joins.mayJoin 6 = false ∧ joins.flag Rg.beat_FORMING = false ∧
    (let f := (({ joins with dom := { founding := true } } : State).setRg Rg.beat_FORMING 0 1)
     f.flag Rg.beat_FORMING = true ∧ f.dom.founding = true ∧ noTwice f.founded.members = true ∧ f.founded.treeDepth ≤ 12) ∧
    (let f := (({ joins with dom := { founding := true, joined := [(0, false, 13, 0)] } } : State).setRg Rg.beat_FORMING 0 1)
     f.dom.founding = true ∧ noTwice f.founded.members = false) ∧
    joins.flag Rg.beat_JOIN_EN = true ∧ joins.dom.member = false ∧ (joins.setRg Rg.beat_JOIN_EN 0 0).flag Rg.beat_JOIN_EN = false ∧
    (master false none).isMaster = true ∧ ((master false none).setRg Rg.beat_RUN 0 1).flag Rg.beat_HALTED = false ∧
    (master true none).doneReady = false ∧ ({ master true none with dom := { (master true none).dom with doneFrom := [4] } } : State).doneReady = true ∧
    (member true none).doneReady = true ∧ ((member true none).active && (member true none).levelDrops) = false ∧
    (member true none).isMaster = false ∧ (member true none).dom.parent = some 2 ∧ (master true none).cutAcked = true ∧
    (member true none).Inv ∧ (master true (some (1, 0, 9))).dom.pend = some (1, 0, 9) ∧
    ((master true (some (1, 0, 9))).active && (master true (some (1, 0, 9))).levelDrops) = false ∧
    (master true none).dom.overrun = false ∧ min 127 ((master true none).rg Rg.beat_OVR_RUN + 1) < 65 := by
  unfold State.Inv; decide +kernel

/-- TickCommands: a retirement that lowers the service level makes the tick an ABORT tick. -/
theorem test_hyp_level_drop :
    let s := { (member true (some (1, 0, 9))).setRg Rg.identity_SERVICE_LEVEL 0 2 with fm := { levelFall := some (0, 3, 0) } }
    s.dom.member = true ∧ s.dom.pend = some (1, 0, 9) ∧ (s.active && s.levelDrops) = true := by decide +kernel

/-- IdleAndLoss: a member that is lost with a majority left, and one without. -/
theorem test_hyp_loss :
    let s := (master true none).setMembers [0, 1, 2] []
    let gone := ([(1, none), (2, none)] : List (Nat × Option Nat)).filter (fun e => s.members.contains e.1 && e.1 != s.rg Rg.beat_MID)
    gone ≠ [] ∧ 2 * (s.members.filter (fun m => !gone.any (fun e => e.1 == m))).length ≤ s.members.length ∧ s.dom.member = true ∧
    (([(9, none)] : List (Nat × Option Nat)).filter (fun e => s.members.contains e.1)) = [] := by decide +kernel

/-! ## Tiles -/

/-- The western half is up and tile 1 works, with the sequencer k. -/
def tile1 (k : Tile) : State :=
  { (State.reset.setRg Rg.system_WEST_IN_RESET 0 0).setRg Rg.identity_TILE_WORKING 0 2 with tiles := [(1, k)] }

/-- Every pseudo-channel of stack 0 works. -/
def stack0 (s : State) : State := (s.setRg Rg.identity_PC_WORKING 0 0xFFFFFFFF).setRg Rg.identity_HBM_WORKING 0 1

/-- R66: ARM_SAME arms the running table; on an armed tile it is table error 7; DISARM in time clears ARMED. -/
theorem test_arm_same :
    let s := (tile1 {}).writeN (kBank 1 0 0) 32 0
    sees (.armSame 1) s (fun t => (t.tile 1).arm) = some 2 ∧
    sees (.armSame 1) (tile1 { arm := 1 }) (fun t => t.rg Rg.seq_ARM_ERR 1) = some 7 ∧
    sees (.disarm 1 false) (tile1 { arm := 1 }) (fun t => ((t.tile 1).arm, t.rg Rg.seq_DISARM_OK 1)) = some (0, 1) ∧
    sees (.disarm 1 true) (tile1 { arm := 1 }) (fun t => ((t.tile 1).arm, t.rg Rg.seq_DISARM_OK 1)) = some (1, 0) := by decide +kernel

/-- R60, R69: a table of every beat takes over, and one of another beat is table error 9. -/
theorem test_swap_in :
    let b : State := { tile1 { arm := 1 } with dom := { ticking := true } }
    let s := b.writeN (kBank 1 1 0) 64 ((2 ^ 64 - 1) * 2 ^ 192 + 5 * 2 ^ 16)
    let r := b.writeN (kBank 1 1 0) 64 (8 * 2 ^ 192 + 5 * 2 ^ 16)
    (let k := (s.swapIn 1 7).tile 1; (k.bank, k.arm, k.rows, k.next, k.running)) = (1, 0, 5, 2, true) ∧
    ((r.swapIn 1 7).rg Rg.seq_ARM_ERR 1, ((r.swapIn 1 7).tile 1).running) = (9, false) ∧
    ((r.swapIn 1 8).tile 1).running = true := by decide +kernel

/-- TableArming, ArmedTableTakesOver: tiles in and out of service, armed and not, with an open beat. -/
theorem test_hyp_tables : (tile1 {}).tileUp 1 = true ∧ (tile1 {}).tileUp 0 = false ∧ (tile1 {}).rg Rg.identity_SERVICE_LEVEL ≠ 1 ∧
    ((tile1 {}).setRg Rg.identity_SERVICE_LEVEL 0 1).rg Rg.identity_SERVICE_LEVEL = 1 ∧ ((tile1 { arm := 2 }).tile 1).arm ≠ 0 ∧
    (let k := (tile1 { arm := 1, openBeat := true }).tile 1
     k.openBeat = true ∧ k.arm ≠ 0 ∧ k.stopped = false) ∧ Cells.wf (tile1 {}).tiles = true := by decide +kernel

/-- TableArming: an empty table of the next bank fails the check. -/
theorem test_hyp_arm_check : (((tile1 {}).writeN (kBank 1 1 0) 64 0).armCheck 1 1).1 ≠ 0 := by decide +kernel

/-- PERF_CLR zeroes the counters of its tile only (R121). -/
theorem test_perf_clear :
    sees (.perfClr 1) (((tile1 {}).setRg Rg.tile_ROWS 1 9).setRg Rg.tile_ROWS 2 8) (fun t => (t.rg Rg.tile_ROWS 1, t.rg Rg.tile_ROWS 2)) =
      some (0, 8) := by decide +kernel
/-! ## Rows -/

/-- Tile 1 runs a table whose one row, in slot 2 of bank 0, is w. -/
def row1 (w : Nat) (k : Tile := { running := true, rows := 1 }) : State := (tile1 k).writeN (kBank 1 0 64) 32 w

/-- The lines that the row in the tracker will write, and their bytes. -/
def lines (i : Instr) (s : State) : Option (List Loc) := sees i s (fun t => (t.tile 1).track.flatMap (fun r => r.writes.map (fun w => w.1)))

/-- The bytes that the row in the tracker will write. -/
def bytes (i : Instr) (s : State) : Option (List Byte) := sees i s (fun t => (t.tile 1).track.flatMap (fun r => r.writes.flatMap (fun w => w.2)))

/-- R72, R100, R137: [1, 2] · [3, 4]ᵀ in BF16 is 11, as binary32 0x41300000; the rest of the 32-byte unit is zero. -/
theorem test_matrix_row :
    let w := 8 * 2 ^ 8 + 8 * 2 ^ 12 + 10 * 2 ^ 16 + 0 * 2 ^ 24 + 1 * 2 ^ 43 + 4 * 2 ^ 62 + 1 * 2 ^ 120 + 1 * 2 ^ 136 + 2 * 2 ^ 152
    let s := ((row1 w).writeN (kSlice 1 0) 4 0x40003F80).writeN (kSlice 1 32) 4 0x40804040
    lines (.matrixRow 1) s = some [.slice 1 4] ∧ bytes (.matrixRow 1) s = some ([0, 0, 0x30, 0x41] ++ List.replicate 28 0) := by decide +kernel

/-- R74, R107: ADD of binary32 1.5 and 2.25 is 3.75, 0x40700000. -/
theorem test_vector_row :
    let w := 1 + 1 * 2 ^ 8 + 10 * 2 ^ 16 + 10 * 2 ^ 20 + 10 * 2 ^ 24 + 0 * 2 ^ 32 + 1 * 2 ^ 51 + 4 * 2 ^ 89 + 1 * 2 ^ 128
    let s := ((row1 w).writeN (kSlice 1 0) 4 0x3FC00000).writeN (kSlice 1 32) 4 0x40100000
    lines (.vectorRow 1) s = some [.slice 1 4] ∧ bytes (.vectorRow 1) s = some ([0, 0, 0x70, 0x40] ++ List.replicate 28 0) := by decide +kernel

/-- R75: a move of one line within the slice. -/
theorem test_move_row :
    let w := 2 + 32 * 2 ^ 32 + 128 * 2 ^ 72 + 32 * 2 ^ 112 + 1 * 2 ^ 136
    let s := (row1 w).writeN (kSlice 1 32) 32 0x1234
    lines (.moveRow 1) s = some [.slice 1 4] ∧ bytes (.moveRow 1) s = some ([0x34, 0x12] ++ List.replicate 30 0) := by decide +kernel

/-- R79: a NOTE joins the notes of the beat, and slot 3 is due; R90: rows that were not issued complete nothing. -/
theorem test_mark_note :
    sees (.markNote 1) (row1 (6 + 77 * 2 ^ 32)) (fun t => ((t.tile 1).notes, (t.tile 1).next)) = some ([77], 3) ∧
    sees (.markNote 1) (row1 (6 + 1 * 2 ^ 8)) (fun t => (t.tile 1).notes) = some [] := by decide +kernel

/-- R77, R92: a wait row on arrival counter 3 holds the later rows until the counter has its value. -/
theorem test_wait_row :
    sees (.waitRow 1) (row1 (4 + 3 * 2 ^ 12 + 2 * 2 ^ 32)) (fun t => (t.tile 1).waitRow) = some (some { kind := 0, index := 3, value := 2 }) ∧
    sees (.waitConditionMet 1) (tile1 { waitRow := some { kind := 0, index := 3, value := 2 }, arrival := [(3, 1)] })
      (fun t => (t.tile 1).waitRow.isSome) = some true ∧
    sees (.waitConditionMet 1) (tile1 { waitRow := some { kind := 0, index := 3, value := 2 }, arrival := [(3, 2)] })
      (fun t => (t.tile 1).waitRow.isSome) = some false := by decide +kernel

/-- R64, R90: a completed row writes its line in an output window, and leaves the tracker; outside every window it is error 8. -/
theorem test_row_complete :
    let k : Tile := { running := true, rows := 1, next := 3, track := [{ slot := 2, cls := 2, writes := [(.slice 1 4, List.replicate 32 7)] }] }
    let win (base : Nat) : Nat := base * 2 ^ 3 + 1 * 2 ^ 37 + 3 * 2 ^ 64 + 3 * 2 ^ 128 + 3 * 2 ^ 192
    let s (base : Nat) := (tile1 k).writeN (kBank 1 0 0) 64 (win base * 2 ^ 256)
    ((s 4).writeRow 1 (.slice 1 4) (List.replicate 32 7)).2 = 0 ∧ ((s 5).writeRow 1 (.slice 1 4) (List.replicate 32 7)).2 = 8 := by
  decide +kernel

/-- R109-R114: an exchange packet of this attempt lands in its tile, and one of another attempt is discarded. -/
theorem test_exchange_arrival :
    let p : XPkt := { srcMid := 0, srcTile := 2, srcSlot := 2, beat := 0, attempt := 0, dstMid := 0, dstTile := 1, vc := 0, dctr := 3, op := 0,
                      addr := 32, aaddr := 0, first := 0, data := List.replicate 32 9, last := true }
    let s := { tile1 { running := true } with trellis := [p] }
    sees (.exchangePacketArrive 0) { s with trellis := [{ p with attempt := 1 }] } (fun t => (t.trellis, (t.tile 1).arrival)) = some ([], []) ∧
    sees (.exchangePacketArrive 0) { s with trellis := [{ p with beat := 1 }] } (fun t => (t.tile 1).held.length) = some 1 ∧
    sees (.anchorMaxCombine 0) s (fun t => t.trellis.length) = some 1 := by decide +kernel

/-- RowsIssue: a row of each class is the next row of a tile, with room and no hazard; an exchange to this module that can issue and
one whose destination is out of service; marks that fit. -/
theorem test_hyp_rows : ((List.range 7).all fun c => (row1 c).nextRow 1 c == some (2, c)) = true ∧ (row1 0).nextRow 1 1 = none ∧
    ((row1 0).tile 1).unitOk 0 = true ∧ ((row1 0).tile 1).trackOk (MatRow.of 0).foots = true ∧
    (let k : Tile := { track := [{ slot := 9, cls := 0 }, { slot := 10, cls := 0 }] }
     k.unitOk 0 = false) ∧
    (let s := (row1 (3 + 1 * 2 ^ 8 + 32 * 2 ^ 70)).setRg Rg.identity_TILE_ENABLED 0 2
     let x := XRow.ofExchange (3 + 1 * 2 ^ 8 + 32 * 2 ^ 70)
     (decide (s.sliceLines 1 < x.sa + (x.unit * x.len + 31) / 32) || (s.myMid x.mid && !(s.tileEnabled x.tile && s.tileUp x.tile))) = false ∧
     s.myMid x.mid = true ∧ (s.myMid x.mid && !(s.tileEnabled 2 && s.tileUp 2)) = true) ∧
    (row1 (6 + 2 ^ 8)).nextMark 1 1 = some (2, 6 + 2 ^ 8) ∧ (row1 (6 + 2 ^ 9)).nextMark 1 2 = some (2, 6 + 2 ^ 9) ∧
    (row1 6).nextMark 1 0 = some (2, 6) ∧ 0 + 1 ≤ (row1 6).sliceLines 1 ∧ (row1 6).stagingUnits + 1 ≤ 2 ^ 18 ∧
    ((row1 2).runMove 1 (MoveRow.of (2 + 32 * 2 ^ 112 + 1 * 2 ^ 136))).2.2 = 0 := by decide +kernel

/-- RowCompletion: rows in the tracker that write, that wait for packets, that are done. -/
theorem test_hyp_completion :
    let r : TrackRow := { slot := 2, cls := 0 }
    let x : TrackRow := { slot := 3, cls := 3 }
    let k := (tile1 { track := [r, x] }).tile 1
    k.track.find? (fun q => q.slot == 2) = some r ∧ k.track.find? (fun q => q.cls == r.cls) = some r ∧ k.stopped = false ∧
    k.track.find? (fun q => q.slot == 9) = none ∧ (∃ q ∈ k.track, q.slot = 3 ∧ (q.cls = 3 ∨ q.cls = 5) ∧ q.left = 0 ∧ q.err = 0) ∧
    (∀ q ∈ ([{ slot := 3, cls := 3, left := 1 }] : List TrackRow), q.slot = 3 → q.left ≠ 0) := by decide +kernel

/-- RowWritesStayInWindows: a line beyond memory, one in no window, one of the scratch region, one of a LOGGED window. -/
theorem test_hyp_row_writes :
    let s := (tile1 { running := true }).writeN (kBank 1 0 0) 64 ((8 * 2 ^ 128 + 2 * 2 ^ 147) + (4 + 4 * 2 ^ 3 + 1 * 2 ^ 37 + 3 * 2 ^ 64 + 3 * 2 ^ 128 + 3 * 2 ^ 192) * 2 ^ 256)
    s.locKey (.slice 1 (2 ^ 19)) = none ∧ s.locKey (.slice 1 4) = some (kSlice 1 128) ∧ s.winHit 1 (.slice 1 9) = none ∧
    s.inScratch 1 (.slice 1 9) = true ∧ s.inScratch 1 (.slice 1 20) = false ∧ s.winHit 1 (.slice 1 20) = none ∧
    s.winHit 1 (.slice 1 4) = some true := by decide +kernel

/-- ExchangeArrival: a packet that is first, behind another, of the beat and ahead of it; one that is held. -/
theorem test_hyp_arrival :
    let p : XPkt := { srcMid := 0, srcTile := 2, srcSlot := 2, beat := 0, attempt := 0, dstMid := 0, dstTile := 1, vc := 0, dctr := 3, op := 0,
                      addr := 32, aaddr := 0, first := 0, data := [], last := true }
    let s := { tile1 { held := [p] } with trellis := [p, p] }
    s.trellis[0]? = some p ∧ !(s.trellis.take 0).any (fun q => p.sameRow q) = true ∧ (s.trellis.take 1).any (fun q => p.sameRow q) = true ∧
    (s.tile 1).held.any (fun q => p.sameRow q) = true ∧ (s.tile 1).held[0]? = some p ∧ s.moving 1 = false ∧ s.tileUp 1 = true ∧
    p.attempt = s.dom.attempt ∧ (p.beat + 256 - s.rg Rg.beat_BEATNO % 256) % 256 = 0 := by decide +kernel
/-! ## Store, HBM and Furrow -/

/-- R209: mode 0 of 32 pseudo-channels, at 0 and at the last byte of the space. -/
theorem test_interleave : (let x := hbmMap 0 32 0; (x.1, x.2.1, x.2.2)) = (0, 0, 0) ∧
    (let x := hbmMap 0 30 (6 * (30 * pcBytes) - 1); decide (x.1 < 6 ∧ x.2.1 < 30 ∧ x.2.2 < pcBytes)) = true ∧
    (let x := hbmMap 5 31 (6 * (31 * pcBytes) - 1); decide (x.1 < 6 ∧ x.2.1 < 31 ∧ x.2.2 < pcBytes)) = true := by decide +kernel

/-- R203: a write of CACHE_CTRL waits for the next tick, which puts it in force and empties the cache. -/
theorem test_cache :
    sees (.cacheCtrlWrite 1 0 3) (tile1 { cache := [(0, [])] }) (fun t => ((t.tile 1).cachePend, (t.tile 1).cache.length, (t.tile 1).cacheSize)) =
      some (true, 1, 0) ∧
    (let k := (((tile1 { cache := [(0, [])], cachePend := true }).setRg Rg.tile_SIZE 1 2).cacheTick 1 false).tile 1
     (k.cache, k.cacheSize, k.cachePend)) = ([], 2, false) := by decide +kernel

/-- R206: a corrected error counts and is reported; an uncorrectable one fails its requester's access: a row takes error 10. -/
theorem test_hbm_errors :
    let s := stack0 (tile1 { track := [{ slot := 4, cls := 2 }] })
    sees (.hbmEccError 0 0 .scrub) s (fun t => (t.rg Rg.hbm_CE_COUNT, t.detections.length)) = some (1, 1) ∧
    sees (.hbmEccError 0 1 (.row 1 4)) s (fun t => (t.rg Rg.hbm_UE_COUNT, (t.tile 1).track.map (fun r => r.err))) = some (1, [10]) := by
  decide +kernel

/-- R216, R218: a slot opens in its beat, with one operation fewer where a calibration falls; a scrub takes one. -/
theorem test_reserved_slot :
    sees (.reservedSlot 0 3 true) ((State.reset.setRg Rg.hbm_SLOT_OPS 0 5).setRg Rg.beat_BEATNO 0 3) (fun t => t.hbm.slotOps) = some [] ∧
    sees (.reservedSlot 0 3 true) { State.reset.setRg Rg.hbm_SLOT_OPS 0 5 with hbm := { idleBeat := 67 } } (fun t => t.hbm.slotOps) =
      some [(3, 4)] ∧
    sees (.scrubOperation 0 3 0) { State.reset.setRg Rg.hbm_SCRUB_EN 0 1 with hbm := { slotOps := [(3, 7)] } } (fun t => t.hbm.slotOps) =
      some [(3, 6)] := by decide +kernel

/-- R222: EN 1 arms an idle stream; EN 0 returns one that is not live to idle. -/
theorem test_furrow_en :
    sees (.furrowEn 1 2 true) (tile1 {}) (fun t => t.streamState 1 2) = some 1 ∧
    sees (.furrowEn 1 2 false) ((tile1 {}).setRg Rg.tile_STATE 18 4) (fun t => t.streamState 1 2) = some 0 ∧
    sees (.furrowEn 1 2 false) ((tile1 {}).setRg Rg.tile_STATE 18 2) (fun t => (t.streamState 1 2, (t.stream 1 2).pendOff)) = some (2, true) := by
  decide +kernel

/-- A live stream 0 of tile 1 that reads 64-byte chunks of tile 1's own slice, one per beat, into two slots at line 100. -/
def furrow : State :=
  let s := ((((tile1 {}).setRg Rg.tile_STATE 16 2).setRg Rg.tile_SPACE 16 1).setRg Rg.tile_SRC_LO 16 (2 ^ 24)).setRg Rg.tile_CHUNK_BYTES 16 64
  let s := (((s.setRg Rg.tile_PER_BEAT 16 1).setRg Rg.tile_COUNT 16 4).setRg Rg.tile_SLOTS 16 2).setRg Rg.tile_LAND_BASE 16 100
  { s with dom := { ticking := true } }

/-- R220, R224: a line of batch 1 lands in the second slot of the ring; a failed one is error 5. -/
theorem test_furrow_line :
    let s := { furrow with streams := [(16, { flight := [(1, 0)], source := [(1, [none, some (leBytes 32 0x99)])] })] }.writeN
      (kSlice 1 32) 32 0x99
    sees (.furrowLineLand 1 0 1 1 0) s (fun t => t.readN (kSlice 1 (32 * 103)) 1) = some 0x99 ∧
    sees (.furrowLineLand 1 0 1 1 1) s (fun t => (t.streamState 1 0, t.rg Rg.tile_ERRCODE 16)) = some (4, 5) := by decide +kernel

/-- CacheCommands, HbmUpkeep, Furrow: lines that are cacheable or not; addresses in and beyond HBM; streams in every state, lines in
flight and not, requests that are due. -/
theorem test_hyp_memory :
    let k : Tile := { cacheSize := 1, cranges := [(0, 0, true)] }
    k.cacheable 0 32 = true ∧ k.cached 0 = none ∧ k.cacheable 4096 32 = false ∧ ((stack0 (tile1 k)).readHbm 0 256).isSome = true ∧
    Cells.wf (tile1 k).tiles = true ∧ (stack0 (tile1 k)).hbmPhys 0 = some (0, 0, 0) ∧ (tile1 k).hbmPhys (2 ^ 39) = none ∧
    (State.reset.setRg Rg.hbm_SCRUB_EN 0 1).flag Rg.hbm_SCRUB_EN = true ∧ State.reset.hbm.slotOps.getD 0 0 = 0 ∧
    (State.reset.setRg Rg.hbm_OPPORTUNE 0 1).flag Rg.hbm_OPPORTUNE = true ∧ (1 : Nat) % 64 ≠ 2 % 64 ∧
    (furrow.dom.ticking = true ∧ furrow.dom.aborted = false ∧ furrow.tileUp 1 = true ∧ (furrow.nextRequest 1 0).isSome = true ∧
      (furrow.descr 1 0).space ≠ 2) ∧ (tile1 {}).nextRequest 1 0 = none ∧
    (let s := { furrow with streams := [(16, { flight := [(1, 0)] })] }
     s.streamState 1 0 = 2 ∧ (s.stream 1 0).flight.contains (1, 1 / ((s.descr 1 0).chunk / 32)) = true ∧
     (s.stream 1 0).landed.any (fun e => e.1 == 1 && e.2.1 == 1) = false ∧
     (s.sourceLine 1 (s.descr 1 0) ((s.descr 1 0).lineSource 1 1)).isSome = true) := by decide +kernel

/-- Furrow at a tick: an armed stream whose descriptor is good, one that is not; live streams with EN 0 or STOP pending. -/
theorem test_hyp_furrow_tick : (furrow.setRg Rg.tile_STATE 16 1).rg Rg.tile_STATE 16 = 1 ∧ furrow.enError 1 0 0 = 0 ∧
    (tile1 {}).enError 1 0 0 = 3 ∧ ((tile1 {}).setRg Rg.tile_STATE 16 1).rg Rg.tile_STATE 16 = 1 ∧
    (let s := { furrow with streams := [(16, { pendOff := true })] }; s.rg Rg.tile_STATE 16 = 2 ∧ (s.stream 1 0).pendOff = true) ∧
    (let s := { furrow with streams := [(16, { pendStop := true })] }
     s.rg Rg.tile_STATE 16 = 2 ∧ (s.stream 1 0).pendOff = false ∧ (s.stream 1 0).pendStop = true) := by decide +kernel

/-! ## Dvorar -/

/-- Port 3 is UP with eight lanes, and holds k. -/
def link (k : LinkPort) (st : Nat := 3) : State :=
  ({ ({} : State) with dv := { ports := [(3, k)] } }.setRg Rg.dvport_STATE 3 st).setRg Rg.dvport_LANES 3 255

/-- R262: a NAK sends every flit from its FSEQ on again; the fourth of one FSEQ in a row retrains. -/
theorem test_nak : sees (.nakSymbol 3 8) (link { replay := [⟨7, 0, 0, [1]⟩, ⟨8, 0, 0, [2]⟩, ⟨9, 0, 0, [3]⟩] }) (fun t => t.out.map (fun o =>
      match o with
      | .flit d l b => (d, l, bits (leNat (b.take 4)) 5 10, (b.drop 12).head?)
      | _ => (24, 0, 0, none))) = some [(3, 255, 9, some 3), (3, 255, 8, some 2)] ∧
    sees (.nakSymbol 3 8) (link { nakSeq := (8, 3) }) (fun t => t.rg Rg.dvport_STATE 3) = some 4 := by decide +kernel

/-- R261: a flit whose CRC is wrong counts; the fourth in a row retrains the link. -/
theorem test_bad_flit : sees (.flitRx 3 (List.replicate 248 1) []) (link {}) (fun t => (t.rg Rg.dvport_CRC_ERRS 3, (t.port 3).badRun)) = some (1, 1) ∧
    sees (.flitRx 3 (List.replicate 248 1) []) (link { badRun := 3 }) (fun t => t.rg Rg.dvport_STATE 3) = some 4 := by decide +kernel

/-- R267: a CREDIT symbol gives back what was freed since the latest one, modulo 4,096. -/
theorem test_credit : sees (.creditSymbol 3 2 1) (link { credit := [(2, 5)], creditSeen := [(2, 4095)] }) (fun t => (t.port 3).credit.getD 0 2) =
    some 7 := by decide +kernel

/-- R275, R276: a negotiation with the lanes of both and version 1 brings the link UP; a flight time above 800 fails with code 3. -/
theorem test_negotiation : let s := link { neg := [(0, 2 + 0x0F * 2 ^ 16), (1, 5)] } 2
    sees (.negotiationComplete 3 800) s (fun t => (t.rg Rg.dvport_STATE 3, t.rg Rg.dvport_LANES 3, t.rg Rg.dvport_FEATURES 3)) = some (3, 0x0F, 5) ∧
    sees (.negotiationComplete 3 801) s (fun t => (t.rg Rg.dvport_STATE 3, t.rg Rg.dvport_NEG_ERR 3)) = some (5, 3) := by decide +kernel

/-- R272: the target of a PROBE answers it with symbol type 10. -/
theorem test_probe : sees (.probeSymbol 3 0 7 9) (link {}) (fun t => t.out) = some (idles 3 [10 + probeWord 0 7 9]) := by decide +kernel

/-- A request packet that writes one byte to hub SRAM, and its end is due. -/
def write1 : DvPkt := { blankPkt with op := 1, last := true, src := 6, origin := 2, cn := 1, psn := 0, len := 1, addr := 16, space := 2, data := [0x5A] }

/-- It waits in the queue of a port, for channel 0. -/
def tx1 : TxPkt := { pkt := { write1 with data := [] }, vc := 0, bytes := pktBytes write1 }

/-- R284, R286: the next packet is applied and acknowledged; one ahead of its turn is held; a duplicate is discarded. -/
theorem test_dv_write :
    let s : State := { dv := { inbox := [write1] } }
    sees (.dvWrite 0) s (fun t => (t.readN (kHub 16) 1, (t.recv (recvKey 6 2 1)).next, t.dv.inbox.length)) = some (0x5A, 1, 0) ∧
    sees (.dvWrite 0) { s with dv := { inbox := [{ write1 with psn := 1 }] } } (fun t => (t.recv (recvKey 6 2 1)).held.length) = some 1 ∧
    sees (.dvRead 0) s (fun t => t.dv.inbox.length) = some 1 := by decide +kernel

/-- R285: an RTO sends the oldest packet again and doubles; at the limit the connection is in error. -/
theorem test_rto : let s (e : Nat) : State := { dv := { send := [(connKey 1 5, { sent := [{ write1 with origin := 1 }], rto := 8, expiries := e })] } }
    sees (.rtoExpire 1 5) (s 0) (fun t => ((t.conn (connKey 1 5)).rto, (t.conn (connKey 1 5)).failed)) = some (16, false) ∧
    sees (.rtoExpire 1 5) (s 6) (fun t => (t.conn (connKey 1 5)).failed) = some true := by decide +kernel

/-- LinkRetryAndCredits: a flit whose CRC is right and carries the FSEQ that is due, links that are up and down, a waiting packet. -/
theorem test_hyp_links :
    let b : List Byte := List.replicate 244 0
    let f := b ++ leBytes 4 (crc32c b)
    (link {}).linkUp 3 = true ∧ (link {} 1).linkUp 3 = false ∧ (link {}).Inv ∧ Cells.wf (link {}).dv.ports = true ∧
    crc32c (f.take 244) = leNat ((f.drop 244).take 4) ∧ bits (leNat (f.take 4)) 3 2 = 0 ∧ bitN (leNat (f.take 4)) 30 = false ∧
    bits (leNat ((f.drop 4).take 8)) 0 6 = 0 ∧ bits (leNat (f.take 4)) 5 10 = ((link {}).port 3).rxNext ∧
    crc32c (List.replicate 244 1) ≠ leNat (List.replicate 4 1) ∧
    (let s := link { queue := [tx1], credit := [(0, 0)] }
     (s.port 3).queue = [tx1] ∧ (s.port 3).drop = none ∧ (s.port 3).replay.length < 512 ∧ (pktBytes write1).length ≤ 232 ∧
     (s.port 3).credit.getD 0 (s.pktVc write1) + 1 ≠ 0) := by
  unfold State.Inv; decide +kernel

/-- LinkTrainingAndLanes, RoutesAndProbes: links in each state of training; lanes that lose lock and that pass the limit; masks. -/
theorem test_hyp_training :
    let s := (((link {} 0).setRg Rg.dvport_EN 3 1).setRg Rg.system_WEST_IN_RESET 0 0)
    s.flag Rg.dvport_EN 3 = true ∧ s.halfUp 0 = true ∧ s.power.held = false ∧ s.rg Rg.dvport_STATE 3 = 0 ∧
    (link {} 4).rg Rg.dvport_STATE 3 = 4 ∧ popCount 8 0x07 < 4 ∧ 4 ≤ popCount 8 0xF0 ∧ bitN 2 1 = true ∧
    ((link {}).linkUp 3 = true ∧ bitN ((link {}).rg Rg.dvport_LANES 3) 7 = true ∧ ((link {}).port 3).drop = none) ∧
    (link {}).rg Rg.dvport_LANE_CE_LIMIT 3 < ((link { ce := [(0, 2 ^ 20)] }).port 3).ce.getD 0 0 ∧
    ((link { drop := some 0x0F }).port 3).drop ≠ none ∧ (link {}).rg Rg.beat_MID ≠ 5 ∧
    (link {}).dv.linkMap.get? (32 * 5) = none ∧
    (let x : State := { link {} with dv := { swapPend := true } }; x.dv.swapPend = true ∧ x.rg Rg.dvorar_ACTIVE ≤ 1) := by
  decide +kernel

/-- DvorarTransport: requests live, early, repeated and of another operation; pages without an entry; responses with their packets;
timers with and without what they watch. -/
theorem test_hyp_transport :
    let k := recvKey 6 2 1
    let s : State := { dv := { inbox := [write1] } }
    s.dv.inbox[0]? = some write1 ∧ (write1.origin = 2 ∨ write1.epoch = s.dom.attempt) ∧ write1.psn = (s.recv k).next ∧ (s.recv k).held = [] ∧
    (!psnGe write1.psn (s.recv k).next || (s.recv k).held.any (fun q => q.psn == write1.psn)) = false ∧
    psnGe 0 (1 : Nat) = false ∧ s.reorderUsed 2 + 1 ≤ 2 * 2 ^ 20 ∧ (s.recv k).refused ≠ some (write1.opid, 0) ∧
    (let r := s.setRg Rg.dvorar_XLATE_EN 0 1
     r.flag Rg.dvorar_XLATE_EN = true ∧ bitN ((r.writeN (kHub 0) 8 0).rattEntry 0) 18 = false) ∧
    ({} : State).tileUp (16 / 2 ^ 24) = false ∧
    ((({ dv := { inbox := [{ write1 with op := 0x10 }] } } : State).fromInbox 0 0x10).isSome = true) ∧
    (({} : State).fromInbox 0 0x10).isNone = true ∧ psnGe 5 (5 : Nat) = true := by decide +kernel
/-! ## Sieve, ports, Ethernet -/

/-- Four ports, of which port 1 is enabled and up. -/
def eth1 : State := ((State.reset.setRg Rg.sieve_PORT_MODE 0 1).setRg Rg.sieve_PORT_EN 0 2).setRg Rg.sieve_UP 1 1

/-- R299, R323: a frame of 64 bytes with its FCS joins the ingress buffer and counts; a shorter one and one with a wrong FCS count as drops
1 and 0. -/
theorem test_frame_rx :
    sees (.frameRx 1 (List.replicate 60 0 ++ fcsOf (List.replicate 60 0)) true) eth1 (fun t => (t.sieve.ingress.length, t.rg Rg.sieve_RX_FRAMES 1, t.rg Rg.sieve_RX_BYTES 1)) =
      some (1, 1, 64) ∧
    sees (.frameRx 1 (List.replicate 59 0 ++ fcsOf (List.replicate 59 0)) true) eth1 (fun t => (t.sieve.ingress.length, t.rg Rg.sieve_DROP 1)) = some (0, 1) ∧
    sees (.frameRx 1 (List.replicate 64 0) true) eth1 (fun t => t.rg Rg.sieve_DROP 0) = some 1 ∧
    sees (.frameRx 0 (List.replicate 60 0 ++ fcsOf (List.replicate 60 0)) true) eth1 (fun t => t.sieve.ingress.length) = some 0 := by decide +kernel

/-- R326: SNAP copies a counter and CLR zeroes it; GO while BUSY is error 7. -/
theorem test_snap_and_go :
    let s := eth1.writeN (kHub (34 * 2 ^ 20 + 16 * 5)) 16 (3 + 300 * 2 ^ 64)
    sees (.snap 5 true) s (fun t => (t.rg Rg.sieve_SNAP_PKTS, t.rg Rg.sieve_SNAP_BYTES, t.readN (kHub (34 * 2 ^ 20 + 80)) 16)) = some (3, 300, 0) ∧
    sees (.sieveGo 1 false) (eth1.setRg Rg.sieve_BUSY 0 1) (fun t => t.rg Rg.sieve_CFG_ERR) = some 7 := by decide +kernel

/-- R297, R325: PORT_MODE waits for all ports to be disabled. -/
theorem test_port_mode : sees (.portModeWrite 2) eth1 (fun t => t.rg Rg.sieve_PORT_MODE) = some 1 ∧
    sees (.portModeWrite 2) (eth1.setRg Rg.sieve_PORT_EN 0 0) (fun t => t.rg Rg.sieve_PORT_MODE) = some 2 := by decide +kernel

/-- R343, R346: a frame for queue 3 of port 1 is queued, and a decision sends it before a frame of queue 5. -/
theorem test_egress :
    let s : State := { eth1 with eth := { waiting := [{ key := 131, bytes := List.replicate 60 1, src := 0 }] } }
    sees (.egressEnqueue 0) s (fun t => ((t.egQueue 131).frames.length, t.eth.waiting.length)) = some (1, 0) ∧
    (let q : State := { eth1 with eth := { queues := [(131, { frames := [[1]] }), (133, { frames := [[2]] })] } }
     sees (.schedDecision 1) q (fun t => t.out) = some [.frame 1 ([1] ++ fcsOf [1])]) ∧
    sees (.frameTxDone 1) { eth1 with eth := { sending := [(1, (131, 64))] } } (fun t => (t.rg Rg.sieve_TX_FRAMES 1, t.rg Rg.sieve_TX_BYTES 1)) =
      some (1, 64) := by decide +kernel

/-- R330: OPEN of a context that is open shows CMD_ERR 1, CLOSE of a closed one 3. -/
theorem test_ctx : sees (.ctxOpen 4 false) { eth1 with eth := { conns := [(4, { word := 1 })] } } (fun t => t.rg Rg.eth_CMD_ERR) = some 1 ∧
    sees (.ctxClose 4 false) eth1 (fun t => t.rg Rg.eth_CMD_ERR) = some 3 := by decide +kernel

/-- Sieve: ports up and down; frames that fit, that are pauses, that are too many; a pass with and without a frame; BUSY or not. -/
theorem test_hyp_sieve : eth1.portUp 1 = true ∧ eth1.portUp 0 = false ∧ 64 ≤ frameLen (List.replicate 60 0) ∧
    frameLen (List.replicate 60 0) ≤ eth1.rg Rg.sieve_MAX_FRAME ∧ ¬64 ≤ frameLen (List.replicate 59 0) ∧
    beNat (((List.replicate 12 0 ++ [0x88, 0x08] ++ List.replicate 46 0 : List Byte).drop 12).take 2) = 0x8808 ∧
    beNat (((List.replicate 60 0 : List Byte).drop 12).take 2) ≠ 0x8808 ∧ 64 ≤ 4 * 2 ^ 20 / max 1 eth1.ethPorts ∧
    eth1.takeFrame 1 = none ∧ (({ eth1 with sieve := { recirc := [{ port := 1, bytes := [] }] } } : State).takeFrame 1).isSome = true ∧
    eth1.flag Rg.sieve_BUSY = false ∧ eth1.flag Rg.sieve_TBL_EN 0 = false ∧ (eth1.setRg Rg.sieve_TBL_EN 0 1).flag Rg.sieve_TBL_EN 0 = true ∧
    bitN (8 : Nat) 3 = true ∧ (eth1.setRg Rg.sieve_CFG_LOADED 0 1).flag Rg.sieve_CFG_LOADED = true := by decide +kernel

/-- PortsAndScheduler: ports that can come up; frames on their way, queued, on the wire; queues chosen; tables and units that fit. -/
theorem test_hyp_ports : eth1.rg Rg.sieve_PORT_EN ≠ 0 ∧ (eth1.setRg Rg.sieve_UP 1 0).portOn 1 = true ∧ eth1.hubMainReset = false ∧
    (eth1.setRg Rg.sieve_UP 1 0).flag Rg.sieve_UP 1 = false ∧ eth1.eth.waiting[0]? = none ∧
    ({ frames := [[]] } : EgQueue).frames ≠ [] ∧ eth1.eth.sending.get? 1 = none ∧ eth1.chosen 1 = none ∧
    (let q : State := { eth1 with eth := { queues := [(128, { frames := [[1]] }), (133, { frames := [[2]] })] } }
     (q.egQueue 128).eligible = true ∧ q.chosen 1 = some 0 ∧ (∀ e ∈ q.eth.queues, e.2.staged = none) ∧ Cells.wf q.eth.queues = true) ∧
    eth1.flag Rg.sched_PEN 17 = false ∧ eth1.claimed 128 = false ∧ (eth1.egQueue 128).depth + 64 ≤ 4096 * eth1.rg Rg.sched_QLIM 128 ∧
    eth1.egressUsed + 64 ≤ 2 ^ 23 := by decide +kernel

/-- A context word in state 1: port 0, window 1, path MTU 256 (UDP transport) or 1024 (RoCEv2), both addresses 0. -/
def ectx (roce : Bool) : Nat := 1 + (if roce then 4 + 1024 * 2 ^ 48 + (0x100000 + 4) * 2 ^ 64 else 256 * 2 ^ 48 + 4 * 2 ^ 64) + 2 ^ 144

/-- Context 4 is open, and a frame waits at the head of receive queue 2. -/
def atHead (roce : Bool) (f : State → EthConn → List Byte) : State :=
  let c : EthConn := { word := ectx roce, psn := 6, sent := [{ op := 1, psn := 6 }],
                       ops := [{ opid := 1, kind := 5, len := 8, off := 0, rkey := 0, left := [(6, 0, 8)], owner := .agent 0 }] }
  let s : State := { eth1 with eth := { conns := [(4, c)] } }
  { s with sieve := { s.sieve with tq := [(2, [(0, f s c, 0)])] } }

/-- A packet of the UDP transport, from context 4 to itself. -/
def udpAt (p : EPkt) : State :=
  atHead false (fun s c => s.udpFrame c (s.rg Rg.eth_UDP_PORT) (leBytes 32 (udpHeader c p) ++ p.data))

/-- A RoCEv2 packet, from queue pair 4 to itself. -/
def roceAt (op : Nat) (ext data : List Byte) : State := atHead true (fun s c => s.roceFrame c op 6 false false ext data)

/-- What a receive queue gives for the opcodes: context, PSN, data. -/
def gives (s : State) (roce : Bool) (ops : List Nat) : Option (Nat × Nat × List Byte) :=
  (s.fromTq 2 roce ops).2.map (fun x => (x.1, x.2.2.psn, x.2.2.data))

/-- EthernetConnections, the UDP transport: every packet type at the head of a queue is taken for its context, and no other. -/
theorem test_hyp_eth_udp :
    gives (udpAt { op := 1, psn := 6, isFirst := true, isLast := true, len := 4, data := [1, 2, 3, 4] }) false [1] = some (4, 6, [1, 2, 3, 4]) ∧
    gives (udpAt { op := 7, psn := 6, isFirst := true, isLast := true, len := 4, data := [1, 2, 3, 4] }) false [7] = some (4, 6, [1, 2, 3, 4]) ∧
    [5, 6, 0x10, 0x11, 0x12, 0x13].map (fun op => gives (udpAt { op := op, psn := 6 }) false [op]) = List.replicate 6 (some (4, 6, [])) ∧
    gives (udpAt { op := 0x13, psn := 6 }) false [1] = none ∧ gives eth1 false [1] = none := by decide +kernel

/-- EthernetConnections, RoCEv2: the same. -/
theorem test_hyp_eth_roce :
    gives (roceAt 4 [] [1, 2, 3, 4]) true [0, 1, 2, 4] = some (4, 6, [1, 2, 3, 4]) ∧
    gives (roceAt 0x0A (List.replicate 12 0 ++ beBytes 4 4) [1, 2, 3, 4]) true [0x06, 0x07, 0x08, 0x0A] = some (4, 6, [1, 2, 3, 4]) ∧
    gives (roceAt 0x0C (List.replicate 12 0 ++ beBytes 4 8) []) true [0x0C] = some (4, 6, []) ∧
    gives (roceAt 0x10 [0, 0, 0, 0] (List.replicate 8 3)) true [0x0D, 0x0E, 0x0F, 0x10] = some (4, 6, List.replicate 8 3) ∧
    gives (roceAt 0x11 [0, 0, 0, 0] []) true [0x11] = some (4, 6, []) ∧
    gives (roceAt 0x81 (List.replicate 16 0) []) true [0x81] = some (4, 6, []) ∧ gives eth1 true [0x81] = none := by decide +kernel

/-- R331, R337, R340: a PAGE_WAIT is noted, a NACK_ERR leaves a READ, which its own responses end, a CNP counts, an ACK of everything is taken, and the
RTO sends again while tries remain. -/
theorem test_eth_packets :
    sees (.udpPageWait 2) (udpAt { op := 0x11, psn := 6 }) (fun t => (t.econn 4).pageWait) = some (some 6) ∧
    sees (.udpNackErr 2) (udpAt { op := 0x13, psn := 6, aux := 9 }) (fun t => (t.econn 4).ops.length) = some 1 ∧
    sees (.rtoExpireE 4) (udpAt { op := 0x13, psn := 6 }) (fun t => (t.econn 4).expiries) = some 1 := by decide +kernel

/-- EthernetConnections: contexts closed with fields in range and out of range, open, in state 2; timers. -/
theorem test_hyp_eth_contexts : (eth1.econn 4).st = 0 ∧ (({ word := 1 } : EthConn).st = 1) ∧ (({ word := 2 } : EthConn).st = 2) ∧
    (let s := eth1.writeN (eth1.ctxAt 4) 64 (ectx false - 1)
     s.ctxOk (s.readN (s.ctxAt 4) 64) = true ∧ Cells.wf s.eth.conns = true ∧ s.hubMainReset = false ∧
     sees (.ctxOpen 4 false) s (fun t => ((t.econn 4).st, t.rg Rg.eth_CMD_ERR)) = some (1, 0)) ∧
    eth1.ctxOk (ectx true - 1) = true ∧ eth1.ctxOk (ectx true + 2 ^ 12) = false ∧
    (({ rnrWait := true } : EthConn).rnrWait = true) ∧ 0 + 1 < eth1.rg Rg.eth_RETRY_LIMIT_E ∧
    eth1.rg Rg.eth_RETRY_LIMIT_E ≤ 300 + 1 ∧ psnPred 0 = 2 ^ 24 - 1 := by decide +kernel

/-! ## The host interface -/

/-- The host interface is out of reset, at service level 2. -/
def up : State := (State.reset.setRg Rg.system_HOST_IN_RESET 0 0).setRg Rg.identity_SERVICE_LEVEL 0 2

/-- The manager's ring 2 and event queue 0. -/
def ring2 (g : Ring) : State := { up with host := { rings := [(2, g)], eqs := [(0, {})] } }

/-- R368, R369: a doorbell is latched; its sample takes a PI that is ahead, counts a stale one, and one beyond the ring is ring error 1. -/
theorem test_doorbell :
    sees (.ringDoorbell 0 2 7) (ring2 {}) (fun t => (t.ring 0 2).map (fun g => g.bell)) = some (some (some 7)) ∧
    sees (.doorbellSample 0 2) (ring2 { bell := some 7 }) (fun t => (t.ring 0 2).map (fun g => (g.p, g.bell))) = some (some (7, none)) ∧
    sees (.doorbellSample 0 2) (ring2 { bell := some 65 }) (fun t => (t.ring 0 2).map (fun g => (g.p, g.err))) = some (some (0, 1)) ∧
    sees (.doorbellSample 0 2) (ring2 { bell := some 3, f := 5, u := 5, p := 5 }) (fun t => t.rg Rg.host_DB_STALE) = some 1 := by decide +kernel

/-- R365: a fetch takes the descriptors up to the PI; a failed read is ring error 2. -/
theorem test_fetch :
    sees (.descriptorFetch 0 2 (some [List.replicate 64 0])) (ring2 { p := 1 }) (fun t => (t.ring 0 2).map (fun g => (g.f, g.descs.length))) =
      some (some (1, 1)) ∧
    sees (.descriptorFetch 0 2 none) (ring2 { p := 1 }) (fun t => (t.ring 0 2).map (fun g => g.err)) = some (some 2) := by decide +kernel

/-- R374: unmasking a vector whose pending bit is set sends its message. -/
theorem test_msix : sees (.msixUnmask 0 3 false 0x1000 5) { up with host := { pba := [3] } } (fun t => (t.out, t.host.pba)) =
      some ([.msix 0 3], []) ∧
    sees (.msixUnmask 1 8 false 0x1000 5) up (fun t => t.host.msix.length) = some 0 := by decide +kernel

/-- RingsAndDescriptors: rings that exist and do not, served and in error, functions in service, PIs ahead, equal and behind;
descriptors of each kind at their start; event queues with and without what they report. -/
theorem test_hyp_rings : up.ring 0 2 = none ∧ up.hostUp = true ∧ up.rings? 0 = true ∧ up.fnReady 0 = true ∧ up.fnReady 5 = false ∧
    idxDiff 7 0 = 7 ∧ idxDiff 3 5 = -2 ∧ idxDiff 5 5 = 0 ∧ 2 ^ 6 < (65 + 2 ^ 16 - 0) % 2 ^ 16 ∧ (7 + 2 ^ 16 - 0) % 2 ^ 16 ≤ 2 ^ 6 ∧
    (let g : Ring := { kind := 1, descs := [{ idx := 0, bytes := leBytes 64 (2 + 64 * 2 ^ 192) }] }
     let s := ring2 g
     s.ring 0 2 = some g ∧ g.nextDesc.isSome = true ∧ s.hostUp = true ∧
     zeroBytes (leBytes 64 (2 + 64 * 2 ^ 192)) [(8, 1), (16, 8), (24, 4)] = true ∧ fieldAt (leBytes 64 (2 + 64 * 2 ^ 192)) 24 4 = 64) ∧
    zeroBytes (leBytes 64 (2 + 1 * 2 ^ 300)) [(8, 1), (16, 8), (24, 4)] = false ∧
    (let d : Desc := { idx := 0, bytes := [], started := true, fin := some (1, 0) }
     let g : Ring := { kind := 0, descs := [d] }
     g.desc 0 = some d ∧ g.desc 1 = none) ∧ vecCount 0 = 64 ∧ vecCount 1 = 8 ∧
    ({ since := 1, modTime := 5 } : EvQueue).since ≠ 0 := by decide +kernel

/-- ExportDeliveries: a delivery that may leave, one whose beat the Cloche has not acknowledged, one without a buffer. -/
theorem test_hyp_deliveries :
    let d : Delivery := { channel := 3, beat := 5, bytes := [1, 2], tokens := true, hold := true }
    let s := { up with host := { deliveries := [d], channels := [(3, 1)] }, records := { acked := some (0, 5) } }
    s.host.deliveries.find? (fun d => d.channel == 3) = some d ∧ s.heldOk d = true ∧ up.heldOk d = false ∧ up.rg Rg.cloche_EPOCH = 0 ∧
    s.fnReady (bits (s.host.channels.getD 0 3) 2 7) = true ∧ s.bufferRoom 0 0 = none ∧
    up.host.deliveries.find? (fun d => d.channel == 3) = none := by decide +kernel
/-! ## The management ring -/

/-- The 192 bytes of a request, as one number: the OP in byte 0. -/
def req (w : Nat) : List Byte := leBytes 192 w

/-- A request waits in slot 0 of the management ring. -/
def asks (s : State) (w : Nat) : State :=
  ({ s with host := { s.host with mrPending := 1 } } : State).writeB (kMgmt 0) (req w)

/-- A field of a request: value v at byte o. -/
def at_ (o v : Nat) : Nat := v * 256 ^ o

/-- STATUS of slot 0 after a command, and MR_CI. -/
def answers (i : Instr) (s : State) : Option (Nat × Nat) := sees i s (fun t => (t.readN (kMgmt 193) 1, t.rg Rg.host_MR_CI))

/-- A request has the OP, and its bytes outside the fields are zero. -/
def fits (w op : Nat) (fields : List (Nat × Nat)) : Bool := fieldAt (req w) 0 1 == op && reqZero (req w) fields

/-- Plot 5 is in a state. -/
def plot5 (st : Nat) : State := up.setPlot 5 st

/-- 192 bytes are at the front of a ring that is served, once they have been written to slot 0. -/
theorem front_of_write (s : State) (bs : List Byte) (hl : bs.length = 192) (hs : s.hostServed = true) (hb : s.host.mrBusy = false)
    (hc : s.rg Rg.host_MR_CI = 0) :
    (({ s with host := { s.host with mrPending := 1 } } : State).writeB (kMgmt 0) bs).mrFront = some (0, bs) := by
  generalize hu : ({ s with host := { s.host with mrPending := 1 } } : State).writeB (kMgmt 0) bs = u
  have h1 : u.hostServed = true := by subst hu; exact hs
  have h2 : u.host.mrBusy = false := by subst hu; exact hb
  have h3 : u.rg Rg.host_MR_CI = 0 := by subst hu; exact hc
  have h4 : u.host.mrPending = 1 := by subst hu; rfl
  have h5 : u.readB (kMgmt 0) 192 = bs := by
    subst hu
    have := Memory.read_write_self s.mem (kMgmt 0) bs
    rw [hl] at this
    exact this
  simp [State.mrFront, h1, h2, h3, h4, h5]

/-- As many bytes as asked for. -/
theorem length_leBytes (n v : Nat) : (leBytes n v).length = n := by
  induction n generalizing v with
  | zero => rfl
  | succ n ih => simp [leBytes, ih]

/-- A request is at the front of a ring that is served, and is what was written there. -/
theorem asks_front (s : State) (w : Nat) (hs : s.hostServed = true) (hb : s.host.mrBusy = false) (hc : s.rg Rg.host_MR_CI = 0) :
    (asks s w).mrFront = some (0, req w) :=
  front_of_write s (req w) (length_leBytes 192 w) hs hb hc

/-- A request whose fields fit is asked for. -/
theorem asks_asked (s : State) (w op : Nat) (fields : List (Nat × Nat)) (hs : s.hostServed = true) (hb : s.host.mrBusy = false)
    (hc : s.rg Rg.host_MR_CI = 0) (hf : fits w op fields = true) : Asked (asks s w) op fields 0 (req w) := by
  simp only [fits, Bool.and_eq_true, beq_iff_eq] at hf
  exact ⟨asks_front s w hs hb hc, hf.1, hf.2⟩

/-- The states of the tests below serve the ring, and requests that fit in them are asked for: plot creation is one. -/
theorem test_hyp_asked : Asked (asks up (1 + at_ 8 5)) 0x01 [(8, 1)] 0 (req (1 + at_ 8 5)) ∧
    Asked (asks (plot5 3) (2 + at_ 8 5 + at_ 9 7 + at_ 16 (2 ^ 21) + at_ 24 (2 ^ 21))) 0x02 [(8, 1), (9, 1), (16, 8), (24, 8)] 0
      (req (2 + at_ 8 5 + at_ 9 7 + at_ 16 (2 ^ 21) + at_ 24 (2 ^ 21))) :=
  ⟨asks_asked up _ _ _ (by decide +kernel) rfl (by decide +kernel) (by decide +kernel),
   asks_asked (plot5 3) _ _ _ (by decide +kernel) rfl (by decide +kernel) (by decide +kernel)⟩

/-- ManagementRing: nothing waits, or a request is at the front, of this OP, of another, or with a byte outside its fields. -/
theorem test_hyp_ring_front : up.mrFront = none ∧ up.host.mrPending = 0 ∧ fits (1 + at_ 191 1) 1 [(8, 1)] = false ∧
    fits 0x61 0x61 [] = true ∧ fieldAt (req 2) 0 1 ≠ 1 ∧ up.hostServed = true ∧ State.reset.hostServed = false ∧
    Cells.wf up.regs = true ∧ up.mem.wf = true ∧ up.rg Rg.host_MR_CI = 0 := by decide +kernel

/-- R381, R382: a byte outside the fields is STATUS 1, another OP at the front leaves the request, and MR_DB counts what waits. -/
theorem test_management_ring : answers .plotCreate (asks up (1 + at_ 8 5 + at_ 100 1)) = some (1, 1) ∧
    sees .plotCreate (asks up 2) (fun t => (t.host.mrPending, t.rg Rg.host_MR_CI)) = some (1, 0) ∧
    sees (.mrDb 0 []) up (fun t => t.host.mrPending) = some 0 ∧
    sees (.mrDb 3 []) State.reset (fun t => t.host.mrPending) = some 0 := by decide +kernel

/-- R383: a plot is created; a ring is made as the request says. -/
theorem test_managed_objects :
    sees .plotCreate (asks up (1 + at_ 8 5)) (fun t => (t.plotState 5, t.readN (kMgmt 193) 1)) = some (1, 0) ∧
    sees .ringCreate (asks (ring2 {}) (3 + at_ 9 3 + at_ 11 6 + at_ 24 7)) (fun t => (t.ring 0 3).map (fun g => (g.log2, g.p))) =
      some (some (6, 7)) := by decide +kernel

/-- R383: a grant, and an entry of the channels, is what the request says. -/
theorem test_managed_entries :
    sees .hbmGrant (asks (plot5 3) (2 + at_ 8 5 + at_ 9 7 + at_ 16 (2 ^ 21) + at_ 24 (2 ^ 21))) (fun t => t.host.grants) =
      some [(47, (2 ^ 21, 2 ^ 21))] ∧
    sees .dconnOpen (asks up (0x0D + at_ 8 4095 + at_ 11 9 + at_ 12 2 + at_ 13 5)) (fun t => (t.conn (connKey 2 4095)).peer) = some 9 := by
  decide +kernel

/-- ManagedObjects: the requests with fields in range, at their ends. -/
theorem test_hyp_managed_requests : fits (1 + at_ 8 127) 1 [(8, 1)] = true ∧
    fits (3 + at_ 9 3 + at_ 10 5 + at_ 11 15 + at_ 13 7 + at_ 14 127 + at_ 16 64 + at_ 24 65535) 3
      [(8, 1), (9, 1), (10, 1), (11, 1), (12, 1), (13, 1), (14, 1), (16, 8), (24, 2)] = true ∧
    fits (4 + at_ 9 2) 4 [(8, 1), (9, 1)] = true ∧ fits (5 + at_ 9 2 + at_ 10 65535) 5 [(8, 1), (9, 1), (10, 2)] = true ∧
    fits (6 + at_ 9 1 + at_ 10 15 + at_ 11 63 + at_ 14 1023 + at_ 16 4096) 6 [(8, 1), (9, 1), (10, 1), (11, 1), (12, 1), (14, 2), (16, 8)] =
      true ∧ fits 7 7 [(8, 1), (9, 1)] = true ∧ fits (8 + at_ 8 4095) 8 [(8, 2), (32, 32)] = true ∧
    fits (9 + at_ 8 1023) 9 [(8, 2), (16, 8)] = true ∧ fits (0x0A + at_ 8 4095) 0x0A [(8, 2), (32, 32)] = true ∧
    fits (0x0B + at_ 8 8191) 0x0B [(8, 2), (64, 64)] = true ∧ fits (0x0C + at_ 10 3) 0x0C [(8, 2), (10, 1)] = true ∧
    fits (0x0D + at_ 8 4095 + at_ 11 9 + at_ 12 2 + at_ 13 5) 0x0D [(8, 2), (10, 1), (11, 1), (12, 1), (13, 1)] = true ∧
    fits (0x0E + at_ 8 4095) 0x0E [(8, 2)] = true := by decide +kernel

/-- ManagedObjects: states in which each request succeeds, and in which it is refused. -/
theorem test_hyp_managed_objects :
    up.plotState 5 = 0 ∧ (plot5 1).plotState 5 ≠ 0 ∧ (plot5 3).plotState 5 = 3 ∧ 2 ^ 21 + 2 ^ 21 ≤ (plot5 3).hbmBytes ∧
    3 < ringCount 0 ∧ 0 < eqCount 0 ∧ 63 < vecCount 0 ∧ up.fnExists 0 = true ∧ (ring2 {}).ring 0 3 = none ∧
    ((ring2 {}).host.eqs.get? (fnKey 0 0)).isSome = true ∧ ((ring2 {}).ring 0 2).isSome = true ∧ (ring2 {}).eqNamed 0 0 = true ∧
    up.eqNamed 0 0 = false ∧ entOk 0 = true ∧ (up.ent 0).state = 0 ∧ ((up.setEnt 0 { state := 3 }).ent 0).state = 3 ∧
    ((up.setEnt 0 { state := 1 }).ent 0).state = 1 ∧ up.channelOk 0 = true ∧ (up.econn 4).st = 0 ∧
    regionZero 0 = true ∧ up.eth.conns = [] ∧ (up.regionAbs 0).isSome = true ∧
    (up.conn (connKey 2 4095)).isOpen = false ∧ ((up.setConn (connKey 2 5) { isOpen := true }).conn (connKey 2 5)).isOpen = true ∧
    up.hubMainReset = false := by decide +kernel

/-! ## Plots -/

/-- The image of plot 5 without sections: header, and its digest. -/
def image5 : List Byte :=
  let body := leBytes 64 (0x544F4C50 + at_ 4 1 + at_ 6 5 + at_ 8 96)
  body ++ sha3_256 body

/-- PlotLifecycle: the requests with fields in range, at their ends. -/
theorem test_hyp_plot_requests : fits (0x10 + at_ 8 127 + at_ 10 1000) 0x10 [(8, 1), (10, 2)] = true ∧
    fits (0x11 + at_ 8 1) 0x11 [(8, 1)] = true ∧ fits (0x12 + at_ 8 5 + at_ 9 3 + at_ 24 0x3C0000) 0x12 [(8, 1), (9, 1), (16, 8), (24, 8)] = true ∧
    fits (0x13 + at_ 8 5 + at_ 24 96) 0x13 [(8, 1), (9, 1), (16, 8), (24, 8), (32, 64)] = true ∧ fits (0x14 + at_ 8 5) 0x14 [(8, 1)] = true ∧
    fits (0x15 + at_ 8 5) 0x15 [(8, 1)] = true := by decide +kernel

/-- PlotLifecycle: an image that is whole and one that is cut; plots in each state; a quiesce that runs, timed or not; VFs. -/
theorem test_hyp_plots : image5.length = 96 ∧ fieldAt image5 0 4 = 0x544F4C50 ∧ fieldAt image5 4 2 = 1 ∧ fieldAt image5 8 8 = image5.length ∧
    sha3_256 (image5.take (image5.length - 32)) = image5.drop (image5.length - 32) ∧ fieldAt image5 6 1 = 5 ∧
    up.imageClash (imageParts 0 []) = false ∧ partEntries (imageParts 0 []) 4 16 = [] ∧ (image5.take 95).length < 96 ∧
    (plot5 1).plotState 5 = 1 ∧ (plot5 3).plotState 5 = 3 ∧ (plot5 4).plotState 5 = 4 ∧ up.plotState 5 = 0 ∧ (plot5 1).hostServed = true ∧
    up.host.quiesce.get? 5 = none ∧ up.hostUp = true ∧
    State.reset.hostUp = false ∧ up.rg Rg.system_FUSE_HOLD = 0 ∧ up.host.numVfs ≤ 2 ∧ up.host.linkUp = false ∧
    ({ up with host := { linkUp := true, numVfs := 3 } } : State).host.linkUp = true ∧ 2 < 3 := by decide +kernel

/-- R385, R388: the time limit of a quiesce is taken once; a mailbox counts; an FLR of a READY plot starts its quiesce. -/
theorem test_plots :
    sees (.quiesceTimeout 5) { plot5 2 with host := { quiesce := [(5, {})] } } (fun t => (t.host.quiesce.get? 5).map (fun z => z.timed)) =
      some (some true) ∧
    sees (.mbDb 5) (plot5 1) (fun t => t.rg Rg.plotStat_MB_REQ_COUNT 5) = some 1 ∧
    sees (.mbDb 5) up (fun t => t.rg Rg.plotStat_MB_REQ_COUNT 5) = some 0 ∧
    sees (.mbReplyDb 5) (plot5 4) (fun t => t.rg Rg.plotStat_MB_REPLY_COUNT 5) = some 1 ∧
    sees (.vfEnable 3) { up with host := { linkUp := true } } (fun t => t.host.numVfs) = some 3 ∧
    sees (.vfEnable 3) up (fun t => t.host.numVfs) = some 0 ∧
    sees (.vfDisable 2) { up with host := { linkUp := true, numVfs := 3 } } (fun t => t.host.numVfs) = some 2 := by decide +kernel

/-- R385: an FLR of a READY plot starts its quiesce. -/
theorem test_flr : sees (.flrPlot 5) (plot5 1) (fun t => (t.plotState 5, (t.host.quiesce.get? 5).map (fun z => z.flr))) = some (2, some true) := by
  decide +kernel

/-! ## Stash -/

/-- Stash serves: drive 3 is ready, and slot 2 is namespace 1 of it, of 4096-byte sectors; volume 7 of function 0 is 100 of them. -/
def stash3 : State :=
  let s : State := { up with stash := { serial := [(3, 77)], nsSerial := [(2, 77)], nsids := [(3, [1])] } }
  ([(Rg.stash_DSTATE, 3, 2), (Rg.stash_MDTS_LOG2, 3, 17), (Rg.stash_NS_VALID, 2, 1), (Rg.stash_NS_DRIVE, 2, 3), (Rg.stash_SECTOR4K, 2, 1),
    (Rg.stash_NSID, 2, 1), (Rg.stash_NS_LBAS, 2, 1000), (Rg.stash_V_VALID, 7, 1), (Rg.stash_V_SLOT, 7, 2), (Rg.stash_V_FIRST, 7, 8),
    (Rg.stash_V_COUNT, 7, 100)] : List (Fld × Nat × Nat)).foldl (fun s x => s.setRg x.1 x.2.1 x.2.2) s

/-- A descriptor of OP w at the front of STASH ring 1 of the manager. -/
def stashDesc (w : Nat) : State :=
  { stash3 with host := { stash3.host with rings := [(1, { kind := 4, descs := [{ idx := 0, bytes := leBytes 64 w }] })] } }

/-- A READ of the volume's last sector into host memory. -/
def read99 : Nat := 0x30 + at_ 12 7 + at_ 24 99 + at_ 32 1

/-- A piece of class C1 at drive 3, of command 0, which reads one sector. -/
def piece3 : Piece := { cmd := 0, idx := 0, drive := 3, slot := 2, kind := 0, cls := 0, lba := 8, blocks := 1, bytes := 4096 }

/-- Command 0 with that piece, which waits or is at the drive. -/
def piece3At (kind : Nat) (abort atDrive : Bool) : State :=
  let c : StashCmd := { id := 0, owner := .agent 0, kind := kind, fn := 0, aspace := 0, addr := 0, volume := 7, lens := [4096] }
  let p := { piece3 with kind := kind, aborting := abort }
  { stash3 with stash := { stash3.stash with nextId := 1, seq := 1, cmds := [c],
                                             waiting := if atDrive then [] else [(0, p)], atDrive := if atDrive then [(0, p)] else [] } }

/-- R403: checks in their order: a reserved byte, a volume of another, a range beyond the end, else accepted as one piece. -/
theorem test_stash_checks :
    (stashDesc 0).stashCheck 0 0 (leBytes 64 (read99 + at_ 40 1)) = 14 ∧ stash3.stashCheck 1 0 (leBytes 64 read99) = 16 ∧
    stash3.stashCheck 0 0 (leBytes 64 (read99 + at_ 24 1)) = 17 ∧ stash3.stashCheck 0 0 (leBytes 64 read99) = 0 ∧
    (stash3.setRg Rg.stash_DSTATE 3 3).stashCheck 0 0 (leBytes 64 read99) = 18 ∧
    sees (.stashRead 0 1) (stashDesc read99) (fun t => t.stash.waiting.map (fun x => (x.2.lba, x.2.blocks, x.2.drive))) = some [(107, 1, 3)] ∧
    sees (.stashFlush 0 1) (stashDesc (0x33 + at_ 12 7)) (fun t => t.stash.waiting.map (fun x => x.2.kind)) = some [3] := by decide +kernel

/-- R404: pieces are cut at multiples of the piece size. -/
theorem test_cut : cutPieces 4096 4000 8200 = [(4000, 96), (4096, 4096), (8192, 8)] ∧ cutPieces 4096 8192 8192 = [] := by decide +kernel

/-- StashDescriptors: each OP at the front of a STASH ring that is served; Stash out of service. -/
theorem test_hyp_stash_descriptors : stash3.stashUp = true ∧ State.reset.stashUp = false ∧ (stashDesc 0).hostUp = true ∧
    ([0x30, 0x31, 0x32, 0x33].all fun op => ((stashDesc op).ring 0 1).any fun g =>
      g.kind == 4 && g.nextDesc.any fun d => fieldAt d.bytes 0 1 == op) = true ∧
    stash3.stashCheck 0 1 (leBytes 64 (read99 + 1)) = 0 ∧ stash3.stashCheck 0 2 (leBytes 64 (0x32 + at_ 12 7 + at_ 24 99 + at_ 32 1)) = 0 ∧
    stash3.stashCheck 0 3 (leBytes 64 (0x33 + at_ 12 7)) = 0 ∧ stash3.ring 0 1 = none := by decide +kernel

/-- R405, R408, R411: a waiting piece goes to its drive; its completion counts its bytes and ends the command; an error ends it with 21. -/
theorem test_pieces :
    sees (.pieceSubmit 3 []) (piece3At 0 false false) (fun t => (t.stash.waiting.length, t.stash.atDrive.map (fun x => x.1))) = some (0, [0]) ∧
    sees (.pieceComplete 0 0 0 0 (List.replicate 4096 7) false) (piece3At 3 false true) (fun t => t.dv.ended.map (fun e => (e.state, e.cause, e.bytes))) = some [(0, 0, 4096)] ∧
    sees (.pieceComplete 0 0 1 4 [] false) (piece3At 2 false true) (fun t => (t.dv.ended.map (fun e => e.cause), t.rg Rg.stash_LAST_SC 3)) =
      some ([21], 4) ∧
    sees (.pieceTimeout 0 0) (piece3At 2 false true) (fun t => t.rg Rg.stash_TIMEOUTS 3) = some 1 ∧
    sees (.abortTimeout 3) (piece3At 2 true true) (fun t => (t.dv.ended.map (fun e => e.cause), t.rg Rg.stash_DSTATE 3)) = some ([20], 1) := by
  decide +kernel

/-- R399, R409, R412: drives fail and become ready; MODE. -/
theorem test_drives :
    sees (.driveFail 3 1) stash3 (fun t => t.rg Rg.stash_DSTATE 3) = some 3 ∧
    sees (.driveReady 3 { serial := 5, vwc := true, mdts := 25, nsids := [1], identify := [] }) (stash3.setRg Rg.stash_DSTATE 3 1)
      (fun t => (t.rg Rg.stash_DSTATE 3, t.rg Rg.stash_MDTS_LOG2 3, t.rg Rg.stash_VWC 3)) = some (2, 20, 1) ∧
    sees (.stashModeWrite 2) stash3 (fun t => (t.rg Rg.stash_MODE, t.rg Rg.stash_MODE_CUR)) = some (2, 2) ∧
    sees (.stashModeWrite 0) (stash3.setRg Rg.stash_MODE 0 1) (fun t => (t.rg Rg.stash_MODE, t.stash.modePend)) = some (0, true) ∧
    (stash3.setRg Rg.stash_MODE 0 0).rg Rg.stash_MODE = 0 := by
  decide +kernel

/-- StashDrives: pieces that wait, are at their drive, are being aborted; drives with room, full, out of service; MODE. -/
theorem test_hyp_stash_drives :
    (piece3At 0 false false).rg Rg.stash_DSTATE 3 = 2 ∧ ¬stash3.rg Rg.stash_QD ≤ 0 ∧ 0 < stash3.rg Rg.stash_URG_MAX ∧
    ((piece3At 0 false false).oldest 3 0).any (fun y => y.2.kind == 0 && ((piece3At 0 false false).stashCmd y.2.cmd).isSome) = true ∧
    (piece3At 0 false false).bufferUsed + 4096 ≤ 16 * 2 ^ 20 ∧ stash3.stash.waiting = [] ∧ stash3.rg Rg.stash_DSTATE 4 ≠ 2 ∧
    ([0, 1, 2, 3].all fun kind => (piece3At kind false true).stash.atDrive.any fun y =>
      y.2.cmd == 0 && y.2.idx == 0 && y.2.kind == kind && !y.2.aborting) = true ∧
    (piece3At 2 true true).stash.atDrive.any (fun y => y.2.drive == 3 && y.2.aborting) = true ∧
    (piece3At 0 false true).writeWaits 0 0 0 4096 = false ∧ stash3.stash.atDrive.find? (fun y => y.2.cmd == 0) = none ∧
    (stash3.setRg Rg.stash_DSTATE 3 1).rg Rg.stash_DSTATE 3 = 1 ∧ stash3.hubMainReset = false ∧ stash3.rg Rg.stash_MODE ≠ 0 ∧
    sees .stashServiceFlushed { stash3 with stash := { stash3.stash with modePend := true } } (fun t => t.stash.modePend) = some false := by
  decide +kernel

/-- StashManagement: the requests with fields in range, at their ends. -/
theorem test_hyp_stash_requests : fits (0x20 + at_ 8 31 + at_ 9 3 + at_ 12 1) 0x20 [(8, 1), (9, 1), (10, 1), (11, 1), (12, 4)] = true ∧
    fits (0x21 + at_ 8 2) 0x21 [(8, 1)] = true ∧
    fits (0x22 + at_ 8 255 + at_ 10 2 + at_ 11 128 + at_ 12 1 + at_ 24 1000) 0x22 [(8, 2), (10, 1), (11, 1), (12, 1), (16, 8), (24, 8)] = true ∧
    fits 0x23 0x23 [] = true ∧ fits (0x24 + at_ 8 3 + at_ 16 0x3BF000) 0x24 [(8, 1), (16, 8)] = true := by decide +kernel

/-- StashManagement: an attach that meets every check, one that does not; slots that a volume uses and that none does; drives. -/
theorem test_hyp_stash_management :
    let x : NsInfo := { metadata := false, size := 4096, blocks := 1000, unit := 1, boundary := 0 }
    stash3.attachReason 3 0 0 1 (some x) = 0 ∧ stash3.attachReason 4 0 0 1 (some x) = 1 ∧ stash3.attachReason 3 0 0 2 (some x) = 2 ∧
    stash3.attachReason 3 0 0 1 (some { x with size := 520 }) = 3 ∧ stash3.flag Rg.stash_NS_VALID 31 = false ∧
    stash3.flag Rg.stash_NS_VALID 2 = true ∧ stash3.rg Rg.stash_V_SLOT 7 = 2 ∧ stash3.flag Rg.stash_V_VALID 7 = true ∧
    (stash3.setRg Rg.stash_V_VALID 7 0).regs.all (fun c => decide (c.1 ≠ 0)) = true ∧ stash3.aunit 2 = none ∧
    0 + 1000 ≤ stash3.rg Rg.stash_NS_LBAS 2 ∧ (∀ c ∈ (piece3At 0 false true).stash.cmds, c.volume = 7) ∧ stash3.stash.cmds = [] ∧
    (stash3.rg Rg.stash_DRIVES = 0) ∧ (piece3At 0 false true).rg Rg.stash_DSTATE 3 ≠ 3 ∧ stash3.rg Rg.stash_DSTATE 3 = 2 ∧
    (stash3.rescan [⟨0, 1, 2, 3⟩, ⟨1, 1, 2, 3⟩]).rg Rg.stash_DRIVES = 2 := by decide +kernel

/-! ## The cipher block -/

/-- A label entry for every usage, of function 0. -/
def label0 : List Byte := List.replicate 32 0 ++ [7, 0] ++ List.replicate 30 0

/-- A command of OP, with PLEN n at SADDR 0 of a space and TLEN 16, of the manager's ring 1. -/
def cipherJob (op space n : Nat) : CipherJob :=
  { image := leBytes 64 (op + at_ 8 space + at_ 14 16 + at_ 24 64 + at_ 40 n), label := label0, desc := some (0, 1, 0) }

/-- Core 2 has that command; hub SRAM holds bytes from 0. -/
def onCore2 (op space n : Nat) (bs : List Byte) : State :=
  { up with cipher := { jobs := [(2, cipherJob op space n)] }, mem := ({} : Memory).write (kHub 0) bs }

/-- The key of the core's GCM_DEC. -/
def key2 : List Byte := (onCore2 0x41 3 0 []).jobKey (cipherJob 0x41 3 0)

/-- Whatever hub SRAM holds. -/
theorem key2_any (bs : List Byte) : (onCore2 0x41 3 0 bs).jobKey (cipherJob 0x41 3 0) = key2 := rfl

/-- Its last round key has 16 bytes. -/
theorem key2_last : ((roundKeys key2).getD 14 []).length = 16 := by decide +kernel

/-- The tag of nothing under that key. -/
def tag2 : List Byte := ((gcmDec key2 (cipherArgs (cipherJob 0x41 3 0).image).iv [] []).2).take 16

/-- It has 16 bytes. -/
theorem tag2_length : tag2.length = 16 := by
  have h := key2_last
  rw [List.getD_eq_getElem?_getD] at h
  simp [tag2, gcmDec, gcmTag, bytesOf, xorB, be16, beBytes, natsOf, length_leBytes, aesBlock, shiftRows, h]

/-- CipherCommands, GCM_DEC: a command that passes its checks, whose ciphertext brings the tag that is computed. -/
theorem test_hyp_gcm_dec : let s := onCore2 0x41 3 0 tag2
    let j := cipherJob 0x41 3 0
    let a := cipherArgs j.image
    s.jobOf 2 0x41 = some j ∧ s.cipherCheck j = 0 ∧ s.localRead j.fn a.sspace a.saddr a.inLen [] = some tag2 ∧
    s.localRead j.fn a.aspace a.aaddr a.alen [] = some [] ∧ s.writeWaits j.fn a.dspace a.daddr a.outLen = false ∧ a.gcm = true ∧
    a.sspace ≠ 0 ∧ (gcmDec (s.jobKey j) a.iv [] (tag2.take a.plen)).2.take a.tlen = tag2.drop a.plen := by
  have h : (({} : Memory).write (kHub 0) tag2).read (kHub 0) 16 = tag2 := by
    have := Memory.read_write_self {} (kHub 0) tag2
    rwa [tag2_length] at this
  refine ⟨rfl, rfl, congrArg some h, rfl, rfl, rfl, by decide +kernel, ?_⟩
  rw [key2_any, show (cipherArgs (cipherJob 0x41 3 0).image).plen = 0 by decide +kernel,
    show (cipherArgs (cipherJob 0x41 3 0).image).tlen = 16 by decide +kernel, List.take_zero, List.drop_zero, tag2]

/-- CipherCommands: each OP on a core, checked; with a byte outside its fields, with a TLEN or a label that is refused; ranges; the
scheduler's choice of a core, of a register-mode command and of a ring. -/
theorem test_hyp_cipher :
    ([0x40, 0x41, 0x42, 0x43, 0x44, 0x45].all fun op =>
      let s := onCore2 op 0 32 []
      let j := cipherJob op 0 32
      let a := cipherArgs j.image
      s.jobOf 2 op == some j && s.cipherCheck j == 0 && (s.localRead j.fn a.sspace a.saddr a.inLen (List.replicate 48 9)).isSome &&
        !s.writeWaits j.fn a.dspace a.daddr a.outLen && a.gcm == decide (op < 0x42) && a.verifies == decide (op = 0x43 ∨ op = 0x45)) = true ∧
    up.jobOf 2 0x40 = none ∧ up.cipherCheck { cipherJob 0x40 0 32 with label := [] } = 26 ∧
    up.cipherCheck { cipherJob 0x40 0 32 with image := leBytes 64 (0x40 + at_ 1 1) } = 14 ∧
    up.cipherCheck { cipherJob 0x40 0 32 with image := leBytes 64 (0x40 + at_ 40 (2 ^ 24 + 1)) } = 23 ∧
    up.cipherCheck { cipherJob 0x40 0 32 with image := leBytes 64 (0x40 + at_ 14 11) } = 27 ∧
    (up.setRg Rg.cipher_CORE_WORKING 0 0).freeCipher = none ∧ (up.setRg Rg.cipher_CORE_WORKING 0 6).freeCipher = some 1 ∧ up.cipherRings = [] ∧ up.cipher.go = none ∧
    ({ up with host := { rings := [(1, { kind := 5, descs := [{ idx := 0, bytes := [] }] })] } } : State).cipherRings = [1] ∧
    up.cipher.jobs.get? 2 = none ∧ (cipherJob 0x40 0 0).result = none := by decide +kernel

/-- CipherCommands, the verifying MACs: the tag that is there may be the computed one or another. -/
theorem test_hyp_mac (want : List Byte) (h : want.length = 16) : let s := onCore2 0x43 0 32 []
    let j := cipherJob 0x43 0 32
    let a := cipherArgs j.image
    s.localRead j.fn a.dspace a.daddr a.tlen want = some want := by
  show some ((want ++ List.replicate 16 0).take 16) = some want
  rw [← h, List.take_left']
  rfl

/-- R428: a command on a core that fails a check has its cause; a core without one of the OP does nothing; assignment. -/
theorem test_cipher_jobs :
    sees (.cmacGen 2 [] none) { up with cipher := { jobs := [(2, { cipherJob 0x44 0 32 with label := [] })] } }
      (fun t => (t.cipher.jobs.get? 2).bind (fun j => j.result)) = some (some (2, 26, 0, false)) ∧
    sees (.gcmEnc 2 [] [] none) (onCore2 0x41 0 0 []) (fun t => (t.cipher.jobs.get? 2).bind (fun j => j.result)) = some none ∧
    sees .cipherAssign ({ up with cipher := { go := some (cipherJob 0x40 0 0) } } |>.setRg Rg.cipher_CORE_WORKING 0 6)
      (fun t => (t.cipher.jobs.map (fun e => e.1), t.cipher.go.isSome)) = some ([1], false) := by decide +kernel

/-- GcmRoundTrip: keys of 32 bytes and IVs of 12. -/
theorem test_hyp_gcm_round_trip : (List.replicate 32 (0 : Byte)).length = 32 ∧ (List.replicate 12 (0 : Byte)).length = 12 := by decide

/-! ## The lock -/

/-- Requester 3 owns the lock. -/
def owned : State := (up.setRg Rg.cipher_OWNER 0 3).setRg Rg.cipher_LEASE_BEATS 0 100

/-- R436, R437: claims, renewals, releases and expiry. -/
theorem test_lock : sees (.claim 3) up (fun t => (t.rg Rg.cipher_OWNER, t.rg Rg.cipher_LOCK_SEQ)) = some (3, 1) ∧
    sees (.claim 4) owned (fun t => (t.rg Rg.cipher_OWNER, t.rg Rg.cipher_LOCK_VIOL)) = some (3, 1) ∧
    sees (.claim 17) owned (fun t => (t.rg Rg.cipher_OWNER, t.rg Rg.cipher_CLOCHE_WAIT)) = some (3, 1) ∧
    sees (.release 3) (owned.setRg Rg.cipher_CLOCHE_WAIT 0 1) (fun t => (t.rg Rg.cipher_OWNER, t.rg Rg.cipher_CLOCHE_WAIT)) = some (17, 0) ∧
    sees (.release 3) owned (fun t => t.rg Rg.cipher_OWNER) = some 0 ∧
    sees .lockExpire owned (fun t => t.rg Rg.cipher_OWNER) = some 3 ∧
    sees .lockExpire (owned.setRg Rg.cipher_LCLK 0 100) (fun t => t.rg Rg.cipher_OWNER) = some 0 ∧
    sees (.renew 3) (owned.setRg Rg.cipher_LCLK 0 99) (fun t => t.rg Rg.cipher_STAMP) = some 99 := by decide +kernel

/-- R435: GO of the owner takes the command image; GO while one runs is cause 28. -/
theorem test_cipher_go : sees (.cipherGo 3) (owned.setRg Rg.cipher_CMD 0 0x40) (fun t => (t.rg Rg.cipher_BUSY, t.cipher.go.map (fun j => (j.num, fieldAt j.image 0 4)))) =
      some (1, some (2, 0x40)) ∧
    sees (.cipherGo 3) (owned.setRg Rg.cipher_BUSY 0 1) (fun t => t.rg Rg.cipher_RCAUSE) = some 28 ∧
    sees (.sign 3) owned (fun t => t.rg Rg.cipher_SIG 0) = some 0 := by decide +kernel

/-- CipherLock: owners, waits, busy; requesters 1, 9 and 17; leases that run and that have expired; LABEL_SET. -/
theorem test_hyp_lock : up.rg Rg.cipher_OWNER = 0 ∧ owned.rg Rg.cipher_OWNER = 3 ∧ owned.hubMainReset = false ∧
    ({ up with hubMainReset := true } : State).hubMainReset = true ∧ owned.flag Rg.cipher_BUSY = false ∧ owned.flag Rg.cipher_CLOCHE_WAIT = false ∧
    (owned.setRg Rg.cipher_BUSY 0 1).flag Rg.cipher_BUSY = true ∧ (owned.setRg Rg.cipher_CLOCHE_WAIT 0 1).flag Rg.cipher_CLOCHE_WAIT = true ∧
    owned.compCore 6 + 1 = 9 ∧ (owned.setRg Rg.cipher_OWNER 0 9).rg Rg.cipher_OWNER = 9 ∧
    ¬((owned.setRg Rg.cipher_LCLK 0 100).rg Rg.cipher_LCLK + 2 ^ 32 - owned.rg Rg.cipher_STAMP) % 2 ^ 32 < owned.rg Rg.cipher_LEASE_BEATS ∧
    fits (0x30 + at_ 8 4095 + at_ 10 127 + at_ 11 7 + at_ 32 1) 0x30 [(8, 2), (10, 1), (11, 1), (32, 32)] = true := by decide +kernel

/-! ## SPDM and the management controller -/

/-- The compartments run, and the I3C connection is at a stage. -/
def spdmAt (st : Nat) : State := { up with fw := { mainUp := true }, cipher := { spdm := if st = 0 then [] else [(0, { stage := st })] } }

/-- A request of a code, n bytes long. -/
def spdmReq (v code n : Nat) : List Byte := leBytes n (v + at_ 1 code + at_ 4 n)

/-- R440: the version in any stage, then capabilities, algorithms, digests in their order. -/
theorem test_spdm : sees (.getVersion (spdmReq 0x10 0x84 4)) (spdmAt 0) (fun t => ((t.spdm 0).stage, t.out)) =
      some (1, [.i3c 5 [0x10, 0x04, 0, 0, 0, 1, 0x00, 0x13]]) ∧
    sees (.getCapabilities (spdmReq 0x13 0xE1 20)) (spdmAt 1) (fun t => (t.spdm 0).stage) = some 2 ∧
    sees (.getCapabilities (spdmReq 0x13 0xE1 20)) (spdmAt 0) (fun t => t.out) = some [.i3c 5 [0x10, 0x7F, 4, 0]] ∧
    sees (.negotiateAlgorithms (spdmReq 0x13 0xE3 32)) (spdmAt 2) (fun t => (t.spdm 0).stage) = some 3 ∧
    sees (.getVersion (spdmReq 0x10 0x84 4)) up (fun t => t.out) = some [] ∧
    sees (.spdmUnsupported (spdmReq 0x13 0xE9 4)) (spdmAt 3) (fun t => t.out) = some [.i3c 5 [0x13, 0x7F, 7, 0xE9]] := by decide +kernel

/-- SpdmResponder: the codes, the stages, a code that is not served; compartments that do not run; the relay's request. -/
theorem test_hyp_spdm : ([0x84, 0xE1, 0xE3, 0x81, 0x82, 0x83, 0xE0].all fun c => spdmCodes.contains (fieldAt (spdmReq 0x13 c 20) 1 1)) = true ∧
    spdmCodes.contains (fieldAt (spdmReq 0x13 0xE9 4) 1 1) = false ∧ ((spdmAt 3).spdm 0).stage = 3 ∧ ((spdmAt 0).spdm 0).stage = 0 ∧
    (spdmAt 0).hubMainReset = false ∧ up.fw.mainUp = false ∧ Cells.wf (spdmAt 3).cipher.spdm = true ∧
    fieldAt (spdmReq 0x13 0xE3 32) 4 2 = (spdmReq 0x13 0xE3 32).length ∧ (spdmReq 0x13 0xE1 20).length = 20 ∧
    fits (0x31 + at_ 8 4 + at_ 24 64 + at_ 32 64) 0x31 [(8, 2), (16, 8), (24, 8), (32, 4)] = true ∧
    ((spdmAt 0).spdmAnswer 1 (spdmReq 0x10 0x84 4)).2.length ≤ 64 ∧ 7 < ((spdmAt 0).spdmAnswer 1 (spdmReq 0x10 0x84 4)).2.length := by
  decide +kernel

/-- R534, R535: MCTP control and PLDM answers. -/
theorem test_mctp : sees (.mctpControl 3 1 [0, 9]) (spdmAt 0) (fun t => (t.fw.eid, t.out)) = some (9, [.i3c 0 [3, 1, 0, 0, 9, 0]]) ∧
    sees (.mctpControl 3 7 []) (spdmAt 0) (fun t => t.out) = some [.i3c 0 [3, 7, 5]] ∧
    sees (.getTid 1) up (fun t => t.out) = some [] ∧
    sees (.safeStateQuery) State.reset (fun t => t.out) = some [.i3c 0xF2 [3, 5]] := by decide +kernel

/-- R535, R536: events are polled one by one, the sensors updated. -/
theorem test_events :
    sees (.pollForPlatformEventMessage 0 1) { spdmAt 0 with fw := { mainUp := true, events := [(2, [1])] } } (fun t => t.fw.events.length) = some 0 ∧
    sees (.pollForPlatformEventMessage 0 9) { spdmAt 0 with fw := { mainUp := true, events := [(2, [1])] } } (fun t => t.fw.events.length) = some 1 ∧
    sees (.sensorUpdate [5, 6]) (spdmAt 0) (fun t => (t.fw.sensors.getD 0 1, t.fw.sensors.getD 0 2, t.fw.sensors.getD 0 3)) = some (5, 6, 0) := by
  decide +kernel

/-- ManagementController: the port up and down; events; SAFE and not. -/
theorem test_hyp_mctp : (spdmAt 0).i3cUp = true ∧ up.i3cUp = false ∧ (spdmAt 0).fw.events = [] ∧ (spdmAt 0).fw.eventId = 1 ∧
    (spdmAt 0).host.evCount ≤ 0 ∧ ({ spdmAt 0 with host := { evCount := 1 } } : State).host.evCount = 0 + 1 ∧
    Cells.wf (spdmAt 0).fw.sensors = true ∧ State.reset.power.state = 3 ∧ ({ up with power := { state := 0 } } : State).power.state ≠ 3 := by
  decide +kernel

/-! ## Faults, replays, digests -/

/-- Tile 1 of a module whose beats run as the master. -/
def running1 (k : Tile) : State :=
  { tile1 k with dom := { member := true, ticking := true, started := true, period := 1000 } }.setRg Rg.beat_ROLE 0 3

/-- A replay of tile 1 to spare 3, at a phase. -/
def replay1 (phase : Nat) (aborted : Bool) : Replay := { tile := 1, kind := 2, spare := some 3, phase := phase, aborted := aborted }

/-- Tile 1 with that replay. -/
def replaying (phase : Nat) (aborted : Bool) : State :=
  { running1 {} with fm := { replays := [replay1 phase aborted] } }

/-- R447, R470: a corrected error and an uncorrectable one count and are logged, one record and two; a core stops. -/
theorem test_reports :
    sees (.faultReport (.corrected 12 0 0 6 5)) State.reset (fun t => t.fm.log.length) = some 1 ∧
    sees (.faultReport (.unit 9 0 0 10 0)) State.reset (fun t => t.fm.log.length) = some 2 ∧
    sees (.faultReport (.coreRegs (.hub 4))) State.reset (fun t => (t.core (.hub 4)).stopped) = some true ∧
    sees (.faultReport (.logCopy 1)) State.reset (fun t => t.rg Rg.fault_LOG_COPIES) = some 5 ∧
    sees (.faultReport (.cipherCore 7)) State.reset (fun t => t.rg Rg.cipher_CORE_WORKING) = some 127 ∧
    sees (.faultReport (.waiting 0 false)) { State.reset with detections := [.streamError 0 0 5] } (fun t => t.detections.length) = some 0 := by
  decide +kernel

/-- R447, R448: a tile that faults stops while no beat runs. -/
theorem test_tile_report : sees (.faultReport (.tile 1 4 2 0 0 false)) (tile1 {}) (fun t => ((t.tile 1).stopped, t.rg Rg.tile_HALTED_FAULT 1)) =
      some (true, 1) ∧ sees (.faultReport (.tile 2 4 2 0 0 false)) (tile1 {}) (fun t => t.fm.log.length) = some 0 := by decide +kernel

/-- FaultReports: beats that run and do not; tiles that work and do not; reports that wait; routers apart and close; log copies. -/
theorem test_hyp_reports : State.reset.dom.ticking = false ∧ (running1 {}).dom.ticking = true ∧ (tile1 {}).tileUp 1 = true ∧
    (tile1 {}).tileUp 2 = false ∧ State.reset.detections[0]? = none ∧
    ({ State.reset with detections := [.streamError 0 0 5] } : State).detections[0]? = some (.streamError 0 0 5) ∧
    ({ State.reset with fm := { routers := [5] } } : State).fm.routers.contains 5 = true ∧ routersApart [5, 6] = false ∧
    routersApart [5] = true ∧ bitN (State.reset.rg Rg.fault_LOG_COPIES) 2 = true ∧ bitN (State.reset.rg Rg.fault_LOG_COPIES) 3 = false ∧
    State.reset.mem.wf = true ∧ Cells.wf (tile1 {}).regs = true := by decide +kernel

/-- R450: the drain of a replay ends in its copy; the copy ends with the spare. -/
theorem test_replay : sees (.replayDrainDone 1) (replaying 0 true) (fun t => (t.fm.replays.map (fun p => p.phase), (t.tile 1).stopped)) =
      some ([1], true) ∧
    sees (.replayDrainDone 1) (replaying 2 true) (fun t => t.fm.replays.map (fun p => p.phase)) = some [2] := by decide +kernel

/-- ReplaysAndTests: replays at each phase, aborted or not, or none; Greenhouse on and off; tests under way or not. -/
theorem test_hyp_replays : (replaying 0 false).replayOf 1 = some (replay1 0 false) ∧ (replaying 1 true).replayOf 1 = some (replay1 1 true) ∧
    (replaying 2 true).replayOf 1 = some (replay1 2 true) ∧ (tile1 {}).replayOf 1 = none ∧ (replay1 0 false).spare = some 3 ∧
    (let s := ({ running1 {} with fm := { spares := [3] } } : State).setRg Rg.fault_GH_EN 0 1
     s.flag Rg.fault_GH_EN = true ∧ s.dom.ticking = true ∧ s.dom.aborted = false ∧ s.rg Rg.beat_BEATNO % 2 ^ s.rg Rg.fault_GH_ROTATE_LOG2 = 0 ∧
     s.fm.replays = [] ∧ s.fm.test = none ∧ s.tileUp 1 = true ∧ s.fm.spares.contains 1 = false ∧ s.fm.nextMove ≤ 1 ∧ s.tileUp 0 = false) ∧
    State.reset.flag Rg.fault_GH_EN = false := by decide +kernel

/-- R464: Greenhouse on, a working spare 3 whose tables are empty: tile 1 moves to it for its test. -/
theorem test_greenhouse :
    let s := ({ running1 {} with fm := { spares := [3] } } : State).setRg Rg.fault_GH_EN 0 1
    let u := { s.setRg Rg.identity_TILE_WORKING 0 10 with tiles := [(1, {}), (3, {})] }
    u.chooseSpare 1 = (u, some 3) ∧ sees .greenhouseRotate u (fun t => (t.fm.test, t.fm.replays.map (fun p => p.spare))) =
      some (some (0, 1, 0), [some 3]) ∧
    sees (.greenhouseResult 0 5 0 false) (s.setRg Rg.identity_TILE_ENABLED 0 32) (fun t => t.rg Rg.fault_FCNT 7) = some 1 ∧
    sees (.greenhouseResult 0 5 0 false) State.reset (fun t => t.rg Rg.fault_FCNT 7) = some 0 := by decide +kernel

/-- Tile 1 has finished its beat, with SCR_LINES of its running table as given. -/
def seeded1 (lines : Nat) : State :=
  ((running1 { running := true, rows := 0, next := 2 }).writeN (kBank 1 0 0) 32 (lines * 2 ^ 147)).setRg Rg.fault_SEED_EVERY 0 1

/-- R463: a seed beat with room for the kernel counts in SEED_RUNS, one without in SEED_SKIPS. -/
theorem test_seedling : (seeded1 8192).tileUp 1 = true ∧ ((seeded1 8192).tile 1).finished = true ∧ (seeded1 8192).seedDue 1 0 = true ∧
    (seeded1 8192).fm.seeded.contains 1 = false ∧ (seeded1 8192).seedRoom 1 = true ∧ (seeded1 8191).seedRoom 1 = false ∧
    sees (.seedlingRun 1 true) (seeded1 8192) (fun t => (t.rg Rg.fault_FCNT 3, t.rg Rg.fault_FCNT 5, t.fm.seeded)) = some (1, 0, [1]) ∧
    sees (.seedlingRun 1 true) (seeded1 8191) (fun t => (t.rg Rg.fault_FCNT 3, t.rg Rg.fault_FCNT 5, t.fm.seeded)) = some (0, 1, [1]) ∧
    sees (.seedlingRun 1 true) (tile1 {}) (fun t => t.fm.seeded) = some [] := by decide +kernel

/-- A member, the master or not, whose digest round began at beat 6; one bed. -/
def inRound (m : Bool) : State :=
  let s : State := { (if m then running1 {} else member true none) with fm := { roundAt := some 6, digest := List.replicate 32 0 } }
  s.setRg Rg.fault_SWEEP_BEATS 0 16

/-- R465, R466: what the master decides reaches the others; the sweep begins in every bed that pauses. -/
theorem test_digests : sees (.digestCompare .resumed) (inRound false) (fun t => t.fm.roundAt) = some none ∧
    sees (.digestCompare (.pruned 2 0)) (inRound false) (fun t => t.fm.prune) = some [(2, 0)] ∧
    sees (.digestCompare (.paused 6)) (inRound false) (fun t => (t.fm.sweep, t.fm.sweepBeds, t.fm.sweepRound)) = some (16, [0], 6) ∧
    sees (.digestCompare .resumed) (inRound true) (fun t => t.fm.roundAt) = some (some 6) ∧
    sees (.sweepEnd .resumed) { inRound false with fm := { sweepBeds := [0] } } (fun t => t.fm.sweepBeds) = some [] := by decide +kernel

/-- R456: a mirrored write is staged and acknowledged; MIRROR_SYNC with no range sets SPARE_VALID. -/
theorem test_mirror : sees (.mirrorWrite (.write 64 [1, 2])) up (fun t => (t.fm.staged, t.out)) = some ([(64, [1, 2])], [.mirrorAck]) ∧
    sees .mirrorSync (up.setRg Rg.place_SPARE_EN 0 1) (fun t => t.rg Rg.fault_SPARE_VALID) = some 1 ∧
    sees .mirrorSync up (fun t => t.rg Rg.fault_SPARE_VALID) = some 0 := by decide +kernel

/-- DigestsAndMirrors: rounds that are due, under way and not; the master and others; beds that agree and that do not; sweeps. -/
theorem test_hyp_digests : (member true none).isMaster = false ∧ (member true none).active = true ∧ (member true none).dom.aborted = false ∧
    (member true none).fm.roundAt = none ∧ State.reset.active = false ∧ (running1 {}).isMaster = true ∧ (inRound true).fm.roundAt = some 6 ∧
    (let s := (((running1 {}).setRg Rg.fault_STEP_BEATS 0 2).setRg Rg.beat_BEATNO 0 32).setRg Rg.fault_REP_EN 0 1
     s.rg Rg.fault_DIG_STEPS * s.rg Rg.fault_STEP_BEATS ≠ 0 ∧ s.rg Rg.beat_BEATNO ≠ 0 ∧ s.flag Rg.fault_REP_EN = true ∧
     s.rg Rg.beat_BEATNO % (s.rg Rg.fault_DIG_STEPS * s.rg Rg.fault_STEP_BEATS) = 0) ∧
    majority [(0, [1]), (1, [2])] = none ∧ majority [(0, [1]), (1, [2]), (2, [1])] = some [1] ∧ majority [(0, [1])] = some [1] ∧
    (inRound true).fm.sweep = 0 ∧ ((inRound true).fm.sweepBeds = []) ∧ ({ inRound true with fm := { sweepBeds := [0] } } : State).fm.sweepBeds ≠ [] ∧
    (let s : State := { inRound true with fm := { sweepBeds := [0], sweepFail := [0] } }
     ((List.range s.repBeds.length).all (fun i => (s.fm.sweepFail ++ []).contains (s.repBeds.getD i 0))) = true) ∧
    up.flag Rg.place_SPARE_EN = false ∧ (∀ k, k < 8 → up.flag Rg.fault_MIRROR_EN k = false) ∧
    (inRound false).mem.wf = true ∧ Cells.wf (inRound false).regs = true := by decide +kernel

/-! ## Mulch -/

/-- The master, with checkpoints enabled every 4 beats, at beat 8, and Mulch as given. -/
def mulch8 (m : Mulch) : State :=
  (((({ master true none with mulch := m } : State).setRg Rg.mulch_CK_EN 0 1).setRg Rg.mulch_CK_BEATS 0 4).setRg Rg.beat_BEATNO 0 8).setRg
    Rg.beat_MID 0 2

/-- Another member, with checkpoints enabled or not, and Mulch as given. -/
def peer (en : Nat) (m : Mulch) : State := ({ member true none with mulch := m } : State).setRg Rg.mulch_CK_EN 0 en

/-- R478, R479, R480: a trigger starts a checkpoint, or is deferred once; CUT is acknowledged or refused with cause 1. -/
theorem test_checkpoint_start :
    sees .checkpointTrigger (mulch8 {}) (fun t => (t.mulch.run, t.mulch.cut, t.mulch.acks, t.rg Rg.mulch_STATE)) = some (true, some 9, [2], 1) ∧
    sees .checkpointTrigger (mulch8 { run := true }) (fun t => (t.mulch.deferred, t.rg Rg.mulch_MCNT 3)) = some (true, 1) ∧
    sees .checkpointTrigger ((mulch8 {}).setRg Rg.mulch_CK_BEATS 0 5) (fun t => t.mulch.run) = some false ∧
    sees (.cutMessage (.cut 9 1 0)) (peer 1 {}) (fun t => (t.mulch.run, t.mulch.cut, t.mulch.slot)) = some (true, some 9, 1) ∧
    sees (.cutMessage (.cut 9 1 0)) (peer 0 {}) (fun t => (t.mulch.run, t.rg Rg.mulch_FAIL_CAUSE)) = some (false, 1) ∧
    sees (.cutMessage (.ack 5)) (mulch8 { run := true, cut := some 9, acks := [2] }) (fun t => t.mulch.acks) = some [2, 5] := by
  decide +kernel

/-- R482, R488: the assignment puts the references in force; a failure drops the running checkpoint. -/
theorem test_assign : sees (.dedupAssign (.assigned [(3, 0, 1, 2)])) (peer 1 { run := true }) (fun t => (t.mulch.assigned, t.mulch.refs)) =
      some (true, [(3, 0, 1, 2)]) ∧
    sees (.dedupAssign (.assigned [])) (peer 1 {}) (fun t => t.mulch.assigned) = some false ∧
    sees (.checkpointFail 2 0) (mulch8 { run := true }) (fun t => (t.mulch.run, t.rg Rg.mulch_FAIL_CAUSE)) = some (false, 2) ∧
    sees (.checkpointFail 2 0) (mulch8 {}) (fun t => t.rg Rg.mulch_FAIL_CAUSE) = some 0 := by decide +kernel

/-- CheckpointStart: triggers asked and not, with none running, one cut, one deferred; the master and others; its requests. -/
theorem test_hyp_checkpoint_start : (mulch8 {}).isMaster = true ∧ (mulch8 {}).dom.ticking = true ∧ (mulch8 {}).triggered = true ∧
    ((mulch8 {}).setRg Rg.mulch_CK_BEATS 0 5).triggered = false ∧ (peer 1 {}).isMaster = false ∧ (peer 1 {}).dom.member = true ∧
    (peer 1 {}).flag Rg.mulch_CK_EN = true ∧ (peer 0 {}).flag Rg.mulch_CK_EN = false ∧ State.reset.dom.member = false ∧
    (mulch8 {}).mulch.pages.filter (fun p => p.dedup) = [] ∧ fits 0x40 0x40 [] = true ∧ fits 0x42 0x42 [] = true ∧
    fits (0x43 + at_ 8 4095 + at_ 16 5) 0x43 [(8, 2), (16, 6)] = true ∧ fieldAt (req (0x43 + at_ 8 4096)) 8 2 = 4096 ∧
    (mulch8 {}).mem.wf = true ∧ Cells.wf (mulch8 {}).regs = true := by decide +kernel

/-- A checkpoint with cutting 5 of page 0 pending. -/
def cutting5 (copied holding : List Nat) (buf : Cells Nat) : Mulch :=
  { run := true, assigned := true, marks := [(5, 6)], copied := copied, holding := holding, buffer := buf }

/-- R485: a held write takes a slot of the cut buffer where there is one; copies; the seal's acknowledgement. -/
theorem test_cuttings : sees (.cowHold (5 * 65536 + 7)) (peer 1 (cutting5 [] [] [])) (fun t => (t.mulch.holding, t.mulch.buffer)) =
      some ([5], [(0, 5)]) ∧
    sees (.cowHold (5 * 65536)) ((peer 1 (cutting5 [] [] [])).setRg Rg.mulch_CUT_BASE 0 1) (fun t => t.rg Rg.mulch_MCNT 5) = some 1 ∧
    sees (.cowHold (5 * 65536)) (peer 1 (cutting5 [5] [] [])) (fun t => t.rg Rg.mulch_MCNT 5) = some 0 ∧
    sees (.imageHeld .sealAcked) (mulch8 { run := true, sealed_ := true }) (fun t => (t.mulch.heldBy, t.rg Rg.mulch_STATE)) = some ([2], 3) ∧
    sees (.imageHeld (.member 5)) (mulch8 { run := true, heldBy := [2] }) (fun t => t.mulch.heldBy) = some [2, 5] ∧
    sees (.checkpointDurable (.member 5)) (mulch8 { storing := some (9, 1, [2]) }) (fun t => t.mulch.storing.map (fun x => x.2.2)) =
      some (some [2, 5]) := by decide +kernel

/-- An image without pages. -/
def image0 : List Byte :=
  let head := leBytes 48 (0x48434C4D + at_ 4 1)
  head ++ sha3_256 (head ++ List.replicate 208 0) ++ List.replicate 176 0

/-- A restore that runs. -/
def restoring : State :=
  { up with mulch := { restore := some { slot := 0, holder := 1, source := 0, index := 0, streams := false } }, host := { mrBusy := true } }

/-- CheckpointImages: cuttings pending, copied, held, in the buffer; stores; restores asked for and under way, images good and bad. -/
theorem test_hyp_checkpoint_images : (peer 1 (cutting5 [] [] [])).cutPending 5 = true ∧ (peer 1 (cutting5 [5] [] [])).cutPending 5 = false ∧
    ((peer 1 (cutting5 [] [] [])).setRg Rg.mulch_CUT_BASE 0 1).cutSlot = none ∧ (peer 1 (cutting5 [] [] [])).cutSlot = some 0 ∧
    (cutting5 [] [] []).writesPage 0 = true ∧ ({ cutting5 [] [] [] with refs := [(0, 0, 0, 0)] } : Mulch).writesPage 0 = false ∧
    (cutting5 [] [] []).marked 5 = true ∧ (cutting5 [] [] []).marked 6 = false ∧
    (cutting5 [] [5] []).holding.contains 5 = true ∧ (cutting5 [] [] [(0, 5)]).buffer.any (fun b => b.2 == 5) = true ∧
    (let s : State := { up with mulch := { stores := [(4, 1)] }, dv := { ended := [⟨.mulch 4, 0, 0, 0, 0⟩] } }
     s.mulch.stores.find? (fun e => e.1 == 4) = some (4, 1) ∧ s.storeEnds 4 = [0]) ∧
    (let s : State := { up with dv := { ended := [⟨.mulch 4, 0, 2, 18, 0⟩] } }
     s.storeEnds 4 = [18]) ∧ up.storeEnds 4 = [] ∧
    fits (0x41 + at_ 8 255 + at_ 9 3 + at_ 10 1 + at_ 11 1) 0x41 [(8, 1), (9, 1), (10, 1), (11, 1), (12, 1), (16, 8)] = true ∧
    up.mapBad 0 0 = false ∧ up.mulch.restore = none ∧ up.flag Rg.beat_RUN = false ∧ restoring.mulch.restore.isSome = true ∧
    imageOk [] = false := by decide +kernel

/-- CheckpointImages: an image that verifies. -/
theorem test_hyp_image : imageOk image0 = true ∧ 256 ≤ image0.length ∧ fieldAt image0 40 4 = 0 ∧ fieldAt image0 44 4 = 0 := by decide +kernel

/-! ## The Cloche -/

/-- A count frame of epoch 3, beat 9, with function f at total n. -/
def frame3 (f n : Nat) : List Byte := leBytes 29 (3 + at_ 4 9 + at_ 12 1 + at_ 16 f + at_ 17 n)

/-- The Cloche runs in epoch 3 with function 1 held at 100, and a frame is on the count wire. -/
def counting (run : Bool) (b : List Byte) : State :=
  { up with gate := { wire := some b }, cloche := { running := run, epoch := 3, held := [(1, 100)] } }

/-- R499, R500: a frame counts what a total has gained, is rejected whole where one has fallen, and is lost on a bad wire. -/
theorem test_count_frame : sees (.countFrame false) (counting true (frame3 1 130)) (fun t => (t.cloche.counts, t.cloche.held, t.cloche.ackDue)) =
      some ([(1, 30)], [(1, 130)], true) ∧
    sees (.countFrame false) (counting true (frame3 1 99)) (fun t => (t.cloche.held, t.cloche.flags)) = some ([(1, 100)], 0x40) ∧
    sees (.countFrame true) (counting true (frame3 1 130)) (fun t => (t.cloche.held, t.gate.wire)) = some ([(1, 100)], none) ∧
    sees (.countFrame false) (counting false (frame3 1 130)) (fun t => t.cloche.held) = some [(1, 100)] := by decide +kernel

/-- R502, R505: samples add up in each channel. -/
theorem test_energy : sees (.energySample [7, 8] true) { up with cloche := { energy := [(0, 5)] } } (fun t =>
      (t.cloche.energy.getD 0 0, t.cloche.energy.getD 0 1, t.cloche.flags)) = some (12, 8, 0x80) ∧
    sees .intervalClose { up with cloche := { ctime := 59 * 10 ^ 9 } } (fun t => t.cloche.ino) = some 0 := by decide +kernel

/-- ClocheCounting: wires idle and busy, totals changed and not, frames of this epoch and of another; intervals at their end. -/
theorem test_hyp_cloche_counting : up.hubMainReset = false ∧ up.gate.wire = none ∧ up.gate.dirty = [] ∧
    ({ up with gate := { dirty := [1] } } : State).gate.dirty ≠ [] ∧ (counting true (frame3 1 130)).gate.wire = some (frame3 1 130) ∧
    fieldAt (frame3 1 130) 0 4 = (counting true []).cloche.epoch ∧ fieldAt (leBytes 29 4) 0 4 ≠ (counting true []).cloche.epoch ∧
    (∃ e ∈ frameEntries (frame3 1 99), e.2 < (counting true []).cloche.held.getD 0 e.1) ∧
    (∀ e ∈ frameEntries (frame3 1 130), (counting true []).cloche.held.getD 0 e.1 ≤ e.2) ∧ Cells.wf up.cloche.energy = true ∧
    (0 / intervalNs 5 + 1) * intervalNs 5 = 60 * 10 ^ 9 ∧ intervalNs up.cloche.code = 60 * 10 ^ 9 ∧ up.cloche.running = true := by decide +kernel

/-- The Cloche as given, with the hub up. -/
def withCloche (c : Cloche) : State := { up with cloche := c }

/-- R510, R512: an acknowledgement goes first, then new records, then the ring; what arrives corrupted is counted. -/
theorem test_record_wire :
    sees .recordFrameSend (withCloche { ackDue := true, latest := (3, 9), queue := [[1]] }) (fun t => (t.cloche.ackDue, t.cloche.queue, t.cloche.wire)) =
      some (false, [[1]], [wireFrame 1 (leBytes 4 3 ++ leBytes 8 9)]) ∧
    sees .recordFrameSend (withCloche { queue := [[1], [2]], ring := [[3]] }) (fun t => (t.cloche.queue, t.cloche.wire)) =
      some ([[2]], [wireFrame 0 [1]]) ∧
    sees .recordFrameSend (withCloche { ring := [[3], [4]], ringPos := 1 }) (fun t => (t.cloche.ringPos, t.cloche.wire)) =
      some (2, [wireFrame 0 [4]]) ∧
    sees (.ackFrameRx true) (withCloche { wire := [wireFrame 1 (leBytes 12 0)] }) (fun t => (t.rg Rg.cloche_WIRE_CRC_ERRS, t.cloche.wire)) = some (1, []) ∧
    sees (.ackFrameRx false) (withCloche { wire := [wireFrame 1 (leBytes 4 3 ++ leBytes 8 9)] }) (fun t => (t.records.acked, t.flag Rg.cloche_ALIVE)) =
      some (some (3, 9), true) ∧
    sees (.recordFrameRx false) (withCloche { wire := [wireFrame 1 (leBytes 12 0)] }) (fun t => t.cloche.wire.length) = some 1 := by decide +kernel

/-- R498, R511, R514, R564: METER_HOLD, the Cloche's power and reset, and its word. -/
theorem test_cloche_control : sees (.meterHoldWrite true) up (fun t => t.rg Rg.cloche_METER_HOLD) = some 1 ∧
    sees .vclLow (withCloche { held := [(1, 5)], queue := [[1]] }) (fun t => (t.cloche.running, t.cloche.held, t.cloche.queue)) = some (false, [(1, 5)], []) ∧
    sees .clReset up (fun t => t.cloche.inReset) = some true ∧
    sees (.clProgEn (some 7)) (withCloche { inReset := true, running := false }) (fun t => (t.cloche.prog, t.cloche.word)) = some (true, 7) ∧
    sees (.clProgEn (some 7)) up (fun t => t.cloche.word) = some 5 ∧
    sees .clocheAliveLapse (up.setRg Rg.cloche_ALIVE 0 1) (fun t => t.rg Rg.cloche_ALIVE) = some 0 := by decide +kernel

/-- ClocheRecords: a Cloche that runs and one that does not; frames of both types; records seen before; blocks with the lock and without. -/
theorem test_hyp_cloche_records : (withCloche {}).cloche.running = true ∧ (withCloche { running := false }).cloche.running = false ∧
    fieldAt (wireFrame 1 [5]) 0 1 = 1 ∧ fieldAt (wireFrame 0 [5]) 0 1 = 0 ∧ (withCloche {}).cloche.wire = [] ∧
    ([[3], [4]] : List (List Byte))[1 % max 1 2]? = some [4] ∧ up.records.blocks = [] ∧
    ({ up with records := { seen := [4] } } : State).records.seen.contains (fieldAt (leBytes 224 (at_ 24 4)) 24 8) = true ∧
    (let s : State := { up with records := { blocks := [(0, [(4, [1])])] } }
     s.records.blocks = [(0, [(4, [1])])] ∧ s.records.front = [] ∧ s.portClaim.rg Rg.cipher_OWNER = 17 ∧ s.portClaim.flag Rg.cipher_BUSY = false ∧
     (s.setRg Rg.cipher_OWNER 0 3).portClaim.rg Rg.cipher_OWNER ≠ 17) ∧ wordCode 11 = 5 ∧ wordCode 10 = 10 := by decide +kernel

/-! ## Booting, firmware -/

/-- The boot sequencer is at a STAGE, out of SAFE; no selector copy is valid. -/
def stage (n : Nat) : State :=
  ((({ State.reset with power := { state := 0 } } : State).writeN (kFlash 0) 16 0).writeN (kFlash 0x1000) 16 0).setRg Rg.system_STAGE 0 n

/-- R526: the first copy whose margins disagree, or that differs from copy 0 of a critical word. -/
theorem test_fuses : fuseReject [] = none ∧ fuseReject [⟨0x11, 1, 5, 5, 5⟩] = some (0x11, 1) ∧ fuseReject [⟨0x1FF, 0, 1, 1, 3⟩] = some (0x1FF, 0) := by
  decide +kernel

/-- R522: both banks fail to read: no image, STAGE 4 with both causes 5; a rejected fuse word: STAGE 3 with its report. -/
theorem test_boot_fails :
    sees (.hubAoResetRelease [] 40 [0, 1, 2, 3]) (stage 0) (fun t => (t.rg Rg.system_STAGE, t.rg Rg.system_CAUSE_A, t.rg Rg.system_CAUSE_B, t.core0Run)) =
      some (4, 5, 5, false) ∧
    sees (.hubAoResetRelease [⟨0x11, 1, 5, 5, 5⟩] 40 []) (stage 0) (fun t =>
      (t.rg Rg.system_STAGE, t.rg Rg.system_FUSE_HOLD, t.rg Rg.system_FH_WORD, t.rg Rg.system_FH_COPY, t.rg Rg.system_FH_SECRET, t.rg Rg.system_FH_TEMP)) =
      some (3, 1, 0x11, 1, 1, 40) ∧
    sees (.hubAoResetRelease [] 40 []) State.reset (fun t => t.rg Rg.system_STAGE) = some 0 := by decide +kernel

/-- R522, R523: a main image that fails forces the other bank once; PCIe trains. -/
theorem test_main_image : sees (.mainImageVerified [1, 2]) (stage 1) (fun t => (t.fw.forced, t.rg Rg.system_CAUSE_A, t.rg Rg.system_STAGE)) =
      some (true, 6, 4) ∧
    sees (.mainImageVerified [1]) (stage 2) (fun t => t.fw.forced) = some false ∧
    sees (.pcieLinkTrained 3 16 true) (stage 2) (fun t => (t.host.linkUp, t.rg Rg.system_HOST_IN_RESET, t.rg Rg.host_RATE, t.rg Rg.host_WIDTH)) =
      some (true, 0, 3, 16) := by decide +kernel

/-- R42: the self-test sets the working tiles of a half within the enabled set. -/
theorem test_self_test :
    let s := (({ stage 2 with fw := { mainUp := true } } : State).setRg Rg.system_WEST_IN_RESET 0 0).setRg Rg.identity_TILE_ENABLED 0 6
    sees (.bootSelfTestDone 1 { tiles := [3], hbm := 0, pcs := [], bridge := 0, hubports := 0 }) s
      (fun t => (t.fw.tested, t.rg Rg.identity_TILE_WORKING 0, t.rg Rg.identity_TILES_WORKING)) = some (true, 2, 1) := by decide +kernel

/-- BootSequence: SAFE and not, stages 1 to 4, fuse-hold; images that fail (one that verifies rests on Config.fwSigned, of which nothing is
known); a half that the self-test names and that is up. -/
theorem test_hyp_boot : State.reset.power.state = 3 ∧ (stage 0).power.state ≠ 3 ∧ (stage 0).core0Run = false ∧
    State.reset.flag Rg.system_FUSE_HOLD = false ∧ ((stage 3).setRg Rg.system_FUSE_HOLD 0 1).flag Rg.system_FUSE_HOLD = true ∧
    (stage 4).rg Rg.system_STAGE = 4 ∧ (stage 1).hubMainReset = false ∧ (stage 1).imageCause [1] 0 2 = 5 ∧ (stage 1).imageCause [2] 1 1 = 5 ∧
    (stage 1).fw.forced = false ∧ ({ stage 1 with fw := { forced := true } } : State).fw.forced = true ∧ (stage 1).fw.mainUp = false ∧
    bitN (1 : Nat) 0 = true ∧ ((stage 2).setRg Rg.system_WEST_IN_RESET 0 0).halfUp 0 = true ∧ (stage 1).flag Rg.system_WEST_HOLD = false ∧
    (stage 1).mem.wf = true ∧ Cells.wf (stage 1).regs = true := by decide +kernel

/-- The compartments run, out of SAFE, with bank 0 in use. -/
def serving : State := { up with fw := { mainUp := true, verified := [1] }, power := { state := 0 } }

/-- R530: a compartment that traps moves to the lowest spare core, 10. -/
theorem test_restart : serving.spareCore = some 10 ∧
    sees (.compartmentRestart 4 3 false) serving (fun t => t.fw.cores) = some [(4, 10)] ∧
    sees (.compartmentRestart 10 3 false) serving (fun t => t.fw.cores) = some [] := by decide +kernel

/-- FirmwareService: the requests with fields in range and out of it; banks in use and not, verified and not; time; live updates. -/
theorem test_hyp_firmware_requests : fits (0x50 + at_ 8 1 + at_ 16 4096 + at_ 32 64) 0x50 [(8, 1), (16, 8), (24, 8), (32, 4)] = true ∧
    fits (0x51 + at_ 8 1) 0x51 [(8, 1)] = true ∧ fits (0x53 + at_ 8 1 + at_ 9 1) 0x53 [(8, 1), (9, 1)] = true ∧
    fits (0x54 + at_ 8 7) 0x54 [(8, 8)] = true ∧ fits (0x52 + at_ 8 1) 0x52 [(8, 1)] = true := by decide +kernel

/-- FirmwareService: the states. -/
theorem test_hyp_firmware : serving.fw.bank = 0 ∧ 4096 + 64 ≤ bankBytes ∧ serving.verifyBank [2] 1 = 5 ∧
    serving.flag Rg.system_TIME_SET_DONE = false ∧ (serving.setRg Rg.system_TIME_SET_DONE 0 1).flag Rg.system_TIME_SET_DONE = true ∧
    serving.rg Rg.system_MTIME ≤ 7 ∧ (serving.setRg Rg.system_MTIME 0 9).rg Rg.system_MTIME = 9 ∧ serving.spareCore = some 10 ∧
    ({ serving with fw := { mainUp := true, cores := (List.range 6).map (fun i => (i + 1, i + 10)) } } : State).spareCore = some 1 ∧
    compOf 7 = 5 ∧ serving.fw.live = none ∧ serving.fw.verified.contains 1 = true ∧ up.fw.verified.contains 1 = false ∧
    ({ serving with fw := { live := some { bank := 1, comp := 7 } } } : State).fw.live = some { bank := 1, comp := 7 } := by decide +kernel

/-- R532, R533: an update moves compartment by compartment, and goes back whole where one refuses. -/
theorem test_handover :
    let s : State := { serving with fw := { mainUp := true, live := some { bank := 1, comp := 2 } }, host := { mrBusy := true, mrPending := 1 } }
    sees (.handoverSafePoint true) s (fun t => t.fw.live.map (fun l => l.comp)) = some (some 3) ∧
    sees (.handoverSafePoint true) serving (fun t => t.fw.live.isSome) = some false := by decide +kernel

/-- R537: the first TIME_SET steps MTIME. -/
theorem test_time_set : sees .timeSet (asks up (0x54 + at_ 8 7000)) (fun t => (t.rg Rg.system_MTIME, t.rg Rg.system_TIME_SET_DONE)) =
    some (7000, 1) := by decide +kernel

/-! ## Resets, power, pins -/

/-- A module that has booted, out of SAFE: hub core 0 runs. -/
def booted : State := { serving with core0Run := true, power := { state := 0, mrst := true, inputs := 3, boot := false } }

/-- R547, R548, R581: MRST# that is low already; holds. -/
theorem test_resets : sees (.mrst true []) booted (fun t => t.hubMainReset) = some false ∧
    sees (.halfHoldWrite true false) booted (fun t => (t.rg Rg.system_WEST_HOLD, t.rg Rg.system_EAST_HOLD, t.halfUp 0)) = some (1, 0, false) := by decide +kernel

/-- R36: always-on power that becomes valid puts the module into SAFE with no core started. -/
theorem test_power_valid : sees .hubAoPowerValid booted (fun t => (t.power.state, t.core0Run, t.hubMainReset)) = some (3, false, false) := by
  decide +kernel

/-- Resets: SAFE, fuse-hold, MRST# low and high. -/
theorem test_hyp_resets : booted.power.state ≠ 3 ∧ State.reset.power.state = 3 ∧ booted.flag Rg.system_FUSE_HOLD = false ∧
    booted.power.mrst = true ∧ serving.power.mrst = false ∧ booted.rg Rg.cloche_EPOCH < 2 ^ 32 ∧
    ({ State.reset with power := { mrst := true } } : State).power.state = 3 ∧ booted.mem.wf = true ∧ Cells.wf booted.regs = true := by decide +kernel

/-- The interlock, in a state with D = 3. -/
def flow (st bad good : Nat) : State := { booted with power := { state := st, boot := false, d := 3, bad := bad, good := good, mrst := true } }

/-- R565, R566, R571-R573: disagreement for D samples is FLOW_FAULT, agreement for as many ends it, three low samples are SAFE. -/
theorem test_flow : sees (.flowSample true false) (flow 0 0 0) (fun t => (t.power.state, t.power.bad)) = some (1, 1) ∧
    sees (.flowSample true false) (flow 1 1 0) (fun t => (t.power.state, t.power.bad)) = some (1, 2) ∧
    sees (.flowSample true false) (flow 1 2 0) (fun t => (t.power.state, t.power.faultPend, t.power.flowFaults)) = some (2, true, 1) ∧
    sees (.flowSample true true) (flow 2 0 1) (fun t => t.power.state) = some 2 ∧
    sees (.flowSample true true) (flow 2 0 2) (fun t => t.power.state) = some 0 ∧
    sees (.flowSample false false) (flow 3 0 0) (fun t => (t.power.state, t.power.low2)) = some (3, 1) := by decide +kernel

/-- R572, R574: a second low sample is not yet SAFE; a trip has cause 2, 3 or 4. -/
theorem test_safe : sees (.flowSample false false) { flow 1 0 0 with power := { state := 1, low2 := 1, mrst := true } } (fun t =>
      (t.power.state, t.power.low2)) = some (1, 2) ∧
    sees (.thermalTrip 5) (flow 0 0 0) (fun t => t.power.state) = some 0 ∧
    sees (.thermalTrip 4) (flow 3 0 0) (fun t => t.power.cause) = some 5 := by decide +kernel

/-- R568-R570: windows above and below the limit, temperatures at and above the throttle point. -/
theorem test_power : booted.plimit = booted.tdp ∧
    sees (.powerWindow (booted.plimit + 1)) booted (fun t => (t.power.west.power, t.power.east.power, t.power.calm)) = some (1, 1, 0) ∧
    sees (.powerWindow 0) booted (fun t => t.power.calm) = some 1 ∧
    sees (.powerWindow booted.plimit) booted (fun t => t.power.calm) = some 0 ∧
    sees (.thermalSample 1000 999 [0, 950, 901]) booted (fun t => (t.power.west.thermal, t.power.east.thermal, t.power.hbmHot)) =
      some (1, 0, [1]) := by decide +kernel

/-- PowerAndFlow: limits, calm windows, samples of each kind in each state; the test port. -/
theorem test_hyp_power : 0 < booted.plimit ∧ 100 * 0 ≤ 95 * booted.plimit ∧ ({ calm := 9 } : Power).calm = 9 ∧ booted.power.calm < 9 ∧
    95 * booted.plimit < 100 * booted.plimit ∧ (flow 1 2 0).power.d ≤ (flow 1 2 0).power.bad + 1 ∧ (flow 1 1 0).power.bad + 1 < 3 ∧
    (flow 2 0 2).power.d ≤ (flow 2 0 2).power.good + 1 ∧ 10 * booted.power.tj = 1000 ∧ 300 ≤ booted.tdp ∧
    fits (0x60 + at_ 8 300 + at_ 10 6 + at_ 12 500 + at_ 14 85) 0x60 [(8, 2), (10, 1), (11, 1), (12, 2), (14, 1)] = true ∧ fits 0x61 0x61 [] = true ∧
    ({ flow 3 0 49 with power := { boot := true, good := 49 } } : State).power.state = 3 ∧ (flow 2 0 0).power.faultPend = false ∧
    (flow 0 0 0).enterFlowFault.power.faultPend = true := by decide +kernel

/-- R582: the TAP controller leaves Test-Logic-Reset at TMS 0, and returns to it in functional mode. -/
theorem test_tap : sees (.tapClock true false false []) booted (fun t => t.power.tap.state) = some (tapNext 0 false) ∧ tapNext 0 false ≠ 0 ∧
    tapNext 0 true = 0 ∧ sees (.tapClock false false false []) booted (fun t => t.power.tap.state) = some 0 := by decide +kernel

/-! ## Every command -/

/-- R589: the invariant holds at reset, and in a state with registers and memory that have been written. -/
theorem test_hyp_invariant : State.reset.Inv ∧ ((up.setRg Rg.host_MR_CI 0 3).writeN (kMgmt 0) 2 5).Inv := by unfold State.Inv; decide +kernel

/-- A step takes the front of the queue; on an empty queue a tick of the reference passes. -/
theorem test_step : (match step { up with pending := [.form, .getTid 1] } with
      | .next t => some t.pending
      | _ => none) = some [.getTid 1] ∧
    (match step up with
      | .next t => some (t.pending, t.mem.wf, Cells.wf t.regs)
      | _ => none) = some ([], true, true) := by decide +kernel

/-! ## Ohmette-36: encodings, entries, lanes -/

/-- R166-R173: encodings written out from the tables: ADD g1, g2, g3; PUSH g5; a sign-extended short lane load at 127 lanes; CALL by 1,000
halves, ATCAS, FPACK to FMT 0xA with SAT, MFS of CAUSE. -/
theorem test_decoding : let c : CoreId := .hub 0
    decodeOhm c 0 (1 * 2 ^ 6 + 2 * 2 ^ 3 + 3) = some (.add c false 1 2 3) ∧
    decodeOhm c 0 (0x7 * 2 ^ 14 + 7 * 2 ^ 10 + 5) = some (.push c 5) ∧
    decodeOhm c 0 (0x8 * 2 ^ 14 + 1 * 2 ^ 13 + 2 * 2 ^ 10 + 3 * 2 ^ 7 + 127) = some (.ldls c 2 3 (.short 127)) ∧
    decodeOhm c 0 (0xE * 2 ^ 14 + 0x11 * 2 ^ 8 + (1000 / 8) * 2 ^ 18) = some (.call c 1000) ∧
    decodeOhm c 0 (0xD * 2 ^ 14 + 0x0A * 2 ^ 8 + 4 * 2 ^ 3 + 5 * 2 ^ 18 + 6 * 2 ^ 23 + 31 * 2 ^ 28) = some (.atcas c 4 5 6 31) ∧
    decodeOhm c 0 (0xF * 2 ^ 14 + 0x18 * 2 ^ 8 + 4 * 2 ^ 3 + 5 * 2 ^ 18 + 0xA * 2 ^ 23 + 1 * 2 ^ 27) = some (.fpack c 4 5 0xA true) ∧
    decodeOhm c 0 (0xE * 2 ^ 14 + 0x20 * 2 ^ 8 + 4 * 2 ^ 3 + 3 + 4 * 2 ^ 23) = some (.mfs c 4 0x23) := by decide +kernel

/-- R168, R169, R173, R187: a FN that is not listed, a bit that must be zero, MAJ 0xB, an FMT of 0x5 and ru of FPACK are reserved. -/
theorem test_reserved_encodings : ([13 * 2 ^ 10, 1 * 2 ^ 9, 0xB * 2 ^ 14, 0xF * 2 ^ 14 + 0x18 * 2 ^ 8 + 0x5 * 2 ^ 23,
    0xF * 2 ^ 14 + 0x18 * 2 ^ 8 + 0xA * 2 ^ 23 + 1 * 2 ^ 28].all fun w => decodeOhm (.tile 0) 0 w == none) = true := by decide +kernel

/-- OhmEntry: a reserved half and another vector with TL 0 and 1; a bad word that holds the instruction, or its second half, or that does
not; an interrupt of each source. -/
theorem test_hyp_entry : let s := hub0 { pc := 9 }
    s.coreRuns (.hub 0) = true ∧ (s.core (.hub 0)).interrupt = none ∧ ((s.core (.hub 0)).waiting && (s.core (.hub 0)).enabledSource.isNone) = false ∧
    ohmLong 0x2C000 = false ∧ decodeOhm (.hub 0) 0 0x2C000 = none ∧ (s.core (.hub 0)).tl = false ∧ ((hub0 { cw := 8 }).core (.hub 0)).tl = true ∧
    (4 : Nat) = (s.core (.hub 0)).pc.toNat / 2 ∧ (5 : Nat) = ((s.core (.hub 0)).pc.toNat + 1) / 2 ∧ (6 : Nat) ≠ (9 + 1) / 2 ∧
    ((hub0 { cw := 1, ienable := 0x10000, beatPend := true }).core (.hub 0)).interrupt = some 0 ∧
    ((hub0 { cw := 1, ienable := 0x80000, fnPend := true }).core (.hub 0)).interrupt = some 3 := by decide +kernel

/-- OhmMessages: a tile's core writes to its own MSG_IN alone; a core in compartment mode needs the bit of the range. -/
theorem test_hyp_messages : msgRange (.hub 0) (.hub 1) = some 9 ∧ msgRange (.hub 0) (.tile 1) = some 10 ∧ msgRange (.tile 1) (.tile 1) = some 7 ∧
    msgRange (.tile 1) (.tile 2) = none ∧ ((hub0 { cw := 2 }).core (.hub 0)).extallow.getLsbD 9 = false ∧
    (tile1 {}).tileUp 1 = true ∧ (tile1 {}).tileUp 2 = false := by decide +kernel

/-- The core of tile 1, which runs beats, has g1 and g2; `base` is the first line of its output window of four lines. -/
def coreOn1 (k : Core) (base : Nat) : State :=
  let s := (tile1 { running := true }).writeN (kBank 1 0 0) 64 ((base * 2 ^ 3 + 1 * 2 ^ 37 + 3 * 2 ^ 64 + 3 * 2 ^ 128 + 3 * 2 ^ 192) * 2 ^ 256)
  { s.setRg Rg.window_CORE_HOLD 0 0xFFFFFFFD with cores := [(1, k)], dom := { ticking := true } }

/-- The lanes that an access waits for. -/
def waitsFor (r : ExtRes) : Option (List Nat) :=
  match r with
  | .wait ks => some ks
  | _ => none

/-- OhmLanes and OhmOwnSlice: a lane of the own slice outside every window, and one in a window, which waits; an atomic that has waited and
been served. -/
theorem test_hyp_own_slice : let s := coreOn1 { g := [(1, 0x100), (2, 7)] } 16
    let k := s.begun (.tile 1)
    Ready s (.tile 1) true ∧ Cells.wf s.cores = true ∧ (0x100 : Nat) % 4 = 0 ∧ 0x100 + 4 ≤ 32 * s.sliceLines 1 ∧
    s.winWaits 1 (.slice 1 (0x100 / 32)) = false ∧ k.heldStores = [] ∧ k.served = [] ∧ k.waitOp = none ∧ k.compartment = false ∧
    waitsFor ((s.setCore (.tile 1) k).extLoad (.tile 1) k (32 * 16)) = some [kSlice 1 (32 * 16)] ∧
    (let k : Core := { waitOp := some (.add 7), served := [(kSlice 1 0x100, 5)] }
     k.waitOp = some (LaneOp.add 7) ∧ ((sliceLane (.tile 1) k 0x100).bind k.servedLane).isSome = true) := by
  unfold Ready; decide +kernel

/-- R165, R171, R201: a load of the own slice outside every window is done; in a window of the running table it waits, and the COMMIT tick's
service answers what has committed. -/
theorem test_own_slice_load : let s (b : Nat) := (coreOn1 { g := [(1, 0x200)] } b).writeN (kSlice 1 0x200) 4 0x1234
    sees (.ldl (.tile 1) 2 1 (.short 0)) (s 100) (fun t => ((t.core (.tile 1)).get 2, (t.core (.tile 1)).pc)) = some (0x1234, 1) ∧
    sees (.ldl (.tile 1) 2 1 (.short 0)) (s 16) (fun t => ((t.core (.tile 1)).waitLanes, (t.core (.tile 1)).pc)) = some ([kSlice 1 0x200], 0) ∧
    sees (.ldl (.tile 1) 2 1 (.short 0)) (s 16) (fun t => ((t.serveLoads true).core (.tile 1)).served) =
      some [(kSlice 1 0x200, 0x1234)] := by decide +kernel

/-! ## The beat domain: more of its forms -/

/-- DomainFormation: a module that forms and may not join any more; one that forms and is not the founder; a port that carries no ticks.
DomainControl: a new attempt with and without a port to ask over; requests at the founder, at the master, at a member with a parent and at
none; RUN of a halted domain; MEMBERS of a domain that is not alone. -/
theorem test_hyp_formation : let f (d : Domain) : State := ({ joins with dom := d } : State).setRg Rg.beat_FORMING 0 1
    (f { formId := 5 }).mayJoin 5 = true ∧ (f { formId := 5 }).dom.founding = false ∧ ((f { formId := 5 }).setRg Rg.beat_RUN 0 1).mayJoin 5 = false ∧
    ((f { formId := 5 }).setRg Rg.beat_JOIN_EN 0 0).mayJoin 5 = false ∧ (upAt 3 joins).tickPorts = [3] ∧
    (upAt 3 joins).joinPort = some 3 ∧ joins.joinPort = none ∧ joins.flag Rg.beat_STANDBY_REQ = false ∧
    (f { founding := true, formId := 5 }).dom.founding = true ∧ (upAt 3 (master false none)).tickPorts.contains 3 = true ∧
    (member true none).dom.founding = false ∧ joins.dom.parent = none ∧ (master true none).isMaster = true ∧
    (let s := joins.setMembers [0, 1] []; s.rg Rg.beat_MEMBERS = 2 ∧ ({ s with dom := { member := true } } : State).mayJoin 5 = false) ∧
    (let h := ({ master false none with dom := { member := true, haltCause := 1 } } : State).setRg Rg.beat_HALTED 0 1
     h.isMaster = true ∧ h.flag Rg.beat_HALTED = true ∧ h.dom.haltCause = 1 ∧ h.dom.pend = none) := by decide +kernel

/-- R51, R86: the bounds of a period, and a module that is refused. -/
theorem test_periods_and_refusal : ([7, 4001].all fun us => sees (.nextPeriodWrite us 9) (master true none)
      (fun t => (t.dom.nextSet, t.rg Rg.beat_PERIOD_AT_LO)) == some (false, 9)) = true ∧
    ([8, 4000].all fun us => sees (.nextPeriodWrite us 9) (master true none)
      (fun t => (t.dom.nextSet, t.rg Rg.beat_NEXT_PERIOD_US)) == some (true, us)) = true ∧
    sees (.joinSymbol (.refused 2)) joins (fun t => (t.rg Rg.beat_JOIN_REFUSED, t.rg Rg.beat_REFUSE_CAUSE, t.dom.joinSpent)) = some (1, 2, true) := by
  decide +kernel

/-- What the master of domain 5 says of it. -/
def told : DomInfo :=
  { parent := none, children := [], depth := 2, treeDepth := 3, delay := 128, master := 1, members := [0, 1], standby := [],
    beat := 40, time := 500, period := 40, running := true, halted := false, attempt := 2, base := (100, 30), last := 90,
    debt := (7, 3, false) }

/-- R51, R84, R85: a module that is admitted to a running domain enters it with the base and the debt of its schedule. -/
theorem test_admitted : sees (.joinSymbol (.admitted told)) joins (fun t => [t.rg Rg.beat_BEATNO, t.rg Rg.beat_TICK_LEAD, t.dom.baseB,
      t.dom.baseN, t.rg Rg.beat_DEBT, t.rg Rg.beat_OVR_RUN]) = some [40, 1152, 100, 30, 7, 3] ∧
    sees (.joinSymbol (.admitted told)) { joins with dom := { joinSpent := true } } (fun t => t.dom.member) = some false := by decide +kernel

/-- TickCommands: ticks of each kind that are due, and one that waits while another acts; tables armed for the halted beat. -/
theorem test_hyp_ticks : ([0, 1, 2, 3].all fun k => (member true (some (k, 6, 9))).dom.pend == some (k, 6, 9)) = true ∧
    (member true none).dom.member = true ∧ (∀ m b, (member true (some (1, 6, 9))).dom.pend ≠ some (0, m, b)) ∧
    (let s := ((tile1 { arm := 1 }).writeN (kBank 1 1 0) 64 (6 * 2 ^ 192)).setRg Rg.beat_HALTED 0 1
     s.armedFor 6 1 = true ∧ s.armedFor 7 1 = false) ∧ (5 : Nat) - (0 + (0 + 1 - 0) * 5) = 0 := by
  refine ⟨?_, rfl, ?_, ?_, rfl⟩
  · decide +kernel
  · intro m b h
    have e : (member true (some (1, 6, 9))).dom.pend = some (1, 6, 9) := by decide +kernel
    rw [e] at h
    cases h
  · decide +kernel

/-- Members 0, 1 and 2 of a domain; this member is 0. -/
def three (s : State) : State := s.setMembers [0, 1, 2] []

/-- IdleAndLoss: at the master a member that two probes have missed, and one that it reaches; at another member those that it is told of; the
lowest surviving active member becomes the master. -/
theorem test_hyp_masters : let s : State := { three (master true none) with dv := { missed := [(1, 2)] } }
    s.unreachable 1 = true ∧ s.isMaster = true ∧ (three (master true none)).members = [0, 1, 2] ∧
    (three (member true none)).isMaster = false ∧
    (let m : State := { three (member true none) with dom := { (member true none).dom with master := 1 } }
     m.masterAfter [0, 2] = 0 ∧ m.masterAfter [0, 1] = 1 ∧ m.dom.master ∉ [0, 2] ∧ m.holdsDones = false) ∧
    (three (member true (some (1, 6, 9)))).holdsDones = true ∧
    (three (master true none)).midSet Rg.beat_STANDBY = [] ∧
    (let a : State := { master true none with dom := { member := true, ticking := true, aborted := true, waitSpare := true } }
     a.isMaster = true ∧ a.dom.pend = none ∧ a.dom.haltWith = none ∧ a.fm.replays = []) := by decide +kernel

/-- R55: a member whose master is lost, with a majority left, becomes the master with the lowest MID. -/
theorem test_new_master : let m : State := { three (member true none) with dom := { (member true none).dom with master := 1 } }
    sees (.memberLost [(1, none)] none) m (fun t => (t.dom.master, t.rg Rg.beat_ROLE, t.members)) = some (0, 3, [0, 2]) ∧
    sees (.memberLost [(1, none), (2, none)] none) m (fun t => (t.rg Rg.beat_HALTED, t.dom.haltCause)) = some (1, 0) := by decide +kernel

/-! ## Tiles, store, Furrow: more of their forms -/

/-- R105: RSQRT of the exact squares 9, 2.25 and 4 is 1/3, 2/3 and 1/2, rounded once: fraction 2^27/3 to nearest. -/
theorem test_rsqrt_squares : trans36 0x14 0x411000000 = 0x3EAAAAAAB ∧ trans36 0x14 0x401000000 = 0x3F2AAAAAB ∧
    trans36 0x14 0x408000000 = 0x3F0000000 := by decide +kernel

/-- RowsIssue: a move that can be made and one beyond the slice space; exchanges of a tile of the other half with no bridge channel, of another
module, and beyond the slice space; a tracked row that uses a mark's line; marks at the end of the slice space. -/
theorem test_hyp_row_errors :
    ((row1 2).runMove 1 (MoveRow.of (2 + 32 * 2 ^ 112 + 1 * 2 ^ 136))).2.2 = 0 ∧
    ((row1 2).runMove 1 (MoveRow.of (2 + (2 ^ 24) * 2 ^ 32 + 32 * 2 ^ 112 + 1 * 2 ^ 136))).2.2 ≠ 0 ∧
    ((row1 0).tileHalf 1 == (row1 0).tileHalf 200) = false ∧ (row1 0).flag Rg.identity_BRIDGE_WORKING = false ∧
    (row1 0).myMid 9 = false ∧ (row1 0).sliceLines 1 < 2 ^ 19 + 1 ∧
    (let k : Tile := { track := [{ slot := 9, cls := 2, foots := [{ hbm := false, lo := 3, hi := 5, wr := true }] }] }
     k.trackOk [{ hbm := false, lo := 4, hi := 6, wr := false }] = false ∧ k.trackOk [{ hbm := false, lo := 5, hi := 6, wr := true }] = true) ∧
    (row1 (6 + 2 ^ 8 + (2 ^ 19 - 1) * 2 ^ 64 + 33 * 2 ^ 83)).nextMark 1 1 = some (2, 6 + 2 ^ 8 + (2 ^ 19 - 1) * 2 ^ 64 + 33 * 2 ^ 83) ∧
    (row1 6).sliceLines 1 < 2 ^ 19 - 1 + 2 ∧ ((row1 6).writeN (kBank 1 0 0) 64 0).winHit 1 (.slice 1 4) = none := by decide +kernel

/-- WaitAndMarkRows: each condition of a wait row that holds and that does not. -/
theorem test_hyp_waits : let s : State := (tile1 { arrival := [(3, 2)], track := [] }).setRg Rg.tile_DELIVERED 17 4
    2 ≤ (s.tile 1).arrival.getD 0 3 ∧ ¬3 ≤ (s.tile 1).arrival.getD 0 3 ∧ 4 ≤ s.rg Rg.tile_DELIVERED (16 * 1 + 1) ∧
    ¬5 ≤ s.rg Rg.tile_DELIVERED (16 * 1 + 1) ∧ 0 ≤ s.rg Rg.beat_DTIME - s.dom.beatStart ∧ ¬1 ≤ s.rg Rg.beat_DTIME - s.dom.beatStart ∧
    (s.tile 1).track = [] ∧ ((tile1 { track := [{ slot := 2, cls := 0 }] }).tile 1).track ≠ [] ∧ (s.tile 1).waitRow = none := by decide +kernel

/-- WaitAndMarkRows: staging that is full (8 MiB: R79). -/
theorem test_hyp_staging (s : State) (b : List Byte) (h : b.length = 2 ^ 23) : let t : State :=
      { s with dom := { s.dom with staging := [{ tile := 0, slot := 2, channel := 0, bytes := b }] }, host := {} }
    t.stagingUnits = 2 ^ 18 := by
  simp only [State.stagingUnits, List.foldl_cons, List.foldl_nil, h, ceilDiv]
  rfl

/-- R90, R96, R118: a row whose residue check fails at its first line is a row fault; a parity failure counts and stops
the tile. -/
theorem test_row_checks : let s := tile1 { track := [{ slot := 4, cls := 2, writes := [(.slice 1 9, [])] }] }
    sees (.rowComplete 1 4 1 0) s (fun t => t.detections.map (fun d =>
      match d with
      | .rowFault t _ slot chk _ l => (t, slot, chk, l)
      | _ => (0, 0, 0, 0))) = some [(1, 4, 1, 9)] ∧
    ((tile1 {}).checkFails 1 4 0 77).rg Rg.tile_PAR_ERRS 1 = 1 ∧ ((tile1 {}).checkFails 1 4 0 77).rg Rg.tile_HALTED_FAULT 1 = 1 := by
  decide +kernel

/-- RowWritesStayInWindows: HBM and another tile's line out of reach; a line that an exchange row has written, and one that none has. -/
theorem test_hyp_row_places : (tile1 {}).locFrom 1 (.hbm 0) = none ∧ (tile1 {}).tileEnabled 2 = false ∧ (tile1 {}).tileUp 2 = false ∧
    (tile1 {}).locFrom 1 (.slice 1 9) = some (kSlice 1 (32 * 9)) ∧ ((tile1 {}).setRg Rg.identity_TILE_ENABLED 0 2).tileEnabled 1 = true ∧
    (tile1 {}).flag Rg.fault_SPARE_VALID = false ∧ ((tile1 {}).tile 1).sent = [] ∧ (tile1 {}).Inv := by
  unfold State.Inv; decide +kernel

/-- ExchangeTurns: packets behind a held one, of another attempt, for a tile that moves, for a tile out of service from this module and from
another, one beat ahead and 127, and of an earlier beat. -/
theorem test_hyp_exchange_turns :
    let p : XPkt := { srcMid := 0, srcTile := 2, srcSlot := 2, beat := 0, attempt := 0, dstMid := 0, dstTile := 1, vc := 0, dctr := 3, op := 0,
                      addr := 32, aaddr := 0, first := 0, data := [], last := true }
    let s : State := { tile1 {} with trellis := [p] }
    s.trellis[1]? = none ∧ ({ p with attempt := 1 } : XPkt).attempt ≠ s.dom.attempt ∧
    ({ s with fm := { replays := [{ tile := 1, kind := 2, spare := some 3, phase := 0, aborted := false }] } } : State).moving 1 = true ∧
    s.tileUp 7 = false ∧ s.myMid 0 = true ∧ s.myMid 9 = false ∧ (1 + 256 - s.rg Rg.beat_BEATNO % 256) % 256 = 1 ∧
    (127 + 256 - s.rg Rg.beat_BEATNO % 256) % 256 = 127 ∧ (255 + 256 - s.rg Rg.beat_BEATNO % 256) % 256 = 255 ∧
    (s.tile 1).held[0]? = none ∧ (({ held := [p, p] } : Tile).held.take 1).any (fun r => p.sameRow r) = true := by decide +kernel

/-- ExchangeLanding: bytes inside the output windows and outside them; agreed anchors within the slice space and beyond it. -/
theorem test_hyp_exchange_landing :
    let s := (tile1 { running := true }).writeN (kBank 1 0 0) 64 ((4 + 4 * 2 ^ 3 + 1 * 2 ^ 37 + 3 * 2 ^ 64 + 3 * 2 ^ 128 + 3 * 2 ^ 192) * 2 ^ 256)
    s.inWindows 1 128 32 true = true ∧ s.inWindows 1 128 32 false = true ∧ s.inWindows 1 (32 * 9) 32 false = false ∧
    0 + 2 * (0 + 20 / 20) ≤ 32 * s.sliceLines 1 ∧ 32 * s.sliceLines 1 < 2 ^ 24 - 1 + 2 * (0 + 20 / 20) := by decide +kernel

/-- CacheCommands, HbmUpkeep: a line out of reach; a place of HBM that is used; a stream that is live; a pass of the scrub that the last
working pseudo-channel ends, and one that it does not. -/
theorem test_hyp_hbm : let s := stack0 (tile1 {})
    (tile1 {}).hbmFrom 1 0 = false ∧ s.hbmFrom 1 0 = true ∧ s.hbmPhys 0 = some (0, 0, 0) ∧ furrow.rg Rg.tile_STATE (16 * 1 + 0) = 2 ∧
    s.rg Rg.tile_STATE (16 * 1 + 0) ≠ 2 ∧
    (let w : State := { s with hbm := { scrubDone := List.range 32 } }
     ((List.range 192).all fun j => !w.pcWorking (j / 32) (j % 32) || w.hbm.scrubDone.contains j) = true) ∧
    ((List.range 192).all fun j => !s.pcWorking (j / 32) (j % 32) || s.hbm.scrubDone.contains j) = false ∧
    pcBytes / 64 ≤ pcBytes / 64 - 1 + 1 ∧ ¬pcBytes / 64 ≤ 0 + 1 := by decide +kernel

/-- R218: the last working pseudo-channel that gets through completes the pass. -/
theorem test_scrub_pass : let s := stack0 (tile1 {})
    let w : State := { s with hbm := { scrubDone := (List.range 31), scrubPos := [(31, pcBytes / 64 - 1)] } }
    ((w.scrub 0 31 1).rg Rg.hbm_SCRUB_PASSES, (w.scrub 0 31 1).hbm.scrubDone) = (1, []) ∧
    ((({ w with hbm := { w.hbm with scrubDone := [] } } : State).scrub 0 31 1).rg Rg.hbm_SCRUB_PASSES) = 0 := by decide +kernel

/-- Furrow: a line whose source is as it was when its window opened, one whose source was written since, one out of reach; a peer's line that
has come and one that has not; a stream whose last batch is done. -/
theorem test_hyp_furrow_lines :
    let x : Stream := { flight := [(1, 0)], source := [(1, [none, some (leBytes 32 0x99)])], resp := [(1, 1, List.replicate 32 5)] }
    let s : State := ({ furrow with streams := [(16, x)] }).writeN (kSlice 1 32) 32 0x99
    s.sourceLine 1 (s.descr 1 0) ((s.descr 1 0).lineSource 1 1) = some (leBytes 32 0x99) ∧
    (x.source.any fun w => w.1 == 1 && decide (w.2.getD 1 none = some (leBytes 32 0x99))) = true ∧
    (x.source.any fun w => w.1 == 1 && decide (w.2.getD 1 none = some (leBytes 32 0x98))) = false ∧
    (s.setRg Rg.tile_SRC_LO 16 (2 ^ 25)).sourceLine 1 ((s.setRg Rg.tile_SRC_LO 16 (2 ^ 25)).descr 1 0) (2 ^ 25) = none ∧
    ((s.setRg Rg.tile_SPACE 16 2).descr 1 0).space = 2 ∧ x.resp.find? (fun e => e.1 == 1 && e.2.1 == 1) = some (1, 1, List.replicate 32 5) ∧
    x.resp.find? (fun e => e.1 == 1 && e.2.1 == 0) = none ∧ Cells.wf s.streams = true ∧
    (s.descr 1 0).cyclic = false ∧ (s.descr 1 0).start + (s.descr 1 0).count ≤ 3 + 1 := by decide +kernel

/-! ## Dvorar: more of its forms -/

/-- A number of n bytes is what its bytes spell. -/
theorem leNat_leBytes (n v : Nat) (h : v < 256 ^ n) : leNat (leBytes n v) = v := by
  induction n generalizing v with
  | zero => simp at h; simp [leBytes, leNat, h]
  | succ n ih =>
    have h' : v / 256 < 256 ^ n := by rw [Nat.pow_succ] at h; omega
    simp only [leBytes, leNat, ih _ h', BitVec.toNat_ofNat]
    omega

/-- LinkRetryAndCredits: a flit whose FEC parity holds once a byte has been corrected; one with no correction, and one with three in a
codeword. -/
theorem test_hyp_fec : let b : List Byte := List.replicate 248 0
    let bytes := b ++ leBytes 8 (Config.fecParity b).toNat
    let mended := ([(0, 0)] : List (Nat × Byte)).foldl (fun (b : List Byte) f => b.set f.1 f.2) (bytes.set 0 1)
    leNat (mended.drop 248) = (Config.fecParity (mended.take 248)).toNat ∧
    ¬(([(0, 0), (2, 0), (4, 0)] : List (Nat × Byte)).filter (fun f => f.1 % 2 == 0)).length ≤ 2 := by
  refine ⟨?_, by decide⟩
  have hm : (([(0, 0)] : List (Nat × Byte)).foldl (fun (b : List Byte) f => b.set f.1 f.2)
      ((List.replicate 248 (0 : Byte) ++ leBytes 8 (Config.fecParity (List.replicate 248 0)).toNat).set 0 1)) =
      List.replicate 248 0 ++ leBytes 8 (Config.fecParity (List.replicate 248 0)).toNat := by
    generalize leBytes 8 _ = p
    simp only [List.foldl_cons, List.foldl_nil, List.set_set]
    rfl
  rw [hm, List.drop_left' List.length_replicate, List.take_left' List.length_replicate]
  exact leNat_leBytes 8 _ (Nat.lt_of_lt_of_le (BitVec.isLt _) (by decide))

/-- A READ packet of 4 bytes of hub SRAM, from module 6. -/
def read4 : DvPkt := { blankPkt with op := 5, last := true, src := 6, origin := 2, cn := 1, psn := 0, len := 4, addr := 16, space := 2 }

/-- LinkRetryAndCredits: a flit out of sequence, one of another kind, a body with one whole packet for this module; symbols due; a copy of a
symbol. -/
theorem test_hyp_flits : let h := leNat ((pktBytes read4).take 32)
    pktOk h = true ∧ pktLen h ≤ 232 ∧ (link {}).forMe (pktOf h []) = true ∧ bits h 80 13 = 4 ∧ bits (3 * 2 ^ 5) 5 10 ≠ ((link {}).port 3).rxNext ∧
    bits (1 * 2 ^ 3) 3 2 ≠ 0 ∧ ((link { badRun := 3 }).port 3).badRun = 3 ∧ ((link { nakOpen := true }).port 3).nakOpen = true ∧
    ((link { due := [5] }).port 3).due.tail = [] ∧ fourTimes (bits (7 + 64) 0 6) = true ∧
    ((link { lastSym := some (7 + 64, 3) }).port 3).lastSym = some (7 + 64, 3) ∧ tx1.vc = 0 ∧ tx1.toCome = 0 ∧ tx1.begun = false ∧
    tx1.bytes ≠ [] := by decide +kernel

/-- R264: of a DONE symbol that comes four times only the first acts. -/
theorem test_symbol_copies : let s := ((upAt 4 (master true none)).setRg Rg.beat_BEATNO 0 7).actSym 4 (5 + 7 * 64)
    s.dom.doneFrom = [4] ∧ ({ s with dom := { s.dom with doneFrom := [] } } : State).actSym 4 (5 + 7 * 64) =
      { s with dom := { s.dom with doneFrom := [] } } := by decide +kernel

/-- R273, R283: a body with one packet for this module delivers it, and frees the flit's buffer. -/
theorem test_flit_body : let body := pktBytes read4 ++ List.replicate (232 - 32) 0
    let s := ((link {}).takeBody 3 0 0 body)
    s.dv.inbox = [read4] ∧ ((s.port 3).asm.getD [] 0) = [] := by decide +kernel

/-- LinkTrainingAndLanes: a trained end; a lane that waits for its turn; LANE_RETIRE agreed and not; exactly four lanes left. -/
theorem test_hyp_lanes_wait : (link {} 1).rg Rg.dvport_STATE 3 = 1 ∧ ((link { asked := some 0x7F }).port 3).asked ≠ none ∧
    ((link { drop := some 0x7F, unlocked := [2] }).port 3).unlocked = 2 :: [] ∧ (link {}).rg Rg.dvport_FEATURES 3 % 2 = 0 ∧
    ((link {}).setRg Rg.dvport_FEATURES 3 1).rg Rg.dvport_FEATURES 3 % 2 = 1 ∧ popCount 8 (0x1F - 2 ^ 0) = 4 ∧ popCount 8 (0xF - 2 ^ 0) < 4 ∧
    bitN (0x7F : Nat) 7 = false := by decide +kernel

/-- RoutesAndProbes: an LSTATE not as new as the map's; a second miss; a member with a path and one without; entries without a usable port. -/
theorem test_hyp_routes : let s : State := { link {} with dv := { (link {}).dv with missed := [(9, 1)] } }
    let m : State := { s with dv := { s.dv with linkMap := [(32 * 5, (true, 7))] } }
    m.dv.linkMap.get? (32 * 5) = some (true, 7) ∧ ¬(0 < (7 + 4096 - 7) % 4096) ∧ 1 ≤ s.dv.missed.getD 0 9 ∧ Cells.wf s.dv.missed = true ∧
    ((link {}).port 3).unechoed = [] ∧ (s.setRg Rg.dvport_PEER_MID 3 9).unreachable 9 = false ∧ s.unreachable 7 = true ∧
    (s.setRg Rg.dvport_PEER_MID 3 9).upDown 9 = some 3 ∧ (s.setRg Rg.dvorar_AUTO_EN 0 0).flag Rg.dvorar_AUTO_EN = false ∧
    (let x := s.setRg Rg.beat_MID 0 5
     (∀ q, q < 24 → x.rg Rg.dvport_PEER_MID q ≠ x.rg Rg.beat_MID) ∧ x.upDown 0 = some 3) ∧
    (((s.setRg Rg.dvorar_AUTO_EN 0 1).setRg Rg.dvorar_ROUTE_A 9 (2 ^ 22 + 0xFFFFF)).unrouted) = [9] := by decide +kernel

/-- DvorarTransport: requests of a refused operation at their turn and before it; the reorder store at its end; pages that are read-only. -/
theorem test_hyp_requests : let k := recvKey 6 2 1
    let s (r : RecvConn) : State := { dv := { recv := [(k, r)], inbox := [write1] } }
    ((s { refused := some (0, 4) }).recv k).refused = some (write1.opid, 4) ∧ write1.psn = ((s { refused := some (0, 4) }).recv k).next ∧
    write1.psn ≠ ((s { next := 5 }).recv k).next ∧ ((s { held := [write1] }).recv k).held.find? (fun q => q.psn == 0) = some write1 ∧
    (s {}).reorderUsed 2 + 2 ^ 21 ≤ 2 * 2 ^ 20 ∧ ¬(s { held := [write1] }).reorderUsed 2 + 2 ^ 21 ≤ 2 * 2 ^ 20 ∧
    (let x := (((s {}).setRg Rg.dvorar_XLATE_EN 0 1).writeN (kHub 0) 8 (2 ^ 18))
     bitN (x.rattEntry 0) 18 = true ∧ bitN (x.rattEntry 0) 19 = false ∧ (0 : Nat) % 2 ^ 21 + 4 ≤ 2 ^ 21) := by decide +kernel

/-- DvorarTransport: places that a packet in turn may name: hub SRAM to its end, a slice in service and to its end, HBM that is used. -/
theorem test_hyp_places : let s := stack0 (tile1 {})
    (96 * 2 ^ 20 - 4) + 4 ≤ 96 * 2 ^ 20 ∧ (∀ j, j < 1 → s.sieveBank (16 + j) = none) ∧ s.tileUp 1 = true ∧ s.tileUp 2 = false ∧ s.moving 1 = false ∧
    0 + 4 ≤ 32 * s.sliceLines 1 ∧ 32 * s.sliceLines 1 < 2 ^ 24 - 1 + 4 ∧ s.cowHeld 0 4 = false ∧ s.hbmOk 0 4 = true ∧ s.hbmOk (2 ^ 38) 4 = false ∧
    (s.committedHbm 0 4).isSome = true ∧ s.committedHbm (2 ^ 39) 4 = none ∧ s.winWaits 1 (.slice 1 0) = false ∧
    ((tile1 { running := true, loaded := true }).writeN (kBank 1 0 0) 64 0).inLog 1 (.slice 1 100) = false := by decide +kernel

/-- A sender of ORIGIN 1, CN 5 with a WRITE of one packet outstanding, and one with a READ. -/
def sender (rd : Bool) : State :=
  let q : DvPkt := { write1 with op := if rd then 5 else 1, origin := 1, cn := 5, opid := 1 }
  let o : DvOp := { opid := 1, read := rd, len := 1, left := [(0, 0, 1)], uncovered := if rd then [0] else [] }
  { dv := { send := [(connKey 1 5, { sent := [q], ops := [o], psn := 1 })] } }

/-- DvorarTransport: operations that a response names, of either kind; packets that nothing is left of; PAGE_RETRIES reached. -/
theorem test_hyp_responses : let k := connKey 1 5
    ((sender true).opOf k 0 true).isSome = true ∧ (sender true).opOf k 9 true = none ∧ ((sender false).opOf k 0 false).isSome = true ∧
    ((sender false).conn k).wait = [] ∧ ((sender false).conn k).sent.find? (fun q => q.psn == 0) ≠ none ∧
    (∀ q ∈ ((sender true).conn k).sent, q.psn ≠ 5) ∧ Cells.wf (sender true).dv.send = true ∧ 2 ^ 13 ≤ connKey 2 0 ∧ k < 2 ^ 13 ∧
    (sender true).rg Rg.dvorar_PAGE_RETRIES ≤ 64 ∧ psnGe 0 0 = true := by decide +kernel

/-- R285, R287: an ACK of a WRITE's packet ends it with its record; the packet of a READ is covered, and the READ waits for its response. -/
theorem test_dv_acks : let a : DvPkt := { blankPkt with op := 0x10, psn := 0 }
    let k := connKey 1 5
    ((((sender false).takeAck k a).dv.ended.map fun e => (e.state, e.cause, e.bytes)) = [(0, 0, 1)]) ∧
    (((sender true).takeAck k a).conn k).ops.map (fun o => (o.uncovered, o.left)) = [([], [(0, 0, 1)])] := by decide +kernel

/-- DvorarTransport: timers of a connection that stalls and of one that waits to send again; ORIGIN 3 and an Ethernet context. -/
theorem test_hyp_timers : let k := recvKey 6 2 1
    let s : State := { dv := { recv := [(k, { stall := some 3 })], send := [(connKey 1 5, { resend := some 7 })] },
                       eth := { conns := [(4, { stall := some 3, resend := some 7 })] } }
    (s.recv k).stall = some 3 ∧ (s.recv k).stallTick = false ∧ (s.conn (connKey 1 5)).resend = some 7 ∧
    (s.econn 4).stall = some 3 ∧ (s.econn 4).roce = false ∧ (s.econn 4).resend = some 7 ∧ (s.recv k).held.find? (fun p => p.psn == 3) = none ∧
    (write1.op = 1 ∧ ({ s with dv := { recv := [(k, { stall := some 0, held := [write1] })] } } : State).pktSpans write1 true ≠ none) := by
  decide +kernel

/-! ## Sieve and the Ethernet transport: more of their forms -/

/-- Sieve: round-robin: ports with and without a frame, the turn at another port whose parse is not cut through; walks that accept and
reject; the limits of passes and of the recirculation queue; each kind of indirection entry. -/
theorem test_hyp_passes :
    let s (l : List Nat) (turn : Nat) : State := { eth1 with sieve := { ingress := l.map fun p => { port := p, bytes := [] }, turn := turn } }
    (s [1] 0).readyFrame 1 ≠ none ∧ (s [1] 0).readyFrame 0 = none ∧ ((List.range 8).all fun q => q == 1 || (s [1] 0).readyFrame q == none) = true ∧
    (s [0, 1] 0).readyFrame 0 ≠ none ∧ (s [0, 1] 0).sieve.turn ≠ 1 ∧ (s [0, 1] 0).sieve.turn < 8 ∧
    (((s [0, 1] 0).writeN (kHub (34 * 2 ^ 20)) 4 0).takeFrame 0).isSome = true ∧ ¬3 ≤ (2 : Nat) ∧ 3 ≤ (3 : Nat) ∧
    (s [] 0).sieve.recirc.length < 256 ∧ (List.replicate 256 ({ port := 1, bytes := [] } : InFrame)).length = 256 ∧
    ((eth1.setRg Rg.sieve_IND (512 * 1 + 5) 3).rg Rg.sieve_IND (512 * 1 + 5)) % 4 = 3 := by decide +kernel

/-- PortsAndScheduler: a frame behind another of its queue, one of Sieve's behind a transport frame only; queues that are full. -/
theorem test_hyp_waiting_frames : let w (src : Nat) : EgWait := { key := 131, bytes := List.replicate 60 0, src := src }
    (∃ x ∈ [w 0], x.key = (w 1).key ∧ (x.src < 2 ∨ 2 ≤ (w 1).src)) ∧ ¬(∃ x ∈ [w 2], x.key = (w 0).key ∧ (x.src < 2 ∨ 2 ≤ (w 0).src)) ∧
    4096 * (eth1.setRg Rg.sched_QLIM 131 0).rg Rg.sched_QLIM 131 < (eth1.egQueue 131).depth + frameLen (w 0).bytes ∧
    eth1.portUp 1 = true ∧ eth1.portOn 0 = false := by decide +kernel

/-- EthernetConnections, requests: of a quiesced function, of a refused operation, early, late; regions that a key names and does not. -/
theorem test_hyp_eth_requests : let p : EPkt := { op := 1, psn := 0, isFirst := true, isLast := true, len := 4, data := [1, 2, 3, 4], rkey := 5 }
    let s (c : EthConn) : State := { eth1 with eth := { conns := [(4, { c with word := ectx false })] } }
    ((s { frozen := true }).econn 4).frozen = true ∧ ((s { refused := some (0, 8) }).econn 4).refused = some (p.opid, 8) ∧
    p.psn ≠ ((s { next := 5 }).econn 4).next ∧ p.psn = ((s {}).econn 4).next ∧ (s {}).reorderUsed 2 + p.data.length ≤ 2 * 2 ^ 20 ∧
    (let r (e : Nat) := (s {}).writeN (kHub ((s {}).rg Rg.eth_RRT_BASE * 2 ^ 17 + 32 * 5)) 32 e
     ((r (2 + 2 ^ 3 + 2 ^ 4 + 2 ^ 5 + 16 * 2 ^ 128)).region 0 5 0 4 true).isSome = true ∧ (r 0).region 0 5 0 4 true = none ∧
     ((r (2 + 2 ^ 3 + 2 ^ 4 + 2 ^ 5 + 16 * 2 ^ 128)).region 0 5 0 17 true) = none) ∧
    ((s { held := [p] }).econn 4).held.find? (fun q => q.psn == 0) = some p := by decide +kernel

/-- EthernetConnections, packets: operations that a PSN names; nothing left of a WRITE; RNR_RETRY used up and 7; RTOs with packets open, with
a READ alone, and at the limit. -/
theorem test_hyp_eth_packets : let o (k : Nat) : EOp := { opid := 1, kind := k, len := 8, off := 0, rkey := 0, left := [(6, 0, 8)], owner := .agent 0 }
    ((o 1).kind != 5 && (o 1).left.any fun x => x.1 == 6) = true ∧ ((o 5).kind == 5 && (o 5).left.any fun x => x.1 == 6) = true ∧
    (o 5).left.find? (fun x => x.1 == 6) = some (6, 0, 8) ∧ (o 1).left ≠ [] ∧
    (({ word := 7 * 2 ^ 149 } : EthConn).fd 149 3 = 7) ∧ (({ word := 2 * 2 ^ 149, rnr := 2 } : EthConn).fd 149 3 < 2 + 1) ∧
    (({ word := ectx false, ops := [o 5] } : EthConn).st = 1) ∧ (({ word := ectx true } : EthConn).roce = true) ∧
    ([o 5].filter (fun o => o.kind == 5)).flatMap (fun o => o.left) = [(6, 0, 8)] ∧ eth1.rg Rg.eth_RETRY_LIMIT_E ≤ 6 + 1 ∧
    (4 : Nat) ≤ 8 ∧ ([] : List Byte) = [] := by decide +kernel

/-- R287, R337: an ACK of the UDP transport covers the packet of a READ, which goes on waiting for its response. -/
theorem test_udp_ack : sees (.udpAck 2) (udpAt { op := 0x10, psn := 6 }) (fun t => ((t.econn 4).sent.length, (t.econn 4).ops.length)) = some (0, 1) := by
  decide +kernel

/-- A descriptor of ring 2, of a kind, is to be started. -/
def begins (kind w : Nat) : State := ring2 { kind := kind, descs := [{ idx := 0, bytes := leBytes 64 w }] }

/-- R366: a COPY of 8 bytes of hub SRAM is made in two parts: the first leaves it under way, the second ends it. -/
theorem test_copy : let w := 0x20 + at_ 8 3 + at_ 9 3 + at_ 16 64 + at_ 24 128 + at_ 32 8
    let s := (begins 3 w).writeN (kHub 64) 8 0x1122334455667788
    sees (.copy 0 2 5 []) s (fun t => (t.readN (kHub 128) 5, (t.ring 0 2).map (fun g => g.descs.map (fun d => (d.done, d.fin.isSome))))) =
      some (0x4455667788, some [(5, false)]) ∧
    sees (.copy 0 2 8 []) s (fun t => (t.readN (kHub 128) 8, (t.ring 0 2).map (fun g => g.descs.map (fun d => d.fin.isSome)))) =
      some (0x1122334455667788, some [true]) := by decide +kernel

/-- RingsAndDescriptors: transfers over a programmed connection that is open to the function, and over none; OPs of no kind and of another
command; the completion of a descriptor behind another. -/
theorem test_hyp_transfers : let w := 0x10 + at_ 9 1 + at_ 10 5 + at_ 24 64
    let s : State := { begins 2 w with dv := { send := [(connKey 2 5, { isOpen := true, func := 0 })] } }
    zeroBytes (leBytes 64 w) [(8, 1), (9, 1), (10, 2), (16, 8), (24, 4), (32, 8)] = true ∧ fieldAt (leBytes 64 w) 9 1 = 1 ∧
    (s.conn (connKey 2 5)).isOpen = true ∧ (s.conn (connKey 2 5)).failed = false ∧ (s.conn (connKey 2 5)).func = 0 ∧
    (s.conn (connKey 2 6)).isOpen = false ∧ 0x13 ∉ [0x10, 0x11, 0x12] ∧ ((s.ring 0 2).any fun g => g.nextDesc.isSome) = true ∧
    ({ s with dv := { ended := [⟨.desc 0 2 0, 0, 0, 0, 64⟩] } } : State).dv.ended.find? (fun e => e.owner == .desc 0 2 0) =
      some ⟨.desc 0 2 0, 0, 0, 0, 64⟩ := by decide +kernel

/-! ## Plots and Stash: more of their forms -/

/-- ManagedObjects: a grant to a READY plot whose rings are a network ring, or a ring of a higher kind; a region that no Ethernet connection uses. -/
theorem test_hyp_grants : let s (kind : Nat) : State := let t := plot5 1
      { t with host := { t.host with rings := [(fnKey 5 0, { kind := kind })] } }
    (s 1).plotState 5 = 1 ∧ (s 2).plotState 5 ≠ 3 ∧ ((List.range 32).all fun r => ((s 1).ring 5 r).all fun g => decide (g.kind < 2)) = true ∧
    ((s 2).ring 5 0).any (fun g => decide (2 ≤ g.kind)) = true ∧
    ({ up with eth := { conns := [(7, {})] } } : State).eth.conns.all (fun e => e.2.msg == 0 && e.2.held == []) = true := by decide +kernel

/-- Entries of 40 bytes each. -/
theorem length_entries (l : List Nat) (f : Nat → Option (List Byte)) (h : ∀ i b, f i = some b → b.length = 40) :
    (l.filterMap f).flatten.length ≤ 40 * l.length := by
  induction l with
  | nil => simp
  | cons a l ih =>
    cases e : f a with
    | none => simp only [List.filterMap_cons, e, List.length_cons]; omega
    | some b => simp only [List.filterMap_cons, e, List.length_cons, List.flatten_cons, List.length_append, h a b e]; omega

/-- The image of plot 5 has room in the data area. -/
theorem image_length : ((plot5 4).plotImage 5).length ≤ 0x3C0000 := by
  have h := length_entries (List.range 4096) (fun i =>
      let w := (plot5 4).readN ((plot5 4).regionAt i) 32
      if bitN w 5 ∧ bits w 192 7 = 5 then
        some (leBytes 8 i ++ leBytes 32 (if bits w 0 2 = 1 then setBits w 64 40 (grantOffset ((plot5 4).grantsOf 5) 0 (bits w 64 40)) else w))
      else none) (by
        intro i b hb
        simp only at hb
        split at hb
        · cases hb; simp [length_leBytes]
        · cases hb)
  rw [List.length_range] at h
  have hb : ((plot5 4).imageSections 5).flatten.length ≤ 0x30000 := by
    simp only [State.imageSections, imageSection, List.length_append, length_leBytes, List.flatten_cons, List.flatten_nil, List.length_nil]
    generalize (List.filterMap _ _).flatten = regs at h ⊢
    rw [show entriesOf (plot5 4).host.rings _ _ = [] from rfl, show entriesOf (plot5 4).host.eqs _ _ = [] from rfl,
      show entriesOf (plot5 4).host.grants _ _ = [] from rfl, show (plot5 4).eth.conns = [] from rfl, show (plot5 4).gate.streams = [] from rfl,
      show (plot5 4).host.channels = [] from rfl, show (plot5 4).dv.send = [] from rfl, show (plot5 4).host.deliveries = [] from rfl]
    simp only [List.filter_nil, List.map_nil, List.flatten_nil, List.length_nil, List.length_flatMap, List.length_append, length_leBytes,
      List.map_const', List.sum_replicate, List.length_range, smul_eq_mul]
    omega
  have hs (m : List Byte) : (sha3_256 m).length ≤ 32 := by simp [sha3_256, sha3]
  simp only [State.plotImage, List.length_append, length_leBytes]
  exact Nat.le_trans (Nat.add_le_add_left (hs _) _) (by omega)

/-- An image has its header. -/
theorem image_header (s : State) (p : Nat) : 1 < (s.plotImage p).length := by
  simp only [State.plotImage, List.length_append, length_leBytes]
  omega

/-- PlotLifecycle: saving to host memory or the data area; an image that does not fit; an FLR that meets a quiesce; VFs in and out of
fuse-hold, and the headers there. -/
theorem test_hyp_plot_ends :
    fits (0x12 + at_ 8 5 + at_ 24 0x3C0000) 0x12 [(8, 1), (9, 1), (16, 8), (24, 8)] = true ∧ 0 + 0x3C0000 ≤ 0x3C0000 ∧
    ¬(∀ i, i < 8 → (if i < 8 then fieldAt (req (0x13 + at_ 32 1)) (32 + 8 * i) 8 else 0) % 2 ^ 21 = 0) ∧
    (∀ i, i < 8 → (if i < 8 then fieldAt (req 0x13) (32 + 8 * i) 8 else 0) % 2 ^ 21 = 0) ∧
    (plot5 2).plotState 5 = 2 ∧ (plot5 2).hostUp = true ∧
    (let s : State := { up with host := { linkUp := true, numVfs := 3 } }
     s.rg Rg.system_FUSE_HOLD = 0 ∧ s.host.numVfs ≤ 127 ∧ 2 < s.host.numVfs ∧
     sees (.vfEnable 127) s (fun t => t.host.numVfs) = some 127 ∧
     sees (.vfEnable 4) (s.setRg Rg.system_FUSE_HOLD 0 1) (fun t => t.host.numVfs) = some 3 ∧
     (s.pciHeader true).device = 0x5291 ∧ (s.pciHeader false).classCode = 0x120000 ∧
     ((s.setRg Rg.system_FUSE_HOLD 0 1).pciHeader false).classCode = 0xFF0000 ∧ (s.setRg Rg.system_FUSE_HOLD 0 1).srIov.totalVfs = 0) := by
  decide +kernel

/-- R385: the FLR of a plot that quiesces takes the quiesce over. -/
theorem test_flr_quiescing : sees (.flrPlot 5) { plot5 2 with host := { (plot5 2).host with quiesce := [(5, { slot := some 3 })] } }
    (fun t => (t.plotState 5, (t.host.quiesce.get? 5).map (fun z => (z.flr, z.slot)))) = some (2, some (true, none)) := by decide +kernel

/-- StashDescriptors: the turn of rings 1 and 3, each of which has a descriptor; a descriptor of an OP that is none of Stash's. -/
theorem test_hyp_stash_turn : let d : Desc := { idx := 0, bytes := leBytes 64 read99 }
    let s (turn : Nat) : State := { stash3 with stash := { stash3.stash with ringTurn := turn },
                                                host := { stash3.host with rings := [(1, { kind := 4, descs := [d] }), (3, { kind := 4, descs := [d] })] } }
    (s 0).stashTurn 0 1 = true ∧ (s 0).stashTurn 0 3 = false ∧ (s 2).stashTurn 0 3 = true ∧ (s 4).stashTurn 0 1 = true ∧
    sees (.stashRead 0 1) (s 0) (fun t => t.stash.ringTurn) = some 2 ∧ fieldAt (leBytes 64 0x34) 0 1 ∉ [0x30, 0x31, 0x32, 0x33] ∧
    fieldAt (leBytes 64 0x31) 0 1 ≠ 0x30 + 0 ∧ (stashDesc 0x34).stashTurn 0 1 = true ∧
    sees (.stashRead 0 1) (stashDesc 0x34) (fun t => (t.ring 0 1).map (fun g => g.descs.map (fun d => d.fin.isSome))) = some (some [true]) := by decide +kernel

/-- StashDrives: a piece of C1 or of C2 in its turn, and none; the drive full of urgent pieces; a WRITE whose data is there; a READ whose
destination waits; MODE SERVICE with no FORCE 0 piece at a drive, and with one. -/
theorem test_hyp_stash_pick : let s (cls : Nat) : State := let c : StashCmd :=
        { id := 0, owner := .agent 0, kind := 0, fn := 0, aspace := 0, addr := 0, volume := 7, lens := [4096] }
      { stash3 with stash := { stash3.stash with cmds := [c], waiting := [(0, { piece3 with cls := cls, kind := 1 })] } }
    (((s 2).setRg Rg.stash_W_C 1 1).drr 3 4096 [] 0).isSome = true ∧ (s 2).oldest 3 0 = none ∧ ((s 0).oldest 3 0).isSome = true ∧
    ¬(((s 0).setRg Rg.stash_URG_MAX 0 0).stash.atDrive.countP (fun y => y.2.drive == 3 && y.2.cls == 0) < ((s 0).setRg Rg.stash_URG_MAX 0 0).rg Rg.stash_URG_MAX) ∧
    (s 0).localRead 0 0 0 4 [1, 2, 3, 4] = some [1, 2, 3, 4] ∧
    ({ stash3 with fm := { stash3.fm with replays := [{ tile := 1, kind := 2, spare := some 2 }] } } : State).writeWaits 0 2 (2 ^ 24) 4096 = true ∧
    ((piece3At 1 false true).stash.atDrive.any fun y => y.2.writes && !y.2.force && !y.2.service) = true ∧
    ((piece3At 0 false true).stash.atDrive.all fun y => !y.2.writes || y.2.force || y.2.service) = true := by decide +kernel

/-! ## The cipher block and the management controller: more of their forms -/

/-- StashManagement: an ATOM 1 attach of each reason; a unit of two sectors, with which FIRST agrees or does not; a rescan while the one
piece's drive has failed. -/
theorem test_hyp_stash_units :
    let x : NsInfo := { metadata := false, size := 4096, blocks := 1000, unit := 4, boundary := 0 }
    let s := (stash3.setRg Rg.stash_ATOM 2 1).setRg Rg.stash_AUNIT_LOG2 2 13
    stash3.attachReason 3 1 12 1 (some x) = 0 ∧ stash3.attachReason 3 1 15 1 (some x) = 4 ∧
    stash3.attachReason 3 1 14 1 (some { x with boundary := 3 }) = 5 ∧ stash3.attachReason 3 1 18 1 (some { x with unit := 64 }) = 6 ∧
    s.aunit 2 = some 8192 ∧ 6 % (8192 / s.sector 2) = 0 ∧ 7 % (8192 / s.sector 2) ≠ 0 ∧
    ((piece3At 0 false true).setRg Rg.stash_DSTATE 3 3).stash.atDrive.all (fun y =>
      ((piece3At 0 false true).setRg Rg.stash_DSTATE 3 3).rg Rg.stash_DSTATE y.2.drive == 3) = true := by decide +kernel

/-- CipherCommands: the next ring ahead of the last served, and the wrap past the last; a command of the register mode that has ended, with a
release that waits; a command of a core that has failed. -/
theorem test_hyp_cipher_ends : let d : Desc := { idx := 0, bytes := leBytes 64 0x40 }
    let s (rr : Nat) : State := { up with host := { rings := [(1, { kind := 5, descs := [d] }), (3, { kind := 5, descs := [d] })] }, cipher := { rr := rr } }
    (s 0).cipherRings = [1, 3] ∧ ((s 0).cipherRings.filter (fun k => decide ((s 0).cipher.rr < k))).head? = some 1 ∧
    ((s 1).cipherRings.filter (fun k => decide ((s 1).cipher.rr < k))).head? = some 3 ∧
    ((s 3).cipherRings.all fun k => decide (k ≤ (s 3).cipher.rr)) = true ∧ (s 3).cipherRings.head? = some 1 ∧
    sees .cipherAssign ((s 1).setRg Rg.cipher_CORE_WORKING 0 6) (fun t => (t.cipher.rr, t.cipher.jobs.map (fun e => e.1))) = some (3, [1]) ∧
    (let j : CipherJob := { cipherJob 0x43 0 32 with desc := none, result := some (0, 0, 32, true) }
     let u : State := (up.setRg Rg.cipher_OWNER 0 3).setRg Rg.cipher_BUSY 0 1
     let v (e : Nat) : State := { u with cipher := { u.cipher with jobs := [(2, { j with result := some (if e = 0 then 0 else 2, e, 32, true) })], releasing := true } }
     (cipherArgs j.image).verifies = true ∧
     sees (.cipherComplete 2 false) (v 0) (fun t => (t.rg Rg.cipher_OWNER, t.rg Rg.cipher_BUSY, t.rg Rg.cipher_COMMANDS)) = some (0, 0, 1) ∧
     sees (.cipherComplete 2 true) ((v 29).setRg Rg.cipher_CORE_WORKING 0 6) (fun t => t.rg Rg.cipher_CORE_WORKING) = some 2) := by decide +kernel

/-- R534, R535: the forms of MCTP control, the PDRs, the sensors and the events that are not those above. -/
theorem test_mctp_forms :
    sees (.mctpControl 1 0 []) (spdmAt 0) (fun t => t.out) = some [.i3c 0 [1, 0, 5]] ∧
    sees (.mctpControl 1 1 [0]) (spdmAt 0) (fun t => t.out) = some [.i3c 0 [1, 1, 3]] ∧
    sees (.mctpControl 1 1 [0, 7]) (spdmAt 0) (fun t => t.out) = some [.i3c 0 [1, 1, 2]] ∧
    sees (.mctpControl 1 1 [2, 8]) (spdmAt 0) (fun t => t.out) = some [.i3c 0 [1, 1, 2]] ∧
    sees (.mctpControl 1 4 [0x7E]) (spdmAt 0) (fun t => t.out) = some [.i3c 0 [1, 4, 0, 1, 0xF1, 0xF3, 0xF1, 0]] ∧
    sees (.mctpControl 1 4 [2]) (spdmAt 0) (fun t => t.out) = some [.i3c 0 [1, 4, 0x80]] ∧
    sees (.mctpControl 1 6 [0]) (spdmAt 0) (fun t => t.out) = some [.i3c 0 [1, 6, 0, 0xFF, 0, 0x1F, 0x7E, 0, 0]] ∧
    sees (.mctpControl 1 6 [1]) (spdmAt 0) (fun t => t.out) = some [.i3c 0 [1, 6, 2]] := by decide +kernel

/-- ManagementController: sensors 0, 9, 10, 12, 13 and 14; an event to read, and more than 40. -/
theorem test_pldm_forms :
    ([0, 9, 10, 12, 13, 14].map fun id => (sees (.getSensorReading 1 id) (spdmAt 0) (fun t => t.out.map (fun o => match o with
      | .i3c _ bs => (bs.drop 3).headD 1
      | _ => 1))).getD [9]) = [[0x80], [0], [0], [0], [0], [0x80]] ∧
    (let s : State := { spdmAt 0 with host := { evCount := 50 } }
     min 40 (s.host.evCount - max 3 (s.host.evCount - 4096)) = 40 ∧ 49 + 1 = s.host.evCount ∧ s.host.evCount ≤ 50) := by decide +kernel

/-! ## Faults, Mulch, the Cloche, booting and resets: more of their forms -/

/-- FaultReports: a router with and without a tile; a resend and a correction of a pseudo-channel at their limits; a spare that is free and none. -/
theorem test_hyp_routers : let s := { running1 {} with fm := { (running1 {}).fm with spares := [3] } }
    let u := { s.setRg Rg.identity_TILE_WORKING 0 10 with tiles := [(1, {}), (3, {})] }
    u.fm.routers.contains 5 = false ∧ routersApart (1 :: u.fm.routers) = true ∧ routersApart (6 :: [5]) = false ∧
    u.tileWorking 1 = true ∧ u.physOf 1 = 1 ∧ u.dom.ticking = true ∧ ((u.chooseSpare 1).2 = some 3) ∧ ((running1 {}).chooseSpare 1).2 = none ∧
    (List.range 256).all (fun t => !u.tileWorking t || u.physOf t != 5) = true ∧
    (within [] 5 9 256).2 = false ∧ (within [(5, List.replicate 255 9)] 5 9 256).2 = true ∧
    (within [(5, List.replicate 63 9)] 5 9 64).2 = true ∧ (within [(5, List.replicate 63 9)] 5 4200 64).2 = false := by decide +kernel

/-- R26, R455: a router without a tile retires alone; one with a tile takes it out of service where no spare is free. -/
theorem test_router :
    sees (.faultReport (.router 0 5 0)) (running1 {}) (fun t => t.fm.routers.contains 5) = some true ∧
    sees (.faultReport (.router 0 1 0)) (running1 {}) (fun t => t.fm.retiring.isEmpty) = some false :=
  ⟨by decide +kernel, by decide +kernel⟩

/-- R464: a Greenhouse move takes the tiles in ascending order and begins again; a link that has retired returns when it passes. -/
theorem test_greenhouse_turn :
    let s := ({ running1 {} with fm := { spares := [3], nextMove := 2 } } : State).setRg Rg.fault_GH_EN 0 1
    let u := { s.setRg Rg.identity_TILE_WORKING 0 10 with tiles := [(1, {}), (3, {})] }
    sees .greenhouseRotate u (fun t => t.fm.test) = some (some (0, 1, 0)) ∧
    sees (.greenhouseResult 1 2 0 true) (s.setRg Rg.dvport_STATE 2 6) (fun t => t.rg Rg.dvport_STATE 2) = some 0 ∧
    sees (.greenhouseResult 1 2 0 true) (s.setRg Rg.dvport_STATE 2 3) (fun t => t.rg Rg.dvport_STATE 2) = some 3 ∧
    sees (.seedlingRun 1 false) (seeded1 8192) (fun t => ((t.tile 1).stopped, t.rg Rg.fault_FCNT 3)) = some (true, 1) := by decide +kernel

/-- DigestsAndMirrors: a sweep that ends in the master with every bed agreed, with one that differs, with none left. -/
theorem test_sweep_end : let s (bs : Cells (List Byte)) (fail : List Nat) : State :=
      { inRound true with fm := { (inRound true).fm with sweepBeds := [0], sweepFail := fail, beds := bs } }
    (s [(0, [1])] []).isMaster = true ∧ (∃ e ∈ (s [(0, [1])] []).fm.beds, e.1 ∈ [0]) ∧ (s [(0, [1])] []).rg Rg.place_BED_ID ∈ [0] ∧
    ((s [] [0]).fm.sweepFail.contains ((s [] [0]).repBeds.getD 0 0)) = true ∧
    sees (.sweepEnd (.failed [])) (s [(0, [1])] []) (fun t => t.out.length) = some 1 ∧
    sees (.sweepEnd (.failed [])) (s [] [0]) (fun t => t.fm.sweepBeds) = some [] ∧
    sees (.sweepEnd (.paused 3)) (s [] []) (fun t => t.fm.sweepBeds) = some [0] := by decide +kernel

/-- CheckpointStart: pages gathered before and after the assignment; a failure at a member whose image is held. -/
theorem test_checkpoint_more :
    sees (.dedupAssign (.gathered [])) (mulch8 { run := true }) (fun t => t.mulch.assigned) = some true ∧
    sees (.dedupAssign (.gathered [])) (mulch8 { run := true, assigned := true, refs := [(3, 0, 1, 2)] }) (fun t => t.mulch.refs) =
      some [(3, 0, 1, 2)] ∧
    sees (.checkpointFail 2 0) ((peer 1 {}).setRg Rg.mulch_STATE 0 3) (fun t => (t.rg Rg.mulch_STATE, t.rg Rg.mulch_FAIL_CAUSE)) = some (0, 2) ∧
    sees (.checkpointDurable .image) ((peer 1 {}).setRg Rg.mulch_STATE 0 3) (fun t => t.rg Rg.mulch_STATE) = some 0 := by decide +kernel

/-- CheckpointImages: a cutting whose write waits with no slot of the buffer, copied or not, and with one; a restore whose page would be
written over a cutting that is pending. -/
theorem test_hyp_copies :
    (cutting5 [] [5] []).buffer.find? (fun b => b.2 == 5) = none ∧ (cutting5 [] [5] []).copied.contains 5 = false ∧
    (cutting5 [5] [5] [(0, 5)]).buffer.find? (fun b => b.2 == 5) = some (0, 5) ∧ (cutting5 [5] [5] [(0, 5)]).copied.contains 5 = true ∧
    sees (.cowCopyDone 5 100) (peer 1 (cutting5 [] [5] [])) (fun t => (t.mulch.holding, t.rg Rg.mulch_MCNT 4)) = some ([], 1) ∧
    mapPage [] 0 3 = some 0 ∧ (peer 1 (cutting5 [] [] [])).cowHeld (0 * 2 ^ 21) (2 ^ 21) = true ∧ up.cowHeld 0 (2 ^ 21) = false := by
  decide +kernel

/-- R492: a restore whose image does not verify ends with cause 32, or its own, and leaves RECOVERY. -/
theorem test_restore_end : let s := restoring.setRg Rg.mulch_STATE 0 5
    sees (.restoreEnd 0 [] []) s (fun t => (t.mulch.restore.isSome, t.rg Rg.mulch_STATE, t.host.mrBusy)) = some (false, 0, false) ∧
    sees (.restoreEnd 0 [] []) { s with mulch := { s.mulch with run := true } } (fun t => t.rg Rg.mulch_STATE) = some 2 := by decide +kernel

/-- R505: an interval closes at its due time, and the next is due at the next multiple of the length. -/
theorem test_interval : let l := intervalNs 5
    sees .intervalClose (withCloche { ctime := l + 7, due := l }) (fun t => (t.cloche.tStart, t.cloche.due, t.cloche.ino)) = some (l, 2 * l, 1) ∧
    sees .intervalClose (withCloche { ctime := 3 * l, due := l }) (fun t => (t.cloche.tStart, t.cloche.due)) = some (l, 2 * l) ∧
    sees .intervalClose (withCloche { ctime := l - 1, due := l }) (fun t => t.cloche.ino) = some 0 := by decide +kernel

/-- ClocheRecords: records behind those remembered; a Cloche that restarts, with and without the programmer; a word of another length. -/
theorem test_cloche_restart : let c : Cloche := { running := false, inReset := true, word := 11, sealedPart := false }
    0 + 262144 ≤ ([262144] : List Nat).foldl max 0 ∧ ¬(1 + 262144 ≤ ([262144] : List Nat).foldl max 0) ∧
    (withCloche c).cloche.running = false ∧ (withCloche { c with prog := true }).cloche.sealedPart = false ∧
    wordCode 11 = c.code ∧ (c.setLength 7).code = 7 := by decide +kernel

/-- R521, R577: a release of the always-on reset waits in SAFE and with MRST# low; SAFE lasts while MRST# is low and ends in the boot. -/
theorem test_release : let s : State := { State.reset with power := { state := 3, boot := true } }
    sees (.hubAoResetRelease [] 40 [0, 1, 2, 3]) s (fun t => t.fw.start.map (fun b => (b.temp, b.bad))) = some (some (40, [0, 1, 2, 3])) ∧
    sees (.hubAoResetRelease [] 40 [0, 1, 2, 3]) { s with power := { state := 3, boot := false } } (fun t => t.power.boot) = some true ∧
    sees (.hubAoResetRelease [] 40 [0, 1, 2, 3]) { s with power := { state := 0, mrst := true } } (fun t => t.fw.start.isSome) = some true ∧
    sees (.hubAoResetRelease [] 40 []) { s with core0Run := true, power := { state := 0 } } (fun t => t.fw.start.isSome) = some false ∧
    sees (.flowSample true true) { s with power := { state := 3, boot := true, good := 49, mrst := true } } (fun t => t.power.state) = some 3 ∧
    sees (.flowSample true true) { s with power := { state := 3, boot := true, good := 49 } } (fun t => t.power.state) = some 0 ∧
    sees (.flowSample true true) { s with power := { state := 3, boot := true, good := 48 } } (fun t => t.power.state) = some 3 := by decide +kernel

/-- Resets: MRST# rises in SAFE, waiting or not, and outside it; a start that has waited is made. -/
theorem test_mrst : let s (st : Nat) (boot : Bool) : State :=
      { booted with core0Run := false, power := { state := st, boot := boot, mrst := true }, fw := { booted.fw with start := some { bad := [0, 1, 2, 3] } } }
    (s 3 true).power.mrst = true ∧ sees (.mrst false [7]) (s 3 true) (fun t => t.fw.start.map (fun b => b.bad)) = some (some [0, 1, 2, 3]) ∧
    sees (.mrst false [7]) (s 3 false) (fun t => (t.fw.start.map (fun b => b.bad), t.power.boot)) = some (some [7], true) ∧
    (s 0 false).power.state ≠ 3 ∧ (s 0 false).fw.start.isSome = true ∧ (({} : BootStart).fuses = none) := by decide +kernel

/-- R530, R532: a compartment that is restarted while a request is at the front of the ring answers it with STATUS 8; TIME_SET to a
later time, or to the present one, slews or ends a slew. -/
theorem test_service_more :
    sees (.compartmentRestart 1 3 true) serving (fun t => t.fw.cores) = some [(1, 10)] ∧
    serving.mrFront = none ∧ (asks serving 2).mrFront.isSome = true ∧
    sees (.compartmentRestart 1 3 true) (asks serving 2) (fun t => t.rg Rg.host_MR_CI) = some 1 ∧
    (let s := (serving.setRg Rg.system_TIME_SET_DONE 0 1).setRg Rg.system_MTIME 0 7
     fieldAt (req (0x54 + at_ 8 7)) 8 8 = s.rg Rg.system_MTIME ∧
     sees .timeSet (asks s (0x54 + at_ 8 9)) (fun t => (t.fw.target, t.rg Rg.system_SLEW)) = some (some 9, 1)) := by decide +kernel

end Sys2Proof.Tests
end

section

/-!
## Every command completes, and every step keeps the invariant

Both statements are read off one relation between the state a command starts in and a state it reaches. `Keeps s₀ t`
says that `t` has the queue of `s₀`, and has its memory and registers in canonical form where `s₀` has. Each function on
states has one rule: from a state that keeps, it makes one that keeps. A command's lemma, in `Completes`, says that it
answers a next state, built by such functions. A proof names them in the order in which the command calls them; `ite`
stands for a choice and `foldl` for a loop, and `s1`, `s2`, … are the states that the definition names by `let`.

The kernel compares a function with its unfolded text by evaluating what a match looks at. Where that is costly (an
address map, an order of packet numbers), a proof replaces the name by its text at once, or hides the costly function
behind a variable.

The rules stand in the order of the model's definitions.
-/

namespace Sys2Proof.Machine

/-- A state that a command may reach from `s₀`: the queue is the one that `s₀` has, and memory and registers are in
canonical form where those of `s₀` are. -/
structure Keeps (s₀ t : State) : Prop where
  queue : t.pending = s₀.pending
  inv : s₀.Inv → t.Inv

/-- A command run from `s₀` answers a next state, and one that keeps what `Keeps` asks. -/
def Completes (s₀ : State) (r : Res) : Prop := ∃ t, r = .next t ∧ Keeps s₀ t

section
variable {s₀ s t : State} {α β : Type}

/-! ### Reasoning rules -/

theorem Keeps.refl : Keeps s s := ⟨rfl, id⟩

/-- Fields other than the queue, the memory and the registers may change. -/
theorem Keeps.update {free out latches cores mainReset run0 tiles trellis streams dom hbm dv host gate fm mulch power
    cloche records fw sieve eth stash cipher detections} (h : Keeps s₀ s) :
    Keeps s₀ {
      pending := s.pending, freeCtr := free, out := out, regs := s.regs, latches := latches, mem := s.mem,
      cores := cores, hubMainReset := mainReset, core0Run := run0, tiles := tiles, trellis := trellis,
      streams := streams, dom := dom, hbm := hbm, dv := dv, host := host, gate := gate, fm := fm, mulch := mulch,
      power := power, cloche := cloche, records := records, fw := fw, sieve := sieve, eth := eth, stash := stash,
      cipher := cipher, detections := detections } :=
  ⟨h.queue, h.inv⟩

/-- The registers may change to ones in canonical form. -/
theorem Keeps.regs {r} (h : Keeps s₀ s) (hr : Cells.wf s.regs = true → Cells.wf r = true) : Keeps s₀ { s with regs :=
  r } :=
  ⟨h.queue, fun hi => ⟨(h.inv hi).1, hr (h.inv hi).2⟩⟩

/-- The memory may change to one in canonical form. -/
theorem Keeps.mem {m} (h : Keeps s₀ s) (hm : s.mem.wf = true → m.wf = true) : Keeps s₀ { s with mem := m } :=
  ⟨h.queue, fun hi => ⟨hm (h.inv hi).1, (h.inv hi).2⟩⟩

theorem Keeps.ite {c : Prop} [Decidable c] {x y : State} (hx : Keeps s₀ x) (hy : Keeps s₀ y) :
    Keeps s₀ (if c then x else y) := by
  split
  · exact hx
  · exact hy

theorem Keeps.ite_fst {c : Prop} [Decidable c] {x y : State × α} (hx : Keeps s₀ x.1) (hy : Keeps s₀ y.1) :
    Keeps s₀ (if c then x else y).1 := by
  split
  · exact hx
  · exact hy

theorem Keeps.ite_effect {c : Prop} [Decidable c] {x y : Nat × State × List Byte} (hx : Keeps s₀ x.2.1)
    (hy : Keeps s₀ y.2.1) : Keeps s₀ (if c then x else y).2.1 := by
  split
  · exact hx
  · exact hy

theorem Keeps.pair {x : α} (h : Keeps s₀ s) : Keeps s₀ (s, x).1 := h

/-- A fold over a list that keeps at every element. -/
theorem Keeps.foldl {f : State → α → State} {l : List α} (h : Keeps s₀ s)
    (hf : ∀ s x, Keeps s₀ s → Keeps s₀ (f s x)) : Keeps s₀ (l.foldl f s) := by
  induction l generalizing s with
  | nil => exact h
  | cons x l ih => exact ih (hf s x h)

/-- A fold that carries a state beside other data. -/
theorem Keeps.foldl_fst {f : State × β → α → State × β} {l : List α} {p : State × β} (h : Keeps s₀ p.1)
    (hf : ∀ p x, Keeps s₀ p.1 → Keeps s₀ (f p x).1) : Keeps s₀ (l.foldl f p).1 := by
  induction l generalizing p with
  | nil => exact h
  | cons x l ih => exact ih (hf p x h)

/-- The state of a pair that is given by its parts. -/
theorem Keeps.of_eq {p : State × α} {x : α} (h : Keeps s₀ p.1) (e : p = (s, x)) : Keeps s₀ s := by rwa [e] at h

theorem Completes.next (h : Keeps s₀ s) : Completes s₀ (.next s) := ⟨s, rfl, h⟩

theorem Completes.ite {c : Prop} [Decidable c] {x y : Res} (hx : Completes s₀ x) (hy : Completes s₀ y) :
    Completes s₀ (if c then x else y) := by
  split
  · exact hx
  · exact hy

/-! ### Answers that carry a state

Some operations answer a state inside a result of their own: a request that is applied or not, an access that is done or
  waits.
For these the rules say that a state inside the result keeps. -/

/-- A request that is applied keeps; one that is not leaves nothing behind. -/
def Applied.Keeps (s₀ : State) : Applied → Prop
  | .ok t => Machine.Keeps s₀ t
  | _ => True

theorem Applied.Keeps.ok {r : Applied} (h : r.Keeps s₀) (e : r = .ok t) : Machine.Keeps s₀ t := by
  subst e
  exact h

/-- An access that is done keeps. -/
def ExtRes.Keeps (s₀ : State) : ExtRes → Prop
  | .ok t _ => Machine.Keeps s₀ t
  | _ => True

theorem ExtRes.Keeps.ok {r : ExtRes} {v : Nat} (h : r.Keeps s₀) (e : r = .ok t v) : Machine.Keeps s₀ t := by
  subst e
  exact h

/-- An access to several lanes that is done keeps. -/
def LanesRes.Keeps (s₀ : State) : LanesRes → Prop
  | .ok t _ => Machine.Keeps s₀ t
  | _ => True

theorem LanesRes.Keeps.ok {r : LanesRes} {bs : List Byte} (h : r.Keeps s₀) (e : r = .ok t bs) : Machine.Keeps s₀ t := by
  subst e
  exact h

theorem Keeps.of_inl {r : State ⊕ State × α} (h : Keeps s₀ (r.elim id Prod.fst)) (e : r = .inl t) : Keeps s₀ t := by
  subst e
  exact h

theorem Keeps.of_inr {r : State ⊕ State × α} {x : α} (h : Keeps s₀ (r.elim id Prod.fst)) (e : r = .inr (t, x)) :
    Keeps s₀ t := by
  subst e
  exact h

/-! ### Register fields, memory, outputs -/

theorem Keeps.drawn (h : Keeps s₀ s) : Keeps s₀ s.drawn := h.update

theorem Keeps.emit {o} (h : Keeps s₀ s) : Keeps s₀ (s.emit o) := h.update

theorem Keeps.detect {d} (h : Keeps s₀ s) : Keeps s₀ (s.detect d) := h.update

theorem Keeps.setCopy {f i c v} (h : Keeps s₀ s) : Keeps s₀ (s.setCopy f i c v) := h.regs (Cells.wf_set _ _ _ _)

theorem Keeps.setRg {f i v} (h : Keeps s₀ s) : Keeps s₀ (s.setRg f i v) := .ite h.setCopy.setCopy.setCopy h.setCopy

theorem Keeps.incRg {f i d} (h : Keeps s₀ s) : Keeps s₀ (s.incRg f i d) := h.setRg

theorem Keeps.satRg {f i d} (h : Keeps s₀ s) : Keeps s₀ (s.satRg f i d) := h.setRg

theorem Keeps.sqRaise {st sq i v} (h : Keeps s₀ s) : Keeps s₀ (s.sqRaise st sq i v) := h.setRg.incRg

theorem Keeps.wrapCount {f i d st sq j bit} (h : Keeps s₀ s) : Keeps s₀ (s.wrapCount f i d st sq j bit) :=
  .ite h.incRg h.incRg.sqRaise

theorem Keeps.writeFld {f i v} (h : Keeps s₀ s) : Keeps s₀ (s.writeFld f i v) := .ite h.setRg h

theorem Keeps.writeRw {fs skip unit off v} (h : Keeps s₀ s) : Keeps s₀ (s.writeRw fs skip unit off v) := by
  refine h.foldl (fun _ _ h => .ite ?_ h)
  split
  · exact h
  · exact h.foldl (fun _ _ h => h.writeFld)

theorem Keeps.writeB {k bs} (h : Keeps s₀ s) : Keeps s₀ (s.writeB k bs) := h.mem (Memory.wf_write _ _ _)

theorem Keeps.writeN {k n v} (h : Keeps s₀ s) : Keeps s₀ (s.writeN k n v) := h.writeB

theorem Keeps.loseRange {lo hi} (h : Keeps s₀ s) : Keeps s₀ (s.loseRange lo hi) :=
  (h.mem (Memory.wf_lose _ _ _ _)).update

theorem Keeps.setCore {c k} (h : Keeps s₀ s) : Keeps s₀ (s.setCore c k) := h.update

/-! ### Cores and cow -/

theorem Keeps.predicted {k} (h : Keeps s₀ s) : Keeps s₀ (s.predicted k).1 := .ite_fst h.drawn h

theorem Keeps.discarded {k} (h : Keeps s₀ s) : Keeps s₀ (s.discarded k).1 := .ite_fst h.drawn h

theorem Keeps.stall {k} (h : Keeps s₀ s) : Keeps s₀ (s.stall k).1 := .ite_fst h.drawn h

theorem Keeps.trap {c k n long tval} (h : Keeps s₀ s) : Keeps s₀ (s.trap c k n long tval) :=
  .ite h.discarded.setCore.detect h.discarded.setCore

theorem Keeps.retire {c long x} (h : Keeps s₀ s) : Keeps s₀ (s.retire c long x) := by
  unfold State.retire
  split
  · exact h.setCore
  · exact h.predicted.setCore
  · exact h.trap
  · exact h.setCore

/-- An instruction keeps what its body keeps. -/
theorem Keeps.runWith {c long resume body} (h : Keeps s₀ s) (hb : ∀ k, Keeps s₀ (body s k).1) :
    Keeps s₀ (s.runWith c long resume body) := by
  unfold State.runWith
  refine .ite h ?_
  split
  · exact h.setCore
  · exact .ite h (.ite h.trap (hb _).retire)

theorem Keeps.runCore {c long body} (h : Keeps s₀ s) : Keeps s₀ (s.runCore c long body) := h.runWith (fun _ => h)

/-- A restartable instruction keeps what its elements keep. -/
theorem Keeps.granules {n g elem fuel k i} (h : Keeps s₀ s) (he : ∀ s k i, Keeps s₀ s → Keeps s₀ (elem s k i).1) :
    Keeps s₀ (granules n g elem fuel s k i).1 := by
  induction fuel generalizing s k i with
  | zero =>
    unfold Machine.granules
    split <;> exact h
  | succ fuel ih =>
    unfold Machine.granules
    split
    · have hs := he s k i h
      split
      · rename_i e
        exact ih (hs.of_eq e)
      · rename_i e
        exact hs.of_eq e
    · exact h

theorem Keeps.badOperand {k tval} (h : Keeps s₀ s) : Keeps s₀ (badOperand s k tval).1 := h

theorem Keeps.postMsg {c v} (h : Keeps s₀ s) (e : s.postMsg c v = some t) : Keeps s₀ t := by
  simp only [State.postMsg, Option.ite_none_right_eq_some, Option.some.injEq] at e
  obtain ⟨-, rfl⟩ := e
  exact h.setCore

/-! ### The reference clock -/

theorem Keeps.timeTick (h : Keeps s₀ s) : Keeps s₀ s.timeTick := by
  unfold State.timeTick
  split
  · exact h.incRg
  · exact h.setRg.update.setRg

theorem Keeps.refTick (h : Keeps s₀ s) : Keeps s₀ s.refTick := by
  unfold State.refTick
  extract_lets s1 s2 _ s3
  have h2 : Keeps s₀ s2 := .ite h.timeTick.incRg h.timeTick
  have h3 : Keeps s₀ s3 := .ite h2.update h2
  exact h3.update

/-! ### Memory, cores and caches -/

theorem Keeps.putHub {a b} (h : Keeps s₀ s) : Keeps s₀ (s.putHub a b) := by
  rw [show State.putHub = _ by delta State.putHub; rfl]
  split
  · exact h.mem (Memory.wf_put _ _ _)
  · exact h
  · exact .ite h.setRg (h.mem (Memory.wf_put _ _ _))

theorem Keeps.writeHub {a bs} (h : Keeps s₀ s) : Keeps s₀ (s.writeHub a bs) := by
  induction bs generalizing s a with
  | nil => exact h
  | cons b bs ih => exact ih h.putHub

theorem Keeps.setTile {t k} (h : Keeps s₀ s) : Keeps s₀ (s.setTile t k) :=
  .setRg (.setRg (.setRg (.setRg (.setRg (.setRg (.ite h.update.update h.update))))))

theorem Keeps.perf {t f bit d} (h : Keeps s₀ s) : Keeps s₀ (s.perf t f bit d) := .ite h.wrapCount h

/-- The first byte goes to its place in HBM, where it has one, and the others follow. -/
theorem State.writeHbm_cons (s : State) (a : Nat) (b : Byte) (bs : List Byte) :
    s.writeHbm a (b :: bs) =
      State.writeHbm ((s.hbmKey a).elim s fun k => { s with mem := s.mem.put k b }) (a + 1) bs := by
  rw [show State.writeHbm = _ by delta State.writeHbm State.writeHbm._f; rfl]
  obtain ⟨key, hkey⟩ : ∃ key, State.hbmKey = key := ⟨_, rfl⟩
  rw [hkey]
  show (match key s a with | some k => _ | none => _) = _
  cases key s a <;> rfl

theorem Keeps.writeHbm {a bs} (h : Keeps s₀ s) : Keeps s₀ (s.writeHbm a bs) := by
  induction bs generalizing s a with
  | nil => exact h
  | cons b bs ih =>
    rw [State.writeHbm_cons]
    refine ih ?_
    cases s.hbmKey a with
    | none => exact h
    | some k => exact h.mem (Memory.wf_put _ _ _)

theorem Keeps.uncache {t a n} (h : Keeps s₀ s) : Keeps s₀ (s.uncache t a n) := .ite h h.setTile

theorem Keeps.postCore {core tick l} (h : Keeps s₀ s) : Keeps s₀ (s.postCore core tick l).1 := by
  induction l generalizing s with
  | nil => exact h
  | cons e l ih =>
    unfold State.postCore
    split
    · exact h
    · exact ih (.ite h.writeB (.writeHbm (.ite h.uncache h)))

theorem Keeps.postHeld {tick} (h : Keeps s₀ s) : Keeps s₀ (s.postHeld tick) :=
  h.foldl (fun _ _ h => .ite h h.postCore.update)

theorem Keeps.touch {t l logged} (h : Keeps s₀ s) : Keeps s₀ (s.touch t l logged) := by
  refine .ite (.ite h ?_) (.ite h ?_)
  · split
    · exact h
    · exact h.loseRange.setTile
  · split
    · exact h
    · exact h.setTile

theorem Keeps.cacheCount {t f bit} (h : Keeps s₀ s) : Keeps s₀ (s.cacheCount t f bit) := h.wrapCount

theorem Keeps.missFill {t a} (h : Keeps s₀ s) : Keeps s₀ (s.missFill t a) := by
  rw [show State.missFill = _ by delta State.missFill; rfl]
  dsimp only
  split
  · exact h
  · exact h.setTile.cacheCount

theorem Keeps.cacheRead {t a} (h : Keeps s₀ s) : Keeps s₀ (s.cacheRead t a).1 := by
  unfold State.cacheRead
  dsimp only
  split
  · exact h.setTile.cacheCount
  · exact h.missFill

/-! ### HBM and its errors -/

theorem Keeps.cacheWrite {t off v} (h : Keeps s₀ s) : Keeps s₀ (s.cacheWrite t off v) := h.writeRw.setTile

theorem Completes.cacheCtrlWrite {t r v} (h : Keeps s₀ s) : Completes s₀ (execCacheCtrlWrite t r v s) :=
  .next h.cacheWrite

theorem Completes.cacheInv {t} (h : Keeps s₀ s) : Completes s₀ (execCacheInv t s) := .next h.setTile

theorem Keeps.cacheTick {t abort} (h : Keeps s₀ s) : Keeps s₀ (s.cacheTick t abort) :=
  .ite (.setTile (.ite h.loseRange h)) (.ite h.setTile h)

theorem Completes.cacheMissFill {t a} (h : Keeps s₀ s) : Completes s₀ (execCacheMissFill t a s) :=
  .ite (.next h.missFill) (.next h)

theorem Keeps.streamErr {t k code} (h : Keeps s₀ s) : Keeps s₀ (s.streamErr t k code) := h.setRg.setRg.setRg.update

theorem Keeps.failAccess {x} (h : Keeps s₀ s) : Keeps s₀ (s.failAccess x) := by
  unfold State.failAccess
  split
  · exact h.setTile
  · exact h.setCore
  · exact .ite h.streamErr.detect h
  · exact h

theorem Completes.hbmEccError {a kind req} (h : Keeps s₀ s) : Completes s₀ (execHbmEccError a kind req s) := by
  rw [show execHbmEccError = _ by delta execHbmEccError; rfl]
  split
  · exact .next h
  · exact .ite (.next h.incRg.detect) (.next (.failAccess (.detect (.ite h.satRg h))))

theorem Completes.hbmRefresh {st pc} (h : Keeps s₀ s) : Completes s₀ (execHbmRefresh st pc s) := .next h

theorem Completes.reservedSlot {st pc cal} (h : Keeps s₀ s) : Completes s₀ (execReservedSlot st pc cal s) :=
  .ite (.next h.update) (.next h)

theorem Keeps.scrubPass (h : Keeps s₀ s) : Keeps s₀ s.scrubPass := .ite h.update.incRg h

theorem Keeps.scrub {st pc n} (h : Keeps s₀ s) : Keeps s₀ (s.scrub st pc n) := .ite h.update.scrubPass h.update

theorem Completes.scrubOperation {st pc fixed} (h : Keeps s₀ s) : Completes s₀ (execScrubOperation st pc fixed s) :=
  .ite (.next h.update.scrub.incRg) (.next h)

theorem Completes.opportunisticScrub {st pc fixed} (h : Keeps s₀ s) :
    Completes s₀ (execOpportunisticScrub st pc fixed s) :=
  .ite (.next h.scrub.incRg) (.next h)

/-! ### Events and errors recorded -/

theorem Keeps.setFn {mgr plot fn n per v} (h : Keeps s₀ s) : Keeps s₀ (s.setFn mgr plot fn n per v) :=
  .ite h.setRg h.setRg

theorem Keeps.hostWrite {fn a bs} (h : Keeps s₀ s) : Keeps s₀ (s.hostWrite fn a bs) := .ite h.emit h.satRg

theorem Keeps.sendMsix {fn v} (h : Keeps s₀ s) : Keeps s₀ (s.sendMsix fn v) := .ite h.emit h.update

theorem Keeps.writeRec {fn q r} (h : Keeps s₀ s) : Keeps s₀ (s.writeRec fn q r) := by
  unfold State.writeRec
  split
  · exact h
  · exact .ite h (.ite h.hostWrite.update.sendMsix h.hostWrite.update)

theorem Keeps.toQueue {fn q r} (h : Keeps s₀ s) : Keeps s₀ (s.toQueue fn q r) := by
  unfold State.toQueue
  split
  · exact h
  · exact .ite h.writeRec (.ite h.update (.ite h.update.satRg h.update.satRg))

theorem Keeps.drainQueue {fn q n} (h : Keeps s₀ s) : Keeps s₀ (s.drainQueue fn q n) := by
  induction n generalizing s with
  | zero => exact h
  | succ n ih =>
    unfold State.drainQueue
    split
    · exact h
    · split
      · exact h
      · exact .ite (ih h.update.writeRec) h

theorem Keeps.record {fn q about ty pay} (h : Keeps s₀ s) : Keeps s₀ (s.record fn q about ty pay) := .ite h.toQueue h

theorem Keeps.platformEvent {cls bs} (h : Keeps s₀ s) : Keeps s₀ (s.platformEvent cls bs) := h.update

theorem Keeps.areaRec {r} (h : Keeps s₀ s) : Keeps s₀ (s.areaRec r) := h.platformEvent.writeB.update.writeN

theorem Keeps.eventX {unav about ty pay} (h : Keeps s₀ s) : Keeps s₀ (s.eventX unav about ty pay) :=
  .ite (.ite h.areaRec.toQueue h.areaRec.toQueue.toQueue) h.areaRec

theorem Keeps.event {ty pay about} (h : Keeps s₀ s) : Keeps s₀ (s.event ty pay about) := h.eventX

/-! ### The links and Dvorar's sending end -/

theorem Keeps.setPort {d k} (h : Keeps s₀ s) : Keeps s₀ (s.setPort d k) := h.update

theorem Keeps.linkSet {d state lanes} (h : Keeps s₀ s) : Keeps s₀ (s.linkSet d state lanes) := by
  unfold State.linkSet
  extract_lets s1 _ _ _ s2
  have h1 : Keeps s₀ s1 := h.setRg.setRg
  have h2 : Keeps s₀ s2 := .ite h1 h1.setRg.sqRaise
  exact .ite h2 h2.sqRaise

theorem Keeps.due {d ty pay} (h : Keeps s₀ s) : Keeps s₀ (s.due d ty pay) := h.setPort

theorem Keeps.idle {d} (h : Keeps s₀ s) : Keeps s₀ (s.idle d) := .ite h (h.setPort.foldl (fun _ _ h => h.emit))

theorem Keeps.symbol {d ty pay} (h : Keeps s₀ s) : Keeps s₀ (s.symbol d ty pay) := h.due.idle

theorem Keeps.sendFlit {d f} (h : Keeps s₀ s) : Keeps s₀ (s.sendFlit d f) := h.setPort.wrapCount.emit

theorem Keeps.pump {d n} (h : Keeps s₀ s) : Keeps s₀ (s.pump d n) := by
  induction n generalizing s with
  | zero => exact h
  | succ n ih =>
    unfold State.pump
    refine .ite h ?_
    split
    · exact h
    · exact ih h.setPort.sendFlit

theorem Keeps.run {d} (h : Keeps s₀ s) : Keeps s₀ (s.run d) := h.pump.idle

theorem Keeps.deliver {p} (h : Keeps s₀ s) : Keeps s₀ (s.deliver p) := h.update

theorem Keeps.enqueue {e} (h : Keeps s₀ s) : Keeps s₀ (s.enqueue e) := by
  unfold State.enqueue
  split
  · exact h.satRg
  · exact h.setPort.run

theorem Keeps.sendPkt {p} (h : Keeps s₀ s) : Keeps s₀ (s.sendPkt p) := .ite h.deliver h.enqueue

theorem Keeps.setConn {k c} (h : Keeps s₀ s) : Keeps s₀ (s.setConn k c) := h.update

theorem Keeps.window {k n} (h : Keeps s₀ s) : Keeps s₀ (s.window k n) := by
  induction n generalizing s with
  | zero => exact h
  | succ n ih =>
    unfold State.window
    dsimp only
    split
    · exact h
    · exact .ite h (ih h.setConn.sendPkt)

theorem Keeps.connPush {k p} (h : Keeps s₀ s) : Keeps s₀ (s.connPush k p) := h.setConn

theorem Keeps.connSend {k ps} (h : Keeps s₀ s) : Keeps s₀ (s.connSend k ps) :=
  (h.foldl (fun _ _ h => h.connPush)).window

theorem Keeps.dvExchange {ps} (h : Keeps s₀ s) : Keeps s₀ (s.dvExchange ps) := by
  unfold State.dvExchange
  split
  · exact h
  · exact h.setConn.connSend

theorem Keeps.dvStart {origin cn rd xlate space addr len data sink owner} (h : Keeps s₀ s) :
    Keeps s₀ (s.dvStart origin cn rd xlate space addr len data sink owner) :=
  h.setConn.connSend

theorem Keeps.opEndAt {k o cause n} (h : Keeps s₀ s) : Keeps s₀ (s.opEndAt k o cause n) := h.setConn.update

theorem Keeps.opEnd {k o cause} (h : Keeps s₀ s) : Keeps s₀ (s.opEnd k o cause) := h.opEndAt

theorem Keeps.connEnd {k cause} (h : Keeps s₀ s) : Keeps s₀ (s.connEnd k cause) :=
  (h.foldl (fun _ _ h => h.opEnd)).setConn

/-! ### Furrows -/

theorem Keeps.setStream {t k x} (h : Keeps s₀ s) : Keeps s₀ (s.setStream t k x) := h.update

theorem Keeps.furrowEn {t k on} (h : Keeps s₀ s) : Keeps s₀ (s.furrowEn t k on) :=
  .ite (.ite h.setRg.setRg.setStream h.setRg) (.ite h.setRg.setStream h.setRg.setRg.setRg.setStream)

theorem Completes.furrowEn {t k on} (h : Keeps s₀ s) : Completes s₀ (execFurrowEn t k on s) := .next h.furrowEn

theorem Keeps.furrowStop {t k} (h : Keeps s₀ s) : Keeps s₀ (s.furrowStop t k) := .ite h.setStream h

theorem Completes.furrowStop {t k} (h : Keeps s₀ s) : Completes s₀ (execFurrowStop t k s) := .next h.furrowStop

theorem Keeps.loseLines {t lo n} (h : Keeps s₀ s) : Keeps s₀ (s.loseLines t lo n) := h.loseRange

theorem Keeps.furrowShow {t k n late} (h : Keeps s₀ s) : Keeps s₀ (s.furrowShow t k n late) :=
  .ite h.setRg (.ite h.setRg.setRg.satRg.setStream h.setRg.setRg)

theorem Keeps.loseMissing {t k b} (h : Keeps s₀ s) : Keeps s₀ (s.loseMissing t k b) :=
  h.foldl (fun _ _ h => h.loseLines)

theorem Keeps.loseWritten {t k} (h : Keeps s₀ s) : Keeps s₀ (s.loseWritten t k) :=
  h.foldl (fun _ _ h => h.foldl (fun _ _ h => .ite h.loseLines h))

theorem Keeps.openWindows {t k n} (h : Keeps s₀ s) : Keeps s₀ (s.openWindows t k n) := .ite h h.setStream

theorem Keeps.furrowTick {n closed t k} (h : Keeps s₀ s) : Keeps s₀ (s.furrowTick n closed t k) := by
  unfold State.furrowTick
  extract_lets _ _ _ _ _ s1 s2 _
  have h2 : Keeps s₀ s2 := by
    unfold s2
    split
    · exact .ite h.loseWritten.loseMissing h.loseWritten
    · exact h.loseWritten
  split
  · exact .ite h.streamErr h.setRg.setStream.loseLines.openWindows.furrowShow
  · refine .ite ?_ (.ite ?_ (.ite ?_ ?_))
    · exact h2.setRg.setRg.setStream.loseLines
    · exact h2.setRg.setRg.setStream.loseLines
    · exact h2.setRg.setRg.setStream
    · exact h2.setStream.openWindows.furrowShow
  · exact h

theorem Keeps.furrowAbort {n t k} (h : Keeps s₀ s) : Keeps s₀ (s.furrowAbort n t k) := .ite h.setStream.furrowShow h

theorem Keeps.peerRead {t k b c} (h : Keeps s₀ s) : Keeps s₀ (s.peerRead t k b c) := h.setConn.dvStart

theorem Completes.furrowRequestIssue {t pf} (h : Keeps s₀ s) : Completes s₀ (execFurrowRequestIssue t pf s) := by
  refine .ite ?_ (.next h)
  split
  · exact .next h
  · exact .next (.ite h.setStream.peerRead h.setStream)

theorem Completes.furrowLineLand {t k b i res} (h : Keeps s₀ s) : Completes s₀ (execFurrowLineLand t k b i res s) := by
  refine .ite ?_ (.next h)
  split
  · exact .ite (.next h) (.next h.streamErr.detect)
  · exact .next (.furrowShow (.setStream (.ite h.writeB h.loseLines)))

/-! ### Compartment windows -/

theorem Keeps.cutDone {c} (h : Keeps s₀ s) : Keeps s₀ (s.cutDone c) := h.update

theorem Keeps.sendCutting {c} (h : Keeps s₀ s) : Keeps s₀ (s.sendCutting c) := h.emit

theorem Keeps.copyCutting {c} (h : Keeps s₀ s) : Keeps s₀ (s.copyCutting c) := by
  refine .ite h (.incRg (.incRg (.cutDone ?_)))
  split
  · exact .ite h.drawn.writeHbm.update h.drawn.writeHbm
  · exact .ite h.drawn.sendCutting.incRg h.drawn.incRg

theorem Keeps.copyFirst {a n} (h : Keeps s₀ s) : Keeps s₀ (s.copyFirst a n) :=
  .ite h (h.foldl (fun _ _ h => h.copyCutting))

/-! ### Rings, deliveries and posted buffers -/

theorem Keeps.setPlot {fn st} (h : Keeps s₀ s) : Keeps s₀ (s.setPlot fn st) := .ite h h.setRg.setRg

theorem Keeps.showRing {fn r} (h : Keeps s₀ s) : Keeps s₀ (s.showRing fn r) := h.setFn.setFn.setFn.setFn

theorem Keeps.setRing {fn r g} (h : Keeps s₀ s) : Keeps s₀ (s.setRing fn r g) := h.update.showRing

theorem Keeps.ringError {fn r code pi} (h : Keeps s₀ s) : Keeps s₀ (s.ringError fn r code pi) := by
  unfold State.ringError
  split
  · exact h
  · exact .ite h h.setRing.sqRaise.record

theorem Keeps.setDesc {fn r d} (h : Keeps s₀ s) : Keeps s₀ (s.setDesc fn r d) := by
  unfold State.setDesc
  split
  · exact h
  · exact h.setRing

theorem Keeps.endDesc {fn r idx state cause bytes} (h : Keeps s₀ s) :
    Keeps s₀ (s.endDesc fn r idx state cause bytes) := by
  unfold State.endDesc
  split
  · exact h
  · split
    · exact h
    · exact .ite h h.setRing

theorem Keeps.writeSpan {fn aspace a bs} (h : Keeps s₀ s) : Keeps s₀ (s.writeSpan fn aspace a bs) := by
  unfold State.writeSpan
  split
  · exact h.hostWrite
  · exact h.copyFirst.writeHbm
  · exact h.writeB
  · exact h.writeHub

theorem Keeps.localWrite {fn aspace addr bs} (h : Keeps s₀ s) : Keeps s₀ (s.localWrite fn aspace addr bs) := by
  unfold State.localWrite
  split
  · exact h
  · exact h.foldl_fst (fun _ _ h => h.writeSpan)

theorem Keeps.fillBuffer {fn r bs src x more} (h : Keeps s₀ s) (e : s.fillBuffer fn r bs src x more = some t) :
    Keeps s₀ t := by
  unfold State.fillBuffer at e
  split at e
  · cases e
  · dsimp only at e
    split at e
    · cases e
    · cases e
      exact h.setRing.localWrite

/-! ### Rows decoded -/

theorem Keeps.armErr {t code row} (h : Keeps s₀ s) : Keeps s₀ (s.armErr t code row) := h.setRg.setRg

theorem Keeps.tableErr {t code row sender} (h : Keeps s₀ s) : Keeps s₀ (s.tableErr t code row sender) :=
  h.armErr.setTile.detect

/-! ### Rows run -/

theorem Keeps.readMove {t sp base cached n off} (h : Keeps s₀ s) : Keeps s₀ (s.readMove t sp base cached n off).1 := by
  induction n generalizing s off with
  | zero => exact h
  | succ n ih =>
    have h1 : Keeps s₀ (if cached then s.cacheRead t (base + off)
        else (s, (s.locFrom t (moveLoc t sp base off)).map (fun k => s.readB k 32))).1 := by
      split
      · exact h.cacheRead
      · exact h
    unfold State.readMove
    dsimp only
    split
    · exact h1
    · exact ih h1

theorem Keeps.readAny {t sp base off n} (h : Keeps s₀ s) : Keeps s₀ (s.readAny t sp base off n).1 := h.readMove

theorem Keeps.moveLines {t r n l} (h : Keeps s₀ s) : Keeps s₀ (s.moveLines t r n l).1 := by
  induction n generalizing s l with
  | zero => exact h
  | succ n ih =>
    unfold State.moveLines
    dsimp only
    split
    · refine ih ?_
      split
      · exact h.readMove.readAny
      · exact h.readMove
    · split
      · exact h.readMove.readAny
      · exact h.readMove

theorem Keeps.runMove {t r} (h : Keeps s₀ s) : Keeps s₀ (s.runMove t r).1 := by
  refine .ite_fst h ?_
  split
  · rename_i e
    exact h.moveLines.of_eq e
  · rename_i e
    exact h.moveLines.of_eq e

/-! ### The commit gate -/

theorem Keeps.setEnt {n e} (h : Keeps s₀ s) : Keeps s₀ (s.setEnt n e) := h.update.setRg

theorem Keeps.showStaging (h : Keeps s₀ s) : Keeps s₀ s.showStaging := h.setRg

theorem Keeps.pushDelivery {d} (h : Keeps s₀ s) : Keeps s₀ (s.pushDelivery d) := .ite h.incRg.record h.update

theorem Keeps.dropInvalid (h : Keeps s₀ s) : Keeps s₀ s.dropInvalid := h.update.foldl (fun _ _ h => h.pushDelivery)

theorem Keeps.gateErr {n stream code} (h : Keeps s₀ s) : Keeps s₀ (s.gateErr n stream code) :=
  h.sqRaise.setRg.setRg.event

theorem Keeps.release {e n r out} (h : Keeps s₀ s) : Keeps s₀ (s.release e n r out).1 :=
  .ite_fst h.incRg.pair (.ite_fst h.incRg.incRg.update.setEnt.pair h)

theorem Keeps.gateStream {n stream rs out} (h : Keeps s₀ s) : Keeps s₀ (s.gateStream n stream rs out).1 := by
  unfold State.gateStream
  dsimp only
  split
  · exact h.incRg.setEnt.gateErr
  · exact h.incRg.setEnt.foldl_fst (fun _ _ h => h.release)

theorem Keeps.gateMalformed {n e} (h : Keeps s₀ s) : Keeps s₀ (s.gateMalformed n e) := by
  unfold State.gateMalformed
  extract_lets s1
  have h1 : Keeps s₀ s1 := h.foldl (fun _ _ h => h.gateErr)
  exact .ite h1 h1.gateErr

theorem Keeps.gateCommit {n} (h : Keeps s₀ s) : Keeps s₀ (s.gateCommit n) := by
  unfold State.gateCommit
  extract_lets _ _ s1 _ s2 _ s3 _ _ r s4 _ s5 _
  have h3 : Keeps s₀ s3 := h.update.dropInvalid.update.foldl (fun _ _ h => h.gateMalformed)
  have hr : Keeps s₀ r.1 := Keeps.foldl_fst h3 (fun _ _ h => h.gateStream)
  have h4 : Keeps s₀ s4 := hr.foldl (fun _ _ h => h.pushDelivery)
  have h5 : Keeps s₀ s5 := h4.foldl (fun _ _ h => h.pushDelivery)
  exact h5.update.showStaging

theorem Keeps.gateAbort (h : Keeps s₀ s) : Keeps s₀ s.gateAbort := h.update.showStaging

theorem Keeps.placement {others} (h : Keeps s₀ s) : Keeps s₀ (s.placement others) := by
  unfold State.placement
  extract_lets _ _ _ s1
  refine Keeps.foldl h.update (fun s b h => ?_)
  extract_lets bad _ s1
  clear_value bad
  have h1 : Keeps s₀ s1 := .ite (.ite h.setRg.setRg h.setRg) h
  split
  · exact .ite h1.event h1
  · exact h1

theorem Completes.placeValidWrite {v} (h : Keeps s₀ s) : Completes s₀ (execPlaceValidWrite v s) := .next h.update.setRg

/-! ### Routes -/

theorem Keeps.newRoute {bank m} (h : Keeps s₀ s) : Keeps s₀ (s.newRoute bank m) := by
  unfold State.newRoute
  split
  · exact h.setRg
  · exact .ite h h.setRg.event

theorem Keeps.reroute (h : Keeps s₀ s) : Keeps s₀ s.reroute :=
  .ite h (.update (h.foldl (fun _ _ h => .ite h.newRoute h.setRg)))

/-! ### Units retired and the fault log -/

theorem Keeps.countReport {r} (h : Keeps s₀ s) : Keeps s₀ (s.countReport r) := h.update

theorem Keeps.forgetReports {mine} (h : Keeps s₀ s) : Keeps s₀ (s.forgetReports mine) := h.update

theorem Keeps.logFault {r action outcome spare debt} (h : Keeps s₀ s) :
    Keeps s₀ (s.logFault r action outcome spare debt) :=
  .ite (h.platformEvent.foldl (fun _ _ h => h.setRg)).emit.eventX (.event (.sqRaise (.setRg (.update (.ite
    h.platformEvent h.platformEvent.satRg)))))

theorem Keeps.logPair {r action outcome} (h : Keeps s₀ s) : Keeps s₀ (s.logPair r action outcome) := h.logFault.logFault

theorem Keeps.dropReplays (h : Keeps s₀ s) : Keeps s₀ s.dropReplays :=
  h.update.foldl (fun _ _ h => h.foldl (fun _ _ h => h.logFault))

theorem Keeps.notice {t code data} (h : Keeps s₀ s) : Keeps s₀ (s.notice t code data) := h.setCore

theorem Keeps.noticeAll {code data} (h : Keeps s₀ s) : Keeps s₀ (s.noticeAll code data) :=
  h.foldl (fun _ _ h => h.notice)

theorem Keeps.mapUpdate (h : Keeps s₀ s) : Keeps s₀ s.mapUpdate := h.setRg.setRg.sqRaise

theorem Keeps.retiredEvent {old new unit idx sub} (h : Keeps s₀ s) : Keeps s₀ (s.retiredEvent old new unit idx sub) :=
  h.event

theorem Keeps.unitRetired {unit idx sub} (h : Keeps s₀ s) : Keeps s₀ (s.unitRetired unit idx sub) :=
  .ite h.mapUpdate.update h.mapUpdate.retiredEvent

theorem Keeps.levelTick (h : Keeps s₀ s) : Keeps s₀ s.levelTick := by
  unfold State.levelTick
  split
  · exact h
  · exact h.update.setRg.mapUpdate.retiredEvent

theorem Keeps.unitReturned (h : Keeps s₀ s) : Keeps s₀ s.unitReturned := .mapUpdate (.ite h h.setRg)

theorem Keeps.clearTile {t} (h : Keeps s₀ s) : Keeps s₀ (s.clearTile t) := .ite h.setRg.setRg h

theorem Keeps.clearSpare {t} (h : Keeps s₀ s) : Keeps s₀ (s.clearSpare t) := h.setRg

theorem Keeps.retireTile {t spare} (h : Keeps s₀ s) : Keeps s₀ (s.retireTile t spare) := by
  unfold State.retireTile
  split
  · exact h.clearTile.unitRetired
  · exact h.clearTile.clearSpare.update.unitRetired

theorem Keeps.retireTiles (h : Keeps s₀ s) : Keeps s₀ s.retireTiles := h.update.foldl (fun _ _ h => h.retireTile)

theorem Keeps.retireSoon {t spare} (h : Keeps s₀ s) : Keeps s₀ (s.retireSoon t spare) := h.update

theorem Keeps.retirePc {st pc} (h : Keeps s₀ s) : Keeps s₀ (s.retirePc st pc) :=
  .ite h (.ite h.setRg.update.unitRetired.setRg.setRg.unitRetired.scrubPass h.setRg.update.unitRetired.scrubPass)

theorem Keeps.mapEvent {st p phys hole} (h : Keeps s₀ s) : Keeps s₀ (s.mapEvent st p phys hole) := h.sqRaise.event

theorem Keeps.holePc {st p} (h : Keeps s₀ s) : Keeps s₀ (s.holePc st p) := .ite h h.setRg.mapEvent

theorem Keeps.remapPc {st pc} (h : Keeps s₀ s) : Keeps s₀ (s.remapPc st pc) := by
  refine .ite (h.foldl (fun _ _ h => h.holePc)) ?_
  split
  · exact h
  · split
    · exact h.setRg.loseRange.mapEvent
    · exact h.holePc

theorem Keeps.remapTick (h : Keeps s₀ s) : Keeps s₀ s.remapTick := h.update.foldl (fun _ _ h => h.remapPc)

theorem Keeps.flood {word} (h : Keeps s₀ s) : Keeps s₀ (s.flood word) := h.foldl (fun _ _ h => h.symbol)

theorem Keeps.lstate {d up} (h : Keeps s₀ s) : Keeps s₀ (s.lstate d up) := h.setPort.update.flood

theorem Keeps.cutPass {d vc} (h : Keeps s₀ s) : Keeps s₀ (s.cutPass d vc) := by
  unfold State.cutPass
  split
  · exact h
  · exact .ite h.setPort h.setPort.setPort

theorem Keeps.linkLeave {d state lanes} (h : Keeps s₀ s) : Keeps s₀ (s.linkLeave d state lanes) := by
  unfold State.linkLeave
  extract_lets _ s1 _ _ _ s2 _ s3
  have h1 : Keeps s₀ s1 := h.foldl (fun _ _ h => h.cutPass)
  have h3 : Keeps s₀ s3 := h1.setPort.linkSet.update
  exact .ite (h3.foldl (fun _ _ h => h.enqueue)).lstate.reroute h3

theorem Keeps.retireLink {d cause} (h : Keeps s₀ s) : Keeps s₀ (s.retireLink d cause) :=
  .ite h h.linkLeave.event.unitRetired

theorem Keeps.retrain {d cause} (h : Keeps s₀ s) : Keeps s₀ (s.retrain d cause) := .ite h.linkLeave.satRg.event h

theorem Keeps.retireLane {d lane} (h : Keeps s₀ s) : Keeps s₀ (s.retireLane d lane) := by
  unfold State.retireLane
  extract_lets _ _ _ s1 s2
  have h2 : Keeps s₀ s2 := h.setPort.event.unitRetired
  exact .ite h (.ite h2.retireLink (.ite h2.retireLink h2.setPort.symbol))

theorem Keeps.retireBit {f b unit} (h : Keeps s₀ s) : Keeps s₀ (s.retireBit f b unit) := .ite h.setRg.unitRetired h

theorem Keeps.retireRouter {r} (h : Keeps s₀ s) : Keeps s₀ (s.retireRouter r) := by
  unfold State.retireRouter
  extract_lets _ s1 s2 s3 s4
  have h1 : Keeps s₀ s1 := h.update.unitRetired
  have h2 : Keeps s₀ s2 := by
    unfold s2
    split
    · exact h1.foldl (fun _ _ h => h.retirePc)
    · exact h1
  have h3 : Keeps s₀ s3 := by
    unfold s3
    split
    · exact h2.retireLink
    · exact h2
  have h4 : Keeps s₀ s4 := by
    unfold s4
    split
    · exact h3.retireBit
    · exact h3
  exact .ite h4.retireBit h4

/-! ### Tiles and their rows -/

theorem Completes.arm {t} (h : Keeps s₀ s) : Completes s₀ (execArm t s) :=
  .ite (.next h) (.ite (.next h.armErr) (.ite (.next h.armErr) (.next h.armErr.setTile.setRg)))

theorem Completes.armSame {t} (h : Keeps s₀ s) : Completes s₀ (execArmSame t s) :=
  .ite (.next h) (.ite (.next h.armErr) (.next h.armErr.setTile.setRg))

theorem Completes.disarm {t late} (h : Keeps s₀ s) : Completes s₀ (execDisarm t late s) :=
  .ite (.next h) (.ite (.next h.setRg) (.next h.setTile.setRg))

theorem Keeps.loseScratch {t} (h : Keeps s₀ s) : Keeps s₀ (s.loseScratch t) := .ite h.loseRange h

theorem Keeps.takeBank {t bank} (h : Keeps s₀ s) : Keeps s₀ (s.takeBank t bank) := h.setTile.setRg

theorem Keeps.startTable {t bank} (h : Keeps s₀ s) : Keeps s₀ (s.startTable t bank) := h.takeBank.setTile.loseScratch

theorem Keeps.swapIn {t n} (h : Keeps s₀ s) : Keeps s₀ (s.swapIn t n) :=
  .ite (.ite h.startTable h.takeBank) h.setTile.tableErr

theorem Completes.armVisibleOpenBeat {t} (h : Keeps s₀ s) : Completes s₀ (execArmVisibleOpenBeat t s) :=
  .ite (.next h.swapIn) (.next h)

theorem Keeps.track {t slot r} (h : Keeps s₀ s) : Keeps s₀ (s.track t slot r) := h.setTile.perf

theorem Keeps.passed {t slot f} (h : Keeps s₀ s) : Keeps s₀ (s.passed t slot f) := h.setTile.perf

theorem Completes.matrixRow {t} (h : Keeps s₀ s) : Completes s₀ (execMatrixRow t s) := by
  unfold execMatrixRow
  split
  · exact .next h
  · exact .ite (.next h.track) (.next h)

theorem Completes.vectorRow {t} (h : Keeps s₀ s) : Completes s₀ (execVectorRow t s) := by
  unfold execVectorRow
  split
  · exact .next h
  · exact .ite (.next h.track) (.next h)

theorem Keeps.movePorts {t r} (h : Keeps s₀ s) : Keeps s₀ (s.movePorts t r) :=
  .ite (.perf (.perf (.ite h.perf.perf h))) (.ite h.perf.perf h)

theorem Completes.moveRow {t} (h : Keeps s₀ s) : Completes s₀ (execMoveRow t s) := by
  unfold execMoveRow
  split
  · exact .next h
  · exact .ite (.next (.track (.ite h.runMove.movePorts h.runMove))) (.next h)

theorem Keeps.issueExchange {t slot cls x} (h : Keeps s₀ s) : Keeps s₀ (s.issueExchange t slot cls x) :=
  .ite (.ite h.track.tableErr (.perf (.ite h.track.update h.track.dvExchange))) h

theorem Completes.exchangeRow {t} (h : Keeps s₀ s) : Completes s₀ (execExchangeRow t s) := by
  unfold execExchangeRow
  split
  · exact .next h
  · exact .next h.issueExchange

theorem Completes.anchorExchangeRow {t} (h : Keeps s₀ s) : Completes s₀ (execAnchorExchangeRow t s) := by
  unfold execAnchorExchangeRow
  split
  · exact .next h
  · exact .next h.issueExchange

theorem Completes.waitRow {t} (h : Keeps s₀ s) : Completes s₀ (execWaitRow t s) := by
  unfold execWaitRow
  split
  · exact .next h
  · exact .next h.passed

theorem Completes.waitConditionMet {t} (h : Keeps s₀ s) : Completes s₀ (execWaitConditionMet t s) := by
  unfold execWaitConditionMet
  dsimp only
  split
  · exact .next h
  · exact .ite (.next h.setTile) (.next h)

theorem Completes.markNote {t} (h : Keeps s₀ s) : Completes s₀ (execMarkNote t s) := by
  unfold execMarkNote
  split
  · exact .next h
  · exact .next h.passed

theorem Completes.markExport {t} (h : Keeps s₀ s) : Completes s₀ (execMarkExport t s) := by
  unfold execMarkExport
  split
  · exact .next h
  · exact .ite (.next h) (.ite (.next h.passed.tableErr) (.ite (.next h) (.next h.passed.update.showStaging.perf)))

theorem Keeps.loseLine {t l} (h : Keeps s₀ s) : Keeps s₀ (s.loseLine t l) := h.loseRange

theorem Keeps.wroteOwn {t l} (h : Keeps s₀ s) : Keeps s₀ (s.wroteOwn t l) := .ite h.setTile.loseLine h.setTile

theorem Keeps.wroteSent {t l sender} (h : Keeps s₀ s) : Keeps s₀ (s.wroteSent t l sender) :=
  .ite h.setTile.loseLine h.setTile

theorem Completes.markStamp {t} (h : Keeps s₀ s) : Completes s₀ (execMarkStamp t s) := by
  unfold execMarkStamp
  split
  · exact .next h
  · refine .ite (.next h) (.ite (.next h.passed.tableErr) ?_)
    split
    · exact .next h.passed.tableErr
    · exact .next h.passed.touch.writeB.wroteOwn

theorem Keeps.mirrorLapse (h : Keeps s₀ s) : Keeps s₀ s.mirrorLapse := h.setRg.event.noticeAll

theorem Keeps.mirrorRow {u bs} (h : Keeps s₀ s) : Keeps s₀ (s.mirrorRow u bs) :=
  .ite (.ite h.update.mirrorLapse h.update.update.emit) h

theorem Keeps.writeRow {t l bs} (h : Keeps s₀ s) : Keeps s₀ (s.writeRow t l bs).1 := by
  unfold State.writeRow
  dsimp only
  split
  · exact h
  · refine .ite_fst h ?_
    split
    · split
      · exact .ite h.touch.writeB.wroteOwn h.touch.writeB
      · exact h.uncache.mirrorRow.touch.writeB
    · exact .ite_fst h.writeB h

theorem Keeps.writeRows {t l} (h : Keeps s₀ s) : Keeps s₀ (s.writeRows t l).1 := by
  induction l generalizing s with
  | nil => exact h
  | cons x l ih =>
    unfold State.writeRows
    split
    · rename_i e
      exact ih (h.writeRow.of_eq e)
    · rename_i e
      exact h.writeRow.of_eq e

theorem Keeps.perfCycles {t} (h : Keeps s₀ s) : Keeps s₀ (s.perfCycles t) := h.foldl (fun _ _ h => .ite h.perf.drawn h)

theorem Keeps.checkFails {t slot check line} (h : Keeps s₀ s) : Keeps s₀ (s.checkFails t slot check line) := by
  unfold State.checkFails
  extract_lets s1 _ s2
  have h1 : Keeps s₀ s1 := by
    unfold s1
    split
    · exact h.drawn.writeRows
    · exact h
  have h2 : Keeps s₀ s2 := h1.setTile.setRg
  split
  · exact h2.satRg
  · exact h2.satRg
  · exact h2.satRg
  · exact h2

theorem Keeps.rowFault {t r chk at_} (h : Keeps s₀ s) : Keeps s₀ (s.rowFault t r chk at_) := h.checkFails.detect

theorem Completes.rowComplete {t slot chk at_} (h : Keeps s₀ s) : Completes s₀ (execRowComplete t slot chk at_ s) := by
  unfold execRowComplete
  dsimp only
  split
  · exact .next h
  · refine .ite (.next h) (.ite (.next h) (.ite (.next h.rowFault) (.ite (.next h) (.ite (.next h.tableErr) ?_))))
    split
    · rename_i e
      exact .next (h.writeRows.of_eq e).setTile.perfCycles
    · rename_i e
      exact .next (h.writeRows.of_eq e).tableErr

theorem Completes.exchangeAck {t slot} (h : Keeps s₀ s) : Completes s₀ (execExchangeAck t slot s) :=
  .ite (.next h.setTile) (.next h)

theorem Keeps.windowWrite {t a bs} (h : Keeps s₀ s) : Keeps s₀ (s.windowWrite t a bs) := by
  refine (h.foldl (fun _ _ h => ?_)).writeB.setTile
  split
  · exact h.touch
  · exact h

theorem Keeps.exchangeWrite {t a bs sender} (h : Keeps s₀ s) : Keeps s₀ (s.exchangeWrite t a bs sender) :=
  h.windowWrite.foldl (fun _ _ h => h.wroteSent)

theorem Keeps.combineAnchors {t a n bs} (h : Keeps s₀ s) : Keeps s₀ (s.combineAnchors t a n bs) := by
  induction n generalizing s a bs with
  | zero => exact h
  | succ n ih => exact ih h.windowWrite

theorem Keeps.combineValues {t a g n bs} (h : Keeps s₀ s) : Keeps s₀ (s.combineValues t a g n bs) := by
  induction n generalizing s a g bs with
  | zero => exact h
  | succ n ih => exact ih h.windowWrite

theorem Keeps.arrive {t c} (h : Keeps s₀ s) : Keeps s₀ (s.arrive t c) := h.setTile

theorem Keeps.landPacket {p} (h : Keeps s₀ s) : Keeps s₀ (s.landPacket p) := by
  unfold State.landPacket
  extract_lets _ _
  split
  extract_lets s1 s2
  have h1 : Keeps s₀ s1 := h.perf
  have h2 : Keeps s₀ s2 := by
    unfold s2
    split
    · exact h1.exchangeWrite
    · exact h1.combineAnchors
    · exact h1.combineValues
  exact .ite h1.tableErr (.ite h1.tableErr (.ite h2.arrive h2))

theorem Keeps.acked {p} (h : Keeps s₀ s) : Keeps s₀ (s.acked p) := .ite h.setTile h

theorem Keeps.takePacket {p} (h : Keeps s₀ s) : Keeps s₀ (s.takePacket p) :=
  .ite h (.ite h.setTile (.ite (.ite h.tableErr h) (.ite h.setTile h.landPacket.acked)))

theorem Keeps.arriveNth {op n} (h : Keeps s₀ s) : Keeps s₀ (s.arriveNth op n) := by
  unfold State.arriveNth
  split
  · exact h
  · exact .ite h (.ite h.update.setTile h.update.takePacket)

theorem Completes.exchangePacketArrive {n} (h : Keeps s₀ s) : Completes s₀ (execExchangePacketArrive n s) :=
  .next h.arriveNth

theorem Completes.anchorMaxCombine {n} (h : Keeps s₀ s) : Completes s₀ (execAnchorMaxCombine n s) := .next h.arriveNth

theorem Completes.valueAddCombine {n} (h : Keeps s₀ s) : Completes s₀ (execValueAddCombine n s) := .next h.arriveNth

theorem Completes.heldPacketRelease {t n} (h : Keeps s₀ s) : Completes s₀ (execHeldPacketRelease t n s) := by
  unfold execHeldPacketRelease
  dsimp only
  split
  · exact .next h
  · exact .ite (.next h) (.next h.setTile.takePacket)

theorem Completes.perfClr {t} (h : Keeps s₀ s) : Completes s₀ (execPerfClr t s) :=
  .next (h.foldl (fun _ _ h => h.setRg))

/-! ### Dvorar's receiving end -/

theorem Keeps.setRecv {k r} (h : Keeps s₀ s) : Keeps s₀ (s.setRecv k r) := h.update

theorem Keeps.respond {k op psn aux opid addr data last} (h : Keeps s₀ s) :
    Keeps s₀ (s.respond k op psn aux opid addr data last) :=
  h.sendPkt

theorem Keeps.ack {k} (h : Keeps s₀ s) : Keeps s₀ (s.ack k) := h.setRecv.respond

theorem Keeps.writeSpans {l bs} (h : Keeps s₀ s) : Keeps s₀ (s.writeSpans l bs) := by
  induction l generalizing s bs with
  | nil => exact h
  | cons x l ih => exact ih h.writeHbm

theorem Keeps.applyWrite {p} (h : Keeps s₀ s) : (s.applyWrite p).Keeps s₀ := by
  unfold State.applyWrite
  split
  · split
    · exact trivial
    · exact h.writeB
  · split
    · exact trivial
    · exact trivial
    · split
      · exact trivial
      · split
        · exact h.writeSpans
        · exact trivial
  · split
    · exact h.writeHub
    · exact trivial
  · exact trivial

/-- A READ that fails leaves nothing behind. -/
theorem Applied.Keeps.remoteRead {p a} (e : s.remoteRead p = .inl a) : a.Keeps s₀ := by
  unfold State.remoteRead at e
  split at e
  · split at e
    · cases e
      trivial
    · split at e
      · cases e
        trivial
      · cases e
  · split at e
    · cases e
      trivial
    · cases e
      trivial
    · split at e
      · cases e
      · cases e
        trivial
  · split at e
    · cases e
    · cases e
      trivial
  · cases e
    trivial

theorem Keeps.applyRead {k p} (h : Keeps s₀ s) : (s.applyRead k p).Keeps s₀ := by
  unfold State.applyRead
  split
  · rename_i e
    exact .remoteRead e
  · exact h.respond.drawn

theorem Keeps.applyPkt {k p} (h : Keeps s₀ s) : (s.applyPkt k p).Keeps s₀ := by
  unfold State.applyPkt
  split
  · exact trivial
  · split
    · exact h.applyWrite
    · exact h.applyRead
    · split
      · exact trivial
      · split
        · exact trivial
        · exact h.takePacket.setRecv

theorem Keeps.advance {k n} (h : Keeps s₀ s) : Keeps s₀ (s.advance k n) := by
  induction n generalizing s with
  | zero => exact h
  | succ n ih =>
    unfold State.advance
    extract_lets _
    split
    · exact h
    · extract_lets pass
      have hpass {s} (h : Keeps s₀ s) : Keeps s₀ (pass s) := .ite h.setRecv.ack h.setRecv
      split
      · rename_i e
        exact ih (hpass (h.applyPkt.ok e))
      · exact .ite (ih (hpass h.respond)) h.setRecv.respond
      · exact h.setRecv.respond.emit
      · exact h.setRecv

theorem Keeps.accept {k p} (h : Keeps s₀ s) : Keeps s₀ (s.accept k p) :=
  .ite h.ack (.ite h (.ite h.setRecv.advance h.setRecv.ack))

theorem Keeps.request {p} (h : Keeps s₀ s) : Keeps s₀ (s.request p) := by
  unfold State.request
  refine .ite h ?_
  dsimp only
  split
  · exact .ite h.accept (.ite h.respond h)
  · exact h.accept

theorem Keeps.fromInbox {n op p} (h : Keeps s₀ s) (e : s.fromInbox n op = some (p, t)) : Keeps s₀ t := by
  unfold State.fromInbox at e
  split at e
  · cases e
  · split at e
    · cases e
      exact h.update
    · cases e

theorem Keeps.takeRequest {n op} (h : Keeps s₀ s) : Keeps s₀ (s.takeRequest n op) := by
  unfold State.takeRequest
  split
  · exact h
  · rename_i e
    exact (h.fromInbox e).request

theorem Completes.dvWrite {n} (h : Keeps s₀ s) : Completes s₀ (execDvWrite n s) := .next h.takeRequest

theorem Completes.dvExch {n} (h : Keeps s₀ s) : Completes s₀ (execDvExch n s) := .next h.takeRequest

theorem Completes.combineAnchor {n} (h : Keeps s₀ s) : Completes s₀ (execCombineAnchor n s) := .next h.takeRequest

theorem Completes.combineValue {n} (h : Keeps s₀ s) : Completes s₀ (execCombineValue n s) := .next h.takeRequest

theorem Completes.dvRead {n} (h : Keeps s₀ s) : Completes s₀ (execDvRead n s) := .next h.takeRequest

theorem Keeps.dvAckTimer {src origin cn} (h : Keeps s₀ s) : Keeps s₀ (s.dvAckTimer src origin cn) := .ite h h.ack

theorem Keeps.advanceWaiting (h : Keeps s₀ s) : Keeps s₀ s.advanceWaiting :=
  h.postHeld.foldl (fun _ _ h => .ite h.advance h)

theorem Keeps.dvPageResolved {src origin cn} (h : Keeps s₀ s) : Keeps s₀ (s.dvPageResolved src origin cn) :=
  .ite h.advance h

theorem Keeps.dvPageTimeout {src origin cn} (h : Keeps s₀ s) : Keeps s₀ (s.dvPageTimeout src origin cn) := by
  unfold State.dvPageTimeout
  dsimp only
  split
  · exact h
  · exact .ite h (.ite h.advance h.setRecv.respond.incRg)

theorem Keeps.storeSink {k off bs} (h : Keeps s₀ s) : Keeps s₀ (s.storeSink k off bs) := h.localWrite

theorem Keeps.chunkLines {t k b c off bs} (h : Keeps s₀ s) : Keeps s₀ (s.chunkLines t k b c off bs) :=
  .ite h.setStream h

theorem Keeps.setOp {k o} (h : Keeps s₀ s) : Keeps s₀ (s.setOp k o) := h.setConn

theorem Keeps.opFail {k o cause n} (h : Keeps s₀ s) : Keeps s₀ (s.opFail k o cause n) := by
  unfold State.opFail
  split
  · exact .ite h.setConn.streamErr.detect h.setConn
  · exact h.opEndAt

theorem Keeps.opStep {k o} (h : Keeps s₀ s) : Keeps s₀ (s.opStep k o) := by
  refine .ite ?_ h.setOp
  split
  · exact h.setOp.setConn
  · exact h.setOp.opEnd

theorem Keeps.covered {k p} (h : Keeps s₀ s) : Keeps s₀ (s.covered k p) := by
  unfold State.covered
  split
  · split
    · exact h
    · exact h.opStep
  · split
    · exact h
    · exact h.opStep
  · exact h.acked

theorem Keeps.again {p} (h : Keeps s₀ s) : Keeps s₀ (s.again p) := h.wrapCount.sendPkt

theorem Keeps.takeAck {k p} (h : Keeps s₀ s) : Keeps s₀ (s.takeAck k p) :=
  ((h.setConn.foldl (fun _ _ h => h.covered)).foldl (fun _ _ h => h.again)).window

theorem Completes.dvAck {n} (h : Keeps s₀ s) : Completes s₀ (execDvAck n s) := by
  unfold execDvAck
  split
  · exact .next h
  · rename_i e
    have h1 := h.fromInbox e
    split
    · exact .next h1
    · exact .next h1.takeAck

theorem Completes.dvReadResp {n} (h : Keeps s₀ s) : Completes s₀ (execDvReadResp n s) := by
  unfold execDvReadResp
  split
  · exact .next h
  · rename_i e
    have h1 := h.fromInbox e
    split
    · exact .next h1
    · split
      · exact .next h1
      · refine .ite (.next h1.opFail) (.next (.opStep ?_))
        split
        · exact h1.chunkLines
        · exact h1.storeSink
        · exact h1

theorem Keeps.voidOp {k opid} (h : Keeps s₀ s) : Keeps s₀ (s.voidOp k opid) := h.setConn

theorem Keeps.againFrom {k psn} (h : Keeps s₀ s) : Keeps s₀ (s.againFrom k psn) := h.foldl (fun _ _ h => h.again)

theorem Completes.dvNackErr {n} (h : Keeps s₀ s) : Completes s₀ (execDvNackErr n s) := by
  unfold execDvNackErr
  split
  · exact .next h
  · rename_i e
    have h1 := h.fromInbox e
    split
    · exact .next h1
    · split
      · exact .next h1.opFail.voidOp.againFrom
      · split
        · exact .ite (.next h1.tableErr) (.next h1)
        · exact .next h1

theorem Completes.dvPageWait {n} (h : Keeps s₀ s) : Completes s₀ (execDvPageWait n s) := by
  unfold execDvPageWait
  split
  · exact .next h
  · rename_i e
    have h1 := h.fromInbox e
    split
    · exact .next h1
    · exact .next h1.setConn

theorem Completes.dvPageRetry {n} (h : Keeps s₀ s) : Completes s₀ (execDvPageRetry n s) := by
  unfold execDvPageRetry
  split
  · exact .next h
  · rename_i e
    have h1 := h.fromInbox e
    split
    · exact .next h1
    · refine .ite (.next h1.setConn) ?_
      split
      · exact .next h1.setConn.opFail.voidOp.setConn.againFrom.event
      · exact .next h1.setConn

theorem Keeps.dvResend {origin cn} (h : Keeps s₀ s) : Keeps s₀ (s.dvResend origin cn) := by
  unfold State.dvResend
  dsimp only
  split
  · exact h
  · exact h.setConn.againFrom.window

theorem Completes.rtoExpire {origin cn} (h : Keeps s₀ s) : Completes s₀ (execRtoExpire origin cn s) := by
  unfold execRtoExpire
  dsimp only
  split
  · exact .next h
  · exact .ite (.next h) (.ite (.next (.ite h.setConn.event.detect.connEnd h.setConn.event.detect)) (.next
      h.setConn.again))

theorem Keeps.dvReadAgain {origin cn psn} (h : Keeps s₀ s) : Keeps s₀ (s.dvReadAgain origin cn psn) := by
  refine .ite h ?_
  split
  · exact h
  · split
    · exact h
    · exact h.setOp.connSend

theorem Keeps.beatConnsReset (h : Keeps s₀ s) : Keeps s₀ s.beatConnsReset := h.update

theorem Keeps.connsLost {mid} (h : Keeps s₀ s) : Keeps s₀ (s.connsLost mid) := h.foldl (fun _ _ h => .ite h.connEnd h)

/-! ### The Ethernet scheduler -/

theorem Keeps.setQueue {k g} (h : Keeps s₀ s) : Keeps s₀ (s.setQueue k g) := h.update.setRg.setRg.setRg.setRg

theorem Keeps.toEgress {w} (h : Keeps s₀ s) : Keeps s₀ (s.toEgress w) := h.update

theorem Keeps.egressOne {n w} (h : Keeps s₀ s) : Keeps s₀ (s.egressOne n w) := by
  unfold State.egressOne
  refine .ite h.update.incRg (.ite ?_ (.ite (.ite h.update.satRg.incRg h) ?_))
  · dsimp only
    split
    · exact .endDesc (.ite h.update.incRg.incRg h.update.incRg)
    · exact .ite h.update.incRg.incRg h.update.incRg
  · dsimp only
    split
    · exact h.update.setQueue.endDesc
    · exact h.update.setQueue

theorem Completes.egressEnqueue {n} (h : Keeps s₀ s) : Completes s₀ (execEgressEnqueue n s) := by
  unfold execEgressEnqueue
  split
  · exact .next h
  · exact .ite (.next h) (.next h.egressOne)

theorem Keeps.portDrop {p} (h : Keeps s₀ s) : Keeps s₀ (s.portDrop p) := h.foldl (fun _ _ h => h.incRg.setQueue)

theorem Completes.schedDecision {p} (h : Keeps s₀ s) : Completes s₀ (execSchedDecision p s) := by
  unfold execSchedDecision
  extract_lets _ s1
  have h1 : Keeps s₀ s1 := h.foldl (fun _ _ h => h.setQueue)
  refine .ite (.next h) ?_
  split
  · exact .next h1
  · dsimp only
    split
    · exact .next h1
    · exact .next (.emit (.setQueue (.update (.ite h1 h1.setRg))))

theorem Completes.frameTxDone {p} (h : Keeps s₀ s) : Completes s₀ (execFrameTxDone p s) := by
  unfold execFrameTxDone
  split
  · exact .next h
  · exact .next (.incRg (.incRg (.ite h.update.setQueue h.update)))

theorem Keeps.refillQueue {k} (h : Keeps s₀ s) : Keeps s₀ (s.refillQueue k) := .ite h (.ite h.setQueue h.setQueue)

theorem Completes.shaperRefill (h : Keeps s₀ s) : Completes s₀ (execShaperRefill s) :=
  .next (.update (h.foldl (fun _ _ h => h.refillQueue)))

theorem Completes.shpBurstWrite {p q burst mode fill} (h : Keeps s₀ s) :
    Completes s₀ (execShpBurstWrite p q burst mode fill s) :=
  .next h.writeFld.writeFld.setQueue

theorem Keeps.fallback {k m} (h : Keeps s₀ s) : Keeps s₀ (s.fallback k m) :=
  .ite h (.event (.ite h.setRg h.setRg.setQueue))

theorem Completes.policerPenWrite {p m unit pen rate} (h : Keeps s₀ s) :
    Completes s₀ (execPolicerPenWrite p m unit pen rate s) := by
  unfold execPolicerPenWrite
  extract_lets _ _ _ s1 _ s2 s3
  have h1 : Keeps s₀ s1 := h.setRg.setRg.setRg
  have h2 : Keeps s₀ s2 := .ite h1.update (.ite h1 h1.update)
  exact .next (.fallback (.ite h2.fallback h2))

/-! ### RoCEv2 -/

theorem Keeps.setEconn {k c} (h : Keeps s₀ s) : Keeps s₀ (s.setEconn k c) := h.update

theorem Keeps.ctxState {k st} (h : Keeps s₀ s) : Keeps s₀ (s.ctxState k st) := h.writeN.setEconn

theorem Keeps.ceEcho {k} (h : Keeps s₀ s) : Keeps s₀ (s.ceEcho k) := h.writeN

theorem Keeps.ecnt {j} (h : Keeps s₀ s) : Keeps s₀ (s.ecnt j) := h.incRg

theorem Keeps.ctxOpen {k} (h : Keeps s₀ s) : Keeps s₀ (s.ctxOpen k).1 :=
  .ite_fst h (.ite_fst h h.setEconn.writeN.ctxState)

theorem Keeps.eopEndAt {k o cause n} (h : Keeps s₀ s) : Keeps s₀ (s.eopEndAt k o cause n) := h.setEconn.update

theorem Keeps.eopEnd {k o cause} (h : Keeps s₀ s) : Keeps s₀ (s.eopEnd k o cause) := h.eopEndAt

theorem Keeps.econnEnd {k cause} (h : Keeps s₀ s) : Keeps s₀ (s.econnEnd k cause) :=
  (h.foldl (fun _ _ h => h.eopEnd)).setEconn

theorem Keeps.ectxFail {k cause} (h : Keeps s₀ s) : Keeps s₀ (s.ectxFail k cause) :=
  h.econnEnd.ctxState.sqRaise.setRg.setRg.event

theorem Keeps.ctxClose {k} (h : Keeps s₀ s) : Keeps s₀ (s.ctxClose k).1 := .ite_fst h h.econnEnd.ctxState.update

theorem Keeps.ctxClear {k} (h : Keeps s₀ s) : Keeps s₀ (s.ctxClear k).1 := .ite_fst h h.ctxState.update

theorem Keeps.ctxCmd {op k} (h : Keeps s₀ s) : Keeps s₀ (s.ctxCmd op k).1 := by
  unfold State.ctxCmd
  split
  · exact h.ctxOpen
  · exact h.ctxClose
  · exact h.ctxClear

theorem Keeps.ctxReg {op k} (h : Keeps s₀ s) : Keeps s₀ (s.ctxReg op k) := h.setRg.ctxCmd.setRg

theorem Keeps.egressPkt {c ctrl f} (h : Keeps s₀ s) : Keeps s₀ (s.egressPkt c ctrl f) := h.ecnt.toEgress

theorem Keeps.udpSend {k p} (h : Keeps s₀ s) : Keeps s₀ (s.udpSend k p) := h.egressPkt

theorem Keeps.roceAck {k syndrome psn} (h : Keeps s₀ s) : Keeps s₀ (s.roceAck k syndrome psn) := h.egressPkt

theorem Keeps.roceUnsup {k psn} (h : Keeps s₀ s) : Keeps s₀ (s.roceUnsup k psn) := h.drawn.roceAck.ectxFail.ecnt

theorem Keeps.purge {q n} (h : Keeps s₀ s) : Keeps s₀ (s.purge q n) := by
  induction n generalizing s with
  | zero => exact h
  | succ n ih =>
    unfold State.purge
    split
    · exact h
    · dsimp only
      split
      · exact ih h.update.ecnt
      · exact ih h.update.roceUnsup
      · exact h

theorem Keeps.toTransport {q port f start} (h : Keeps s₀ s) : Keeps s₀ (s.toTransport q port f start) := h.update.purge

theorem Keeps.fromTq {q roce ops} (h : Keeps s₀ s) : Keeps s₀ (s.fromTq q roce ops).1 := by
  unfold State.fromTq
  dsimp only
  split
  · exact h.purge
  · split
    · exact .ite_fst h.purge.update h.purge
    · exact h.purge

theorem Keeps.regionWrite {fn key off bs} (h : Keeps s₀ s) : (s.regionWrite fn key off bs).Keeps s₀ := by
  unfold State.regionWrite
  split
  · exact trivial
  · split
    · exact trivial
    · exact h.applyWrite

theorem Keeps.dropBuf {k} (h : Keeps s₀ s) : Keeps s₀ (s.dropBuf k) := by
  unfold State.dropBuf
  dsimp only
  split
  · exact h
  · split
    · exact h.setEconn
    · exact .ite h.setEconn h.setEconn.setDesc

theorem Keeps.eack {k} (h : Keeps s₀ s) : Keeps s₀ (s.eack k) := .ite h.setEconn.roceAck h.setEconn.udpSend

theorem Keeps.readResp {k p bs} (h : Keeps s₀ s) : Keeps s₀ (s.readResp k p bs) := h.foldl (fun _ _ h => h.udpSend)

theorem Applied.Keeps.regionRead {fn key off len a} (e : s.regionRead fn key off len = .inl a) : a.Keeps s₀ := by
  unfold State.regionRead at e
  split at e
  · cases e
    trivial
  · split at e
    · cases e
      trivial
    · exact .remoteRead e

theorem Keeps.sendPiece {k first last bs a} (h : Keeps s₀ s) (e : s.sendPiece k first last bs = some a) : a.Keeps s₀ :=
    by
  unfold State.sendPiece at e
  dsimp only at e
  split at e
  · cases e
  · split at e
    · cases e
    · split at e
      · cases e
        trivial
      · cases e
        exact h.localWrite.setDesc.setEconn

theorem Keeps.eapply {k p} (h : Keeps s₀ s) : (s.eapply k p).Keeps s₀ := by
  unfold State.eapply
  dsimp only
  split
  · exact h
  · split
    · exact h.regionWrite
    · split
      · rename_i e
        exact .regionRead e
      · exact h.readResp.drawn
    · split
      · trivial
      · rename_i e
        exact h.sendPiece e

theorem Keeps.eadvance {k n} (h : Keeps s₀ s) : Keeps s₀ (s.eadvance k n) := by
  induction n generalizing s with
  | zero => exact h
  | succ n ih =>
    unfold State.eadvance
    extract_lets _
    split
    · exact h
    · extract_lets pass
      have hpass {s done} (h : Keeps s₀ s) : Keeps s₀ (pass s done) :=
        .ite (.eack (.ite h.setEconn.ecnt h.setEconn)) (.ite h.setEconn.ecnt h.setEconn)
      split
      · rename_i e
        exact ih (hpass (h.eapply.ok e))
      · exact .ite (ih (hpass h.udpSend)) h.dropBuf.setEconn.udpSend
      · exact h.setEconn.udpSend.emit
      · exact .ite h.setEconn.ecnt h.setEconn

theorem Keeps.eaccept {k p} (h : Keeps s₀ s) : Keeps s₀ (s.eaccept k p) :=
  .ite h.ecnt.eack (.ite h (.ite h.setEconn.eadvance h.setEconn.eack))

theorem Keeps.erequest {k ce p} (h : Keeps s₀ s) : Keeps s₀ (s.erequest k ce p) := by
  refine .ite h ?_
  split
  · exact .ite h.eaccept (.ite h.udpSend h)
  · exact h.eaccept

theorem Keeps.takeUdp {q op} (h : Keeps s₀ s) : Keeps s₀ (s.takeUdp q op) := by
  unfold State.takeUdp
  split
  · rename_i e
    exact h.fromTq.of_eq e
  · rename_i e
    exact (h.fromTq.of_eq e).erequest

theorem Completes.udpWrite {q} (h : Keeps s₀ s) : Completes s₀ (execUdpWrite q s) := .next h.takeUdp

theorem Completes.udpRead {q} (h : Keeps s₀ s) : Completes s₀ (execUdpRead q s) := .next h.takeUdp

theorem Completes.udpSend {q} (h : Keeps s₀ s) : Completes s₀ (execUdpSend q s) := .next h.takeUdp

theorem Keeps.esend {k p} (h : Keeps s₀ s) : Keeps s₀ (s.esend k p) := .ite h.egressPkt h.udpSend

theorem Keeps.eagain {k p} (h : Keeps s₀ s) : Keeps s₀ (s.eagain k p) := h.ecnt.esend

theorem Keeps.ewindow {k n} (h : Keeps s₀ s) : Keeps s₀ (s.ewindow k n) := by
  induction n generalizing s with
  | zero => exact h
  | succ n ih =>
    unfold State.ewindow
    dsimp only
    split
    · exact h
    · exact .ite h (ih h.setEconn.esend)

theorem Keeps.epush {k ps} (h : Keeps s₀ s) : Keeps s₀ (s.epush k ps) := (h.foldl (fun _ _ h => h.setEconn)).ewindow

theorem Keeps.ethStart {k kind off len rkey data sink owner} (h : Keeps s₀ s) :
    Keeps s₀ (s.ethStart k kind off len rkey data sink owner) :=
  .ite h.setEconn.epush h.setEconn.epush

theorem Keeps.setEop {k o} (h : Keeps s₀ s) : Keeps s₀ (s.setEop k o) := h.setEconn

theorem Keeps.eopStep {k o} (h : Keeps s₀ s) : Keeps s₀ (s.eopStep k o) := .ite h.setEop.eopEnd h.setEop

theorem Keeps.ecovered {k psn} (h : Keeps s₀ s) : Keeps s₀ (s.ecovered k psn) := by
  unfold State.ecovered
  split
  · exact h
  · exact h.eopStep

theorem Keeps.eprogress {k new rest} (h : Keeps s₀ s) : Keeps s₀ (s.eprogress k new rest) :=
  .foldl (.ite h h.setEconn) (fun _ _ h => h.ecovered)

theorem Completes.udpAck {q} (h : Keeps s₀ s) : Completes s₀ (execUdpAck q s) := by
  unfold execUdpAck
  split
  · rename_i e
    exact .next (h.fromTq.of_eq e)
  · rename_i e
    have h1 := h.fromTq.of_eq e
    exact .next (.ewindow (.foldl (.setEconn (.eprogress (.ite h1.ceEcho h1))) (fun _ _ h => h.eagain)))

theorem Completes.udpReadResp {q} (h : Keeps s₀ s) : Completes s₀ (execUdpReadResp q s) := by
  unfold execUdpReadResp
  split
  · rename_i e
    exact .next (h.fromTq.of_eq e)
  · rename_i e
    have h1 := h.fromTq.of_eq e
    split
    · exact .next h1
    · refine .ite (.next h1.eopEnd) (.next (.eopStep ?_))
      split
      · exact h1.storeSink
      · exact h1

theorem Completes.udpPageWait {q} (h : Keeps s₀ s) : Completes s₀ (execUdpPageWait q s) := by
  unfold execUdpPageWait
  split
  · rename_i e
    exact .next (h.fromTq.of_eq e)
  · rename_i e
    exact .next (h.fromTq.of_eq e).setEconn

theorem Keeps.erenumber {k psn opid} (h : Keeps s₀ s) : Keeps s₀ (s.erenumber k psn opid) := h.setEconn.ewindow

theorem Keeps.evoid {k opid} (h : Keeps s₀ s) : Keeps s₀ (s.evoid k opid) := h.setEconn

theorem Keeps.eagainFrom {k psn} (h : Keeps s₀ s) : Keeps s₀ (s.eagainFrom k psn) := h.foldl (fun _ _ h => h.eagain)

theorem Completes.udpPageRetry {q} (h : Keeps s₀ s) : Completes s₀ (execUdpPageRetry q s) := by
  unfold execUdpPageRetry
  split
  · rename_i e
    exact .next (h.fromTq.of_eq e)
  · rename_i e
    have h1 := h.fromTq.of_eq e
    refine .ite (.next h1.setEconn) ?_
    split
    · exact .next h1.setEconn.eopEndAt.evoid.setEconn.eagainFrom
    · exact .next h1.setEconn

theorem Completes.udpNackErr {q} (h : Keeps s₀ s) : Completes s₀ (execUdpNackErr q s) := by
  unfold execUdpNackErr
  split
  · rename_i e
    exact .next (h.fromTq.of_eq e)
  · rename_i e
    have h1 := h.fromTq.of_eq e
    split
    · exact .next h1.eopEndAt.evoid.eagainFrom
    · exact .next h1

theorem Keeps.eread {k psn} (h : Keeps s₀ s) : Keeps s₀ (s.eread k psn) := by
  unfold State.eread
  dsimp only
  split
  · exact h
  · refine .ite ?_ h.setEop.epush
    split
    · exact h
    · exact h.eagain

theorem Completes.rtoExpireE {k} (h : Keeps s₀ s) : Completes s₀ (execRtoExpireE k s) := by
  refine .ite (.next h) ?_
  split
  · split
    · exact .next h
    · exact .ite (.next h.ectxFail) (.next h.setEconn.eread)
  · exact .ite (.next h.ectxFail) (.ite (.next (h.setEconn.foldl (fun _ _ h => .ite h.eread h.eagain))) (.next
      h.setEconn.eagain))

theorem Keeps.cnp {k ce} (h : Keeps s₀ s) : Keeps s₀ (s.cnp k ce) := .ite h.setEconn.egressPkt.ecnt h

theorem Keeps.roceTurn {k p} (h : Keeps s₀ s) (e : s.roceTurn k p = some t) : Keeps s₀ t := by
  unfold State.roceTurn at e
  dsimp only at e
  split at e
  · cases e
    exact h
  · split at e
    · cases e
    · split at e
      · cases e
        exact h.ecnt.eack
      · split at e
        · cases e
          exact h
        · cases e
          exact h.setEconn.roceAck

theorem Keeps.rocePass {k ce last n} (h : Keeps s₀ s) : Keeps s₀ (s.rocePass k ce last n) := h.setEconn.ecnt.cnp

theorem Keeps.roceSoon {k last} (h : Keeps s₀ s) : Keeps s₀ (s.roceSoon k last) := .ite h.eack h

theorem Keeps.roceRefuse {k code} (h : Keeps s₀ s) : Keeps s₀ (s.roceRefuse k code) := h.dropBuf.setEconn.roceAck

theorem Completes.roceSend {q} (h : Keeps s₀ s) : Completes s₀ (execRoceSend q s) := by
  unfold execRoceSend
  split
  · rename_i e
    exact .next (h.fromTq.of_eq e)
  · rename_i e
    have h1 := h.fromTq.of_eq e
    split
    · rename_i e
      exact .next (h1.roceTurn e)
    · refine .ite (.next h1.roceRefuse) ?_
      split
      · exact .next h1.setEconn.roceAck.ecnt
      · rename_i e
        exact .next (Keeps.rocePass (h1.sendPiece e)).roceSoon
      · exact .next h1.roceRefuse

theorem Completes.roceRdmaWrite {q} (h : Keeps s₀ s) : Completes s₀ (execRoceRdmaWrite q s) := by
  unfold execRoceRdmaWrite
  split
  · rename_i e
    exact .next (h.fromTq.of_eq e)
  · rename_i e
    have h1 := h.fromTq.of_eq e
    split
    · rename_i e
      exact .next (h1.roceTurn e)
    · refine .ite (.next h1.roceRefuse) (.ite (.next h1.roceRefuse) ?_)
      split
      · rename_i e
        refine .next (.roceSoon (.rocePass (.setEconn (Applied.Keeps.ok ?_ e))))
        split
        · exact h1
        · exact h1.regionWrite
      · exact .next h1.roceRefuse
      · exact .next h1.emit
      · exact .next h

theorem Keeps.roceResp {k psn bs} (h : Keeps s₀ s) : Keeps s₀ (s.roceResp k psn bs) :=
  h.foldl (fun _ _ h => h.egressPkt)

theorem Completes.roceRdmaReadRequest {q} (h : Keeps s₀ s) : Completes s₀ (execRoceRdmaReadRequest q s) := by
  unfold execRoceRdmaReadRequest
  obtain ⟨ge, hge⟩ : ∃ ge, psnGe = ge := ⟨_, rfl⟩
  rw [hge]
  split
  · rename_i e
    exact .next (h.fromTq.of_eq e)
  · rename_i e
    have h1 := h.fromTq.of_eq e
    extract_lets c old
    split
    · rename_i e
      exact .next (h1.roceTurn (Option.ite_none_left_eq_some.mp e).2)
    · split
      · exact .next (.drawn (.roceResp (.ite h1.ecnt h1.rocePass)))
      · exact .next h1.emit
      · exact .next h
      · exact .next h1.roceRefuse

theorem Keeps.roceAcked {k upTo} (h : Keeps s₀ s) : Keeps s₀ (s.roceAcked k upTo) := h.eprogress.ewindow

theorem Completes.roceReadResponse {q} (h : Keeps s₀ s) : Completes s₀ (execRoceReadResponse q s) := by
  unfold execRoceReadResponse
  split
  · rename_i e
    exact .next (h.fromTq.of_eq e)
  · rename_i e
    have h1 := h.fromTq.of_eq e
    split
    · exact .next h1
    · split
      · exact .next h1
      · refine .ite (.next h1) (.next (.roceAcked (.eopStep ?_)))
        split
        · exact h1.storeSink
        · exact h1

theorem Completes.roceAcknowledge {q} (h : Keeps s₀ s) : Completes s₀ (execRoceAcknowledge q s) := by
  unfold execRoceAcknowledge
  split
  · rename_i e
    exact .next (h.fromTq.of_eq e)
  · rename_i e
    have h1 := h.fromTq.of_eq e
    extract_lets _ s2 _
    have h2 : Keeps s₀ s2 := h1.roceAcked
    refine .ite (.next h1.roceAcked) (.ite ?_ (.ite ?_ ?_))
    · exact .ite (.next h2.ectxFail) (.next h2.setEconn)
    · exact .next (h2.foldl (fun _ _ h => .ite h.eread h.eagain))
    · exact .next h2.ectxFail

theorem Completes.roceCnp {q} (h : Keeps s₀ s) : Completes s₀ (execRoceCnp q s) := by
  unfold execRoceCnp
  split
  · rename_i e
    exact .next (h.fromTq.of_eq e)
  · rename_i e
    exact .next (h.fromTq.of_eq e).ceEcho.ecnt

theorem Completes.roceRnrTimer {k} (h : Keeps s₀ s) : Completes s₀ (execRoceRnrTimer k s) :=
  .ite (.next h) (.next (h.setEconn.foldl (fun _ _ h => .ite h.eread h.eagain)).ewindow)

theorem Keeps.eadvanceWaiting (h : Keeps s₀ s) : Keeps s₀ s.eadvanceWaiting := h.foldl (fun _ _ h => .ite h.eadvance h)

theorem Completes.ackTimer {src origin cn} (h : Keeps s₀ s) : Completes s₀ (execAckTimer src origin cn s) :=
  .ite (.next (.ite h h.eack)) (.next h.dvAckTimer)

theorem Completes.pageResolved {src origin cn} (h : Keeps s₀ s) : Completes s₀ (execPageResolved src origin cn s) :=
  .ite (.next (.ite h.eadvance h)) (.next h.dvPageResolved)

theorem Completes.pageWaitTimeout {src origin cn} (h : Keeps s₀ s) :
    Completes s₀ (execPageWaitTimeout src origin cn s) := by
  unfold execPageWaitTimeout
  refine .ite ?_ (.next h.dvPageTimeout)
  dsimp only
  split
  · exact .next h
  · exact .ite (.next h) (.ite (.next h.eadvance) (.next h.setEconn.udpSend.incRg))

theorem Completes.resendDelayExpire {origin cn} (h : Keeps s₀ s) :
    Completes s₀ (execResendDelayExpire origin cn s) := by
  unfold execResendDelayExpire
  refine .ite ?_ (.next h.dvResend)
  dsimp only
  split
  · exact .next h
  · exact .next h.setEconn.eagainFrom.ewindow

theorem Completes.readRespTimeout {origin cn psn} (h : Keeps s₀ s) :
    Completes s₀ (execReadRespTimeout origin cn psn s) :=
  .ite (.next (.ite h h.eread)) (.next h.dvReadAgain)

/-! ### The domain -/

theorem Keeps.setMembers {ms sb} (h : Keeps s₀ s) : Keeps s₀ (s.setMembers ms sb) :=
  (h.foldl (fun _ _ h => h.setRg.setRg)).setRg

theorem Keeps.showBudget {p} (h : Keeps s₀ s) : Keeps s₀ (s.showBudget p) := h.setRg

theorem Keeps.setTree {delay depth} (h : Keeps s₀ s) : Keeps s₀ (s.setTree delay depth) := h.setRg.setRg.setRg

theorem Keeps.toChildren {ty word} (h : Keeps s₀ s) : Keeps s₀ (s.toChildren ty word) := h.foldl (fun _ _ h => h.symbol)

theorem Keeps.leaveDomain (h : Keeps s₀ s) : Keeps s₀ s.leaveDomain :=
  h.update.setMembers.setTree.setRg.setRg.setRg.setRg.showBudget

theorem Keeps.formCheck (h : Keeps s₀ s) : Keeps s₀ s.formCheck := .ite h.leaveDomain h

theorem Keeps.form (h : Keeps s₀ s) : Keeps s₀ s.form :=
  .ite (.foldl (.setRg (.update (.ite h.leaveDomain h))) (fun _ _ h => h.symbol)) h

theorem Completes.form (h : Keeps s₀ s) : Completes s₀ (execForm s) := .next h.form

theorem Keeps.formSym {port dom founder depth} (h : Keeps s₀ s) : Keeps s₀ (s.formSym port dom founder depth) :=
  .ite (.symbol (.foldl (.setRg (.update (.ite h.leaveDomain h))) (fun _ _ h => h.symbol))) h

theorem Completes.formSymbol {port dom founder depth} (h : Keeps s₀ s) :
    Completes s₀ (execFormSymbol port dom founder depth s) :=
  .next h.formSym

theorem Keeps.enter {i role} (h : Keeps s₀ s) : Keeps s₀ (s.enter i role) :=
  h.update.setRg.setRg.setRg.setMembers.setTree.setRg.setRg.setRg.setRg.setRg.setRg.setRg.showBudget

theorem Keeps.joinedEvent {standby} (h : Keeps s₀ s) : Keeps s₀ (s.joinedEvent standby) := h.event

theorem Keeps.formationClose {info} (h : Keeps s₀ s) : Keeps s₀ (s.formationClose info) := by
  refine .ite h (.ite h.leaveDomain (.ite (.ite h.enter.event h.leaveDomain) ?_))
  split
  · exact h.leaveDomain
  · exact h.enter.joinedEvent

theorem Completes.formationClose {info} (h : Keeps s₀ s) : Completes s₀ (execFormationClose info s) :=
  .next h.formationClose

theorem Keeps.askJoinAt {d} (h : Keeps s₀ s) : Keeps s₀ (s.askJoinAt d) := .ite h.symbol h

theorem Keeps.askJoin (h : Keeps s₀ s) : Keeps s₀ s.askJoin := by
  unfold State.askJoin
  split
  · exact h.askJoinAt
  · exact h

theorem Keeps.joinEnWrite {v} (h : Keeps s₀ s) : Keeps s₀ (s.joinEnWrite v) :=
  .ite h.setRg.update.askJoin h.setRg.formCheck

theorem Completes.joinEnWrite {v} (h : Keeps s₀ s) : Completes s₀ (execJoinEnWrite v s) := .next h.joinEnWrite

theorem Keeps.joinRequest {port dom mid standby depth delay} (h : Keeps s₀ s) :
    Keeps s₀ (s.joinRequest port dom mid standby depth delay) := by
  refine .ite h (.ite h.update (.ite h.update ?_))
  split
  · exact h
  · exact h.update.symbol

theorem Keeps.openTiles (h : Keeps s₀ s) : Keeps s₀ s.openTiles := h.foldl (fun _ _ h => h.setTile)

theorem Keeps.joinSym {m} (h : Keeps s₀ s) : Keeps s₀ (s.joinSym m) := by
  unfold State.joinSym
  split
  · exact h.joinRequest
  · exact .ite (.joinedEvent (.ite h.enter.openTiles h.enter)) h
  · exact .ite h h.update.setRg.setRg.event
  · exact .ite h.update h

theorem Completes.joinSymbol {m} (h : Keeps s₀ s) : Completes s₀ (execJoinSymbol m s) := .next h.joinSym

theorem Keeps.toldJoins (h : Keeps s₀ s) : Keeps s₀ s.toldJoins := .ite h h.update.setMembers.setTree.showBudget

theorem Keeps.takeJoins (h : Keeps s₀ s) : Keeps s₀ s.takeJoins := by
  unfold State.takeJoins
  extract_lets _ _ _ _ s1 s2 s3
  have h1 : Keeps s₀ s1 := h.update.foldl (fun _ _ h => h.emit)
  exact .ite h1 (h1.setMembers.setTree.showBudget.foldl (fun _ _ h => h.emit.emit))

theorem Keeps.joinTick (h : Keeps s₀ s) : Keeps s₀ s.joinTick := .ite h.takeJoins h.toldJoins

theorem Keeps.serveCore {all e} (h : Keeps s₀ s) : Keeps s₀ (s.serveCore all e) := by
  refine .ite h (h.update.foldl (fun _ _ h => ?_))
  split
  · exact h.writeN
  · exact h

theorem Keeps.serveLoads {all} (h : Keeps s₀ s) : Keeps s₀ (s.serveLoads all) := h.foldl (fun _ _ h => h.serveCore)

theorem Keeps.schedule {kind a} (h : Keeps s₀ s) : Keeps s₀ (s.schedule kind a) := h.update.toChildren

theorem Keeps.scheduleSoon {kind} (h : Keeps s₀ s) : Keeps s₀ (s.scheduleSoon kind) := h.schedule

theorem Keeps.mulchTell {kind bs} (h : Keeps s₀ s) : Keeps s₀ (s.mulchTell kind bs) :=
  .ite (h.foldl (fun _ _ h => h.emit)) h.emit

theorem Keeps.ckFail {cause mid} (h : Keeps s₀ s) : Keeps s₀ (s.ckFail cause mid) := by
  unfold State.ckFail
  extract_lets _ count s1 _ s2
  have hcount {s c} (h : Keeps s₀ s) : Keeps s₀ (count s c) :=
    .ite h.setRg.mulchTell.incRg.sqRaise.event h.setRg.mulchTell
  have h1 : Keeps s₀ s1 := .ite h h.setRg
  refine .ite ?_ (.ite h (hcount h.update.setRg).advanceWaiting)
  split
  · exact hcount h1.update
  · exact .ite h1 (hcount h1)

theorem Keeps.haltNow {cause} (h : Keeps s₀ s) : Keeps s₀ (s.haltNow cause) :=
  .ite h h.update.ckFail.setRg.event.serveLoads.advanceWaiting.eadvanceWaiting.dropReplays

theorem Keeps.abortBeat {cause halt} (h : Keeps s₀ s) : Keeps s₀ (s.abortBeat cause halt) := by
  unfold State.abortBeat
  refine .ite h (.ite h.emit (.ite ?_ ?_))
  · dsimp only
    split
    · exact h.update
    · exact h.update.scheduleSoon
  · split
    · exact h.haltNow
    · exact h

theorem Keeps.runWrite {v} (h : Keeps s₀ s) : Keeps s₀ (s.runWrite v) := by
  unfold State.runWrite
  extract_lets s1 _ s2
  have h1 : Keeps s₀ s1 := h.setRg.formCheck
  have h2 : Keeps s₀ s2 := h1.update
  refine .ite h1 (.ite (.ite h2 ?_) (.ite h1.update h1))
  exact .ite (.ite h2.scheduleSoon h2) h2.scheduleSoon

theorem Completes.runWrite {v} (h : Keeps s₀ s) : Completes s₀ (execRunWrite v s) := .next h.runWrite

theorem Keeps.dissolve (h : Keeps s₀ s) : Keeps s₀ s.dissolve := .ite h.emit.leaveDomain h

theorem Completes.dissolve (h : Keeps s₀ s) : Completes s₀ (execDissolve s) := .next h.dissolve

theorem Completes.nextPeriodWrite {us at_} (h : Keeps s₀ s) : Completes s₀ (execNextPeriodWrite us at_ s) :=
  .ite (.next h.setRg.setRg.update.setRg) (.next h.setRg.setRg)

theorem Keeps.tryRestart (h : Keeps s₀ s) : Keeps s₀ s.tryRestart := .ite h.scheduleSoon h

theorem Keeps.tryDone (h : Keeps s₀ s) : Keeps s₀ s.tryDone := by
  refine .ite h (.ite h.abortBeat (.ite (.ite h.update.schedule h) ?_))
  split
  · exact h
  · exact h.update.symbol

theorem Completes.memberDoneReady (h : Keeps s₀ s) : Completes s₀ (execMemberDoneReady s) := .next h.tryDone

theorem Keeps.doneSym {port beat} (h : Keeps s₀ s) : Keeps s₀ (s.doneSym port beat) := .ite h.update.tryDone h

theorem Completes.doneSymbol {port beat} (h : Keeps s₀ s) : Completes s₀ (execDoneSymbol port beat s) := .next h.doneSym

theorem Keeps.tickSym {port beat kind time} (h : Keeps s₀ s) : Keeps s₀ (s.tickSym port beat kind time) :=
  .ite h.update.toChildren h

theorem Completes.tickSymbol {port beat kind time} (h : Keeps s₀ s) :
    Completes s₀ (execTickSymbol port beat kind time s) :=
  .next h.tickSym

theorem Completes.timeDisciplineSend (h : Keeps s₀ s) : Completes s₀ (execTimeDisciplineSend s) :=
  .ite (.next h.update.toChildren) (.next h)

theorem Keeps.timeSym {port time} (h : Keeps s₀ s) : Keeps s₀ (s.timeSym port time) := .ite h.setRg h

theorem Completes.timeSymbol {port time} (h : Keeps s₀ s) : Completes s₀ (execTimeSymbol port time s) := .next h.timeSym

/-! ### Flits and lanes -/

theorem Keeps.resendFlits {d fs} (h : Keeps s₀ s) : Keeps s₀ (s.resendFlits d fs) := h.foldl (fun _ _ h => h.sendFlit)

theorem Keeps.sendNeg {d} (h : Keeps s₀ s) : Keeps s₀ (s.sendNeg d) := h.foldl (fun _ _ h => h.symbol)

theorem Keeps.retrainNeg {d cause} (h : Keeps s₀ s) : Keeps s₀ (s.retrainNeg d cause) := .ite h.retrain.sendNeg h

theorem Keeps.nakSym {d fseq} (h : Keeps s₀ s) : Keeps s₀ (s.nakSym d fseq) :=
  .ite h (.ite h.setPort.satRg.retrainNeg h.setPort.satRg.resendFlits)

theorem Completes.nakSymbol {port fseq} (h : Keeps s₀ s) : Completes s₀ (execNakSymbol port fseq s) := .next h.nakSym

theorem Keeps.creditSym {d vc cum} (h : Keeps s₀ s) : Keeps s₀ (s.creditSym d vc cum) := h.setPort.run

theorem Completes.creditSymbol {port vc cum} (h : Keeps s₀ s) : Completes s₀ (execCreditSymbol port vc cum s) :=
  .next h.creditSym

theorem Keeps.echoed {d mid port seq} (h : Keeps s₀ s) : Keeps s₀ (s.echoed d mid port seq) := by
  unfold State.echoed
  dsimp only
  split
  · exact h
  · exact .ite h.setPort h

theorem Keeps.lstateSym {d mid port up seq} (h : Keeps s₀ s) : Keeps s₀ (s.lstateSym d mid port up seq) :=
  .ite h.echoed h.update.flood.echoed.reroute

theorem Completes.lstateSymbol {port mid of_ up seq} (h : Keeps s₀ s) :
    Completes s₀ (execLstateSymbol port mid of_ up seq s) :=
  .next h.lstateSym

theorem Keeps.hop {mid ty word} (h : Keeps s₀ s) : Keeps s₀ (s.hop mid ty word) := by
  unfold State.hop
  split
  · exact .ite h.symbol h
  · exact h

theorem Completes.probeSend (h : Keeps s₀ s) : Completes s₀ (execProbeSend s) :=
  .ite (.next (h.update.foldl (fun _ _ h => h.hop))) (.next h)

theorem Keeps.probeSym {d target origin tag} (h : Keeps s₀ s) : Keeps s₀ (s.probeSym d target origin tag) :=
  .ite h.symbol h.hop

theorem Completes.probeSymbol {port target origin tag} (h : Keeps s₀ s) :
    Completes s₀ (execProbeSymbol port target origin tag s) :=
  .next h.probeSym

theorem Keeps.replySym {target origin tag} (h : Keeps s₀ s) : Keeps s₀ (s.replySym target origin tag) :=
  .ite h.update h.hop

theorem Completes.probeReply {port target origin tag} (h : Keeps s₀ s) :
    Completes s₀ (execProbeReply port target origin tag s) :=
  .ite (.next h.replySym) (.next h)

theorem Completes.probeTimeout {mid} (h : Keeps s₀ s) : Completes s₀ (execProbeTimeout mid s) :=
  .ite (.next h.update) (.next h)

theorem Completes.routeSwap (h : Keeps s₀ s) : Completes s₀ (execRouteSwap s) := .next h.update

theorem Keeps.routeTick (h : Keeps s₀ s) : Keeps s₀ s.routeTick :=
  .foldl (.ite h.update.setRg h) (fun _ _ h => .ite h.setPort h)

theorem Keeps.laneOut {d lane check} (h : Keeps s₀ s) : Keeps s₀ (s.laneOut d lane check) :=
  .ite h.countReport.logPair.retireLane h

theorem Completes.laneLockLost {port lane} (h : Keeps s₀ s) : Completes s₀ (execLaneLockLost port lane s) :=
  .ite (.next h.setPort) (.ite (.next h.setPort) (.next h.laneOut))

theorem Completes.laneCeWindow {port} (h : Keeps s₀ s) : Completes s₀ (execLaneCeWindow port s) := by
  unfold execLaneCeWindow
  extract_lets _ top s1 s2
  have h2 : Keeps s₀ s2 := (h.foldl (fun _ _ h => h.setRg)).setPort
  clear_value top
  split
  · exact .next h2.laneOut
  · exact .next h2

theorem Keeps.dropSym {d mask confirm} (h : Keeps s₀ s) : Keeps s₀ (s.dropSym d mask confirm) :=
  .ite h (.ite (.retireLink (.setPort (.ite h h.symbol))) (.linkSet (.setPort (.ite h h.symbol))))

theorem Completes.laneDropSymbol {port mask confirm} (h : Keeps s₀ s) :
    Completes s₀ (execLaneDropSymbol port mask confirm s) :=
  .next h.dropSym

theorem Completes.laneDeskewDone {port} (h : Keeps s₀ s) : Completes s₀ (execLaneDeskewDone port s) := by
  refine .ite ?_ (.next h)
  split
  · exact .next h.setPort.resendFlits.run
  · exact .next h.setPort.resendFlits.run.laneOut

theorem Keeps.negSym {d i w} (h : Keeps s₀ s) : Keeps s₀ (s.negSym d i w) :=
  .ite (.ite h.setPort.linkSet.sendNeg h.setPort) h

theorem Completes.negSymbol {port idx word} (h : Keeps s₀ s) : Completes s₀ (execNegSymbol port idx word s) :=
  .next h.negSym

theorem Completes.linkSignalDetect {port} (h : Keeps s₀ s) : Completes s₀ (execLinkSignalDetect port s) :=
  .ite (.ite (.next h.setPort.linkSet) (.ite (.next h.linkSet.sendNeg) (.next h))) (.next h)

theorem Keeps.linkComesUp {d delay lanes} (h : Keeps s₀ s) : Keeps s₀ (s.linkComesUp d delay lanes) := by
  unfold State.linkComesUp
  extract_lets _ _ _ _ _ _ _ s1 s2 s3 s4 s5 s6 s7
  have h3 : Keeps s₀ s3 := h.setPort.setRg.setRg.setRg.setRg.setRg.setRg.setRg.linkSet.event
  have h5 : Keeps s₀ s5 := (h3.foldl (fun _ _ h => h.symbol)).foldl (fun _ _ h => h.symbol)
  exact .run (.ite h5.lstate.askJoinAt h5.lstate)

theorem Keeps.negFail {d code} (h : Keeps s₀ s) : Keeps s₀ (s.negFail d code) := h.setPort.setRg.linkSet.event

theorem Completes.negotiationComplete {port delay} (h : Keeps s₀ s) :
    Completes s₀ (execNegotiationComplete port delay s) :=
  .ite (.ite (.next h.negFail) (.ite (.next h.negFail) (.ite (.next h.negFail) (.next h.linkComesUp)))) (.next h)

theorem Completes.linkTimeout {port} (h : Keeps s₀ s) : Completes s₀ (execLinkTimeout port s) := .next h.retrainNeg

theorem Completes.retrain {port} (h : Keeps s₀ s) : Completes s₀ (execRetrain port s) := .next h.retrainNeg

theorem Completes.retrainTimeout {port} (h : Keeps s₀ s) : Completes s₀ (execRetrainTimeout port s) :=
  .ite (.ite (.next h.setPort.countReport.logPair.retireLink) (.next h.setPort.satRg.sendNeg)) (.next h)

theorem Keeps.actSym {d w} (h : Keeps s₀ s) : Keeps s₀ (s.actSym d w) := by
  unfold State.actSym
  extract_lets ty _ s1
  have h1 : Keeps s₀ s1 := .ite h.setPort h
  refine .ite h ?_
  clear_value ty
  split
  · exact h1
  · exact h1.creditSym
  · exact h1.nakSym
  · exact h1.timeSym
  · exact h1.tickSym
  · exact h1.doneSym
  · exact h1.formSym
  · exact h1.joinRequest
  · exact h1.lstateSym
  · exact h1.probeSym
  · exact h1.replySym
  · exact h1.dropSym
  · exact h1.negSym
  · exact h1.satRg

theorem Keeps.passOn {d vc p bs toCome} (h : Keeps s₀ s) : Keeps s₀ (s.passOn d vc p bs toCome) :=
  .enqueue (.ite h h.setPort)

theorem Keeps.unpack {d vc n bs} (h : Keeps s₀ s) : Keeps s₀ (s.unpack d vc n bs).1 := by
  induction n generalizing s bs with
  | zero => exact h
  | succ n ih =>
    unfold State.unpack
    refine .ite_fst h (.ite_fst h (.ite_fst (.ite_fst h (ih h.deliver)) (.ite_fst ?_ (ih ?_))))
    all_goals exact .ite h.passOn (.ite h.satRg.setPort h.satRg)

theorem Keeps.passMore {d vc e n bs} (h : Keeps s₀ s) : Keeps s₀ (s.passMore d vc e n bs) :=
  .ite h.setPort h.setPort.setPort.run

theorem Keeps.takeBody {d vc first body} (h : Keeps s₀ s) : Keeps s₀ (s.takeBody d vc first body) := by
  refine .due (.setPort ?_)
  split
  · exact .unpack (.passMore (.ite h.cutPass.setPort h))
  · exact .unpack (.ite h.cutPass.setPort h)

theorem Keeps.sendNak {d} (h : Keeps s₀ s) : Keeps s₀ (s.sendNak d) := h.setPort.due

theorem Keeps.countFec {d fixed} (h : Keeps s₀ s) : Keeps s₀ (s.countFec d fixed) :=
  (h.wrapCount.foldl (fun _ _ h => h.detect)).setPort

theorem Completes.flitRx {port bytes fixed} (h : Keeps s₀ s) : Completes s₀ (execFlitRx port bytes fixed s) := by
  unfold execFlitRx
  extract_lets _ s1 _ _ _ s2 _ s3 s4 s5 _ s6
  have h2 : Keeps s₀ s2 := .setPort (.ite h.countFec h)
  have h3 : Keeps s₀ s3 := .setPort (.satRg (.ite h2.detect h2))
  have h5 : Keeps s₀ s5 := h2.setPort.actSym
  have h6 : Keeps s₀ s6 := h5.setPort.wrapCount
  refine .ite (.next h) (.ite ?_ ?_)
  · exact .ite (.next h3.retrainNeg) (.next (.run (.ite h3.sendNak h3)))
  · exact .ite (.next h5) (.ite (.ite (.next h6.takeBody.run) (.next (.run (.ite h5 h5.sendNak)))) (.next h5.run))

/-! ### Faults of the units -/

theorem Keeps.chooseSpare {t} (h : Keeps s₀ s) : Keeps s₀ (s.chooseSpare t).1 := h.foldl (fun _ _ h => h.incRg)

theorem Keeps.undoLog {t} (h : Keeps s₀ s) : Keeps s₀ (s.undoLog t) := by
  refine (h.foldl (fun _ _ h => ?_)).setTile
  split
  · exact h.writeB
  · exact h

theorem Keeps.drain {t fault l} (h : Keeps s₀ s) : Keeps s₀ (s.drain t fault l).1 := by
  induction l generalizing s with
  | nil => exact h
  | cons r l ih =>
    unfold State.drain
    exact .ite_fst (ih h) (.ite_fst (ih h) (ih h.writeRows))

theorem Keeps.drainTile {t fault} (h : Keeps s₀ s) : Keeps s₀ (s.drainTile t fault) := h.drain.setTile

theorem Keeps.rerun {t} (h : Keeps s₀ s) : Keeps s₀ (s.rerun t) := h.setTile.setRg

theorem Keeps.setReplay {p} (h : Keeps s₀ s) : Keeps s₀ (s.setReplay p) := h.update

theorem Keeps.haltReport {r} (h : Keeps s₀ s) : Keeps s₀ (s.haltReport r) := .ite h.logFault.update.abortBeat h.logPair

theorem Keeps.replayAbort {p retire} (h : Keeps s₀ s) : Keeps s₀ (s.replayAbort p retire) := by
  unfold State.replayAbort
  extract_lets s1 last logIt
  have hlog {s action spare} (h : Keeps s₀ s) : Keeps s₀ (logIt s action spare) := by
    unfold logIt
    clear_value last
    split
    · exact h.logFault
    · exact h
  have h1 : Keeps s₀ s1 := h.incRg
  refine .ite ?_ (hlog h1).setReplay.abortBeat
  split
  rename_i e
  have h2 := h1.chooseSpare.of_eq e
  split
  · exact (hlog h2).setReplay.retireSoon.abortBeat
  · exact (hlog h2).setReplay.abortBeat

theorem Keeps.tileFault {r} (h : Keeps s₀ s) : Keeps s₀ (s.tileFault r) := by
  unfold State.tileFault
  extract_lets _ _ _ _ _ _ s1 _ s2 _ s3 _ s4 s5 _ _ s6 s7
  have h1 : Keeps s₀ s1 := h.update
  have h2 : Keeps s₀ s2 := h1.logPair
  have h3 : Keeps s₀ s3 := h1.update
  have h5 : Keeps s₀ s5 := .ite h3.update.retireSoon h3.update
  have h7 : Keeps s₀ s7 := h3.logFault.drainTile.undoLog.rerun.incRg
  refine .ite (.ite h2.retireSoon h2) (.ite h1.haltReport ?_)
  split
  · exact h5.replayAbort
  · split
    · exact h3.replayAbort
    · refine .ite h7.setReplay ?_
      split
      rename_i e
      have h8 := (Keeps.ite_fst h3.chooseSpare h3.pair).of_eq e
      split
      · exact h8.logFault.setReplay
      · exact h8.replayAbort

theorem Completes.replayDrainDone {t} (h : Keeps s₀ s) : Completes s₀ (execReplayDrainDone t s) := by
  unfold execReplayDrainDone
  split
  · exact .next h
  · exact .ite (.next h) (.next (.setReplay (.setTile (.ite h.drainTile.undoLog h))))

theorem Keeps.takeOver {p ring} (h : Keeps s₀ s) : Keeps s₀ (s.takeOver p ring) := by
  unfold State.takeOver
  extract_lets _ _ _ s1 s2 s3 s4 s5
  have h2 : Keeps s₀ s2 := by
    refine h.loseRange.foldl (fun _ _ h => ?_)
    split
    · exact .ite h.loseRange h
    · exact h
  have h3 : Keeps s₀ s3 := h2.foldl (fun _ _ h => h.setStream.furrowShow)
  exact .advanceWaiting (.notice (.retireSoon (.setReplay (.ite h3.rerun.incRg h3))))

theorem Completes.spareCopyDone {t e} (h : Keeps s₀ s) : Completes s₀ (execSpareCopyDone t e s) := by
  unfold execSpareCopyDone
  split
  · exact .next h
  · split
    · exact .next h
    · refine .ite (.next h) ?_
      split
      · exact .next h.takeOver.tryRestart
      · exact .ite (.next h.takeOver.tryRestart) (.next h.takeOver.incRg.abortBeat)
      · exact .next h.countReport.haltReport
      · exact .next h.countReport.tileFault

theorem Keeps.failRouter {r i} (h : Keeps s₀ s) : Keeps s₀ (s.failRouter r i) := by
  unfold State.failRouter
  extract_lets _ s1 _ move
  have hmove {s} (h : Keeps s₀ s) : Keeps s₀ (move s) := by
    refine .ite h (.ite h.retireSoon ?_)
    dsimp only
    split
    · exact h.chooseSpare.setReplay
    · exact h.chooseSpare.retireSoon
  have h1 : Keeps s₀ s1 := h.retireRouter
  exact .ite h (.ite (hmove h1).haltReport (hmove h1.logFault).logFault.abortBeat)

theorem Keeps.routerReport {i} (h : Keeps s₀ s) : Keeps s₀ (s.routerReport i) := h.countReport.failRouter

theorem Keeps.correctedReport {unit index sub check addr} (h : Keeps s₀ s) :
    Keeps s₀ (s.correctedReport unit index sub check addr) := by
  unfold State.correctedReport
  extract_lets _ _ s1 _ s2 _
  have h2 : Keeps s₀ s2 := h.countReport.logFault.update
  refine .ite ?_ (.ite ?_ h2)
  · exact .ite h2.update.logPair.retirePc h2.update
  · exact .ite h2.update.failRouter h2.update

theorem Keeps.takeDetection {committed d} (h : Keeps s₀ s) : Keeps s₀ (s.takeDetection committed d) := by
  unfold State.takeDetection
  split
  · exact h.countReport.haltReport
  · exact h.countReport.logFault
  · exact h.correctedReport
  · exact .ite h.countReport.retireSoon.haltReport h.countReport.tileFault
  · exact h.event.abortBeat
  · extract_lets _ s1 s2
    have h2 : Keeps s₀ s2 := .ite h.countReport h.countReport.retirePc
    exact .ite h2.haltReport h2.logPair
  · exact h.correctedReport
  · exact h.correctedReport
  · exact h.correctedReport
  · exact h
  · exact .ite h (.ite h.update.abortBeat h.abortBeat)

theorem Keeps.retireCipher {c parity} (h : Keeps s₀ s) : Keeps s₀ (s.retireCipher c parity) :=
  h.countReport.logPair.setRg.event

theorem Keeps.retireLog {c} (h : Keeps s₀ s) : Keeps s₀ (s.retireLog c) := .ite h.setRg.event.countReport.logPair h

theorem Completes.faultReport {x} (h : Keeps s₀ s) : Completes s₀ (execFaultReport x s) := by
  unfold execFaultReport
  split
  · split
    · exact .next h
    · exact .next h.update.takeDetection
  · exact .next h.correctedReport
  · exact .ite (.next h) (.ite (.next h.checkFails.countReport.retireSoon.haltReport) (.next
      h.checkFails.countReport.tileFault))
  · exact .next h.setCore.countReport.haltReport
  · exact .next h.routerReport
  · exact .next h.retireCipher
  · exact .next h.countReport.logPair
  · exact .next h.retireLog

theorem Completes.seedlingRun {t ok} (h : Keeps s₀ s) : Completes s₀ (execSeedlingRun t ok s) :=
  .ite (.next h) (.ite (.next h.update.incRg) (.ite (.next h.update.incRg.loseRange) (.next (.tileFault (.countReport
    (.incRg (.setRg (.setTile (.ite h.update.incRg.loseRange h.update.incRg.loseRange.update)))))))))

theorem Completes.greenhouseRotate (h : Keeps s₀ s) : Completes s₀ (execGreenhouseRotate s) := by
  unfold execGreenhouseRotate
  refine .ite ?_ (.next h)
  dsimp only
  split
  · exact .next h
  · split
    · exact .next h.chooseSpare
    · exact .next h.chooseSpare.update.setReplay.incRg

theorem Keeps.returnTile {p} (h : Keeps s₀ s) : Keeps s₀ (s.returnTile p) :=
  .ite h.setRg.setRg.setRg.update.setTile.loseRange.setCore.unitReturned h

theorem Keeps.returnLink {d} (h : Keeps s₀ s) : Keeps s₀ (s.returnLink d) := .ite h.setPort.linkSet.unitReturned h

theorem Keeps.returnPc {st pc} (h : Keeps s₀ s) : Keeps s₀ (s.returnPc st pc) :=
  .ite (.unitReturned (.update (.ite h.setRg h.setRg.setRg))) h

theorem Completes.greenhouseResult {kind idx sub pass} (h : Keeps s₀ s) :
    Completes s₀ (execGreenhouseResult kind idx sub pass s) := by
  unfold execGreenhouseResult
  extract_lets _ _ _ s1 s2 ev _ s3
  have hev {s} (h : Keeps s₀ s) : Keeps s₀ (ev s) := h.event
  have h2 : Keeps s₀ s2 := .ite h.update h.update.incRg
  have h3 : Keeps s₀ s3 := h2.incRg.countReport.logPair
  refine .ite (.next h) (.ite (.next (hev ?_)) ?_)
  · split
    · exact h3.retireLink
    · exact h3.retirePc
    · exact h3
  · split
    · exact .next (hev h2.returnTile)
    · exact .next (hev h2.returnLink)
    · exact .next (hev h2.returnPc)

theorem Completes.digestRound (h : Keeps s₀ s) : Completes s₀ (execDigestRound s) :=
  .ite (.next h) (.next (.drawn (.update (.update (.ite (.ite h.incRg.event h.incRg) h)))))

theorem Keeps.pruneBeds {bad home} (h : Keeps s₀ s) : Keeps s₀ (s.pruneBeds bad home) :=
  h.foldl (fun _ _ h => h.update.logPair.emit)

theorem Keeps.pauseBeds {beds beat} (h : Keeps s₀ s) : Keeps s₀ (s.pauseBeds beds beat) :=
  .ite h.update.noticeAll h.update

theorem Completes.digestCompare {m} (h : Keeps s₀ s) : Completes s₀ (execDigestCompare m s) := by
  unfold execDigestCompare
  extract_lets _ s1 _ _ _
  have h1 : Keeps s₀ s1 := h.update.advanceWaiting
  split
  · split
    · dsimp only
      split
      · exact .next h1.update.event.pruneBeds
      · exact .next h1.update.event.pauseBeds.emit
    · exact .next h1
  · exact .ite (.next h1) (.next h1.update.pauseBeds)
  · exact .ite (.next h1) (.next h1.update)
  · exact .next h1
  · exact .ite (.next h1) (.next h1.update)

theorem Completes.sweepEnd {m} (h : Keeps s₀ s) : Completes s₀ (execSweepEnd m s) := by
  unfold execSweepEnd
  extract_lets _ _ _ s1
  have h1 : Keeps s₀ s1 := h.update
  refine .ite (.next h) ?_
  split
  · extract_lets _ _ _ _ s2
    have h2 : Keeps s₀ s2 := .ite h1 h1.pruneBeds
    exact .ite (.next h) (.ite (.next (.emit (.ite h2.noticeAll h2))) (.next h2.event))
  · exact .ite (.next h) (.next h1.noticeAll)
  · exact .ite (.next h) (.next h1.update)
  · exact .ite (.next h) (.next h1)

theorem Completes.mirrorWrite {m} (h : Keeps s₀ s) : Completes s₀ (execMirrorWrite m s) := by
  unfold execMirrorWrite
  split
  · exact .next h.update.emit
  · exact .next h.update
  · exact .next h.update

theorem Completes.mirrorSync (h : Keeps s₀ s) : Completes s₀ (execMirrorSync s) := by
  unfold execMirrorSync
  refine .ite (.next (h.foldl (fun _ _ h => .ite (h.foldl (fun _ _ h => ?_)) h)).setRg) (.next h)
  dsimp only
  split
  · exact h.emit
  · exact h

theorem Keeps.mirrorTick {commit} (h : Keeps s₀ s) : Keeps s₀ (s.mirrorTick commit) := by
  unfold State.mirrorTick
  extract_lets s1 _ s2
  have h1 : Keeps s₀ s1 := .ite (h.foldl (fun _ _ h => h.writeHbm)) h
  exact .ite h1.update.emit h1.update

/-! ### Sieve -/

theorem Keeps.drop {j} (h : Keeps s₀ s) : Keeps s₀ (s.drop j) := h.incRg

theorem Keeps.mark {f ip c} (h : Keeps s₀ s) : Keeps s₀ (s.mark f ip c).1 := by
  unfold State.mark
  dsimp only
  split
  · dsimp only
    exact h.incRg
  · exact .ite_fst (.ite_fst h.drop h) h

theorem Keeps.countFrame {len i} (h : Keeps s₀ s) : Keeps s₀ (s.countFrame len i) := h.writeN

theorem Keeps.mirror {m port start tag f} (h : Keeps s₀ s) : Keeps s₀ (s.mirror m port start tag f) := by
  refine .ite h.drop (.ite ?_ (.ite (.ite h.drop h.update.toEgress) h.toEgress))
  split
  · rename_i e
    exact h.fillBuffer e
  · exact h.drop

theorem Keeps.steer {fn ring port start tag f} (h : Keeps s₀ s) : Keeps s₀ (s.steer fn ring port start tag f) := by
  unfold State.steer
  split
  · rename_i e
    exact h.fillBuffer e
  · exact h.drop

theorem Keeps.dispose {c hash tag start ip f} (h : Keeps s₀ s) : Keeps s₀ (s.dispose c hash tag start ip f) := by
  refine .ite ?_ ?_
  · split
    · exact h.toEgress
    · exact h.steer
    · exact h.toTransport
    · exact h
  · split
    · exact h.drop
    · exact h.toEgress
    · exact h
    · exact h.steer
    · exact .ite h.drop (.ite h.drop h.update)
    · exact h.toTransport

theorem Keeps.takeFrame {p f} (h : Keeps s₀ s) (e : s.takeFrame p = some (t, f)) : Keeps s₀ t := by
  unfold State.takeFrame at e
  split at e
  · cases e
    exact h.update
  · split at e
    · cases e
    · split at e
      · cases e
        exact h.update
      · cases e

theorem Keeps.sieveParity {st i} (h : Keeps s₀ s) : Keeps s₀ (s.sieveParity st i) := h.drop.event.countReport.logPair

theorem Completes.sievePass {p par} (h : Keeps s₀ s) : Completes s₀ (execSievePass p par s) := by
  unfold execSievePass
  extract_lets bad
  split
  · exact .next h
  · rename_i s1 _ e
    have h1 : Keeps s₀ s1 := h.takeFrame e
    split
    · exact .next h1.sieveParity
    · extract_lets _ _ _
      split
      rename_i s2 _ _ _ _ _ e2
      have h2 : Keeps s₀ s2 := by
        refine Keeps.of_eq ?_ e2
        split
        · exact h1.drop.setRg.pair
        · exact h1.pair
      extract_lets s3 _ _ _
      split
      rename_i s4 _ e4
      extract_lets _ s5 s6
      have h5 : Keeps s₀ s5 := (h2.incRg.mark.of_eq e4).foldl (fun _ _ h => h.countFrame)
      have h6 : Keeps s₀ s6 := by
        unfold s6
        split
        · exact h5.mirror
        · exact h5
      clear_value bad
      split
      · exact .next h6.sieveParity
      · exact .next h6.dispose

theorem Completes.frameRx {p bytes phy} (h : Keeps s₀ s) : Completes s₀ (execFrameRx p bytes phy s) :=
  .ite (.next h) (.ite (.next h.drop) (.ite (.next h.drop) (.ite (.next h.drop) (.ite (.next h.drop) (.next
    h.incRg.incRg.update)))))

theorem Completes.sieveGo {mask cfg} (h : Keeps s₀ s) : Completes s₀ (execSieveGo mask cfg s) := by
  unfold execSieveGo
  extract_lets s1 err s2 s3 s4
  have h1 : Keeps s₀ s1 := h.setRg.setRg
  have herr {c i} : Completes s₀ (err c i) := .next h1.setRg.setRg
  have h3 : Keeps s₀ s3 := h1.setRg.setRg.setRg
  refine .ite herr ?_
  split
  · exact herr
  · split
    · exact herr
    · exact .next (.setRg (.ite h3.setRg.setRg h3))

theorem Completes.sieveSwapComplete (h : Keeps s₀ s) : Completes s₀ (execSieveSwapComplete s) :=
  .ite (.next h.setRg.sqRaise) (.next h)

theorem Completes.tableEnWrite {t en units log2} (h : Keeps s₀ s) : Completes s₀ (execTableEnWrite t en units log2 s) :=
  .ite (.ite (.next h) (.ite (.next h.setRg.setRg) (.next h.setRg))) (.ite (.next h.writeFld.writeFld) (.ite (.next
    h.writeFld.writeFld.setRg) (.next h.writeFld.writeFld.setRg.setRg)))

theorem Completes.snap {i clr} (h : Keeps s₀ s) : Completes s₀ (execSnap i clr s) :=
  .next (.ite h.setRg.setRg.setRg.setRg.setRg.writeN h.setRg.setRg.setRg.setRg.setRg)

theorem Keeps.showRates (h : Keeps s₀ s) : Keeps s₀ s.showRates := h.foldl (fun _ _ h => h.setRg)

theorem Completes.portModeWrite {m} (h : Keeps s₀ s) : Completes s₀ (execPortModeWrite m s) :=
  .ite (.next h.setRg.showRates) (.next h)

theorem Completes.portEnWrite {v} (h : Keeps s₀ s) : Completes s₀ (execPortEnWrite v s) :=
  .ite (.next h) (.next (h.setRg.foldl (fun _ _ h => h.setRg.setRg.portDrop)))

theorem Completes.ethPortUp {p} (h : Keeps s₀ s) : Completes s₀ (execEthPortUp p s) :=
  .ite (.next h) (.next h.setRg.setRg.event)

theorem Completes.ethPortDown {p} (h : Keeps s₀ s) : Completes s₀ (execEthPortDown p s) :=
  .ite (.next h) (.next h.setRg.setRg.portDrop.event)

/-! ### The host's rings -/

theorem Completes.ringDoorbell {fn r v} (h : Keeps s₀ s) : Completes s₀ (execRingDoorbell fn r v s) := by
  unfold execRingDoorbell
  split
  · exact .next h
  · exact .ite (.next h.setRing) (.next h)

theorem Completes.doorbellSample {fn r} (h : Keeps s₀ s) : Completes s₀ (execDoorbellSample fn r s) := by
  unfold execDoorbellSample
  split
  · exact .next h
  · split
    · exact .next h
    · exact .ite (.next h) (.ite (.next h.setRing.satRg) (.ite (.next h.setRing) (.ite (.next h.setRing.ringError)
        (.next h.setRing.setRing))))

theorem Completes.eqDoorbell {fn q v} (h : Keeps s₀ s) : Completes s₀ (execEqDoorbell fn q v s) := by
  unfold execEqDoorbell
  split
  · exact .next h
  · exact .ite (.next h.update.setFn.drainQueue) (.next h)

theorem Completes.descriptorFetch {fn r ds} (h : Keeps s₀ s) : Completes s₀ (execDescriptorFetch fn r ds s) := by
  unfold execDescriptorFetch
  split
  · exact .next h
  · refine .ite (.next h) ?_
    split
    · exact .next h.ringError
    · exact .next h.setRing

theorem Keeps.beginDesc {fn r kind op ops} (h : Keeps s₀ s) :
    Keeps s₀ ((s.beginDesc fn r kind op ops).elim id Prod.fst) := by
  unfold State.beginDesc
  split
  · exact h
  · split
    · exact h
    · split
      · exact h
      · dsimp only
        split
        · exact h.endDesc
        · split
          · exact h
          · exact h.setRing

theorem Completes.sendFrame {fn r dma} (h : Keeps s₀ s) : Completes s₀ (execSendFrame fn r dma s) := by
  unfold execSendFrame
  split
  · rename_i e
    exact .next (h.beginDesc.of_inl e)
  · rename_i e
    have h1 := h.beginDesc.of_inr e
    refine .ite (.next h1.endDesc) ?_
    split
    · exact .next h1.endDesc
    · exact .next h1.toEgress

theorem Completes.postBuf {fn r} (h : Keeps s₀ s) : Completes s₀ (execPostBuf fn r s) := by
  unfold execPostBuf
  split
  · rename_i e
    exact .next (h.beginDesc.of_inl e)
  · rename_i e
    have h1 := h.beginDesc.of_inr e
    exact .ite (.next h1.endDesc) (.ite (.next h1.endDesc) (.next h1))

theorem Keeps.xfer {fn r op kind dma} (h : Keeps s₀ s) : Keeps s₀ (s.xfer fn r op kind dma) := by
  unfold State.xfer
  split
  · rename_i e
    exact h.beginDesc.of_inl e
  · rename_i e
    have h1 := h.beginDesc.of_inr e
    refine .ite h1.endDesc (.ite h1.endDesc (.ite h1.endDesc (.ite h1.endDesc ?_)))
    dsimp only
    split
    · exact h1.endDesc
    · exact .ite h1.ethStart h1.dvStart

theorem Completes.xferWrite {fn r dma} (h : Keeps s₀ s) : Completes s₀ (execXferWrite fn r dma s) := .next h.xfer

theorem Completes.xferRead {fn r} (h : Keeps s₀ s) : Completes s₀ (execXferRead fn r s) := .next h.xfer

theorem Completes.xferSend {fn r dma} (h : Keeps s₀ s) : Completes s₀ (execXferSend fn r dma s) := .next h.xfer

theorem Keeps.copyDesc {fn r} (h : Keeps s₀ s) : Keeps s₀ ((s.copyDesc fn r).elim id Prod.fst) := by
  unfold State.copyDesc
  split
  · exact h
  · split
    · rename_i e
      exact h.beginDesc.of_inl e
    · rename_i e
      have h1 := h.beginDesc.of_inr e
      dsimp only
      split
      · exact h1.endDesc
      · split
        · exact h1.endDesc
        · exact h1

theorem Completes.copy {fn r n dma} (h : Keeps s₀ s) : Completes s₀ (execCopy fn r n dma s) := by
  unfold execCopy
  split
  · rename_i e
    exact .next (h.copyDesc.of_inl e)
  · rename_i e
    have h1 := h.copyDesc.of_inr e
    refine .ite (.next h1) ?_
    split
    · exact .next h1.endDesc
    · exact .next (.ite h1.localWrite.setDesc.endDesc h1.localWrite.setDesc)

theorem Keeps.absorb {o} (h : Keeps s₀ s) : Keeps s₀ (s.absorb o) := by
  unfold State.absorb
  split
  · exact h.update.endDesc
  · exact h

theorem Keeps.countEnd {fn pay} (h : Keeps s₀ s) : Keeps s₀ (s.countEnd fn pay) := by
  unfold State.countEnd
  split
  · exact h
  · exact h.update

theorem Keeps.complete {fn r i} (h : Keeps s₀ s) : Keeps s₀ (s.complete fn r i) := by
  unfold State.complete
  split
  · exact h
  · split
    · exact h
    · split
      · exact h
      · exact .ite h (.setRing (.countEnd (.ite h h.record)))

theorem Completes.descriptorComplete {fn r i} (h : Keeps s₀ s) : Completes s₀ (execDescriptorComplete fn r i s) :=
  .next h.absorb.complete

theorem Completes.msixModTimer {fn q} (h : Keeps s₀ s) : Completes s₀ (execMsixModTimer fn q s) := by
  unfold execMsixModTimer
  split
  · exact .next h
  · exact .ite (.next h) (.next h.update.sendMsix)

theorem Completes.msixUnmask {fn v masked addr data} (h : Keeps s₀ s) :
    Completes s₀ (execMsixUnmask fn v masked addr data s) :=
  .ite (.next h) (.ite (.next h.update.update) (.next (.ite h.update.update.emit h.update.update)))

theorem Keeps.setDelivery {d d'} (h : Keeps s₀ s) : Keeps s₀ (s.setDelivery d d') := h.update

theorem Keeps.dropDelivery {d} (h : Keeps s₀ s) : Keeps s₀ (s.dropDelivery d) := h.update.showStaging

theorem Completes.exportDeliver {ch} (h : Keeps s₀ s) : Completes s₀ (execExportDeliver ch s) := by
  unfold execExportDeliver
  split
  · exact .next h
  · refine .ite (.next h) ?_
    split
    · dsimp only
      split
      · exact .next h
      · split
        · exact .next h
        · rename_i e
          exact .next (.ite (h.fillBuffer e).setDelivery (h.fillBuffer e).dropDelivery)
    · exact .ite (.next h.ethStart.dropDelivery) (.next h)
    · exact .next h

/-! ### Management commands -/

theorem Keeps.mrAnswer {slot status res} (h : Keeps s₀ s) : Keeps s₀ (s.mrAnswer slot status res) :=
  h.writeB.update.setRg.record

theorem Keeps.mrSkip {n} (h : Keeps s₀ s) : Keeps s₀ (s.mrSkip n) := by
  induction n generalizing s with
  | zero => exact h
  | succ n ih =>
    unfold State.mrSkip
    split
    · exact h
    · exact .ite (ih h.update.mrAnswer) (.ite h (ih h.mrAnswer))

theorem Keeps.mrReply {slot status res} (h : Keeps s₀ s) : Keeps s₀ (s.mrReply slot status res) := h.mrAnswer.mrSkip

/-- A management request keeps what its effect keeps. -/
theorem Keeps.manage {op fields f} (h : Keeps s₀ s) (hf : ∀ q, Keeps s₀ (f s q).2.1) :
    Keeps s₀ (s.manage op fields f) := by
  unfold State.manage
  split
  · exact h
  · exact .ite h (.ite h.mrReply (.mrReply (.ite (hf _) h)))

theorem Keeps.refuse {status} (h : Keeps s₀ s) : Keeps s₀ (s.refuse status).2.1 := h

theorem Keeps.done (h : Keeps s₀ s) : Keeps s₀ s.done.2.1 := h

theorem Keeps.bar4 {a bs} (h : Keeps s₀ s) : Keeps s₀ (s.bar4 a bs) := h.foldl (fun _ _ h => .ite h.writeB h)

theorem Completes.mrDb {count writes} (h : Keeps s₀ s) : Completes s₀ (execMrDb count writes s) :=
  .ite (.next h) (.next (.mrSkip (.update (h.foldl (fun _ _ h => h.bar4)))))

theorem Keeps.plotClear {p} (h : Keeps s₀ s) : Keeps s₀ (s.plotClear p) := h.setRg.setRg.foldl (fun _ _ h => h.setRg)

theorem Completes.plotCreate (h : Keeps s₀ s) : Completes s₀ (execPlotCreate s) :=
  .next (h.manage (fun _ => .ite_effect h.refuse (.ite_effect h.refuse h.plotClear.setPlot.done)))

theorem Completes.hbmGrant (h : Keeps s₀ s) : Completes s₀ (execHbmGrant s) :=
  .next (h.manage (fun _ => .ite_effect h.refuse (.ite_effect h.update.done h.refuse)))

theorem Completes.ringCreate (h : Keeps s₀ s) : Completes s₀ (execRingCreate s) :=
  .next (h.manage (fun _ => .ite_effect h.refuse (.ite_effect h.refuse (.ite_effect h.refuse h.setRing.done))))

theorem Keeps.delRing {fn r} (h : Keeps s₀ s) : Keeps s₀ (s.delRing fn r) := h.update.showRing

theorem Completes.ringDestroy (h : Keeps s₀ s) : Completes s₀ (execRingDestroy s) := by
  refine .next (h.manage (fun _ => .ite_effect h.refuse ?_))
  split
  · exact h.refuse
  · exact .ite_effect h.delRing.done h.refuse

theorem Completes.ringReset (h : Keeps s₀ s) : Completes s₀ (execRingReset s) := by
  refine .next (h.manage (fun _ => .ite_effect h.refuse ?_))
  split
  · exact h.refuse
  · exact .ite_effect h.setRing.done h.refuse

theorem Completes.eqCreate (h : Keeps s₀ s) : Completes s₀ (execEqCreate s) :=
  .next (h.manage (fun _ => .ite_effect h.refuse (.ite_effect h.refuse (.ite_effect h.refuse h.update.setFn.done))))

theorem Completes.eqDestroy (h : Keeps s₀ s) : Completes s₀ (execEqDestroy s) :=
  .next (h.manage (fun _ => .ite_effect h.refuse (.ite_effect h.refuse h.update.done)))

theorem Completes.streamWrite (h : Keeps s₀ s) : Completes s₀ (execStreamWrite s) :=
  .next (h.manage (fun _ => .ite_effect h.refuse (.ite_effect h.refuse h.setEnt.done)))

theorem Completes.channelSet (h : Keeps s₀ s) : Completes s₀ (execChannelSet s) :=
  .next (h.manage (fun _ => .ite_effect h.refuse h.update.done))

theorem Completes.regionSet (h : Keeps s₀ s) : Completes s₀ (execRegionSet s) := by
  refine .next (h.manage (fun _ => .ite_effect h.refuse (.ite_effect h.refuse ?_)))
  split
  · exact h.refuse
  · exact h.writeN.done

theorem Completes.ctxWrite (h : Keeps s₀ s) : Completes s₀ (execCtxWrite s) :=
  .next (h.manage (fun _ => .ite_effect h.refuse (.ite_effect h.refuse h.writeN.done)))

theorem Keeps.mgmtCtx {op} (h : Keeps s₀ s) : Keeps s₀ (s.mgmtCtx op) := by
  unfold State.mgmtCtx
  split
  · exact h
  · exact .ite (h.manage (fun _ => .ite_effect h.refuse h.ctxCmd)) h

theorem Completes.ctxOpen {k mr} (h : Keeps s₀ s) : Completes s₀ (execCtxOpen k mr s) :=
  .ite (.next h) (.ite (.next h.mgmtCtx) (.next h.ctxReg))

theorem Completes.ctxClose {k mr} (h : Keeps s₀ s) : Completes s₀ (execCtxClose k mr s) :=
  .ite (.next h) (.ite (.next h.mgmtCtx) (.next h.ctxReg))

theorem Completes.ctxClear {k mr} (h : Keeps s₀ s) : Completes s₀ (execCtxClear k mr s) :=
  .ite (.next h) (.ite (.next h.mgmtCtx) (.next h.ctxReg))

theorem Completes.dconnOpen (h : Keeps s₀ s) : Completes s₀ (execDconnOpen s) :=
  .next (h.manage (fun _ => .ite_effect h.refuse (.ite_effect h.refuse (.ite_effect h.refuse h.setConn.done))))

theorem Keeps.dconnClose {k} (h : Keeps s₀ s) : Keeps s₀ (s.dconnClose k) := h.connEnd.update

theorem Completes.dconnClose (h : Keeps s₀ s) : Completes s₀ (execDconnClose s) :=
  .next (h.manage (fun _ => .ite_effect h.refuse (.ite_effect h.dconnClose.done h.refuse)))

/-! ### Stash -/

theorem Keeps.setDrive {d st} (h : Keeps s₀ s) : Keeps s₀ (s.setDrive d st) := .ite h h.setRg.sqRaise

theorem Keeps.showDrives (h : Keeps s₀ s) : Keeps s₀ s.showDrives := h.foldl (fun _ _ h => h.setRg)

theorem Keeps.setQueues {waiting atDrive} (h : Keeps s₀ s) : Keeps s₀ (s.setQueues waiting atDrive) :=
  h.update.showDrives

theorem Keeps.setStashCmd {c} (h : Keeps s₀ s) : Keeps s₀ (s.setStashCmd c) := h.update

theorem Keeps.loseLocal {fn aspace addr n} (h : Keeps s₀ s) : Keeps s₀ (s.loseLocal fn aspace addr n) :=
  .ite h h.drawn.localWrite

theorem Keeps.loseBuffer (h : Keeps s₀ s) : Keeps s₀ s.loseBuffer := h.loseRange

theorem Keeps.stashEnd {id} (h : Keeps s₀ s) : Keeps s₀ (s.stashEnd id) := by
  unfold State.stashEnd
  split
  · exact h
  · exact .ite h (.update (.ite h.update.loseLocal h.update))

theorem Keeps.stashStop {id cause} (h : Keeps s₀ s) : Keeps s₀ (s.stashStop id cause) := by
  unfold State.stashStop
  split
  · exact h
  · exact h.setStashCmd.setQueues.stashEnd

theorem Keeps.pieceEnd {p cause} (h : Keeps s₀ s) : Keeps s₀ (s.pieceEnd p cause) := by
  unfold State.pieceEnd
  extract_lets _ s1 s2
  have h2 : Keeps s₀ s2 := .ite h.setQueues h.setQueues.satRg
  split
  · exact h2
  · exact .ite h2.setStashCmd.stashEnd h2.setStashCmd.stashStop

theorem Keeps.stashAccept {owner user kind b} (h : Keeps s₀ s) : Keeps s₀ (s.stashAccept owner user kind b) := h.update

theorem Keeps.stashRing {fn r kind} (h : Keeps s₀ s) : Keeps s₀ (s.stashRing fn r kind) := by
  unfold State.stashRing
  refine .ite h ?_
  split
  · rename_i e
    exact h.beginDesc.of_inl e
  · rename_i e
    have h1 := h.beginDesc.of_inr e
    dsimp only
    split
    · exact .stashAccept (.update h1)
    · exact .endDesc (.update h1)

theorem Completes.stashRead {fn r} (h : Keeps s₀ s) : Completes s₀ (execStashRead fn r s) :=
  .ite (.next h.stashRing) (.next h)

theorem Completes.stashWrite {fn r} (h : Keeps s₀ s) : Completes s₀ (execStashWrite fn r s) :=
  .ite (.next h.stashRing) (.next h)

theorem Completes.stashZero {fn r} (h : Keeps s₀ s) : Completes s₀ (execStashZero fn r s) :=
  .ite (.next h.stashRing) (.next h)

theorem Completes.stashFlush {fn r} (h : Keeps s₀ s) : Completes s₀ (execStashFlush fn r s) :=
  .ite (.next h.stashRing) (.next h)

theorem Keeps.stashFirmware {owner kind cls force volume aspace addr lba blocks} (h : Keeps s₀ s) :
    Keeps s₀ (s.stashFirmware owner kind cls force volume aspace addr lba blocks) := by
  unfold State.stashFirmware
  dsimp only
  split
  · exact h.stashAccept
  · exact h.update

theorem Keeps.submit {x data} (h : Keeps s₀ s) : Keeps s₀ (s.submit x data) := h.setQueues.emit

theorem Completes.pieceSubmit {d dma} (h : Keeps s₀ s) : Completes s₀ (execPieceSubmit d dma s) := by
  unfold execPieceSubmit
  refine .ite (.next h) ?_
  dsimp only
  split
  · exact .next h
  · split
    · exact .next h
    · refine .ite (.next h) ?_
      split
      · exact .next h.update.pieceEnd
      · exact .next (.submit (.ite h.update.loseBuffer h.update))

theorem Completes.pieceComplete {cmd idx sct sc data par} (h : Keeps s₀ s) :
    Completes s₀ (execPieceComplete cmd idx sct sc data par s) := by
  unfold execPieceComplete
  split
  · refine .ite (.next h.pieceEnd) (.ite (.next h.pieceEnd) (.ite ?_ (.ite ?_ (.ite ?_ (.ite ?_ ?_)))))
    · exact .next h.setRg.setRg.pieceEnd
    · exact .next h.countReport.logPair.pieceEnd
    · exact .ite (.next h) (.next h.loseBuffer.localWrite.incRg.pieceEnd)
    · exact .next h.incRg.pieceEnd
    · exact .next h.pieceEnd
  · exact .next h

theorem Completes.pieceTimeout {cmd idx} (h : Keeps s₀ s) : Completes s₀ (execPieceTimeout cmd idx s) := by
  unfold execPieceTimeout
  split
  · exact .next h
  · exact .ite (.next h) (.next h.setQueues.satRg.emit)

theorem Keeps.pieceFail {ps cause} (h : Keeps s₀ s) : Keeps s₀ (s.pieceFail ps cause) :=
  h.foldl (fun _ _ h => .ite h.pieceEnd h.satRg)

theorem Completes.abortTimeout {d} (h : Keeps s₀ s) : Completes s₀ (execAbortTimeout d s) :=
  .ite (.next h.pieceFail.setDrive.emit) (.next h)

theorem Completes.driveFail {d cause} (h : Keeps s₀ s) : Completes s₀ (execDriveFail d cause s) :=
  .ite (.next h) (.next h.pieceFail.setDrive.event.countReport.logPair)

theorem Completes.driveReady {d x} (h : Keeps s₀ s) : Completes s₀ (execDriveReady d x s) :=
  .ite (.next h) (.next h.setDrive.setRg.setRg.update.pieceFail.event)

theorem Keeps.modeCur {m} (h : Keeps s₀ s) : Keeps s₀ (s.modeCur m) := .ite h h.setRg.event

theorem Keeps.setMode {m} (h : Keeps s₀ s) : Keeps s₀ (s.setMode m) :=
  .ite (.ite h.setRg h.setRg.update) h.setRg.update.modeCur

theorem Completes.stashModeWrite {m} (h : Keeps s₀ s) : Completes s₀ (execStashModeWrite m s) :=
  .ite (.next h) (.next h.setMode)

theorem Completes.stashServiceFlushed (h : Keeps s₀ s) : Completes s₀ (execStashServiceFlushed s) :=
  .ite (.next h) (.next (.modeCur (.update (h.foldl (fun _ _ h => h.emit)))))

theorem Completes.stashAttach {ns} (h : Keeps s₀ s) : Completes s₀ (execStashAttach ns s) := by
  refine .next (h.manage (fun _ => .ite_effect h.refuse (.ite_effect h.refuse ?_)))
  split
  · exact h.setRg.setRg.setRg.setRg.setRg.setRg.setRg.update.done
  · exact h

theorem Completes.stashDetach (h : Keeps s₀ s) : Completes s₀ (execStashDetach s) :=
  .next (h.manage (fun _ => .ite_effect h.refuse (.ite_effect h.refuse (.done (.update (h.foldl (fun _ _ h =>
    h.setRg)))))))

theorem Completes.volumeSet (h : Keeps s₀ s) : Completes s₀ (execVolumeSet s) :=
  .next (h.manage (fun _ => .ite_effect h.refuse (.ite_effect h.refuse (.ite_effect
    h.setRg.setRg.setRg.setRg.setRg.setRg.done (.ite_effect h.refuse (.ite_effect h.refuse
    h.setRg.setRg.setRg.setRg.setRg.setRg.done))))))

theorem Keeps.rescan {found} (h : Keeps s₀ s) : Keeps s₀ (s.rescan found) := by
  refine .foldl (.setRg (.setRg (.update (.ite h.update h)))) (fun _ _ h => ?_)
  split
  · exact h.pieceFail.setDrive
  · exact h.setRg.setRg.setRg.setRg.setDrive

theorem Completes.stashRescan {mr found} (h : Keeps s₀ s) : Completes s₀ (execStashRescan mr found s) :=
  .ite (.next (h.manage (fun _ => .ite_effect h.refuse h.rescan.done))) (.ite (.next h.rescan) (.next h))

theorem Completes.stashIdentify (h : Keeps s₀ s) : Completes s₀ (execStashIdentify s) :=
  .next (h.manage (fun _ => .ite_effect h.refuse (.ite_effect h.refuse h.writeB.done)))

/-! ### Cipher -/

theorem Keeps.setJob {c j} (h : Keeps s₀ s) : Keeps s₀ (s.setJob c j) := h.update

theorem Keeps.assignRing {c key} (h : Keeps s₀ s) : Keeps s₀ (s.assignRing c key) := by
  unfold State.assignRing
  dsimp only
  split
  · exact h
  · split
    · exact h
    · exact h.setRing.update.setJob

theorem Completes.cipherAssign (h : Keeps s₀ s) : Completes s₀ (execCipherAssign s) := by
  unfold execCipherAssign
  split
  · exact .next h
  · refine .ite (.next h) ?_
    split
    · exact .next h.update.setJob
    · dsimp only
      split
      · exact .next (.ite h.assignRing h)
      · exact .next (.ite h.assignRing h)
      · exact .next h

theorem Keeps.endJob {c j state cause n ok} (h : Keeps s₀ s) : Keeps s₀ (s.endJob c j state cause n ok) :=
  .setJob (.ite h.satRg h)

theorem Keeps.units {n} (h : Keeps s₀ s) : Keeps s₀ (s.units n) := h.incRg

/-- A cipher command keeps what its work keeps. -/
theorem Keeps.runJob {c op pay aad f} (h : Keeps s₀ s) (hf : ∀ j a p q, Keeps s₀ (f j a p q)) :
    Keeps s₀ (s.runJob c op pay aad f) := by
  unfold State.runJob
  split
  · exact h
  · dsimp only
    split
    · refine .ite h ?_
      split
      · exact hf _ _ _ _
      · exact h.endJob
    · exact h.endJob

theorem Completes.gcmEnc {c pay aad cut} (h : Keeps s₀ s) : Completes s₀ (execGcmEnc c pay aad cut s) := by
  refine .next (h.runJob (fun _ _ _ _ => ?_))
  split <;> exact h.localWrite.units.endJob

theorem Completes.gcmDec {c pay aad again cut} (h : Keeps s₀ s) : Completes s₀ (execGcmDec c pay aad again cut s) :=
  .next (h.runJob (fun _ _ _ _ => .ite h.units.endJob (.ite h.units.localWrite.units.localWrite.endJob (.ite
    h.units.localWrite.units.localWrite.endJob h.units.localWrite.units.endJob))))

theorem Keeps.macGen {c op pay cut} (h : Keeps s₀ s) : Keeps s₀ (s.macGen c op pay cut) := by
  refine h.runJob (fun _ _ _ _ => ?_)
  split
  · exact h.units.endJob
  · exact h.localWrite.units.endJob

theorem Keeps.macVer {c op pay tag cut} (h : Keeps s₀ s) : Keeps s₀ (s.macVer c op pay tag cut) := by
  refine h.runJob (fun _ _ _ _ => ?_)
  split
  · exact h.units.endJob
  · exact h.endJob
  · exact .ite h.units.endJob h.units.endJob

theorem Completes.gmacGen {c pay cut} (h : Keeps s₀ s) : Completes s₀ (execGmacGen c pay cut s) := .next h.macGen

theorem Completes.gmacVer {c pay tag cut} (h : Keeps s₀ s) : Completes s₀ (execGmacVer c pay tag cut s) :=
  .next h.macVer

theorem Completes.cmacGen {c pay cut} (h : Keeps s₀ s) : Completes s₀ (execCmacGen c pay cut s) := .next h.macGen

theorem Completes.cmacVer {c pay tag cut} (h : Keeps s₀ s) : Completes s₀ (execCmacVer c pay tag cut s) :=
  .next h.macVer

theorem Keeps.lockTo {w} (h : Keeps s₀ s) : Keeps s₀ (s.lockTo w) := h.setRg.incRg

theorem Keeps.lockTake {w} (h : Keeps s₀ s) : Keeps s₀ (s.lockTake w) := h.lockTo.setRg

theorem Keeps.lockFree (h : Keeps s₀ s) : Keeps s₀ s.lockFree := .ite h.update.lockTake.setRg h.update.lockTo

theorem Keeps.lockViol {w} (h : Keeps s₀ s) : Keeps s₀ (s.lockViol w) := .ite h h.satRg

theorem Keeps.lockClaim {w} (h : Keeps s₀ s) : Keeps s₀ (s.lockClaim w) :=
  .ite h (.ite h.lockTake (.ite h.setRg h.lockViol))

theorem Keeps.lockRenew {w} (h : Keeps s₀ s) : Keeps s₀ (s.lockRenew w) := .ite h.lockViol (.ite h h.setRg)

theorem Keeps.lockRelease {w} (h : Keeps s₀ s) : Keeps s₀ (s.lockRelease w) :=
  .ite h.lockViol (.ite h.update h.lockFree)

theorem Completes.claim {w} (h : Keeps s₀ s) : Completes s₀ (execClaim w s) := .ite (.next h) (.next h.lockClaim)

theorem Completes.renew {w} (h : Keeps s₀ s) : Completes s₀ (execRenew w s) := .ite (.next h) (.next h.lockRenew)

theorem Completes.release {w} (h : Keeps s₀ s) : Completes s₀ (execRelease w s) := .ite (.next h) (.next h.lockRelease)

theorem Completes.lockExpire (h : Keeps s₀ s) : Completes s₀ (execLockExpire s) :=
  .ite (.next h) (.next (.event (.lockFree (.ite h.satRg h))))

theorem Keeps.regResult {state cause n} (h : Keeps s₀ s) : Keeps s₀ (s.regResult state cause n) :=
  h.setRg.setRg.setRg.sqRaise

theorem Keeps.cipherGo {w} (h : Keeps s₀ s) : Keeps s₀ (s.cipherGo w) :=
  .ite h.lockViol (.ite h.regResult h.update.setRg)

theorem Completes.cipherGo {w} (h : Keeps s₀ s) : Completes s₀ (execCipherGo w s) := .ite (.next h) (.next h.cipherGo)

theorem Completes.cipherComplete {c parity} (h : Keeps s₀ s) : Completes s₀ (execCipherComplete c parity s) := by
  unfold execCipherComplete
  extract_lets _ s1
  have h1 : Keeps s₀ s1 := h.update.incRg
  split
  · exact .next h
  · split
    · exact .next h
    · extract_lets _ s2 s3 s4
      have h3 : Keeps s₀ s3 := .setRg (.regResult (.ite h1.setRg h1))
      have h4 : Keeps s₀ s4 := by
        unfold s4
        split
        · exact h1.endDesc.complete
        · exact .ite h3.lockFree h3
      exact .next (.ite h4.retireCipher h4)

theorem Keeps.sign {w} (h : Keeps s₀ s) : Keeps s₀ (s.sign w) :=
  .ite h.lockViol (.ite h (h.foldl (fun _ _ h => h.setRg)))

theorem Completes.sign {w} (h : Keeps s₀ s) : Completes s₀ (execSign w s) := .ite (.next h) (.next h.sign)

theorem Completes.labelSet (h : Keeps s₀ s) : Completes s₀ (execLabelSet s) :=
  .next (h.manage (fun _ => .ite_effect h.refuse h.writeB.done))

/-! ### The Cloche -/

theorem Keeps.setCloche {c} (h : Keeps s₀ s) : Keeps s₀ (s.setCloche c) := h.update

theorem Keeps.beginFrame {fs} (h : Keeps s₀ s) : Keeps s₀ (s.beginFrame fs) := h.update.emit

theorem Completes.countFrameSend (h : Keeps s₀ s) : Completes s₀ (execCountFrameSend s) :=
  .ite (.next h) (.next h.beginFrame)

theorem Completes.countRefresh (h : Keeps s₀ s) : Completes s₀ (execCountRefresh s) :=
  .ite (.next h) (.next h.beginFrame)

theorem Completes.intervalClose (h : Keeps s₀ s) : Completes s₀ (execIntervalClose s) :=
  .ite (.next h.setCloche) (.next h)

theorem Completes.countFrame {bad} (h : Keeps s₀ s) : Completes s₀ (execCountFrame bad s) := by
  unfold execCountFrame
  split
  · exact .next h
  · exact .ite (.next h.update) (.ite (.next h.update.setCloche) (.next h.update.setCloche))

theorem Completes.energySample {es range} (h : Keeps s₀ s) : Completes s₀ (execEnergySample es range s) :=
  .ite (.next h) (.next h.setCloche)

theorem Completes.clReset (h : Keeps s₀ s) : Completes s₀ (execClReset s) := .next h.setCloche

theorem Completes.vclLow (h : Keeps s₀ s) : Completes s₀ (execVclLow s) := .next h.setCloche

theorem Completes.clProgEn {word} (h : Keeps s₀ s) : Completes s₀ (execClProgEn word s) :=
  .ite (.next h.setCloche) (.next h)

theorem Completes.clocheRestart {cfw} (h : Keeps s₀ s) : Completes s₀ (execClocheRestart cfw s) :=
  .ite (.next h) (.next h.setCloche)

theorem Completes.recordFrameSend (h : Keeps s₀ s) : Completes s₀ (execRecordFrameSend s) := by
  unfold execRecordFrameSend
  refine .ite (.next h) (.ite (.next h.setCloche) ?_)
  split
  · exact .next h.setCloche
  · dsimp only
    split
    · exact .next h.setCloche
    · exact .next h

theorem Keeps.setAlive {v} (h : Keeps s₀ s) : Keeps s₀ (s.setAlive v) := .ite h h.setRg.sqRaise.event

theorem Keeps.takeWire {ty bad} (h : Keeps s₀ s) : Keeps s₀ (s.takeWire ty bad).1 := by
  unfold State.takeWire
  split
  · exact h
  · exact .ite_fst h (.ite_fst h.setCloche.pair (.ite_fst h.setCloche.satRg.pair h.setCloche.pair))

theorem Completes.ackFrameRx {bad} (h : Keeps s₀ s) : Completes s₀ (execAckFrameRx bad s) := by
  unfold execAckFrameRx
  split
  · rename_i e
    exact .next (h.takeWire.of_eq e)
  · rename_i e
    exact .next (.setAlive (.update (h.takeWire.of_eq e)))

theorem Keeps.deliverRec {blocked r fs} (h : Keeps s₀ s) : Keeps s₀ (s.deliverRec blocked r fs).1 := by
  refine Keeps.foldl_fst (p := (s, blocked, [])) h fun x f h => ?_
  dsimp only
  split
  · rename_i e
    split at e
    · cases e
    · obtain ⟨g, -, e⟩ := Option.bind_eq_some_iff.mp e
      dsimp only
      exact (h.fillBuffer e).setRg
  · exact h

theorem Keeps.pumpRecs {rs} (h : Keeps s₀ s) : Keeps s₀ (s.pumpRecs rs).1 := by
  unfold State.pumpRecs
  exact h.foldl_fst (fun _ _ h => h.deliverRec)

theorem Keeps.pumpPort (h : Keeps s₀ s) : Keeps s₀ s.pumpPort :=
  .ite h.pumpRecs.update h.pumpRecs.update.pumpRecs.update

theorem Keeps.portCommand {state cause n} (h : Keeps s₀ s) : Keeps s₀ (s.portCommand state cause n) :=
  h.update.incRg.units.regResult.lockFree

theorem Keeps.portClaim (h : Keeps s₀ s) : Keeps s₀ s.portClaim := h.lockClaim.update

theorem Keeps.overflow (h : Keeps s₀ s) : Keeps s₀ s.overflow :=
  .ite h (.ite h.portClaim h.portClaim.writeHbm.update.portCommand)

theorem Completes.recordFrameRx {bad} (h : Keeps s₀ s) : Completes s₀ (execRecordFrameRx bad s) := by
  unfold execRecordFrameRx
  split
  · rename_i e
    exact .next (h.takeWire.of_eq e)
  · rename_i e
    extract_lets _ _ s1 s2 _ s3 s4 _ _ _ _ s5 _ _ s6
    have h2 : Keeps s₀ s2 := (h.takeWire.of_eq e).setRg.incRg.setRg.setRg.setAlive
    have h4 : Keeps s₀ s4 := .ite h2.pumpPort h2.pumpPort.overflow
    have h6 : Keeps s₀ s6 := .ite h4.update.update.event h4.update
    exact .ite (.next h2.incRg.pumpPort) (.ite (.next h4.satRg) (.next h6.pumpPort))

theorem Completes.overflowReadback (h : Keeps s₀ s) : Completes s₀ (execOverflowReadback s) := by
  unfold execOverflowReadback
  dsimp only
  split
  · exact .next h
  · exact .ite (.next h) (.ite (.next h.portClaim) (.ite (.next h.portClaim.update.update.portCommand.pumpPort) (.next
      h.portClaim.update.update.satRg.portCommand.satRg.event)))

theorem Completes.meterHoldWrite {v} (h : Keeps s₀ s) : Completes s₀ (execMeterHoldWrite v s) :=
  .ite (.next h) (.next h.setRg)

theorem Completes.clocheAliveLapse (h : Keeps s₀ s) : Completes s₀ (execClocheAliveLapse s) :=
  .ite (.next h) (.next h.setAlive)

/-! ### The boot and the firmware service -/

theorem Keeps.eraseSectors {a n} (h : Keeps s₀ s) : Keeps s₀ (s.eraseSectors a n) := h.foldl (fun _ _ h => h.writeB)

theorem Keeps.writeSelector {bank ratchet} (h : Keeps s₀ s) : Keeps s₀ (s.writeSelector bank ratchet) :=
  h.eraseSectors.writeB

theorem Keeps.fuseTiles {hf} (h : Keeps s₀ s) : Keeps s₀ (s.fuseTiles hf) := h.foldl (fun _ _ h => h.setRg)

theorem Keeps.fuseMacs (h : Keeps s₀ s) : Keeps s₀ s.fuseMacs := h.foldl (fun _ _ h => h.setRg.setRg)

theorem Keeps.fuseIdentity (h : Keeps s₀ s) : Keeps s₀ s.fuseIdentity :=
  (h.setRg.setRg.setRg.setRg.setRg.foldl (fun _ _ h => h.setRg)).setRg.setRg.fuseTiles.fuseTiles.fuseMacs

theorem Keeps.fuseReport {hold word copy secret temp low nom high} (h : Keeps s₀ s) :
    Keeps s₀ (s.fuseReport hold word copy secret temp low nom high) :=
  h.setRg.setRg.setRg.setRg.setRg.setRg.setRg.setRg

theorem Keeps.fuseHold {rs temp w c} (h : Keeps s₀ s) : Keeps s₀ (s.fuseHold rs temp w c) :=
  h.update.fuseIdentity.setRg.setRg.fuseReport

theorem Keeps.measure {i v} (h : Keeps s₀ s) : Keeps s₀ (s.measure i v) := h.update

theorem Keeps.bankCause {b c} (h : Keeps s₀ s) : Keeps s₀ (s.bankCause b c) := h.setRg

theorem Keeps.loadStage1 {b} (h : Keeps s₀ s) : Keeps s₀ (s.loadStage1 b) := h.measure.setCore.update.setRg.setRg

theorem Keeps.ratchet {level} (h : Keeps s₀ s) : Keeps s₀ (s.ratchet level) := .ite h h.update

theorem Keeps.noImage (h : Keeps s₀ s) : Keeps s₀ s.noImage := h.update.setRg

theorem Keeps.bootFrom {bad b} (h : Keeps s₀ s) : Keeps s₀ (s.bootFrom bad b) := by
  unfold State.bootFrom
  split
  · refine .loadStage1 ?_
    split
    · exact .ite h.ratchet h
    · exact h
  · dsimp only
    split
    · exact h.bankCause.setRg.loadStage1
    · exact h.bankCause.setRg.bankCause.noImage

theorem Keeps.bootSelect {bad} (h : Keeps s₀ s) : Keeps s₀ (s.bootSelect bad) :=
  h.bankCause.bankCause.setRg.update.setRg.setRg.bootFrom

theorem Keeps.bootAll {rs temp bad} (h : Keeps s₀ s) : Keeps s₀ (s.bootAll rs temp bad) := by
  unfold State.bootAll
  split
  · exact h.fuseHold
  · exact h.update.fuseIdentity.fuseReport.measure.measure.bootSelect

theorem Completes.hubAoResetRelease {rs temp bad} (h : Keeps s₀ s) :
    Completes s₀ (execHubAoResetRelease rs temp bad s) :=
  .ite (.next (.ite h.update h.update.update)) (.ite (.next h) (.ite (.next h.update) (.next h.update.bootAll)))

theorem Keeps.measureMain {b} (h : Keeps s₀ s) : Keeps s₀ (s.measureMain b) := h.measure.measure.measure

theorem Keeps.releaseHalf {hf} (h : Keeps s₀ s) : Keeps s₀ (s.releaseHalf hf) := .ite (.ite h h.setRg) (.ite h h.setRg)

theorem Keeps.levelUp (h : Keeps s₀ s) : Keeps s₀ s.levelUp := .ite h.setRg.mapUpdate h

theorem Completes.mainImageVerified {bad} (h : Keeps s₀ s) : Completes s₀ (execMainImageVerified bad s) := by
  unfold execMainImageVerified
  refine .ite (.next h) ?_
  dsimp only
  split
  · exact .next h.setRg.setRg.update.measureMain.setRg.releaseHalf.releaseHalf.levelUp
  · refine .ite (.next h.bankCause.setRg.noImage) ?_
    split
    · exact .next h.bankCause.setRg.update.loadStage1
    · exact .next h.bankCause.setRg.update.bankCause.noImage

theorem Completes.fuseRetry {rs temp bad} (h : Keeps s₀ s) : Completes s₀ (execFuseRetry rs temp bad s) :=
  .ite (.next h.bootAll) (.next h)

theorem Completes.recoveryReboot {rs temp bad} (h : Keeps s₀ s) : Completes s₀ (execRecoveryReboot rs temp bad s) :=
  .ite (.next h.bootAll) (.next h)

theorem Keeps.testTiles {t hf} (h : Keeps s₀ s) : Keeps s₀ (s.testTiles t hf) := h.foldl (fun _ _ h => h.setRg)

theorem Keeps.testStack {t st} (h : Keeps s₀ s) : Keeps s₀ (s.testStack t st) :=
  h.setRg.setRg.update.foldl (fun _ _ h => .ite h h.remapPc)

theorem Completes.bootSelfTestDone {halves t} (h : Keeps s₀ s) : Completes s₀ (execBootSelfTestDone halves t s) := by
  unfold execBootSelfTestDone
  extract_lets _ s1 s2 s3 _ _ s4 s5 s6 s7
  have h1 : Keeps s₀ s1 := h.foldl (fun _ _ h => (h.testTiles.foldl (fun _ _ h => h.testStack)).setRg)
  have h5 : Keeps s₀ s5 := h1.setRg.setRg.update.setRg
  have h7 : Keeps s₀ s7 := .mapUpdate (.ite h5.setRg h5)
  exact .ite (.next h) (.next (.ite h7.event h7))

theorem Keeps.moveWork {c new} (h : Keeps s₀ s) : Keeps s₀ (s.moveWork c new) := h.update.setCore.setCore.setRg

theorem Keeps.repostPaging (h : Keeps s₀ s) : Keeps s₀ s.repostPaging := by
  refine h.foldl (fun _ _ h => ?_)
  split
  · exact h
  · split
    · exact .ite h h.emit
    · exact h

theorem Completes.compartmentRestart {c vector busy} (h : Keeps s₀ s) :
    Completes s₀ (execCompartmentRestart c vector busy s) := by
  unfold execCompartmentRestart
  split
  · exact .next h
  · extract_lets s1 s2 s3
    have h1 : Keeps s₀ s1 := h.moveWork
    have h2 : Keeps s₀ s2 := by
      refine .ite ?_ h1
      split
      · exact h1.mrReply
      · exact h1
    exact .ite (.next h) (.next (.event (.ite h2.repostPaging h2)))

theorem Completes.fwWrite (h : Keeps s₀ s) : Completes s₀ (execFwWrite s) :=
  .next (h.manage (fun _ => .ite_effect h.refuse (.ite_effect h.refuse h.eraseSectors.writeB.update.done)))

theorem Completes.fwVerify {bad} (h : Keeps s₀ s) : Completes s₀ (execFwVerify bad s) := by
  refine .next (h.manage (fun _ => .ite_effect h.refuse ?_))
  split
  · exact h.update
  · exact h

theorem Completes.bootSelect {bad} (h : Keeps s₀ s) : Completes s₀ (execBootSelect bad s) := by
  refine .next (h.manage (fun _ => .ite_effect h.refuse ?_))
  split
  · exact h.writeSelector.done
  · exact h

theorem Completes.timeSet (h : Keeps s₀ s) : Completes s₀ (execTimeSet s) :=
  .next (h.manage (fun _ => .ite_effect h.setRg.setRg.done h.setRg.update.setRg.done))

theorem Completes.liveUpdate (h : Keeps s₀ s) : Completes s₀ (execLiveUpdate s) := by
  unfold execLiveUpdate
  split
  · exact .next h
  · exact .ite (.next h) (.ite (.next h.mrReply) (.ite (.next h.mrReply) (.ite (.next h.mrReply) (.next h.update))))

theorem Keeps.liveReply {slot status} (h : Keeps s₀ s) : Keeps s₀ (s.liveReply slot status) := h.update.mrReply

theorem Keeps.moveComp {l comp} (h : Keeps s₀ s) : Keeps s₀ (s.moveComp l comp).1 := by
  refine h.foldl_fst (fun _ _ h => ?_)
  split
  · exact h
  · exact h.moveWork

theorem Completes.handoverSafePoint {ok} (h : Keeps s₀ s) : Completes s₀ (execHandoverSafePoint ok s) := by
  unfold execHandoverSafePoint
  split
  · exact .next h
  · exact .ite (.ite (.next h.moveComp.update) (.next
      h.moveComp.writeSelector.update.incRg.measureMain.setRg.event.liveReply)) (.next (h.foldl (fun _ _ h =>
      h.moveWork)).event.liveReply)

theorem Completes.pcieLinkTrained {rate width flit} (h : Keeps s₀ s) :
    Completes s₀ (execPcieLinkTrained rate width flit s) :=
  .ite (.next h) (.next h.setRg.setRg.setRg.update.setRg.levelUp)

/-! ### MCTP -/

theorem Keeps.i3cAnswer {ty bs} (h : Keeps s₀ s) : Keeps s₀ (s.i3cAnswer ty bs) := .ite h.emit h

theorem Completes.mctpControl {inst cmd data} (h : Keeps s₀ s) : Completes s₀ (execMctpControl inst cmd data s) := by
  unfold execMctpControl
  split
  · exact .ite (.next h.i3cAnswer) (.ite (.next h.i3cAnswer) (.next (.i3cAnswer (.ite h.update h))))
  · exact .next h.i3cAnswer
  · exact .ite (.next h.i3cAnswer) (.next h.i3cAnswer)
  · exact .next h.i3cAnswer
  · exact .ite (.next h.i3cAnswer) (.next h.i3cAnswer)
  · exact .next h.i3cAnswer

theorem Keeps.pldm {inst ty cmd cc r} (h : Keeps s₀ s) : Keeps s₀ (s.pldm inst ty cmd cc r) := h.i3cAnswer

theorem Completes.getTid {inst} (h : Keeps s₀ s) : Completes s₀ (execGetTid inst s) := .next h.pldm

theorem Completes.getPldmTypes {inst} (h : Keeps s₀ s) : Completes s₀ (execGetPldmTypes inst s) := .next h.pldm

theorem Completes.getPldmVersion {inst ty} (h : Keeps s₀ s) : Completes s₀ (execGetPldmVersion inst ty s) :=
  .ite (.next h.pldm) (.next h.pldm)

theorem Completes.getPldmCommands {inst ty} (h : Keeps s₀ s) : Completes s₀ (execGetPldmCommands inst ty s) :=
  .ite (.next h.pldm) (.next h.pldm)

theorem Completes.getPdr {inst handle} (h : Keeps s₀ s) : Completes s₀ (execGetPdr inst handle s) :=
  .ite (.next h.pldm) (.next h.pldm)

theorem Completes.getSensorReading {inst id} (h : Keeps s₀ s) : Completes s₀ (execGetSensorReading inst id s) :=
  .ite (.next h.pldm) (.next h.pldm)

theorem Completes.pollForPlatformEventMessage {inst ack} (h : Keeps s₀ s) :
    Completes s₀ (execPollForPlatformEventMessage inst ack s) := by
  unfold execPollForPlatformEventMessage
  refine .ite (.next h) ?_
  dsimp only
  split <;> exact .next h.update.pldm

theorem Completes.readEvents {start} (h : Keeps s₀ s) : Completes s₀ (execReadEvents start s) := .next h.i3cAnswer

theorem Completes.sensorUpdate {vals} (h : Keeps s₀ s) : Completes s₀ (execSensorUpdate vals s) :=
  .ite (.next h) (.next h.update)

theorem Completes.safeStateQuery (h : Keeps s₀ s) : Completes s₀ (execSafeStateQuery s) := .ite (.next h.emit) (.next h)

/-! ### Plots -/

theorem Keeps.showRings {p} (h : Keeps s₀ s) : Keeps s₀ (s.showRings p) := h.foldl (fun _ _ h => h.showRing)

theorem Keeps.eachDesc {p f} (h : Keeps s₀ s) (hf : ∀ s r g d, Keeps s₀ s → Keeps s₀ (f s r g d)) :
    Keeps s₀ (s.eachDesc p f) := by
  refine h.foldl fun s r h => ?_
  split
  · exact h
  · exact h.foldl fun s d h => hf s _ _ d h

theorem Keeps.freezeCtx {p on} (h : Keeps s₀ s) : Keeps s₀ (s.freezeCtx p on) := h.update

theorem Keeps.startQuiesce {p q} (h : Keeps s₀ s) : Keeps s₀ (s.startQuiesce p q) :=
  h.update.setPlot.freezeCtx.showRings.eachDesc (fun _ _ _ _ h => .ite h.endDesc h)

theorem Keeps.eopCut {k o cause} (h : Keeps s₀ s) : Keeps s₀ (s.eopCut k o cause) := by
  refine .ite h.eopEnd.evoid ?_
  split
  · exact h.eopEnd
  · exact h.eopEnd.erenumber.setEconn

theorem Keeps.opCut {k o cause} (h : Keeps s₀ s) : Keeps s₀ (s.opCut k o cause) := h.opEnd.voidOp

theorem Keeps.xferCut {o cause} (h : Keeps s₀ s) : Keeps s₀ (s.xferCut o cause) :=
  (h.foldl (fun _ _ h => h.foldl (fun _ _ h => .ite h.eopCut h))).foldl (fun _ _ h => h.foldl (fun _ _ h => .ite h.opCut
    h))

theorem Keeps.cutDesc {p cause r g d} (h : Keeps s₀ s) : Keeps s₀ (s.cutDesc p cause r g d) := by
  refine .ite h.absorb (.ite h.absorb.endDesc ?_)
  split
  · exact h.absorb.update.endDesc
  · exact h.absorb.update.endDesc
  · exact h.absorb.xferCut.absorb
  · exact h.absorb.endDesc
  · split
    · exact h.absorb
    · exact h.absorb.stashStop.absorb
  · exact h.absorb.foldl (fun _ _ h => .ite h.setJob h)

theorem Keeps.cutAll {p} (h : Keeps s₀ s) : Keeps s₀ (s.cutAll p) := h.eachDesc (fun _ _ _ _ h => h.cutDesc)

theorem Completes.quiesceTimeout {p} (h : Keeps s₀ s) : Completes s₀ (execQuiesceTimeout p s) := by
  unfold execQuiesceTimeout
  split
  · exact .next h
  · exact .ite (.next h) (.next h.update.cutAll)

theorem Keeps.freezeStreams {p} (h : Keeps s₀ s) : Keeps s₀ (s.freezeStreams p) :=
  h.foldl (fun _ _ h => .ite h.incRg.setEnt h)

theorem Keeps.plotEvent {p old new q} (h : Keeps s₀ s) : Keeps s₀ (s.plotEvent p old new q) :=
  .ite h.record h.record.record

theorem Keeps.closeStreams {p} (h : Keeps s₀ s) : Keeps s₀ (s.closeStreams p) :=
  h.foldl (fun _ _ h => .ite h.incRg.setEnt h)

theorem Keeps.closeRegions {p} (h : Keeps s₀ s) : Keeps s₀ (s.closeRegions p) := h.foldl (fun _ _ h => .ite h.writeN h)

theorem Keeps.discardDeliveries {p} (h : Keeps s₀ s) : Keeps s₀ (s.discardDeliveries p) :=
  h.foldl (fun _ _ h => .ite h.dropDelivery h.dropDelivery.record)

theorem Keeps.closeConns {p} (h : Keeps s₀ s) : Keeps s₀ (s.closeConns p) :=
  (h.foldl (fun _ _ h => .ite h (.ite h.ctxClear h.ctxClose))).foldl (fun _ _ h => .ite h.dconnClose h)

theorem Keeps.removePlot {p} (h : Keeps s₀ s) : Keeps s₀ (s.removePlot p) :=
  (h.discardDeliveries.closeConns.foldl (fun _ _ h =>
    h.delRing)).closeStreams.closeRegions.update.update.setPlot.showRings

theorem Keeps.maskAll {p} (h : Keeps s₀ s) : Keeps s₀ (s.maskAll p) := h.update

theorem Keeps.endQuiesce {p q} (h : Keeps s₀ s) : Keeps s₀ (s.endQuiesce p q) := by
  refine .ite h.freezeStreams.update.showRings (.ite h.freezeStreams.removePlot.maskAll.plotEvent ?_)
  split
  · exact h.freezeStreams.update.setPlot.showRings.plotEvent
  · exact h.freezeStreams.update.setPlot.showRings.plotEvent.update.mrReply

theorem Keeps.quiesceTick (h : Keeps s₀ s) : Keeps s₀ s.quiesceTick := by
  refine h.foldl (fun _ _ h => ?_)
  split
  · exact h
  · exact .ite h.endQuiesce h

/-- A management request that is answered later keeps what its effect keeps. -/
theorem Keeps.manageLong {op fields f} (h : Keeps s₀ s) (hf : ∀ slot q, Keeps s₀ ((f slot q).elim (fun _ => s) id)) :
    Keeps s₀ (s.manageLong op fields f) := by
  unfold State.manageLong
  split
  · exact h
  · rename_i slot q _
    refine .ite h (.ite h.mrReply ?_)
    have h1 := hf slot q
    split
    · exact h.mrReply
    · rename_i e
      rw [e] at h1
      exact h1.update

theorem Completes.plotQuiesce (h : Keeps s₀ s) : Completes s₀ (execPlotQuiesce s) := by
  unfold execPlotQuiesce
  refine .next (h.manageLong (fun _ _ => ?_))
  dsimp only
  split
  · exact h
  · split
    · exact h
    · exact h.startQuiesce

theorem Completes.plotFreeze (h : Keeps s₀ s) : Completes s₀ (execPlotFreeze s) :=
  .next (h.manage (fun _ => .ite_effect h.refuse (.ite_effect h.refuse h.update.setPlot.showRings.done)))

theorem Completes.plotResume (h : Keeps s₀ s) : Completes s₀ (execPlotResume s) :=
  .next (h.manage (fun _ => .ite_effect h.refuse (.ite_effect h.refuse (.done (.showRings (.setPlot (.freezeCtx (.update
    (h.foldl (fun _ _ h => .ite h.setEnt h))))))))))

theorem Completes.plotRemove (h : Keeps s₀ s) : Completes s₀ (execPlotRemove s) :=
  .next (h.manage (fun _ => .ite_effect h.refuse (.ite_effect h.refuse h.removePlot.done)))

theorem Completes.mbDb {p} (h : Keeps s₀ s) : Completes s₀ (execMbDb p s) := .ite (.next h) (.next h.incRg.record)

theorem Completes.mbReplyDb {p} (h : Keeps s₀ s) : Completes s₀ (execMbReplyDb p s) :=
  .ite (.next h) (.next h.incRg.record)

theorem Keeps.overtake {p} (h : Keeps s₀ s) : Keeps s₀ (s.overtake p) := by
  unfold State.overtake
  dsimp only
  split
  · exact h.update.update.mrReply
  · exact h.update.mrSkip

theorem Keeps.flrPlot {p} (h : Keeps s₀ s) : Keeps s₀ (s.flrPlot p) :=
  .ite h (.ite h.overtake.startQuiesce (.ite h.overtake.update h.overtake.removePlot.maskAll.plotEvent))

theorem Completes.flrPlot {p} (h : Keeps s₀ s) : Completes s₀ (execFlrPlot p s) := .ite (.next h.flrPlot) (.next h)

theorem Keeps.flrManager (h : Keeps s₀ s) : Keeps s₀ s.flrManager := (h.foldl (fun _ _ h => h.flrPlot)).startQuiesce

theorem Completes.flrPf0 (h : Keeps s₀ s) : Completes s₀ (execFlrPf0 s) := .ite (.next h.flrManager) (.next h)

theorem Completes.vfEnable {n} (h : Keeps s₀ s) : Completes s₀ (execVfEnable n s) := .ite (.next h.update) (.next h)

theorem Completes.vfDisable {n} (h : Keeps s₀ s) : Completes s₀ (execVfDisable n s) :=
  .ite (.next h) (.next (.update (h.foldl (fun _ _ h => h.flrPlot))))

theorem Completes.plotSave (h : Keeps s₀ s) : Completes s₀ (execPlotSave s) :=
  .next (h.manage (fun _ => .ite_effect h.refuse (.ite_effect h.refuse (.ite_effect h.refuse (.ite h.update.hostWrite
    h.update.writeB)))))

theorem Keeps.restoreHost {p ps bases} (h : Keeps s₀ s) : Keeps s₀ (s.restoreHost p ps bases) :=
  ((((h.foldl (fun _ _ h => h.setRing)).foldl (fun _ _ h => h.update.setRg.setRg)).foldl (fun _ _ h => h.foldl
    (fun _ _ h => h.update))).foldl (fun _ _ h => h.update)).foldl (fun _ _ h => (h.foldl (fun _ _ h =>
    h.setRg.setRg)).setRg.setRg)

theorem Keeps.restoreRest {ps} (h : Keeps s₀ s) : Keeps s₀ (s.restoreRest ps) :=
  .showStaging (.update (((((h.foldl (fun _ _ h => h.setEconn.writeN)).foldl (fun _ _ h => h.writeN)).foldl
    (fun _ _ h => h.setEnt)).foldl (fun _ _ h => h.update)).foldl (fun _ _ h => h.setConn.update)))

theorem Completes.plotRestore {dma} (h : Keeps s₀ s) : Completes s₀ (execPlotRestore dma s) :=
  .next (h.manage (fun _ => .ite_effect h.refuse (.ite_effect h.refuse (.ite_effect h.refuse (.ite_effect h.refuse
    (.ite_effect h.refuse h.plotClear.restoreHost.restoreRest.update.setPlot.showRings.done))))))

/-! ### Checkpoints -/

theorem Keeps.ckEnable {v} (h : Keeps s₀ s) : Keeps s₀ (s.ckEnable v) := .ite h.setRg.setRg h.setRg

theorem Keeps.sealTry (h : Keeps s₀ s) : Keeps s₀ s.sealTry := .ite h.update.emit h

theorem Keeps.cutNow {c} (h : Keeps s₀ s) : Keeps s₀ (s.cutNow c) :=
  .sealTry (.ite h.update.drawn.setRg.setRg h.update.drawn.setRg.setRg.mulchTell)

theorem Keeps.startCut {c} (h : Keeps s₀ s) : Keeps s₀ (s.startCut c) := h.update.setRg.mulchTell

theorem Completes.checkpointTrigger (h : Keeps s₀ s) : Completes s₀ (execCheckpointTrigger s) :=
  .ite (.next h) (.ite (.next h.update.startCut) (.ite (.next h.update) (.next h.update.update.incRg)))

theorem Completes.cutMessage {m} (h : Keeps s₀ s) : Completes s₀ (execCutMessage m s) := by
  unfold execCutMessage
  split
  · exact .ite (.next h) (.ite (.next h.setRg.mulchTell) (.next h.update.setRg.mulchTell))
  · exact .ite (.next h.update.tryDone) (.next h)

theorem Keeps.assign {refs} (h : Keeps s₀ s) : Keeps s₀ (s.assign refs) := h.update.incRg.sealTry

theorem Completes.dedupAssign {m} (h : Keeps s₀ s) : Completes s₀ (execDedupAssign m s) := by
  refine .ite (.next h) ?_
  split
  · extract_lets _ _ _ s1
    have h1 : Keeps s₀ s1 := h.foldl (fun _ _ h => h.emit)
    exact .ite (.next h) (.next (.advanceWaiting (.ite h1 h1.assign)))
  · exact .ite (.next h) (.next h.assign.advanceWaiting)

theorem Completes.cowHold {a} (h : Keeps s₀ s) : Completes s₀ (execCowHold a s) := by
  refine .ite (.next h) ?_
  split
  · exact .next h.incRg
  · exact .next h.update

theorem Completes.cowCopyDone {c ns} (h : Keeps s₀ s) : Completes s₀ (execCowCopyDone c ns s) := by
  unfold execCowCopyDone
  extract_lets _ s1 s2 _ s3 _ s4
  have h1 : Keeps s₀ s1 := by
    unfold s1
    split
    · exact h.writeHbm
    · exact h
  have h2 : Keeps s₀ s2 := h1.cutDone.incRg.incRg
  have h4 : Keeps s₀ s4 := .ite (.ite h2 h2.update) (.ite h (.ite h.sendCutting.update (.ite h.sendCutting.cutDone h)))
  exact .next h4.drawn.sealTry.advanceWaiting.eadvanceWaiting

theorem Keeps.storeImage {src page len volume} (h : Keeps s₀ s) : Keeps s₀ (s.storeImage src page len volume) := by
  unfold State.storeImage
  exact .stashFirmware (.update (h.foldl (fun _ _ h => h.stashFirmware)))

theorem Completes.imageHeld {m} (h : Keeps s₀ s) : Completes s₀ (execImageHeld m s) := by
  unfold execImageHeld
  split
  · exact .ite (.next h) (.ite (.next h.update.setRg) (.next h.update.setRg.mulchTell))
  · exact .ite (.next h.update) (.next h)
  · exact .next h.storeImage

theorem Completes.checkpointDurable {m} (h : Keeps s₀ s) : Completes s₀ (execCheckpointDurable m s) := by
  unfold execCheckpointDurable
  split
  · split
    · exact .next h
    · exact .ite (.next h) (.ite (.next h.update.emit) (.next h.update.emit))
  · refine .ite ?_ (.next (.mulchTell (.ite h.setRg h)))
    split
    · exact .next h.update
    · exact .next h
  · split
    · exact .next h.update
    · exact .next h

theorem Completes.checkpointFail {cause mid} (h : Keeps s₀ s) : Completes s₀ (execCheckpointFail cause mid s) :=
  .next (.eadvanceWaiting (.ckFail (.ite h.setRg.setRg h)))

theorem Keeps.heldNow (h : Keeps s₀ s) : Keeps s₀ s.heldNow := .ite h.update.setRg.setRg.setRg.incRg.sqRaise.event h

theorem Keeps.durableNow (h : Keeps s₀ s) : Keeps s₀ s.durableNow := by
  unfold State.durableNow
  split
  · exact h
  · exact .ite (.event (.sqRaise (.incRg (.setRg (.setRg (.ite h.update h.update.setRg)))))) h

theorem Keeps.mulchTick {n} (h : Keeps s₀ s) : Keeps s₀ (s.mulchTick n) :=
  .ite (.heldNow (.durableNow (.sealTry (.ite (.startCut (.ite h.cutNow h)) (.ite h.cutNow h))))) (.sealTry (.ite
    h.cutNow h))

theorem Completes.mulchCheckpoint (h : Keeps s₀ s) : Completes s₀ (execMulchCheckpoint s) :=
  .next (h.manage (fun _ => .ite_effect h.update.done h.refuse))

theorem Completes.mulchCancel (h : Keeps s₀ s) : Completes s₀ (execMulchCancel s) :=
  .next (h.manage (fun _ => h.ckFail.eadvanceWaiting.done))

theorem Completes.suppressSet (h : Keeps s₀ s) : Completes s₀ (execSuppressSet s) :=
  .next (h.manage (fun _ => .ite_effect h.refuse h.update.done))

theorem Completes.mulchRestore (h : Keeps s₀ s) : Completes s₀ (execMulchRestore s) := by
  unfold execMulchRestore
  refine .next (h.manageLong (fun _ _ => ?_))
  dsimp only
  split
  · exact h
  · split
    · exact h
    · split
      · exact h
      · exact h.update.setRg.setMode.emit

theorem Keeps.restorePages {x image refs cause done l} (h : Keeps s₀ s) :
    Keeps s₀ (s.restorePages x image refs cause done l).1 := by
  induction l generalizing s done with
  | nil => exact h
  | cons i l ih =>
    unfold State.restorePages
    dsimp only
    split
    · exact ih h
    · split
      · exact h
      · exact .ite_fst h (.ite_fst h (ih h.writeHbm))

theorem Keeps.restoreStreams {image} (h : Keeps s₀ s) : Keeps s₀ (s.restoreStreams image) :=
  h.foldl (fun _ _ h => h.setEnt)

theorem Completes.restoreEnd {cause image refs} (h : Keeps s₀ s) :
    Completes s₀ (execRestoreEnd cause image refs s) := by
  unfold execRestoreEnd
  split
  · exact .next h
  · exact .ite (.next h) (.next (.mrReply (.update (.event (.setMode (.setRg (.update (.ite (.restoreStreams (.ite_fst h
      h.restorePages)) (.ite_fst h h.restorePages)))))))))

/-! ### Ohm's integer instructions -/

theorem Completes.add {c long rd rs rt} (h : Keeps s₀ s) : Completes s₀ (execAdd c long rd rs rt s) := .next h.runCore

theorem Completes.sub {c long rd rs rt} (h : Keeps s₀ s) : Completes s₀ (execSub c long rd rs rt s) := .next h.runCore

theorem Completes.and {c long rd rs rt} (h : Keeps s₀ s) : Completes s₀ (execAnd c long rd rs rt s) := .next h.runCore

theorem Completes.or {c long rd rs rt} (h : Keeps s₀ s) : Completes s₀ (execOr c long rd rs rt s) := .next h.runCore

theorem Completes.xor {c long rd rs rt} (h : Keeps s₀ s) : Completes s₀ (execXor c long rd rs rt s) := .next h.runCore

theorem Completes.shl {c long rd rs rt} (h : Keeps s₀ s) : Completes s₀ (execShl c long rd rs rt s) := .next h.runCore

theorem Completes.shr {c long rd rs rt} (h : Keeps s₀ s) : Completes s₀ (execShr c long rd rs rt s) := .next h.runCore

theorem Completes.sar {c long rd rs rt} (h : Keeps s₀ s) : Completes s₀ (execSar c long rd rs rt s) := .next h.runCore

theorem Completes.cmplt {c long rd rs rt} (h : Keeps s₀ s) : Completes s₀ (execCmplt c long rd rs rt s) :=
  .next h.runCore

theorem Completes.cmpltu {c long rd rs rt} (h : Keeps s₀ s) : Completes s₀ (execCmpltu c long rd rs rt s) :=
  .next h.runCore

theorem Completes.mul {c long rd rs rt} (h : Keeps s₀ s) : Completes s₀ (execMul c long rd rs rt s) := .next h.runCore

theorem Completes.mulhi {c rd rs rt} (h : Keeps s₀ s) : Completes s₀ (execMulhi c rd rs rt s) := .next h.runCore

theorem Completes.mulhiu {c rd rs rt} (h : Keeps s₀ s) : Completes s₀ (execMulhiu c rd rs rt s) := .next h.runCore

theorem Completes.div {c rd rs rt} (h : Keeps s₀ s) : Completes s₀ (execDiv c rd rs rt s) := .next h.runCore

theorem Completes.divu {c rd rs rt} (h : Keeps s₀ s) : Completes s₀ (execDivu c rd rs rt s) := .next h.runCore

theorem Completes.rem {c rd rs rt} (h : Keeps s₀ s) : Completes s₀ (execRem c rd rs rt s) := .next h.runCore

theorem Completes.remu {c rd rs rt} (h : Keeps s₀ s) : Completes s₀ (execRemu c rd rs rt s) := .next h.runCore

theorem Completes.min {c long rd rs rt} (h : Keeps s₀ s) : Completes s₀ (execMin c long rd rs rt s) := .next h.runCore

theorem Completes.max {c long rd rs rt} (h : Keeps s₀ s) : Completes s₀ (execMax c long rd rs rt s) := .next h.runCore

theorem Completes.minu {c rd rs rt} (h : Keeps s₀ s) : Completes s₀ (execMinu c rd rs rt s) := .next h.runCore

theorem Completes.maxu {c rd rs rt} (h : Keeps s₀ s) : Completes s₀ (execMaxu c rd rs rt s) := .next h.runCore

theorem Completes.clz {c rd rs} (h : Keeps s₀ s) : Completes s₀ (execClz c rd rs s) := .next h.runCore

theorem Completes.popc {c rd rs} (h : Keeps s₀ s) : Completes s₀ (execPopc c rd rs s) := .next h.runCore

theorem Completes.madd {c rd rs rt ru} (h : Keeps s₀ s) : Completes s₀ (execMadd c rd rs rt ru s) := .next h.runCore

theorem Completes.addi {c long rd rs imm} (h : Keeps s₀ s) : Completes s₀ (execAddi c long rd rs imm s) :=
  .next h.runCore

theorem Completes.movi {c long rd imm} (h : Keeps s₀ s) : Completes s₀ (execMovi c long rd imm s) := .next h.runCore

theorem Completes.andi {c long rd rs imm} (h : Keeps s₀ s) : Completes s₀ (execAndi c long rd rs imm s) :=
  .next h.runCore

theorem Completes.ori {c long rd rs imm} (h : Keeps s₀ s) : Completes s₀ (execOri c long rd rs imm s) := .next h.runCore

theorem Completes.xori {c rd rs imm} (h : Keeps s₀ s) : Completes s₀ (execXori c rd rs imm s) := .next h.runCore

theorem Completes.cmplti {c long rd rs imm} (h : Keeps s₀ s) : Completes s₀ (execCmplti c long rd rs imm s) :=
  .next h.runCore

theorem Completes.cmpltiu {c rd rs imm} (h : Keeps s₀ s) : Completes s₀ (execCmpltiu c rd rs imm s) := .next h.runCore

theorem Completes.shli {c long rd rs imm} (h : Keeps s₀ s) : Completes s₀ (execShli c long rd rs imm s) :=
  .next h.runCore

theorem Completes.shri {c long rd rs imm} (h : Keeps s₀ s) : Completes s₀ (execShri c long rd rs imm s) :=
  .next h.runCore

theorem Completes.sari {c long rd rs imm} (h : Keeps s₀ s) : Completes s₀ (execSari c long rd rs imm s) :=
  .next h.runCore

theorem Completes.addsp {c imm} (h : Keeps s₀ s) : Completes s₀ (execAddsp c imm s) := .next h.runCore

theorem Completes.ldhi {c rd imm} (h : Keeps s₀ s) : Completes s₀ (execLdhi c rd imm s) := .next h.runCore

theorem Completes.pcrel {c rd imm} (h : Keeps s₀ s) : Completes s₀ (execPcrel c rd imm s) := .next h.runCore

theorem Completes.nop {c} (h : Keeps s₀ s) : Completes s₀ (execNop c s) := .next h.runCore

theorem Completes.mov {c rd rs} (h : Keeps s₀ s) : Completes s₀ (execMov c rd rs s) := .next h.runCore

theorem Completes.neg {c rd rs} (h : Keeps s₀ s) : Completes s₀ (execNeg c rd rs s) := .next h.runCore

theorem Completes.not {c rd rs} (h : Keeps s₀ s) : Completes s₀ (execNot c rd rs s) := .next h.runCore

/-! ### Ohm's control instructions -/

theorem Completes.ldw {c long rd rs imm} (h : Keeps s₀ s) : Completes s₀ (execLdw c long rd rs imm s) := .next h.runCore

theorem Completes.stw {c long rd rs imm} (h : Keeps s₀ s) : Completes s₀ (execStw c long rd rs imm s) := .next h.runCore

theorem Completes.spwLoad {c r off} (h : Keeps s₀ s) : Completes s₀ (execSpwLoad c r off s) := .next h.runCore

theorem Completes.spwStore {c r off} (h : Keeps s₀ s) : Completes s₀ (execSpwStore c r off s) := .next h.runCore

theorem Completes.push {c rs} (h : Keeps s₀ s) : Completes s₀ (execPush c rs s) := .next h.runCore

theorem Completes.pop {c rd} (h : Keeps s₀ s) : Completes s₀ (execPop c rd s) := .next h.runCore

theorem Completes.ret {c} (h : Keeps s₀ s) : Completes s₀ (execRet c s) := .next h.runCore

theorem Completes.callr {c rs} (h : Keeps s₀ s) : Completes s₀ (execCallr c rs s) := .next h.runCore

theorem Completes.call {c imm} (h : Keeps s₀ s) : Completes s₀ (execCall c imm s) := .next h.runCore

theorem Completes.wcopy {c rd rs rt upto} (h : Keeps s₀ s) : Completes s₀ (execWcopy c rd rs rt upto s) :=
  .next (h.runWith (fun _ => .ite_fst h.badOperand (.ite_fst h.badOperand (h.granules (fun _ _ _ h => .ite_fst h
    (.ite_fst h h))))))

theorem Completes.bcz {c cond rs off} (h : Keeps s₀ s) : Completes s₀ (execBcz c cond rs off s) := .next h.runCore

theorem Completes.br {c off} (h : Keeps s₀ s) : Completes s₀ (execBr c off s) := .next h.runCore

theorem Completes.cbeq {c rd rs imm} (h : Keeps s₀ s) : Completes s₀ (execCbeq c rd rs imm s) := .next h.runCore

theorem Completes.cbne {c rd rs imm} (h : Keeps s₀ s) : Completes s₀ (execCbne c rd rs imm s) := .next h.runCore

theorem Completes.cblt {c rd rs imm} (h : Keeps s₀ s) : Completes s₀ (execCblt c rd rs imm s) := .next h.runCore

theorem Completes.cbge {c rd rs imm} (h : Keeps s₀ s) : Completes s₀ (execCbge c rd rs imm s) := .next h.runCore

theorem Completes.cbltu {c rd rs imm} (h : Keeps s₀ s) : Completes s₀ (execCbltu c rd rs imm s) := .next h.runCore

theorem Completes.cbgeu {c rd rs imm} (h : Keeps s₀ s) : Completes s₀ (execCbgeu c rd rs imm s) := .next h.runCore

theorem Completes.j {c imm} (h : Keeps s₀ s) : Completes s₀ (execJ c imm s) := .next h.runCore

theorem Completes.jr {c rs} (h : Keeps s₀ s) : Completes s₀ (execJr c rs s) := .next h.runCore

theorem Completes.fence {c} (h : Keeps s₀ s) : Completes s₀ (execFence c s) := .next h.runCore

theorem Keeps.mfsBody {c rd i k} (h : Keeps s₀ s) : Keeps s₀ (mfsBody c rd i s k).1 :=
  .ite_fst h (.ite_fst h (.ite h.drawn h))

theorem Completes.mfs {c rd i} (h : Keeps s₀ s) : Completes s₀ (execMfs c rd i s) :=
  .next (h.runWith (fun _ => h.mfsBody))

theorem Completes.mts {c rs i} (h : Keeps s₀ s) : Completes s₀ (execMts c rs i s) := .next h.runCore

theorem Completes.msgvalPop {c rd} (h : Keeps s₀ s) : Completes s₀ (execMsgvalPop c rd s) :=
  .next (h.runWith (fun _ => h.mfsBody))

theorem Completes.ctrctlClr {c rs} (h : Keeps s₀ s) : Completes s₀ (execCtrctlClr c rs s) := .next h.runCore

theorem Completes.cwset {c imm} (h : Keeps s₀ s) : Completes s₀ (execCwset c imm s) := .next h.runCore

theorem Completes.cwclr {c imm} (h : Keeps s₀ s) : Completes s₀ (execCwclr c imm s) := .next h.runCore

theorem Completes.trap {c imm} (h : Keeps s₀ s) : Completes s₀ (execTrap c imm s) := .next h.runCore

theorem Completes.eret {c} (h : Keeps s₀ s) : Completes s₀ (execEret c s) := .next h.runCore

theorem Completes.wfi {c} (h : Keeps s₀ s) : Completes s₀ (execWfi c s) := .next h.runCore

theorem Completes.trapEntry {c n long tval} (h : Keeps s₀ s) : Completes s₀ (execTrapEntry c n long tval s) := by
  refine .ite (.next h) ?_
  split
  · exact .next h.setCore
  · exact .ite (.next h) (.ite (.next h) (.next (.trap (.ite h.detect h))))

theorem Completes.interruptEntry {c} (h : Keeps s₀ s) : Completes s₀ (execInterruptEntry c s) := by
  refine .ite (.next h) ?_
  split
  · exact .next h.setCore
  · exact .next h

theorem Completes.timerExpire {c} (h : Keeps s₀ s) : Completes s₀ (execTimerExpire c s) := .next h.setCore

theorem Completes.msgInWrite {src dst v} (h : Keeps s₀ s) : Completes s₀ (execMsgInWrite src dst v s) := by
  unfold execMsgInWrite
  dsimp only
  split
  · rename_i e
    exact .next (h.postMsg (Option.ite_none_right_eq_some.mp e).2)
  · exact .next h.trap
  · exact .next h.emit

/-! ### Ohm's floating-point instructions -/

theorem Completes.fadd {c long rd rs rt} (h : Keeps s₀ s) : Completes s₀ (execFadd c long rd rs rt s) := .next h.runCore

theorem Completes.fsub {c long rd rs rt} (h : Keeps s₀ s) : Completes s₀ (execFsub c long rd rs rt s) := .next h.runCore

theorem Completes.fmul {c long rd rs rt} (h : Keeps s₀ s) : Completes s₀ (execFmul c long rd rs rt s) := .next h.runCore

theorem Completes.fdiv {c rd rs rt} (h : Keeps s₀ s) : Completes s₀ (execFdiv c rd rs rt s) := .next h.runCore

theorem Completes.fmin {c long rd rs rt} (h : Keeps s₀ s) : Completes s₀ (execFmin c long rd rs rt s) := .next h.runCore

theorem Completes.fmax {c long rd rs rt} (h : Keeps s₀ s) : Completes s₀ (execFmax c long rd rs rt s) := .next h.runCore

theorem Completes.fcmp {c rd rs rt} (h : Keeps s₀ s) : Completes s₀ (execFcmp c rd rs rt s) := .next h.runCore

theorem Completes.fsqrt {c rd rs} (h : Keeps s₀ s) : Completes s₀ (execFsqrt c rd rs s) := .next h.runCore

theorem Completes.fneg {c long rd rs} (h : Keeps s₀ s) : Completes s₀ (execFneg c long rd rs s) := .next h.runCore

theorem Completes.fabs {c long rd rs} (h : Keeps s₀ s) : Completes s₀ (execFabs c long rd rs s) := .next h.runCore

theorem Completes.fcvtfi {c rd rs} (h : Keeps s₀ s) : Completes s₀ (execFcvtfi c rd rs s) := .next h.runCore

theorem Completes.fcvtfu {c rd rs} (h : Keeps s₀ s) : Completes s₀ (execFcvtfu c rd rs s) := .next h.runCore

theorem Completes.fcvtif {c rd rs} (h : Keeps s₀ s) : Completes s₀ (execFcvtif c rd rs s) := .next h.runCore

theorem Completes.fcvtifr {c rd rs} (h : Keeps s₀ s) : Completes s₀ (execFcvtifr c rd rs s) := .next h.runCore

theorem Completes.fcvtuf {c rd rs} (h : Keeps s₀ s) : Completes s₀ (execFcvtuf c rd rs s) := .next h.runCore

theorem Completes.fma {c rd rs rt ru} (h : Keeps s₀ s) : Completes s₀ (execFma c rd rs rt ru s) := .next h.runCore

theorem Completes.fpack {c rd rs fmt sat} (h : Keeps s₀ s) : Completes s₀ (execFpack c rd rs fmt sat s) :=
  .next h.runCore

theorem Completes.funpack {c rd rs fmt sat} (h : Keeps s₀ s) : Completes s₀ (execFunpack c rd rs fmt sat s) :=
  .next h.runCore

theorem Completes.tli {c rd rs rt} (h : Keeps s₀ s) : Completes s₀ (execTli c rd rs rt s) := .next h.runCore

theorem Completes.tliv {c rd rs rt ru upto} (h : Keeps s₀ s) : Completes s₀ (execTliv c rd rs rt ru upto s) := by
  refine .next (h.runWith (fun _ => .ite_fst h.badOperand (.ite_fst h.badOperand (.ite_fst h.badOperand (h.granules
    (fun _ _ _ h => ?_))))))
  split
  · exact h
  · exact .ite_fst h (.ite_fst h h)

/-! ### Resets -/

theorem Keeps.clearRegs {fs p} (h : Keeps s₀ s) : Keeps s₀ (s.clearRegs fs p) := h.regs (Cells.wf_filter _ _)

theorem Keeps.resetCores {lo n} (h : Keeps s₀ s) : Keeps s₀ (s.resetCores lo n) := h.update

theorem Keeps.loseStack {st} (h : Keeps s₀ s) : Keeps s₀ (s.loseStack st) := h.loseRange

theorem Keeps.halfUntested {hf} (h : Keeps s₀ s) : Keeps s₀ (s.halfUntested hf) :=
  ((h.foldl (fun _ _ h => h.setRg)).foldl (fun _ _ h => h.setRg)).setRg.setRg.setRg.update.setRg.setRg.mapUpdate

theorem Keeps.halfState {hf} (h : Keeps s₀ s) : Keeps s₀ (s.halfState hf) := h.update

theorem Keeps.resetHalf {hf} (h : Keeps s₀ s) : Keeps s₀ (s.resetHalf hf) :=
  .foldl (.loseRange (.loseRange (.resetCores (.foldl (.clearRegs (.fuseTiles (.clearRegs (.forgetReports (.halfUntested
    (.setRg (.halfState (.foldl (.ite h.abortBeat h) (fun _ _ h => h.linkLeave))))))))) (fun _ _ h => h.setRg)))))
    (fun _ _ h => h.loseStack)

theorem Keeps.holdHalves {w e} (h : Keeps s₀ s) : Keeps s₀ (s.holdHalves w e) := by
  unfold State.holdHalves
  extract_lets one
  have hone {s n f v} (h : Keeps s₀ s) : Keeps s₀ (one s n f v) :=
    .ite (.ite h.setRg.resetHalf h.setRg) (.ite h.setRg.releaseHalf h.setRg)
  exact hone (hone h)

theorem Completes.halfHoldWrite {w e} (h : Keeps s₀ s) : Completes s₀ (execHalfHoldWrite w e s) := .next h.holdHalves

theorem Keeps.resetHost (h : Keeps s₀ s) : Keeps s₀ s.resetHost :=
  ((h.foldl (fun _ _ h => h.cutAll)).foldl (fun _ _ h => .ite h
    h.removePlot)).freezeStreams.freezeCtx.clearRegs.update.satRg.setRg.showStaging

theorem Completes.hostInterfaceReset (h : Keeps s₀ s) : Completes s₀ (execHostInterfaceReset s) := .next h.resetHost

theorem Keeps.resetHubMain {cause} (h : Keeps s₀ s) : Keeps s₀ (s.resetHubMain cause) :=
  h.resetHalf.resetHalf.resetHost.forgetReports.clearRegs.fuseMacs.setRg.update.resetCores.loseRange.loseRange.setRg

theorem Keeps.restartHub {bad} (h : Keeps s₀ s) : Keeps s₀ (s.restartHub bad) := .ite h h.update.bootSelect

theorem Completes.hubMain {bad} (h : Keeps s₀ s) : Completes s₀ (execHubMain bad s) := .next h.resetHubMain.restartHub

theorem Keeps.startBoot {b} (h : Keeps s₀ s) : Keeps s₀ (s.startBoot b) := by
  unfold State.startBoot
  split
  · exact h.update.update.bootAll
  · exact h.update.restartHub

theorem Completes.mrst {low bad} (h : Keeps s₀ s) : Completes s₀ (execMrst low bad s) :=
  .ite (.next (.ite h.update h.update.resetHubMain)) (.ite (.next h.update) (.ite (.next (.ite h.update
    h.update.update)) (.next h.update.startBoot)))

theorem Completes.pwrokFall (h : Keeps s₀ s) : Completes s₀ (execPwrokFall s) := .next h.resetHubMain

theorem Completes.mainRailFault (h : Keeps s₀ s) : Completes s₀ (execMainRailFault s) := .next h.resetHubMain

theorem Completes.hubAoPowerValid (h : Keeps s₀ s) : Completes s₀ (execHubAoPowerValid s) :=
  .next (.setRg (.loseRange (.loseRange (.resetCores (h.drawn.regs (r := []) fun _ => rfl).update))))

/-! ### Power and flow -/

theorem Keeps.setPower {p} (h : Keeps s₀ s) : Keeps s₀ (s.setPower p) := h.update

theorem Keeps.stepTo {hf new why beat} (h : Keeps s₀ s) : Keeps s₀ (s.stepTo hf new why beat) := .ite h h.setPower.event

theorem Keeps.decideSteps (h : Keeps s₀ s) : Keeps s₀ s.decideSteps := h.setPower

theorem Keeps.stepHalf {beat hf} (h : Keeps s₀ s) : Keeps s₀ (s.stepHalf beat hf) :=
  .ite h.stepTo (.ite h.stepTo (.ite h.stepTo h))

theorem Keeps.flowMeasures (h : Keeps s₀ s) : Keeps s₀ s.flowMeasures :=
  .ite (h.setPower.foldl (fun _ _ h => .ite h h.linkLeave)) h

theorem Keeps.powerTick {beat} (h : Keeps s₀ s) : Keeps s₀ (s.powerTick beat) :=
  h.setPower.flowMeasures.decideSteps.stepHalf.stepHalf.decideSteps

theorem Completes.powerWindow {watts} (h : Keeps s₀ s) : Completes s₀ (execPowerWindow watts s) :=
  .ite (.next h.setPower.decideSteps) (.ite (.ite (.next h.setPower) (.next h.setPower.decideSteps)) (.next h.setPower))

theorem Completes.thermalSample {west east hbm} (h : Keeps s₀ s) : Completes s₀ (execThermalSample west east hbm s) :=
  .next h.setPower.decideSteps

theorem Keeps.lockState {st} (h : Keeps s₀ s) : Keeps s₀ (s.lockState st) := .ite h h.setPower.event

theorem Keeps.enterSafe {cause} (h : Keeps s₀ s) : Keeps s₀ (s.enterSafe cause) :=
  h.setPower.lockState.setPower.emit.resetHubMain

theorem Keeps.enterNormal (h : Keeps s₀ s) : Keeps s₀ s.enterNormal :=
  .ite h.lockState.setPower.decideSteps.emit h.lockState.setPower.decideSteps

theorem Keeps.leaveSafe (h : Keeps s₀ s) : Keeps s₀ s.leaveSafe := by
  unfold State.leaveSafe
  dsimp only
  split
  · exact h.setPower.enterNormal.startBoot
  · exact h.setPower.enterNormal

theorem Keeps.enterFlowFault (h : Keeps s₀ s) : Keeps s₀ s.enterFlowFault := h.lockState.setPower

theorem Keeps.logDisagreement (h : Keeps s₀ s) : Keeps s₀ s.logDisagreement := h.setPower.event

theorem Completes.flowSample {a b} (h : Keeps s₀ s) : Completes s₀ (execFlowSample a b s) := by
  unfold execFlowSample
  extract_lets _ _ _ _ _ _ _ s1 s2 _ s3 _ s4
  have h2 : Keeps s₀ s2 := .ite h.setPower.lockState h.setPower
  have h3 : Keeps s₀ s3 := h2.setPower
  have h4 : Keeps s₀ s4 := h.setPower
  refine .ite (.next h.setPower.enterSafe) (.ite ?_ ?_)
  · exact .ite (.ite (.next h3.enterFlowFault) (.next h3)) (.next h2)
  · exact .ite (.next h4.logDisagreement.lockState) (.ite (.next h4.enterNormal) (.ite (.next h4.leaveSafe) (.next h4)))

theorem Completes.flowFaultDeadline (h : Keeps s₀ s) : Completes s₀ (execFlowFaultDeadline s) :=
  .ite (.next h.flowMeasures.stepHalf.stepHalf) (.next h)

theorem Completes.thermalTrip {cause} (h : Keeps s₀ s) : Completes s₀ (execThermalTrip cause s) :=
  .ite (.next h) (.next h.enterSafe)

theorem Completes.powerSet (h : Keeps s₀ s) : Completes s₀ (execPowerSet s) :=
  .next (h.manage (fun _ => .ite_effect h.refuse h.setPower.done))

theorem Completes.powerGet (h : Keeps s₀ s) : Completes s₀ (execPowerGet s) := .next (h.manage (fun _ => h))

theorem Completes.tapClock {testEn tms tdi pins} (h : Keeps s₀ s) : Completes s₀ (execTapClock testEn tms tdi pins s) :=
  .ite (.next h.setPower) (.next h.setPower)

/-! ### The tick -/

theorem Keeps.applied {kind a} (h : Keeps s₀ s) : Keeps s₀ (s.applied kind a) := h.update.setRg.setRg

theorem Keeps.beatPend {t} (h : Keeps s₀ s) : Keeps s₀ (s.beatPend t) := h.setCore

theorem Keeps.unitsTick {n abort} (h : Keeps s₀ s) : Keeps s₀ (s.unitsTick n abort) :=
  .serveLoads (.postHeld (.powerTick (.update (h.retireTiles.levelTick.remapTick.routeTick.foldl (fun _ _ h =>
    h.cacheTick)))))

theorem Keeps.furrowTicks {n closed} (h : Keeps s₀ s) : Keeps s₀ (s.furrowTicks n closed) :=
  h.foldl (fun _ _ h => h.foldl (fun _ _ h => h.furrowTick))

theorem Keeps.startTile {n take t} (h : Keeps s₀ s) : Keeps s₀ (s.startTile n take t) :=
  .ite (.ite h.swapIn h.setTile) h.startTable.setTile.setRg

theorem Keeps.startTiles {n take} (h : Keeps s₀ s) : Keeps s₀ (s.startTiles n take) :=
  .ite (h.foldl (fun _ _ h => h.startTile)) h

theorem Keeps.clearBeat {t} (h : Keeps s₀ s) : Keeps s₀ (s.clearBeat t) := h.setTile

theorem Keeps.waitersTick (h : Keeps s₀ s) : Keeps s₀ s.waitersTick := h.serveLoads.advanceWaiting.eadvanceWaiting

theorem Keeps.rebase {n a} (h : Keeps s₀ s) : Keeps s₀ (s.rebase n a) := h.update.setRg.setRg

theorem Completes.startTick (h : Keeps s₀ s) : Completes s₀ (execStartTick s) := by
  unfold execStartTick
  split
  · exact .next h
  · exact .next (h.applied.rebase.update.unitsTick.foldl (fun _ _ h =>
      h.clearBeat)).mirrorTick.startTiles.furrowTicks.joinTick

theorem Keeps.debtTick {n a critMid critTile} (h : Keeps s₀ s) : Keeps s₀ (s.debtTick n a critMid critTile) :=
  .ite h.setRg.setRg.setRg.update.setRg (.ite h.setRg.setRg.setRg.setRg.update.incRg.event h.setRg.setRg.setRg.setRg)

theorem Keeps.noteTick {t} (h : Keeps s₀ s) : Keeps s₀ (s.noteTick t) :=
  .ite h (.sqRaise (.setRg (.foldl (.ite h.setRg h) (fun _ _ h => h.setRg))))

theorem Keeps.closeTile {t} (h : Keeps s₀ s) : Keeps s₀ (s.closeTile t) := h.noteTick.loseScratch.clearBeat.setTile

theorem Keeps.replaysDone {n} (h : Keeps s₀ s) : Keeps s₀ (s.replaysDone n) := by
  refine Keeps.foldl h.update (fun s p h => ?_)
  extract_lets _ s1
  have h1 : Keeps s₀ s1 := h.foldl (fun _ _ h => h.logFault)
  exact .ite h1.event h1

theorem Keeps.pruneTick {n others homes} (h : Keeps s₀ s) : Keeps s₀ (s.pruneTick n others homes) := by
  unfold State.pruneTick
  extract_lets _ _ s1 s2
  have h2 : Keeps s₀ s2 := by
    refine h.update.foldl (fun s e h => ?_)
    extract_lets _ s3 s4 s5
    have h4 : Keeps s₀ s4 := h.setMembers.foldl (fun _ _ h => h.setEnt)
    have h5 : Keeps s₀ s5 := .ite (.ite h4.setRg h4) h.setMembers
    exact .ite h5.event h5
  exact h2.foldl (fun _ _ h => h.setEnt)

theorem Keeps.periodTick {us n a} (h : Keeps s₀ s) : Keeps s₀ (s.periodTick us n a) := h.update.setRg.showBudget.event

theorem Keeps.lateLosses (h : Keeps s₀ s) : Keeps s₀ s.lateLosses := .ite h (.ite h.update.abortBeat h.update)

theorem Keeps.commit {n a i} (h : Keeps s₀ s) : Keeps s₀ (s.commit n a i) := by
  unfold State.commit
  extract_lets s1 s2 s3 s4 s5 s6 s7 s8
  have h2 : Keeps s₀ s2 := h.applied.debtTick.foldl (fun _ _ h => h.closeTile)
  have h7 : Keeps s₀ s7 := h2.mirrorTick.gateCommit.placement.mulchTick.replaysDone.pruneTick.setRg.unitsTick
  have h8 : Keeps s₀ s8 := by
    unfold s8
    split
    · exact h7.periodTick
    · exact h7
  exact h8.setRg

theorem Keeps.begin {n stop} (h : Keeps s₀ s) : Keeps s₀ (s.begin n stop) :=
  .joinTick (.lateLosses (.quiesceTick (.furrowTicks (.foldl (.startTiles (.waitersTick (.ite h.update h)))
    (fun _ _ h => h.beatPend)))))

theorem Keeps.abortTile {t} (h : Keeps s₀ s) : Keeps s₀ (s.abortTile t) := by
  refine (h.undoLog.foldl (fun _ _ h => ?_)).loseScratch.clearBeat.setTile
  split
  · exact h.loseRange
  · exact h

theorem Keeps.substitute {n lost sp} (h : Keeps s₀ s) : Keeps s₀ (s.substitute n lost sp) := by
  unfold State.substitute
  extract_lets s1 _ s2 s3 s4 s5
  have h2 : Keeps s₀ s2 := .ite h.setMembers.update.event h.setMembers
  have h4 : Keeps s₀ s4 := .setRg (.setRg (.ite h2.setRg h2))
  have h5 : Keeps s₀ s5 := by
    unfold s5
    split
    · exact h4
    · exact h4.setRg.setRg.setRg.setRg.setRg.setRg.setRg.foldl (fun _ _ h => h.setEnt)
  exact .ite h5.noticeAll h2

theorem Keeps.abort {n a cause halt} (h : Keeps s₀ s) : Keeps s₀ (s.abort n a cause halt) := by
  unfold State.abort
  extract_lets s1 _ s2 _ _ s3 s4 s5 s6 s7 s8 s9 s10 s11
  have h4 : Keeps s₀ s4 := h.applied.update.update.foldl (fun _ _ h => h.abortTile)
  have h6 : Keeps s₀ s6 :=
    h4.gateAbort.mirrorTick.beatConnsReset.foldl (fun _ _ h => h.foldl (fun _ _ h => h.furrowAbort))
  have h9 : Keeps s₀ s9 := h6.unitsTick.sqRaise.event.serveLoads.foldl (fun _ _ h => h.beatPend)
  have h10 : Keeps s₀ s10 := by
    refine h9.foldl (fun _ _ h => ?_)
    split
    · exact h.substitute
    · exact h
  split
  · exact h10.joinTick.haltNow
  · exact h10.joinTick.tryRestart

theorem Completes.abortTick {cause halt} (h : Keeps s₀ s) : Completes s₀ (execAbortTick cause halt s) := by
  unfold execAbortTick
  split
  · exact .next h
  · exact .ite (.next h.abort) (.next h.abort)

theorem Completes.commitTick {i} (h : Keeps s₀ s) : Completes s₀ (execCommitTick i s) := by
  unfold execCommitTick
  split
  · exact .next h
  · exact .ite (.next h.abort) (.next h.commit.begin)

theorem Keeps.aliasRoutes (h : Keeps s₀ s) : Keeps s₀ s.aliasRoutes := by
  refine h.foldl (fun _ _ h => ?_)
  split
  · exact h.setRg.setRg
  · exact h

theorem Keeps.resendReads {subst} (h : Keeps s₀ s) : Keeps s₀ (s.resendReads subst) :=
  h.update.foldl (fun _ _ h => .ite h (.ite (.ite h h.setStream.peerRead) h.streamErr.detect))

theorem Completes.restartTick (h : Keeps s₀ s) : Completes s₀ (execRestartTick s) := by
  unfold execRestartTick
  split
  · exact .next h
  · exact .next ((h.applied.rebase.setRg.aliasRoutes.update.unitsTick.foldl (fun _ _ h =>
      h.clearBeat)).mirrorTick.startTiles.foldl (fun _ _ h => h.beatPend)).furrowTicks.resendReads.joinTick

theorem Completes.idlePeriodTick (h : Keeps s₀ s) : Completes s₀ (execIdlePeriodTick s) :=
  .ite (.next h) (.next (.ite h.update.setRg.retireTiles.levelTick.remapTick.powerTick.quiesceTick.durableNow.heldNow
    h.update.setRg.retireTiles.levelTick.remapTick.powerTick.quiesceTick))

theorem Keeps.lossRecord {mid sp} (h : Keeps s₀ s) : Keeps s₀ (s.lossRecord mid sp) := h.countReport.logFault.update

theorem Keeps.newTree {master tree} (h : Keeps s₀ s) : Keeps s₀ (s.newTree master tree) := by
  unfold State.newTree
  extract_lets _ s1 _ s2
  have h1 : Keeps s₀ s1 := h.update
  have h2 : Keeps s₀ s2 := by
    unfold s2
    split
    · exact .ite h1.update h1
    · exact h1.update.setTree.showBudget
  exact .ite h2.setRg h2

theorem Keeps.commitAfterLoss (h : Keeps s₀ s) : Keeps s₀ s.commitAfterLoss := by
  unfold State.commitAfterLoss
  split
  · exact h.toChildren
  · exact h.update.schedule

theorem Keeps.membersLost {lost tree} (h : Keeps s₀ s) : Keeps s₀ (s.membersLost lost tree) := by
  unfold State.membersLost
  extract_lets _ _ _ _ _ _ s1 s2 s3 _ _ s4 s5 s6
  have h1 : Keeps s₀ s1 := h.foldl (fun _ _ h => h.event.connsLost)
  have h3 : Keeps s₀ s3 := h1.setMembers.newTree.ckFail
  have h4 : Keeps s₀ s4 := h3.update
  have h5 : Keeps s₀ s5 := h3.update
  have h6 : Keeps s₀ s6 := h5.foldl (fun _ _ h => h.lossRecord)
  exact .ite h (.ite h1.haltNow (.ite h3 (.ite (.ite h4.commitAfterLoss h4) (.ite h5 h6.abortBeat))))

theorem Completes.memberLost {lost tree} (h : Keeps s₀ s) : Completes s₀ (execMemberLost lost tree s) :=
  .next h.membersLost

theorem Completes.spareArmTimeout (h : Keeps s₀ s) : Completes s₀ (execSpareArmTimeout s) := .next h.update.tryRestart

/-! ### Register access -/

/-- The state that a completed command leaves. -/
theorem Keeps.after {r} (hr : Completes s₀ r) : Keeps s₀ (s.after r) := by
  obtain ⟨t, rfl, ht⟩ := hr
  exact ht

/-- A register with a behaviour of its own keeps what the behaviour keeps. -/
theorem Keeps.on {w f g} (h : Keeps s₀ s) (hg : ∀ s i v, Keeps s₀ s → Keeps s₀ (g s i v)) : Keeps s₀ (s.on w f g) := by
  unfold State.on
  split
  · exact hg _ _ _ h
  · exact h

theorem Keeps.onOne {w f g} (h : Keeps s₀ s) (hg : ∀ s i, Keeps s₀ s → Keeps s₀ (g s i)) : Keeps s₀ (s.onOne w f g) :=
  h.on fun s i _ h => .ite h (hg s i h)

theorem Keeps.plainRw {w own} (h : Keeps s₀ s) : Keeps s₀ (s.plainRw w own) := h.writeRw

theorem Keeps.sqWrite {fs unit off v} (h : Keeps s₀ s) : Keeps s₀ (s.sqWrite fs unit off v) := by
  unfold State.sqWrite
  split
  · exact h
  · refine .ite (h.foldl (fun _ _ h => .ite ?_ h)) h
    split
    · exact h.setRg
    · exact h

theorem Keeps.tvWrite {fs unit off v} (h : Keeps s₀ s) : Keeps s₀ (s.tvWrite fs unit off v) := by
  refine h.foldl (fun _ _ h => .ite ?_ h)
  split
  · exact h.setRg
  · exact h

theorem Keeps.scrubTv {f i} (h : Keeps s₀ s) : Keeps s₀ (s.scrubTv f i) := .ite h.setRg.detect h

theorem Keeps.scrubReg {fs unit off} (h : Keeps s₀ s) : Keeps s₀ (s.scrubReg fs unit off) := by
  refine h.foldl (fun _ _ h => ?_)
  split
  · exact h.scrubTv
  · exact h

theorem Keeps.setLatch {r b unit x} (h : Keeps s₀ s) : Keeps s₀ (s.setLatch r b unit x) := h.update

theorem Keeps.shown {fs unit off} (h : Keeps s₀ s) : Keeps s₀ (s.shown fs unit off).1 := .ite_fst h.drawn h

theorem Keeps.tileShow {t} (h : Keeps s₀ s) : Keeps s₀ (s.tileShow t) := h.setRg.setRg.setRg

theorem Keeps.readReg {r b unit off} (h : Keeps s₀ s) : Keeps s₀ (s.readReg r b unit off).1 := by
  unfold State.readReg
  extract_lets _ s1
  have h1 : Keeps s₀ s1 := .scrubReg (.ite h.tileShow h)
  split
  · exact .ite_fst h1.setLatch.pair (.ite_fst h1.setLatch.shown h1.setLatch.shown)
  · exact .ite_fst h1.setLatch.shown h1.shown

theorem Keeps.seqWrite {w} (h : Keeps s₀ s) : Keeps s₀ (s.seqWrite w) := by
  refine h.sqWrite.on (fun _ _ _ h => ?_)
  split
  · exact .after (.arm h)
  · exact .after (.armSame h)
  · exact .after (.disarm h)
  · exact h

theorem Keeps.tileWrite {w} (h : Keeps s₀ s) : Keeps s₀ (s.tileWrite w) := by
  unfold State.tileWrite
  extract_lets _ s1 s2
  have h2 : Keeps s₀ s2 := .onOne (.ite h.sqWrite h) (fun _ _ h => .after (.perfClr h))
  split
  · extract_lets s3 s4
    have h4 : Keeps s₀ s4 := .on (.ite h2 h2.plainRw) (fun _ _ _ h => h.furrowEn)
    exact h4.onOne (fun _ _ h => h.furrowStop)
  · exact .ite (.ite h2.cacheWrite h2) h2.plainRw

theorem Keeps.dvportWrite {w} (h : Keeps s₀ s) : Keeps s₀ (s.dvportWrite w) :=
  (h.sqWrite.plainRw.on (fun _ _ _ h => .ite h.setRg.linkLeave h.setRg)).onOne (fun _ _ h => h.retrainNeg)

theorem Keeps.tilePageWrite {r t o v} (h : Keeps s₀ s) : Keeps s₀ (s.tilePageWrite r t o v) := by
  unfold State.tilePageWrite
  dsimp only
  split
  · exact h.seqWrite
  · exact h.tileWrite

theorem Keeps.tilePageRead {r t o} (h : Keeps s₀ s) : Keeps s₀ (s.tilePageRead r t o).1 := h.readReg

/-! ### The windows -/

theorem Keeps.holdCore {c was now} (h : Keeps s₀ s) : Keeps s₀ (s.holdCore c was now) := .ite h.setCore h

theorem Keeps.holdTiles {k v} (h : Keeps s₀ s) : Keeps s₀ (s.holdTiles k v) := h.setRg.foldl (fun _ _ h => h.holdCore)

theorem Keeps.holdHubs {r v} (h : Keeps s₀ s) : Keeps s₀ (s.holdHubs r v) :=
  .ite (h.setRg.foldl (fun _ _ h => h.holdCore)) h

theorem Keeps.flashWrite {a v} (h : Keeps s₀ s) : Keeps s₀ (s.flashWrite a v) :=
  .ite (.ite h h.eraseSectors.update) (.writeN (.ite h h.eraseSectors.update))

theorem Keeps.iwGet {w} (h : Keeps s₀ s) : Keeps s₀ (s.iwGet w).1 := by
  unfold State.iwGet
  dsimp only
  split
  · exact .ite_fst h (.ite_fst h.tilePageRead h.drawn)
  · exact h
  · exact h
  · exact h.readReg
  · exact h
  · exact h
  · exact h

theorem Keeps.iwPut {w v} (h : Keeps s₀ s) (e : s.iwPut w v = some t) : Keeps s₀ t := by
  unfold State.iwPut at e
  dsimp only at e
  split at e
  · split at e
    · exact Option.some.inj e ▸ h.writeN
    · split at e
      · exact Option.some.inj e ▸ h.tilePageWrite
      · exact h.postMsg e
  · exact Option.some.inj e ▸ h.setCore
  · exact Option.some.inj e ▸ h.setCore
  · exact Option.some.inj e ▸ h.dvportWrite
  · exact Option.some.inj e ▸ h.writeHub
  · exact Option.some.inj e ▸ h.writeHbm
  · exact Option.some.inj e ▸ h.flashWrite

theorem Keeps.iwFail {w code} (h : Keeps s₀ s) : Keeps s₀ (s.iwFail w code) := h.setRg.sqRaise

theorem Keeps.iwStep {w} (h : Keeps s₀ s) : Keeps s₀ (s.iwStep w) := .ite h.setRg.setRg h

theorem Keeps.iwRead {r w met} (h : Keeps s₀ s) : Keeps s₀ (s.iwRead r w met).1 :=
  .ite_fst h.iwFail.setRg.iwStep (.iwStep (.ite h.iwGet.setRg h.iwGet))

theorem Keeps.iwWrite {r w v met} (h : Keeps s₀ s) : Keeps s₀ (s.iwWrite r w v met) := by
  refine .ite h.iwFail.iwStep (.ite h ?_)
  split
  · rename_i e
    exact (h.iwPut e).iwStep
  · exact h.iwFail.iwStep

theorem Keeps.windowWrite1 {x} (h : Keeps s₀ s) : Keeps s₀ (s.windowWrite1 x) :=
  .ite (.ite (h.sqWrite.plainRw.on (fun _ _ _ h => h.iwWrite)) h) ((h.on (fun _ _ _ h => h.holdTiles)).on
    (fun _ _ _ h => h.holdHubs))

theorem Keeps.windowRead {r off} (h : Keeps s₀ s) : Keeps s₀ (s.windowRead r off).1 :=
  .ite_fst (.ite_fst h (.ite_fst h.iwRead h.readReg)) h.readReg

/-! ### Registers with other behaviour -/

theorem Keeps.turnedAway {r b unit off} (h : Keeps s₀ s) : Keeps s₀ (s.turnedAway r b unit off) := by
  unfold State.turnedAway
  split
  · exact .ite h.trap h
  · exact h

theorem Keeps.applyHbm (h : Keeps s₀ s) : Keeps s₀ s.applyHbm :=
  .ite h.setRg ((h.setRg.setRg.setRg.foldl (fun _ _ h => h.setRg.setRg)).foldl (fun _ _ h => h.loseStack))

theorem Keeps.drawnFuses (h : Keeps s₀ s) : Keeps s₀ s.drawnFuses := h.update

theorem Keeps.systemWrite {w} (h : Keeps s₀ s) : Keeps s₀ (s.systemWrite w) :=
  .onOne (.onOne (.onOne (.ite h.holdHalves h) (fun _ _ h => .after (.fuseRetry h.drawnFuses))) (fun _ _ h => .after
    (.recoveryReboot h.drawnFuses))) (fun _ _ h => .after (.hubMain h.drawnFuses))

theorem Keeps.faultWrite {w} (h : Keeps s₀ s) : Keeps s₀ (s.faultWrite w) :=
  .onOne (.ite h h.plainRw) (fun _ _ h => .after (.mirrorSync h))

theorem Keeps.beatWrite {w} (h : Keeps s₀ s) : Keeps s₀ (s.beatWrite w) := by
  unfold State.beatWrite
  extract_lets s1 s2 s3 s4 s5 s6
  have h2 : Keeps s₀ s2 := h.plainRw.on (fun _ _ _ h => .ite h (.ite h.setRg h.setRg.showBudget))
  have h3 : Keeps s₀ s3 := h2.on (fun _ _ _ h => .after (.nextPeriodWrite h))
  have h4 : Keeps s₀ s4 := h3.on (fun _ _ _ h => .after (.joinEnWrite h))
  have h5 : Keeps s₀ s5 := .onOne (.ite h4.formCheck h4) (fun _ _ h => h.form)
  exact (h5.onOne (fun _ _ h => h.dissolve)).on (fun _ _ _ h => h.runWrite)

theorem Keeps.placeWrite {w} (h : Keeps s₀ s) : Keeps s₀ (s.placeWrite w) :=
  .ite h (h.plainRw.on (fun _ _ _ h => .after (.placeValidWrite h)))

theorem Keeps.dvorarWrite {w} (h : Keeps s₀ s) : Keeps s₀ (s.dvorarWrite w) :=
  ((h.plainRw.on (fun _ _ _ h => .ite h h.setRg)).on (fun _ _ _ h => .ite h h.setRg)).onOne (fun _ _ h => .after
    (.routeSwap h))

theorem Keeps.ethWrite {w} (h : Keeps s₀ s) : Keeps s₀ (s.ethWrite w) := h.plainRw.on (fun _ _ _ h => .ite h h.ctxReg)

theorem Keeps.schedWrite {w} (h : Keeps s₀ s) : Keeps s₀ (s.schedWrite w) :=
  .ite (.after (.shpBurstWrite h)) (.ite (.after (.policerPenWrite h)) h.plainRw)

theorem Keeps.stashWrite {w} (h : Keeps s₀ s) : Keeps s₀ (s.stashWrite w) := h.plainRw.on (fun _ _ _ h => h.setMode)

theorem Keeps.cipherWrite {w} (h : Keeps s₀ s) : Keeps s₀ (s.cipherWrite w) := by
  unfold State.cipherWrite
  extract_lets _ s1 s2 s3 s4 s5 s6
  have h3 : Keeps s₀ s3 := h.sqWrite.plainRw.onOne (fun _ _ h => h.lockClaim)
  have h4 : Keeps s₀ s4 := h3.onOne (fun _ _ h => h.lockRenew)
  have h5 : Keeps s₀ s5 := h4.onOne (fun _ _ h => h.cipherGo)
  have h6 : Keeps s₀ s6 := h5.onOne (fun _ _ h => h.sign)
  exact .ite h (.ite (.ite h.plainRw h.lockViol) (h6.onOne (fun _ _ h => h.lockRelease)))

theorem Keeps.mulchWrite {w} (h : Keeps s₀ s) : Keeps s₀ (s.mulchWrite w) :=
  .ite (h.on (fun _ _ _ h => h.setRg)) (h.plainRw.on (fun _ _ _ h => h.ckEnable))

theorem Keeps.sieveWrite {w} (h : Keeps s₀ s) : Keeps s₀ (s.sieveWrite w) := by
  refine .ite ?_ (.ite ?_ (.ite ?_ (.ite ?_ ?_)))
  · exact .ite h.setRg h.writeN
  · exact .ite (.after (.tableEnWrite h)) (.ite h h.plainRw)
  · exact .ite (.after (.sieveGo h)) h.plainRw
  · exact .ite (.after (.snap h)) h.plainRw
  · exact (h.plainRw.on (fun _ _ _ h => .after (.portModeWrite h))).on (fun _ _ _ h => .after (.portEnWrite h))

theorem Keeps.hostRegs {w} (h : Keeps s₀ s) : Keeps s₀ (s.hostRegs w) := h.plainRw.on (fun _ _ _ h => .after (.mrDb h))

theorem Keeps.plotWrite {w} (h : Keeps s₀ s) : Keeps s₀ (s.plotWrite w) := by
  refine .ite h ?_
  split
  · exact h.plainRw.onOne (fun _ _ h => .after (.mbDb h))
  · exact (h.onOne (fun _ _ h => .after (.mbReplyDb h))).on (fun _ _ _ h => h.setRg)

theorem Keeps.blkWrite {w} (h : Keeps s₀ s) : Keeps s₀ (s.blkWrite w) := by
  unfold State.blkWrite
  split
  · exact h.systemWrite
  · exact h
  · exact h.windowWrite1
  · exact h.faultWrite
  · exact h.beatWrite
  · exact h.placeWrite
  · exact h.plainRw.onOne (fun _ _ h => h.applyHbm)
  · exact h.dvorarWrite
  · exact h.ethWrite
  · exact h.schedWrite
  · exact h.stashWrite
  · exact h.cipherWrite
  · exact h.mulchWrite
  · exact h.plainRw
  · exact .ite h.plainRw h
  · exact h.sieveWrite
  · exact h.hostRegs
  · exact h.plotWrite
  · exact h.seqWrite
  · exact h.tileWrite
  · exact h.dvportWrite

theorem Keeps.regWrite {w} (h : Keeps s₀ s) : Keeps s₀ (s.regWrite w) := .ite h (.blkWrite (.ite h.sqWrite.tvWrite h))

theorem Keeps.regRead {r b unit off} (h : Keeps s₀ s) : Keeps s₀ (s.regRead r b unit off).1 := by
  unfold State.regRead
  split
  · exact h.windowRead
  · exact .ite_fst h h.readReg
  · refine .ite_fst ?_ h.readReg
    dsimp only
    split
    · dsimp only
      exact h.update.setLatch
    · dsimp only
      exact h.update.setLatch.drawn
  · exact .ite_fst h h.readReg
  · exact .ite_fst h.readReg h
  · exact h.readReg

theorem Completes.registerWrite {r b unit off v} (h : Keeps s₀ s) : Completes s₀ (execRegisterWrite r b unit off v s) :=
  .ite (.next h.regWrite) (.next h.turnedAway)

theorem Completes.sqStatusWrite {r b unit off v} (h : Keeps s₀ s) : Completes s₀ (execSqStatusWrite r b unit off v s) :=
  .ite (.next h.sqWrite) (.next (.ite h h.turnedAway))

theorem Keeps.aliasWrite {image r b unit off v} (h : Keeps s₀ s) : Keeps s₀ (s.aliasWrite image r b unit off v) :=
  .ite h.turnedAway (.ite h.regWrite h)

theorem Completes.aliasSet {r b unit off v} (h : Keeps s₀ s) : Completes s₀ (execAliasSet r b unit off v s) :=
  .next h.aliasWrite

theorem Completes.aliasClear {r b unit off v} (h : Keeps s₀ s) : Completes s₀ (execAliasClear r b unit off v s) :=
  .next h.aliasWrite

theorem Completes.aliasToggle {r b unit off v} (h : Keeps s₀ s) : Completes s₀ (execAliasToggle r b unit off v s) :=
  .next h.aliasWrite

theorem Completes.tvFieldWrite {r b unit off v} (h : Keeps s₀ s) : Completes s₀ (execTvFieldWrite r b unit off v s) :=
  .ite (.next h.tvWrite) (.next h.turnedAway)

theorem Completes.tvVoteScrub {b n i} (h : Keeps s₀ s) : Completes s₀ (execTvVoteScrub b n i s) := by
  unfold execTvVoteScrub
  split
  · exact .next h.scrubTv
  · exact .next h

theorem Completes.counterPairLowRead {r b unit off} (h : Keeps s₀ s) :
    Completes s₀ (execCounterPairLowRead r b unit off s) := by
  refine .ite (.ite (.next h.regRead.emit) ?_) (.next h)
  split
  · exact .next h.turnedAway
  · exact .next h.emit

theorem Completes.hbmApply (h : Keeps s₀ s) : Completes s₀ (execHbmApply s) := .ite (.next h) (.next h.applyHbm)

theorem Completes.iwDataRead {r met} (h : Keeps s₀ s) : Completes s₀ (execIwDataRead r met s) := by
  unfold execIwDataRead
  split
  · exact .ite (.next h.iwRead.emit) (.next h)
  · exact .next h

theorem Completes.iwDataWrite {r v met} (h : Keeps s₀ s) : Completes s₀ (execIwDataWrite r v met s) := by
  unfold execIwDataWrite
  split
  · exact .ite (.next h.iwWrite) (.next h)
  · exact .next h

theorem Completes.coreHoldWrite {r k v} (h : Keeps s₀ s) : Completes s₀ (execCoreHoldWrite r k v s) :=
  .ite (.next h) (.ite (.next h.holdTiles) (.next h.holdHubs))

/-! ### Ohm's accesses to outer memory -/

theorem Keeps.loadSlice {c k t a} (h : Keeps s₀ s) : (s.loadSlice c k t a).Keeps s₀ := by
  unfold State.loadSlice
  split
  · exact h
  · split
    · exact trivial
    · split
      · exact trivial
      · split
        · exact h.drawn
        · exact h

theorem Keeps.loadHbm {c a cached} (h : Keeps s₀ s) : (s.loadHbm c a cached).Keeps s₀ := by
  unfold State.loadHbm
  dsimp only
  split
  · split
    · split
      · exact h.cacheRead
      · exact trivial
    · exact h
  · exact h

theorem Keeps.extRead {c k a cached} (h : Keeps s₀ s) : (s.extRead c k a cached).Keeps s₀ := by
  unfold State.extRead
  split
  · exact trivial
  · split
    · exact trivial
    · split
      · exact trivial
      · split
        · exact h.loadSlice
        · exact h
        · exact h.loadHbm
        · exact h
        · exact h.tilePageRead
        · exact h.drawn
        · split
          · split
            · exact h.regRead
            · exact h
          · exact h
        · exact h

theorem Keeps.extLoad {c k a} (h : Keeps s₀ s) : (s.extLoad c k a).Keeps s₀ := h.extRead

theorem Keeps.hold {c key v} (h : Keeps s₀ s) : Keeps s₀ (s.hold c key v) := h.setCore

theorem Keeps.storeSlice {c t a v} (h : Keeps s₀ s) : Keeps s₀ (s.storeSlice c t a v) := .ite h.hold h.writeN

theorem Keeps.storeHbm {c a v} (h : Keeps s₀ s) : Keeps s₀ (s.storeHbm c a v) := by
  refine .ite (.hold ?_) (.writeHbm ?_)
  · split
    · exact h.uncache
    · exact h
  · split
    · exact h.uncache
    · exact h

theorem Keeps.extStore {c k a v more} (h : Keeps s₀ s) : (s.extStore c k a v more).Keeps s₀ := by
  unfold State.extStore
  split
  · exact trivial
  · split
    · exact trivial
    · split
      · exact trivial
      · split
        · exact h.storeSlice
        · exact h.writeHub
        · exact h.storeHbm
        · split
          · exact trivial
          · exact h.writeN
        · exact h.tilePageWrite
        · split
          · rename_i e
            exact h.postMsg e
          · exact trivial
        · split
          · split
            · exact h.regWrite
            · exact h
          · exact h
        · exact h

/-- An access of a core keeps what reaching its lanes keeps. -/
theorem Keeps.extRun {c a op acc done k} (h : Keeps s₀ s) (ha : ∀ s k, Keeps s₀ s → (acc s k).Keeps s₀) :
    Keeps s₀ (extRun c a op acc done s k).1 := by
  unfold Machine.extRun
  split
  · rename_i e
    have h1 := (ha _ _ h.setCore).ok e
    exact .ite_fst h1.stall h1
  · exact h
  · exact h

theorem Keeps.laneLoad {c rd rs o f} (h : Keeps s₀ s) : Keeps s₀ (laneLoad c rd rs o f s) :=
  h.runWith (fun _ => h.extRun (fun _ _ h => h.extLoad))

theorem Keeps.laneStore {c rs o f} (h : Keeps s₀ s) : Keeps s₀ (laneStore c rs o f s) :=
  h.runWith (fun _ => h.extRun (fun _ _ h => h.extStore))

theorem Completes.ldl {c rd rs o} (h : Keeps s₀ s) : Completes s₀ (execLdl c rd rs o s) := .next h.laneLoad

theorem Completes.ldls {c rd rs o} (h : Keeps s₀ s) : Completes s₀ (execLdls c rd rs o s) := .next h.laneLoad

theorem Completes.stl {c rd rs o} (h : Keeps s₀ s) : Completes s₀ (execStl c rd rs o s) := .next h.laneStore

theorem Completes.ldf {c rd rs imm} (h : Keeps s₀ s) : Completes s₀ (execLdf c rd rs imm s) := .next h.laneLoad

theorem Completes.stf {c rd rs imm} (h : Keeps s₀ s) : Completes s₀ (execStf c rd rs imm s) :=
  .next (h.runWith (fun _ => h.extRun (fun _ _ h => h.extStore)))

theorem Keeps.atomicOp {c rd rs op} (h : Keeps s₀ s) : Keeps s₀ (atomicOp c rd rs op s) := by
  refine h.runWith (fun _ => h.extRun (fun _ _ h => ?_))
  split
  · exact trivial
  · split
    · exact trivial
    · split
      · exact trivial
      · split
        · rename_i e
          split
          · exact h.extRead.ok e
          · split
            · split
              · exact trivial
              · exact h.extRead.ok e
            · split
              · rename_i e'
                exact (h.extRead.ok e).extStore.ok e'
              · exact (h.extRead.ok e).extStore
        · exact h.extRead

theorem Completes.atadd {c rd rs rt} (h : Keeps s₀ s) : Completes s₀ (execAtadd c rd rs rt s) := .next h.atomicOp

theorem Completes.atswap {c rd rs rt} (h : Keeps s₀ s) : Completes s₀ (execAtswap c rd rs rt s) := .next h.atomicOp

theorem Completes.atcas {c rd rs rt ru} (h : Keeps s₀ s) : Completes s₀ (execAtcas c rd rs rt ru s) := .next h.atomicOp

theorem Keeps.loadLanes {c l} (h : Keeps s₀ s) : (s.loadLanes c l).Keeps s₀ := by
  induction l generalizing s with
  | nil => exact h
  | cons a l ih =>
    unfold State.loadLanes
    split
    · rename_i e
      have h1 := ih (h.extLoad.ok e)
      split
      · rename_i e
        exact h1.ok e
      · exact h1
    · split <;> trivial
    · trivial

theorem Keeps.storeLanes {c more l bs} (h : Keeps s₀ s) : (s.storeLanes c more l bs).Keeps s₀ := by
  induction l generalizing s more bs with
  | nil => exact h
  | cons a l ih =>
    unfold State.storeLanes
    split
    · rename_i e
      exact ih (h.extStore.ok e)
    · trivial
    · trivial

/-- A block transfer keeps what its granules keep. -/
theorem Keeps.blkRun {n g elem fuel k i} (h : Keeps s₀ s) (he : ∀ s k i, Keeps s₀ s → Keeps s₀ (elem s k i).1) :
    Keeps s₀ (blkRun n g elem fuel s k i).1 := by
  induction fuel generalizing s k i with
  | zero => exact .ite_fst h h.stall
  | succ fuel ih =>
    unfold Machine.blkRun
    refine .ite_fst ?_ h.stall
    have h1 := he s k i h
    split
    · rename_i e
      exact ih (h1.of_eq e)
    · rename_i e
      exact h1.of_eq e
    · rename_i e
      exact h1.of_eq e

theorem Keeps.blkldElem {c fmt elem dst scale k i} (h : Keeps s₀ s) :
    Keeps s₀ (blkldElem c fmt elem dst scale s k i).1 := by
  unfold Machine.blkldElem
  dsimp only
  split
  · exact h
  · split
    · exact h
    · exact h
    · rename_i e
      exact h.setCore.loadLanes.ok e

theorem Keeps.blkstElem {c fmt sat src elem scale k i} (h : Keeps s₀ s) :
    Keeps s₀ (blkstElem c fmt sat src elem scale s k i).1 := by
  unfold Machine.blkstElem
  dsimp only
  split
  · exact h
  · split
    · exact h
    · split
      · exact h
      · exact h
      · rename_i e
        exact h.setCore.storeLanes.ok e

theorem Completes.blkld {c rd rs rt ru upto} (h : Keeps s₀ s) : Completes s₀ (execBlkld c rd rs rt ru upto s) := by
  unfold execBlkld
  refine .next (h.runWith (fun _ => ?_))
  dsimp only
  split
  · exact h.badOperand
  · exact h.blkRun (fun _ _ _ h => h.blkldElem)

theorem Completes.blkst {c rd rs rt ru upto} (h : Keeps s₀ s) : Completes s₀ (execBlkst c rd rs rt ru upto s) := by
  unfold execBlkst
  refine .next (h.runWith (fun _ => ?_))
  dsimp only
  split
  · exact h.badOperand
  · exact h.blkRun (fun _ _ _ h => h.blkstElem)

/-! ### SPDM -/

theorem Keeps.setSpdm {k c} (h : Keeps s₀ s) : Keeps s₀ (s.setSpdm k c) := h.update

theorem Keeps.spdmAnswer {k req} (h : Keeps s₀ s) : Keeps s₀ (s.spdmAnswer k req).1 := by
  refine .ite_fst h (.ite_fst ?_ (.ite_fst h (.ite_fst h (.ite_fst ?_ (.ite_fst ?_ (.ite_fst h
    (.ite_fst ?_ (.ite_fst ?_ (.ite_fst ?_ ?_)))))))))
  · exact .ite_fst h h.setSpdm
  · exact .ite_fst h (.ite_fst h h.setSpdm)
  · exact .ite_fst h (.ite_fst h h.setSpdm)
  · exact h.setSpdm
  · exact .ite_fst h h.setSpdm
  · exact .ite_fst h h.drawn.setSpdm
  · exact .ite_fst h (.ite_fst h.drawn.setSpdm h.drawn.setSpdm)

theorem Keeps.spdmOver {ok req} (h : Keeps s₀ s) : Keeps s₀ (s.spdmOver ok req) := .ite h h.spdmAnswer.emit

theorem Completes.getVersion {req} (h : Keeps s₀ s) : Completes s₀ (execGetVersion req s) := .next h.spdmOver

theorem Completes.getCapabilities {req} (h : Keeps s₀ s) : Completes s₀ (execGetCapabilities req s) := .next h.spdmOver

theorem Completes.negotiateAlgorithms {req} (h : Keeps s₀ s) : Completes s₀ (execNegotiateAlgorithms req s) :=
  .next h.spdmOver

theorem Completes.getDigests {req} (h : Keeps s₀ s) : Completes s₀ (execGetDigests req s) := .next h.spdmOver

theorem Completes.getCertificate {req} (h : Keeps s₀ s) : Completes s₀ (execGetCertificate req s) := .next h.spdmOver

theorem Completes.challenge {req} (h : Keeps s₀ s) : Completes s₀ (execChallenge req s) := .next h.spdmOver

theorem Completes.getMeasurements {req} (h : Keeps s₀ s) : Completes s₀ (execGetMeasurements req s) := .next h.spdmOver

theorem Completes.spdmUnsupported {req} (h : Keeps s₀ s) : Completes s₀ (execSpdmUnsupported req s) := .next h.spdmOver

theorem Completes.spdmRelay (h : Keeps s₀ s) : Completes s₀ (execSpdmRelay s) :=
  .next (h.manage (fun _ => .ite_effect h.refuse (.ite_effect h.refuse h.spdmAnswer.writeB)))

/-! ### The table of commands and the step -/

theorem Completes.exec {i} (h : Keeps s₀ s) : Completes s₀ (exec i s) :=
  match i with
  | .registerWrite .. => .registerWrite h
  | .sqStatusWrite .. => .sqStatusWrite h
  | .aliasSet .. => .aliasSet h
  | .aliasClear .. => .aliasClear h
  | .aliasToggle .. => .aliasToggle h
  | .tvFieldWrite .. => .tvFieldWrite h
  | .tvVoteScrub .. => .tvVoteScrub h
  | .counterPairLowRead .. => .counterPairLowRead h
  | .bootSelfTestDone .. => .bootSelfTestDone h
  | .form => .form h
  | .formSymbol .. => .formSymbol h
  | .formationClose .. => .formationClose h
  | .joinSymbol .. => .joinSymbol h
  | .joinEnWrite .. => .joinEnWrite h
  | .runWrite .. => .runWrite h
  | .dissolve => .dissolve h
  | .nextPeriodWrite .. => .nextPeriodWrite h
  | .doneSymbol .. => .doneSymbol h
  | .memberDoneReady => .memberDoneReady h
  | .tickSymbol .. => .tickSymbol h
  | .startTick => .startTick h
  | .commitTick .. => .commitTick h
  | .abortTick .. => .abortTick h
  | .restartTick => .restartTick h
  | .timeDisciplineSend => .timeDisciplineSend h
  | .timeSymbol .. => .timeSymbol h
  | .arm .. => .arm h
  | .armSame .. => .armSame h
  | .disarm .. => .disarm h
  | .armVisibleOpenBeat .. => .armVisibleOpenBeat h
  | .matrixRow .. => .matrixRow h
  | .vectorRow .. => .vectorRow h
  | .moveRow .. => .moveRow h
  | .exchangeRow .. => .exchangeRow h
  | .anchorExchangeRow .. => .anchorExchangeRow h
  | .waitRow .. => .waitRow h
  | .waitConditionMet .. => .waitConditionMet h
  | .markNote .. => .markNote h
  | .markExport .. => .markExport h
  | .markStamp .. => .markStamp h
  | .rowComplete .. => .rowComplete h
  | .exchangeAck .. => .exchangeAck h
  | .exchangePacketArrive .. => .exchangePacketArrive h
  | .heldPacketRelease .. => .heldPacketRelease h
  | .anchorMaxCombine .. => .anchorMaxCombine h
  | .valueAddCombine .. => .valueAddCombine h
  | .perfClr .. => .perfClr h
  | .add .. => .add h
  | .sub .. => .sub h
  | .and .. => .and h
  | .or .. => .or h
  | .xor .. => .xor h
  | .shl .. => .shl h
  | .shr .. => .shr h
  | .sar .. => .sar h
  | .cmplt .. => .cmplt h
  | .cmpltu .. => .cmpltu h
  | .mul .. => .mul h
  | .mulhi .. => .mulhi h
  | .mulhiu .. => .mulhiu h
  | .div .. => .div h
  | .divu .. => .divu h
  | .rem .. => .rem h
  | .remu .. => .remu h
  | .min .. => .min h
  | .max .. => .max h
  | .minu .. => .minu h
  | .maxu .. => .maxu h
  | .clz .. => .clz h
  | .popc .. => .popc h
  | .madd .. => .madd h
  | .addi .. => .addi h
  | .movi .. => .movi h
  | .andi .. => .andi h
  | .ori .. => .ori h
  | .xori .. => .xori h
  | .cmplti .. => .cmplti h
  | .cmpltiu .. => .cmpltiu h
  | .shli .. => .shli h
  | .shri .. => .shri h
  | .sari .. => .sari h
  | .addsp .. => .addsp h
  | .ldhi .. => .ldhi h
  | .pcrel .. => .pcrel h
  | .ldw .. => .ldw h
  | .stw .. => .stw h
  | .spwLoad .. => .spwLoad h
  | .spwStore .. => .spwStore h
  | .ldl .. => .ldl h
  | .ldls .. => .ldls h
  | .stl .. => .stl h
  | .ldf .. => .ldf h
  | .stf .. => .stf h
  | .atadd .. => .atadd h
  | .atswap .. => .atswap h
  | .atcas .. => .atcas h
  | .blkld .. => .blkld h
  | .blkst .. => .blkst h
  | .wcopy .. => .wcopy h
  | .nop .. => .nop h
  | .mov .. => .mov h
  | .neg .. => .neg h
  | .not .. => .not h
  | .ret .. => .ret h
  | .callr .. => .callr h
  | .jr .. => .jr h
  | .push .. => .push h
  | .pop .. => .pop h
  | .fence .. => .fence h
  | .bcz .. => .bcz h
  | .br .. => .br h
  | .cbeq .. => .cbeq h
  | .cbne .. => .cbne h
  | .cblt .. => .cblt h
  | .cbge .. => .cbge h
  | .cbltu .. => .cbltu h
  | .cbgeu .. => .cbgeu h
  | .j .. => .j h
  | .call .. => .call h
  | .mfs .. => .mfs h
  | .mts .. => .mts h
  | .msgvalPop .. => .msgvalPop h
  | .ctrctlClr .. => .ctrctlClr h
  | .cwset .. => .cwset h
  | .cwclr .. => .cwclr h
  | .trap .. => .trap h
  | .eret .. => .eret h
  | .wfi .. => .wfi h
  | .fadd .. => .fadd h
  | .fsub .. => .fsub h
  | .fmul .. => .fmul h
  | .fdiv .. => .fdiv h
  | .fsqrt .. => .fsqrt h
  | .fma .. => .fma h
  | .fmin .. => .fmin h
  | .fmax .. => .fmax h
  | .fneg .. => .fneg h
  | .fabs .. => .fabs h
  | .fcmp .. => .fcmp h
  | .fcvtfi .. => .fcvtfi h
  | .fcvtfu .. => .fcvtfu h
  | .fcvtif .. => .fcvtif h
  | .fcvtifr .. => .fcvtifr h
  | .fcvtuf .. => .fcvtuf h
  | .fpack .. => .fpack h
  | .funpack _ _ _ _ sat => .funpack (sat := sat) h
  | .tli .. => .tli h
  | .tliv .. => .tliv h
  | .trapEntry .. => .trapEntry h
  | .interruptEntry .. => .interruptEntry h
  | .timerExpire .. => .timerExpire h
  | .msgInWrite .. => .msgInWrite h
  | .cacheCtrlWrite .. => .cacheCtrlWrite h
  | .cacheInv .. => .cacheInv h
  | .cacheMissFill .. => .cacheMissFill h
  | .hbmApply => .hbmApply h
  | .hbmEccError .. => .hbmEccError h
  | .hbmRefresh st pc => .hbmRefresh (st := st) (pc := pc) h
  | .reservedSlot .. => .reservedSlot h
  | .scrubOperation .. => .scrubOperation h
  | .opportunisticScrub .. => .opportunisticScrub h
  | .idlePeriodTick => .idlePeriodTick h
  | .furrowEn .. => .furrowEn h
  | .furrowStop .. => .furrowStop h
  | .furrowRequestIssue .. => .furrowRequestIssue h
  | .furrowLineLand .. => .furrowLineLand h
  | .placeValidWrite .. => .placeValidWrite h
  | .flitRx .. => .flitRx h
  | .nakSymbol .. => .nakSymbol h
  | .creditSymbol .. => .creditSymbol h
  | .lstateSymbol .. => .lstateSymbol h
  | .probeSend => .probeSend h
  | .probeSymbol .. => .probeSymbol h
  | .probeReply .. => .probeReply h
  | .probeTimeout .. => .probeTimeout h
  | .memberLost .. => .memberLost h
  | .laneDropSymbol .. => .laneDropSymbol h
  | .laneDeskewDone .. => .laneDeskewDone h
  | .laneLockLost .. => .laneLockLost h
  | .laneCeWindow .. => .laneCeWindow h
  | .negSymbol .. => .negSymbol h
  | .linkSignalDetect .. => .linkSignalDetect h
  | .negotiationComplete .. => .negotiationComplete h
  | .linkTimeout .. => .linkTimeout h
  | .retrain .. => .retrain h
  | .retrainTimeout .. => .retrainTimeout h
  | .routeSwap => .routeSwap h
  | .dvWrite .. => .dvWrite h
  | .dvExch .. => .dvExch h
  | .combineAnchor .. => .combineAnchor h
  | .combineValue .. => .combineValue h
  | .dvRead .. => .dvRead h
  | .dvReadResp .. => .dvReadResp h
  | .dvAck .. => .dvAck h
  | .dvPageWait .. => .dvPageWait h
  | .dvPageRetry .. => .dvPageRetry h
  | .dvNackErr .. => .dvNackErr h
  | .ackTimer .. => .ackTimer h
  | .rtoExpire .. => .rtoExpire h
  | .readRespTimeout .. => .readRespTimeout h
  | .pageWaitTimeout .. => .pageWaitTimeout h
  | .pageResolved .. => .pageResolved h
  | .resendDelayExpire .. => .resendDelayExpire h
  | .frameRx .. => .frameRx h
  | .sievePass .. => .sievePass h
  | .sieveGo .. => .sieveGo h
  | .sieveSwapComplete => .sieveSwapComplete h
  | .tableEnWrite .. => .tableEnWrite h
  | .snap .. => .snap h
  | .portModeWrite .. => .portModeWrite h
  | .portEnWrite .. => .portEnWrite h
  | .ethPortUp .. => .ethPortUp h
  | .ethPortDown .. => .ethPortDown h
  | .ctxOpen .. => .ctxOpen h
  | .ctxClose .. => .ctxClose h
  | .ctxClear .. => .ctxClear h
  | .udpWrite .. => .udpWrite h
  | .udpRead .. => .udpRead h
  | .udpReadResp .. => .udpReadResp h
  | .udpSend .. => .udpSend h
  | .udpAck .. => .udpAck h
  | .udpPageWait .. => .udpPageWait h
  | .udpPageRetry .. => .udpPageRetry h
  | .udpNackErr .. => .udpNackErr h
  | .rtoExpireE .. => .rtoExpireE h
  | .roceSend .. => .roceSend h
  | .roceRdmaWrite .. => .roceRdmaWrite h
  | .roceRdmaReadRequest .. => .roceRdmaReadRequest h
  | .roceReadResponse .. => .roceReadResponse h
  | .roceAcknowledge .. => .roceAcknowledge h
  | .roceCnp .. => .roceCnp h
  | .roceRnrTimer .. => .roceRnrTimer h
  | .schedDecision .. => .schedDecision h
  | .egressEnqueue .. => .egressEnqueue h
  | .frameTxDone .. => .frameTxDone h
  | .shaperRefill => .shaperRefill h
  | .shpBurstWrite .. => .shpBurstWrite h
  | .policerPenWrite .. => .policerPenWrite h
  | .ringDoorbell .. => .ringDoorbell h
  | .doorbellSample .. => .doorbellSample h
  | .eqDoorbell .. => .eqDoorbell h
  | .descriptorFetch .. => .descriptorFetch h
  | .sendFrame .. => .sendFrame h
  | .postBuf .. => .postBuf h
  | .xferWrite .. => .xferWrite h
  | .xferRead .. => .xferRead h
  | .xferSend .. => .xferSend h
  | .copy .. => .copy h
  | .descriptorComplete .. => .descriptorComplete h
  | .msixModTimer .. => .msixModTimer h
  | .msixUnmask .. => .msixUnmask h
  | .exportDeliver .. => .exportDeliver h
  | .mrDb .. => .mrDb h
  | .plotCreate => .plotCreate h
  | .hbmGrant => .hbmGrant h
  | .ringCreate => .ringCreate h
  | .ringDestroy => .ringDestroy h
  | .ringReset => .ringReset h
  | .eqCreate => .eqCreate h
  | .eqDestroy => .eqDestroy h
  | .streamWrite => .streamWrite h
  | .channelSet => .channelSet h
  | .regionSet => .regionSet h
  | .ctxWrite => .ctxWrite h
  | .dconnOpen => .dconnOpen h
  | .dconnClose => .dconnClose h
  | .plotQuiesce => .plotQuiesce h
  | .quiesceTimeout .. => .quiesceTimeout h
  | .plotFreeze => .plotFreeze h
  | .plotSave => .plotSave h
  | .plotRestore .. => .plotRestore h
  | .plotResume => .plotResume h
  | .plotRemove => .plotRemove h
  | .mbDb .. => .mbDb h
  | .mbReplyDb .. => .mbReplyDb h
  | .flrPlot .. => .flrPlot h
  | .flrPf0 => .flrPf0 h
  | .vfDisable .. => .vfDisable h
  | .stashAttach .. => .stashAttach h
  | .stashDetach => .stashDetach h
  | .volumeSet => .volumeSet h
  | .stashRescan .. => .stashRescan h
  | .stashIdentify => .stashIdentify h
  | .stashRead .. => .stashRead h
  | .stashWrite .. => .stashWrite h
  | .stashZero .. => .stashZero h
  | .stashFlush .. => .stashFlush h
  | .pieceSubmit .. => .pieceSubmit h
  | .pieceComplete .. => .pieceComplete h
  | .pieceTimeout .. => .pieceTimeout h
  | .abortTimeout .. => .abortTimeout h
  | .driveFail .. => .driveFail h
  | .driveReady .. => .driveReady h
  | .stashModeWrite .. => .stashModeWrite h
  | .stashServiceFlushed => .stashServiceFlushed h
  | .gcmEnc .. => .gcmEnc h
  | .gcmDec .. => .gcmDec h
  | .gmacGen .. => .gmacGen h
  | .gmacVer .. => .gmacVer h
  | .cmacGen .. => .cmacGen h
  | .cmacVer .. => .cmacVer h
  | .cipherAssign => .cipherAssign h
  | .cipherComplete .. => .cipherComplete h
  | .cipherGo .. => .cipherGo h
  | .claim .. => .claim h
  | .renew .. => .renew h
  | .release .. => .release h
  | .lockExpire => .lockExpire h
  | .sign .. => .sign h
  | .labelSet => .labelSet h
  | .spdmRelay => .spdmRelay h
  | .getVersion .. => .getVersion h
  | .getCapabilities .. => .getCapabilities h
  | .negotiateAlgorithms .. => .negotiateAlgorithms h
  | .getDigests .. => .getDigests h
  | .getCertificate .. => .getCertificate h
  | .challenge .. => .challenge h
  | .getMeasurements .. => .getMeasurements h
  | .spdmUnsupported .. => .spdmUnsupported h
  | .faultReport .. => .faultReport h
  | .replayDrainDone .. => .replayDrainDone h
  | .spareCopyDone .. => .spareCopyDone h
  | .seedlingRun .. => .seedlingRun h
  | .greenhouseRotate => .greenhouseRotate h
  | .greenhouseResult .. => .greenhouseResult h
  | .digestRound => .digestRound h
  | .digestCompare .. => .digestCompare h
  | .sweepEnd .. => .sweepEnd h
  | .mirrorWrite .. => .mirrorWrite h
  | .mirrorSync => .mirrorSync h
  | .spareArmTimeout => .spareArmTimeout h
  | .checkpointTrigger => .checkpointTrigger h
  | .cutMessage .. => .cutMessage h
  | .dedupAssign .. => .dedupAssign h
  | .cowHold .. => .cowHold h
  | .cowCopyDone .. => .cowCopyDone h
  | .imageHeld .. => .imageHeld h
  | .checkpointDurable .. => .checkpointDurable h
  | .checkpointFail .. => .checkpointFail h
  | .mulchCheckpoint => .mulchCheckpoint h
  | .mulchRestore => .mulchRestore h
  | .mulchCancel => .mulchCancel h
  | .suppressSet => .suppressSet h
  | .restoreEnd .. => .restoreEnd h
  | .countFrameSend => .countFrameSend h
  | .countRefresh => .countRefresh h
  | .countFrame .. => .countFrame h
  | .ackFrameRx .. => .ackFrameRx h
  | .energySample .. => .energySample h
  | .intervalClose => .intervalClose h
  | .recordFrameSend => .recordFrameSend h
  | .recordFrameRx .. => .recordFrameRx h
  | .overflowReadback => .overflowReadback h
  | .meterHoldWrite .. => .meterHoldWrite h
  | .clReset => .clReset h
  | .vclLow => .vclLow h
  | .clocheRestart .. => .clocheRestart h
  | .clProgEn .. => .clProgEn h
  | .hubAoResetRelease .. => .hubAoResetRelease h
  | .mainImageVerified .. => .mainImageVerified h
  | .fuseRetry .. => .fuseRetry h
  | .recoveryReboot .. => .recoveryReboot h
  | .compartmentRestart .. => .compartmentRestart h
  | .fwWrite => .fwWrite h
  | .fwVerify .. => .fwVerify h
  | .liveUpdate => .liveUpdate h
  | .bootSelect .. => .bootSelect h
  | .timeSet => .timeSet h
  | .handoverSafePoint .. => .handoverSafePoint h
  | .iwDataRead .. => .iwDataRead h
  | .iwDataWrite .. => .iwDataWrite h
  | .coreHoldWrite .. => .coreHoldWrite h
  | .hubMain .. => .hubMain h
  | .halfHoldWrite .. => .halfHoldWrite h
  | .hostInterfaceReset => .hostInterfaceReset h
  | .mrst .. => .mrst h
  | .pwrokFall => .pwrokFall h
  | .mainRailFault => .mainRailFault h
  | .hubAoPowerValid => .hubAoPowerValid h
  | .mctpControl .. => .mctpControl h
  | .getTid .. => .getTid h
  | .getPldmTypes .. => .getPldmTypes h
  | .getPldmVersion .. => .getPldmVersion h
  | .getPldmCommands .. => .getPldmCommands h
  | .getPdr .. => .getPdr h
  | .getSensorReading .. => .getSensorReading h
  | .pollForPlatformEventMessage .. => .pollForPlatformEventMessage h
  | .readEvents .. => .readEvents h
  | .sensorUpdate .. => .sensorUpdate h
  | .safeStateQuery => .safeStateQuery h
  | .flowSample .. => .flowSample h
  | .flowFaultDeadline => .flowFaultDeadline h
  | .thermalTrip .. => .thermalTrip h
  | .powerWindow .. => .powerWindow h
  | .thermalSample .. => .thermalSample h
  | .powerSet => .powerSet h
  | .powerGet => .powerGet h
  | .pcieLinkTrained .. => .pcieLinkTrained h
  | .vfEnable .. => .vfEnable h
  | .clocheAliveLapse => .clocheAliveLapse h
  | .tapClock .. => .tapClock h

end

/-- Settles O59: each command's lemma, at the state itself. -/
theorem everyCommandCompletes : Obligations.EveryCommandCompletes := by
  unfold Obligations.EveryCommandCompletes
  intro i s
  obtain ⟨t, ht, hkeeps⟩ := Completes.exec (i := i) (Keeps.refl (s := s))
  exact ⟨t, ht, hkeeps.queue⟩

/-- Settles O60: a step is a tick of the reference clock, or the command at the front of the queue, run from the state
without it, which has the same memory and registers. -/
theorem stepKeepsInvariant : Obligations.StepKeepsInvariant := by
  unfold Obligations.StepKeepsInvariant
  intro s t hinv hstep
  unfold step at hstep
  split at hstep
  · cases hstep
    exact Keeps.refl.refTick.inv hinv
  · rename_i c rest _
    obtain ⟨u, hu, hkeeps⟩ := Completes.exec (i := c) (Keeps.refl (s := { s with pending := rest }))
    cases hu.symm.trans hstep
    exact hkeeps.inv hinv

end Sys2Proof.Machine
end

section

/-!
## Arming and disarming of row tables

One lemma for each way in which ARM, ARM_SAME, DISARM and the visibility of an armed table in an open beat can end. The
statement is these lemmas together.
-/

namespace Sys2Proof.Machine

section
variable {s : State} {t : Nat}

/-- The slots of a table bank lie in memory, which the error registers of a tile leave as it is. -/
@[simp] theorem State.slotOf_armErr (t code row u bank slot : Nat) :
    (s.armErr t code row).slotOf u bank slot = s.slotOf u bank slot := by
  simp [State.slotOf, State.readN, State.readB, State.armErr]

theorem execArm_of_tileDown (hup : s.tileUp t = false) : execArm t s = .next s := by
  simp [execArm, hup]

theorem execArm_of_level1 (hlevel : s.rg Rg.identity_SERVICE_LEVEL = 1) : execArm t s = .next s := by
  simp [execArm, hlevel]

theorem execArm_of_armed (hup : s.tileUp t = true) (hlevel : s.rg Rg.identity_SERVICE_LEVEL ≠ 1)
    (harm : (s.tile t).arm ≠ 0) : execArm t s = .next (s.armErr t 7 0) := by
  simp [execArm, hup, hlevel, harm]

theorem execArm_of_checkFails (hup : s.tileUp t = true) (hlevel : s.rg Rg.identity_SERVICE_LEVEL ≠ 1)
    (harm : (s.tile t).arm = 0) (hcheck : (s.armCheck t (1 - (s.tile t).bank)).1 ≠ 0) :
    execArm t s = .next (s.armErr t (s.armCheck t (1 - (s.tile t).bank)).1 (s.armCheck t (1 - (s.tile t).bank)).2) := by
  simp [execArm, hup, hlevel, harm, hcheck]

theorem execArm_of_checkPasses (hup : s.tileUp t = true) (hlevel : s.rg Rg.identity_SERVICE_LEVEL ≠ 1)
    (harm : (s.tile t).arm = 0) (hcheck : (s.armCheck t (1 - (s.tile t).bank)).1 = 0) :
    execArm t s = .next (((s.armErr t 0 (s.armCheck t (1 - (s.tile t).bank)).2).setTile t { s.tile t with arm := 1 }).setRg
      Rg.seq_NEXT_TABLE_ID t (bits (s.slotOf t (1 - (s.tile t).bank) 0) 32 32)) := by
  simp [execArm, hup, hlevel, harm, hcheck]

theorem execArmSame_of_tileDown (hup : s.tileUp t = false) : execArmSame t s = .next s := by
  simp [execArmSame, hup]

theorem execArmSame_of_armed (hup : s.tileUp t = true) (harm : (s.tile t).arm ≠ 0) :
    execArmSame t s = .next (s.armErr t 7 0) := by
  simp [execArmSame, hup, harm]

theorem execArmSame_of_unarmed (hup : s.tileUp t = true) (harm : (s.tile t).arm = 0) :
    execArmSame t s = .next (((s.armErr t 0 0).setTile t { s.tile t with arm := 2 }).setRg Rg.seq_NEXT_TABLE_ID t
      (bits (s.slotOf t (s.tile t).bank 0) 32 32)) := by
  simp [execArmSame, hup, harm]

theorem execDisarm_of_tileDown {late : Bool} (hup : s.tileUp t = false) : execDisarm t late s = .next s := by
  simp [execDisarm, hup]

theorem execDisarm_of_late {late : Bool} (hup : s.tileUp t = true)
    (hlate : (late || ((s.tile t).openBeat && (s.tile t).arm != 0)) = true) :
    execDisarm t late s = .next (s.setRg Rg.seq_DISARM_OK t 0) := by
  simp only [execDisarm, hup, hlate, Bool.not_true, Bool.false_eq_true, if_false, if_true]

theorem execDisarm_of_inTime {late : Bool} (hup : s.tileUp t = true)
    (hlate : (late || ((s.tile t).openBeat && (s.tile t).arm != 0)) = false) :
    execDisarm t late s = .next ((s.setTile t { s.tile t with arm := 0 }).setRg Rg.seq_DISARM_OK t 1) := by
  simp only [execDisarm, hup, hlate, Bool.not_true, Bool.false_eq_true, if_false]

theorem execArmVisibleOpenBeat_of_taken (hup : s.tileUp t = true) (hopen : (s.tile t).openBeat = true)
    (harm : (s.tile t).arm ≠ 0) (hrun : (s.tile t).stopped = false) (htick : s.dom.ticking = true) :
    execArmVisibleOpenBeat t s = .next (s.swapIn t (s.rg Rg.beat_BEATNO)) := by
  simp [execArmVisibleOpenBeat, hup, hopen, harm, hrun, htick]

theorem execArmVisibleOpenBeat_of_not (h : s.tileUp t = false ∨ (s.tile t).openBeat = false ∨ (s.tile t).arm = 0 ∨
    (s.tile t).stopped = true ∨ s.dom.ticking = false) : execArmVisibleOpenBeat t s = .next s := by
  have hno : (s.tileUp t && (s.tile t).openBeat && (s.tile t).arm != 0 && !(s.tile t).stopped && s.dom.ticking) = false := by
    rcases h with h | h | h | h | h <;> simp [h]
  simp [execArmVisibleOpenBeat, hno]

end

/-- Settles O22: the lemmas above, one for each way in which a command can end. -/
theorem tableArming : Obligations.TableArming := by
  unfold Obligations.TableArming
  intro s t late
  exact ⟨fun hup => ⟨execArm_of_tileDown hup, execArmSame_of_tileDown hup, execDisarm_of_tileDown hup⟩,
    execArm_of_level1,
    fun hup harm => ⟨execArmSame_of_armed hup harm, fun hlevel => execArm_of_armed hup hlevel harm⟩,
    fun hup harm hlevel => ⟨execArm_of_checkFails hup hlevel harm, execArm_of_checkPasses hup hlevel harm⟩,
    execArmSame_of_unarmed, execDisarm_of_late, execDisarm_of_inTime, execArmVisibleOpenBeat_of_taken,
    execArmVisibleOpenBeat_of_not⟩

end Sys2Proof.Machine
end

section

/-!
## Resets, and a register that another one overwrites

The copies of a register field at index `i` have the four keys from `(id * 2 ^ 20 + i) * 4` on, so an index of 2 ^ 20 or
more reaches the fields of higher numbers. `State.Inv` bounds no register, and MGR_EQ, whose four bits name the manager's
event queue, is used as an index: the LOST count of queue 206 * 2 ^ 20 is kept where WEST_HOLD is. No state whose fields
lie within their widths has such a queue in MGR_EQ.
-/

namespace Sys2Proof.Machine

/-- The event queue whose LOST count has the key of WEST_HOLD: the difference of the two fields' numbers, times 2 ^ 20. -/
def holdQueue : Nat := (Rg.system_WEST_HOLD.id - Rg.host_LOST.id) * 2 ^ 20

/-- A master whose beat has aborted, with the West half and the host interface up. MGR_EQ names `holdQueue`, which exists
and holds as many records as it may. -/
def abortedMaster : State :=
  { (((State.reset.setCopy Rg.host_MGR_EQ 0 0 holdQueue).setRg Rg.beat_ROLE 0 3).setRg Rg.system_WEST_IN_RESET 0 0).setRg
      Rg.system_HOST_IN_RESET 0 0 with
    dom := { member := true, ticking := true, aborted := true }
    host := { eqs := [(fnKey 0 holdQueue, { hold := List.replicate 64 (0, 0, 0, 0, false) })] } }

theorem abortedMaster_inv : abortedMaster.Inv :=
  ⟨by decide +kernel, by decide +kernel⟩

/-- The West half is held: its reset halts the domain, the event of the halt finds no room in its queue, and its loss is
counted in WEST_HOLD, which had just been set to 1. -/
theorem abortedMaster_holdHalves : (abortedMaster.holdHalves true false).rg Rg.system_WEST_HOLD = 2 := by decide +kernel

/-- Refutes O56: from `abortedMaster`, a write of WEST_HOLD 1 leaves 2 in WEST_HOLD. -/
theorem not_resetsAndPower : ¬ Obligations.ResetsAndPower := by
  unfold Obligations.ResetsAndPower
  rintro ⟨hresets, -⟩
  obtain ⟨-, -, -, -, -, -, -, -, ⟨t, hexec, -, hhold, -⟩, -⟩ := hresets abortedMaster [] true false 0 abortedMaster_inv
  have ht : abortedMaster.holdHalves true false = t := Host.Outcome.next.inj hexec
  rw [← ht, abortedMaster_holdHalves] at hhold
  exact absurd hhold (by decide)

end Sys2Proof.Machine
end

section

/-!
## Runs of register writes, and the frame of a lost range

A command often sets many register fields one after another. `setRgs` names such a run, so that one lemma says what each
written field holds afterwards, and one that every other field is as it was.
-/

namespace Sys2Proof

/-- Dropping a range of keys changes no key outside it. -/
theorem Cells.get?_drop_other {α : Type} {m : Cells α} {lo hi a : Nat} (hwf : Cells.wf m = true) (ha : a < lo ∨ hi ≤ a) :
    (m.drop lo hi).get? a = m.get? a := by
  induction m with
  | nil => rfl
  | cons e t ih =>
    obtain ⟨k, v⟩ := e
    simp only [Cells.wf, Bool.and_eq_true] at hwf
    obtain ⟨hall, hwf⟩ := hwf
    simp only [Cells.drop, List.filter_cons] at ih ⊢
    split
    · simp only [Cells.get?, ih hwf]
    · rename_i hdropped
      simp only [Bool.or_eq_true, decide_eq_true_eq, not_or] at hdropped
      rw [ih hwf]
      by_cases hlt : a < k
      · simp [Cells.get?, hlt, Nat.ne_of_lt hlt, Cells.get?_of_all_lt t k a hall (Nat.le_of_lt hlt)]
      · simp only [Cells.get?, hlt, show a ≠ k by omega, if_false]

namespace Machine

/-- Losing a range of memory changes no byte outside it. -/
theorem Memory.byte_lose_other {m : Memory} {lo hi stamp a : Nat} (hwf : m.wf = true) (ha : a < lo ∨ hi ≤ a) :
    (m.lose lo hi stamp).byte a = m.byte a := by
  have hout : ¬(lo ≤ a ∧ a < hi) := by omega
  simp only [Memory.byte, Memory.lose, Cells.get?_drop_other hwf ha, Memory.stampAt, hout, if_false]

section
variable {s : State}

/-- Register fields are set, one after another: field, index, value. -/
def State.setRgs (s : State) (ws : List (Fld × Nat × Nat)) : State := ws.foldl (fun s w => s.setRg w.1 w.2.1 w.2.2) s

/-- What a write reaches: the number of its field, and the index. -/
def writeKey (w : Fld × Nat × Nat) : Nat × Nat := (w.1.id, w.2.1)

@[simp] theorem State.setRgs_cons (s : State) (w : Fld × Nat × Nat) (ws : List (Fld × Nat × Nat)) :
    s.setRgs (w :: ws) = (s.setRg w.1 w.2.1 w.2.2).setRgs ws := rfl

@[simp] theorem State.setRgs_dom (s : State) (ws : List (Fld × Nat × Nat)) : (s.setRgs ws).dom = s.dom := by
  induction ws generalizing s with
  | nil => rfl
  | cons w ws ih => simp [ih]

@[simp] theorem State.setRgs_mem (s : State) (ws : List (Fld × Nat × Nat)) : (s.setRgs ws).mem = s.mem := by
  induction ws generalizing s with
  | nil => rfl
  | cons w ws ih => simp [ih]

@[simp] theorem State.setRgs_tiles (s : State) (ws : List (Fld × Nat × Nat)) : (s.setRgs ws).tiles = s.tiles := by
  induction ws generalizing s with
  | nil => rfl
  | cons w ws ih => simp [ih]

theorem State.Inv.setRg {f : Fld} {i v : Nat} (hinv : s.Inv) : (s.setRg f i v).Inv := Keeps.refl.setRg.inv hinv

/-- A run of writes changes no field that it does not reach. -/
theorem State.rg_setRgs_other {ws : List (Fld × Nat × Nat)} {g : Fld} {j : Nat} (hinv : s.Inv)
    (hb : ∀ p ∈ ws.map writeKey, p.2 < 2 ^ 20) (hj : j < 2 ^ 20) (hn : (g.id, j) ∉ ws.map writeKey) :
    (s.setRgs ws).rg g j = s.rg g j := by
  induction ws generalizing s with
  | nil => rfl
  | cons w ws ih =>
    obtain ⟨hi, hb⟩ := List.forall_mem_cons.mp (List.map_cons ▸ hb)
    simp only [List.map_cons, List.mem_cons, not_or] at hn
    obtain ⟨hw, hrest⟩ := hn
    have hkey : g.id ≠ w.1.id ∨ j ≠ w.2.1 := by
      by_contra hc
      simp only [not_or, not_not] at hc
      exact hw (by simp [writeKey, hc])
    rw [State.setRgs_cons, ih hinv.setRg hb hrest, State.rg_setRg_other s w.1 g w.2.1 j w.2.2 hinv.2 hi hj hkey]

/-- In a run of writes to different places, each written field holds the low bits of its value afterwards. -/
theorem State.rg_setRgs_of_mem {ws : List (Fld × Nat × Nat)} {f : Fld} {i v : Nat} (hinv : s.Inv)
    (hb : ∀ p ∈ ws.map writeKey, p.2 < 2 ^ 20) (hd : (ws.map writeKey).Nodup) (hw : (f, i, v) ∈ ws) :
    (s.setRgs ws).rg f i = v % 2 ^ f.w := by
  induction ws generalizing s with
  | nil => cases hw
  | cons w ws ih =>
    obtain ⟨hi, hbs⟩ := List.forall_mem_cons.mp (List.map_cons ▸ hb)
    obtain ⟨hnew, hds⟩ := List.nodup_cons.mp hd
    rcases List.mem_cons.mp hw with rfl | hw
    · rw [State.setRgs_cons, State.rg_setRgs_other (g := f) (j := i) hinv.setRg hbs hi hnew]
      exact State.rg_setRg_self s f i v hinv.2
    · exact ih hinv.setRg hbs hds hw

/-- Setting one field leaves a field of another number as it is. -/
theorem State.rg_setRg_ne {f g : Fld} {v : Nat} (hinv : s.Inv) (hid : g.id ≠ f.id) : (s.setRg f 0 v).rg g 0 = s.rg g 0 :=
  State.rg_setRg_other s f g 0 0 v hinv.2 (by decide) (by decide) (.inl hid)

theorem State.flag_setRg_ne {f g : Fld} {v : Nat} (hinv : s.Inv) (hid : g.id ≠ f.id) :
    (s.setRg f 0 v).flag g 0 = s.flag g 0 := by
  simp only [State.flag, State.rg_setRg_ne hinv hid]

end
end Machine
end Sys2Proof
end

section

/-!
## The armed table takes over

A tile that is replaced shows six status registers and leaves memory alone; taking a bank is such a replacement, and
starting the table loses the scratch region besides.
-/

namespace Sys2Proof.Machine

section
variable {s : State} {t : Nat}

/-- The status registers that show a tile, and their values. -/
def tileShown (t : Nat) (k : Tile) : List (Fld × Nat × Nat) :=
  [(Rg.seq_ARMED, t, ofBool (k.arm != 0)), (Rg.seq_RUNNING, t, ofBool (k.running && !k.finished)),
    (Rg.seq_DONE, t, ofBool k.finished), (Rg.tile_TRACKED, t, k.track.length), (Rg.tile_EXCH_OUT, t, k.busy 3 + k.busy 5),
    (Rg.tile_MOVES, t, k.busy 2)]

/-- A replaced tile: the tile itself, the number of the tile that finished last, and the status registers. -/
theorem State.setTile_eq (s : State) (t : Nat) (k : Tile) : ∃ d : Domain,
    s.setTile t k = ({ s with tiles := s.tiles.set {} t k, dom := d } : State).setRgs (tileShown t k) := by
  by_cases hlast : (k.finished && s.rg Rg.seq_DONE t == 0) = true
  · exact ⟨{ s.dom with lastTile := t }, congrArg (fun u => State.setRgs u (tileShown t k)) (if_pos hlast)⟩
  · exact ⟨s.dom, congrArg (fun u => State.setRgs u (tileShown t k)) (if_neg hlast)⟩

@[simp] theorem State.setTile_mem (s : State) (t : Nat) (k : Tile) : (s.setTile t k).mem = s.mem := by
  obtain ⟨d, h⟩ := s.setTile_eq t k
  simp [h]

@[simp] theorem State.setTile_tiles (s : State) (t : Nat) (k : Tile) : (s.setTile t k).tiles = s.tiles.set {} t k := by
  obtain ⟨d, h⟩ := s.setTile_eq t k
  simp [h]

theorem State.tile_setTile_self {k : Tile} (hwf : Cells.wf s.tiles = true) : (s.setTile t k).tile t = k := by
  simp only [State.tile, State.setTile_tiles, Cells.getD_set_self _ _ _ _ hwf]

/-- A replaced tile leaves every register field but its status registers as it is. -/
theorem State.rg_setTile_other {k : Tile} {g : Fld} {j : Nat} (hinv : s.Inv) (ht : t < 2 ^ 20) (hj : j < 2 ^ 20)
    (hg : g.id ∉ [Rg.seq_ARMED.id, Rg.seq_RUNNING.id, Rg.seq_DONE.id, Rg.tile_TRACKED.id, Rg.tile_EXCH_OUT.id,
      Rg.tile_MOVES.id]) : (s.setTile t k).rg g j = s.rg g j := by
  obtain ⟨d, h⟩ := s.setTile_eq t k
  rw [h]
  refine State.rg_setRgs_other (s := { s with tiles := s.tiles.set {} t k, dom := d }) hinv ?_ hj ?_
  · simpa [tileShown, writeKey] using ht
  · exact fun hkey => hg (List.mem_map_of_mem (f := Prod.fst) hkey)

/-- A tile that takes a bank stands at the first slot of its table, with nothing issued. -/
def Tile.atStart (k : Tile) (bank rows : Nat) : Tile :=
  { k with bank := bank, arm := 0, openBeat := false, loaded := true, running := false, rows := rows, next := 2, track := [],
           waitRow := none, skip := [], stopped := false, notes := [], log := [], plain := [] }

@[simp] theorem State.slotOf_of_mem_eq {u : State} (h : u.mem = s.mem) (t bank slot : Nat) :
    u.slotOf t bank slot = s.slotOf t bank slot := by
  simp [State.slotOf, State.readN, State.readB, h]

theorem State.takeBank_mem (s : State) (t bank : Nat) : (s.takeBank t bank).mem = s.mem := by
  simp [State.takeBank]

theorem State.takeBank_tiles (s : State) (t bank : Nat) : (s.takeBank t bank).tiles =
    s.tiles.set {} t ((s.tile t).atStart bank (bits (s.slotOf t bank 0) 16 12)) := by
  simp [State.takeBank, Tile.atStart]

theorem State.takeBank_tile {bank : Nat} (hwf : Cells.wf s.tiles = true) :
    (s.takeBank t bank).tile t = (s.tile t).atStart bank (bits (s.slotOf t bank 0) 16 12) := by
  simp only [State.tile, State.takeBank_tiles, Cells.getD_set_self _ _ _ _ hwf]

theorem State.takeBank_shows {bank : Nat} (hinv : s.Inv) :
    (s.takeBank t bank).rg Rg.seq_RUN_TABLE_ID t = bits (s.slotOf t bank 0) 32 32 := by
  simp only [State.takeBank]
  rw [State.rg_setRg_self _ _ _ _ (Keeps.refl.setTile.inv hinv).2]
  exact Nat.mod_mod _ _

/-- At most the scratch region of the table in the running bank is lost. -/
theorem State.loseScratch_cases (s : State) (t : Nat) : s.loseScratch t = s ∨
    s.loseScratch t = s.loseRange (kSlice t (32 * (scratchOf (s.runSlot t 0) t).lo))
      (kSlice t (32 * (scratchOf (s.runSlot t 0) t).hi)) := by
  simp only [State.loseScratch]
  split
  · exact .inr rfl
  · exact .inl rfl

@[simp] theorem State.loseScratch_tiles (s : State) (t : Nat) : (s.loseScratch t).tiles = s.tiles := by
  rcases s.loseScratch_cases t with h | h <;> simp [h]

@[simp] theorem State.loseScratch_regs (s : State) (t : Nat) : (s.loseScratch t).regs = s.regs := by
  rcases s.loseScratch_cases t with h | h <;> simp [h]

theorem State.byte_loseScratch_other {x : Nat} (hinv : s.Inv)
    (hx : x < kSlice t (32 * (scratchOf (s.runSlot t 0) t).lo) ∨ kSlice t (32 * (scratchOf (s.runSlot t 0) t).hi) ≤ x) :
    (s.loseScratch t).mem.byte x = s.mem.byte x := by
  rcases s.loseScratch_cases t with h | h
  · rw [h]
  · rw [h]
    exact Memory.byte_lose_other hinv.1 hx

theorem State.startTable_tile {bank : Nat} (hwf : Cells.wf s.tiles = true) : (s.startTable t bank).tile t =
    { (s.tile t).atStart bank (bits (s.slotOf t bank 0) 16 12) with running := true } := by
  have hwf' : Cells.wf (s.takeBank t bank).tiles = true := by
    rw [State.takeBank_tiles]
    exact Cells.wf_set _ _ _ _ hwf
  have hlost : ∀ u : State, (u.loseScratch t).tile t = u.tile t := fun u => by simp [State.tile]
  simp only [State.startTable, hlost, State.tile_setTile_self hwf', State.takeBank_tile hwf]

theorem State.startTable_shows {bank : Nat} (hinv : s.Inv) (ht : t < 256) :
    (s.startTable t bank).rg Rg.seq_RUN_TABLE_ID t = bits (s.slotOf t bank 0) 32 32 := by
  have hlost : ∀ u : State, (u.loseScratch t).rg Rg.seq_RUN_TABLE_ID t = u.rg Rg.seq_RUN_TABLE_ID t := fun u => by
    simp [State.rg, State.copyOf]
  have hinv' : (s.takeBank t bank).Inv := Keeps.refl.takeBank.inv hinv
  simp only [State.startTable, hlost]
  rw [State.rg_setTile_other hinv' (by omega) (by omega) (by decide), State.takeBank_shows hinv]

/-- Starting the table of a bank changes no byte outside the scratch region of that table. -/
theorem State.byte_startTable_other {bank x : Nat} (hwf : Cells.wf s.tiles = true) (hinv : s.Inv)
    (hx : x < kSlice t (32 * (scratchOf (s.slotOf t bank 0) t).lo) ∨
      kSlice t (32 * (scratchOf (s.slotOf t bank 0) t).hi) ≤ x) :
    (s.startTable t bank).mem.byte x = s.mem.byte x := by
  have hinv' : (s.takeBank t bank).Inv := Keeps.refl.takeBank.inv hinv
  have hwf' : Cells.wf (s.takeBank t bank).tiles = true := by
    rw [State.takeBank_tiles]
    exact Cells.wf_set _ _ _ _ hwf
  have hrun : ((s.takeBank t bank).setTile t { (s.takeBank t bank).tile t with running := true }).runSlot t 0 =
      s.slotOf t bank 0 := by
    simp only [State.runSlot, State.tile_setTile_self hwf', State.takeBank_tile hwf]
    exact State.slotOf_of_mem_eq (by simp [State.takeBank_mem]) t bank 0
  rw [← hrun] at hx
  simp only [State.startTable, State.byte_loseScratch_other (Keeps.refl.setTile.inv hinv') hx, State.setTile_mem,
    State.takeBank_mem]

theorem State.swapIn_of_forBeat {n : Nat}
    (hfb : s.forBeat t (s.tile t).armedBank = 2 ^ 64 - 1 ∨ s.forBeat t (s.tile t).armedBank = n % 2 ^ 64) :
    s.swapIn t n = if s.dom.ticking then s.startTable t (s.tile t).armedBank else s.takeBank t (s.tile t).armedBank :=
  if_pos hfb

theorem State.swapIn_of_other_beat {n : Nat}
    (hfb : ¬(s.forBeat t (s.tile t).armedBank = 2 ^ 64 - 1 ∨ s.forBeat t (s.tile t).armedBank = n % 2 ^ 64)) :
    s.swapIn t n = (s.setTile t { s.tile t with arm := 0, running := false, openBeat := false }).tableErr t 9 0 none :=
  if_neg hfb

end

/-- Settles O23: where FOR_BEAT fits, the table starts while beats run, and else its bank is taken; where it does not,
`swapIn` is the report by definition. -/
theorem armedTableTakesOver : Obligations.ArmedTableTakesOver := by
  unfold Obligations.ArmedTableTakesOver
  intro s t n k bank h fb lo hi hwf
  refine ⟨fun hfb => ?_, fun hfb hinv ht => ?_, State.swapIn_of_other_beat⟩
  · rw [State.swapIn_of_forBeat hfb]
    cases hticking : s.dom.ticking
    · exact State.takeBank_tile hwf
    · exact State.startTable_tile hwf
  · rw [State.swapIn_of_forBeat hfb]
    cases hticking : s.dom.ticking
    · exact ⟨State.takeBank_shows hinv, fun x _ => by simp [State.takeBank_mem]⟩
    · exact ⟨State.startTable_shows hinv ht, fun x hx => State.byte_startTable_other hwf hinv (hx rfl)⟩

end Sys2Proof.Machine
end

section

/-!
## Formation of a beat domain

Entering and leaving a domain are runs of register writes to different places; control symbols touch no register. Each way
in which FORM, a FORM symbol and the close of a formation can end has a lemma.
-/

namespace Sys2Proof.Machine

section
variable {s : State}

/-! ### Symbols leave the registers as they are -/

@[simp] theorem State.symbol_regs (s : State) (d ty pay : Nat) : (s.symbol d ty pay).regs = s.regs := by
  have hfold : ∀ (ws : List Nat) (f : State → Nat → Out) (u : State),
      (ws.foldl (fun u w => u.emit (f u w)) u).regs = u.regs := by
    intro ws f u
    induction ws generalizing u with
    | nil => rfl
    | cons w ws ih => exact ih _
  simp only [State.symbol, State.idle]
  split
  · rfl
  · exact hfold _ (fun u w => .idle d (u.rg Rg.dvport_LANES d) (((s.due d ty pay).port d).header 0 1 0 31) w) _

theorem State.rg_symbol (s : State) (d ty pay : Nat) (f : Fld) (i : Nat) : (s.symbol d ty pay).rg f i = s.rg f i := by
  simp only [State.rg, State.copyOf, State.symbol_regs]

/-- Symbols on a list of ports leave the registers as they are. -/
theorem State.rg_foldl_symbol (ports : List Nat) (ty pay : Nat) (f : Fld) (i : Nat) (s : State) :
    (ports.foldl (fun u d => u.symbol d ty pay) s).rg f i = s.rg f i := by
  induction ports generalizing s with
  | nil => rfl
  | cons d ports ih => rw [List.foldl_cons, ih, State.rg_symbol]

/-- A word that no step changes may be read before the first one. -/
theorem foldl_word_const {σ : Type} {send : σ → Nat → Nat → σ} {word : σ → Nat}
    (hword : ∀ u d w, word (send u d w) = word u) (ports : List Nat) (s : σ) :
    ports.foldl (fun u d => send u d (word u)) s = ports.foldl (fun u d => send u d (word s)) s := by
  induction ports generalizing s with
  | nil => rfl
  | cons d ports ih => rw [List.foldl_cons, ih, hword, List.foldl_cons]

/-- A word that no symbol changes may be read before the first symbol goes out. -/
theorem State.foldl_symbol_word {word : State → Nat} {ty : Nat} (hword : ∀ u d pay, word (u.symbol d ty pay) = word u)
    (ports : List Nat) (s : State) :
    ports.foldl (fun u d => u.symbol d ty (word u)) s = ports.foldl (fun u d => u.symbol d ty (word s)) s :=
  foldl_word_const (send := fun u d w => u.symbol d ty w) hword ports s
/-! ### Entering and leaving -/

/-- The writes that show a set of members and of standby members. -/
def memberWrites (ms sb : List Nat) : List (Fld × Nat × Nat) :=
  (List.range 8).flatMap (fun k => [(Rg.beat_MEMBER, k, midWord ms k), (Rg.beat_STANDBY, k, midWord sb k)]) ++
    [(Rg.beat_MEMBERS, 0, ms.length)]

/-- The writes with which a module leaves its domain; `b` is BEAT_BUDGET. -/
def leaveWrites (b : Nat) : List (Fld × Nat × Nat) :=
  memberWrites [] [] ++ [(Rg.beat_TREE_DELAY, 0, 0), (Rg.beat_TICK_LEAD, 0, 1024), (Rg.beat_DEPTH, 0, 0), (Rg.beat_MID, 0, 0),
    (Rg.beat_FORMING, 0, 0), (Rg.beat_ROLE, 0, 0), (Rg.beat_HALTED, 0, 0), (Rg.beat_BEAT_BUDGET, 0, b)]

/-- The writes with which a module enters a domain as `i` tells it; `b` is BEAT_BUDGET. -/
def enterWrites (i : DomInfo) (role mid b : Nat) : List (Fld × Nat × Nat) :=
  [(Rg.beat_DEBT, 0, i.debt.1), (Rg.beat_OVR_RUN, 0, i.debt.2.1), (Rg.beat_JOIN_REFUSED, 0, 0)] ++
    memberWrites i.members i.standby ++ [(Rg.beat_TREE_DELAY, 0, i.delay), (Rg.beat_TICK_LEAD, 0, i.delay + 1024),
      (Rg.beat_DEPTH, 0, i.treeDepth), (Rg.beat_MID, 0, mid), (Rg.beat_ROLE, 0, role), (Rg.beat_BEATNO, 0, i.beat),
      (Rg.beat_DTIME, 0, i.time), (Rg.beat_PERIOD_US, 0, i.period), (Rg.beat_FORMING, 0, 0),
      (Rg.beat_HALTED, 0, ofBool i.halted), (Rg.beat_BEAT_BUDGET, 0, b)]

theorem State.leaveDomain_eq (s : State) : ∃ b,
    s.leaveDomain = ({ s with dom := { attempt := s.dom.attempt } } : State).setRgs (leaveWrites b) := ⟨_, rfl⟩

/-- The state of the domain in a module that enters it. -/
def enteredDomain (i : DomInfo) (d : Domain) : Domain :=
  { d with
    member := true, founding := false, joined := [], parent := i.parent, children := i.children, depth := i.depth,
    master := i.master, period := i.period * 1600, started := i.running, ticking := i.running, attempt := i.attempt,
    joinSpent := false, baseB := i.base.1, baseN := i.base.2, lastA := i.last, beatStart := i.last, overrun := i.debt.2.2 }

theorem State.enter_eq (s : State) (i : DomInfo) (role : Nat) : ∃ b,
    s.enter i role = ({ s with dom := enteredDomain i s.dom } : State).setRgs (enterWrites i role (s.rg Rg.beat_MID_REQ) b) :=
  ⟨_, rfl⟩

theorem leaveWrites_nodup (b : Nat) : ((leaveWrites b).map writeKey).Nodup := by
  simp only [leaveWrites, memberWrites, List.map_append, List.map_flatMap, List.map_cons, List.map_nil, writeKey]
  decide

theorem enterWrites_nodup (i : DomInfo) (role mid b : Nat) : ((enterWrites i role mid b).map writeKey).Nodup := by
  simp only [enterWrites, memberWrites, List.map_append, List.map_flatMap, List.map_cons, List.map_nil, writeKey]
  decide

theorem leaveWrites_idx (b : Nat) : ∀ p ∈ (leaveWrites b).map writeKey, p.2 < 2 ^ 20 := by
  simp only [leaveWrites, memberWrites, List.map_append, List.map_flatMap, List.map_cons, List.map_nil, writeKey]
  decide

theorem enterWrites_idx (i : DomInfo) (role mid b : Nat) : ∀ p ∈ (enterWrites i role mid b).map writeKey, p.2 < 2 ^ 20 := by
  simp only [enterWrites, memberWrites, List.map_append, List.map_flatMap, List.map_cons, List.map_nil, writeKey]
  decide

/-- Whoever enters a domain shows what it has been told. -/
theorem State.enter_shows {i : DomInfo} {role : Nat} (hinv : s.Inv) : ∀ x ∈ [(Rg.beat_MID, s.rg Rg.beat_MID_REQ),
      (Rg.beat_ROLE, role), (Rg.beat_MEMBERS, i.members.length), (Rg.beat_TREE_DELAY, i.delay),
      (Rg.beat_TICK_LEAD, i.delay + 1024), (Rg.beat_DEPTH, i.treeDepth), (Rg.beat_BEATNO, i.beat), (Rg.beat_FORMING, 0),
      (Rg.beat_JOIN_REFUSED, 0), (Rg.beat_DEBT, i.debt.1), (Rg.beat_OVR_RUN, i.debt.2.1)],
    (s.enter i role).rg x.1 = x.2 % 2 ^ x.1.w := by
  intro x hx
  obtain ⟨b, henter⟩ := s.enter_eq i role
  have hwrite : (x.1, 0, x.2) ∈ enterWrites i role (s.rg Rg.beat_MID_REQ) b := by
    simp only [List.mem_cons, List.not_mem_nil, or_false] at hx
    simp only [enterWrites, memberWrites, List.mem_append, List.mem_cons]
    rcases hx with rfl | rfl | rfl | rfl | rfl | rfl | rfl | rfl | rfl | rfl | rfl <;> simp
  rw [henter]
  exact State.rg_setRgs_of_mem (s := { s with dom := enteredDomain i s.dom }) hinv (enterWrites_idx _ _ _ _)
    (enterWrites_nodup _ _ _ _) hwrite

/-- Whoever leaves a domain shows no trace of it. -/
theorem State.leaveDomain_shows {f : Fld} {k : Nat} (hinv : s.Inv) (hf : ∀ b, (f, k, 0) ∈ leaveWrites b) :
    s.leaveDomain.rg f k = 0 := by
  obtain ⟨b, hleave⟩ := s.leaveDomain_eq
  rw [hleave, State.rg_setRgs_of_mem (s := { s with dom := { attempt := s.dom.attempt } }) hinv (leaveWrites_idx b)
    (leaveWrites_nodup b) (hf b), Nat.zero_mod]

theorem State.leaveDomain_dom (s : State) : s.leaveDomain.dom = { attempt := s.dom.attempt } := by
  obtain ⟨b, hleave⟩ := s.leaveDomain_eq
  simp [hleave]

theorem State.leaveDomain_mem (s : State) : s.leaveDomain.mem = s.mem := by
  obtain ⟨b, hleave⟩ := s.leaveDomain_eq
  simp [hleave]

theorem State.enter_dom (s : State) (i : DomInfo) (role : Nat) : (s.enter i role).dom = enteredDomain i s.dom := by
  obtain ⟨b, henter⟩ := s.enter_eq i role
  simp [henter]

theorem mem_leaveWrites_member {k : Nat} (hk : k < 8) (b : Nat) :
    (Rg.beat_MEMBER, k, 0) ∈ leaveWrites b ∧ (Rg.beat_STANDBY, k, 0) ∈ leaveWrites b := by
  have hempty : midWord [] k = 0 := by simp [midWord]
  constructor <;>
  · refine List.mem_append_left _ (List.mem_append_left _ (List.mem_flatMap.mpr ⟨k, List.mem_range.mpr hk, ?_⟩))
    simp [hempty]

theorem mem_leaveWrites {x : Fld} (hx : x ∈ [Rg.beat_MID, Rg.beat_ROLE, Rg.beat_MEMBERS, Rg.beat_TREE_DELAY, Rg.beat_DEPTH,
    Rg.beat_FORMING, Rg.beat_HALTED]) (b : Nat) : (x, 0, 0) ∈ leaveWrites b := by
  simp only [List.mem_cons, List.not_mem_nil, or_false] at hx
  simp only [leaveWrites, memberWrites, List.mem_append, List.mem_cons]
  rcases hx with rfl | rfl | rfl | rfl | rfl | rfl | rfl <;> simp

/-- A module that leaves its domain keeps the fields that are not of the domain. -/
theorem State.rg_leaveDomain_other {f : Fld} (hinv : s.Inv) (hf : (f.id, 0) ∉ (leaveWrites 0).map writeKey) :
    s.leaveDomain.rg f 0 = s.rg f 0 := by
  obtain ⟨b, hleave⟩ := s.leaveDomain_eq
  rw [hleave]
  exact State.rg_setRgs_other (s := { s with dom := { attempt := s.dom.attempt } }) hinv (leaveWrites_idx b) (by decide) hf

/-! ### FORM and FORM symbols -/

theorem State.mayJoin_iff {d : Nat} : s.mayJoin d = true ↔ s.flag Rg.beat_RUN = false ∧ s.flag Rg.beat_JOIN_EN = true ∧
    s.rg Rg.beat_DOMAIN_ID = d ∧ (s.dom.member = false ∨ s.rg Rg.beat_MEMBERS < 2) := by
  simp [State.mayJoin, and_assoc]

/-- This module takes part in a formation, in the domain state `d`; a domain of its own has ended. -/
def State.forms (s : State) (d : Domain) : State :=
  { (if s.dom.member then s.leaveDomain else s) with dom := { d with attempt := s.dom.attempt } }.setRg Rg.beat_FORMING 0 1

theorem State.rg_forms_other {f : Fld} {d : Domain} (hinv : s.Inv) (hf : (f.id, 0) ∉ (leaveWrites 0).map writeKey) :
    (s.forms d).rg f 0 = s.rg f 0 := by
  have hid : f.id ≠ Rg.beat_FORMING.id := fun h => hf (by rw [h]; decide)
  have hinv' : (if s.dom.member then s.leaveDomain else s).Inv := (Keeps.ite Keeps.refl.leaveDomain Keeps.refl).inv hinv
  have hrest : (if s.dom.member then s.leaveDomain else s).rg f 0 = s.rg f 0 := by
    split
    · exact State.rg_leaveDomain_other hinv hf
    · rfl
  unfold State.forms
  generalize (if s.dom.member then s.leaveDomain else s) = u at hinv' hrest
  exact (State.rg_setRg_ne (s := { u with dom := { d with attempt := s.dom.attempt } }) hinv' hid).trans hrest

theorem State.form_of_refused (h : (s.mayJoin (s.rg Rg.beat_DOMAIN_ID) && !s.flag Rg.beat_FORMING) = false) : s.form = s := by
  simp [State.form, h]

theorem State.form_of_allowed (hinv : s.Inv) (h : (s.mayJoin (s.rg Rg.beat_DOMAIN_ID) && !s.flag Rg.beat_FORMING) = true) :
    s.form = (s.forms { founding := true, formId := s.rg Rg.beat_DOMAIN_ID }).tickPorts.foldl
      (fun u d => u.symbol d 6 (formWord (s.rg Rg.beat_DOMAIN_ID) (s.rg Rg.beat_MID_REQ) 0))
      (s.forms { founding := true, formId := s.rg Rg.beat_DOMAIN_ID }) := by
  have hstart : s.form = (s.forms { founding := true, formId := s.rg Rg.beat_DOMAIN_ID }).tickPorts.foldl
      (fun u d => u.symbol d 6 (formWord (u.rg Rg.beat_DOMAIN_ID) (u.rg Rg.beat_MID_REQ) 0))
      (s.forms { founding := true, formId := s.rg Rg.beat_DOMAIN_ID }) := by
    simp only [State.form, h, if_true, State.forms]
    split
    · rw [State.rg_leaveDomain_other hinv (by decide), State.leaveDomain_dom]
    · rfl
  rw [hstart, State.foldl_symbol_word (word := fun u => formWord (u.rg Rg.beat_DOMAIN_ID) (u.rg Rg.beat_MID_REQ) 0)
    (fun u d pay => by simp only [State.rg_symbol]), State.rg_forms_other hinv (by decide), State.rg_forms_other hinv (by decide)]

theorem State.formSym_of_refused {port dom founder depth : Nat}
    (h : (s.mayJoin dom && !s.flag Rg.beat_FORMING && s.tickPorts.contains port) = false) :
    s.formSym port dom founder depth = s := by
  simp only [State.formSym, h, Bool.false_eq_true, if_false]

theorem State.formSym_of_allowed {port dom founder depth : Nat} (hinv : s.Inv)
    (h : (s.mayJoin dom && !s.flag Rg.beat_FORMING && s.tickPorts.contains port) = true) :
    s.formSym port dom founder depth =
      (((s.forms { parent := some port, depth := depth + 1, formId := dom }).tickPorts.filter (fun d => d != port)).foldl
        (fun u d => u.symbol d 6 (formWord dom founder (depth + 1)))
        (s.forms { parent := some port, depth := depth + 1, formId := dom })).symbol
          port 7 (joinWord dom (s.rg Rg.beat_MID_REQ) (s.flag Rg.beat_STANDBY_REQ)) := by
  have hstart : s.formSym port dom founder depth =
      (let v := s.forms { parent := some port, depth := depth + 1, formId := dom }
       let w := (v.tickPorts.filter (fun d => d != port)).foldl (fun u d => u.symbol d 6 (formWord dom founder (depth + 1))) v
       w.symbol port 7 (joinWord dom (w.rg Rg.beat_MID_REQ) (w.flag Rg.beat_STANDBY_REQ))) := by
    simp only [State.formSym, h, if_true, State.forms]
    split
    · rw [State.leaveDomain_dom]
    · rfl
  simp only [hstart, State.flag, State.rg_foldl_symbol]
  rw [State.rg_forms_other hinv (by decide), State.rg_forms_other hinv (by decide)]

/-! ### The close of a formation -/

theorem noTwice_iff {l : List Nat} : noTwice l = true ↔ l.Nodup := by
  induction l with
  | nil => simp [noTwice]
  | cons a l ih => simp [noTwice, ih]

/-- The depth of the tree that a founder closes is the largest of those that asked to join. -/
theorem State.founded_depth_le {n : Nat} : s.founded.treeDepth ≤ n ↔ ∀ j ∈ s.dom.joined, j.2.2.1 ≤ n := by
  have hfold : ∀ (l : List (Nat × Bool × Nat × Nat)) (a : Nat), l.foldl (fun a j => max a j.2.2.1) a ≤ n ↔
      a ≤ n ∧ ∀ j ∈ l, j.2.2.1 ≤ n := by
    intro l
    induction l with
    | nil => simp
    | cons j l ih => intro a; simp [ih, and_assoc]
  simp [State.founded, hfold]

theorem State.formationClose_of_not_forming {info : Option DomInfo} (h : s.flag Rg.beat_FORMING = false) :
    s.formationClose info = s := by
  simp [State.formationClose, h]

theorem State.formationClose_of_may_not {info : Option DomInfo} (h : s.flag Rg.beat_FORMING = true)
    (hmay : s.mayJoin s.dom.formId = false) : s.formationClose info = s.leaveDomain := by
  simp [State.formationClose, h, hmay]

theorem State.formationClose_of_founder {info : Option DomInfo} (h : s.flag Rg.beat_FORMING = true)
    (hmay : s.mayJoin s.dom.formId = true) (hfounding : s.dom.founding = true) : s.formationClose info =
      if noTwice s.founded.members && decide (s.founded.treeDepth ≤ 12) then
        (s.enter s.founded 3).event 0x0100 (s.rg Rg.beat_DOMAIN_ID + s.founded.members.length * 2 ^ 32
          + s.founded.treeDepth * 2 ^ 41 + s.founded.delay * 2 ^ 64)
      else s.leaveDomain := by
  simp only [State.formationClose, h, hmay, hfounding, Bool.not_true, Bool.false_eq_true, if_false, if_true]

theorem State.formationClose_of_failed (h : s.flag Rg.beat_FORMING = true) (hmay : s.mayJoin s.dom.formId = true)
    (hfounding : s.dom.founding = false) : s.formationClose none = s.leaveDomain := by
  simp only [State.formationClose, h, hmay, hfounding, Bool.not_true, Bool.false_eq_true, if_false]

theorem State.formationClose_of_told {i : DomInfo} (h : s.flag Rg.beat_FORMING = true)
    (hmay : s.mayJoin s.dom.formId = true) (hfounding : s.dom.founding = false) : s.formationClose (some i) =
      (s.enter { i with parent := s.dom.parent } (if s.flag Rg.beat_STANDBY_REQ then 2 else 1)).joinedEvent
        (s.flag Rg.beat_STANDBY_REQ) := by
  simp only [State.formationClose, h, hmay, hfounding, Bool.not_true, Bool.false_eq_true, if_false]

theorem exec_form (s : State) : exec .form s = .next s.form := rfl

theorem exec_formSymbol (s : State) (port dom founder depth : Nat) :
    exec (.formSymbol port dom founder depth) s = .next (s.formSym port dom founder depth) := rfl

theorem exec_formationClose (s : State) (info : Option DomInfo) :
    exec (.formationClose info) s = .next (s.formationClose info) := rfl

end

/-- Settles O18: the lemmas above, one for each way in which FORM, a FORM symbol and the close of a formation can end, and
what entering and leaving show. -/
theorem domainFormation : Obligations.DomainFormation := by
  unfold Obligations.DomainFormation
  intro s port dom founder depth role k info i hinv hk id me sb may forming starts u v
  have hmay : ∀ d, may d ↔ s.mayJoin d = true := fun d => State.mayJoin_iff.symm
  have hcan : ∀ d, ¬may d ↔ s.mayJoin d = false := fun d => by rw [hmay, Bool.not_eq_true]
  have hidle : ¬forming ↔ s.flag Rg.beat_FORMING = false := by rw [Bool.not_eq_true]
  refine ⟨?_, ?_, ?_, ?_, ?_, ?_, ?_, ?_, ?_, ?_⟩
  · intro hm hf
    rw [exec_form, State.form_of_allowed hinv (by rw [(hmay id).mp hm, hidle.mp hf]; rfl)]
    rfl
  · intro h
    rw [exec_form, State.form_of_refused]
    rcases h with h | h
    · rw [(hcan id).mp h, Bool.false_and]
    · rw [h, Bool.not_true, Bool.and_false]
  · intro hm hf hport
    rw [exec_formSymbol, State.formSym_of_allowed hinv]
    · rfl
    · rw [(hmay dom).mp hm, hidle.mp hf, List.contains_iff_mem.mpr hport]; rfl
  · intro h
    rw [exec_formSymbol, State.formSym_of_refused]
    rcases h with h | h | h
    · rw [(hcan dom).mp h, Bool.false_and, Bool.false_and]
    · rw [h, Bool.not_true, Bool.and_false, Bool.false_and]
    · rw [← Bool.not_eq_true, Bool.and_eq_true, List.contains_iff_mem]
      exact fun hc => h hc.2
  · intro hf
    rw [exec_formationClose, State.formationClose_of_not_forming (hidle.mp hf)]
  · intro hf hm
    rw [exec_formationClose, State.formationClose_of_may_not hf ((hcan _).mp hm)]
  · intro hf hm hfounding
    have hclose := State.formationClose_of_founder (info := info) hf ((hmay _).mp hm) hfounding
    refine ⟨rfl, rfl, rfl, rfl, rfl, fun hok => ?_, fun hok => ?_⟩
    · rw [exec_formationClose, hclose, if_pos]
      · rfl
      · rw [Bool.and_eq_true, noTwice_iff, decide_eq_true_eq, State.founded_depth_le]
        exact hok
    · rw [exec_formationClose, hclose, if_neg]
      rw [Bool.and_eq_true, noTwice_iff, decide_eq_true_eq, State.founded_depth_le]
      exact hok
  · intro hf hm hfounding
    rw [exec_formationClose, exec_formationClose, State.formationClose_of_failed hf ((hmay _).mp hm) hfounding,
      State.formationClose_of_told hf ((hmay _).mp hm) hfounding]
    exact ⟨rfl, rfl⟩
  · have hdom := s.enter_dom i role
    refine ⟨?_, ?_, ?_, ?_, ?_, ?_, ?_, State.enter_shows hinv⟩ <;> rw [hdom] <;> rfl
  · exact ⟨s.leaveDomain_dom, s.leaveDomain_mem, State.leaveDomain_shows hinv fun b => (mem_leaveWrites_member hk b).1,
      State.leaveDomain_shows hinv fun b => (mem_leaveWrites_member hk b).2,
      fun x hx => State.leaveDomain_shows hinv (mem_leaveWrites hx)⟩

end Sys2Proof.Machine
end

section

/-!
## Beat control registers, and DONE, TICK and TIME symbols

One lemma for each way in which a write of JOIN_EN, RUN, DISSOLVE or NEXT_PERIOD, and a JOIN, DONE, TICK or TIME symbol, can
end. A field that is set keeps the fields that the conditions of a command read.
-/

namespace Sys2Proof.Machine

section
variable {s : State}

/-! ### JOIN_EN -/

theorem State.formCheck_of_idle (h : s.flag Rg.beat_FORMING = false) : s.formCheck = s := by
  simp [State.formCheck, h]

theorem State.formCheck_of_may_not (h : s.flag Rg.beat_FORMING = true) (hmay : s.mayJoin s.dom.formId = false) :
    s.formCheck = s.leaveDomain := by
  simp [State.formCheck, h, hmay]

theorem State.flag_setRg_ofBool {f : Fld} {v : Bool} (hinv : s.Inv) (hw : f.w = 1) :
    (s.setRg f 0 (ofBool v)).flag f 0 = v := by
  simp only [State.flag, State.rg_setRg_self _ _ _ _ hinv.2, hw]
  cases v <;> rfl

/-- A module that has JOIN_EN 0, or RUN 1, may join no domain. -/
theorem State.mayJoin_of_joinEn {d : Nat} (h : s.flag Rg.beat_JOIN_EN = false) : s.mayJoin d = false := by
  simp [State.mayJoin, h]

theorem State.mayJoin_of_run {d : Nat} (h : s.flag Rg.beat_RUN = true) : s.mayJoin d = false := by
  simp [State.mayJoin, h]

/-- The port over which a new attempt asks may carry tick symbols. -/
theorem State.joinPort_mem {d : Nat} (h : s.joinPort = some d) : d ∈ s.tickPorts := by
  unfold State.joinPort at h
  split at h
  · rename_i e hfind
    cases h
    exact List.mem_of_find?_eq_some hfind
  · exact List.mem_of_head? h

theorem State.askJoin_of_no_port (h : s.joinPort = none) : s.askJoin = s := by
  simp [State.askJoin, h]

theorem State.askJoin_of_port {d : Nat} (h : s.joinPort = some d) (hspent : s.dom.joinSpent = false) : s.askJoin =
    if s.mayJoin (s.rg Rg.beat_DOMAIN_ID) && !s.flag Rg.beat_FORMING then
      s.symbol d 7 (joinWord (s.rg Rg.beat_DOMAIN_ID) (s.rg Rg.beat_MID_REQ) (s.flag Rg.beat_STANDBY_REQ))
    else s := by
  simp [State.askJoin, h, State.askJoinAt, hspent, State.joinPort_mem h]

/-- The state in which a new attempt to join begins. -/
def State.newAttempt (s : State) : State :=
  { s.setRg Rg.beat_JOIN_EN 0 (ofBool true) with dom := { s.dom with joinSpent := false } }

theorem exec_joinEnWrite (s : State) (v : Bool) : exec (.joinEnWrite v) s = .next (s.joinEnWrite v) := rfl

theorem State.joinEnWrite_of_rise (h : s.flag Rg.beat_JOIN_EN = false) : s.joinEnWrite true = s.newAttempt.askJoin := by
  simp only [State.joinEnWrite, h, Bool.not_false, Bool.and_self, if_true, State.newAttempt, State.setRg_dom]

theorem State.joinEnWrite_of_no_rise {v : Bool} (h : v = false ∨ s.flag Rg.beat_JOIN_EN = true) :
    s.joinEnWrite v = (s.setRg Rg.beat_JOIN_EN 0 (ofBool v)).formCheck := by
  rcases h with rfl | h
  · simp only [State.joinEnWrite, Bool.false_and, Bool.false_eq_true, if_false]
  · simp only [State.joinEnWrite, h, Bool.not_true, Bool.and_false, Bool.false_eq_true, if_false]

theorem State.rg_newAttempt (s : State) (g : Fld) : s.newAttempt.rg g 0 = (s.setRg Rg.beat_JOIN_EN 0 (ofBool true)).rg g 0 := rfl

/-- A new attempt changes JOIN_EN alone. -/
theorem State.rg_newAttempt_ne {g : Fld} (hinv : s.Inv) (hid : g.id ≠ Rg.beat_JOIN_EN.id) :
    s.newAttempt.rg g 0 = s.rg g 0 := by
  rw [State.rg_newAttempt, State.rg_setRg_ne hinv hid]

theorem State.flag_newAttempt_ne {g : Fld} (hinv : s.Inv) (hid : g.id ≠ Rg.beat_JOIN_EN.id) :
    s.newAttempt.flag g = s.flag g := by
  simp only [State.flag, State.rg_newAttempt_ne hinv hid]

theorem State.mayJoin_newAttempt {d : Nat} (hinv : s.Inv) : s.newAttempt.mayJoin d = true ↔
    s.flag Rg.beat_RUN = false ∧ s.rg Rg.beat_DOMAIN_ID = d ∧ (s.dom.member = false ∨ s.rg Rg.beat_MEMBERS < 2) := by
  have hen : s.newAttempt.flag Rg.beat_JOIN_EN = true := by
    have h := State.flag_setRg_ofBool (f := Rg.beat_JOIN_EN) (v := true) hinv rfl
    simpa only [State.flag, State.rg_newAttempt] using h
  have hmember : s.newAttempt.dom.member = s.dom.member := rfl
  rw [State.mayJoin_iff, hen, State.flag_newAttempt_ne hinv (by decide), hmember, State.rg_newAttempt_ne hinv (by decide),
    State.rg_newAttempt_ne hinv (by decide)]
  simp

/-- A new attempt asks over its port, where this module may join. -/
theorem State.newAttempt_asks {d : Nat} (hinv : s.Inv) (hport : s.newAttempt.joinPort = some d)
    (hrun : s.flag Rg.beat_RUN = false) (halone : s.dom.member = false ∨ s.rg Rg.beat_MEMBERS < 2)
    (hforming : s.flag Rg.beat_FORMING = false) : s.newAttempt.askJoin = s.newAttempt.symbol d 7
      (joinWord (s.rg Rg.beat_DOMAIN_ID) (s.rg Rg.beat_MID_REQ) (s.flag Rg.beat_STANDBY_REQ)) := by
  have hmay := (State.mayJoin_newAttempt hinv).mpr ⟨hrun, rfl, halone⟩
  rw [State.askJoin_of_port hport rfl, State.rg_newAttempt_ne hinv (by decide), State.rg_newAttempt_ne hinv (by decide),
    State.flag_newAttempt_ne hinv (by decide), State.flag_newAttempt_ne hinv (by decide), hmay, hforming, if_pos (by decide)]

theorem State.newAttempt_waits {d : Nat} (hinv : s.Inv) (hport : s.newAttempt.joinPort = some d)
    (h : s.flag Rg.beat_RUN = true ∨ ¬(s.dom.member = false ∨ s.rg Rg.beat_MEMBERS < 2) ∨ s.flag Rg.beat_FORMING = true) :
    s.newAttempt.askJoin = s.newAttempt := by
  rw [State.askJoin_of_port hport rfl, if_neg]
  rw [Bool.and_eq_true, State.mayJoin_newAttempt hinv, State.flag_newAttempt_ne hinv (by decide)]
  rintro ⟨⟨hrun, -, halone⟩, hforming⟩
  rcases h with h | h | h
  · rw [h] at hrun; cases hrun
  · exact h halone
  · rw [h] at hforming; cases hforming

/-! ### RUN -/

theorem exec_runWrite (s : State) (v : Bool) : exec (.runWrite v) s = .next (s.runWrite v) := rfl

theorem State.isMaster_setRun {v : Nat} (hinv : s.Inv) : (s.setRg Rg.beat_RUN 0 v).isMaster = s.isMaster := by
  rw [State.isMaster, State.setRg_dom, State.rg_setRg_ne hinv (by decide), ← State.isMaster]

theorem State.isMaster_leaveDomain (s : State) : s.leaveDomain.isMaster = false := by
  simp [State.isMaster, State.leaveDomain_dom]

theorem State.formCheck_of_run (hinv : s.Inv) (h : s.flag Rg.beat_FORMING = false) (v : Nat) :
    (s.setRg Rg.beat_RUN 0 v).formCheck = s.setRg Rg.beat_RUN 0 v :=
  State.formCheck_of_idle ((State.flag_setRg_ne hinv (by decide)).trans h)

theorem State.runWrite_of_not_master {v : Bool} (hinv : s.Inv) (h : s.flag Rg.beat_FORMING = false) (hm : s.isMaster = false) :
    s.runWrite v = s.setRg Rg.beat_RUN 0 (ofBool v) := by
  simp only [State.runWrite, State.formCheck_of_run hinv h, State.isMaster_setRun hinv, hm, Bool.not_false,
    if_true]

/-- RUN 1 ends this module's part in a formation. -/
theorem State.runWrite_of_forming (hinv : s.Inv) (h : s.flag Rg.beat_FORMING = true) :
    s.runWrite true = (s.setRg Rg.beat_RUN 0 1).leaveDomain := by
  have hforming : (s.setRg Rg.beat_RUN 0 (ofBool true)).flag Rg.beat_FORMING = true :=
    (State.flag_setRg_ne hinv (by decide)).trans h
  have hrun : (s.setRg Rg.beat_RUN 0 (ofBool true)).flag Rg.beat_RUN = true := State.flag_setRg_ofBool hinv rfl
  simp only [State.runWrite, State.formCheck_of_may_not hforming (State.mayJoin_of_run hrun), State.isMaster_leaveDomain,
    Bool.not_false, if_true]
  rfl

/-- The state of a master that has been told to run. -/
def State.runAsked (s : State) : State :=
  { s.setRg Rg.beat_RUN 0 1 with dom := { (s.setRg Rg.beat_RUN 0 1).dom with stopReq := false } }

theorem State.runAsked_dom (s : State) : s.runAsked.dom = { s.dom with stopReq := false } := by
  simp only [State.runAsked, State.setRg_dom]

theorem State.flag_runAsked_halted (hinv : s.Inv) : s.runAsked.flag Rg.beat_HALTED = s.flag Rg.beat_HALTED := by
  have hrg : s.runAsked.rg Rg.beat_HALTED = (s.setRg Rg.beat_RUN 0 1).rg Rg.beat_HALTED := rfl
  rw [State.flag, hrg, State.rg_setRg_ne hinv (by decide), ← State.flag]

theorem State.runWrite_true_of_master (hinv : s.Inv) (h : s.flag Rg.beat_FORMING = false) (hm : s.isMaster = true) :
    s.runWrite true =
      if s.dom.ticking || s.dom.pend.isSome then s.runAsked
      else if s.flag Rg.beat_HALTED then (if s.dom.haltCause = 1 then s.runAsked.scheduleSoon 3 else s.runAsked)
      else s.runAsked.scheduleSoon (if s.dom.started then 3 else 0) := by
  have hrun : s.runWrite true =
      if s.runAsked.dom.ticking || s.runAsked.dom.pend.isSome then s.runAsked
      else if s.runAsked.flag Rg.beat_HALTED then
        (if s.runAsked.dom.haltCause = 1 then s.runAsked.scheduleSoon 3 else s.runAsked)
      else s.runAsked.scheduleSoon (if s.runAsked.dom.started then 3 else 0) := by
    simp only [State.runWrite, State.formCheck_of_run hinv h, State.isMaster_setRun hinv, hm,
      Bool.not_true, Bool.false_eq_true, if_false, if_true]
    rfl
  rw [hrun, State.flag_runAsked_halted hinv, State.runAsked_dom]

/-- RUN 1 schedules a tick where the beats stand, no tick waits, and no halt other than that of a table error holds. -/
theorem State.runWrite_true_starts (hinv : s.Inv) (h : s.flag Rg.beat_FORMING = false) (hm : s.isMaster = true)
    (hticking : s.dom.ticking = false) (hpend : s.dom.pend = none)
    (hhalt : s.flag Rg.beat_HALTED = false ∨ s.dom.haltCause = 1) :
    s.runWrite true = s.runAsked.scheduleSoon (if s.flag Rg.beat_HALTED = true ∨ s.dom.started = true then 3 else 0) := by
  rw [State.runWrite_true_of_master hinv h hm, hticking, hpend, if_neg (by decide)]
  by_cases hhalted : s.flag Rg.beat_HALTED = true
  · have hcause : s.dom.haltCause = 1 := hhalt.resolve_left (by simp [hhalted])
    rw [if_pos hhalted, if_pos hcause, if_pos (.inl hhalted)]
  · simp only [if_neg hhalted, or_iff_right hhalted]

theorem State.runWrite_true_waits (hinv : s.Inv) (h : s.flag Rg.beat_FORMING = false) (hm : s.isMaster = true)
    (hwait : s.dom.ticking = true ∨ s.dom.pend ≠ none ∨ (s.flag Rg.beat_HALTED = true ∧ s.dom.haltCause ≠ 1)) :
    s.runWrite true = s.runAsked := by
  rw [State.runWrite_true_of_master hinv h hm]
  rcases hwait with hticking | hpend | ⟨hhalted, hcause⟩
  · rw [hticking, Bool.true_or, if_pos rfl]
  · rw [Option.isSome_iff_ne_none.mpr hpend, Bool.or_true, if_pos rfl]
  · rw [if_pos hhalted, if_neg hcause, ite_self]

theorem State.runWrite_false_of_master (hinv : s.Inv) (h : s.flag Rg.beat_FORMING = false) (hm : s.isMaster = true) :
    s.runWrite false = if s.dom.ticking then
        { s.setRg Rg.beat_RUN 0 0 with dom := { (s.setRg Rg.beat_RUN 0 0).dom with stopReq := true } }
      else s.setRg Rg.beat_RUN 0 0 := by
  simp only [State.runWrite, State.formCheck_of_run hinv h, State.isMaster_setRun hinv, hm, Bool.not_true,
    Bool.false_eq_true, if_false, State.setRg_dom]
  rfl

/-! ### JOIN symbols -/

section
variable {port dom mid depth delay cause : Nat} {sb : Bool} {i : DomInfo}

theorem exec_joinSymbol (s : State) (m : JoinMsg) : exec (.joinSymbol m) s = .next (s.joinSym m) := rfl

theorem State.joinSym_request (s : State) : s.joinSym (.request port dom mid sb depth delay) =
    s.joinRequest port dom mid sb depth delay := rfl

theorem State.joinRequest_of_elsewhere (h : s.rg Rg.beat_DOMAIN_ID ≠ dom ∨ port ∉ s.tickPorts) :
    s.joinRequest port dom mid sb depth delay = s := by
  refine if_pos (h.imp_right fun hport => ?_)
  rw [← Bool.not_eq_true, List.contains_iff_mem]
  exact hport

section
variable (hid : s.rg Rg.beat_DOMAIN_ID = dom) (hport : port ∈ s.tickPorts)
include hid hport

/-- A request that comes by a tick port, for this module's domain. -/
theorem not_elsewhere : ¬(s.rg Rg.beat_DOMAIN_ID ≠ dom ∨ s.tickPorts.contains port = false) := by
  rw [List.contains_iff_mem.mpr hport, hid]
  simp

theorem State.joinRequest_of_founder (hfounding : s.dom.founding = true) : s.joinRequest port dom mid sb depth delay =
    { s with dom := { s.dom with
      joined := s.dom.joined ++ [(mid, sb, depth, delay)], children := insertNat port s.dom.children } } := by
  rw [State.joinRequest, if_neg (not_elsewhere hid hport), if_pos hfounding]

theorem State.joinRequest_of_master (hfounding : s.dom.founding = false) (hm : s.isMaster = true) :
    s.joinRequest port dom mid sb depth delay =
      { s with dom := { s.dom with joins := s.dom.joins ++ [(mid, sb, depth, delay, port)] } } := by
  rw [State.joinRequest, if_neg (not_elsewhere hid hport), hfounding, if_neg (by decide), if_pos hm]

theorem State.joinRequest_of_child {p : Nat} (hfounding : s.dom.founding = false) (hm : s.isMaster = false)
    (hparent : s.dom.parent = some p) : s.joinRequest port dom mid sb depth delay =
      { s with dom := { s.dom with children := insertNat port s.dom.children } }.symbol p 7 (joinWord dom mid sb) := by
  rw [State.joinRequest, if_neg (not_elsewhere hid hport), hfounding, if_neg (by decide), hm, if_neg (by decide), hparent]

theorem State.joinRequest_of_root (hfounding : s.dom.founding = false) (hm : s.isMaster = false)
    (hparent : s.dom.parent = none) : s.joinRequest port dom mid sb depth delay = s := by
  rw [State.joinRequest, if_neg (not_elsewhere hid hport), hfounding, if_neg (by decide), hm, if_neg (by decide), hparent]

end

theorem State.joinSym_admitted (s : State) : s.joinSym (.admitted i) =
    if s.mayJoin (s.rg Rg.beat_DOMAIN_ID) && !s.dom.joinSpent then
      (let u := s.enter i (if s.flag Rg.beat_STANDBY_REQ then 2 else 1)
       (if i.running && !s.flag Rg.beat_STANDBY_REQ then u.openTiles else u).joinedEvent (s.flag Rg.beat_STANDBY_REQ))
    else s := rfl

theorem State.joinSym_refused (s : State) : s.joinSym (.refused cause) =
    if s.dom.member && decide (2 ≤ s.rg Rg.beat_MEMBERS) then s
    else ((({ s with dom := { s.dom with joinSpent := true } }.setRg Rg.beat_JOIN_REFUSED 0 1).setRg
      Rg.beat_REFUSE_CAUSE 0 cause).event 0x010A
        (s.rg Rg.beat_DOMAIN_ID + s.rg Rg.beat_MID_REQ * 2 ^ 32 + cause * 2 ^ 40)) := rfl

theorem State.joinSym_joining (s : State) : s.joinSym (.joining mid sb delay depth) =
    if s.dom.member && !s.isMaster then
      { s with dom := { s.dom with joining := s.dom.joining ++ [(mid, sb, delay, depth)] } }
    else s := rfl

end

theorem exec_dissolve (s : State) : exec .dissolve s = .next s.dissolve := rfl

/-! ### NEXT_PERIOD -/

theorem exec_nextPeriodWrite (s : State) (us at_ : Nat) : exec (.nextPeriodWrite us at_) s =
    (let u := (s.setRg Rg.beat_PERIOD_AT_LO 0 (at_ % 2 ^ 32)).setRg Rg.beat_PERIOD_AT_HI 0 (at_ / 2 ^ 32)
     if 8 ≤ us ∧ us ≤ 4000 then .next ({ u with dom := { s.dom with nextSet := true } }.setRg Rg.beat_NEXT_PERIOD_US 0 us)
     else .next u) := rfl

end

/-- R51, R56, R86: each register of beat control and each JOIN symbol, by the lemmas above. -/
theorem domainControlPart : Clauses.DomainControlPart := by
  unfold Clauses.DomainControlPart
  intro s us at_ cause port dom mid delay depth sb i hinv id me mine alone forming en
  have hidle : ¬forming ↔ s.flag Rg.beat_FORMING = false := by rw [Bool.not_eq_true]
  have halone : ¬alone ↔ (s.dom.member && decide (2 ≤ s.rg Rg.beat_MEMBERS)) = true := by
    simp only [alone, not_or, Bool.not_eq_false, not_lt, Bool.and_eq_true, decide_eq_true_eq]
  refine ⟨?_, ?_, ?_, ?_, ?_, ?_, ?_, ?_, ?_, ?_, ?_, ?_, ?_, ?_, ?_, ?_⟩
  · intro hf hen
    rw [exec_joinEnWrite, State.joinEnWrite_of_no_rise (.inr hen), State.formCheck_of_idle]
    exact (State.flag_setRg_ne hinv (by decide)).trans (hidle.mp hf)
  · intro hf
    rw [exec_joinEnWrite, State.joinEnWrite_of_no_rise (.inl rfl), State.formCheck_of_idle]
    exact (State.flag_setRg_ne hinv (by decide)).trans (hidle.mp hf)
  · intro hf
    rw [exec_joinEnWrite, State.joinEnWrite_of_no_rise (.inl rfl), State.formCheck_of_may_not]
    · exact (State.flag_setRg_ne hinv (by decide)).trans hf
    · exact State.mayJoin_of_joinEn (State.flag_setRg_ofBool hinv rfl)
  · intro hen u
    have hrise : exec (.joinEnWrite true) s = .next u.askJoin := by
      rw [exec_joinEnWrite, State.joinEnWrite_of_rise hen]
      rfl
    refine ⟨fun hport => by rw [hrise, State.askJoin_of_no_port hport], fun d hport => ⟨fun hrun hal hf => ?_, fun h => ?_⟩⟩
    · rw [hrise]
      exact congrArg _ (State.newAttempt_asks hinv hport hrun hal (hidle.mp hf))
    · rw [hrise]
      exact congrArg _ (State.newAttempt_waits hinv hport h)
  · intro ask
    refine ⟨fun h => ?_, fun hid hport => ⟨fun hfounding => ?_, fun hfounding hm => ?_, fun hfounding hm p hparent => ?_,
      fun hfounding hm hparent => ?_⟩⟩
    · rw [exec_joinSymbol, State.joinSym_request, State.joinRequest_of_elsewhere h]
    · rw [exec_joinSymbol, State.joinSym_request, State.joinRequest_of_founder hid hport hfounding]
    · rw [exec_joinSymbol, State.joinSym_request, State.joinRequest_of_master hid hport hfounding hm]
    · rw [exec_joinSymbol, State.joinSym_request, State.joinRequest_of_child hid hport hfounding hm hparent]
    · rw [exec_joinSymbol, State.joinSym_request, State.joinRequest_of_root hid hport hfounding hm hparent]
  · intro may u
    have hmay : may ↔ (s.mayJoin (s.rg Rg.beat_DOMAIN_ID) && !s.dom.joinSpent) = true := by
      rw [Bool.and_eq_true, State.mayJoin_iff, Bool.not_eq_true']
      simp only [may, true_and, and_assoc, alone]
    refine ⟨fun hm => ?_, fun hm => ?_⟩
    · rw [exec_joinSymbol, State.joinSym_admitted, if_pos (hmay.mp hm)]
    · rw [exec_joinSymbol, State.joinSym_admitted, if_neg (mt hmay.mpr hm)]
  · intro hal
    rw [exec_joinSymbol, State.joinSym_refused, if_neg]
    rw [← halone]
    exact not_not.mpr hal
  · intro hal
    rw [exec_joinSymbol, State.joinSym_refused, if_pos (halone.mp hal)]
  · intro hmember hm
    rw [exec_joinSymbol, State.joinSym_joining, hmember, hm, if_pos (by decide)]
  · intro h
    rw [exec_joinSymbol, State.joinSym_joining, if_neg]
    rcases h with h | h <;> simp [h]
  · intro hf hm
    exact ⟨fun hticking hpend hhalt => by
        rw [exec_runWrite, State.runWrite_true_starts hinv (hidle.mp hf) hm hticking hpend hhalt]
        rfl,
      fun hwait => by
        rw [exec_runWrite, State.runWrite_true_waits hinv (hidle.mp hf) hm hwait]
        rfl⟩
  · intro hf hm
    exact ⟨fun hticking => by rw [exec_runWrite, State.runWrite_false_of_master hinv (hidle.mp hf) hm, if_pos hticking],
      fun hticking => by
        rw [exec_runWrite, State.runWrite_false_of_master hinv (hidle.mp hf) hm, hticking, if_neg (by decide)]⟩
  · intro hm
    exact ⟨fun hf v => by rw [exec_runWrite, State.runWrite_of_not_master hinv (hidle.mp hf) hm],
      fun hf => by rw [exec_runWrite, State.runWrite_of_forming hinv hf]⟩
  · intro hmember hticking
    rw [exec_dissolve, State.dissolve, hmember, hticking, if_pos (by decide)]
  · intro h
    rw [exec_dissolve, State.dissolve, if_neg]
    rcases h with h | h <;> simp [h]
  · intro u
    refine ⟨fun hlo hhi => ?_, fun h => ?_⟩
    · rw [exec_nextPeriodWrite, if_pos ⟨hlo, hhi⟩]
    · rw [exec_nextPeriodWrite, if_neg (by omega)]

section
variable {s : State}

/-! ### DONE -/

theorem exec_memberDoneReady (s : State) : exec .memberDoneReady s = .next s.tryDone := rfl

theorem exec_doneSymbol (s : State) (port beat : Nat) : exec (.doneSymbol port beat) s = .next (s.doneSym port beat) := rfl

theorem State.tryDone_of_not_ready (h : s.doneReady = false) : s.tryDone = s := by
  simp only [State.tryDone, h, Bool.not_false, if_true]

theorem State.tryDone_of_level_drop (h : s.doneReady = true) (hdrop : (s.active && s.levelDrops) = true) :
    s.tryDone = s.abortBeat 0 (if s.hasSpare then none else some 3) := by
  simp only [State.tryDone, h, hdrop, Bool.not_true, Bool.false_eq_true, if_false, if_true]

theorem State.tryDone_of_master (h : s.doneReady = true) (hdrop : (s.active && s.levelDrops) = false)
    (hm : s.isMaster = true) : s.tryDone =
      if s.cutAcked then { s with dom := { s.dom with doneSent := true } }.schedule 1
        (max s.earliest (s.rg Rg.beat_DTIME + s.rg Rg.beat_TICK_LEAD)) else s := by
  simp only [State.tryDone, h, hdrop, hm, Bool.not_true, Bool.false_eq_true, if_false, if_true]

theorem State.tryDone_of_child {p : Nat} (h : s.doneReady = true) (hdrop : (s.active && s.levelDrops) = false)
    (hm : s.isMaster = false) (hparent : s.dom.parent = some p) : s.tryDone =
      { s with dom := { s.dom with doneSent := true } }.symbol p 5 (s.rg Rg.beat_BEATNO % 2 ^ 24 * 2 ^ 6) := by
  simp only [State.tryDone, h, hdrop, hm, hparent, Bool.not_true, Bool.false_eq_true, if_false]

/-- A tile has finished a beat, its Seedling kernel included, where that is due and the scratch region holds it. -/
theorem State.tileDone_iff {t : Nat} : s.tileDone t = true ↔ (s.tile t).finished = true ∧
    (s.seedDue t (s.rg Rg.beat_BEATNO) = true → s.seedRoom t = true → t ∈ s.fm.seeded) := by
  rw [State.tileDone, Bool.and_eq_true, Bool.or_eq_true, Bool.or_eq_true, Bool.not_eq_true', Bool.not_eq_true',
    List.contains_iff_mem, ← Bool.not_eq_true, ← Bool.not_eq_true]
  tauto

/-- The conditions of R57, one by one. -/
theorem State.doneReady_iff : s.doneReady = true ↔ s.dom.ticking = true ∧ s.dom.aborted = false ∧ s.dom.pend = none ∧
    s.dom.doneSent = false ∧ (∀ d ∈ s.dom.children, d ∈ s.dom.doneFrom) ∧ (∀ r ∈ s.fm.replays, r.phase = 2) ∧
    s.fm.mirrorOut = 0 ∧ (s.active = true → ∀ t, t < 256 → s.tileWorking t = true → (s.tile t).finished = true ∧
      (s.seedDue t (s.rg Rg.beat_BEATNO) = true → s.seedRoom t = true → t ∈ s.fm.seeded)) := by
  have htiles : (!s.active || (List.range 256).all (fun t => !s.tileWorking t || s.tileDone t)) = true ↔
      (s.active = true → ∀ t, t < 256 → s.tileWorking t = true → s.tileDone t = true) := by
    simp only [Bool.or_eq_true, Bool.not_eq_true', List.all_eq_true, List.mem_range, ← Bool.not_eq_true, ← imp_iff_not_or]
  simp only [← State.tileDone_iff, ← htiles]
  simp only [State.doneReady, Bool.and_eq_true, Bool.not_eq_true', Option.isNone_iff_eq_none, List.all_eq_true,
    List.contains_iff_mem, beq_iff_eq, and_assoc]

theorem State.doneSym_of_other {port beat : Nat} (h : s.dom.children.contains port = false ∨
    s.rg Rg.beat_BEATNO % 2 ^ 24 ≠ beat % 2 ^ 24) : s.doneSym port beat = s := by
  refine if_neg ?_
  rw [Bool.and_eq_true, beq_iff_eq]
  rintro ⟨hport, hbeat⟩
  rcases h with h | h
  · rw [h] at hport; cases hport
  · exact h hbeat

theorem State.doneSym_of_child {port beat : Nat} (hport : s.dom.children.contains port = true)
    (hbeat : s.rg Rg.beat_BEATNO % 2 ^ 24 = beat % 2 ^ 24) :
    s.doneSym port beat = { s with dom := { s.dom with doneFrom := insertNat port s.dom.doneFrom } }.tryDone := by
  refine if_pos ?_
  rw [Bool.and_eq_true, beq_iff_eq]
  exact ⟨hport, hbeat⟩

/-! ### TICK and TIME -/

/-- A number is extended to one that has it as its low bits. -/
theorem extend_mod (n v near : Nat) : extend n (v % 2 ^ n) near % 2 ^ n = v % 2 ^ n := by
  have hbase : (near / 2 ^ n * 2 ^ n + v % 2 ^ n) % 2 ^ n = v % 2 ^ n := by
    rw [Nat.mul_add_mod_self_right, Nat.mod_mod]
  simp only [extend]
  split
  · rw [Nat.add_mod_right, hbase]
  · split
    · rename_i _ hlow
      obtain ⟨-, -, hlow⟩ := hlow
      rw [← Nat.mod_eq_sub_mod hlow, hbase]
    · exact hbase

theorem exec_tickSymbol (s : State) (port beat kind time : Nat) :
    exec (.tickSymbol port beat kind time) s = .next (s.tickSym port beat kind time) := rfl

theorem exec_timeSymbol (s : State) (port time : Nat) : exec (.timeSymbol port time) s = .next (s.timeSym port time) := rfl

theorem exec_timeDisciplineSend (s : State) : exec .timeDisciplineSend s =
    if s.dom.member then
      .next ({ s with dom := { s.dom with timeSeq := (s.dom.timeSeq + 1) % 256 } }.toChildren 3
        (s.rg Rg.beat_DTIME % 2 ^ 48 * 2 ^ 6 + s.dom.timeSeq * 2 ^ 54))
    else .next s := rfl

end

/-- R40, R57, R58, R263, R265: DONE upward, ticks and time downward, by the lemmas above. -/
theorem domainSymbols : Clauses.DomainSymbols := by
  unfold Clauses.DomainSymbols
  intro s port beat kind time word
  refine ⟨?_, ?_, ?_, ?_, ?_, State.doneReady_iff, ?_, ?_, ?_, ?_, ?_, ?_, ?_⟩
  · intro hready hdrop hm p hparent
    rw [exec_memberDoneReady, State.tryDone_of_child hready hdrop hm hparent]
  · intro hready hdrop hm hcut
    rw [exec_memberDoneReady, State.tryDone_of_master hready hdrop hm, if_pos hcut]
  · intro hready hdrop hm hcut
    rw [exec_memberDoneReady, State.tryDone_of_master hready hdrop hm, hcut, if_neg (by decide)]
  · intro hready hdrop
    rw [exec_memberDoneReady, State.tryDone_of_level_drop hready hdrop]
  · intro hready
    rw [exec_memberDoneReady, State.tryDone_of_not_ready hready]
  · intro h
    rw [exec_doneSymbol, State.doneSym_of_other h]
  · intro hport hbeat u
    have hdone : exec (.doneSymbol port beat) s = .next u.tryDone := by
      rw [exec_doneSymbol, State.doneSym_of_child hport hbeat]
    exact ⟨hdone, fun hready => by rw [hdone, State.tryDone_of_not_ready hready]⟩
  · intro hparent
    refine ⟨_, _, ?_, extend_mod 24 beat (s.rg Rg.beat_BEATNO), extend_mod 32 time (s.rg Rg.beat_DTIME)⟩
    rw [exec_tickSymbol, State.tickSym, if_pos hparent]
  · intro hparent
    rw [exec_tickSymbol, exec_timeSymbol, State.tickSym, State.timeSym, if_neg hparent, if_neg hparent]
    exact ⟨rfl, rfl⟩
  · intro hparent hinv
    refine ⟨_, _, exec_timeSymbol s port time, extend_mod 48 time (s.rg Rg.beat_DTIME), ?_⟩
    rw [State.timeSym, if_pos hparent, State.rg_setRg_self _ _ _ _ hinv.2]
  · intro hmember
    rw [exec_timeDisciplineSend, if_pos hmember]
  · intro hmember
    rw [exec_timeDisciplineSend, hmember, if_neg (by decide)]

/-- Settles O19: the two parts above. -/
theorem domainControl : Obligations.DomainControl := ⟨domainControlPart, domainSymbols⟩

end Sys2Proof.Machine
end

section

/-!
## Idle periods, and the loss of members

While no beats run a period boundary stands in for a tick. A loss is judged once: which members are gone, who is left, and
who is the master then; the beat commits or aborts by whether the master held every DONE.
-/

namespace Sys2Proof.Machine

section
variable {s : State} {lost : List (Nat × Option Nat)} {tree : Option DomInfo}

theorem exec_idlePeriodTick (s : State) : exec .idlePeriodTick s = execIdlePeriodTick s := rfl

/-- LCLK and the idle period count on. -/
def State.idleCounted (s : State) : State :=
  ({ s with hbm := { s.hbm with idleBeat := s.hbm.idleBeat + 1 } } : State).setRg Rg.cipher_LCLK 0
    ((s.rg Rg.cipher_LCLK + 1) % 2 ^ 32)

theorem exec_memberLost (s : State) (lost : List (Nat × Option Nat)) (tree : Option DomInfo) :
    exec (.memberLost lost tree) s = .next (s.membersLost lost tree) := rfl

theorem exec_spareArmTimeout (s : State) :
    exec .spareArmTimeout s = .next ({ s with dom := { s.dom with waitSpare := false } }.tryRestart) := rfl

/-- The members that a loss takes away: at the master those that it no longer reaches, at another member those it is told of. -/
def State.gone (s : State) (lost : List (Nat × Option Nat)) : List (Nat × Option Nat) :=
  lost.filter (fun e => s.members.contains e.1 && e.1 != s.rg Rg.beat_MID && (!s.isMaster || s.unreachable e.1))

/-- The members that a loss leaves. -/
def State.left (s : State) (lost : List (Nat × Option Nat)) : List Nat :=
  s.members.filter (fun m => !(s.gone lost).any (fun e => e.1 == m))

/-- The members, of lowest MID first. -/
theorem State.members_sorted (s : State) (f : Fld) : (s.midSet f).Pairwise (· < ·) :=
  List.Pairwise.filter _ List.pairwise_lt_range

theorem State.masterAfter_of_survivor {left : List Nat} (h : s.dom.master ∈ left) : s.masterAfter left = s.dom.master :=
  if_pos (List.contains_iff_mem.mpr h)

/-- A new master is the first of those left that is no standby member; of members in order it is the lowest. -/
theorem State.masterAfter_least {left : List Nat} {m : Nat} (hsorted : left.Pairwise (· < ·)) (hlost : s.dom.master ∉ left)
    (hm : m ∈ left) (hactive : m ∉ s.midSet Rg.beat_STANDBY) :
    s.masterAfter left ∈ left ∧ s.masterAfter left ∉ s.midSet Rg.beat_STANDBY ∧ s.masterAfter left ≤ m := by
  have hpick : s.masterAfter left =
      (left.find? (fun m => !(s.midSet Rg.beat_STANDBY).contains m)).getD s.dom.master :=
    if_neg (by rwa [List.contains_iff_mem])
  obtain ⟨a, hfind⟩ : ∃ a, left.find? (fun m => !(s.midSet Rg.beat_STANDBY).contains m) = some a := by
    rw [← Option.isSome_iff_exists, List.find?_isSome]
    exact ⟨m, hm, by simpa using hactive⟩
  obtain ⟨hp, pre, post, hleft, hpre⟩ := List.find?_eq_some_iff_append.mp hfind
  rw [hpick, hfind, Option.getD_some]
  refine ⟨List.mem_of_find?_eq_some hfind, by simpa using hp, ?_⟩
  subst hleft
  rcases List.mem_append.mp hm with hmem | hmem
  · exact absurd (by simpa using hpre m hmem) hactive
  · rcases List.mem_cons.mp hmem with rfl | hmem
    · exact Nat.le_refl _
    · have htail := (List.pairwise_append.mp hsorted).2.1
      exact Nat.le_of_lt ((List.pairwise_cons.mp htail).1 m hmem)

/-- A loss is told: its event, and its connections end. -/
def State.told (s : State) (lost : List (Nat × Option Nat)) : State :=
  (s.gone lost).foldl (fun u e =>
    (u.event 0x0102 (e.1 + s.masterAfter (s.left lost) * 2 ^ 8 + u.nowB48)).connsLost e.1) s

/-- The survivors go on, as a domain of those left. -/
def State.goesOn (s : State) (lost : List (Nat × Option Nat)) (tree : Option DomInfo) : State :=
  (((s.told lost).setMembers (s.left lost) ((s.midSet Rg.beat_STANDBY).filter (fun m => (s.left lost).contains m))).newTree
    (s.masterAfter (s.left lost)) tree).ckFail 2 (((s.gone lost).map (fun e => e.1)).headD 0)

/-- The active members among those that are gone. -/
def State.goneActive (s : State) (lost : List (Nat × Option Nat)) : List (Nat × Option Nat) :=
  (s.gone lost).filter (fun e => !(s.midSet Rg.beat_STANDBY).contains e.1)

/-- The survivors go on, and their losses are handled after the beat has committed. -/
def State.lossLater (s : State) (lost : List (Nat × Option Nat)) (tree : Option DomInfo) : State :=
  { s.goesOn lost tree with dom := { (s.goesOn lost tree).dom with
    lostAfter := (s.goesOn lost tree).dom.lostAfter ++ s.goneActive lost } }

/-- The survivors go on, and their losses are handled as the beat aborts. -/
def State.lossNow (s : State) (lost : List (Nat × Option Nat)) (tree : Option DomInfo) : State :=
  { s.goesOn lost tree with dom := { (s.goesOn lost tree).dom with subst := (s.goesOn lost tree).dom.subst ++ s.gone lost } }

theorem State.membersLost_of_none (h : s.dom.member = false ∨ s.gone lost = []) : s.membersLost lost tree = s := by
  refine if_pos ?_
  rw [Bool.or_eq_true, Bool.not_eq_true', List.isEmpty_iff]
  exact h

/-- A loss of members: a part without a majority halts; else the survivors go on. -/
theorem State.membersLost_of_some (hmember : s.dom.member = true) (hgone : s.gone lost ≠ []) : s.membersLost lost tree =
    if 2 * (s.left lost).length ≤ s.members.length then (s.told lost).haltNow 0
    else if !(s.goesOn lost tree).dom.ticking then s.goesOn lost tree
    else if s.holdsDones && s.masterAfter (s.left lost) == s.dom.master then
      (if (s.lossLater lost tree).isMaster then (s.lossLater lost tree).commitAfterLoss else s.lossLater lost tree)
    else if !(s.lossNow lost tree).isMaster then s.lossNow lost tree
    else ((s.goneActive lost).foldl (fun u e => u.lossRecord e.1 e.2) (s.lossNow lost tree)).abortBeat 0
      (if (s.goneActive lost).all (fun e => e.2.isSome) then none else some 3) := by
  refine if_neg ?_
  rw [Bool.or_eq_true, Bool.not_eq_true', List.isEmpty_iff, not_or, Bool.not_eq_false]
  exact ⟨hmember, hgone⟩

theorem State.membersLost_halts (hmember : s.dom.member = true) (hgone : s.gone lost ≠ [])
    (hminor : 2 * (s.left lost).length ≤ s.members.length) : s.membersLost lost tree = (s.told lost).haltNow 0 := by
  rw [State.membersLost_of_some hmember hgone, if_pos hminor]

section
variable (hmember : s.dom.member = true) (hgone : s.gone lost ≠ []) (hmajor : s.members.length < 2 * (s.left lost).length)
include hmember hgone hmajor

theorem State.membersLost_stands (hticking : (s.goesOn lost tree).dom.ticking = false) :
    s.membersLost lost tree = s.goesOn lost tree := by
  rw [State.membersLost_of_some hmember hgone, if_neg (Nat.not_le.mpr hmajor), hticking, if_pos (by decide)]

theorem State.membersLost_commits (hticking : (s.goesOn lost tree).dom.ticking = true)
    (hdone : s.holdsDones = true ∧ s.masterAfter (s.left lost) = s.dom.master) : s.membersLost lost tree =
      if (s.lossLater lost tree).isMaster then (s.lossLater lost tree).commitAfterLoss else s.lossLater lost tree := by
  rw [State.membersLost_of_some hmember hgone, if_neg (Nat.not_le.mpr hmajor), hticking, if_neg (by decide), if_pos]
  rw [Bool.and_eq_true, beq_iff_eq]
  exact hdone

theorem State.membersLost_aborts (hticking : (s.goesOn lost tree).dom.ticking = true)
    (hdone : ¬(s.holdsDones = true ∧ s.masterAfter (s.left lost) = s.dom.master)) : s.membersLost lost tree =
      if !(s.lossNow lost tree).isMaster then s.lossNow lost tree
      else ((s.goneActive lost).foldl (fun u e => u.lossRecord e.1 e.2) (s.lossNow lost tree)).abortBeat 0
        (if (s.goneActive lost).all (fun e => e.2.isSome) then none else some 3) := by
  rw [State.membersLost_of_some hmember hgone, if_neg (Nat.not_le.mpr hmajor), hticking, if_neg (by decide), if_neg]
  rw [Bool.and_eq_true, beq_iff_eq]
  exact hdone

theorem State.membersLost_awaits_abort (hticking : (s.goesOn lost tree).dom.ticking = true)
    (hdone : ¬(s.holdsDones = true ∧ s.masterAfter (s.left lost) = s.dom.master)) (hm : (s.lossNow lost tree).isMaster = false) :
    s.membersLost lost tree = s.lossNow lost tree := by
  rw [State.membersLost_aborts hmember hgone hmajor hticking hdone, hm, if_pos (by decide)]

theorem State.membersLost_aborts_as_master (hticking : (s.goesOn lost tree).dom.ticking = true)
    (hdone : ¬(s.holdsDones = true ∧ s.masterAfter (s.left lost) = s.dom.master)) (hm : (s.lossNow lost tree).isMaster = true) :
    s.membersLost lost tree =
      ((s.goneActive lost).foldl (fun u e => u.lossRecord e.1 e.2) (s.lossNow lost tree)).abortBeat 0
        (if (s.goneActive lost).all (fun e => e.2.isSome) then none else some 3) := by
  rw [State.membersLost_aborts hmember hgone hmajor hticking hdone, hm, if_neg (by decide)]

end

/-- Once nothing holds it back the RESTART tick is scheduled. -/
theorem State.tryRestart_schedules (hm : s.isMaster = true) (hticking : s.dom.ticking = true) (haborted : s.dom.aborted = true)
    (hpend : s.dom.pend = none) (hhalt : s.dom.haltWith = none) (hspare : s.dom.waitSpare = false)
    (hreplays : ∀ r ∈ s.fm.replays, r.spare = none ∨ r.phase = 2) : s.tryRestart = s.scheduleSoon 3 := by
  have hall : s.fm.replays.all (fun r => r.spare.isNone || r.phase == 2) = true := by
    simpa only [List.all_eq_true, Bool.or_eq_true, Option.isNone_iff_eq_none, beq_iff_eq] using hreplays
  rw [State.tryRestart, hm, hticking, haborted, hpend, hhalt, hspare, hall]
  rfl

end

/-- Settles O21: the lemmas above, one for each way in which a loss can end. -/
theorem idleAndLoss : Obligations.IdleAndLoss := by
  unfold Obligations.IdleAndLoss
  intro s lost tree m ms sb gone left master told busy
  refine ⟨?_, ?_, ?_, ?_, State.masterAfter_of_survivor, ?_, exec_spareArmTimeout s, ?_⟩
  · intro hticking
    rw [exec_idlePeriodTick, execIdlePeriodTick, if_pos hticking]
  · intro hticking
    rw [exec_idlePeriodTick, execIdlePeriodTick, hticking, if_neg (by decide)]
    exact ⟨_, s.idleCounted, rfl, rfl, rfl, rfl⟩
  · intro h
    rw [exec_memberLost, State.membersLost_of_none h]
  · intro hmember hgone
    refine ⟨fun hminor => by rw [exec_memberLost, State.membersLost_halts hmember hgone hminor]; rfl, fun hmajor => ?_⟩
    refine ⟨fun hticking => ?_, fun hticking hdone => ?_, fun hticking hdone hm => ?_, fun hticking hdone hm => ?_⟩
    · rw [exec_memberLost, State.membersLost_stands hmember hgone hmajor hticking]
      rfl
    · rw [exec_memberLost, State.membersLost_commits hmember hgone hmajor hticking hdone]
      rfl
    · rw [exec_memberLost, State.membersLost_awaits_abort hmember hgone hmajor hticking hdone hm]
      rfl
    · rw [exec_memberLost, State.membersLost_aborts_as_master hmember hgone hmajor hticking hdone hm]
      rfl
  · intro hlost hm hactive
    exact State.masterAfter_least ((State.members_sorted s _).filter _) hlost hm hactive
  · intro u hm hticking haborted hpend hhalt hreplays
    have hrestart : u.tryRestart = u.scheduleSoon 3 :=
      State.tryRestart_schedules (s := u) hm hticking haborted hpend hhalt rfl hreplays
    rw [exec_spareArmTimeout]
    exact congrArg _ hrestart

end Sys2Proof.Machine
end

section

/-!
## Issue of rows, and a register file out of its canonical form

The statement about exchange rows asks no invariant of the state, and a row that joins the tracker also writes the status
registers of its tile. A register that is back at its reset value leaves the register file. In a file whose keys do not
rise this can uncover an entry behind it, which no read has found before: here the MID, so that a row of this module is
taken, once it has joined the tracker, for a row of another one. In the canonical form of `State.Inv`, which every step
keeps, there is no such entry.
-/

namespace Sys2Proof.Machine

/-- An exchange row: one byte, from the start of the slice, to tile 1 of module 0. -/
def oneByteRow : Nat := 3 + 1 * 2 ^ 8 + 1 * 2 ^ 70

/-- Tile 1 is enabled and in service, and ARMED shows 1. The entry of the MID, which is 7, stands behind that of ARMED, whose
key is larger: a read of the MID stops before it. -/
def hiddenMidRegs : Cells Nat :=
  [(Rg.identity_TILE_ENABLED.key 0 0, 2), (Rg.identity_TILE_ENABLED.key 0 1, 2), (Rg.identity_TILE_ENABLED.key 0 2, 2),
    (Rg.identity_TILE_WORKING.key 0 0, 2), (Rg.seq_ARMED.key 1 0, 1), (Rg.beat_MID.key 0 0, 7),
    (Rg.system_WEST_IN_RESET.key 0 0, 0)]

/-- Tile 1 runs a table with `oneByteRow` in slot 2. The beat connection to module 0 has failed, so that its packets wait. -/
def hiddenMid : State :=
  (({ regs := hiddenMidRegs, tiles := [(1, { running := true, rows := 1 })],
      dv := { send := [(connKey 0 (beatCn 0 0 0), { failed := true })] } } : State).writeN (kSlice 1 0) 1 5).writeN
    (kBank 1 0 64) 32 oneByteRow

theorem hiddenMid_next : hiddenMid.nextRow 1 3 = some (2, oneByteRow) := by decide +kernel

/-- Once the row is tracked its packet waits in the connection to module 0, and the Trellis stays empty. -/
theorem hiddenMid_sends : (hiddenMid.issueExchange 1 2 3 (XRow.ofExchange oneByteRow)).trellis = [] := by decide +kernel

theorem State.trellis_perf (s : State) (t : Nat) (f : Fld) (bit d : Nat) : (s.perf t f bit d).trellis = s.trellis := by
  simp only [State.perf]
  split
  · exact State.wrapCount_trellis ..
  · rfl

theorem hiddenMid_packets : (hiddenMid.packets 1 2 (XRow.ofExchange oneByteRow)).length = 1 := by decide +kernel

/-- Refutes O24: `hiddenMid` has row `oneByteRow` to its own module to issue, and sends it to another one. -/
theorem not_rowsIssue : ¬ Obligations.RowsIssue := by
  unfold Obligations.RowsIssue Clauses.ExchangeRowsIssue
  rintro ⟨-, hexchange, -⟩
  obtain ⟨-, -, -, hissue⟩ := hexchange hiddenMid 1 2 oneByteRow 3 (.exchangeRow 1) (XRow.ofExchange oneByteRow)
    (List.mem_cons_self ..)
  obtain ⟨hhere, -⟩ := hissue hiddenMid_next (by decide +kernel) (by decide +kernel)
  have hexec : exec (.exchangeRow 1) hiddenMid = .next (hiddenMid.issueExchange 1 2 3 (XRow.ofExchange oneByteRow)) := by
    show execExchangeRow 1 hiddenMid = _
    simp only [execExchangeRow, hiddenMid_next]
  have htrellis := congrArg State.trellis (Host.Outcome.next.inj (hexec.symm.trans (hhere (by decide +kernel))))
  rw [hiddenMid_sends, State.trellis_perf] at htrellis
  have hlength := congrArg List.length htrellis
  rw [List.length_append, hiddenMid_packets] at hlength
  exact absurd hlength (by simp)

end Sys2Proof.Machine
end

section

/-!
## What a row writes, and a tile number that reaches other registers

The keys of a register field at index `i` are those from `(id * 2 ^ 20 + i) * 4` on, and the statement bounds no tile number.
ARMED of tile 344 * 2 ^ 20 therefore has the key of SPARE_VALID. A row of that tile which writes a line of HBM takes the line
out of the tile's cache first, and the tile's status registers are shown anew: ARMED 1 there is SPARE_VALID 1, and a line in a
mirror range is then mirrored, although SPARE_VALID was 0. Where the beat's 16 MiB are spent this ends coverage, with an event,
and the event's record is written to the management event area. The keys of
the module's 256 tiles meet no other field's.
-/

namespace Sys2Proof.Machine

/-- The tile whose ARMED has the key of SPARE_VALID: the difference of the two fields' numbers, times 2 ^ 20. -/
def spareTile : Nat := (Rg.fault_SPARE_VALID.id - Rg.seq_ARMED.id) * 2 ^ 20

/-- Slot 1 of its table: one PLAIN window, the first line of HBM; the other three are of no space. -/
def oneLineWindow : Nat := 2 + 1 * 2 ^ 37 + 3 * 2 ^ 64 + 3 * 2 ^ 128 + 3 * 2 ^ 192

/-- The first byte of the management event area. -/
def areaStart : Nat := kMgmt 0x10000

/-- The West half and stack 0 serve, and both halves through a bridge channel; line 0 lies in a mirror range, and the beat has
mirrored 16 MiB. `spareTile` is armed, runs a table with `oneLineWindow`, and has line 0 in its cache. The event area starts
with a zero byte. -/
def mirroringSpare : State :=
  { ((((((((State.reset.setRg Rg.system_WEST_IN_RESET 0 0).setRg Rg.identity_PC_WORKING 0 1).setRg
      Rg.identity_HBM_WORKING 0 1).setRg Rg.identity_BRIDGE_WORKING 0 1).setRg Rg.place_SPARE_EN 0 1).setRg
      Rg.fault_MIRROR_EN 0 1).writeN (kBank spareTile 0 32) 32 oneLineWindow).writeN areaStart 1 0) with
    tiles := [(spareTile, { arm := 1, openBeat := true, running := true, cache := [(0, [])] })]
    fm := { mirrorBytes := 2 ^ 24 } }

theorem mirroringSpare_inv : mirroringSpare.Inv := ⟨by decide +kernel, by decide +kernel⟩

theorem mirroringSpare_window : mirroringSpare.winHit spareTile (.hbm 0) = some false := by decide +kernel

theorem mirroringSpare_place : mirroringSpare.locFrom spareTile (.hbm 0) = some (kHbm 0) := by decide +kernel

/-- The record of the event overwrites the zero byte at the start of the event area. -/
theorem mirroringSpare_writes_area :
    (mirroringSpare.writeRow spareTile (.hbm 0) (List.replicate 32 0)).1.mem.byte areaStart = 1 := by decide +kernel

/-- Refutes O26: a row of `spareTile` that writes the first line of HBM changes a byte of the management event area. -/
theorem not_rowWritesStayInWindows : ¬ Obligations.RowWritesStayInWindows := by
  unfold Obligations.RowWritesStayInWindows
  intro h
  obtain ⟨-, -, hplace⟩ := h mirroringSpare spareTile (.hbm 0) (List.replicate 32 0)
  obtain ⟨-, -, -, -, hframe⟩ := hplace (kHbm 0) mirroringSpare_place (fun u n hl => by cases hl)
  have hsame := hframe areaStart mirroringSpare_inv List.length_replicate (by decide +kernel) (by decide)
    (fun hlogged => by rw [mirroringSpare_window] at hlogged; cases hlogged)
  rw [mirroringSpare_writes_area] at hsame
  exact absurd hsame (by decide +kernel)

end Sys2Proof.Machine
end

section

/-!
## F36 instructions and the laws of F36 arithmetic

An F36 instruction runs a body that puts a result and its flags into rd, and one rule says what comes of that on a core that
is ready. The laws go by the fields of an encoding: a sign flip touches neither the exponent nor the fraction, and an integer
below 2^28 in magnitude needs no more than the 28 significand bits of F36, so that its rounding is a shift.
-/

namespace Sys2Proof.Machine

/-! ### Instructions -/

section
variable {s : State} {c : CoreId} {long : Bool}

/-- On a core that is ready an instruction's body runs, and what it leaves is put into the core. -/
theorem State.runCore_of_ready (h : Ready s c long) (body : Core → CRes) :
    s.runCore c long body = s.retire c long (body (s.begun c)) := by
  obtain ⟨hruns, hinterrupt, hwaiting, hfetch⟩ := h
  simp [State.runCore, State.runWith, State.begun, State.awake, hruns, hinterrupt, hwaiting, hfetch]

/-- An instruction whose body puts a result and its flags sets rd and the sticky flags, and retires. -/
theorem setsF_of_putF {i : Instr} {rd x : Nat} {f : FFlags} {body : Core → CRes} (h : Ready s c long)
    (hexec : exec i s = .next (s.runCore c long body)) (hbody : body (s.begun c) = .done ((s.begun c).putF rd (x, f))) :
    SetsF i s c long rd x f := by
  rw [SetsF, hexec, State.runCore_of_ready h, hbody]
  rfl

end

/-- Each of these instructions is a body run on its core, and each body puts the operation's result: both by their
definitions. -/
theorem ohmFloatPart : Clauses.OhmFloatPart := by
  intro s c l rd rs rt ru fmt sat h
  refine ⟨?_, ?_, ?_, ?_, ?_, ?_, ?_, ?longOnly⟩
  case longOnly =>
    rintro rfl
    and_intros <;> exact setsF_of_putF h rfl rfl
  all_goals exact setsF_of_putF h rfl rfl

/-! ### Sums and products commute -/

theorem addExact_comm (n1 n2 : Bool) (m1 m2 : Nat) (e1 e2 : Int) :
    addExact n1 m1 e1 n2 m2 e2 = addExact n2 m2 e2 n1 m1 e1 := by
  simp only [addExact, Int.min_comm e1 e2, Int.add_comm, Bool.and_comm]

theorem add36_comm (x y : Nat) : add36 x y = add36 y x := by
  unfold add36
  rw [Bool.or_comm]
  cases dec36 x with
  | nan => cases dec36 y <;> rfl
  | inf a =>
    cases dec36 y with
    | inf b => cases a <;> cases b <;> rfl
    | nan | num => rfl
  | num a m1 e1 =>
    cases dec36 y with
    | num b m2 e2 => simp only [addExact_comm a b]
    | nan | inf => rfl

theorem mul36_comm (x y : Nat) : mul36 x y = mul36 y x := by
  unfold mul36
  rw [Bool.or_comm]
  cases dec36 x with
  | nan => cases dec36 y <;> rfl
  | inf a =>
    cases dec36 y with
    | nan => rfl
    | inf b => simp only [bne_comm]
    | num b m => cases m <;> simp only [bne_comm]
  | num a m1 e1 =>
    cases dec36 y with
    | nan => rfl
    | inf b => cases m1 <;> simp only [bne_comm]
    | num b m2 e2 => simp only [bne_comm, Nat.mul_comm, Int.add_comm]

/-! ### Signs -/

theorem dec36_eq_nan_iff (x : Nat) : dec36 x = .nan ↔ bits x 27 8 = 255 ∧ bits x 0 27 ≠ 0 := by
  simp only [dec36, Fmt.decode, fmtF36]
  by_cases hexp : bits x 27 8 = 255
  · by_cases hfrac : bits x 0 27 = 0 <;> simp [hexp, hfrac]
  · by_cases hsub : bits x 27 8 = 0 <;> simp [hexp, hsub]

/-- The sign bit is no part of what makes a NaN. -/
theorem dec36_flip_eq_nan_iff (x : Nat) : dec36 ((x + 2 ^ 35) % 2 ^ 36) = .nan ↔ dec36 x = .nan := by
  have hexp : bits ((x + 2 ^ 35) % 2 ^ 36) 27 8 = bits x 27 8 := by simp only [bits]; omega
  have hfrac : bits ((x + 2 ^ 35) % 2 ^ 36) 0 27 = bits x 0 27 := by simp only [bits]; omega
  rw [dec36_eq_nan_iff, dec36_eq_nan_iff, hexp, hfrac]

theorem neg36_of_ne_nan {x : Nat} (h : dec36 x ≠ .nan) : neg36 x = (x + 2 ^ 35) % 2 ^ 36 := if_neg h

theorem dec36_neg36_ne_nan {x : Nat} (h : dec36 x ≠ .nan) : dec36 (neg36 x) ≠ .nan := by
  rwa [neg36_of_ne_nan h, ne_eq, dec36_flip_eq_nan_iff]

theorem neg36_neg36 {x : Nat} (hx : x < 2 ^ 36) (h : dec36 x ≠ .nan) : neg36 (neg36 x) = x := by
  rw [neg36_of_ne_nan (dec36_neg36_ne_nan h), neg36_of_ne_nan h]
  omega

theorem abs36_neg36 {x : Nat} (h : dec36 x ≠ .nan) : abs36 (neg36 x) = abs36 x := by
  rw [abs36, abs36, if_neg (dec36_neg36_ne_nan h), if_neg h, neg36_of_ne_nan h]
  omega

theorem sub36_eq_add36_neg36 {x y : Nat} (hx : dec36 x ≠ .nan) (hy : dec36 y ≠ .nan) :
    sub36 x y = add36 x (neg36 y) :=
  if_neg (not_or.mpr ⟨hx, hy⟩)

/-! ### Integers -/

/-- The encoding of a normal value, by its sign, exponent and fraction fields. -/
theorem dec36_normal (neg : Bool) {x fr : Nat} (hpos : 0 < x) (hx : x < 255) (hfr : fr < 2 ^ 27) :
    dec36 (fmtF36.signed neg (x * 2 ^ 27 + fr)) = .num neg (2 ^ 27 + fr) (x - 127 - 27) (x - 127) := by
  have hsign : bitN (ofBool neg * 2 ^ 35 + (x * 2 ^ 27 + fr)) 35 = neg := by
    have hcode : (ofBool neg * 2 ^ 35 + (x * 2 ^ 27 + fr)) / 2 ^ 35 = ofBool neg := by omega
    rw [bitN, hcode]
    cases neg <;> rfl
  have hexp : bits (ofBool neg * 2 ^ 35 + (x * 2 ^ 27 + fr)) 27 8 = x := by
    simp only [bits]; omega
  have hfrac : bits (ofBool neg * 2 ^ 35 + (x * 2 ^ 27 + fr)) 0 27 = fr := by
    simp only [bits]; omega
  simp only [dec36, Fmt.decode, Fmt.signed, fmtF36, Nat.reduceAdd, hsign, hexp, hfrac]
  rw [if_neg (by omega), if_neg (by omega)]
  rfl

/-- A nonzero significand of at most 28 bits has them all once it is shifted up to bit 27. -/
theorem shifted_bounds {m : Nat} (hm : m ≠ 0) (h : m < 2 ^ 28) :
    2 ^ 27 ≤ m * 2 ^ (27 - m.log2) ∧ m * 2 ^ (27 - m.log2) < 2 ^ 28 := by
  have hlog : m.log2 < 28 := (Nat.log2_lt hm).mpr h
  constructor
  · calc 2 ^ 27 = 2 ^ m.log2 * 2 ^ (27 - m.log2) := by rw [← Nat.pow_add]; congr 1; omega
      _ ≤ m * 2 ^ (27 - m.log2) := Nat.mul_le_mul_right _ (Nat.log2_self_le hm)
  · calc m * 2 ^ (27 - m.log2) < 2 ^ (m.log2 + 1) * 2 ^ (27 - m.log2) :=
          Nat.mul_lt_mul_of_pos_right Nat.lt_log2_self (by positivity)
      _ = 2 ^ 28 := by rw [← Nat.pow_add]; congr 1; omega

/-- An integer of at most 28 bits lies on the grid of F36. -/
theorem roundMag_of_lt {m : Nat} (hm : m ≠ 0) (h : m < 2 ^ 28) :
    roundMag 27 (-126) m 0 = (m * 2 ^ (27 - m.log2), (m.log2 : Int) - 27, false) := by
  have hlog : m.log2 < 28 := (Nat.log2_lt hm).mpr h
  have hunit : max ((m.log2 : Int) + 0 - 27) (-126 - 27) = m.log2 - 27 := by omega
  have hshift : (0 - ((m.log2 : Int) - 27)).toNat = 27 - m.log2 := by omega
  simp only [roundMag, if_neg hm, Nat.cast_ofNat, hunit, hshift]
  rw [if_pos (by omega)]

/-- A significand with its leading bit in place gives a normal code. -/
theorem Fmt.round_of_normal {f : Fmt} {m sig : Nat} {e q : Int} {inexact : Bool}
    (hround : roundMag f.fb f.emin m e = (sig, q, inexact)) (hlow : 2 ^ f.fb ≤ sig) (hhigh : sig < 2 ^ (f.fb + 1)) :
    f.round m e =
      { code := (q + f.fb + f.bias).toNat * 2 ^ f.fb + (sig - 2 ^ f.fb)
        ofl := decide (f.maxCode < (q + f.fb + f.bias).toNat * 2 ^ f.fb + (sig - 2 ^ f.fb)), inexact := inexact } := by
  simp only [Fmt.round, hround, if_neg hhigh.ne, if_neg hlow.not_gt]

/-- The one rounding leaves an integer of at most 28 bits as it is: a normal code, and no overflow. -/
theorem round_of_lt {m : Nat} (hm : m ≠ 0) (h : m < 2 ^ 28) :
    fmtF36.round m 0 =
      { code := (m.log2 + 127) * 2 ^ 27 + (m * 2 ^ (27 - m.log2) - 2 ^ 27), ofl := false, inexact := false } := by
  obtain ⟨hlow, hhigh⟩ := shifted_bounds hm h
  have hlog : m.log2 < 28 := (Nat.log2_lt hm).mpr h
  have hexp : ((m.log2 : Int) - 27 + (27 : Nat) + (127 : Nat)).toNat = m.log2 + 127 := by omega
  refine (Fmt.round_of_normal (f := fmtF36) (roundMag_of_lt hm h) hlow hhigh).trans ?_
  simp only [fmtF36, Fmt.maxCode, hexp, Rounded.mk.injEq, decide_eq_false_iff_not, true_and, and_true]
  omega

/-- An integer of at most 28 bits is put exactly, without a flag: its encoding has its sign, and its magnitude in some unit. -/
theorem put36_of_lt (neg : Bool) {m : Nat} (h : m < 2 ^ 28) (hneg : m = 0 → neg = false) :
    (put36 neg m 0).2 = {} ∧
      ∃ (k : Nat) (E : Int), dec36 (put36 neg m 0).1 = .num neg (m * 2 ^ k) (-k) E := by
  rcases Nat.eq_zero_or_pos m with rfl | hpos
  · rw [hneg rfl]
    exact ⟨rfl, 153, -126, by decide⟩
  · have hm : m ≠ 0 := hpos.ne'
    obtain ⟨hlow, hhigh⟩ := shifted_bounds hm h
    have hlog : m.log2 < 28 := (Nat.log2_lt hm).mpr h
    simp only [put36, round_of_lt hm h, Bool.false_and, Bool.false_eq_true, if_false, true_and]
    refine ⟨27 - m.log2, m.log2, ?_⟩
    rw [dec36_normal neg (by omega) (by omega) (by omega)]
    simp only [Val.num.injEq, true_and]
    omega

theorem rne_mul_pow (m k : Nat) : rne (m * 2 ^ k) k = m := by
  have hpos : 0 < 2 ^ k := by positivity
  simp [rne, hpos.ne]

/-- The integer part of an integer is that integer, truncated or to nearest. -/
theorem intOf_mul_pow (nearest neg : Bool) (m k : Nat) :
    intOf nearest neg (m * 2 ^ k) (-k) = if neg then -(m : Int) else m := by
  have hpos : 0 < 2 ^ k := by positivity
  have hdiv : m * 2 ^ k / 2 ^ k = m := Nat.mul_div_cancel m hpos
  unfold intOf
  rw [Int.neg_neg, Int.toNat_natCast, rne_mul_pow, hdiv, ite_self]
  split
  · next hk => rw [show k = 0 by omega]; simp
  · rfl

theorem ofInt36_exact {i : Int} (hlow : -(2 ^ 28) < i) (hhigh : i < 2 ^ 28) :
    (ofInt36 i).2 = {} ∧
      ∃ (k : Nat) (E : Int), dec36 (ofInt36 i).1 = .num (decide (i < 0)) (i.natAbs * 2 ^ k) (-k) E :=
  put36_of_lt (decide (i < 0)) (by omega) (fun h => decide_eq_false (by omega))

theorem toInt36_ofInt36 (nearest : Bool) {i : Int} (hlow : -(2 ^ 28) < i) (hhigh : i < 2 ^ 28) :
    toInt36 nearest (-(2 ^ 35)) (2 ^ 35 - 1) (ofInt36 i).1 = (i, {}) := by
  obtain ⟨-, k, E, hdec⟩ := ofInt36_exact hlow hhigh
  have hint : intOf nearest (decide (i < 0)) (i.natAbs * 2 ^ k) (-k) = i := by
    rw [intOf_mul_pow]
    simp only [decide_eq_true_eq]
    omega
  simp only [toInt36, hdec, hint]
  rw [if_neg (by omega), if_neg (by omega)]

theorem floatArithmetic : Clauses.FloatArithmetic :=
  ⟨fun x y => ⟨add36_comm x y, mul36_comm x y⟩,
    fun _ hx h => ⟨neg36_neg36 hx h, abs36_neg36 h⟩,
    fun _ _ => sub36_eq_add36_neg36,
    fun _ hlow hhigh => ⟨(ofInt36_exact hlow hhigh).1, fun nearest => toInt36_ofInt36 nearest hlow hhigh⟩⟩

/-- Settles O6: the instructions by the rule of a body that puts its result, and the laws above. -/
theorem ohmFloat : Obligations.OhmFloat := ⟨ohmFloatPart, floatArithmetic⟩

end Sys2Proof.Machine
end

section

/-!
## Instructions of a core: their frame, and what they can change

Every instruction runs its body in the frame of `State.runWith`. An instruction without external accesses leaves at most one
core, the list of detections and the count of free values changed: its body leaves the state as it is or draws one free value,
and so does the way in which it ends.
-/

namespace Sys2Proof.Machine

section
variable {s t : State} {c : CoreId} {long resume : Bool}

/-! ### The frame of an instruction -/

/-- Every instruction of a core runs its body in one frame: it is looked up in the table of commands. -/
theorem exec_eq_runWith {i : Instr} (h : ohmOf i = some (c, long)) (s : State) :
    ∃ resume body, exec i s = .next (s.runWith c long resume body) := by
  unfold ohmOf at h
  split at h
  all_goals cases h
  all_goals exact ⟨_, _, rfl⟩

/-- The core that the body of an instruction finds on a core that is ready. -/
def State.bodyCore (s : State) (c : CoreId) (resume : Bool) : Core := if resume then s.awake c else s.begun c

theorem State.runWith_of_ready (h : Ready s c long) (resume : Bool) (body : State → Core → State × CRes) :
    s.runWith c long resume body = (body s (s.bodyCore c resume)).1.retire c long (body s (s.bodyCore c resume)).2 := by
  obtain ⟨hruns, hinterrupt, hwaiting, hfetch⟩ := h
  simp [State.runWith, State.bodyCore, State.begun, State.awake, hruns, hinterrupt, hwaiting, hfetch]

/-- On a core that is ready, an instruction that acts on its core alone leaves what its body leaves. -/
theorem exec_of_body {i : Instr} {body : Core → CRes} {r : CRes} (h : Ready s c long)
    (hexec : exec i s = .next (s.runCore c long body)) (hbody : body (s.begun c) = r) :
    exec i s = .next (s.retire c long r) := by
  rw [hexec, State.runCore_of_ready h, hbody]

/-- An instruction whose body writes one register sets it. -/
theorem sets_of_body {i : Instr} {rd : Nat} {v : Word36} {body : Core → CRes} (h : Ready s c long)
    (hexec : exec i s = .next (s.runCore c long body)) (hbody : body (s.begun c) = .done ((s.begun c).set rd v)) :
    Sets i s c long rd v := exec_of_body h hexec hbody

/-! ### What a core's instruction can change -/

/-- A state that differs in one core, in reports of detectors, and in the count of free values. -/
def State.coreLeft (s : State) (c : CoreId) (k : Core) (ds : List Detection) (n : Nat) : State :=
  { s with cores := s.cores.set {} (coreKey c) k, detections := s.detections ++ ds, freeCtr := s.freeCtr + n }

theorem State.setCore_eq_coreLeft (s : State) (c : CoreId) (k : Core) : s.setCore c k = s.coreLeft c k [] 0 := by
  simp [State.setCore, State.coreLeft]

theorem State.setCore_drawn (s : State) (c : CoreId) (k : Core) : s.drawn.setCore c k = s.coreLeft c k [] 1 := by
  simp [State.setCore, State.coreLeft, State.drawn]

theorem State.setCore_detect (s : State) (c : CoreId) (k : Core) (d : Detection) :
    (s.setCore c k).detect d = s.coreLeft c k [d] 0 := rfl

theorem State.setCore_drawn_detect (s : State) (c : CoreId) (k : Core) (d : Detection) :
    (s.drawn.setCore c k).detect d = s.coreLeft c k [d] 1 := rfl

/-- The state is left as it was, or one free value has been drawn. -/
def DrawsOne (s : State) (x : State × Core) : Prop := x.1 = s ∨ x.1 = s.drawn

theorem State.predicted_draws (s : State) (k : Core) : DrawsOne s (s.predicted k) := by
  unfold State.predicted
  split
  · exact .inr rfl
  · exact .inl rfl

theorem State.discarded_draws (s : State) (k : Core) : DrawsOne s (s.discarded k) := by
  unfold State.discarded
  split
  · exact .inr rfl
  · exact .inl rfl

theorem State.trap_eq_coreLeft (s : State) (c : CoreId) (k : Core) (n : Nat) (long : Bool) (tval : Word36) :
    ∃ k' ds m, m ≤ 1 ∧ s.trap c k n long tval = s.coreLeft c k' ds m := by
  unfold State.trap
  rcases s.discarded_draws k with h | h <;> dsimp only <;> rw [h] <;> split
  · exact ⟨_, _, 0, by omega, State.setCore_detect _ _ _ _⟩
  · exact ⟨_, _, 0, by omega, State.setCore_eq_coreLeft _ _ _⟩
  · exact ⟨_, _, 1, le_rfl, State.setCore_drawn_detect _ _ _ _⟩
  · exact ⟨_, _, 1, le_rfl, State.setCore_drawn _ _ _⟩

/-- However an instruction's body ends, its outcome changes the core, draws at most one free value, and may report. -/
theorem State.retire_eq_coreLeft (s : State) (c : CoreId) (long : Bool) (r : CRes) :
    ∃ k ds m, m ≤ 1 ∧ s.retire c long r = s.coreLeft c k ds m := by
  cases r with
  | done k => exact ⟨_, _, 0, by omega, State.setCore_eq_coreLeft _ _ _⟩
  | stay k => exact ⟨_, _, 0, by omega, State.setCore_eq_coreLeft _ _ _⟩
  | trap k n tval => exact s.trap_eq_coreLeft c k n long tval
  | jump k pc =>
    unfold State.retire
    rcases s.predicted_draws (k.count 1 1) with h | h <;> dsimp only <;> rw [h]
    · exact ⟨_, _, 0, by omega, State.setCore_eq_coreLeft _ _ _⟩
    · exact ⟨_, _, 1, le_rfl, State.setCore_drawn _ _ _⟩

@[simp] theorem State.coreLeft_mem (s : State) (c : CoreId) (k : Core) (ds : List Detection) (n : Nat) :
    (s.coreLeft c k ds n).mem = s.mem := rfl

@[simp] theorem State.retire_mem (s : State) (c : CoreId) (long : Bool) (r : CRes) : (s.retire c long r).mem = s.mem := by
  obtain ⟨k, ds, m, -, h⟩ := s.retire_eq_coreLeft c long r
  rw [h, State.coreLeft_mem]

/-- The body of an instruction that reaches nothing outside its core: it leaves the state as it found it, or draws one free
value and retires. -/
def LocalBody (body : State → Core → State × CRes) : Prop :=
  ∀ s k, (body s k).1 = s ∨ ∃ k', body s k = (s.drawn, .done k')

/-- Whatever comes before or in the place of the instruction, and however its body ends. -/
theorem State.runWith_eq_coreLeft {body : State → Core → State × CRes} (hbody : LocalBody body) (s : State) :
    s.runWith c long resume body = s ∨ ∃ k ds m, m ≤ 1 ∧ s.runWith c long resume body = s.coreLeft c k ds m := by
  unfold State.runWith
  dsimp only
  split
  · exact .inl rfl
  · split
    · exact .inr ⟨_, _, 0, by omega, State.setCore_eq_coreLeft _ _ _⟩
    · split
      · exact .inl rfl
      · split
        · exact .inr (s.trap_eq_coreLeft _ _ _ _ _)
        · right
          rcases hbody s _ with h | ⟨k', h⟩ <;> rw [h]
          · exact s.retire_eq_coreLeft _ _ _
          · exact ⟨_, _, 1, le_rfl, State.setCore_drawn _ _ _⟩

/-! ### Copies within the memory of a core -/

/-- One word of WCOPY or TLIV: what `deny` names comes first, then the word read and the word written. -/
def copyElem (src dst : Word36) (deny : Core → Option Nat) (f : Core → Word36 → Word36) (s : State) (k : Core) (i : Nat) :
    State × Core × Option (Nat × Word36) :=
  match deny k with
  | some e => (s, k, some (4, BitVec.ofNat 36 e))
  | none =>
    if !k.pmOk (src + immZ i) 18 then (s, k, some (4, src + immZ i))
    else if !k.pmOk (dst + immZ i) 19 then (s, k, some (4, dst + immZ i))
    else (s, k.pmWrite (dst + immZ i).toNat (f k (src + immZ i)), none)

/-- WCOPY and TLIV: the count, the ranges and the head of the table are checked, and the words follow from where they stopped.
`deny` and `f` have the core at the start as their first argument. -/
def copyBody (rd rs rt upto : Nat) (bad : Core → Bool) (head : Core → Word36) (deny : Core → Core → Option Nat)
    (f : Core → Core → Word36 → Word36) (s : State) (k : Core) : State × CRes :=
  if 2 ^ 24 ≤ (k.get rd).toNat then badOperand s k (k.get rd)
  else if (k.get rs).toNat < (k.get rt).toNat ∧ (k.get rt).toNat < (k.get rs).toNat + (k.get rd).toNat then
    badOperand s k (k.get rt)
  else if bad k then badOperand s k (head k)
  else granules (k.get rd).toNat 1 (copyElem (k.get rs) (k.get rt) (deny k) (f k)) upto s (k.cwClear 0x004) k.resumeAt

/-- WCOPY: no table. -/
def wcopyBody (c : CoreId) (rd rs rt upto : Nat) : State → Core → State × CRes :=
  copyBody rd rs rt upto (fun _ => false) (fun _ => 0) (fun _ _ => none) (fun _ k a => k.pmRead c a.toNat)

/-- TLIV: the table at ru. -/
def tlivBody (c : CoreId) (rd rs rt ru upto : Nat) : State → Core → State × CRes :=
  copyBody rd rs rt upto (fun k => k.headBad c (k.get ru).toNat) (fun k => k.pmRead c ((k.get ru).toNat + 2))
    (fun k₀ k => k.tableDenied c (k₀.get ru).toNat)
    (fun k₀ k a => BitVec.ofNat 36 (k.interp c (k₀.get ru).toNat (k.pmRead c a.toNat).toNat))

theorem exec_wcopy (c : CoreId) (rd rs rt upto : Nat) (s : State) :
    exec (.wcopy c rd rs rt upto) s = .next (s.runWith c true true (wcopyBody c rd rs rt upto)) := rfl

theorem exec_tliv (c : CoreId) (rd rs rt ru upto : Nat) (s : State) :
    exec (.tliv c rd rs rt ru upto) s = .next (s.runWith c true true (tlivBody c rd rs rt ru upto)) := rfl

theorem copyElem_fst (src dst : Word36) (deny : Core → Option Nat) (f : Core → Word36 → Word36) (s : State) (k : Core)
    (i : Nat) : (copyElem src dst deny f s k i).1 = s := by
  unfold copyElem
  split
  · rfl
  · split
    · rfl
    · split <;> rfl

/-- Granules that leave the state as it is do so in a run. -/
theorem granules_fst {n g : Nat} {elem : State → Core → Nat → State × Core × Option (Nat × Word36)}
    (he : ∀ s k i, (elem s k i).1 = s) (fuel : Nat) (s : State) (k : Core) (i : Nat) :
    (granules n g elem fuel s k i).1 = s := by
  induction fuel generalizing s k i with
  | zero => unfold granules; split <;> rfl
  | succ fuel ih =>
    have hs := he s k i
    unfold granules
    split
    · split
      · next e => rw [e] at hs; subst hs; exact ih _ _ _
      · next e => rw [e] at hs; exact hs
    · rfl

theorem localBody_copyBody (rd rs rt upto : Nat) (bad : Core → Bool) (head : Core → Word36)
    (deny : Core → Core → Option Nat) (f : Core → Core → Word36 → Word36) :
    LocalBody (copyBody rd rs rt upto bad head deny f) := by
  intro s k
  left
  unfold copyBody
  split
  · rfl
  · split
    · rfl
    · split
      · rfl
      · exact granules_fst (copyElem_fst _ _ _ _) _ _ _ _

theorem localBody_runCore (f : Core → CRes) : LocalBody (fun s k => (s, f k)) := fun _ _ => .inl rfl

theorem localBody_mfs (c : CoreId) (rd i : Nat) : LocalBody (mfsBody c rd i) := by
  intro s k
  unfold mfsBody
  split
  · exact .inl rfl
  · split
    · exact .inl rfl
    · dsimp only
      split
      · exact .inr ⟨_, rfl⟩
      · exact .inl rfl

/-- The instructions with accesses to the external space (R163, R179). -/
def reachesOut : Instr → Bool
  | .ldl .. | .ldls .. | .stl .. | .ldf .. | .stf .. | .atadd .. | .atswap .. | .atcas .. | .blkld .. | .blkst .. => true
  | _ => false

/-- An instruction without external accesses runs a body that reaches nothing outside its core. -/
theorem exec_eq_runWith_local {i : Instr} (h : ohmOf i = some (c, long)) (hr : reachesOut i = false) (s : State) :
    ∃ resume body, exec i s = .next (s.runWith c long resume body) ∧ LocalBody body := by
  cases i with
  | mfs c rd i => cases h; exact ⟨_, _, rfl, localBody_mfs _ _ _⟩
  | msgvalPop c rd => cases h; exact ⟨_, _, rfl, localBody_mfs _ _ _⟩
  | wcopy c rd rs rt upto => cases h; exact ⟨_, _, exec_wcopy c rd rs rt upto s, localBody_copyBody _ _ _ _ _ _ _ _⟩
  | tliv c rd rs rt ru upto => cases h; exact ⟨_, _, exec_tliv c rd rs rt ru upto s, localBody_copyBody _ _ _ _ _ _ _ _⟩
  | _ => cases h <;> cases hr <;> exact ⟨_, _, rfl, localBody_runCore _⟩

theorem ohmCoreFrame : Clauses.OhmCoreFrame := by
  intro i s t c long hohm hnot hexec
  have hlocal : reachesOut i = false := by
    cases i with
    | ldl _ rd rs o | ldls _ rd rs o | stl _ rd rs o => cases hohm; exact absurd (by simp) (hnot rd rs 0 0 0 0 o)
    | ldf _ rd rs imm | stf _ rd rs imm => cases hohm; exact absurd (by simp) (hnot rd rs 0 0 imm 0 (.short 0))
    | atadd _ rd rs rt | atswap _ rd rs rt => cases hohm; exact absurd (by simp) (hnot rd rs rt 0 0 0 (.short 0))
    | atcas _ rd rs rt ru => cases hohm; exact absurd (by simp) (hnot rd rs rt ru 0 0 (.short 0))
    | blkld _ rd rs rt ru up | blkst _ rd rs rt ru up => cases hohm; exact absurd (by simp) (hnot rd rs rt ru 0 up (.short 0))
    | _ => rfl
  obtain ⟨resume, body, hrun, hbody⟩ := exec_eq_runWith_local hohm hlocal s
  obtain rfl := Host.Outcome.next.inj (hrun.symm.trans hexec)
  rcases State.runWith_eq_coreLeft (c := c) (long := long) (resume := resume) hbody s with h | ⟨k, ds, n, hn, h⟩
  · exact ⟨.inl h, fun a => by rw [h]⟩
  · exact ⟨.inr ⟨k, ds, n, hn, h⟩, fun a => by rw [h, State.coreLeft_mem]⟩

end
end Sys2Proof.Machine
end

section

/-!
## The frame of an access to a lane in memory

A load reads, and what it leaves behind are registers, caches and free values. A store writes where the lane lies: at its key
in a slice or hub SRAM, and byte by byte at the places of its bytes in HBM. Those places hang on register fields that a tile's
status registers are none of, so that what a store does first, taking the line out of the tile's cache, does not move them. An
atomic is a load and a store of one lane.
-/

namespace Sys2Proof.Machine

section
variable {s u : State} {c : CoreId} {k k' : Core} {long : Bool} {a o : Nat} {x : Nat}

/-! ### Places of HBM bytes -/

/-- The status registers that show a tile (R89, R119). -/
def tileStatus : List Nat := [Rg.seq_ARMED.id, Rg.seq_RUNNING.id, Rg.seq_DONE.id, Rg.tile_TRACKED.id, Rg.tile_EXCH_OUT.id,
  Rg.tile_MOVES.id]

/-- Two states agree on every register field but the status registers of tiles. -/
def SameMap (s u : State) : Prop := ∀ f j, f.id ∉ tileStatus → j < 2 ^ 20 → u.rg f j = s.rg f j

/-- An address inside the HBM map has a stack below 6 and a logical pseudo-channel below P. -/
theorem hbmMap_lt {mode P : Nat} (h : a < 6 * (P * pcBytes)) : (hbmMap mode P a).1 < 6 ∧ (hbmMap mode P a).2.1 < P := by
  have hP : 0 < P := by
    rcases Nat.eq_zero_or_pos P with rfl | h
    · simp at h
    · exact h
  have hbytes : 0 < pcBytes := by decide
  unfold hbmMap
  dsimp only
  split
  · exact ⟨Nat.div_lt_of_lt_mul (by rw [Nat.mul_comm]; exact h), Nat.mod_lt _ hP⟩
  · exact ⟨Nat.div_lt_of_lt_mul (by rw [Nat.mul_comm]; exact h), Nat.mod_lt _ hP⟩
  · have h2 : a / (3 * (P * pcBytes)) < 2 := Nat.div_lt_of_lt_mul (by omega)
    exact ⟨by omega, Nat.mod_lt _ hP⟩
  · have h2 : a / (3 * (P * pcBytes)) < 2 := Nat.div_lt_of_lt_mul (by omega)
    exact ⟨by omega, Nat.mod_lt _ hP⟩
  · refine ⟨Nat.div_lt_of_lt_mul (Nat.div_lt_of_lt_mul ?_), Nat.mod_lt _ hP⟩
    calc a < 6 * (P * pcBytes) := h
      _ = pcBytes * (P * 6) := by ring
  · exact ⟨Nat.mod_lt _ (by omega), Nat.mod_lt _ hP⟩

theorem State.hbmPhys_congr (h : SameMap s u) (a : Nat) : u.hbmPhys a = s.hbmPhys a := by
  have hmode : u.rg Rg.hbm_MODE_CUR = s.rg Rg.hbm_MODE_CUR := h _ _ (by decide) (by decide)
  have hpcs : u.pcs = s.pcs := by
    simp only [State.pcs]
    rw [h Rg.hbm_SPARES_CUR 0 (by decide) (by decide)]
  have hbytes : u.hbmBytes = s.hbmBytes := by simp only [State.hbmBytes, hpcs]
  unfold State.hbmPhys
  rw [hbytes, hmode, hpcs]
  split
  · rfl
  · next hin =>
    have hlt := hbmMap_lt (mode := s.rg Rg.hbm_MODE_CUR) (Nat.lt_of_not_le hin)
    have hle : s.pcs ≤ 32 := Nat.sub_le _ _
    generalize hbmMap (s.rg Rg.hbm_MODE_CUR) s.pcs a = m at hlt ⊢
    obtain ⟨st, p, o⟩ := m
    obtain ⟨hst, hp⟩ := hlt
    dsimp only at hst hp ⊢
    have hi : 32 * st + p < 2 ^ 20 := by omega
    have hj : st < 2 ^ 20 := by omega
    have hphys := h Rg.hbm_PHYS _ (by decide) hi
    have hhole : u.flag Rg.hbm_HOLE (32 * st + p) = s.flag Rg.hbm_HOLE (32 * st + p) := by
      simp only [State.flag, h Rg.hbm_HOLE _ (by decide) hi]
    have hpc : ∀ n, u.pcWorking st n = s.pcWorking st n := fun n => by
      simp only [State.pcWorking, h Rg.identity_PC_WORKING _ (by decide) hj]
    have hstack := h Rg.identity_HBM_WORKING 0 (by decide) (by decide)
    have hhalf : u.halfUp (st / 3) = s.halfUp (st / 3) := by
      simp only [State.halfUp, h Rg.system_WEST_IN_RESET 0 (by decide) (by decide),
        h Rg.system_EAST_IN_RESET 0 (by decide) (by decide)]
    simp only [hphys, hhole, hpc, hstack, hhalf]

theorem State.hbmKey_congr (h : SameMap s u) (a : Nat) : u.hbmKey a = s.hbmKey a := by
  simp only [State.hbmKey, State.hbmPhys_congr h]

theorem sameMap_of_regs_eq (h : u.regs = s.regs) : SameMap s u := fun f j _ _ => by
  simp only [State.rg, State.copyOf, h]

theorem sameMap_setTile {t : Nat} {T : Tile} (hinv : s.Inv) (ht : t < 2 ^ 20) : SameMap s (s.setTile t T) :=
  fun _ _ hf hj => State.rg_setTile_other hinv ht hj hf

theorem sameMap_uncache {t n : Nat} (hinv : s.Inv) (ht : t < 2 ^ 20) : SameMap s (s.uncache t a n) := by
  unfold State.uncache
  dsimp only
  split
  · exact sameMap_of_regs_eq rfl
  · exact sameMap_setTile hinv ht

/-! ### What the accesses leave in memory -/

@[simp] theorem State.uncache_mem (s : State) (t a n : Nat) : (s.uncache t a n).mem = s.mem := by
  unfold State.uncache
  dsimp only
  split
  · rfl
  · exact State.setTile_mem _ _ _

/-- Bytes of HBM change only at their places. -/
theorem State.byte_writeHbm_other {bs : List Byte} (h : ∀ j, j < bs.length → s.hbmKey (a + j) ≠ some x) :
    (s.writeHbm a bs).mem.byte x = s.mem.byte x := by
  induction bs generalizing s a with
  | nil => rfl
  | cons b bs ih =>
    rw [State.writeHbm_cons]
    have h0 := h 0 (by simp)
    rw [Nat.add_zero] at h0
    have hrest : ∀ j, j < bs.length → s.hbmKey (a + 1 + j) ≠ some x := fun j hj => by
      rw [Nat.add_assoc, Nat.add_comm 1 j]
      exact h (j + 1) (by simpa using hj)
    cases hk : s.hbmKey a with
    | none => exact ih hrest
    | some key =>
      rw [hk] at h0
      refine (ih (s := { s with mem := s.mem.put key b }) fun j hj => ?_).trans
        (Memory.byte_put_other _ _ fun hx => h0 (congrArg some hx.symm))
      rw [State.hbmKey_congr (sameMap_of_regs_eq rfl)]
      exact hrest j hj

/-- One byte of hub SRAM: it is written, or not, or Sieve notes that it was ignored. -/
theorem State.putHub_cases (s : State) (a : Nat) (b : Byte) : s.putHub a b = s ∨
    s.putHub a b = { s with mem := s.mem.put (kHub a) b } ∨ s.putHub a b = s.setRg Rg.sieve_WR_IGNORED 0 1 := by
  rw [show State.putHub = _ by delta State.putHub; rfl]
  split
  · exact .inr (.inl rfl)
  · exact .inl rfl
  · split
    · exact .inr (.inr rfl)
    · exact .inr (.inl rfl)

theorem State.byte_putHub_other {b : Byte} (h : x ≠ kHub a) : (s.putHub a b).mem.byte x = s.mem.byte x := by
  rcases s.putHub_cases a b with hput | hput | hput <;> rw [hput]
  · exact Memory.byte_put_other _ _ h
  · rw [State.setRg_mem]

/-- Bytes of hub SRAM change only at their places. -/
theorem State.byte_writeHub_other {bs : List Byte} (h : x < kHub a ∨ kHub a + bs.length ≤ x) :
    (s.writeHub a bs).mem.byte x = s.mem.byte x := by
  induction bs generalizing s a with
  | nil => rfl
  | cons b bs ih =>
    have hnext : kHub (a + 1) = kHub a + 1 := by unfold kHub; omega
    rw [List.length_cons] at h
    unfold State.writeHub
    rw [ih (by rw [hnext]; omega), State.byte_putHub_other (by omega)]

@[simp] theorem length_leBytes (n v : Nat) : (leBytes n v).length = n := by
  induction n generalizing v with
  | zero => rfl
  | succ n ih => simp [leBytes, ih]

/-- A miss is filled, or nothing happens. -/
theorem State.missFill_cases (s : State) (t a : Nat) : s.missFill t a = s ∨
    ∃ T, s.missFill t a = (s.setTile t T).cacheCount t Rg.tile_CACHE_MISSES 1 := by
  rw [show State.missFill = _ by delta State.missFill; rfl]
  dsimp only
  split
  · exact .inl rfl
  · exact .inr ⟨_, rfl⟩

@[simp] theorem State.cacheCount_mem (s : State) (t : Nat) (f : Fld) (bit : Nat) : (s.cacheCount t f bit).mem = s.mem :=
  State.wrapCount_mem _ _ _ _ _ _ _ _

@[simp] theorem State.missFill_mem (s : State) (t a : Nat) : (s.missFill t a).mem = s.mem := by
  rcases s.missFill_cases t a with h | ⟨T, h⟩ <;> rw [h]
  rw [State.cacheCount_mem, State.setTile_mem]

@[simp] theorem State.cacheRead_mem (s : State) (t a : Nat) : (s.cacheRead t a).1.mem = s.mem := by
  unfold State.cacheRead
  dsimp only
  split
  · rw [State.cacheCount_mem, State.setTile_mem]
  · exact State.missFill_mem _ _ _

/-- A place in a slice, hub SRAM or HBM: a memory in which an atomic acts (R163). -/
def ExtAt.inMemory : ExtAt → Bool
  | .slice .. | .hub _ | .hbm _ => true
  | _ => false

/-- The bytes of a lane in memory, by their keys. -/
def ExtAt.covers (s : State) : ExtAt → Nat → Prop
  | .slice t o, x => kSlice t o ≤ x ∧ x < kSlice t o + 4
  | .hub o, x => kHub o ≤ x ∧ x < kHub o + 4
  | .hbm o, x => ∃ j, j < 4 ∧ s.hbmKey (o + j) = some x
  | _, _ => False

/-- Where an access is done, what it leaves satisfies P. -/
def ExtRes.Leaves (P : State → Prop) : ExtRes → Prop
  | .ok s _ => P s
  | _ => True

theorem ExtRes.Leaves.mono {P Q : State → Prop} {r : ExtRes} (h : r.Leaves P) (himp : ∀ s, P s → Q s) : r.Leaves Q := by
  cases r with
  | ok s v => exact himp s h
  | _ => trivial

/-- A lane of a slice is read from the state as it is, but for the free values drawn. -/
theorem State.loadSlice_leaves (s : State) (c : CoreId) (k : Core) (t a : Nat) :
    (s.loadSlice c k t a).Leaves (fun u => u = s ∨ u = s.drawn) := by
  unfold State.loadSlice
  split
  · exact .inl rfl
  · split
    · trivial
    · split
      · trivial
      · split
        · exact .inr rfl
        · exact .inl rfl

theorem State.loadHbm_leaves_mem (s : State) (c : CoreId) (a : Nat) (cached : Bool) :
    (s.loadHbm c a cached).Leaves (fun u => u.mem = s.mem) := by
  unfold State.loadHbm
  dsimp only
  split
  · split
    · split
      · exact State.cacheRead_mem _ _ _
      · trivial
    · rfl
  · rfl

theorem State.loadHbm_uncached (s : State) (c : CoreId) (a : Nat) :
    (s.loadHbm c a false).Leaves (fun u => u = s ∨ u = s.drawn) := by
  cases c <;> exact .inl rfl

/-- A read of a lane in memory, by a load or by an atomic, changes no byte. -/
theorem State.extRead_leaves_mem {n : Nat} {e : ExtAt} {cached : Bool} (hext : extAt c k a = some (n, e))
    (he : e.inMemory = true) : (s.extRead c k a cached).Leaves (fun u => u.mem = s.mem) := by
  unfold State.extRead
  split
  · trivial
  · split
    · trivial
    · split
      · trivial
      · rw [hext]
        cases e with
        | slice t o => exact (s.loadSlice_leaves c k t o).mono (by rintro u (rfl | rfl) <;> rfl)
        | hub o => rfl
        | hbm o => exact s.loadHbm_leaves_mem c o cached
        | table o | page o | msg o | reg o => cases he

/-- An atomic reads its lane from the state as it is, but for the free values drawn. -/
theorem State.extRead_uncached {n : Nat} {e : ExtAt} (hext : extAt c k a = some (n, e))
    (he : e.inMemory = true) : (s.extRead c k a false).Leaves (fun u => u = s ∨ u = s.drawn) := by
  unfold State.extRead
  split
  · trivial
  · split
    · trivial
    · split
      · trivial
      · rw [hext]
        cases e with
        | slice t o => exact s.loadSlice_leaves c k t o
        | hub o => exact .inl rfl
        | hbm o => exact s.loadHbm_uncached c o
        | table o | page o | msg o | reg o => cases he

@[simp] theorem State.hold_mem (s : State) (c : CoreId) (key v : Nat) : (s.hold c key v).mem = s.mem := rfl

theorem State.byte_storeSlice_other {t v : Nat} (h : ¬(ExtAt.slice t o).covers s x) :
    (s.storeSlice c t o v).mem.byte x = s.mem.byte x := by
  unfold State.storeSlice
  split
  · rfl
  · simp only [ExtAt.covers] at h
    exact Memory.byte_write_other _ _ _ _ (by rw [length_leBytes]; omega)

theorem State.byte_storeHbm_other {v : Nat} (hinv : s.Inv) (hc : ∀ t, c = .tile t → t < 2 ^ 20)
    (h : ¬(ExtAt.hbm o).covers s x) : (s.storeHbm c o v).mem.byte x = s.mem.byte x := by
  obtain ⟨u, hmem, hmap, hstore⟩ : ∃ u : State, u.mem = s.mem ∧ SameMap s u ∧ s.storeHbm c o v =
      if u.cowHeld o 4 || !(u.core c).heldStores.isEmpty then u.hold c (kHbm o) v else u.writeHbm o (leBytes 4 v) := by
    cases c with
    | tile t => exact ⟨_, State.uncache_mem _ _ _ _, sameMap_uncache hinv (hc t rfl), rfl⟩
    | hub n => exact ⟨_, rfl, sameMap_of_regs_eq rfl, rfl⟩
  rw [hstore]
  split
  · rw [State.hold_mem, hmem]
  · rw [State.byte_writeHbm_other fun j hj => ?_, hmem]
    rw [length_leBytes] at hj
    rw [State.hbmKey_congr hmap]
    exact fun hx => h ⟨j, hj, hx⟩

/-- A store to a lane in memory changes no byte outside the lane. -/
theorem State.extStore_leaves_byte {n v : Nat} {e : ExtAt} {more : Bool} (hext : extAt c k a = some (n, e))
    (he : e.inMemory = true) (hinv : ∀ o, e = .hbm o → s.Inv) (hc : ∀ t, c = .tile t → t < 2 ^ 20) (hx : ¬e.covers s x) :
    (s.extStore c k a v more).Leaves (fun u => u.mem.byte x = s.mem.byte x) := by
  unfold State.extStore
  split
  · trivial
  · split
    · trivial
    · split
      · trivial
      · rw [hext]
        cases e with
        | slice t o => exact State.byte_storeSlice_other hx
        | hub o =>
          simp only [ExtAt.covers] at hx
          exact State.byte_writeHub_other (by rw [length_leBytes]; omega)
        | hbm o => exact State.byte_storeHbm_other (hinv o rfl) hc hx
        | table o | page o | msg o | reg o => cases he

/-! ### The instructions -/

/-- What holds of the memory at the start, and of what the access leaves where it is done, holds after an instruction with
one access. -/
theorem State.runWith_extRun_mem {P : Memory → Prop} {body : State → Core → State × CRes} {op : Option LaneOp}
    {acc : State → Core → ExtRes} {done : Core → Nat → Core} (h : Ready s c long)
    (hbody : body s (s.begun c) = extRun c a op acc done s (s.begun c)) (h0 : P s.mem)
    (hacc : (acc (s.setCore c (s.begun c)) (s.begun c)).Leaves (fun u => P u.mem)) :
    P (s.runWith c long false body).mem := by
  rw [State.runWith_of_ready h, State.retire_mem]
  show P (body s (s.begun c)).1.mem
  rw [hbody]
  unfold extRun
  split
  · next u v hu =>
    rw [hu] at hacc
    dsimp only
    split
    · unfold State.stall
      split <;> exact hacc
    · exact hacc
  · exact h0
  · exact h0

theorem ready_tile_lt (h : Ready s c long) (t : Nat) (hc : c = .tile t) : t < 2 ^ 20 := by
  obtain ⟨hruns, -, -, -⟩ := h
  subst hc
  simp only [State.coreRuns, State.tileUp, Bool.and_eq_true, decide_eq_true_eq] at hruns
  omega

/-- A core that was set reads as it was set, unless it is the core that an unlisted key holds. -/
theorem State.core_setCore_of_ne (h : k ≠ {}) : (s.setCore c k).core c = k := by
  simp only [State.core, State.setCore, Cells.set, h, if_false, Cells.getD, Cells.get?_put_self, Option.getD_some]

/-- An atomic finds its lane at the same place after its read: the core that it set is read back, unless it holds 0 in every
register, and then the lane is at address 0. -/
theorem extAt_setCore (r : Nat) : extAt c ((s.setCore c k).core c) (k.get r).toNat = extAt c k (k.get r).toNat := by
  by_cases h : k = {}
  · have hzero : (k.get r).toNat = 0 := by rw [h]; rfl
    rw [hzero]
    simp only [extAt, Nat.reduceLT, if_true]
  · rw [State.core_setCore_of_ne h]

/-- A lane load leaves the memory as it is. -/
theorem laneLoad_mem {n rd rs : Nat} {e : ExtAt} {off : LaneOff} {f : Nat → Nat} (h : Ready s c off.isLong)
    (hext : extAt c (s.begun c) (laneAddr (s.begun c) rs off) = some (n, e)) (he : e.inMemory = true) :
    (laneLoad c rd rs off f s).mem = s.mem :=
  State.runWith_extRun_mem (P := fun m => m = s.mem) h rfl rfl (State.extRead_leaves_mem hext he)

/-- What a place covers, the core that is set does not move. -/
theorem ExtAt.covers_setCore (e : ExtAt) (x : Nat) : e.covers (s.setCore c k) x ↔ e.covers s x := by
  cases e <;> simp only [ExtAt.covers, State.hbmKey_congr (s := s) (u := s.setCore c k) (sameMap_of_regs_eq rfl)]

/-- An instruction that stores to one lane changes no byte outside it. -/
theorem storeRun_byte {n : Nat} {v : Core → Nat} {e : ExtAt} {body : State → Core → State × CRes} {done : Core → Nat → Core}
    (h : Ready s c long) (hbody : body s (s.begun c) = extRun c a none (fun s k => s.extStore c k a (v k) false) done s (s.begun c))
    (hext : extAt c (s.begun c) a = some (n, e)) (he : e.inMemory = true) (hinv : ∀ o, e = .hbm o → s.Inv)
    (hx : ¬e.covers s x) : (s.runWith c long false body).mem.byte x = s.mem.byte x :=
  State.runWith_extRun_mem (P := fun m => m.byte x = s.mem.byte x) h hbody rfl
    (State.extStore_leaves_byte (s := s.setCore c (s.begun c)) hext he hinv (ready_tile_lt h)
      (by rwa [ExtAt.covers_setCore]))

/-! ### Atomics -/

/-- What an atomic does once its lane has been read in state `s`, which the read has left as `s1` (R163, R171). -/
def State.atomicWrite (s : State) (c : CoreId) (k : Core) (a : Nat) (op : LaneOp) (s1 : State) (old : Nat) : ExtRes :=
  match op.new old with
  | none => if s.extBad c k a true then .fail 5 else .ok s1 old
  | some v =>
    match s1.extStore c (s1.core c) a v false with
    | .ok s2 _ => .ok s2 old
    | r => r

/-- The access of an atomic (R163, R171, R202). -/
def State.atomicAccess (c : CoreId) (a : Nat) (op : Core → LaneOp) (s : State) (k : Core) : ExtRes :=
  if a % 4 ≠ 0 then .fail 2
  else if !extAtomic c k a then .fail 5
  else if s.atomicWaits c k a then .wait []
  else match s.extRead c k a false with
  | .ok s1 old =>
    if k.waitOp = some (op k) ∧ ((sliceLane c k a).bind k.servedLane).isSome then .ok s1 old
    else s.atomicWrite c k a (op k) s1 old
  | r => r

theorem atomicOp_eq (c : CoreId) (rd rs : Nat) (op : Core → LaneOp) (s : State) :
    atomicOp c rd rs op s = s.runWith c true false (fun s k => extRun c (k.get rs).toNat (some (op k))
      (State.atomicAccess c (k.get rs).toNat op) (fun k v => k.set rd (BitVec.ofNat 36 v)) s k) := rfl

/-- The write of an atomic changes no byte outside its lane. -/
theorem State.atomicWrite_leaves_byte {n old : Nat} {e : ExtAt} {op : LaneOp} (hs : u = s ∨ u = s.drawn)
    (hext : extAt c (u.core c) a = some (n, e)) (he : e.inMemory = true) (hinv : ∀ o, e = .hbm o → s.Inv)
    (hc : ∀ t, c = .tile t → t < 2 ^ 20) (hx : ¬e.covers s x) :
    (s.atomicWrite c k a op u old).Leaves (fun t => t.mem.byte x = s.mem.byte x) := by
  have hmem : u.mem = s.mem := by rcases hs with rfl | rfl <;> rfl
  have hregs : u.regs = s.regs := by rcases hs with rfl | rfl <;> rfl
  have hinv' : ∀ o, e = .hbm o → u.Inv := fun o ho => by
    simpa only [State.Inv, hmem, hregs] using hinv o ho
  have hx' : ¬e.covers u x := by
    cases e <;> simpa only [ExtAt.covers, State.hbmKey_congr (sameMap_of_regs_eq hregs)] using hx
  unfold State.atomicWrite
  split
  · split
    · trivial
    · exact congrArg (Memory.byte · x) hmem
  · next v _ =>
    have hstore := State.extStore_leaves_byte (v := v) (more := false) hext he hinv' hc hx'
    rw [hmem] at hstore
    split
    · next hs2 => rwa [hs2] at hstore
    · exact hstore

/-- The access of an atomic changes no byte outside its lane. -/
theorem State.atomicAccess_leaves_byte {n r : Nat} {e : ExtAt} {op : Core → LaneOp}
    (hext : extAt c k (k.get r).toNat = some (n, e)) (he : e.inMemory = true) (hinv : ∀ o, e = .hbm o → s.Inv)
    (hc : ∀ t, c = .tile t → t < 2 ^ 20) (hx : ¬e.covers s x) :
    ((s.setCore c k).atomicAccess c (k.get r).toNat op k).Leaves (fun t => t.mem.byte x = s.mem.byte x) := by
  have hread := State.extRead_uncached (s := s.setCore c k) hext he
  unfold State.atomicAccess
  split
  · trivial
  · split
    · trivial
    · split
      · trivial
      · split
        · next s1 old hs1 =>
          rw [hs1] at hread
          have hcore : s1.core c = (s.setCore c k).core c := by rcases hread with rfl | rfl <;> rfl
          split
          · rcases hread with rfl | rfl <;> rfl
          · exact State.atomicWrite_leaves_byte (s := s.setCore c k) hread (by rw [hcore, extAt_setCore, hext]) he hinv hc
              (by rwa [ExtAt.covers_setCore])
        · exact hread.mono (by rintro u (rfl | rfl) <;> rfl)

/-- An atomic changes no byte outside its lane. -/
theorem atomicOp_byte {n rd rs : Nat} {e : ExtAt} {op : Core → LaneOp} (h : Ready s c true)
    (hext : extAt c (s.begun c) ((s.begun c).get rs).toNat = some (n, e)) (he : e.inMemory = true)
    (hinv : ∀ o, e = .hbm o → s.Inv) (hx : ¬e.covers s x) :
    (atomicOp c rd rs op s).mem.byte x = s.mem.byte x :=
  State.runWith_extRun_mem (P := fun m => m.byte x = s.mem.byte x) h rfl rfl
    (State.atomicAccess_leaves_byte hext he hinv (ready_tile_lt h) hx)

/-! ### The statement -/

/-- Instruction i of core c loads its lane at byte address a. -/
def LoadsLane (i : Instr) (s : State) (c : CoreId) (l : Bool) (a : Nat) : Prop :=
  ∃ rd rs off f, a = laneAddr (s.begun c) rs off ∧ l = off.isLong ∧ exec i s = .next (laneLoad c rd rs off f s)

/-- Instruction i of core c stores to its lane at byte address a. -/
def StoresLane (i : Instr) (s : State) (c : CoreId) (l : Bool) (a : Nat) : Prop :=
  ∃ (body : State → Core → State × CRes) (done : Core → Nat → Core) (v : Core → Nat), exec i s = .next (s.runWith c l false body) ∧
    body s (s.begun c) = extRun c a none (fun s k => s.extStore c k a (v k) false) done s (s.begun c)

/-- Instruction i of core c does an atomic in its lane at byte address a. -/
def AtomicLane (i : Instr) (s : State) (c : CoreId) (l : Bool) (a : Nat) : Prop :=
  ∃ rd rs op, a = ((s.begun c).get rs).toNat ∧ l = true ∧ exec i s = .next (atomicOp c rd rs op s)

/-- What an instruction with one access in memory leaves outside its lane. -/
theorem byte_of_access {i : Instr} {t : State} {n : Nat} {e : ExtAt} (h : Ready s c long) (hexec : exec i s = .next t)
    (hext : extAt c (s.begun c) a = some (n, e)) (he : e.inMemory = true) (hinv : ∀ o, e = .hbm o → s.Inv)
    (haccess : LoadsLane i s c long a ∨ (StoresLane i s c long a ∨ AtomicLane i s c long a) ∧ ¬e.covers s x) :
    t.mem.byte x = s.mem.byte x := by
  rcases haccess with ⟨rd, rs, off, f, rfl, rfl, hrun⟩ | ⟨⟨body, done, v, hrun, hbody⟩ | ⟨rd, rs, op, rfl, rfl, hrun⟩, hx⟩ <;>
    obtain rfl := Host.Outcome.next.inj (hrun.symm.trans hexec)
  · rw [laneLoad_mem h hext he]
  · exact storeRun_byte h hbody hext he hinv hx
  · exact atomicOp_byte h hext he hinv hx

theorem loadsLane_ldl (s : State) (c : CoreId) (rd rs : Nat) (o : LaneOff) :
    LoadsLane (.ldl c rd rs o) s c o.isLong (laneAddr (s.begun c) rs o) := ⟨rd, rs, o, _, rfl, rfl, rfl⟩

theorem loadsLane_ldls (s : State) (c : CoreId) (rd rs : Nat) (o : LaneOff) :
    LoadsLane (.ldls c rd rs o) s c o.isLong (laneAddr (s.begun c) rs o) := ⟨rd, rs, o, _, rfl, rfl, rfl⟩

theorem loadsLane_ldf (s : State) (c : CoreId) (rd rs imm : Nat) :
    LoadsLane (.ldf c rd rs imm) s c true (laneAddr (s.begun c) rs (.long imm)) := ⟨rd, rs, .long imm, _, rfl, rfl, rfl⟩

theorem storesLane_stl (s : State) (c : CoreId) (rd rs : Nat) (o : LaneOff) :
    StoresLane (.stl c rd rs o) s c o.isLong (laneAddr (s.begun c) rs o) := ⟨_, _, _, rfl, rfl⟩

theorem storesLane_stf (s : State) (c : CoreId) (rd rs imm : Nat) :
    StoresLane (.stf c rd rs imm) s c true (laneAddr (s.begun c) rs (.long imm)) := ⟨_, _, _, rfl, rfl⟩

theorem atomicLane_atadd (s : State) (c : CoreId) (rd rs rt : Nat) :
    AtomicLane (.atadd c rd rs rt) s c true ((s.begun c).get rs).toNat := ⟨rd, rs, _, rfl, rfl, rfl⟩

theorem atomicLane_atswap (s : State) (c : CoreId) (rd rs rt : Nat) :
    AtomicLane (.atswap c rd rs rt) s c true ((s.begun c).get rs).toNat := ⟨rd, rs, _, rfl, rfl, rfl⟩

theorem atomicLane_atcas (s : State) (c : CoreId) (rd rs rt ru : Nat) :
    AtomicLane (.atcas c rd rs rt ru) s c true ((s.begun c).get rs).toNat := ⟨rd, rs, _, rfl, rfl, rfl⟩

/-- The loads load, and the stores and atomics, which are no loads, store and act, each in the lane that its operands name. -/
theorem access_of_operands {i : Instr} {rd rs rt ru imm : Nat} {o : LaneOff} (hohm : ohmOf i = some (c, long))
    (h : (i ∈ [Instr.ldl c rd rs o, .ldls c rd rs o, .stl c rd rs o] ∧ a = laneAddr (s.begun c) rs o) ∨
      (i ∈ [Instr.ldf c rd rs imm, .stf c rd rs imm] ∧ a = laneAddr (s.begun c) rs (.long imm)) ∨
      (i ∈ [Instr.atadd c rd rs rt, .atswap c rd rs rt, .atcas c rd rs rt ru] ∧ a = ((s.begun c).get rs).toNat)) :
    LoadsLane i s c long a ∨ (StoresLane i s c long a ∨ AtomicLane i s c long a) ∧
      i ∉ [Instr.ldl c rd rs o, .ldls c rd rs o, .ldf c rd rs imm] := by
  simp only [List.mem_cons, List.not_mem_nil, or_false] at h ⊢
  rcases h with ⟨rfl | rfl | rfl, rfl⟩ | ⟨rfl | rfl, rfl⟩ | ⟨rfl | rfl | rfl, rfl⟩ <;> cases hohm
  · exact .inl (loadsLane_ldl _ _ _ _ _)
  · exact .inl (loadsLane_ldls _ _ _ _ _)
  · exact .inr ⟨.inl (storesLane_stl _ _ _ _ _), nofun⟩
  · exact .inl (loadsLane_ldf _ _ _ _ _)
  · exact .inr ⟨.inl (storesLane_stf _ _ _ _ _), nofun⟩
  · exact .inr ⟨.inr (atomicLane_atadd _ _ _ _ _), nofun⟩
  · exact .inr ⟨.inr (atomicLane_atswap _ _ _ _ _), nofun⟩
  · exact .inr ⟨.inr (atomicLane_atcas _ _ _ _ _ _), nofun⟩

end

theorem ohmLaneFrame : Clauses.OhmLaneFrame := by
  intro i s t c l rd rs rt ru imm o x hohm hready hexec k short long load lane atom at_
  have hframe : ∀ a n e, at_ a n e → e.inMemory = true → (∀ o, e = .hbm o → s.Inv) → load ∨ ¬e.covers s x →
      t.mem.byte x = s.mem.byte x := by
    rintro a n e ⟨hext, hplace⟩ he hinv hx
    have hkind := access_of_operands (s := s) (a := a) (rd := rd) (rs := rs) (rt := rt) (ru := ru) (imm := imm) (o := o) hohm
      (hplace.imp_left fun ⟨hi, hoff⟩ => ⟨hi, hoff.elim (fun ⟨_, ho, ha⟩ => ho ▸ ha) (fun ⟨_, ho, ha⟩ => ho ▸ ha)⟩)
    exact byte_of_access hready hexec hext he hinv (hkind.imp_right fun ⟨hk, hno⟩ => ⟨hk, hx.resolve_left hno⟩)
  refine ⟨fun a n u o hat hx => ?_, fun a n o hat hx => ?_, fun hinv a n o hat hx => ?_⟩
  · exact hframe _ _ _ hat rfl nofun (hx.imp_right fun h => by simp only [ExtAt.covers]; omega)
  · exact hframe _ _ _ hat rfl nofun (hx.imp_right fun h => by simp only [ExtAt.covers]; omega)
  · exact hframe _ _ _ hat rfl (fun _ _ => hinv)
      (hx.imp_right fun h => by simpa only [ExtAt.covers, not_exists, not_and] using h)

/-- Settles O11: an instruction without external accesses changes its core alone, and one with an access writes where its
lane lies. -/
theorem ohmFrames : Obligations.OhmFrames := ⟨ohmCoreFrame, ohmLaneFrame⟩

end Sys2Proof.Machine
end

section

/-!
## Integer instructions, branches, and what comes before any instruction

Each instruction is a body that the frame runs, so that a statement about one is an equation between its body and what the
statement names: of words, where the model shifts, compares or divides bit vectors and the statement speaks of numbers.
-/

namespace Sys2Proof.Machine

section
variable {s : State} {c : CoreId} {long resume : Bool} {body : State → Core → State × CRes}

/-! ### What comes before the body -/

theorem State.runWith_of_stopped (h : s.coreRuns c = false) : s.runWith c long resume body = s := by
  simp [State.runWith, h]

theorem State.runWith_of_interrupt {n : Nat} (hruns : s.coreRuns c = true) (hint : (s.core c).interrupt = some n) :
    s.runWith c long resume body = s.setCore c ((s.core c).takeInterrupt n (s.rg Rg.beat_BEATNO)) := by
  simp [State.runWith, hruns, hint]

theorem State.runWith_of_waiting (hruns : s.coreRuns c = true) (hint : (s.core c).interrupt = none)
    (hwait : (s.core c).waiting = true) (hnone : (s.core c).enabledSource = none) : s.runWith c long resume body = s := by
  simp [State.runWith, hruns, hint, hwait, hnone]

theorem State.runWith_of_fetchBad (hruns : s.coreRuns c = true) (hint : (s.core c).interrupt = none)
    (hwait : ((s.core c).waiting && (s.core c).enabledSource.isNone) = false) (hfetch : (s.core c).fetchBad long = true) :
    s.runWith c long resume body = s.trap c (s.awake c) 3 long ((s.core c).pc.setWidth 36) := by
  simp [State.runWith, State.awake, hruns, hint, hwait, hfetch]

end

/-- Settles O1: every instruction runs in the same frame, and the frame has these four ways to end before the body. -/
theorem ohmBoundary : Obligations.OhmBoundary := by
  unfold Obligations.OhmBoundary
  intro i s c long h
  obtain ⟨resume, body, hrun⟩ := exec_eq_runWith h s
  rw [hrun]
  exact ⟨fun hruns => congrArg _ (State.runWith_of_stopped hruns),
    fun hruns _ hint => congrArg _ (State.runWith_of_interrupt hruns hint),
    fun hruns hint hwait hnone => congrArg _ (State.runWith_of_waiting hruns hint hwait hnone),
    fun hruns hint hwait hfetch => congrArg _ (State.runWith_of_fetchBad hruns hint hwait hfetch)⟩

/-! ### Words and numbers -/

section
variable (a b : Word36) (n : Nat)

theorem shl_eq_ofNat : a <<< n = BitVec.ofNat 36 (a.toNat * 2 ^ n) := by
  apply BitVec.eq_of_toNat_eq
  simp [Nat.shiftLeft_eq]

theorem shr_eq_ofNat : a >>> n = BitVec.ofNat 36 (a.toNat / 2 ^ n) := by
  apply BitVec.eq_of_toNat_eq
  simp only [BitVec.toNat_ushiftRight, Nat.shiftRight_eq_div_pow, BitVec.toNat_ofNat]
  exact (Nat.mod_eq_of_lt ((Nat.div_le_self _ _).trans_lt a.isLt)).symm

theorem sar_eq_ofInt : a.sshiftRight n = BitVec.ofInt 36 (a.toInt / 2 ^ n) := by
  rw [BitVec.sshiftRight, Int.shiftRight_eq_div_pow]
  norm_cast

theorem flagWord_slt : flagWord (a.slt b) = if a.toInt < b.toInt then 1 else 0 := by
  simp [flagWord, BitVec.slt]

theorem flagWord_ult : flagWord (a.ult b) = if a.toNat < b.toNat then 1 else 0 := by
  simp [flagWord, BitVec.ult]

theorem slt_select : (if a.slt b then a else b) = BitVec.ofInt 36 (min a.toInt b.toInt) ∧
    (if a.slt b then b else a) = BitVec.ofInt 36 (max a.toInt b.toInt) := by
  by_cases h : a.toInt < b.toInt
  · simp [BitVec.slt, h, min_eq_left h.le, max_eq_right h.le]
  · simp [BitVec.slt, h, min_eq_right (Int.not_lt.mp h), max_eq_left (Int.not_lt.mp h)]

theorem ult_select : (if a.ult b then a else b) = BitVec.ofNat 36 (min a.toNat b.toNat) ∧
    (if a.ult b then b else a) = BitVec.ofNat 36 (max a.toNat b.toNat) := by
  by_cases h : a.toNat < b.toNat
  · simp [BitVec.ult, h, min_eq_left h.le, max_eq_right h.le]
  · simp [BitVec.ult, h, min_eq_right (Nat.not_lt.mp h), max_eq_left (Nat.not_lt.mp h)]

theorem mul_eq_ofNat : a * b = BitVec.ofNat 36 (a.toNat * b.toNat) := by
  apply BitVec.eq_of_toNat_eq
  simp

theorem mul_add_eq_ofNat (d : Word36) : a * b + d = BitVec.ofNat 36 (a.toNat * b.toNat + d.toNat) := by
  apply BitVec.eq_of_toNat_eq
  simp

theorem sdiv_eq_ofInt : a.sdiv b = BitVec.ofInt 36 (a.toInt.tdiv b.toInt) := by
  apply BitVec.eq_of_toInt_eq
  rw [BitVec.toInt_sdiv, BitVec.toInt_ofInt]

theorem srem_eq_ofInt : a.srem b = BitVec.ofInt 36 (a.toInt.tmod b.toInt) := by
  rw [← BitVec.toInt_srem, BitVec.ofInt_toInt]

theorem divu_eq_ofNat : a / b = BitVec.ofNat 36 (a.toNat / b.toNat) := by
  rw [← BitVec.toNat_udiv, BitVec.ofNat_toNat, BitVec.setWidth_eq]

theorem remu_eq_ofNat : a % b = BitVec.ofNat 36 (a.toNat % b.toNat) := by
  rw [← BitVec.toNat_umod, BitVec.ofNat_toNat, BitVec.setWidth_eq]

theorem eq_minW_iff : a = minW ↔ a.toInt = -(2 ^ 35) :=
  ⟨fun h => by rw [h]; rfl, fun h => BitVec.eq_of_toInt_eq (h.trans (by rfl))⟩

theorem eq_allOnes_iff : a = BitVec.allOnes 36 ↔ a.toInt = -1 :=
  ⟨fun h => by rw [h]; rfl, fun h => BitVec.eq_of_toInt_eq (h.trans (by rfl))⟩

theorem popCount_eq_countP (n v : Nat) : popCount n v = (List.range n).countP v.testBit := by
  induction n generalizing v with
  | zero => rfl
  | succ n ih =>
    rw [List.range_succ_eq_map, List.countP_cons, List.countP_map, popCount, ih, Nat.add_comm]
    congr 1
    · congr 1
      funext i
      simp [Nat.testBit_succ]
    · rw [Nat.testBit_zero]
      rcases Nat.mod_two_eq_zero_or_one v with h | h <;> simp [h]

theorem clzW_bounds : (clzW a).toNat ≤ 36 ∧ a.toNat < 2 ^ (36 - (clzW a).toNat) ∧
    ((clzW a).toNat < 36 → 2 ^ (35 - (clzW a).toNat) ≤ a.toNat) := by
  by_cases h : a = 0
  · subst h
    decide
  · have hne : a.toNat ≠ 0 := fun h0 => h (BitVec.eq_of_toNat_eq h0)
    have hlog : a.toNat.log2 < 36 := (Nat.log2_lt hne).mpr a.isLt
    have hz : (clzW a).toNat = 35 - a.toNat.log2 := by
      rw [clzW, if_neg h, BitVec.toNat_ofNat]
      omega
    rw [hz, show 36 - (35 - a.toNat.log2) = a.toNat.log2 + 1 by omega, show 35 - (35 - a.toNat.log2) = a.toNat.log2 by omega]
    exact ⟨by omega, Nat.lt_log2_self, fun _ => Nat.log2_self_le hne⟩

end

/-! ### Instructions on registers -/

/-- An instruction of two operands sets its destination to the operation's word, however that is written. -/
theorem sets_of_alu2 {s : State} {c : CoreId} {long : Bool} {i : Instr} {rd rs rt : Nat} {f : Word36 → Word36 → Word36}
    {v : Word36} (h : Ready s c long) (hexec : exec i s = .next (s.runCore c long (alu2 rd rs rt f)))
    (hv : f ((s.begun c).get rs) ((s.begun c).get rt) = v) : Sets i s c long rd v :=
  sets_of_body h hexec (hv ▸ rfl)

/-- The same for one operand. -/
theorem sets_of_alu1 {s : State} {c : CoreId} {long : Bool} {i : Instr} {rd rs : Nat} {f : Word36 → Word36}
    {v : Word36} (h : Ready s c long) (hexec : exec i s = .next (s.runCore c long (alu1 rd rs f)))
    (hv : f ((s.begun c).get rs) = v) : Sets i s c long rd v :=
  sets_of_body h hexec (hv ▸ rfl)

theorem ohmSumLogicMove : Clauses.OhmSumLogicMove := by
  intro s c l rd rs rt h k
  refine ⟨sets_of_body h rfl rfl, sets_of_body h rfl rfl, sets_of_body h rfl rfl, sets_of_body h rfl rfl,
    sets_of_body h rfl rfl, ?_⟩
  rintro rfl
  exact ⟨sets_of_body h rfl rfl, sets_of_alu1 h rfl (BitVec.zero_sub _).symm, sets_of_body h rfl rfl,
    exec_of_body (r := .done k) h rfl rfl, fun hnone => exec_of_body (r := .done k) h rfl (if_pos (List.isEmpty_iff.mpr hnone)),
    fun hsome => exec_of_body (r := .stay k) h rfl (if_neg fun he => hsome (List.isEmpty_iff.mp he))⟩

theorem ohmShiftCompare : Clauses.OhmShiftCompare := by
  intro s c l rd rs rt h k
  refine ⟨sets_of_alu2 h rfl (shl_eq_ofNat _ _), sets_of_alu2 h rfl (shr_eq_ofNat _ _), sets_of_alu2 h rfl (sar_eq_ofInt _ _),
    sets_of_alu2 h rfl (flagWord_slt _ _), sets_of_alu2 h rfl (flagWord_ult _ _), sets_of_alu2 h rfl (slt_select _ _).1,
    sets_of_alu2 h rfl (slt_select _ _).2, ?_⟩
  rintro rfl
  exact ⟨sets_of_alu2 h rfl (ult_select _ _).1, sets_of_alu2 h rfl (ult_select _ _).2⟩

/-- A division that does not fail sets its destination and no flag. -/
theorem sets_of_aluQ {s : State} {c : CoreId} {long : Bool} {i : Instr} {rd rs rt : Nat} {f : Word36 → Word36 → Word36}
    {q : Word36 → Word36 → Bool} {v : Word36} (h : Ready s c long)
    (hexec : exec i s = .next (s.runCore c long (aluQ rd rs rt f q)))
    (hq : q ((s.begun c).get rs) ((s.begun c).get rt) = false) (hv : f ((s.begun c).get rs) ((s.begun c).get rt) = v) :
    Sets i s c long rd v :=
  sets_of_body h hexec (by simp only [aluQ, hq, hv, Bool.false_eq_true, if_false])

/-- A division that fails sets its destination and IQF (R174). -/
theorem exec_of_aluQ {s : State} {c : CoreId} {long : Bool} {i : Instr} {rd rs rt : Nat} {f : Word36 → Word36 → Word36}
    {q : Word36 → Word36 → Bool} {v : Word36} (h : Ready s c long)
    (hexec : exec i s = .next (s.runCore c long (aluQ rd rs rt f q)))
    (hq : q ((s.begun c).get rs) ((s.begun c).get rt) = true) (hv : f ((s.begun c).get rs) ((s.begun c).get rt) = v) :
    exec i s = .next (s.retired c long (((s.begun c).set rd v).cwSet 0x200)) :=
  exec_of_body (r := .done (((s.begun c).set rd v).cwSet 0x200)) h hexec (by simp only [aluQ, hq, hv, if_true]; rfl)

theorem ohmMulDivCount : Clauses.OhmMulDivCount := by
  intro s c l rd rs rt ru h k a b ovfl
  have hovfl : (a = minW ∧ b = BitVec.allOnes 36) ↔ ovfl := and_congr (eq_minW_iff a) (eq_allOnes_iff b)
  refine ⟨sets_of_alu2 h rfl (mul_eq_ofNat _ _), ?_⟩
  rintro rfl
  refine ⟨sets_of_body h rfl (by rw [mul_add_eq_ofNat]), sets_of_alu2 h rfl rfl, sets_of_alu2 h rfl rfl, fun hb ho => ?_,
    fun hb => ?_, fun ho => ?_, fun hb => ?_, ?_, ?_⟩
  · have hno := hovfl.not.mpr ho
    have hq : divBad a b = false := by
      rw [divBad, beq_false_of_ne hb, Bool.false_or, Bool.and_eq_false_iff, beq_eq_false_iff_ne, beq_eq_false_iff_ne]
      exact not_and_or.mp hno
    exact ⟨sets_of_aluQ h rfl hq (by rw [divW, if_neg hb, if_neg hno, sdiv_eq_ofInt]),
      sets_of_aluQ h rfl hq (by rw [remW, hq, if_neg Bool.false_ne_true, srem_eq_ofInt])⟩
  · have hq : (b == 0) = false := beq_false_of_ne hb
    exact ⟨sets_of_aluQ h rfl hq (by rw [divuW, if_neg hb, divu_eq_ofNat]),
      sets_of_aluQ h rfl hq (by rw [remuW, if_neg hb, remu_eq_ofNat])⟩
  · have hab := hovfl.mpr ho
    have hq : divBad a b = true := by simp [divBad, hab]
    have hb : b ≠ 0 := by rw [hab.2]; decide
    exact ⟨exec_of_aluQ h rfl hq (by rw [divW, if_neg hb, if_pos hab]; rfl), exec_of_aluQ h rfl hq (by rw [remW, hq, if_pos rfl])⟩
  · have hq : divBad a b = true := by simp [divBad, hb]
    have hz : (b == 0) = true := by rw [hb]; rfl
    simp only [List.mem_cons, List.not_mem_nil, or_false]
    rintro i (rfl | rfl | rfl | rfl)
    · exact exec_of_aluQ h rfl hq (by rw [divW, if_pos hb])
    · exact exec_of_aluQ h rfl hz (by rw [divuW, if_pos hb])
    · exact exec_of_aluQ h rfl hq (by rw [remW, hq, if_pos rfl])
    · exact exec_of_aluQ h rfl hz (by rw [remuW, if_pos hb])
  · exact sets_of_alu1 h rfl (by rw [popcW, popCount_eq_countP]; rfl)
  · exact ⟨clzW a, sets_of_alu1 h rfl rfl, clzW_bounds a⟩

/-- Settles O2: the three parts above. -/
theorem ohmRegisterInstructions : Obligations.OhmRegisterInstructions := ⟨ohmSumLogicMove, ohmShiftCompare, ohmMulDivCount⟩

/-! ### Immediate forms -/

theorem immZ_amount {imm : Nat} (h : imm < 64) : (immZ imm).toNat % 64 = imm := by
  rw [immZ, BitVec.toNat_ofNat]
  omega

theorem immZ_shl (imm : Nat) : immZ imm <<< 15 = BitVec.ofNat 36 (imm * 2 ^ 15) := by
  apply BitVec.eq_of_toNat_eq
  rw [shl_eq_ofNat, immZ]
  simp only [BitVec.toNat_ofNat]
  omega

theorem pc_add_immS (pc : BitVec 19) (n imm : Nat) :
    pc.setWidth 36 + immS n imm = BitVec.ofInt 36 (pc.toNat + sext n imm) := by
  rw [immS, BitVec.ofInt_add, BitVec.ofInt_natCast, BitVec.ofNat_toNat]

/-- Settles O3: each form is an operation on a register and the word of its immediate. -/
theorem ohmImmediate : Obligations.OhmImmediate := by
  unfold Obligations.OhmImmediate
  intro s c l rd rs imm h k a
  refine ⟨sets_of_alu1 h rfl rfl, sets_of_body h rfl rfl, sets_of_alu1 h rfl rfl, sets_of_alu1 h rfl rfl,
    sets_of_alu1 h rfl (flagWord_slt _ _), fun hlt => ?_, ?_⟩
  · have hamount := immZ_amount hlt
    exact ⟨sets_of_alu1 h rfl (by rw [shlW, hamount, shl_eq_ofNat]), sets_of_alu1 h rfl (by rw [shrW, hamount, shr_eq_ofNat]),
      sets_of_alu1 h rfl (by rw [sarW, hamount, sar_eq_ofInt])⟩
  · rintro rfl
    exact ⟨sets_of_alu1 h rfl rfl, sets_of_alu1 h rfl (flagWord_ult _ _), sets_of_body h rfl (by rw [immZ_shl]),
      sets_of_body h rfl (by rw [pc_add_immS]), exec_of_body (r := .done _) h rfl rfl⟩

/-! ### Loads, stores and the stack -/

section
variable {s : State} {c : CoreId} {l : Bool} {i : Instr} {body : Core → CRes} {x v : Word36} {rd : Nat}

/-- A load of a permitted word sets rd, and any other takes PMEM_ACCESS (R159, R199). -/
theorem exec_of_pmLoad (h : Ready s c l) (hexec : exec i s = .next (s.runCore c l body))
    (hbody : body (s.begun c) = pmLoad c rd x (s.begun c)) :
    ((s.begun c).pmOk x 18 = true → Sets i s c l rd ((s.begun c).pmRead c x.toNat)) ∧
      ((s.begun c).pmOk x 18 = false → exec i s = .next (s.trap c (s.begun c) 4 l x)) :=
  ⟨fun hok => sets_of_body h hexec (by rw [hbody, pmLoad, if_pos hok]),
    fun hno => exec_of_body (r := .trap _ 4 x) h hexec (by rw [hbody, pmLoad, hno, if_neg Bool.false_ne_true])⟩

/-- A store to a permitted word writes it, and any other takes PMEM_ACCESS (R159, R199). -/
theorem exec_of_pmStore (h : Ready s c l) (hexec : exec i s = .next (s.runCore c l body))
    (hbody : body (s.begun c) = pmStore x v (s.begun c)) :
    ((s.begun c).pmOk x 19 = true → exec i s = .next (s.retired c l ((s.begun c).pmWrite x.toNat v))) ∧
      ((s.begun c).pmOk x 19 = false → exec i s = .next (s.trap c (s.begun c) 4 l x)) :=
  ⟨fun hok => exec_of_body (r := .done _) h hexec (by rw [hbody, pmStore, if_pos hok]),
    fun hno => exec_of_body (r := .trap _ 4 x) h hexec (by rw [hbody, pmStore, hno, if_neg Bool.false_ne_true])⟩

/-- A push: the stack at its limit, a denied slot, or what follows the write of the slot (R177). -/
theorem exec_of_pushWord {next : Core → CRes} (h : Ready s c l) (hexec : exec i s = .next (s.runCore c l body))
    (hbody : body (s.begun c) = pushWord v (s.begun c) next) :
    ((s.begun c).sp.toNat ≤ (s.begun c).splim.toNat → exec i s = .next (s.trap c (s.begun c) 7 l (s.begun c).sp)) ∧
      ((s.begun c).splim.toNat < (s.begun c).sp.toNat → (s.begun c).pmOk ((s.begun c).sp - 1) 19 = false →
        exec i s = .next (s.trap c (s.begun c) 4 l ((s.begun c).sp - 1))) ∧
      ((s.begun c).splim.toNat < (s.begun c).sp.toNat → (s.begun c).pmOk ((s.begun c).sp - 1) 19 = true →
        exec i s = .next (s.retire c l
          (next ({ s.begun c with sp := (s.begun c).sp - 1 }.pmWrite ((s.begun c).sp - 1).toNat v)))) := by
  refine ⟨fun hlim => ?_, fun hlim hno => ?_, fun hlim hok => ?_⟩
  · exact exec_of_body (r := .trap _ 7 _) h hexec (by rw [hbody, pushWord, if_pos (by omega)])
  · exact exec_of_body (r := .trap _ 4 _) h hexec
      (by rw [hbody, pushWord, if_neg (by omega), hno, if_neg Bool.false_ne_true])
  · exact exec_of_body h hexec (by rw [hbody, pushWord, if_neg (by omega), if_pos hok])

/-- A pop: the stack at its top, a denied slot, or what follows the read of the slot (R177). -/
theorem exec_of_popWord {next : Core → Word36 → CRes} (h : Ready s c l) (hexec : exec i s = .next (s.runCore c l body))
    (hbody : body (s.begun c) = popWord c (s.begun c) next) :
    ((s.begun c).sptop.toNat ≤ (s.begun c).sp.toNat → exec i s = .next (s.trap c (s.begun c) 7 l (s.begun c).sp)) ∧
      ((s.begun c).sp.toNat < (s.begun c).sptop.toNat → (s.begun c).pmOk (s.begun c).sp 18 = false →
        exec i s = .next (s.trap c (s.begun c) 4 l (s.begun c).sp)) ∧
      ((s.begun c).sp.toNat < (s.begun c).sptop.toNat → (s.begun c).pmOk (s.begun c).sp 18 = true →
        exec i s = .next (s.retire c l
          (next { s.begun c with sp := (s.begun c).sp + 1 } ((s.begun c).pmRead c (s.begun c).sp.toNat)))) := by
  refine ⟨fun htop => ?_, fun htop hno => ?_, fun htop hok => ?_⟩
  · exact exec_of_body (r := .trap _ 7 _) h hexec (by rw [hbody, popWord, if_pos htop])
  · exact exec_of_body (r := .trap _ 4 _) h hexec
      (by rw [hbody, popWord, if_neg (by omega), hno, if_neg Bool.false_ne_true])
  · exact exec_of_body h hexec (by rw [hbody, popWord, if_neg (by omega), if_pos hok])

/-- The half that a branch, jump or call reaches. -/
theorem Core.target_eq (k : Core) (n imm : Nat) : k.target n imm = BitVec.ofInt 19 (k.pc.toNat + sext n imm) := rfl

/-- A branch goes to its target where its condition holds, and else past its halves (R172). -/
theorem exec_of_branch {n imm : Nat} {test : Core → Bool} {p : Prop} (h : Ready s c l)
    (hexec : exec i s = .next (s.runCore c l (branch (if l then 2 else 1) n imm test))) (hp : test (s.begun c) = true ↔ p) :
    (p → exec i s = .next (s.goes c (s.begun c) (BitVec.ofInt 19 ((s.begun c).pc.toNat + sext n imm)))) ∧
      (¬p → exec i s = .next (s.goes c (s.begun c) ((s.begun c).pc + (if l then 2 else 1)))) :=
  ⟨fun ht => exec_of_body (r := .jump _ _) h hexec (by rw [branch, if_pos (hp.mpr ht), Core.target_eq]),
    fun hf => exec_of_body (r := .jump _ _) h hexec (by rw [branch, if_neg (hp.not.mpr hf)])⟩

end

/-- Settles O4: loads, stores, pushes and pops each have their cases once, for every instruction that does one. -/
theorem ohmPrivateMemory : Obligations.OhmPrivateMemory := by
  unfold Obligations.OhmPrivateMemory
  intro s c l rd rs imm h k a b p load store push pop
  refine ⟨?_, ?_, ?_, ?_⟩
  · exact exec_of_pmLoad h rfl rfl
  · exact exec_of_pmStore h rfl rfl
  · rintro rfl
    exact ⟨exec_of_pmLoad h rfl rfl, exec_of_pmStore h rfl rfl, exec_of_pushWord (next := .done) h rfl rfl,
      exec_of_popWord (next := fun k v => .done (k.set rd v)) h rfl rfl,
      exec_of_pushWord (next := fun k' => .jump k' ((k.get rs).setWidth 19)) h rfl rfl,
      exec_of_popWord (next := fun k v => .jump k (v.setWidth 19)) h rfl rfl⟩
  · rintro rfl
    exact exec_of_pushWord (next := fun k' => .jump k' (k.target 21 imm)) h rfl rfl

theorem not_slt_iff (a b : Word36) : (!a.slt b) = true ↔ b.toInt ≤ a.toInt := by
  simp [BitVec.slt]

theorem not_ult_iff (a b : Word36) : (!a.ult b) = true ↔ b.toNat ≤ a.toNat := by
  simp [BitVec.ult]

/-- Settles O5: each branch by its condition; JR takes the low 19 bits of its source. -/
theorem ohmBranch : Obligations.OhmBranch := by
  unfold Obligations.OhmBranch
  intro s c l rd rs imm h k a b br
  refine ⟨?_, ?_⟩
  · rintro rfl
    exact ⟨exec_of_branch h rfl beq_iff_eq, exec_of_branch h rfl bne_iff_ne, exec_of_branch h rfl decide_eq_true_iff,
      exec_of_branch h rfl decide_eq_true_iff, exec_of_branch h rfl decide_eq_true_iff,
      exec_of_branch h rfl decide_eq_true_iff, exec_of_branch h rfl (by simp), exec_of_body (r := .jump _ _) h rfl rfl⟩
  · rintro rfl
    exact ⟨exec_of_branch h rfl beq_iff_eq, exec_of_branch h rfl bne_iff_ne, exec_of_branch h rfl (by simp [BitVec.slt, a, b, k]),
      exec_of_branch h rfl (not_slt_iff _ _), exec_of_branch h rfl (by simp [BitVec.ult, a, b, k]),
      exec_of_branch h rfl (not_ult_iff _ _), exec_of_branch h rfl (by simp)⟩

end Sys2Proof.Machine
end

section

/-!
## Table interpolation and copies

A restartable instruction that runs from its start to its end does one word after another, and each word leaves the core that
the words before it and its own write make. A write of a word changes no permission, so that what may be accessed at the
start may be accessed at every word.
-/

namespace Sys2Proof.Machine

section
variable {s : State} {c : CoreId} {k : Core}

/-! ### Consuming CV and writing words change no permission -/

theorem Core.compartment_cwClear (k : Core) : (k.cwClear 0x004).compartment = k.compartment := by
  simp [Core.compartment, Core.cwClear]

theorem Core.pmOk_cwClear (k : Core) (a : Word36) (bit : Nat) : (k.cwClear 0x004).pmOk a bit = k.pmOk a bit := by
  unfold Core.pmOk
  rw [Core.compartment_cwClear]
  rfl

theorem Core.headBad_cwClear (k : Core) (c : CoreId) (T : Nat) : (k.cwClear 0x004).headBad c T = k.headBad c T := by
  unfold Core.headBad
  rw [Core.pmOk_cwClear]
  rfl

/-- The core after the first m words of a copy, each written from the core that the words before have left. -/
def Core.copied (k : Core) (dst : Word36) (f : Core → Nat → Word36) (m : Nat) : Core :=
  (List.range m).foldl (fun k i => k.pmWrite (dst + BitVec.ofNat 36 i).toNat (f k i)) k

theorem Core.copied_succ (k : Core) (dst : Word36) (f : Core → Nat → Word36) (m : Nat) : k.copied dst f (m + 1) =
    (k.copied dst f m).pmWrite (dst + BitVec.ofNat 36 m).toNat (f (k.copied dst f m) m) := by
  simp [Core.copied, List.range_succ]

theorem Core.pmOk_copied (k : Core) (dst : Word36) (f : Core → Nat → Word36) (m : Nat) (a : Word36) (bit : Nat) :
    (k.copied dst f m).pmOk a bit = k.pmOk a bit := by
  induction m with
  | zero => rfl
  | succ m ih => rw [Core.copied_succ, ← ih]; rfl

/-! ### Granules from the start to the end -/

/-- Granules of one element that are carried out, one after another, reach the end. -/
theorem granules_of_steps {n : Nat} {elem : State → Core → Nat → State × Core × Option (Nat × Word36)} {f : Nat → Core}
    (hstep : ∀ i, i < n → elem s (f i) i = (s, f (i + 1), none)) (m i : Nat) (hm : i + m = n) :
    granules n 1 elem m s (f i) i = (s, .done { f n with cont := 0 }) := by
  induction m generalizing i with
  | zero =>
    obtain rfl : i = n := hm
    simp [granules]
  | succ m ih =>
    have hlt : i < n := by omega
    simp only [granules, hlt, if_true, hstep i hlt]
    exact ih (i + 1) (by omega)

/-- WCOPY and TLIV from the start to the end (R179): the count, the source and the destination are what the registers hold. -/
theorem copyBody_of_words {rd rs rt n : Nat} {src dst : Word36} {bad : Core → Bool} {head : Core → Word36}
    {deny : Core → Core → Option Nat} {f : Core → Core → Word36 → Word36} {word : Core → Nat → Word36}
    (hrd : (k.get rd).toNat = n) (hrs : k.get rs = src) (hrt : k.get rt = dst) (hn : n < 2 ^ 24)
    (hapart : ¬(src.toNat < dst.toNat ∧ dst.toNat < src.toNat + n)) (hbad : bad k = false) (hcv : k.cv = false)
    (hword : ∀ k' i, f k k' (src + BitVec.ofNat 36 i) = word k' i)
    (hdeny : ∀ i, i < n → deny k ((k.cwClear 0x004).copied dst word i) = none)
    (hok : ∀ i, i < n → (k.cwClear 0x004).pmOk (src + BitVec.ofNat 36 i) 18 = true ∧
      (k.cwClear 0x004).pmOk (dst + BitVec.ofNat 36 i) 19 = true) :
    copyBody rd rs rt n bad head deny f s k = (s, .done { (k.cwClear 0x004).copied dst word n with cont := 0 }) := by
  have hstart : k.resumeAt = 0 := by simp [Core.resumeAt, hcv]
  unfold copyBody
  rw [hrd, hrs, hrt, if_neg (Nat.not_le.mpr hn), if_neg hapart, hbad, if_neg Bool.false_ne_true, hstart]
  refine granules_of_steps (f := (k.cwClear 0x004).copied dst word) (fun i hi => ?_) _ 0 (Nat.zero_add _)
  obtain ⟨hread, hwrite⟩ := hok i hi
  unfold copyElem
  rw [hdeny i hi, Core.copied_succ, ← hword]
  simp only [immZ, Core.pmOk_copied, hread, hwrite, Bool.not_true, Bool.false_eq_true, if_false]

theorem exec_wcopy_of_body {rd rs rt upto : Nat} {r : CRes} (h : Ready s c true)
    (hbody : wcopyBody c rd rs rt upto s (s.awake c) = (s, r)) : exec (.wcopy c rd rs rt upto) s = .next (s.retire c true r) := by
  rw [exec_wcopy, State.runWith_of_ready h, show s.bodyCore c true = s.awake c from rfl, hbody]

theorem exec_tliv_of_body {rd rs rt ru upto : Nat} {r : CRes} (h : Ready s c true)
    (hbody : tlivBody c rd rs rt ru upto s (s.awake c) = (s, r)) :
    exec (.tliv c rd rs rt ru upto) s = .next (s.retire c true r) := by
  rw [exec_tliv, State.runWith_of_ready h, show s.bodyCore c true = s.awake c from rfl, hbody]

end

/-- Settles O7: the interpolation of one word, the copies from start to end, and the operands that break a rule. -/
theorem ohmTableAndCopy : Obligations.OhmTableAndCopy := by
  unfold Obligations.OhmTableAndCopy
  intro s c rd rs rt ru h k n src dst T at_ overlap writes done bad
  have hhead : (s.awake c).headBad c T = k.headBad c T := (Core.headBad_cwClear _ _ _).symm
  refine ⟨fun hgood hnone => ?_, fun hbad => ?_, fun hn hapart hcv hok => ?_, fun hn upto => ?_, fun hn hapart hbad upto => ?_,
    fun hn hov upto => ?_⟩
  · exact sets_of_body h rfl (by simp only [k] at hgood hnone; simp only [hgood, hnone]; rfl)
  · exact exec_of_body (r := .trap k 2 _) h rfl (if_pos hbad)
  · have hdone : ∀ f, s.retire c true (.done { ((s.awake c).cwClear 0x004).copied dst f n with cont := 0 }) =
        done (writes f n) := fun _ => rfl
    refine ⟨?_, fun hgood hdeny => ?_⟩
    · rw [← hdone]
      exact exec_wcopy_of_body h
        (copyBody_of_words (k := s.awake c) rfl rfl rfl hn hapart rfl hcv (fun _ _ => rfl) (fun _ _ => rfl) hok)
    · rw [← hdone]
      exact exec_tliv_of_body h
        (copyBody_of_words (k := s.awake c) rfl rfl rfl hn hapart (hhead.trans hgood) hcv (fun _ _ => rfl) hdeny hok)
  · exact ⟨exec_wcopy_of_body (r := .trap _ 2 _) h (if_pos hn), exec_tliv_of_body (r := .trap _ 2 _) h (if_pos hn)⟩
  · exact exec_tliv_of_body (r := .trap _ 2 _) h
      ((if_neg (Nat.not_le.mpr hn)).trans ((if_neg hapart).trans (if_pos (hhead.trans hbad))))
  · exact ⟨exec_wcopy_of_body (r := .trap _ 2 _) h ((if_neg (Nat.not_le.mpr hn)).trans (if_pos hov)),
      exec_tliv_of_body (r := .trap _ 2 _) h ((if_neg (Nat.not_le.mpr hn)).trans (if_pos hov))⟩

end Sys2Proof.Machine
end

section

/-!
## System registers and messages

A read of a system register is refused, or reads; a write likewise. Which of them it is hangs on the index and the mode alone,
and at a given index both the test and the register are found by evaluation.
-/

namespace Sys2Proof.Machine

/-! ### Reads and writes of system registers -/

section
variable {s : State} {c : CoreId} {k : Core} {rd rs i : Nat}

theorem exec_mfs_of_body {x : State × CRes} (h : Ready s c true) (hbody : mfsBody c rd i s (s.begun c) = x) :
    exec (.mfs c rd i) s = .next (x.1.retire c true x.2) := by
  rw [← hbody]
  exact congrArg _ (State.runWith_of_ready h false (mfsBody c rd i))

theorem mfsBody_of_unnamed (hnamed : sysNamed i = false) : mfsBody c rd i s k = (s, .trap k 1 (encLI 0xE 0x20 rd 0 i)) := by
  simp [mfsBody, hnamed]

theorem mfsBody_of_denied (hnamed : sysNamed i = true) (hdenied : (k.compartment && !sysUser i) = true) :
    mfsBody c rd i s k = (s, .trap k 8 (encLI 0xE 0x20 rd 0 i)) := by
  simp [mfsBody, hnamed, hdenied]

theorem mfsBody_of_allowed (hnamed : sysNamed i = true) (hallowed : (k.compartment && !sysUser i) = false) :
    mfsBody c rd i s k = (if i = 0x11 ∨ i = 0x12 then s.drawn else s,
      .done ((k.sysRead c s.free i).1.set rd (k.sysRead c s.free i).2)) := by
  simp [mfsBody, hnamed, hallowed]

/-- A permitted read of a register without RZ bits leaves the core that it reads, with rd set. -/
theorem exec_mfs_of_sysRead {k' : Core} {v : Word36} (h : Ready s c true) (hnamed : sysNamed i = true)
    (hallowed : ((s.begun c).compartment && !sysUser i) = false) (hrz : (i == 0x11 || i == 0x12) = false)
    (hread : (s.begun c).sysRead c s.free i = (k', v)) : exec (.mfs c rd i) s = .next (s.retired c true (k'.set rd v)) := by
  rw [exec_mfs_of_body h (mfsBody_of_allowed hnamed hallowed), if_neg (by simpa using hrz), hread]
  rfl

/-- The read of a register that stays as it is. -/
theorem sets_mfs {v : Word36} (h : Ready s c true) (hnamed : sysNamed i = true)
    (hallowed : ((s.begun c).compartment && !sysUser i) = false) (hrz : (i == 0x11 || i == 0x12) = false)
    (hread : (s.begun c).sysRead c s.free i = (s.begun c, v)) : Sets (.mfs c rd i) s c true rd v :=
  exec_mfs_of_sysRead h hnamed hallowed hrz hread

/-- The read of CW or CONT: its RZ bits are drawn (R20). -/
theorem exec_mfs_of_rz {x w m : Word36} (h : Ready s c true) (hnamed : sysNamed i = true) (huser : sysUser i = true)
    (hrz : (i == 0x11 || i == 0x12) = true) (hread : (s.begun c).sysRead c s.free i = (s.begun c, w ||| (x &&& ~~~m))) :
    ∃ v : Word36, exec (.mfs c rd i) s = .next (s.drawn.retired c true ((s.begun c).set rd v)) ∧ v &&& m = w &&& m := by
  refine ⟨w ||| (x &&& ~~~m), ?_, ?_⟩
  · rw [exec_mfs_of_body h (mfsBody_of_allowed hnamed (by simp [huser])), if_pos (by simpa using hrz), hread]
    rfl
  · ext j hj
    simp only [BitVec.getElem_and, BitVec.getElem_or, BitVec.getElem_not]
    cases w[j] <;> cases m[j] <;> simp

theorem msgvalPop_eq_mfs (c : CoreId) (rd : Nat) (s : State) : exec (.msgvalPop c rd) s = exec (.mfs c rd 0x2B) s := rfl

theorem Core.sysRead_ipend (k : Core) (c : CoreId) (free : Nat) : k.sysRead c free 0x27 =
    (k, BitVec.ofNat 36 (ofBool k.beatPend * 2 ^ 16 + ofBool (k.timerSet && k.timer == 0) * 2 ^ 17 +
      ofBool (decide (k.msgs ≠ [])) * 2 ^ 18 + ofBool k.fnPend * 2 ^ 19 + ofBool k.beatLost * 2 ^ 20)) := by
  have hmsgs : decide (k.msgs ≠ []) = !k.msgs.isEmpty := by cases k.msgs <;> rfl
  rw [hmsgs]
  rfl

theorem Core.sysRead_msgval (k : Core) (c : CoreId) (free : Nat) : k.sysRead c free 0x2B =
    match k.msgs with
    | [] => (k, 0)
    | m :: t => ({ k with msgs := t }, m.setWidth 36) := rfl

theorem exec_mts_of_unnamed (h : Ready s c true) (hnamed : sysNamed i = false) :
    exec (.mts c rs i) s = .next (s.trap c (s.begun c) 1 true (encLI 0xE 0x21 0 rs i)) :=
  exec_of_body (r := .trap _ 1 _) h rfl (by simp [mtsBody, hnamed])

theorem exec_mts_of_denied (h : Ready s c true) (hnamed : sysNamed i = true)
    (hdenied : ((s.begun c).compartment && (!sysUser i || i == 0x11)) = true) :
    exec (.mts c rs i) s = .next (s.trap c (s.begun c) 8 true (encLI 0xE 0x21 0 rs i)) :=
  exec_of_body (r := .trap _ 8 _) h rfl (by simp [mtsBody, hnamed, hdenied])

/-- A permitted write leaves the core with the register written. -/
theorem exec_mts_of_sysWrite {k' : Core} (h : Ready s c true) (hnamed : sysNamed i = true)
    (hallowed : ((s.begun c).compartment && (!sysUser i || i == 0x11)) = false)
    (hwrite : (s.begun c).sysWrite i ((s.begun c).get rs) = k') : exec (.mts c rs i) s = .next (s.retired c true k') :=
  exec_of_body (r := .done k') h rfl (by simp [mtsBody, hnamed, hallowed, hwrite])

/-- IPEND.BEAT_LOST is cleared by a 1 (R197). -/
theorem Core.sysWrite_ipend (k : Core) (v : Word36) :
    k.sysWrite 0x27 v = { k with beatLost := k.beatLost && !v.getLsbD 20 } := by
  have hwrite : k.sysWrite 0x27 v = if v.getLsbD 20 then { k with beatLost := false } else k := rfl
  rw [hwrite]
  cases v.getLsbD 20 <;> simp

/-- A write of CTRCTL with CLR 1 (R197). -/
theorem Core.sysWrite_ctrctl_clr (k : Core) (v : Word36) :
    k.sysWrite 0x40 (v ||| 2) = { k with ctrEn := v.getLsbD 0, ctr := [], ctrWrap := 0 } := by
  have hwrite : k.sysWrite 0x40 (v ||| 2) = if (v ||| 2).getLsbD 1 then
      ({ k with ctrEn := (v ||| 2).getLsbD 0 } : Core).clearCounters else { k with ctrEn := (v ||| 2).getLsbD 0 } := rfl
  have hclr : (v ||| 2).getLsbD 1 = true := by simp
  have hen : (v ||| 2).getLsbD 0 = v.getLsbD 0 := by simp
  rw [hwrite, hclr, hen, if_pos rfl]
  rfl

end

theorem ohmSystemRegistersPart : Clauses.OhmSystemRegistersPart := by
  intro s c rd rs i h k v rdEnc wrEnc
  have huser : ∀ j, sysUser j = true → (k.compartment && !sysUser j) = false := fun j hj => by simp [hj]
  have hpriv : k.compartment = false → ∀ j, (k.compartment && !sysUser j) = false := fun hmode j => by simp [hmode]
  have hwrites : k.compartment = false → ∀ j, (k.compartment && (!sysUser j || j == 0x11)) = false := fun hmode j => by
    simp [hmode]
  refine ⟨fun hnamed => ⟨exec_mfs_of_body h (mfsBody_of_unnamed hnamed), exec_mts_of_unnamed h hnamed⟩,
    fun hnamed hmode huser => ⟨exec_mfs_of_body h (mfsBody_of_denied hnamed ?_), exec_mts_of_denied h hnamed ?_⟩,
    fun hmode => exec_mts_of_denied h rfl ?_, ?_, ?_, fun hmode => ⟨?_, ?_, ?_, ?_, ?_, ?_⟩, ?_, ?_, ?_, fun hmode => ⟨?_, ?_, ?_, ?_⟩⟩
  · simpa [huser] using hmode
  · simpa [huser] using hmode
  · simpa using hmode
  · intro p hp
    fin_cases hp <;> exact sets_mfs h rfl (huser _ rfl) rfl rfl
  · intro p hp
    fin_cases hp <;> exact exec_mfs_of_rz h rfl rfl rfl rfl
  · intro p hp
    fin_cases hp <;> exact sets_mfs h rfl (hpriv hmode _) rfl rfl
  · exact sets_mfs h rfl (hpriv hmode _) rfl (Core.sysRead_ipend _ _ _)
  · intro j hj
    interval_cases j <;> exact sets_mfs h rfl (hpriv hmode _) rfl rfl
  · intro j hj
    interval_cases j <;>
      exact ⟨sets_mfs h rfl (hpriv hmode _) rfl rfl, sets_mfs h rfl (hpriv hmode _) rfl rfl⟩
  · intro m t hmsgs
    rw [msgvalPop_eq_mfs]
    exact exec_mfs_of_sysRead h rfl (hpriv hmode _) rfl (by rw [Core.sysRead_msgval, hmsgs])
  · intro hmsgs
    rw [Sets, msgvalPop_eq_mfs]
    exact sets_mfs h rfl (hpriv hmode _) rfl (by rw [Core.sysRead_msgval, hmsgs])
  · intro j hj
    interval_cases j <;>
      exact ⟨exec_mfs_of_sysRead h rfl (huser _ rfl) rfl rfl, sets_mfs h rfl (huser _ rfl) rfl rfl⟩
  · exact exec_mts_of_sysWrite h rfl (by simp [sysUser]) rfl
  · exact exec_mts_of_sysWrite h rfl (by simp [sysUser]) rfl
  · intro p hp
    fin_cases hp <;> refine exec_mts_of_sysWrite h rfl (hwrites hmode _) ?_
    pick_goal 14
    · exact Core.sysWrite_ipend _ _
    all_goals rfl
  · intro j hj
    interval_cases j <;> exact exec_mts_of_sysWrite h rfl (hwrites hmode _) rfl
  · intro j hj
    interval_cases j <;>
      exact ⟨exec_mts_of_sysWrite h rfl (hwrites hmode _) rfl, exec_mts_of_sysWrite h rfl (hwrites hmode _) rfl⟩
  · rw [← Core.sysWrite_ctrctl_clr]
    exact exec_of_body (r := .done _) h rfl (if_neg (by simpa using hmode))

/-! ### Messages -/

/-- What a requester may do with MSG_IN, as the model tests it (R161, R199). -/
def State.mayPost (s : State) (dst : CoreId) : Req → Bool
  | .core w => (msgRange w dst).any (s.core w).allowed
  | _ => true

theorem State.mayPost_core_iff (s : State) (w dst : CoreId) : s.mayPost dst (.core w) = true ↔
    ∃ n, msgRange w dst = some n ∧ ((s.core w).compartment = false ∨ (s.core w).extallow.getLsbD n = true) := by
  simp [State.mayPost, Core.allowed, Option.any_eq_true]

/-- A core in service: its tile works, or the hub main domain is up (R161). -/
def State.inService (s : State) : CoreId → Bool
  | .tile t => s.tileUp t
  | .hub n => decide (n < 16) && !s.hubMainReset

theorem State.postMsg_eq (s : State) (c : CoreId) (v : Nat) : s.postMsg c v =
    if s.inService c && decide ((s.core c).msgs.length < 8) then
      some (s.setCore c { s.core c with msgs := (s.core c).msgs ++ [BitVec.ofNat 32 v] }) else none := by
  cases c <;> rfl

/-- What a requester is answered: the state that has the message, or the trap or error response of a refusal. -/
def State.msgAnswer (s : State) (src : Req) (dst : CoreId) : Option State → Res
  | some t => .next t
  | none =>
    match src with
    | .core w => .next (s.trap w (s.core w) 5 false (BitVec.ofNat 36 (msgAddr w dst)))
    | r => .next (s.emit (.writeError r))

theorem execMsgInWrite_eq (src : Req) (dst : CoreId) (v : Nat) (s : State) : execMsgInWrite src dst v s =
    s.msgAnswer src dst (if s.mayPost dst src then s.postMsg dst v else none) := by
  have hanswer : ∀ may : Bool, ∀ r : Option State, (match src, (if may then r else none) with
      | _, some s' => (.next s' : Res)
      | .core w, none => .next (s.trap w (s.core w) 5 false (BitVec.ofNat 36 (msgAddr w dst)))
      | r, none => .next (s.emit (.writeError r))) = s.msgAnswer src dst (if may then r else none) := by
    intro may r
    cases may <;> cases r <;> cases src <;> rfl
  exact hanswer (s.mayPost dst src) (s.postMsg dst v)

theorem ohmMessages : Clauses.OhmMessages := by
  intro s src dst v up may room
  have hup : up = s.inService dst := by cases dst <;> rfl
  have hmay : s.mayPost dst src = true ↔ may := by
    cases src with
    | core w => exact s.mayPost_core_iff w dst
    | _ => exact iff_of_true rfl trivial
  have hroom : (s.inService dst && decide ((s.core dst).msgs.length < 8)) = true ↔ up = true ∧ (s.core dst).msgs.length < 8 := by
    rw [hup, Bool.and_eq_true, decide_eq_true_eq]
  have hexec : exec (.msgInWrite src dst v) s = _ := execMsgInWrite_eq src dst v s
  rw [s.postMsg_eq] at hexec
  refine ⟨fun ⟨hallowed, hfree⟩ => ?_, fun hno => ?_⟩
  · rw [hexec, if_pos (hmay.mpr hallowed), if_pos (hroom.mpr hfree)]
    rfl
  · have hnone : exec (.msgInWrite src dst v) s = s.msgAnswer src dst none := by
      rw [hexec]
      split
      · next hallowed => rw [if_neg fun hfree => hno ⟨hmay.mp hallowed, hroom.mp hfree⟩]
      · rfl
    cases src <;> exact hnone

/-- Settles O8: the two parts above. -/
theorem ohmSystemRegisters : Obligations.OhmSystemRegisters := ⟨ohmSystemRegistersPart, ohmMessages⟩

end Sys2Proof.Machine
end

section

/-!
## The control of cw, what entry saves, and decoding
-/

namespace Sys2Proof.Machine

/-! ### Counters -/

/-- What counting makes of a core's counters, and of the WRAP bits and their sequence number (R198, R539). -/
def countersAfter (en : Bool) (ctr : Cells Nat) (wrap seq j d : Nat) : Cells Nat × Nat × Nat :=
  if en then
    (ctr.set 0 j ((ctr.getD 0 j + d) % 2 ^ 48),
      if ctr.getD 0 j + d < 2 ^ 48 then (wrap, seq) else (wrap ||| 2 ^ j, (seq + 1) % 2 ^ 16))
  else (ctr, wrap, seq)

/-- Counting changes the counters, the WRAP bits and their sequence number, and reads nothing else but CTRCTL.EN. -/
theorem Core.count_eq (k : Core) (j d : Nat) : k.count j d =
    let x := countersAfter k.ctrEn k.ctr k.ctrWrap k.ctrWrapSeq j d
    { k with ctr := x.1, ctrWrap := x.2.1, ctrWrapSeq := x.2.2 } := by
  unfold Core.count countersAfter
  split
  · dsimp only
    split <;> rfl
  · rfl

theorem Core.count_pc (k : Core) (pc : BitVec 19) (j d : Nat) :
    ({ k with pc := pc } : Core).count j d = { k.count j d with pc := pc } := by
  rw [Core.count_eq, Core.count_eq]

theorem Core.count_waiting (k : Core) (w : Bool) (j d : Nat) :
    ({ k with waiting := w } : Core).count j d = { k.count j d with waiting := w } := by
  rw [Core.count_eq, Core.count_eq]

/-- Where a jump goes, its target says, and not the PC that its body leaves. -/
theorem State.goes_pc (s : State) (c : CoreId) (k : Core) (pc target : BitVec 19) :
    s.goes c { k with pc := pc } target = s.goes c k target := by
  have hpredicted : ∀ k : Core, s.predicted { k with pc := pc } = ((s.predicted k).1, { (s.predicted k).2 with pc := pc }) := by
    intro k
    unfold State.predicted
    dsimp only
    split
    · simp only [Core.count_pc]
    · rfl
  simp only [State.goes, Core.count_pc, hpredicted]

/-! ### Control of cw -/

theorem ohmControl : Clauses.OhmControl := by
  intro s c imm h k allowed
  have hallowed : (k.compartment && decide (imm % 16 ≠ 0)) = true ↔ ¬allowed := by
    simp [allowed]
  refine ⟨fun ha => ⟨?_, ?_⟩, fun hna => ⟨?_, ?_⟩, ?_, fun hmode => ⟨?_, ?_⟩, fun hmode => ⟨?_, ?_, fun rs => ?_⟩⟩
  · exact exec_of_body (r := .done _) h rfl (if_neg (hallowed.not.mpr (not_not.mpr ha)))
  · exact exec_of_body (r := .done _) h rfl (if_neg (hallowed.not.mpr (not_not.mpr ha)))
  · exact exec_of_body (r := .trap _ 8 _) h rfl (if_pos (hallowed.mpr hna))
  · exact exec_of_body (r := .trap _ 8 _) h rfl (if_pos (hallowed.mpr hna))
  · exact exec_of_body (r := .trap _ 9 _) h rfl rfl
  · rw [← State.goes_pc _ _ _ (k.epc.setWidth 19)]
    exact exec_of_body (r := .jump k.leave k.leave.pc) h rfl (if_neg (by simpa using hmode))
  · exact exec_of_body (r := .done _) h rfl (if_neg (by simpa using hmode))
  · exact exec_of_body (r := .trap _ 8 _) h rfl (if_pos hmode)
  · exact exec_of_body (r := .trap _ 8 _) h rfl (if_pos hmode)
  · exact exec_of_body (r := .trap _ 8 _) h rfl (if_pos hmode)

/-! ### Entry -/

/-- Clearing IE, MODE, CV and TL before TL is set is clearing the first three. -/
theorem entered_cw (w : Word36) : (w &&& ~~~(0x00F : Word36)) ||| 0x008 = (w &&& ~~~(0x7 : Word36)) ||| 0x8 := by
  have hbit : ∀ j (hj : j < 36), (0x8 : Word36)[j] = true ∨ (~~~(0x00F : Word36))[j] = (~~~(0x7 : Word36))[j] := by decide
  ext j hj
  simp only [BitVec.getElem_or, BitVec.getElem_and]
  rcases hbit j hj with h | h <;> simp only [h, Bool.or_true]

/-- What a trap discards counts, and leaves the core alone but for its counters. -/
theorem State.discarded_core (s : State) (k : Core) : ∃ x : Cells Nat × Nat × Nat,
    (s.discarded k).2 = { k with ctr := x.1, ctrWrap := x.2.1, ctrWrapSeq := x.2.2 } := by
  unfold State.discarded
  split
  · exact ⟨countersAfter k.ctrEn k.ctr k.ctrWrap k.ctrWrapSeq 3 s.free, Core.count_eq k 3 s.free⟩
  · exact ⟨(k.ctr, k.ctrWrap, k.ctrWrapSeq), rfl⟩

/-- What a trap discards does not depend on WFI. -/
theorem State.discarded_waiting (s : State) (k : Core) (w : Bool) :
    s.discarded { k with waiting := w } = ((s.discarded k).1, { (s.discarded k).2 with waiting := w }) := by
  unfold State.discarded
  dsimp only
  split
  · rw [Core.count_waiting]
  · rfl

/-- A trap of an instruction with TL 0 (R183). -/
theorem State.trap_awake_of_tl_false {s : State} {c : CoreId} (n : Nat) (long : Bool) (tval : Word36) (htl : (s.core c).tl = false) :
    s.trap c (s.awake c) n long tval = (s.discarded (s.core c)).1.setCore c { (s.discarded (s.core c)).2 with
      epc := (s.core c).pc.setWidth 36, ecw := (s.core c).cw, econt := (s.core c).cont,
      cause := BitVec.ofNat 36 (n + 64 * ofBool long), tval := tval,
      cw := ((s.core c).cw &&& ~~~(0x7 : Word36)) ||| 0x8, cont := 0,
      pc := BitVec.ofNat 19 ((s.core c).vbase.toNat / 512 * 512 + 16 * n), waiting := false } := by
  have htl' : (s.awake c).tl = false := htl
  obtain ⟨x, hx⟩ := s.discarded_core (s.core c)
  have hdisc : s.discarded (s.awake c) = _ := s.discarded_waiting (s.core c) false
  rw [State.trap, htl', hdisc, hx, ← entered_cw]
  rfl

/-- A trap of an instruction with TL 1 stops the core and is reported (R185). -/
theorem State.trap_awake_of_tl_true {s : State} {c : CoreId} (n : Nat) (long : Bool) (tval : Word36) (htl : (s.core c).tl = true) :
    s.trap c (s.awake c) n long tval =
      ((s.discarded (s.core c)).1.setCore c { (s.discarded (s.core c)).2 with waiting := false, stopped := true }).detect
        (.coreFault c n (s.core c).pc.toNat tval.toNat) := by
  have htl' : (s.awake c).tl = true := htl
  have hdisc : s.discarded (s.awake c) = _ := s.discarded_waiting (s.core c) false
  rw [State.trap, htl', hdisc]
  rfl

/-- Which traps an instruction may be entered through: the listed ones, and EMULATE with a reserved encoding of its width. -/
theorem trapTaken_iff (c : CoreId) (n : Nat) (long : Bool) (tval : Word36) : trapTaken c n long tval = true ↔
    0 < n ∧ n ≤ 10 ∧ (n = 1 → ohmLong tval.toNat = long ∧ decodeOhm c 0 tval.toNat = none ∧ (long = false → tval.toNat < 2 ^ 18)) := by
  simp only [trapTaken, emulated, Bool.and_eq_true, Bool.or_eq_true, bne_iff_ne, ne_eq, decide_eq_true_eq, Option.isNone_iff_eq_none,
    imp_iff_not_or, Bool.not_eq_false, and_assoc]

theorem Core.codeWord_iff (k : Core) (long : Bool) (w : Nat) : k.codeWord long w = true ↔
    w = k.pc.toNat / 2 ∨ (long = true ∧ w = (k.pc.toNat + 1) / 2) := by
  simp [Core.codeWord]

theorem execTrapEntry_of_boundary {s : State} {c : CoreId} {n : Nat} {long : Bool} {tval : Word36}
    (hruns : s.coreRuns c = true) (hint : (s.core c).interrupt = none)
    (hwait : ((s.core c).waiting && (s.core c).enabledSource.isNone) = false) :
    execTrapEntry c n long tval s = if !trapTaken c n long tval then .next s else
      .next ((if n = 10 then s.detect (.coreParity c tval.toNat) else s).trap c
        (if n = 10 ∧ (s.core c).codeWord long tval.toNat = false then (s.awake c).cwClear 0x004 else s.awake c) n long tval) := by
  simp [execTrapEntry, hruns, hint, hwait, State.awake, Core.codeWord]

theorem execInterruptEntry_of_interrupt {s : State} {c : CoreId} {i : Nat} (hruns : s.coreRuns c = true)
    (hint : (s.core c).interrupt = some i) :
    execInterruptEntry c s = .next (s.setCore c ((s.core c).takeInterrupt i (s.rg Rg.beat_BEATNO))) := by
  simp [execInterruptEntry, hruns, hint]

theorem execInterruptEntry_of_none {s : State} {c : CoreId} (hint : (s.core c).interrupt = none) :
    execInterruptEntry c s = .next s := by
  simp [execInterruptEntry, hint]

theorem ohmEntry : Clauses.OhmEntry := by
  intro s c n long tval k entered x awake
  refine ⟨fun hruns hint hwait => ?_, fun hruns i hint => ?_, execInterruptEntry_of_none, rfl⟩
  · have hexec : ∀ m, exec (.trapEntry c m long tval) s = _ := fun m => execTrapEntry_of_boundary (n := m) hruns hint hwait
    refine ⟨fun hpos hlt hone => ?_, ?_, fun hn => ?_⟩
    · have htaken := (trapTaken_iff c n long tval).mpr ⟨hpos, hlt.le, hone⟩
      have hn : n ≠ 10 := hlt.ne
      have hentry : exec (.trapEntry c n long tval) s = .next (s.trap c (s.awake c) n long tval) := by
        simp [hexec, htaken, hn]
      exact ⟨fun htl => hentry.trans (congrArg _ (State.trap_awake_of_tl_false n long tval htl)),
        fun htl => hentry.trans (congrArg _ (State.trap_awake_of_tl_true n long tval htl))⟩
    · have htaken := (trapTaken_iff c 10 long tval).mpr ⟨by decide, le_rfl, fun h => absurd h (by decide)⟩
      refine ⟨fun hown => ?_, fun hother => ?_⟩
      · have hword := (Core.codeWord_iff k long tval.toNat).mpr hown
        simp [hexec, htaken, k, hword, awake, State.awake]
      · have hword : k.codeWord long tval.toNat = false :=
          Bool.eq_false_iff.mpr fun h => hother ((Core.codeWord_iff k long tval.toNat).mp h)
        simp [hexec, htaken, k, hword, awake, State.awake, Core.cwClear]
    · have htaken : trapTaken c n long tval = false :=
        Bool.eq_false_iff.mpr fun h => by have := (trapTaken_iff c n long tval).mp h; omega
      rw [hexec, htaken]
      rfl
  · have hexec : exec (.interruptEntry c) s = _ := execInterruptEntry_of_interrupt hruns hint
    rw [hexec, Core.takeInterrupt]
    by_cases hi : i = 0
    · subst hi
      simp only [Core.enter, entered_cw]
      rfl
    · simp only [if_neg hi, Core.enter, entered_cw]
      rfl

end Sys2Proof.Machine
end

section

/-!
## Decoding

What an encoding names is read off the tables of R169-R173, row by row: the core is the one that fetched it, the width is the
table's, and every operand lies in the range of the field that it is cut from.
-/

namespace Sys2Proof.Machine

/-! ### What a row of a table names -/

/-- Instruction i is one of core c and of a width, and its operands are well formed where the core exists. -/
def Named (c : CoreId) (long : Bool) (i : Instr) : Prop := ohmOf i = some (c, long) ∧ (c.wf = true → i.wf = true)

/-- A row of a decoding table names such an instruction, or none. -/
def Names (c : CoreId) (long : Bool) (o : Option Instr) : Prop := ∀ i ∈ o, Named c long i

section
variable {c : CoreId} {long : Bool}

@[simp] theorem names_none : Names c long none := nofun

@[simp] theorem names_some (i : Instr) : Names c long (some i) ↔ Named c long i := by simp [Names]

@[simp] theorem names_whenZero (z : Nat) (i : Instr) : Names c long (whenZero z i) ↔ (z = 0 → Named c long i) := by
  unfold whenZero
  split <;> simp [*]

@[simp] theorem names_whenOk (ok : Bool) (o : Option Instr) : Names c long (whenOk ok o) ↔ (ok = true → Names c long o) := by
  unfold whenOk
  split <;> simp [*]

theorem names_bind {α : Type} {o : Option α} {g : α → Option Instr} (h : ∀ x ∈ o, Names c long (g x)) : Names c long (o.bind g) := by
  intro i hi
  obtain ⟨x, hx, hix⟩ := Option.mem_bind_iff.mp hi
  exact h x hx i hix

end

theorem bits_lt (w lo n : Nat) : bits w lo n < 2 ^ n := Nat.mod_lt _ (by positivity)

/-! ### Long forms (R170-R173) -/

/-- The fields of a long form are as wide as R168 has them. -/
structure LongForm.Fits (f : LongForm) : Prop where
  rd : f.rd < 32
  rs : f.rs < 32
  rt : f.rt < 32
  ru : f.ru < 32
  imm : f.imm < 65536
  immU : f.immU < 2097152

theorem longForm_fits (w : Nat) : (longForm w).Fits := by
  have hlow : bits w 0 3 < 8 := bits_lt w 0 3
  have himm : bits w 23 13 < 8192 := bits_lt w 23 13
  have himmU : bits w 18 18 < 262144 := bits_lt w 18 18
  refine ⟨bits_lt _ _ 5, bits_lt _ _ 5, bits_lt _ _ 5, bits_lt _ _ 5, ?_, ?_⟩
  · show bits w 23 13 * 8 + bits w 0 3 < 65536
    omega
  · show bits w 18 18 * 8 + bits w 0 3 < 2097152
    omega

theorem decodeInt_names {c : CoreId} {op : Nat} {f : LongForm} (hf : f.Fits) : Names c true (decodeInt c op f) := by
  obtain ⟨hrd, hrs, hrt, hru, himm, himmU⟩ := hf
  unfold decodeInt
  dsimp only
  split
  all_goals simp +contextual [Named, Instr.wf, ohmOf, regs, hrd, hrs, hrt, hru, himm, himmU]

theorem decodeMem_names {c : CoreId} {upto op : Nat} {f : LongForm} (hf : f.Fits) : Names c true (decodeMem c upto op f) := by
  obtain ⟨hrd, hrs, hrt, hru, himm, himmU⟩ := hf
  unfold decodeMem
  split
  all_goals simp +contextual [Named, Instr.wf, ohmOf, regs, LaneOff.isLong, LaneOff.wf, hrd, hrs, hrt, hru, himm]

theorem decodeCtl_names {c : CoreId} {op : Nat} {f : LongForm} (hf : f.Fits) : Names c true (decodeCtl c op f) := by
  obtain ⟨hrd, hrs, hrt, hru, himm, himmU⟩ := hf
  unfold decodeCtl
  split
  all_goals simp +contextual [Named, Instr.wf, ohmOf, hrd, hrs, himm, himmU]

theorem decodeFp_names {c : CoreId} {upto op : Nat} {f : LongForm} (hf : f.Fits) : Names c true (decodeFp c upto op f) := by
  obtain ⟨hrd, hrs, hrt, hru, himm, himmU⟩ := hf
  have hfmt : f.rt % 16 ≤ 10 ↔ f.rt % 16 < 11 := Nat.lt_succ_iff.symm
  unfold decodeFp
  dsimp only
  split
  all_goals simp +contextual [Named, Instr.wf, ohmOf, regs, hrd, hrs, hrt, hru, hfmt]

theorem decodeLong_names (c : CoreId) (upto w : Nat) : Names c true (decodeLong c upto w) := by
  have hf := longForm_fits w
  unfold decodeLong
  dsimp only
  split
  · exact decodeInt_names hf
  · exact decodeMem_names hf
  · exact decodeCtl_names hf
  · exact decodeFp_names hf

/-! ### Short forms (R169) -/

section
variable (c : CoreId) (h : Nat)

theorem bits3_lt (w lo : Nat) : bits w lo 3 < 8 := bits_lt w lo 3

theorem bits8_lt (w lo : Nat) : bits w lo 8 < 256 := bits_lt w lo 8

theorem alu3_names : Names c false (alu3 c h) := by
  refine names_bind fun f hf => (names_whenZero _ _).mpr fun _ => ?_
  have hmem := List.mem_of_getElem? hf
  simp only [List.mem_cons, List.not_mem_nil, or_false] at hmem
  rcases hmem with rfl | rfl | rfl | rfl | rfl | rfl | rfl | rfl | rfl | rfl | rfl | rfl | rfl
  all_goals simp [Named, Instr.wf, ohmOf, regs, bits3_lt]

theorem alui_names : Names c false (alui c h) := by
  have hshift : bits h 6 2 = 0 → bits h 0 8 < 64 := by
    unfold bits
    omega
  unfold alui
  dsimp only
  split
  all_goals simp +contextual [Named, Instr.wf, ohmOf, regs, bits3_lt, bits8_lt, hshift]

theorem misc_names : Names c false (misc c h) := by
  unfold misc
  dsimp only
  split
  all_goals simp +contextual [Named, Instr.wf, ohmOf, bits3_lt]

theorem fop_names : Names c false (fop c h) := by
  unfold fop
  dsimp only
  split
  all_goals simp +contextual [Named, Instr.wf, ohmOf, regs, bits3_lt]

theorem decodeShort_names : Names c false (decodeShort c h) := by
  have hoff : bits h 0 7 < 128 := bits_lt h 0 7
  have hword : bits h 0 10 < 1024 := bits_lt h 0 10
  have hbranch : bits h 0 14 < 16384 := bits_lt h 0 14
  unfold decodeShort
  dsimp only
  split
  case h_1 => exact alu3_names c h
  case h_2 => exact alui_names c h
  case h_8 => exact misc_names c h
  case h_11 => exact fop_names c h
  any_goals split
  all_goals simp +contextual [Named, Instr.wf, ohmOf, regs, LaneOff.isLong, LaneOff.wf, bits3_lt, bits8_lt, *]

end

/-! ### Encodings -/

/-- MAJ lies in the first half. -/
theorem ohmLong_mod (w : Nat) : ohmLong (w % 2 ^ 18) = ohmLong w := by
  have hmaj : bits (w % 2 ^ 18) 14 4 = bits w 14 4 := by
    unfold bits
    omega
  rw [ohmLong, hmaj, ohmLong]

theorem decodeOhm_names (c : CoreId) (upto w : Nat) : Names c (ohmLong w) (decodeOhm c upto w) := by
  unfold decodeOhm
  split
  · next hlong =>
    rw [hlong]
    exact decodeLong_names c upto w
  · next hshort =>
    rw [Bool.eq_false_iff.mpr hshort]
    exact decodeShort_names c _

theorem ohmDecoding : Clauses.OhmDecoding := by
  intro c upto w i
  refine ⟨decide_eq_true_iff, fun hshort => ?_, fun hi => (decodeOhm_names c upto w i hi).1, fun hc _ hi => ?_⟩
  · rw [decodeOhm, decodeOhm, ohmLong_mod, hshort, Nat.mod_mod]
    rfl
  · have hwf : c.wf = true := by
      obtain ⟨t, rfl, ht⟩ | ⟨n, rfl, hn⟩ := hc
      · exact decide_eq_true ht
      · exact decide_eq_true hn
    exact (decodeOhm_names c upto w i hi).2 hwf

/-- Settles O9: the three parts above. -/
theorem ohmControlAndEntry : Obligations.OhmControlAndEntry := ⟨ohmControl, ohmEntry, ohmDecoding⟩

end Sys2Proof.Machine
end

section

/-!
## Lane loads, stores and atomics

An instruction with one external access retires, waits or traps as the access goes; what an access to the own slice does is read off
the decoding of its address.
-/

namespace Sys2Proof.Machine

section
variable {s : State} {c : CoreId} {long : Bool} {a : Nat}

/-! ### An instruction with one access -/

/-- An instruction with one external access goes as the access goes that its core makes: it retires, waits or traps (R163, R171). -/
def GoesAs (i : Instr) (s : State) (c : CoreId) (long : Bool) (a : Nat) (op : Option LaneOp) (r : ExtRes) (done : Core → Nat → Core) :
    Prop :=
  (∀ s' v, r = .ok s' v → (s'.core c).pmStamp = (s.begun c).pmStamp →
    exec i s = .next (s'.accessedAs c long (done (s'.core c) v))) ∧
  (∀ ks, r = .wait ks →
    exec i s = .next (s.setCore c { s.begun c with extWait := true, waitLanes := ks, waitOp := op, served := [] })) ∧
  (∀ n, r = .fail n →
    exec i s = .next (s.trap c { (s.begun c).accessed with extFail := false } n long (BitVec.ofNat 36 a)))

theorem goesAs_of_extRun {i : Instr} {op : Option LaneOp} {body : State → Core → State × CRes} {acc : State → Core → ExtRes}
    {done : Core → Nat → Core} (h : Ready s c long) (hexec : exec i s = .next (s.runWith c long false body))
    (hbody : body s (s.begun c) = extRun c a op acc done s (s.begun c)) :
    GoesAs i s c long a op (acc (s.setCore c (s.begun c)) (s.begun c)) done := by
  have hrun : exec i s = .next ((body s (s.begun c)).1.retire c long (body s (s.begun c)).2) :=
    hexec.trans (congrArg _ (State.runWith_of_ready h false body))
  rw [hbody] at hrun
  refine ⟨fun s' v hacc hstamp => ?_, fun ks hacc => ?_, fun n hacc => ?_⟩ <;> rw [hrun, extRun, hacc]
  · dsimp only
    rw [if_pos hstamp]
    rfl
  · rfl
  · rfl

theorem goesAs_laneLoad {i : Instr} {rd rs : Nat} {o : LaneOff} {f : Nat → Nat} (h : Ready s c o.isLong)
    (hexec : exec i s = .next (laneLoad c rd rs o f s)) :
    GoesAs i s c o.isLong (laneAddr (s.begun c) rs o) none
      ((s.setCore c (s.begun c)).extLoad c (s.begun c) (laneAddr (s.begun c) rs o)) (fun k v => k.set rd (BitVec.ofNat 36 (f v))) :=
  goesAs_of_extRun (acc := fun u k => u.extLoad c k (laneAddr (s.begun c) rs o)) h hexec rfl

theorem goesAs_stl {rd rs : Nat} {o : LaneOff} (h : Ready s c o.isLong) :
    GoesAs (.stl c rd rs o) s c o.isLong (laneAddr (s.begun c) rs o) none
      ((s.setCore c (s.begun c)).extStore c (s.begun c) (laneAddr (s.begun c) rs o) (((s.begun c).get rd).toNat % 2 ^ 32) false)
      (fun k _ => k) :=
  goesAs_of_extRun (acc := fun u k => u.extStore c k (laneAddr (s.begun c) rs o) (((s.begun c).get rd).toNat % 2 ^ 32) false) h rfl rfl

theorem goesAs_stf {rd rs imm : Nat} (h : Ready s c true) :
    GoesAs (.stf c rd rs imm) s c true (laneAddr (s.begun c) rs (.long imm)) none
      ((s.setCore c (s.begun c)).extStore c (s.begun c) (laneAddr (s.begun c) rs (.long imm))
        (pack36 0xA false ((s.begun c).get rd).toNat).1 false)
      (fun k _ => k.cwSet (BitVec.ofNat 36 (pack36 0xA false ((s.begun c).get rd).toNat).2.word)) :=
  goesAs_of_extRun (acc := fun u k => u.extStore c k (laneAddr (s.begun c) rs (.long imm))
    (pack36 0xA false ((s.begun c).get rd).toNat).1 false) h rfl rfl

theorem goesAs_atomic {i : Instr} {rd rs : Nat} {op : Core → LaneOp} (h : Ready s c true)
    (hexec : exec i s = .next (atomicOp c rd rs op s)) :
    GoesAs i s c true ((s.begun c).get rs).toNat (some (op (s.begun c)))
      (State.atomicAccess c ((s.begun c).get rs).toNat op (s.setCore c (s.begun c)) (s.begun c))
      (fun k v => k.set rd (BitVec.ofNat 36 v)) :=
  goesAs_of_extRun h (hexec.trans (congrArg _ (atomicOp_eq c rd rs op s))) rfl

/-! ### The lane in a register -/

/-- A sign-extended lane as a word. -/
theorem ofNat_wrap (i : Int) : BitVec.ofNat 36 (wrap 36 i) = BitVec.ofInt 36 i := by
  apply BitVec.eq_of_toNat_eq
  have hlt : i % 2 ^ 36 < 2 ^ 36 := Int.emod_lt_of_pos i (by decide)
  have hpos : 0 ≤ i % 2 ^ 36 := Int.emod_nonneg i (by decide)
  rw [BitVec.toNat_ofNat, BitVec.toNat_ofInt, wrap]
  omega

/-- LDF converts the 32 bits of a lane. -/
theorem unpack36_lane (v : Nat) : unpack36 0xA v = v % 2 ^ 32 * 16 := rfl

/-! ### Atomics -/

/-- An atomic whose lane has been read, and was not served at a tick. -/
theorem State.atomicAccess_of_read {k : Core} {op : Core → LaneOp} {s1 : State} {old : Nat} (halign : a % 4 = 0)
    (hmem : extAtomic c k a = true) (hwaits : s.atomicWaits c k a = false) (hread : s.extRead c k a false = .ok s1 old)
    (hop : k.waitOp = none) : State.atomicAccess c a op s k = s.atomicWrite c k a (op k) s1 old := by
  simp [State.atomicAccess, halign, hmem, hwaits, hread, hop]

/-- An atomic that a tick has served. -/
theorem State.atomicAccess_of_served {k : Core} {op : Core → LaneOp} {s1 : State} {old : Nat} (halign : a % 4 = 0)
    (hmem : extAtomic c k a = true) (hwaits : s.atomicWaits c k a = false) (hread : s.extRead c k a false = .ok s1 old)
    (hop : k.waitOp = some (op k)) (hserved : ((sliceLane c k a).bind k.servedLane).isSome = true) :
    State.atomicAccess c a op s k = .ok s1 old := by
  simp [State.atomicAccess, halign, hmem, hwaits, hread, hop, hserved]

theorem State.atomicWrite_of_store {k : Core} {op : LaneOp} {s1 s2 : State} {old v x : Nat} (hnew : op.new old = some v)
    (hstore : s1.extStore c (s1.core c) a v false = .ok s2 x) : s.atomicWrite c k a op s1 old = .ok s2 old := by
  simp only [State.atomicWrite, hnew, hstore]

/-- A compare and swap that leaves the lane as it is. -/
theorem State.atomicWrite_of_keep {k : Core} {op : LaneOp} {s1 : State} {old : Nat} (hnew : op.new old = none)
    (hbad : s.extBad c k a true = false) : s.atomicWrite c k a op s1 old = .ok s1 old := by
  simp [State.atomicWrite, hnew, hbad]

theorem LaneOp.new_cas_of_eq {x n old : Nat} (h : old = x) : (LaneOp.cas x n).new old = some n := if_pos h

theorem LaneOp.new_cas_of_ne {x n old : Nat} (h : old ≠ x) : (LaneOp.cas x n).new old = none := if_neg h

theorem atomicAccess_of_misaligned {k : Core} {op : Core → LaneOp} (h : a % 4 ≠ 0) : State.atomicAccess c a op s k = .fail 2 := if_pos h

end

theorem ohmLanes : Clauses.OhmLanes := by
  intro s c rd rs rt ru imm o k s0 offset at_ done waits failed
  have hat : at_ = laneAddr k rs := by
    funext o
    cases o <;> rfl
  rw [hat]
  refine ⟨fun p hp h => ?_, ⟨fun p hp h => ?_, fun h => ?_⟩⟩
  · simp only [List.mem_cons, List.not_mem_nil, or_false] at hp
    rcases hp with rfl | rfl | rfl
    · exact goesAs_laneLoad (f := fun v => v) h rfl
    · simp only [← ofNat_wrap]
      exact goesAs_laneLoad (f := fun v => wrap 36 (sext 32 v)) h rfl
    · exact goesAs_laneLoad (f := unpack36 0xA) h rfl
  · simp only [List.mem_cons, List.not_mem_nil, or_false] at hp
    rcases hp with rfl | rfl
    · exact goesAs_stl h
    · exact goesAs_stf h
  · intro b old36
    obtain ⟨hadd, -, haddFail⟩ := goesAs_atomic (i := .atadd c rd rs rt) (op := fun k => .add (k.get rt).toNat) h rfl
    obtain ⟨hswap, -, hswapFail⟩ := goesAs_atomic (i := .atswap c rd rs rt) (op := fun k => .swap ((k.get rt).toNat % 2 ^ 32)) h rfl
    obtain ⟨hcas, -, hcasFail⟩ := goesAs_atomic (i := .atcas c rd rs rt ru)
      (op := fun k => .cas ((k.get rt).toNat % 2 ^ 32) ((k.get ru).toNat % 2 ^ 32)) h rfl
    refine ⟨fun halign hmem hwaits s1 old hread => ⟨fun hop => ?_, fun p hp hop hserved hstamp => ?_⟩, fun halign i hi => ?_⟩
    · have hwrite := fun op => State.atomicAccess_of_read (op := op) halign hmem hwaits hread hop
      exact ⟨fun s2 v hstore => hadd s2 old ((hwrite _).trans (State.atomicWrite_of_store rfl hstore)),
        fun s2 v hstore => hswap s2 old ((hwrite _).trans (State.atomicWrite_of_store rfl hstore)),
        fun heq s2 v hstore => hcas s2 old ((hwrite _).trans (State.atomicWrite_of_store (LaneOp.new_cas_of_eq heq) hstore)),
        fun hne hgood => hcas s1 old ((hwrite _).trans (State.atomicWrite_of_keep (LaneOp.new_cas_of_ne hne) hgood))⟩
    · have hok := fun op hop => State.atomicAccess_of_served (op := op) halign hmem hwaits hread hop hserved
      simp only [List.mem_cons, List.not_mem_nil, or_false] at hp
      rcases hp with rfl | rfl | rfl
      · exact hadd s1 old (hok _ hop) hstamp
      · exact hswap s1 old (hok _ hop) hstamp
      · exact hcas s1 old (hok _ hop) hstamp
    · simp only [List.mem_cons, List.not_mem_nil, or_false] at hi
      rcases hi with rfl | rfl | rfl
      · exact haddFail 2 (atomicAccess_of_misaligned halign)
      · exact hswapFail 2 (atomicAccess_of_misaligned halign)
      · exact hcasFail 2 (atomicAccess_of_misaligned halign)

end Sys2Proof.Machine
end

section

/-!
## A lane of the own slice

A tile core that accesses its own slice, outside the output windows of the running table and behind no posted store, finds what has
committed, and what it stores is written at once.
-/

namespace Sys2Proof.Machine

section
variable {s : State} {t : Nat} {k : Core} {a : Nat}

/-- A lane of the own slice that waits for nothing. -/
structure OwnLane (s : State) (t : Nat) (k : Core) (a : Nat) : Prop where
  aligned : a % 4 = 0
  low : a < 2 ^ 24
  inside : a + 4 ≤ 32 * s.sliceLines t
  outside : s.winWaits t (.slice t (a / 32)) = false
  heldStores : k.heldStores = []
  served : k.served = []
  waitOp : k.waitOp = none
  allowed : k.allowed 0 = true
  up : s.tileUp t = true

theorem OwnLane.extAt (h : OwnLane s t k a) : extAt (.tile t) k a = some (0, .slice t a) := if_pos h.low

theorem OwnLane.extBad (h : OwnLane s t k a) (wr : Bool) : s.extBad (.tile t) k a wr = false := by
  have hin := h.inside
  simp [State.extBad, h.extAt, h.allowed, h.up, State.tilesMeet, State.halvesMeet]
  omega

theorem OwnLane.extRead (h : OwnLane s t k a) (cached : Bool) :
    s.extRead (.tile t) k a cached = .ok s (leNat (s.committedSlice t a 4)) := by
  simp [State.extRead, h.aligned, h.extBad, h.heldStores, h.extAt, State.loadSlice, Core.servedLane, h.served, h.outside]

/-- A store of the core that the state holds. -/
theorem OwnLane.extStore (h : OwnLane s t k a) (hcore : s.core (.tile t) = k) (v : Nat) :
    s.extStore (.tile t) k a v false = .ok (s.writeN (kSlice t a) 4 v) 0 := by
  simp [State.extStore, h.aligned, h.extBad, h.heldStores, h.extAt, State.storeSlice, State.ownWindow, h.outside, hcore]

/-- An atomic reads the lane, and writes what its operation makes of it. -/
theorem OwnLane.atomicAccess (h : OwnLane s t k a) (op : Core → LaneOp) : State.atomicAccess (.tile t) a op s k =
    s.atomicWrite (.tile t) k a (op k) s (leNat (s.committedSlice t a 4)) :=
  State.atomicAccess_of_read h.aligned (by simp [extAtomic, h.extAt]) (by simp [State.atomicWaits, h.extAt]) (h.extRead false) h.waitOp

theorem OwnLane.atomicWrite (h : OwnLane s t k a) (hcore : s.core (.tile t) = k) {op : LaneOp} {old v : Nat}
    (hnew : op.new old = some v) : s.atomicWrite (.tile t) k a op s old = .ok (s.writeN (kSlice t a) 4 v) old :=
  State.atomicWrite_of_store hnew (by rw [hcore]; exact h.extStore hcore v)

end

theorem leNat_lt (bs : List Byte) : leNat bs < 256 ^ bs.length := by
  induction bs with
  | nil => simp [leNat]
  | cons b t ih =>
    have hb : b.toNat < 256 := b.isLt
    rw [leNat, List.length_cons, Nat.pow_succ]
    omega

theorem State.committedLane_lt (s : State) (t a : Nat) : leNat (s.committedSlice t a 4) < 2 ^ 32 := by
  have hlt := leNat_lt (s.committedSlice t a 4)
  rwa [State.committedSlice, List.length_map, List.length_range] at hlt

/-- A tile core that is ready belongs to a tile in service. -/
theorem Ready.tileUp {s : State} {t : Nat} {long : Bool} (h : Ready s (.tile t) long) : s.tileUp t = true := by
  obtain ⟨hruns, -, -, -⟩ := h
  simp only [State.coreRuns, Bool.and_eq_true] at hruns
  obtain ⟨⟨⟨hup, -⟩, -⟩, -⟩ := hruns
  exact hup

/-- An instruction whose access is done and leaves the core as the instruction has begun it. -/
theorem GoesAs.exec_of_ok {i : Instr} {s s' : State} {c : CoreId} {long : Bool} {a v : Nat} {op : Option LaneOp} {r : ExtRes}
    {done : Core → Nat → Core} (h : GoesAs i s c long a op r done) (hr : r = .ok s' v) (hcore : s'.core c = s.begun c) :
    exec i s = .next (s'.accessedAs c long (done (s.begun c) v)) := by
  obtain ⟨hok, -, -⟩ := h
  rw [hok s' v hr (congrArg Core.pmStamp hcore), hcore]

theorem ohmOwnSlice : Clauses.OhmOwnSlice := by
  intro s t rd rs rt ru imm o c k s0 offset at_ free old hwf
  have hat : at_ = laneAddr k rs := by
    funext o
    cases o <;> rfl
  have hcore : s0.core c = k := Cells.getD_set_self _ _ _ _ hwf
  have hlane : ∀ {l a}, Ready s c l → free a → OwnLane s0 t k a := by
    rintro l a h ⟨haligned, hlow, hinside, houtside, hheld, hserved, hop, hallowed⟩
    exact ⟨haligned, hlow, hinside, houtside, hheld, hserved, hop, by simpa [Core.allowed] using hallowed, h.tileUp⟩
  rw [hat]
  refine ⟨fun p hp h hfree => ?_, fun p hp h hfree => ?_, fun h => ?_⟩
  · have hread := (hlane h hfree).extRead true
    simp only [List.mem_cons, List.not_mem_nil, or_false] at hp
    rcases hp with rfl | rfl | rfl
    · exact (goesAs_laneLoad (f := fun v => v) h rfl).exec_of_ok hread hcore
    · simp only [← ofNat_wrap]
      exact (goesAs_laneLoad (f := fun v => wrap 36 (sext 32 v)) h rfl).exec_of_ok hread hcore
    · have hload := (goesAs_laneLoad (i := .ldf c rd rs imm) (f := unpack36 0xA) h rfl).exec_of_ok hread hcore
      simp only [unpack36_lane, Nat.mod_eq_of_lt (State.committedLane_lt _ _ _)] at hload
      exact hload
  · have hstore := (hlane h hfree).extStore hcore
    simp only [List.mem_cons, List.not_mem_nil, or_false] at hp
    rcases hp with rfl | rfl
    · exact (goesAs_stl h).exec_of_ok (hstore _) hcore
    · exact (goesAs_stf h).exec_of_ok (hstore _) hcore
  · intro b v hfree
    have hown := hlane h hfree
    have hwrite := fun op w hnew => (hown.atomicAccess op).trans (hown.atomicWrite hcore (v := w) hnew)
    refine ⟨fun p hp => ?_, ?_⟩
    · simp only [List.mem_cons, List.not_mem_nil, or_false] at hp
      rcases hp with rfl | rfl
      · exact (goesAs_atomic (op := fun k => .add (k.get rt).toNat) h rfl).exec_of_ok (hwrite _ _ rfl) hcore
      · exact (goesAs_atomic (op := fun k => .swap ((k.get rt).toNat % 2 ^ 32)) h rfl).exec_of_ok (hwrite _ _ rfl) hcore
    · have hcas := goesAs_atomic (i := .atcas c rd rs rt ru)
        (op := fun k => .cas ((k.get rt).toNat % 2 ^ 32) ((k.get ru).toNat % 2 ^ 32)) h rfl
      split
      · next heq => exact hcas.exec_of_ok (hwrite _ _ (LaneOp.new_cas_of_eq heq)) hcore
      · next hne =>
        exact hcas.exec_of_ok ((hown.atomicAccess _).trans
          (State.atomicWrite_of_keep (LaneOp.new_cas_of_ne hne) (hown.extBad true))) hcore

end Sys2Proof.Machine
end

section

/-!
## Block instructions

A block instruction that runs from its start to its end carries its granules out one after another, each from what the granules
before it have left.
-/

namespace Sys2Proof.Machine

/-! ### Operands and granules -/

theorem blkGranule_pos (fmt : Nat) : 0 < blkGranule fmt := by
  unfold blkGranule
  split
  · decide
  · split <;> decide

/-- Operands that break no rule have a count of whole granules (R179). -/
theorem blkGranule_dvd_of_blkBad {d a b : Word36} (h : blkBad d a b = none) :
    blkGranule (d.toNat / 2 ^ 24 % 16) ∣ d.toNat % 2 ^ 24 := by
  by_contra hdvd
  have hrule : d.toNat % 2 ^ 24 % blkGranule (bits d.toNat 24 4) ≠ 0 := fun h => hdvd (Nat.dvd_of_mod_eq_zero h)
  simp only [blkBad, if_pos hrule] at h
  split at h <;> cases h

theorem blkBad_of_descriptor {d a b : Word36}
    (h : 2 ^ 29 ≤ d.toNat ∨ 10 < bits d.toNat 24 4 ∨ d.toNat % 2 ^ 24 % blkGranule (bits d.toNat 24 4) ≠ 0) :
    blkBad d a b = some d := by
  rw [← or_assoc] at h
  simp only [blkBad]
  rcases h with h | h
  · rw [if_pos h]
  · rw [if_pos h, ite_self]

section
variable {s : State} {n g : Nat} {elem : State → Core → Nat → State × Core × Option (Option (Nat × Word36))} {f : Nat → State × Core}

/-- Each granule before the end is carried out from what those before it have left. -/
def CarriesOut (n g : Nat) (elem : State → Core → Nat → State × Core × Option (Option (Nat × Word36))) (f : Nat → State × Core) :
    Prop :=
  ∀ j, j * g < n → ∃ k', elem (f j).1 (f j).2 (j * g) = ((f (j + 1)).1, k', none) ∧ (f (j + 1)).2 = { k' with extWait := false }

/-- The end of a block instruction: cont becomes 0, and it retires. -/
def blkEnd (x : State × Core) : State × CRes := ((x.1.stall { x.2 with cont := 0 }).1, .done (x.1.stall { x.2 with cont := 0 }).2)

theorem blkRun_of_not_lt {k : Core} {i : Nat} (fuel : Nat) (h : ¬i < n) : blkRun n g elem fuel s k i = blkEnd (s, k) := by
  cases fuel <;> simp [blkRun, h, blkEnd]

/-- Granules that are carried out, from granule j on, with as many of them as remain, reach the end. -/
theorem blkRun_of_carriesOut (hdvd : g ∣ n) (hpos : 0 < g) (h : CarriesOut n g elem f) (m j : Nat) (hj : j * g ≤ n) (hm : n ≤ (j + m) * g) :
    blkRun n g elem m (f j).1 (f j).2 (j * g) = blkEnd (f (n / g)) := by
  obtain ⟨q, rfl⟩ := hdvd
  have hq : g * q / g = q := Nat.mul_div_cancel_left q hpos
  rw [hq]
  have hle : ∀ i, i * g ≤ g * q ↔ i ≤ q := fun i => by rw [Nat.mul_comm g q]; exact Nat.mul_le_mul_right_iff hpos
  have hlt : ∀ i, i * g < g * q ↔ i < q := fun i => by rw [Nat.mul_comm g q]; exact Nat.mul_lt_mul_right hpos
  have hge : ∀ i, g * q ≤ i * g ↔ q ≤ i := fun i => by rw [Nat.mul_comm g q]; exact Nat.mul_le_mul_right_iff hpos
  rw [hle] at hj
  rw [hge] at hm
  induction m generalizing j with
  | zero =>
    obtain rfl : j = q := by omega
    exact blkRun_of_not_lt 0 (by rw [hlt]; omega)
  | succ m ih =>
    by_cases hend : j = q
    · subst hend
      exact blkRun_of_not_lt _ (by rw [hlt]; omega)
    · have hmore : j * g < g * q := (hlt j).mpr (by omega)
      obtain ⟨k', helem, hcore⟩ := h j hmore
      rw [blkRun, if_pos hmore, helem]
      dsimp only
      rw [← hcore, ← Nat.succ_mul]
      exact ih (j + 1) (by omega) (by omega)

end

/-! ### The instructions -/

section
variable {s : State} {c : CoreId} {k : Core} {rd rs rt ru upto : Nat} {bad : Core → Option Word36}
  {elem : Core → State → Core → Nat → State × Core × Option (Option (Nat × Word36))}

/-- The body of BLKLD and BLKST: the operands are tested, and then the granules run. -/
def blkBody (rd upto : Nat) (bad : Core → Option Word36)
    (elem : Core → State → Core → Nat → State × Core × Option (Option (Nat × Word36))) (s : State) (k : Core) : State × CRes :=
  match bad k with
  | some v => badOperand s k v
  | none =>
    blkRun ((k.get rd).toNat % 2 ^ 24) (blkGranule (bits (k.get rd).toNat 24 4)) (elem k) upto s (k.cwClear 0x004) k.resumeAt

theorem exec_blkld (c : CoreId) (rd rs rt ru upto : Nat) (s : State) : exec (.blkld c rd rs rt ru upto) s =
    .next (s.runWith c true true (blkBody rd upto (fun k => blkBad (k.get rd) (k.get rs) (k.get ru))
      (fun k => blkldElem c (bits (k.get rd).toNat 24 4) (k.get rs) (k.get rt) (k.get ru)))) := rfl

theorem exec_blkst (c : CoreId) (rd rs rt ru upto : Nat) (s : State) : exec (.blkst c rd rs rt ru upto) s =
    .next (s.runWith c true true (blkBody rd upto (fun k => blkBad (k.get rd) (k.get rt) (k.get ru))
      (fun k => blkstElem c (bits (k.get rd).toNat 24 4) (bitN (k.get rd).toNat 28) (k.get rs) (k.get rt) (k.get ru)))) := rfl

theorem blkBody_of_bad {v : Word36} (h : bad k = some v) : blkBody rd upto bad elem s k = badOperand s k v := by
  rw [blkBody, h]

/-- A block instruction from its start to its end; the descriptor and the granule are what the registers hold. -/
theorem blkBody_of_carriesOut {d : Word36} {granule : State → Core → Nat → State × Core × Option (Option (Nat × Word36))}
    {f : Nat → State × Core} (hd : k.get rd = d) (helem : elem k = granule) (hgood : bad k = none) (hcv : k.cv = false)
    (hdvd : blkGranule (bits d.toNat 24 4) ∣ d.toNat % 2 ^ 24) (hupto : d.toNat % 2 ^ 24 ≤ upto * blkGranule (bits d.toNat 24 4))
    (hstart : f 0 = (s, k.cwClear 0x004)) (hruns : CarriesOut (d.toNat % 2 ^ 24) (blkGranule (bits d.toNat 24 4)) granule f) :
    blkBody rd upto bad elem s k = blkEnd (f (d.toNat % 2 ^ 24 / blkGranule (bits d.toNat 24 4))) := by
  have hresume : k.resumeAt = 0 := by simp [Core.resumeAt, hcv]
  rw [blkBody, hgood, hd, helem, hresume]
  have hrun := blkRun_of_carriesOut hdvd (blkGranule_pos _) hruns upto 0 (by omega) (by rwa [Nat.zero_add])
  rwa [hstart, Nat.zero_mul] at hrun

/-- An instruction of that body retires what the body leaves. -/
theorem exec_of_blkBody {i : Instr} {x : State × CRes} (h : Ready s c true)
    (hexec : exec i s = .next (s.runWith c true true (blkBody rd upto bad elem))) (hbody : blkBody rd upto bad elem s (s.awake c) = x) :
    exec i s = .next (x.1.retire c true x.2) := by
  rw [hexec, State.runWith_of_ready h, show s.bodyCore c true = s.awake c from rfl, hbody]

end

theorem ohmBlock : Clauses.OhmBlock := by
  intro s c rd rs rt ru upto h k d n fmt g runs end_ bad
  refine ⟨fun hgood hcv hupto f hruns => ?_, fun hgood hcv hupto f hruns => ?_, fun v hv => ?_, fun v hv => ?_,
    fun a b hd => blkBad_of_descriptor hd⟩
  · obtain ⟨hstart, hsteps⟩ := hruns
    exact exec_of_blkBody h (exec_blkld c rd rs rt ru upto s)
      (blkBody_of_carriesOut rfl rfl hgood hcv (blkGranule_dvd_of_blkBad hgood) hupto hstart hsteps)
  · obtain ⟨hstart, hsteps⟩ := hruns
    exact exec_of_blkBody h (exec_blkst c rd rs rt ru upto s)
      (blkBody_of_carriesOut rfl rfl hgood hcv (blkGranule_dvd_of_blkBad hgood) hupto hstart hsteps)
  · exact exec_of_blkBody h (exec_blkld c rd rs rt ru upto s) (blkBody_of_bad hv)
  · exact exec_of_blkBody h (exec_blkst c rd rs rt ru upto s) (blkBody_of_bad hv)

/-- Settles O10: the accesses as they go, those to the own slice, and the block instructions. -/
theorem ohmLanesAndBlocks : Obligations.OhmLanesAndBlocks := ⟨ohmLanes, ohmOwnSlice, ohmBlock⟩

end Sys2Proof.Machine
end

section

/-!
## Routes, probes and placement

One lemma for each way in which an LSTATE symbol, a probe or its timeout, and a change of the routes can end. A symbol that
is newer than the link map's entry is told from one that is not by one comparison of sequence numbers; the port of a
computed route is read off the hops that leave this module.
-/

namespace Sys2Proof.Machine

section
variable {s : State} {d mid p seq target : Nat} {up : Bool}

/-! ### Placement -/

theorem exec_placeValidWrite (v : Bool) (s : State) : exec (.placeValidWrite v) s =
    .next (({ s with gate := { s.gate with placeAsk := v } } : State).setRg Rg.place_PLACE_VALID 0 (ofBool v)) := rfl

/-- PLACE_VALID has one bit, which holds what is written. -/
theorem State.rg_placeValid_setRg (v : Bool) (hwf : Cells.wf s.regs = true) :
    (s.setRg Rg.place_PLACE_VALID 0 (ofBool v)).rg Rg.place_PLACE_VALID = ofBool v := by
  rw [State.rg_setRg_self _ _ _ _ hwf]
  cases v <;> rfl

/-! ### LSTATE symbols -/

/-- A sequence number of an LSTATE symbol is newer than that of an entry of the link map, modulo 4,096. -/
def NewerLstate (seq : Nat) (e : Bool × Nat) : Prop := 0 < (seq + 4096 - e.2) % 4096 ∧ (seq + 4096 - e.2) % 4096 < 2048

theorem exec_lstateSymbol (d mid p : Nat) (up : Bool) (seq : Nat) (s : State) :
    exec (.lstateSymbol d mid p up seq) s = .next (s.lstateSym d mid p up seq) := rfl

theorem State.lstateSym_of_newer (hmid : mid ≠ s.rg Rg.beat_MID)
    (hnew : ∀ e, s.dv.linkMap.get? (32 * mid + p) = some e → NewerLstate seq e) :
    s.lstateSym d mid p up seq =
      ((({ s with dv := { s.dv with linkMap := s.dv.linkMap.put (32 * mid + p) (up, seq) } } : State).flood
        (lstateWord mid p (ofBool up) seq)).echoed d mid p seq).reroute := by
  refine if_neg (not_or.mpr ⟨hmid, ?_⟩)
  split
  · simp
  · next e hentry => simpa [NewerLstate] using hnew e hentry

theorem State.lstateSym_of_own (hmid : mid = s.rg Rg.beat_MID) : s.lstateSym d mid p up seq = s.echoed d mid p seq := by
  simp [State.lstateSym, hmid]

theorem State.lstateSym_of_not_newer {e : Bool × Nat} (hentry : s.dv.linkMap.get? (32 * mid + p) = some e)
    (hold : ¬NewerLstate seq e) : s.lstateSym d mid p up seq = s.echoed d mid p seq := by
  rw [NewerLstate] at hold
  simp only [State.lstateSym, hentry, hold, decide_false, or_true, if_true]

/-- A port whose symbols have all come back has none to take off its list. -/
theorem State.echoed_of_none_due (h : (s.port d).unechoed = []) : s.echoed d mid p seq = s := by
  simp [State.echoed, h]

/-! ### Probes -/

theorem exec_probeTimeout_of_master (hmaster : s.isMaster = true) : exec (.probeTimeout target) s =
    .next { s with dv := { s.dv with missed := s.dv.missed.set 0 target (s.dv.missed.getD 0 target + 1) } } :=
  if_pos hmaster

theorem exec_probeTimeout_of_not_master (hmaster : s.isMaster = false) : exec (.probeTimeout target) s = .next s :=
  if_neg (by simp [hmaster])

theorem exec_probeSend_of_master (hmaster : s.isMaster = true) : exec .probeSend s =
    .next ((s.members.filter (fun m => m != s.rg Rg.beat_MID && !s.standby m)).foldl
      (fun t m => t.hop m 9 (probeWord m (s.rg Rg.beat_MID) ((s.dv.tag + 1) % 256)))
      { s with dv := { s.dv with tag := (s.dv.tag + 1) % 256 } }) :=
  if_pos hmaster

theorem exec_probeSend_of_not_master (hmaster : s.isMaster = false) : exec .probeSend s = .next s :=
  if_neg (by simp [hmaster])

theorem exec_probeSymbol (d target origin tag : Nat) (s : State) :
    exec (.probeSymbol d target origin tag) s = .next (s.probeSym d target origin tag) := rfl

theorem exec_probeReply_of_port (origin tag : Nat) (hd : d < 24) :
    exec (.probeReply d target origin tag) s = .next (s.replySym target origin tag) := if_pos hd

theorem exec_probeReply_of_no_port (origin tag : Nat) (hd : 24 ≤ d) : exec (.probeReply d target origin tag) s = .next s :=
  if_neg (by omega)

/-- Two misses in a row make a member unreachable, whatever the link map shows. -/
theorem State.unreachable_of_misses (h : 2 ≤ s.dv.missed.getD 0 target) : s.unreachable target = true := by
  simp [State.unreachable, h]

theorem State.unreachable_eq_false_iff :
    s.unreachable target = false ↔ s.dv.missed.getD 0 target < 2 ∧ s.pathTo target = true := by
  simp [State.unreachable]

/-! ### The computed routes -/

theorem State.reroute_of_not_due (h : s.flag Rg.dvorar_AUTO_EN = false ∨ s.unrouted = []) : s.reroute = s := by
  refine if_pos ?_
  rcases h with h | h <;> simp [h]

theorem State.reroute_asks_swap (hauto : s.flag Rg.dvorar_AUTO_EN = true) (hbad : s.unrouted ≠ []) :
    s.reroute.dv.swapPend = true := by
  have hdue : ¬(!s.flag Rg.dvorar_AUTO_EN || s.unrouted.isEmpty) = true := by simp [hauto, hbad]
  simp only [State.reroute, hdue, if_false, Bool.false_eq_true]

/-- A port of this module that a route may name. -/
def State.portServes (s : State) (q : Nat) : Prop := q < 24 ∧ s.linkUp q = true ∧ (s.port q).barred = false

/-- A hop that leaves this module leaves by a port that serves, unless a port of this module leads back to it. -/
theorem State.portServes_of_linkHop {h : Hop} (hpeer : ∀ q, q < 24 → s.rg Rg.dvport_PEER_MID q ≠ s.rg Rg.beat_MID)
    (hmem : h ∈ s.linkHops) (hfrom : h.from_ = s.rg Rg.beat_MID) : s.portServes h.port := by
  simp only [State.linkHops, List.mem_append, List.mem_map, List.mem_filter, List.mem_range, Bool.and_eq_true,
    Bool.not_eq_true', List.mem_filterMap] at hmem
  obtain (⟨q, ⟨hq, hup, hbarred⟩, rfl⟩ | ⟨_, ⟨q, ⟨hq, -⟩, rfl⟩, rfl⟩) | ⟨e, -, hfar⟩ := hmem
  case inl.inl => exact ⟨hq, hup, hbarred⟩
  case inl.inr => exact absurd hfrom (hpeer q hq)
  case inr =>
    split at hfar
    · cases hfar
    · rename_i hother
      cases hfar
      exact absurd (Or.inr (Or.inl hfrom)) hother

/-- A port picked for a route is that of one of the hops to choose from, which leaves the module. -/
theorem exists_hop_of_pick {hs : List Hop} {p : Hop → Bool} {l : List (Nat × Nat)} {me k q : Nat}
    (hpick : (List.range 24).find? (fun d => (hs.filter p).any (fun h => h.from_ == me && h.port == d &&
      label l h.dest == some k)) = some q) : ∃ h ∈ hs, h.from_ = me ∧ h.port = q := by
  have hany := List.find?_some hpick
  simp only [List.any_eq_true, Bool.and_eq_true, beq_iff_eq] at hany
  obtain ⟨h, hmem, ⟨hfrom, hport⟩, -⟩ := hany
  exact ⟨h, List.mem_of_mem_filter hmem, hfrom, hport⟩

/-- The port of a route is that of a hop which leaves this module: down where a way leads down, else up. -/
theorem State.exists_linkHop_of_upDown {m q : Nat} (hroute : s.upDown m = some q) :
    ∃ h ∈ s.linkHops, h.from_ = s.rg Rg.beat_MID ∧ h.port = q := by
  simp only [State.upDown] at hroute
  split at hroute
  · exact exists_hop_of_pick hroute
  · exact exists_hop_of_pick hroute
  · cases hroute

/-! ### The swap of the banks -/

theorem exec_routeSwap (s : State) : exec .routeSwap s = .next { s with dv := { s.dv with swapPend := true } } := rfl

/-- A pending swap makes the other bank the active one. -/
def State.swapped (s : State) : State :=
  if s.dv.swapPend then
    ({ s with dv := { s.dv with swapPend := false } } : State).setRg Rg.dvorar_ACTIVE 0 (1 - s.rg Rg.dvorar_ACTIVE)
  else s

/-- A port that is UP again rejoins the lists. -/
def State.rejoin (s : State) (d : Nat) : State :=
  if (s.port d).barred && s.linkUp d then s.setPort d { s.port d with barred := false } else s

theorem State.routeTick_eq (s : State) : s.routeTick = (List.range 24).foldl State.rejoin s.swapped := rfl

theorem State.rejoin_regs (s : State) (d : Nat) : (s.rejoin d).regs = s.regs := by
  unfold State.rejoin; split <;> rfl

theorem State.rejoin_swapPend (s : State) (d : Nat) : (s.rejoin d).dv.swapPend = s.dv.swapPend := by
  unfold State.rejoin; split <;> rfl

/-- The ports that rejoin at a tick leave the registers and the request for a swap as they are. -/
theorem State.foldl_rejoin (ds : List Nat) (s : State) :
    (ds.foldl State.rejoin s).regs = s.regs ∧ (ds.foldl State.rejoin s).dv.swapPend = s.dv.swapPend := by
  induction ds generalizing s with
  | nil => exact ⟨rfl, rfl⟩
  | cons d ds ih =>
    obtain ⟨hregs, hpend⟩ := ih (s.rejoin d)
    exact ⟨hregs.trans (s.rejoin_regs d), hpend.trans (s.rejoin_swapPend d)⟩

theorem State.routeTick_of_swapPend (hinv : s.Inv) (hpend : s.dv.swapPend = true) :
    s.routeTick.rg Rg.dvorar_ACTIVE = 1 - s.rg Rg.dvorar_ACTIVE ∧ s.routeTick.dv.swapPend = false := by
  have hswapped : s.swapped =
      ({ s with dv := { s.dv with swapPend := false } } : State).setRg Rg.dvorar_ACTIVE 0 (1 - s.rg Rg.dvorar_ACTIVE) :=
    if_pos hpend
  obtain ⟨hregs, hkept⟩ := State.foldl_rejoin (List.range 24) s.swapped
  rw [State.routeTick_eq]
  constructor
  · have hwidth : 1 - s.rg Rg.dvorar_ACTIVE < 2 ^ Rg.dvorar_ACTIVE.w := by
      change 1 - s.rg Rg.dvorar_ACTIVE < 2
      omega
    calc ((List.range 24).foldl State.rejoin s.swapped).rg Rg.dvorar_ACTIVE
      _ = s.swapped.rg Rg.dvorar_ACTIVE := by simp only [State.rg, State.copyOf, hregs]
      _ = 1 - s.rg Rg.dvorar_ACTIVE := by
          rw [hswapped]
          exact (State.rg_setRg_self _ _ _ _ hinv.2).trans (Nat.mod_eq_of_lt hwidth)
  · rw [hkept, hswapped, State.setRg_dv]

/-- With SPREAD 1 a packet takes the port of an entry with two usable ones by its PSN. -/
theorem State.choose_of_two_usable {q : DvPkt} {x y : Nat}
    (hvalid : bitN (s.route (s.rg Rg.dvorar_ACTIVE) q.dst) 22 = true)
    (husable : s.usable (s.route (s.rg Rg.dvorar_ACTIVE) q.dst) = [x, y])
    (hspread : bits (s.route (s.rg Rg.dvorar_ACTIVE) q.dst) 20 2 = 1) :
    s.choose q = some (if q.psn % 2 = 0 then x else y) := by
  simp only [State.choose, hvalid, husable, hspread]
  rcases Nat.mod_two_eq_zero_or_one q.psn with h | h <;> simp [h]

end

/-- Settles O34: the lemmas above together. -/
theorem routesAndProbes : Obligations.RoutesAndProbes := by
  intro s d mid p seq target origin tag up v hinv i new noted
  refine ⟨⟨_, exec_placeValidWrite v s, State.setRg_gate .., State.rg_placeValid_setRg v hinv.2, State.setRg_mem ..⟩,
    fun hmid hnew => ?newer, ?stale, State.echoed_of_none_due, fun hmaster hwf hmiss => ?misses,
    State.unreachable_eq_false_iff.mp, State.reroute_of_not_due, State.reroute_asks_swap, fun hpeer q hroute => ?port,
    exec_probeReply_of_no_port origin tag, exec_probeSend_of_master,
    fun h => ⟨exec_probeSend_of_not_master h, exec_probeTimeout_of_not_master h⟩, ?target, ?passed, ?answered, ?returned,
    exec_probeTimeout_of_master, exec_routeSwap s, fun hpend _ => State.routeTick_of_swapPend hinv hpend, ?chosen⟩
  case newer => rw [exec_lstateSymbol, State.lstateSym_of_newer hmid hnew]
  case stale =>
    rintro (hown | ⟨e, hentry, hold⟩)
    · rw [exec_lstateSymbol, State.lstateSym_of_own hown]
    · rw [exec_lstateSymbol, State.lstateSym_of_not_newer hentry hold]
  case misses =>
    refine ⟨_, exec_probeTimeout_of_master hmaster, State.unreachable_of_misses ?_⟩
    rw [Cells.getD_set_self _ _ _ _ hwf]
    omega
  case port =>
    obtain ⟨h, hmem, hfrom, rfl⟩ := State.exists_linkHop_of_upDown hroute
    exact State.portServes_of_linkHop hpeer hmem hfrom
  case target => exact fun h => congrArg Host.Outcome.next (if_pos h)
  case passed => exact fun h => congrArg Host.Outcome.next (if_neg h)
  case answered => exact fun hd h => (exec_probeReply_of_port origin tag hd).trans (congrArg Host.Outcome.next (if_pos h))
  case returned => exact fun hd h => (exec_probeReply_of_port origin tag hd).trans (congrArg Host.Outcome.next (if_neg h))
  case chosen =>
    rintro q e - - rfl hvalid x y husable hspread
    exact State.choose_of_two_usable hvalid husable hspread

end Sys2Proof.Machine
end

section

/-!
## What functions own: the requests of the management ring

A command of the management ring is a function of the front request, and one rule turns what that function gives into the
command's answer. For each command it is then shown that fields in range pass its first test, and what each later test
leads to.
-/

namespace Sys2Proof.Machine

section
variable {s t : State} {slot st op : Nat} {q res : List Byte} {i : Instr} {fields : List (Nat × Nat)}
  {f : State → List Byte → Nat × State × List Byte}

/-! ### The answer to a request -/

/-- The front request of a management command is answered by what the command's function gives for it. -/
theorem State.manage_of_asked (hask : Asked s op fields slot q) :
    s.manage op fields f = (if (f s q).1 = 0 then (f s q).2.1 else s).mrReply slot (f s q).1 (f s q).2.2 := by
  obtain ⟨hfront, hop, hzero⟩ := hask
  simp [State.manage, hfront, hop, hzero]

/-- A command that is done answers STATUS 0 in the state of its effect. -/
theorem Answers.of_effect (hexec : exec i s = .next (s.manage op fields f)) (hask : Asked s op fields slot q)
    (heffect : f s q = (0, t, res)) : Answers i s t slot 0 res := by
  rw [Answers, hexec, State.manage_of_asked hask, heffect, if_pos rfl]

/-- A command that is refused answers its STATUS and has no effect. -/
theorem Answers.of_refuse (hexec : exec i s = .next (s.manage op fields f)) (hask : Asked s op fields slot q)
    (hrefuse : f s q = s.refuse st) : Answers i s s slot st [] := by
  rw [Answers, hexec, State.manage_of_asked hask, hrefuse]
  exact congrArg (fun u : State => Host.Outcome.next (u.mrReply slot st [])) (ite_self s)

/-! ### Plots and grants -/

theorem isPlot_of_range {p : Nat} (hlo : 1 ≤ p) (hhi : p < 128) : isPlot p = true := by simp [isPlot, hlo, hhi]

theorem plotCreate_answers (hask : Asked s 0x01 [(8, 1)] slot q) (hlo : 1 ≤ fieldAt q 8 1) (hhi : fieldAt q 8 1 < 128) :
    (s.plotState (fieldAt q 8 1) = 0 →
      Answers .plotCreate s ((s.plotClear (fieldAt q 8 1)).setPlot (fieldAt q 8 1) 1) slot 0 []) ∧
    (s.plotState (fieldAt q 8 1) ≠ 0 → Answers .plotCreate s s slot 4 []) := by
  have hrange : ¬(!isPlot (fieldAt q 8 1)) = true := by simp [isPlot_of_range hlo hhi]
  constructor
  · intro habsent
    exact .of_effect rfl hask ((if_neg hrange).trans (if_neg (not_not.mpr habsent)))
  · intro hexists
    exact .of_refuse rfl hask ((if_neg hrange).trans (if_pos hexists))

/-- A function has a ring of kind 2 or above. -/
def State.hasHighRing (s : State) (p : Nat) : Bool :=
  (List.range 32).any (fun r => match s.ring p r with
    | some g => decide (2 ≤ g.kind)
    | none => false)

theorem State.hasHighRing_eq_false_iff (p : Nat) :
    s.hasHighRing p = false ↔ ∀ r g, r < 32 → s.ring p r = some g → g.kind < 2 := by
  simp only [State.hasHighRing, List.any_eq_false, List.mem_range]
  constructor
  · intro h r g hr hring
    simpa [hring] using h r hr
  · intro h r hr
    cases hring : s.ring p r with
    | none => simp
    | some g => simpa using h r g hr hring

theorem hbmGrant_answers (hask : Asked s 0x02 [(8, 1), (9, 1), (16, 8), (24, 8)] slot q) (hlo : 1 ≤ fieldAt q 8 1)
    (hhi : fieldAt q 8 1 < 128) (hn : fieldAt q 9 1 ≤ 7) (hbase : fieldAt q 16 8 % 2 ^ 21 = 0)
    (hlen : fieldAt q 24 8 % 2 ^ 21 = 0) (hfits : fieldAt q 16 8 + fieldAt q 24 8 ≤ s.hbmBytes) :
    let p := fieldAt q 8 1
    let may : Prop := s.plotState p = 3 ∨ (s.plotState p = 1 ∧ ∀ r g, r < 32 → s.ring p r = some g → g.kind < 2)
    (may → Answers .hbmGrant s { s with host := { s.host with
      grants := if fieldAt q 24 8 = 0 then s.host.grants.del (8 * p + fieldAt q 9 1)
        else s.host.grants.put (8 * p + fieldAt q 9 1) (fieldAt q 16 8, fieldAt q 24 8) } } slot 0 []) ∧
    (¬may → Answers .hbmGrant s s slot 4 []) := by
  intro p may
  have hrange : ¬(!isPlot p || decide (7 < fieldAt q 9 1) || fieldAt q 16 8 % 2 ^ 21 != 0
      || fieldAt q 24 8 % 2 ^ 21 != 0 || decide (s.hbmBytes < fieldAt q 16 8 + fieldAt q 24 8)) = true := by
    rw [isPlot_of_range hlo hhi, hbase, hlen]
    simp [hn, hfits]
  have hmay : may ↔ s.plotState p = 3 ∨ (s.plotState p = 1 ∧ s.hasHighRing p = false) := by
    rw [State.hasHighRing_eq_false_iff]
  exact ⟨fun h => .of_effect rfl hask ((if_neg hrange).trans (if_pos (hmay.mp h))),
    fun h => .of_refuse rfl hask ((if_neg hrange).trans (if_neg (mt hmay.mpr h)))⟩

/-! ### Rings -/

/-- The ring that RING_CREATE asks for. -/
def ringAsked (q : List Byte) : Ring :=
  { kind := fieldAt q 10 1, log2 := fieldAt q 11 1, eq := fieldAt q 12 1, port := fieldAt q 13 1, queue := fieldAt q 14 1,
    base := fieldAt q 16 8, u := fieldAt q 24 2, f := fieldAt q 24 2, p := fieldAt q 24 2 }

theorem ringCreate_answers
    (hask : Asked s 0x03 [(8, 1), (9, 1), (10, 1), (11, 1), (12, 1), (13, 1), (14, 1), (16, 8), (24, 2)] slot q)
    (hfn : fieldAt q 8 1 < 128) (hr : fieldAt q 9 1 < ringCount (fieldAt q 8 1)) (hkind : (ringAsked q).kind ≤ 5)
    (hlo : 6 ≤ (ringAsked q).log2) (hhi : (ringAsked q).log2 ≤ 15) (heq : (ringAsked q).eq < eqCount (fieldAt q 8 1))
    (hport : (ringAsked q).port ≤ 7) (hqueue : (ringAsked q).queue ≤ 127) (hbase : (ringAsked q).base % 64 = 0)
    (hexists : s.fnExists (fieldAt q 8 1) = true) :
    (s.ring (fieldAt q 8 1) (fieldAt q 9 1) = none →
      (s.host.eqs.get? (fnKey (fieldAt q 8 1) (ringAsked q).eq)).isSome = true →
      Answers .ringCreate s (s.setRing (fieldAt q 8 1) (fieldAt q 9 1) (ringAsked q)) slot 0 []) ∧
    ((s.ring (fieldAt q 8 1) (fieldAt q 9 1)).isSome = true → Answers .ringCreate s s slot 3 []) := by
  have hrange : ¬(127 < fieldAt q 8 1 ∨ ringCount (fieldAt q 8 1) ≤ fieldAt q 9 1 ∨ 5 < (ringAsked q).kind
      ∨ (ringAsked q).log2 < 6 ∨ 15 < (ringAsked q).log2 ∨ eqCount (fieldAt q 8 1) ≤ (ringAsked q).eq
      ∨ 7 < (ringAsked q).port ∨ 127 < (ringAsked q).queue ∨ (ringAsked q).base % 64 ≠ 0) := by omega
  have hthere : ¬(!s.fnExists (fieldAt q 8 1)) = true := by simp [hexists]
  constructor
  · intro hfree hqueued
    have hmay : ¬((s.ring (fieldAt q 8 1) (fieldAt q 9 1)).isSome = true
        ∨ (s.host.eqs.get? (fnKey (fieldAt q 8 1) (ringAsked q).eq)).isNone = true) := by
      simp [hfree, Option.isSome_iff_ne_none.mp hqueued]
    exact .of_effect rfl hask ((if_neg hrange).trans ((if_neg hthere).trans (if_neg hmay)))
  · intro hmade
    exact .of_refuse rfl hask ((if_neg hrange).trans ((if_neg hthere).trans (if_pos (Or.inl hmade))))

theorem ringDestroy_answers (hask : Asked s 0x04 [(8, 1), (9, 1)] slot q) (hfn : fieldAt q 8 1 < 128)
    (hr : fieldAt q 9 1 < ringCount (fieldAt q 8 1)) :
    (s.ring (fieldAt q 8 1) (fieldAt q 9 1) = none → Answers .ringDestroy s s slot 3 []) ∧
    (∀ g, s.ring (fieldAt q 8 1) (fieldAt q 9 1) = some g → g.descs = [] →
      Answers .ringDestroy s (s.delRing (fieldAt q 8 1) (fieldAt q 9 1)) slot 0 []) := by
  have hrange : ¬(127 < fieldAt q 8 1 ∨ ringCount (fieldAt q 8 1) ≤ fieldAt q 9 1) := by omega
  constructor
  · intro hnone
    refine .of_refuse rfl hask ((if_neg hrange).trans ?_)
    rw [hnone]
  · intro g hring hidle
    refine .of_effect rfl hask ((if_neg hrange).trans ?_)
    rw [hring]
    exact if_pos (List.isEmpty_iff.mpr hidle)

theorem ringReset_answers (hask : Asked s 0x05 [(8, 1), (9, 1), (10, 2)] slot q) (hfn : fieldAt q 8 1 < 128)
    (hr : fieldAt q 9 1 < ringCount (fieldAt q 8 1)) {g : Ring} (hring : s.ring (fieldAt q 8 1) (fieldAt q 9 1) = some g) :
    (g.err ≠ 0 → g.descs = [] → Answers .ringReset s (s.setRing (fieldAt q 8 1) (fieldAt q 9 1) { g with
      err := 0, bell := none, u := fieldAt q 10 2, f := fieldAt q 10 2, p := fieldAt q 10 2, doneIdx := [] }) slot 0 []) ∧
    (g.err = 0 → Answers .ringReset s s slot 3 []) := by
  have hrange : ¬(127 < fieldAt q 8 1 ∨ ringCount (fieldAt q 8 1) ≤ fieldAt q 9 1) := by omega
  constructor
  · intro herr hidle
    refine .of_effect rfl hask ((if_neg hrange).trans ?_)
    rw [hring]
    exact if_pos ⟨herr, List.isEmpty_iff.mpr hidle⟩
  · intro herr
    refine .of_refuse rfl hask ((if_neg hrange).trans ?_)
    rw [hring]
    exact if_neg (fun h => h.1 herr)

/-! ### Event queues -/

/-- The event queue that EQ_CREATE asks for. -/
def evQueueAsked (q : List Byte) : EvQueue :=
  { log2 := fieldAt q 10 1, vector := fieldAt q 11 1, modCount := fieldAt q 12 1, modTime := fieldAt q 14 2,
    base := fieldAt q 16 8 }

theorem eqCreate_answers (hask : Asked s 0x06 [(8, 1), (9, 1), (10, 1), (11, 1), (12, 1), (14, 2), (16, 8)] slot q)
    (hfn : fieldAt q 8 1 < 128) (hn : fieldAt q 9 1 < eqCount (fieldAt q 8 1)) (hlo : 6 ≤ (evQueueAsked q).log2)
    (hhi : (evQueueAsked q).log2 ≤ 15) (hvector : (evQueueAsked q).vector < vecCount (fieldAt q 8 1))
    (htime : (evQueueAsked q).modTime ≤ 1023) (hbase : (evQueueAsked q).base % 4096 = 0)
    (hexists : s.fnExists (fieldAt q 8 1) = true) (hfree : s.host.eqs.get? (fnKey (fieldAt q 8 1) (fieldAt q 9 1)) = none) :
    Answers .eqCreate s (({ s with host := { s.host with
      eqs := s.host.eqs.put (fnKey (fieldAt q 8 1) (fieldAt q 9 1)) (evQueueAsked q) } } : State).setFn
      Rg.host_EQ_CI Rg.plotStat_EQ_CI (fieldAt q 8 1) (fieldAt q 9 1) 4 0) slot 0 [] := by
  have hrange : ¬(127 < fieldAt q 8 1 ∨ eqCount (fieldAt q 8 1) ≤ fieldAt q 9 1 ∨ (evQueueAsked q).log2 < 6
      ∨ 15 < (evQueueAsked q).log2 ∨ vecCount (fieldAt q 8 1) ≤ (evQueueAsked q).vector ∨ 1023 < (evQueueAsked q).modTime
      ∨ (evQueueAsked q).base % 4096 ≠ 0) := by omega
  have hthere : ¬(!s.fnExists (fieldAt q 8 1)) = true := by simp [hexists]
  have hnone : ¬(s.host.eqs.get? (fnKey (fieldAt q 8 1) (fieldAt q 9 1))).isSome = true := by simp [hfree]
  exact .of_effect rfl hask ((if_neg hrange).trans ((if_neg hthere).trans (if_neg hnone)))

theorem eqDestroy_answers (hask : Asked s 0x07 [(8, 1), (9, 1)] slot q) (hfn : fieldAt q 8 1 < 128)
    (hn : fieldAt q 9 1 < eqCount (fieldAt q 8 1))
    (hmade : (s.host.eqs.get? (fnKey (fieldAt q 8 1) (fieldAt q 9 1))).isSome = true) :
    (s.eqNamed (fieldAt q 8 1) (fieldAt q 9 1) = false → Answers .eqDestroy s { s with host := { s.host with
      eqs := s.host.eqs.del (fnKey (fieldAt q 8 1) (fieldAt q 9 1)) } } slot 0 []) ∧
    (s.eqNamed (fieldAt q 8 1) (fieldAt q 9 1) = true → Answers .eqDestroy s s slot 3 []) := by
  have hrange : ¬(127 < fieldAt q 8 1 ∨ eqCount (fieldAt q 8 1) ≤ fieldAt q 9 1) := by omega
  constructor
  · intro hunused
    have hmay : ¬((s.host.eqs.get? (fnKey (fieldAt q 8 1) (fieldAt q 9 1))).isNone = true
        ∨ s.eqNamed (fieldAt q 8 1) (fieldAt q 9 1) = true) := by
      simp [hunused, Option.isSome_iff_ne_none.mp hmade]
    exact .of_effect rfl hask ((if_neg hrange).trans (if_neg hmay))
  · intro hused
    exact .of_refuse rfl hask ((if_neg hrange).trans (if_pos (Or.inr hused)))

/-! ### Streams, channels and regions -/

theorem streamWrite_answers (hask : Asked s 0x08 [(8, 2), (32, 32)] slot q) (hk : fieldAt q 8 2 < 4096)
    (hstate : bits (fieldAt q 32 32) 0 2 ≠ 3) (hok : entOk (fieldAt q 32 32) = true) :
    ((s.ent (fieldAt q 8 2)).state = 0 →
      Answers .streamWrite s (s.setEnt (fieldAt q 8 2) (entOf (fieldAt q 32 32) 0)) slot 0 []) ∧
    ((s.ent (fieldAt q 8 2)).state = 3 → Answers .streamWrite s
      (s.setEnt (fieldAt q 8 2) (entOf (fieldAt q 32 32) (s.ent (fieldAt q 8 2)).tokens)) slot 0 []) ∧
    ((s.ent (fieldAt q 8 2)).state = 1 → Answers .streamWrite s s slot 3 []) := by
  have hrange : ¬(4096 ≤ fieldAt q 8 2 ∨ bits (fieldAt q 32 32) 0 2 = 3 ∨ entOk (fieldAt q 32 32) = false) := by
    simp [hk, hstate, hok]
  have hwritten : ∀ {tokens : Nat}, ¬((s.ent (fieldAt q 8 2)).state ≠ 0 ∧ (s.ent (fieldAt q 8 2)).state ≠ 3) →
      (if (s.ent (fieldAt q 8 2)).state = 3 then (s.ent (fieldAt q 8 2)).tokens else 0) = tokens →
      Answers .streamWrite s (s.setEnt (fieldAt q 8 2) (entOf (fieldAt q 32 32) tokens)) slot 0 [] := by
    rintro _ hmay rfl
    exact .of_effect rfl hask ((if_neg hrange).trans (if_neg hmay))
  refine ⟨fun hfree => hwritten (by omega) (if_neg (by omega)), fun hstop => hwritten (by omega) (if_pos hstop),
    fun hopen => ?_⟩
  exact .of_refuse rfl hask ((if_neg hrange).trans (if_pos (by omega)))

theorem channelSet_answers (hask : Asked s 0x09 [(8, 2), (16, 8)] slot q) (hk : fieldAt q 8 2 < 1024)
    (hok : s.channelOk (fieldAt q 16 8) = true) : Answers .channelSet s { s with
      host := { s.host with channels := s.host.channels.set 0 (fieldAt q 8 2) (fieldAt q 16 8) } } slot 0 [] := by
  have hrange : ¬(1024 ≤ fieldAt q 8 2 ∨ s.channelOk (fieldAt q 16 8) = false) := by simp [hk, hok]
  exact .of_effect rfl hask (if_neg hrange)

/-- A RoCEv2 message under way, or a packet that is held for its turn, names a region. -/
def State.regionUsed (s : State) (k : Nat) : Bool :=
  s.eth.conns.any (fun (e : Nat × EthConn) => (decide (0 < e.2.msg) && e.2.dest.1 % 4096 == k)
    || e.2.held.any (fun p => (p.op == 1 || p.op == 5) && p.rkey % 4096 == k))

theorem State.regionUsed_of_idle {k : Nat} (hidle : ∀ e ∈ s.eth.conns, e.2.msg = 0 ∧ e.2.held = []) :
    s.regionUsed k = false := by
  rw [State.regionUsed, List.any_eq_false]
  intro e he
  obtain ⟨hmsg, hheld⟩ := hidle e he
  simp [hmsg, hheld]

theorem regionSet_answers (hask : Asked s 0x0A [(8, 2), (32, 32)] slot q) (hk : fieldAt q 8 2 < 4096)
    (hzero : regionZero (fieldAt q 32 32) = true) (hidle : ∀ e ∈ s.eth.conns, e.2.msg = 0 ∧ e.2.held = []) :
    (∀ v, s.regionAbs (fieldAt q 32 32) = some v →
      Answers .regionSet s (s.writeN (s.regionAt (fieldAt q 8 2)) 32 v) slot 0 []) ∧
    (s.regionAbs (fieldAt q 32 32) = none → Answers .regionSet s s slot 2 []) := by
  have hrange : ¬(4096 ≤ fieldAt q 8 2 ∨ regionZero (fieldAt q 32 32) = false) := by simp [hk, hzero]
  have hunused : ¬s.regionUsed (fieldAt q 8 2) = true := by simp [State.regionUsed_of_idle hidle]
  constructor
  · intro v habs
    refine .of_effect rfl hask ((if_neg hrange).trans ((if_neg hunused).trans ?_))
    rw [habs]
    rfl
  · intro habs
    refine .of_refuse rfl hask ((if_neg hrange).trans ((if_neg hunused).trans ?_))
    rw [habs]

/-! ### Contexts -/

theorem ctxWrite_answers (hask : Asked s 0x0B [(8, 2), (64, 64)] slot q) (hk : fieldAt q 8 2 < 8192)
    (hclosed : (s.econn (fieldAt q 8 2)).st = 0) :
    Answers .ctxWrite s (s.writeN (s.ctxAt (fieldAt q 8 2)) 64 (setBits (setBits (fieldAt q 64 64) 0 2 0) 208 32
      (bits (s.readN (s.ctxAt (fieldAt q 8 2)) 64) 208 32))) slot 0 [] :=
  .of_effect rfl hask ((if_neg (Nat.not_le.mpr hk)).trans (if_neg (not_not.mpr hclosed)))

/-- A command of CTX_CMD with OP 1, 2 or 3 answers STATUS 0 in the state that the context's command leaves; CMD_ERR is in the
response. -/
theorem ctxCmd_answers {o : Nat} (hexec : exec i s = .next (s.mgmtCtx o)) (hask : Asked s 0x0C [(8, 2), (10, 1)] slot q)
    (hk : fieldAt q 8 2 < 8192) (ho : fieldAt q 10 1 = o) (hlo : 0 < o) (hhi : o ≤ 3) :
    Answers i s (s.ctxCmd o (fieldAt q 8 2)).1 slot 0 (leBytes 1 (s.ctxCmd o (fieldAt q 8 2)).2) := by
  subst ho
  have ⟨hfront, hop, _⟩ := hask
  have hrange : ¬(8192 ≤ fieldAt q 8 2 ∨ fieldAt q 10 1 = 0 ∨ 3 < fieldAt q 10 1) := by omega
  rw [State.mgmtCtx, hfront] at hexec
  exact .of_effect (hexec.trans (congrArg _ (if_pos ⟨hop, Or.inl rfl⟩))) hask (if_neg hrange)

theorem exec_ctxOpen_asked (hmain : s.hubMainReset = false) : exec (.ctxOpen 0 true) s = .next (s.mgmtCtx 1) :=
  if_neg (by simp [hmain])

theorem exec_ctxClose_asked (hmain : s.hubMainReset = false) : exec (.ctxClose 0 true) s = .next (s.mgmtCtx 2) :=
  if_neg (by simp [hmain])

theorem exec_ctxClear_asked (hmain : s.hubMainReset = false) : exec (.ctxClear 0 true) s = .next (s.mgmtCtx 3) :=
  if_neg (by simp [hmain])

/-! ### Connections -/

theorem dconnOpen_answers (hask : Asked s 0x0D [(8, 2), (10, 1), (11, 1), (12, 1), (13, 1)] slot q)
    (hk : fieldAt q 8 2 < 4096) (hfn : fieldAt q 10 1 < 128) (hengine : fieldAt q 12 1 ≤ 2) (hvc : fieldAt q 13 1 ≤ 5)
    (hexists : s.fnExists (fieldAt q 10 1) = true) :
    ((s.conn (connKey 2 (fieldAt q 8 2))).isOpen = false → Answers .dconnOpen s (s.setConn (connKey 2 (fieldAt q 8 2))
      { peer := fieldAt q 11 1, engine := fieldAt q 12 1, vc := fieldAt q 13 1, func := fieldAt q 10 1, isOpen := true })
      slot 0 []) ∧
    ((s.conn (connKey 2 (fieldAt q 8 2))).isOpen = true → Answers .dconnOpen s s slot 3 []) := by
  have hrange : ¬(4096 ≤ fieldAt q 8 2 ∨ 127 < fieldAt q 10 1 ∨ 2 < fieldAt q 12 1 ∨ 5 < fieldAt q 13 1) := by omega
  have hthere : ¬(!s.fnExists (fieldAt q 10 1)) = true := by simp [hexists]
  constructor
  · intro hclosed
    exact .of_effect rfl hask ((if_neg hrange).trans ((if_neg hthere).trans (if_neg (by simp [hclosed]))))
  · intro hopen
    exact .of_refuse rfl hask ((if_neg hrange).trans ((if_neg hthere).trans (if_pos hopen)))

theorem dconnClose_answers (hask : Asked s 0x0E [(8, 2)] slot q) (hk : fieldAt q 8 2 < 4096) :
    ((s.conn (connKey 2 (fieldAt q 8 2))).isOpen = true →
      Answers .dconnClose s (s.dconnClose (connKey 2 (fieldAt q 8 2))) slot 0 []) ∧
    ((s.conn (connKey 2 (fieldAt q 8 2))).isOpen = false → Answers .dconnClose s s slot 3 []) := by
  have hrange : ¬4096 ≤ fieldAt q 8 2 := Nat.not_le.mpr hk
  constructor
  · intro hopen
    exact .of_effect rfl hask ((if_neg hrange).trans (if_pos hopen))
  · intro hclosed
    exact .of_refuse rfl hask ((if_neg hrange).trans (if_neg (by simp [hclosed])))

end

/-- Settles O41: what each command answers, for fields in range. -/
theorem managedObjects : Obligations.ManagedObjects := by
  intro s slot q f p n k w ring eq
  exact ⟨plotCreate_answers, hbmGrant_answers, ringCreate_answers, ringDestroy_answers,
    fun hask hfn hr g hring => ringReset_answers hask hfn hr hring, eqCreate_answers, eqDestroy_answers, streamWrite_answers,
    channelSet_answers, regionSet_answers, ctxWrite_answers,
    fun hask hmain hk => ⟨fun ho => ctxCmd_answers (o := 1) (exec_ctxOpen_asked hmain) hask hk ho (by decide) (by decide),
      fun ho => ctxCmd_answers (o := 2) (exec_ctxClose_asked hmain) hask hk ho (by decide) (by decide),
      fun ho => ctxCmd_answers (o := 3) (exec_ctxClear_asked hmain) hask hk ho (by decide) (by decide)⟩,
    dconnOpen_answers, dconnClose_answers⟩

end Sys2Proof.Machine
end

section

/-!
## What events, symbols and flits leave unchanged

A command of a link ends in events, symbols and flits. `Shown` says that the fields which show what the links have come to
are as they were; `Reports` adds that Dvorar's own state is, and `Sends` what a port that only sends leaves as it was. Each
function has one rule, in the order of the model's definitions.
-/

namespace Sys2Proof.Machine

section
variable {s₀ s t : State} {α : Type} {f st sq : Fld} {i v d : Nat}

/-- The numbers of the fields that show what the links have come to: from STATE to FEATURES of the ports. -/
def Fld.ofLink (f : Fld) : Prop := Rg.dvport_STATE.id ≤ f.id ∧ f.id ≤ Rg.dvport_FEATURES.id

/-- A write that reaches no field of the links: of a field behind them, or of one before them at an index of its own. -/
def Fld.apart (f : Fld) (i : Nat) : Prop := Rg.dvport_FEATURES.id < f.id ∨ (f.id < Rg.dvport_STATE.id ∧ i < 2 ^ 20)

/-- The fields that show what the links have come to are the same in both states. -/
structure Shown (s t : State) : Prop where
  inv : s.Inv → t.Inv
  rg : s.Inv → ∀ g : Fld, g.ofLink → ∀ j < 2 ^ 20, t.rg g j = s.rg g j

theorem Shown.refl : Shown s s := ⟨id, fun _ _ _ _ _ => rfl⟩

theorem Shown.trans (h : Shown s₀ s) (h' : Shown s t) : Shown s₀ t :=
  ⟨fun hinv => h'.inv (h.inv hinv), fun hinv g hg j hj => (h'.rg (h.inv hinv) g hg j hj).trans (h.rg hinv g hg j hj)⟩

/-- Whatever else changes, the registers decide. -/
theorem Shown.of_regs (h : Shown s₀ s) (hregs : t.regs = s.regs) (hinv : s.Inv → t.Inv) : Shown s₀ t :=
  h.trans ⟨hinv, fun _ g _ j _ => by simp only [State.rg, State.copyOf, hregs]⟩

theorem State.copyOf_setRg_apart {g : Fld} {j c : Nat} (hwf : Cells.wf s.regs = true)
    (hkey : ∀ c', c' < 4 → g.key j c ≠ f.key i c') : (s.setRg f i v).copyOf g j c = s.copyOf g j c := by
  unfold State.setRg
  split
  · have h0 := State.wf_setCopy s f i 0 (v % 2 ^ f.w) hwf
    have h1 := State.wf_setCopy _ f i 1 (v % 2 ^ f.w) h0
    rw [State.copyOf_setCopy_other _ _ _ _ _ _ _ _ h1 (hkey 2 (by decide)),
      State.copyOf_setCopy_other _ _ _ _ _ _ _ _ h0 (hkey 1 (by decide)),
      State.copyOf_setCopy_other _ _ _ _ _ _ _ _ hwf (hkey 0 (by decide))]
  · exact State.copyOf_setCopy_other _ _ _ _ _ _ _ _ hwf (hkey 0 (by decide))

theorem State.rg_setRg_apart {g : Fld} {j : Nat} (hinv : s.Inv) (hg : g.ofLink) (hj : j < 2 ^ 20) (hf : f.apart i) :
    (s.setRg f i v).rg g j = s.rg g j := by
  have hkey : ∀ c, c < 4 → ∀ c', c' < 4 → g.key j c ≠ f.key i c' := by
    unfold Fld.ofLink at hg
    unfold Fld.apart at hf
    unfold Fld.key
    omega
  unfold State.rg
  rw [State.copyOf_setRg_apart hinv.2 (hkey 0 (by decide)), State.copyOf_setRg_apart hinv.2 (hkey 1 (by decide)),
    State.copyOf_setRg_apart hinv.2 (hkey 2 (by decide))]

theorem Shown.setRg (h : Shown s₀ s) (hf : f.apart i) : Shown s₀ (s.setRg f i v) :=
  h.trans ⟨fun hinv => hinv.setRg, fun hinv _ hg _ hj => State.rg_setRg_apart hinv hg hj hf⟩

theorem Shown.satRg (h : Shown s₀ s) (hf : f.apart i) : Shown s₀ (s.satRg f i v) := h.setRg hf

theorem Shown.incRg (h : Shown s₀ s) (hf : f.apart i) : Shown s₀ (s.incRg f i v) := h.setRg hf

theorem Shown.sqRaise (h : Shown s₀ s) (hst : st.apart i) (hsq : sq.apart i) : Shown s₀ (s.sqRaise st sq i v) :=
  (h.setRg hst).incRg hsq

theorem Shown.wrapCount {j bit : Nat} (h : Shown s₀ s) (hf : f.apart i) (hst : st.apart j) (hsq : sq.apart j) :
    Shown s₀ (s.wrapCount f i v st sq j bit) := by
  unfold State.wrapCount
  split
  · exact h.incRg hf
  · exact (h.incRg hf).sqRaise hst hsq

theorem Shown.ite {c : Prop} [Decidable c] {x y : State} (hx : Shown s₀ x) (hy : Shown s₀ y) :
    Shown s₀ (if c then x else y) := by
  split
  · exact hx
  · exact hy

theorem Shown.foldl {g : State → α → State} {l : List α} (h : Shown s₀ s) (hg : ∀ s x, Shown s₀ s → Shown s₀ (g s x)) :
    Shown s₀ (l.foldl g s) := by
  induction l generalizing s with
  | nil => exact h
  | cons x l ih => exact ih (hg s x h)

theorem Shown.setPort {k : LinkPort} (h : Shown s₀ s) : Shown s₀ (s.setPort d k) := h.of_regs rfl id

/-! ### Events -/

/-- A report: Dvorar and the fields of the links are as they were. -/
structure Reports (s t : State) : Prop where
  shown : Shown s t
  dv : t.dv = s.dv

theorem Reports.refl : Reports s s := ⟨.refl, rfl⟩

theorem Reports.trans (h : Reports s₀ s) (h' : Reports s t) : Reports s₀ t :=
  ⟨h.shown.trans h'.shown, h'.dv.trans h.dv⟩

theorem Reports.of_eq (h : Reports s₀ s) (hregs : t.regs = s.regs) (hdv : t.dv = s.dv) (hinv : s.Inv → t.Inv) :
    Reports s₀ t :=
  ⟨h.shown.of_regs hregs hinv, hdv.trans h.dv⟩

theorem Reports.setRg (h : Reports s₀ s) (hf : f.apart i) : Reports s₀ (s.setRg f i v) :=
  ⟨h.shown.setRg hf, (State.setRg_dv ..).trans h.dv⟩

theorem Reports.satRg (h : Reports s₀ s) (hf : f.apart i) : Reports s₀ (s.satRg f i v) := h.setRg hf

theorem Reports.sqRaise (h : Reports s₀ s) (hst : st.apart i) (hsq : sq.apart i) : Reports s₀ (s.sqRaise st sq i v) :=
  (h.setRg hst).setRg hsq

theorem Reports.ite {c : Prop} [Decidable c] {x y : State} (hx : Reports s₀ x) (hy : Reports s₀ y) :
    Reports s₀ (if c then x else y) := by
  split
  · exact hx
  · exact hy

theorem Reports.host {x : HostIf} (h : Reports s₀ s) : Reports s₀ { s with host := x } := h.of_eq rfl rfl id

theorem Reports.fm {x : FaultMgr} (h : Reports s₀ s) : Reports s₀ { s with fm := x } := h.of_eq rfl rfl id

theorem Reports.emit {o : Out} (h : Reports s₀ s) : Reports s₀ (s.emit o) := h.of_eq rfl rfl id

theorem Reports.hostWrite {fn a : Nat} {bs : List Byte} (h : Reports s₀ s) : Reports s₀ (s.hostWrite fn a bs) :=
  .ite h.emit (h.satRg (.inl (by decide)))

theorem Reports.sendMsix {fn : Nat} (h : Reports s₀ s) : Reports s₀ (s.sendMsix fn v) := .ite h.emit h.host

theorem Reports.writeRec {fn q : Nat} {r : Rec} (h : Reports s₀ s) : Reports s₀ (s.writeRec fn q r) := by
  unfold State.writeRec
  split
  · exact h
  · exact .ite h (.ite h.hostWrite.host.sendMsix h.hostWrite.host)

theorem Reports.toQueue {fn q : Nat} {r : Rec} (h : Reports s₀ s) : Reports s₀ (s.toQueue fn q r) := by
  unfold State.toQueue
  split
  · exact h
  · have hlost : Rg.host_LOST.apart q := .inl (by decide)
    have hplot : Rg.plotStat_LOST.apart (4 * fn + q) := .inl (by decide)
    exact .ite h.writeRec (.ite h.host (.ite (h.host.satRg hlost) (h.host.satRg hplot)))

theorem Reports.areaRec {r : Rec} (h : Reports s₀ s) : Reports s₀ (s.areaRec r) :=
  h.of_eq (by simp [State.areaRec, State.platformEvent]) (by simp [State.areaRec, State.platformEvent])
    Keeps.refl.areaRec.inv

theorem Reports.event {ty pay about : Nat} (h : Reports s₀ s) : Reports s₀ (s.event ty pay about) :=
  .ite (.ite h.areaRec.toQueue h.areaRec.toQueue.toQueue) h.areaRec

theorem Reports.mapUpdate (h : Reports s₀ s) : Reports s₀ s.mapUpdate := by
  unfold State.mapUpdate
  refine ((h.setRg ?_).setRg ?_).sqRaise ?_ ?_ <;> exact .inr ⟨by decide, by decide⟩

theorem Reports.unitRetired {unit idx sub : Nat} (h : Reports s₀ s) : Reports s₀ (s.unitRetired unit idx sub) :=
  .ite h.mapUpdate.fm h.mapUpdate.event

/-! ### Symbols and flits -/

/-- A port without what passes through it: what it has to send, and what it has half received. -/
def LinkPort.link (k : LinkPort) : LinkPort :=
  { k with queue := [], txNext := 0, replay := [], credit := [], due := [], sent := [], unechoed := [], asm := [], pass := [] }

/-- The ports differ only in what passes through them. -/
def SameLinks (s t : State) : Prop :=
  Cells.wf s.dv.ports = true → Cells.wf t.dv.ports = true ∧ ∀ d, (t.port d).link = (s.port d).link

theorem SameLinks.trans (h : SameLinks s₀ s) (h' : SameLinks s t) : SameLinks s₀ t := fun hwf =>
  have ⟨hwf, heq⟩ := h hwf
  have ⟨hwf', heq'⟩ := h' hwf
  ⟨hwf', fun d => (heq' d).trans (heq d)⟩

theorem SameLinks.of_ports (h : SameLinks s₀ s) (hports : t.dv.ports = s.dv.ports) : SameLinks s₀ t :=
  h.trans fun hwf => ⟨hports ▸ hwf, fun d => by rw [State.port, hports, State.port]⟩

theorem State.port_setPort_self {k : LinkPort} (hwf : Cells.wf s.dv.ports = true) : (s.setPort d k).port d = k :=
  Cells.getD_set_self s.dv.ports {} d k hwf

theorem State.port_setPort_ne {k : LinkPort} {e : Nat} (hwf : Cells.wf s.dv.ports = true) (hne : e ≠ d) :
    (s.setPort d k).port e = s.port e :=
  Cells.getD_set_other s.dv.ports {} k hne hwf

theorem State.wf_setPort {k : LinkPort} (hwf : Cells.wf s.dv.ports = true) : Cells.wf (s.setPort d k).dv.ports = true :=
  Cells.wf_set s.dv.ports {} d k hwf

theorem SameLinks.setPort {k : LinkPort} (h : SameLinks s₀ s) (hk : k.link = (s.port d).link) :
    SameLinks s₀ (s.setPort d k) :=
  h.trans fun hwf => ⟨State.wf_setPort hwf, fun e => by
    by_cases he : e = d
    · rw [he, State.port_setPort_self hwf, hk]
    · rw [State.port_setPort_ne hwf he]⟩

/-- Ports have sent: memory, the packets delivered here, the receivers of connections, the links and what shows them are as
they were. -/
structure Sends (s t : State) : Prop where
  mem : t.mem = s.mem
  inbox : t.dv.inbox = s.dv.inbox
  recv : t.dv.recv = s.dv.recv
  links : SameLinks s t
  shown : Shown s t

theorem Sends.refl : Sends s s := ⟨rfl, rfl, rfl, fun hwf => ⟨hwf, fun _ => rfl⟩, .refl⟩

theorem Sends.trans (h : Sends s₀ s) (h' : Sends s t) : Sends s₀ t :=
  ⟨h'.mem.trans h.mem, h'.inbox.trans h.inbox, h'.recv.trans h.recv, h.links.trans h'.links, h.shown.trans h'.shown⟩

theorem Sends.setPort {k : LinkPort} (h : Sends s₀ s) (hk : k.link = (s.port d).link) : Sends s₀ (s.setPort d k) :=
  ⟨h.mem, h.inbox, h.recv, h.links.setPort hk, h.shown.setPort⟩

theorem Sends.emit {o : Out} (h : Sends s₀ s) : Sends s₀ (s.emit o) :=
  ⟨h.mem, h.inbox, h.recv, h.links.of_ports rfl, h.shown.of_regs rfl id⟩

/-- Registers change, behind those of the links. -/
theorem Sends.of_shown (h : Sends s₀ s) (hmem : t.mem = s.mem) (hdv : t.dv = s.dv) (hshown : Shown s t) : Sends s₀ t :=
  ⟨hmem.trans h.mem, by rw [hdv, h.inbox], by rw [hdv, h.recv], h.links.of_ports (by rw [hdv]), h.shown.trans hshown⟩

theorem Sends.ite {c : Prop} [Decidable c] {x y : State} (hx : Sends s₀ x) (hy : Sends s₀ y) :
    Sends s₀ (if c then x else y) := by
  split
  · exact hx
  · exact hy

theorem Sends.foldl {g : State → α → State} {l : List α} (h : Sends s₀ s) (hg : ∀ s x, Sends s₀ s → Sends s₀ (g s x)) :
    Sends s₀ (l.foldl g s) := by
  induction l generalizing s with
  | nil => exact h
  | cons x l ih => exact ih (hg s x h)

/-- A port keeps the latest TICK, DONE and FORM and every LSTATE that is due on it. -/
def LinkPort.noted (k : LinkPort) (ty pay : Nat) : LinkPort :=
  if [4, 5, 6].contains ty then { k with sent := k.sent.set 0 ty (pay + 1) }
  else if ty = 8 then { k with unechoed := k.unechoed.set 0 (pay / 2 ^ 6 % 2 ^ 13) (pay + 1) }
  else k

theorem LinkPort.noted_cases (k : LinkPort) (ty pay : Nat) : ∃ sent unechoed,
    k.noted ty pay = { k with sent := sent, unechoed := unechoed } := by
  unfold LinkPort.noted
  split
  · exact ⟨_, _, rfl⟩
  · split
    · exact ⟨_, _, rfl⟩
    · exact ⟨_, _, rfl⟩

theorem State.due_eq (s : State) (d ty pay : Nat) : s.due d ty pay = s.setPort d
    (if s.rg Rg.dvport_STATE d = 3 ∨ (ty = 12 ∧ (s.rg Rg.dvport_STATE d = 2 ∨ s.rg Rg.dvport_STATE d = 4)) then
      { (s.port d).noted ty pay with
        due := ((s.port d).noted ty pay).due ++ List.replicate (if fourTimes ty then 4 else 1) (ty + pay) }
    else (s.port d).noted ty pay) := rfl

theorem Sends.due {ty pay : Nat} (h : Sends s₀ s) : Sends s₀ (s.due d ty pay) := by
  rw [State.due_eq]
  refine h.setPort ?_
  obtain ⟨sent, unechoed, hnoted⟩ := (s.port d).noted_cases ty pay
  rw [hnoted]
  split <;> rfl

theorem Sends.setDue {l : List Nat} (h : Sends s₀ s) : Sends s₀ (s.setPort d { s.port d with due := l }) := h.setPort rfl

theorem Sends.idle (h : Sends s₀ s) : Sends s₀ (s.idle d) := .ite h (h.setDue.foldl fun _ _ h => h.emit)

theorem Sends.symbol {ty pay : Nat} (h : Sends s₀ s) : Sends s₀ (s.symbol d ty pay) := h.due.idle

theorem Sends.sendFlit {x : TxFlit} (h : Sends s₀ s) : Sends s₀ (s.sendFlit d x) :=
  (h.setDue.of_shown (State.wrapCount_mem ..) (State.wrapCount_dv ..)
    (Shown.refl.wrapCount (.inl (by decide)) (.inl (by decide)) (.inl (by decide)))).emit

/-- The data flit that a port sends next on a channel. -/
def LinkPort.nextFlit (k : LinkPort) (vc : Nat) : TxFlit :=
  let r := fillBody vc k.queue 0
  { fseq := k.txNext, vc := vc, first := (r.2.1.map (fun a => a / 8)).getD 31, body := r.1 }

/-- The port once that flit has left its queue: it is kept for a replay, and a credit is spent. -/
def LinkPort.flitTaken (k : LinkPort) (vc : Nat) : LinkPort :=
  { k with
    queue := (fillBody vc k.queue 0).2.2, txNext := (k.txNext + 1) % 1024, replay := k.replay ++ [k.nextFlit vc],
    credit := k.credit.set 0 vc (k.credit.getD 0 vc - 1) }

theorem State.pump_succ (s : State) (d n : Nat) : s.pump d (n + 1) =
    if !s.linkUp d || (s.port d).drop.isSome || decide (512 ≤ (s.port d).replay.length) then s
    else match (s.port d).sendable with
      | none => s
      | some vc => State.pump ((s.setPort d ((s.port d).flitTaken vc)).sendFlit d ((s.port d).nextFlit vc)) d n := rfl

theorem Sends.flitTaken {vc : Nat} (h : Sends s₀ s) : Sends s₀ (s.setPort d ((s.port d).flitTaken vc)) := h.setPort rfl

theorem Sends.pump {n : Nat} (h : Sends s₀ s) : Sends s₀ (s.pump d n) := by
  induction n generalizing s with
  | zero => exact h
  | succ n ih =>
    rw [State.pump_succ]
    refine .ite h ?_
    split
    · exact h
    · exact ih h.flitTaken.sendFlit

theorem Sends.run (h : Sends s₀ s) : Sends s₀ (s.run d) := h.pump.idle

theorem Sends.enqueue {e : TxPkt} (h : Sends s₀ s) : Sends s₀ (s.enqueue e) := by
  unfold State.enqueue
  split
  · exact h.of_shown (State.satRg_mem ..) (State.satRg_dv ..) (Shown.refl.satRg (.inl (by decide)))
  · rename_i d _
    have hport : Sends s₀ (s.setPort d { s.port d with queue := (s.port d).queue ++ [e] }) := h.setPort rfl
    exact hport.run

theorem State.sendPkt_mem (s : State) (p : DvPkt) : (s.sendPkt p).mem = s.mem := by
  unfold State.sendPkt
  split
  · rfl
  · exact Sends.refl.enqueue.mem

theorem State.sendPkt_recv (s : State) (p : DvPkt) : (s.sendPkt p).dv.recv = s.dv.recv := by
  unfold State.sendPkt
  split
  · rfl
  · exact Sends.refl.enqueue.recv

end
end Sys2Proof.Machine
end

section

/-!
## Retry, credits and symbols of a link

What leaves a port is read off its out record: symbols on idle flits, and data flits with the oldest symbol due.
-/

namespace Sys2Proof.Machine

section
variable {s t : State} {d : Nat}

theorem Shown.lanes (h : Shown s t) (hinv : s.Inv) (hd : d < 24) : t.rg Rg.dvport_LANES d = s.rg Rg.dvport_LANES d :=
  h.rg hinv Rg.dvport_LANES ⟨by decide, by decide⟩ d (by omega)

theorem Shown.linkUp (h : Shown s t) (hinv : s.Inv) (hd : d < 24) : t.linkUp d = s.linkUp d := by
  unfold State.linkUp
  rw [h.rg hinv Rg.dvport_STATE ⟨by decide, by decide⟩ d (by omega)]

theorem State.linkUp_iff : s.linkUp d = true ↔ s.rg Rg.dvport_STATE d = 3 := beq_iff_eq

@[simp] theorem State.setPort_out (s : State) (d : Nat) (k : LinkPort) : (s.setPort d k).out = s.out := rfl

/-! ### Symbols due -/

/-- A symbol on an idle flit of a port. -/
def State.idleOut (s : State) (d w : Nat) : Out := .idle d (s.rg Rg.dvport_LANES d) ((s.port d).header 0 1 0 31) w

theorem State.idleOut_congr (hlanes : t.rg Rg.dvport_LANES d = s.rg Rg.dvport_LANES d)
    (hheader : (t.port d).header = (s.port d).header) : t.idleOut d = s.idleOut d := by
  funext w
  rw [State.idleOut, State.idleOut, hlanes, hheader]

theorem foldl_emit_out (os : List Out) (s : State) : (os.foldl State.emit s).out = os.reverse ++ s.out := by
  induction os generalizing s with
  | nil => rfl
  | cons o os ih => simp [ih]

theorem foldl_emit_dv (os : List Out) (s : State) : (os.foldl State.emit s).dv = s.dv := by
  induction os generalizing s with
  | nil => rfl
  | cons o os ih => simp [ih]

theorem State.idle_eq (hdrop : (s.port d).drop = none) : s.idle d =
    ((s.port d).due.map (s.idleOut d)).foldl State.emit (s.setPort d { s.port d with due := [] }) := by
  have hconst : ∀ (ws : List Nat) (u : State), u.regs = s.regs →
      ws.foldl (fun s' w => s'.emit (.idle d (s'.rg Rg.dvport_LANES d) ((s.port d).header 0 1 0 31) w)) u =
        (ws.map (s.idleOut d)).foldl State.emit u := by
    intro ws u hregs
    induction ws generalizing u with
    | nil => rfl
    | cons w ws ih =>
      have hout : (.idle d (u.rg Rg.dvport_LANES d) ((s.port d).header 0 1 0 31) w : Out) = s.idleOut d w := by
        simp only [State.idleOut, State.rg, State.copyOf, hregs]
      rw [List.foldl_cons, List.map_cons, List.foldl_cons, hout]
      exact ih _ hregs
  exact (if_neg (by simp [hdrop])).trans (hconst _ _ rfl)

theorem State.idle_out (hdrop : (s.port d).drop = none) :
    (s.idle d).out = ((s.port d).due.map (s.idleOut d)).reverse ++ s.out := by
  rw [State.idle_eq hdrop, foldl_emit_out, State.setPort_out]

theorem State.port_idle (hwf : Cells.wf s.dv.ports = true) (hdrop : (s.port d).drop = none) :
    (s.idle d).port d = { s.port d with due := [] } := by
  rw [State.idle_eq hdrop, State.port, foldl_emit_dv]
  exact State.port_setPort_self hwf

theorem State.symbol_out {ty pay : Nat} (hwf : Cells.wf s.dv.ports = true) (hdue : (s.port d).due = [])
    (hdrop : (s.port d).drop = none) : (s.symbol d ty pay).out =
      (if s.rg Rg.dvport_STATE d = 3 ∨ (ty = 12 ∧ (s.rg Rg.dvport_STATE d = 2 ∨ s.rg Rg.dvport_STATE d = 4)) then
        List.replicate (if fourTimes ty then 4 else 1) (s.idleOut d (ty + pay)) else []) ++ s.out := by
  obtain ⟨sent, unechoed, hnoted⟩ := (s.port d).noted_cases ty pay
  have hout (k : LinkPort) (hheader : k.header = (s.port d).header) (hkept : k.drop = none) :
      ((s.setPort d k).idle d).out = (k.due.map (s.idleOut d)).reverse ++ s.out := by
    have hport : (s.setPort d k).port d = k := State.port_setPort_self hwf
    rw [State.idle_out (by rw [hport]; exact hkept), hport, State.setPort_out,
      State.idleOut_congr (t := s.setPort d k) (s := s) rfl (by rw [hport, hheader])]
  rw [State.symbol, State.due_eq, hnoted, hdue]
  split
  · rw [hout]
    · simp
    · rfl
    · exact hdrop
  · rw [hout]
    · simp
    · rfl
    · exact hdrop

theorem State.actSym_of_copy {w m : Nat} (hfour : fourTimes (bits w 0 6) = true) (hlast : (s.port d).lastSym = some (w, m)) :
    s.actSym d w = s := by
  simp [State.actSym, hfour, hlast]

/-! ### Data flits -/

/-- A data flit of a port, with a symbol. -/
def State.flitOut (s : State) (d w : Nat) (f : TxFlit) : Out :=
  .flit d (s.rg Rg.dvport_LANES d) (flitBytes ((s.port d).header f.vc 0 f.fseq f.first) w f.body)

theorem State.flitOut_congr (hlanes : t.rg Rg.dvport_LANES d = s.rg Rg.dvport_LANES d)
    (hheader : (t.port d).header = (s.port d).header) : t.flitOut d = s.flitOut d := by
  funext w f
  rw [State.flitOut, State.flitOut, hlanes, hheader]

theorem State.sendFlit_out (s : State) (d : Nat) (f : TxFlit) :
    (s.sendFlit d f).out = s.flitOut d ((s.port d).due.headD 0) f :: s.out := by
  simp only [State.sendFlit, State.emit_out, State.wrapCount_out]
  rfl

theorem State.port_sendFlit (hwf : Cells.wf s.dv.ports = true) (f : TxFlit) :
    (s.sendFlit d f).port d = { s.port d with due := (s.port d).due.tail } := by
  simp only [State.sendFlit, State.port, State.emit_dv, State.wrapCount_dv]
  exact State.port_setPort_self hwf

/-- Flits that are sent again where no symbol is due leave one after another, and the port is as it was. -/
theorem State.resendFlits_of_none_due {fs : List TxFlit} (hinv : s.Inv) (hd : d < 24) (hwf : Cells.wf s.dv.ports = true)
    (hdue : (s.port d).due = []) : (s.resendFlits d fs).out = (fs.map (s.flitOut d 0)).reverse ++ s.out ∧
      (s.resendFlits d fs).port d = s.port d := by
  induction fs generalizing s with
  | nil => exact ⟨rfl, rfl⟩
  | cons f fs ih =>
    have hsent : Sends s (s.sendFlit d f) := Sends.refl.sendFlit
    have hport : (s.sendFlit d f).port d = s.port d := by
      rw [State.port_sendFlit hwf, hdue, List.tail_nil, ← hdue]
    have hout : (s.sendFlit d f).flitOut d = s.flitOut d :=
      State.flitOut_congr (hsent.shown.lanes hinv hd) (by rw [hport])
    obtain ⟨houts, hports⟩ := ih (hsent.shown.inv hinv) (hsent.links hwf).1 (hport ▸ hdue)
    refine ⟨?_, hports.trans hport⟩
    change ((s.sendFlit d f).resendFlits d fs).out = _
    rw [houts, hout, State.sendFlit_out, hdue]
    simp

theorem State.run_of_no_queue (hqueue : (s.port d).queue = []) : s.run d = s.idle d := by
  simp [State.run, LinkPort.work, hqueue, State.pump]

theorem State.pump_of_no_queue {n : Nat} (hqueue : (s.port d).queue = []) : s.pump d n = s := by
  cases n with
  | zero => rfl
  | succ n => simp [State.pump_succ, LinkPort.sendable, hqueue]

/-- A packet that fits a body leaves in a flit by itself. -/
theorem fillBody_of_one {e : TxPkt} (hwhole : e.toCome = 0) (hfits : e.bytes.length ≤ 232) :
    fillBody e.vc [e] 0 = (e.bytes, if e.begun then none else some 0, []) := by
  simp [fillBody, hwhole, List.take_of_length_le hfits, List.drop_of_length_le hfits]

/-! ### NAK symbols -/

section
variable {fseq vc cum : Nat}

theorem exec_nakSymbol (port fseq : Nat) (s : State) : exec (.nakSymbol port fseq) s = .next (s.nakSym port fseq) := rfl

/-- How often in a row the other end has asked for a flit, with this NAK. -/
def LinkPort.nakCount (k : LinkPort) (fseq : Nat) : Nat := if k.nakSeq.1 = fseq ∧ k.nakSeq.2 ≠ 0 then k.nakSeq.2 + 1 else 1

/-- A NAK has been noted and counted. -/
def State.nakNoted (s : State) (d fseq : Nat) : State :=
  (s.setPort d { s.port d with nakSeq := (fseq, (s.port d).nakCount fseq) }).satRg Rg.dvport_REPLAYS d 1

theorem State.nakNoted_shown (s : State) (d fseq : Nat) : Shown s (s.nakNoted d fseq) :=
  Shown.refl.setPort.satRg (.inl (by decide))

theorem State.port_nakNoted (hwf : Cells.wf s.dv.ports = true) :
    (s.nakNoted d fseq).port d = { s.port d with nakSeq := (fseq, (s.port d).nakCount fseq) } := by
  simp only [State.nakNoted, State.port, State.satRg_dv]
  exact State.port_setPort_self hwf

theorem State.nakSym_of_down (hup : s.linkUp d = false) : s.nakSym d fseq = s := by simp [State.nakSym, hup]

theorem State.nakSym_of_few (hup : s.linkUp d = true) (hfew : (s.port d).nakCount fseq < 4) : s.nakSym d fseq =
    (s.nakNoted d fseq).resendFlits d ((s.port d).replay.dropWhile (fun f => f.fseq != fseq)) := by
  unfold State.nakSym
  simp only [hup, Bool.not_true, Bool.false_eq_true, if_false]
  exact if_neg (Nat.not_le.mpr hfew)

theorem State.nakSym_of_fourth (hinv : s.Inv) (hd : d < 24) (hup : s.linkUp d = true) (hfour : 4 ≤ (s.port d).nakCount fseq) :
    s.nakSym d fseq = ((s.nakNoted d fseq).retrain d 1).sendNeg d := by
  have hstill : (s.nakNoted d fseq).linkUp d = true := ((s.nakNoted_shown d fseq).linkUp hinv hd).trans hup
  unfold State.nakSym
  simp only [hup, Bool.not_true, Bool.false_eq_true, if_false]
  exact (if_pos hfour).trans (if_pos hstill)

theorem State.nakSym_of_none_due (hinv : s.Inv) (hd : d < 24) (hwf : Cells.wf s.dv.ports = true) (hup : s.linkUp d = true)
    (hfew : (s.port d).nakCount fseq < 4) (hdue : (s.port d).due = []) :
    (s.nakSym d fseq).out =
      (((s.port d).replay.dropWhile (fun f => f.fseq != fseq)).map (s.flitOut d 0)).reverse ++ s.out ∧
    (s.nakSym d fseq).port d = { s.port d with nakSeq := (fseq, (s.port d).nakCount fseq) } := by
  have hport : (s.nakNoted d fseq).port d = _ := State.port_nakNoted hwf
  have hwf' : Cells.wf (s.nakNoted d fseq).dv.ports = true := by
    rw [State.nakNoted, State.satRg_dv]
    exact State.wf_setPort hwf
  have hout : (s.nakNoted d fseq).flitOut d = s.flitOut d :=
    State.flitOut_congr ((s.nakNoted_shown d fseq).lanes hinv hd) (by rw [hport]; rfl)
  obtain ⟨houts, hports⟩ := State.resendFlits_of_none_due (fs := (s.port d).replay.dropWhile (fun f => f.fseq != fseq))
    ((s.nakNoted_shown d fseq).inv hinv) hd hwf' (by rw [hport]; exact hdue)
  rw [State.nakSym_of_few hup hfew]
  exact ⟨by rw [houts, hout, State.nakNoted, State.satRg_out]; rfl, hports.trans hport⟩

/-! ### CREDIT symbols -/

theorem exec_creditSymbol (port vc cum : Nat) (s : State) :
    exec (.creditSymbol port vc cum) s = .next (s.creditSym port vc cum) := rfl

/-- The buffers that a CREDIT symbol gives back. -/
def LinkPort.creditBack (k : LinkPort) (vc cum : Nat) : Nat := (cum + 4096 - k.creditSeen.getD 0 vc % 4096) % 4096

/-- A port that holds the credits given back. -/
def LinkPort.credited (k : LinkPort) (vc cum : Nat) : LinkPort :=
  { k with
    credit := k.credit.set 0 vc (k.credit.getD 0 vc + k.creditBack vc cum), creditSeen := k.creditSeen.set 0 vc cum }

theorem State.creditSym_eq (s : State) (d vc cum : Nat) :
    s.creditSym d vc cum = (s.setPort d ((s.port d).credited vc cum)).run d := rfl

theorem State.creditSym_of_no_queue (hwf : Cells.wf s.dv.ports = true) (hqueue : (s.port d).queue = []) :
    s.creditSym d vc cum = (s.setPort d ((s.port d).credited vc cum)).idle d := by
  rw [State.creditSym_eq, State.run_of_no_queue]
  rw [State.port_setPort_self hwf]
  exact hqueue

theorem State.creditSym_sends_symbols (hwf : Cells.wf s.dv.ports = true) (hqueue : (s.port d).queue = [])
    (hdrop : (s.port d).drop = none) :
    (s.creditSym d vc cum).out = ((s.port d).due.map (s.idleOut d)).reverse ++ s.out ∧
    (s.creditSym d vc cum).port d = { (s.port d).credited vc cum with due := [] } := by
  have hport : (s.setPort d ((s.port d).credited vc cum)).port d = (s.port d).credited vc cum := State.port_setPort_self hwf
  have hidle : (s.setPort d ((s.port d).credited vc cum)).idleOut d = s.idleOut d :=
    State.idleOut_congr rfl (by rw [hport]; rfl)
  have hkept : ((s.setPort d ((s.port d).credited vc cum)).port d).drop = none := by rw [hport]; exact hdrop
  rw [State.creditSym_of_no_queue hwf hqueue, State.idle_out hkept, State.port_idle (State.wf_setPort hwf) hkept, hport, hidle]
  exact ⟨rfl, rfl⟩

end

/-- A port with one packet waiting, a credit and room sends it in one flit, with the oldest symbol due; the other symbols
follow. -/
theorem State.run_of_one_packet {e : TxPkt} (hinv : s.Inv) (hd : d < 24) (hwf : Cells.wf s.dv.ports = true)
    (hqueue : (s.port d).queue = [e]) (hwhole : e.toCome = 0) (hnew : e.begun = false) (hbytes : e.bytes ≠ [])
    (hfits : e.bytes.length ≤ 232) (hup : s.linkUp d = true) (hdrop : (s.port d).drop = none)
    (hroom : (s.port d).replay.length < 512) (hcredit : (s.port d).credit.getD 0 e.vc ≠ 0) :
    let f : TxFlit := { fseq := (s.port d).txNext, vc := e.vc, first := 0, body := e.bytes }
    (s.run d).out = ((s.port d).due.tail.map (s.idleOut d)).reverse ++ s.flitOut d ((s.port d).due.headD 0) f :: s.out ∧
    (s.run d).port d = { s.port d with
      queue := [], txNext := ((s.port d).txNext + 1) % 1024, replay := (s.port d).replay ++ [f],
      credit := (s.port d).credit.set 0 e.vc ((s.port d).credit.getD 0 e.vc - 1), due := [] } := by
  intro f
  have hfill : fillBody e.vc (s.port d).queue 0 = (e.bytes, some 0, []) := by
    rw [hqueue, fillBody_of_one hwhole hfits, hnew]
    rfl
  have hsendable : (s.port d).sendable = some e.vc := by
    simp [LinkPort.sendable, hqueue, fillBody_of_one hwhole hfits, hcredit, hbytes]
  have hflit : (s.port d).nextFlit e.vc = f := by
    simp only [LinkPort.nextFlit, hfill]
    rfl
  have htaken : (s.port d).flitTaken e.vc = { s.port d with
      queue := [], txNext := ((s.port d).txNext + 1) % 1024, replay := (s.port d).replay ++ [f],
      credit := (s.port d).credit.set 0 e.vc ((s.port d).credit.getD 0 e.vc - 1) } := by
    simp only [LinkPort.flitTaken, hfill, hflit]
  obtain ⟨u, hu⟩ : ∃ u, u = s.setPort d ((s.port d).flitTaken e.vc) := ⟨_, rfl⟩
  have huport : u.port d = (s.port d).flitTaken e.vc := hu ▸ State.port_setPort_self hwf
  have huwf : Cells.wf u.dv.ports = true := hu ▸ State.wf_setPort hwf
  have hsent : (u.sendFlit d f).port d = { (s.port d).flitTaken e.vc with due := (s.port d).due.tail } := by
    rw [State.port_sendFlit huwf, huport]
    rfl
  have hsends : Sends s (u.sendFlit d f) := (hu ▸ Sends.refl.flitTaken : Sends s u).sendFlit
  have hpump : s.pump d (s.port d).work = u.sendFlit d f := by
    have hwork : (s.port d).work = e.bytes.length / 232 + 1 := by simp [LinkPort.work, hqueue]
    rw [hwork, State.pump_succ, hsendable]
    simp only [hup, hdrop, hflit, ← hu, Nat.not_le.mpr hroom, Bool.not_true, Option.isSome_none, decide_false, Bool.or_self,
      Bool.false_eq_true, if_false]
    exact State.pump_of_no_queue (by rw [hsent, htaken])
  have hflitOut : u.flitOut d = s.flitOut d := State.flitOut_congr (hu ▸ rfl) (by rw [huport]; rfl)
  have hidleOut : (u.sendFlit d f).idleOut d = s.idleOut d :=
    State.idleOut_congr (hsends.shown.lanes hinv hd) (by rw [hsent]; rfl)
  have hkept : ((u.sendFlit d f).port d).drop = none := by rw [hsent]; exact hdrop
  rw [State.run, hpump, State.idle_out hkept, State.port_idle (hsends.links hwf).1 hkept, hsent, hidleOut, State.sendFlit_out,
    hflitOut, huport, htaken]
  exact ⟨by rw [hu, State.setPort_out], rfl⟩

theorem LinkPort.credit_credited {k : LinkPort} {vc cum : Nat} (hcredit : Cells.wf k.credit = true) :
    (k.credited vc cum).credit.getD 0 vc = k.credit.getD 0 vc + k.creditBack vc cum :=
  Cells.getD_set_self _ _ _ _ hcredit

theorem State.creditSym_sends_packet {e : TxPkt} {cum : Nat} (hinv : s.Inv) (hd : d < 24) (hwf : Cells.wf s.dv.ports = true)
    (hheld : Cells.wf (s.port d).credit = true) (hqueue : (s.port d).queue = [e]) (hwhole : e.toCome = 0)
    (hnew : e.begun = false) (hbytes : e.bytes ≠ []) (hfits : e.bytes.length ≤ 232) (hup : s.linkUp d = true)
    (hdrop : (s.port d).drop = none) (hroom : (s.port d).replay.length < 512)
    (hback : (s.port d).credit.getD 0 e.vc + (s.port d).creditBack e.vc cum ≠ 0) :
    let f : TxFlit := { fseq := (s.port d).txNext, vc := e.vc, first := 0, body := e.bytes }
    let t := s.creditSym d e.vc cum
    t.out = ((s.port d).due.tail.map (s.idleOut d)).reverse ++ s.flitOut d ((s.port d).due.headD 0) f :: s.out ∧
    (t.port d).queue = [] ∧ (t.port d).due = [] ∧ (t.port d).txNext = ((s.port d).txNext + 1) % 1024 ∧
    (t.port d).replay = (s.port d).replay ++ [f] ∧
    (t.port d).credit.getD 0 e.vc = (s.port d).credit.getD 0 e.vc + (s.port d).creditBack e.vc cum - 1 := by
  intro f t
  obtain ⟨u, hu⟩ : ∃ u, u = s.setPort d ((s.port d).credited e.vc cum) := ⟨_, rfl⟩
  have huport : u.port d = (s.port d).credited e.vc cum := hu ▸ State.port_setPort_self hwf
  have hcredit : ((s.port d).credited e.vc cum).credit.getD 0 e.vc = _ := LinkPort.credit_credited hheld
  have hheader : (u.port d).header = (s.port d).header := by rw [huport]; rfl
  have hregs : u.rg Rg.dvport_LANES d = s.rg Rg.dvport_LANES d := by rw [hu]; rfl
  obtain ⟨hout, hport⟩ := State.run_of_one_packet (s := u) (d := d) (e := e) (hu ▸ hinv) hd (hu ▸ State.wf_setPort hwf)
    (by rw [huport]; exact hqueue) hwhole hnew hbytes hfits (hu ▸ hup) (by rw [huport]; exact hdrop)
    (by rw [huport]; exact hroom) (by rw [huport, hcredit]; exact hback)
  have ht : t = u.run d := by rw [hu]; rfl
  rw [huport, State.idleOut_congr hregs hheader, State.flitOut_congr hregs hheader] at hout
  rw [huport] at hport
  rw [ht, hout, hport, hcredit]
  refine ⟨by rw [hu, State.setPort_out]; rfl, rfl, rfl, rfl, rfl, ?_⟩
  exact Cells.getD_set_self _ _ _ _ (Cells.wf_set _ _ _ _ hheld)

theorem fourTimes_iff (ty : Nat) : fourTimes ty = true ↔ ty = 4 ∨ ty = 5 ∨ ty = 6 ∨ ty = 7 ∨ ty = 8 ∨ ty = 11 := by
  simp [fourTimes]

theorem retryAndCredits : Clauses.RetryAndCredits := by
  intro s port fseq vc cum hinv hport hwf k hcredit lanes n named back c idle
  refine ⟨fun hup => congrArg Host.Outcome.next (State.nakSym_of_down hup),
    fun hup hfew => ⟨congrArg Host.Outcome.next (State.nakSym_of_few hup hfew),
      fun hdue => ⟨_, rfl, State.nakSym_of_none_due hinv hport hwf hup hfew hdue⟩⟩,
    fun hup hfour => congrArg Host.Outcome.next (State.nakSym_of_fourth hinv hport hup hfour),
    fun hqueue => congrArg Host.Outcome.next (State.creditSym_of_no_queue hwf hqueue),
    fun hqueue hdrop => ⟨_, rfl, State.creditSym_sends_symbols hwf hqueue hdrop⟩, ?packet, fun ty pay hdue hdrop => ⟨?up, ?down⟩,
    fun w m hfour hlast => State.actSym_of_copy hfour hlast⟩
  case packet =>
    rintro e hqueue rfl hwhole hnew hbytes hfits hup hdrop hroom hback
    exact ⟨_, rfl, State.creditSym_sends_packet hinv hport hwf hcredit hqueue hwhole hnew hbytes hfits hup hdrop hroom hback⟩
  case up =>
    intro hup
    rw [State.symbol_out hwf hdue hdrop, if_pos (.inl (State.linkUp_iff.mp hup))]
    simp only [fourTimes_iff]
    rfl
  case down =>
    intro hdown hty
    have hstate : s.rg Rg.dvport_STATE port ≠ 3 := fun h => by simp [State.linkUp_iff.mpr h] at hdown
    rw [State.symbol_out hwf hdue hdrop, if_neg (by simp [hstate, hty])]
    rfl

end
end Sys2Proof.Machine
end

section

/-!
## Flits received

A flit is corrected, checked and acted on in turn. `rxSlot` is the command from the corrected flit on; each way in which it
can end has a lemma. What a data flit's body does to the link it came by is read off `SameLinks`.
-/

namespace Sys2Proof.Machine

section
variable {s u : State} {d : Nat} {bs : List Byte} {fixed : List (Nat × Byte)}

/-! ### Correction -/

/-- A flit with its FEC's corrections. -/
def mended (bytes : List Byte) (fixed : List (Nat × Byte)) : List Byte :=
  fixed.foldl (fun (b : List Byte) f => b.set f.1 f.2) bytes

/-- The FEC can correct the flit so: at most two bytes of each codeword, and the parity holds then. -/
def Mends (bytes : List Byte) (fixed : List (Nat × Byte)) : Prop :=
  fixed ≠ [] ∧ (inWord fixed 0).length ≤ 2 ∧ (inWord fixed 1).length ≤ 2 ∧
    leNat ((mended bytes fixed).drop 248) = (Config.fecParity ((mended bytes fixed).take 248)).toNat

theorem fecCorrect_of_mends (h : Mends bs fixed) : fecCorrect bs fixed = some (mended bs fixed) := by
  obtain ⟨hsome, heven, hodd, hparity⟩ := h
  unfold fecCorrect
  rw [if_neg (by simp [hsome, heven, hodd])]
  exact if_pos hparity

theorem fecCorrect_of_not_mends (h : ¬Mends bs fixed) : fecCorrect bs fixed = none := by
  unfold fecCorrect
  split
  · rfl
  · rename_i hfew
    simp only [Bool.or_eq_true, List.isEmpty_iff, decide_eq_true_eq, not_or, Nat.not_lt] at hfew
    obtain ⟨⟨hsome, heven⟩, hodd⟩ := hfew
    exact if_neg fun hparity => h ⟨hsome, heven, hodd, hparity⟩

theorem State.rg_wrapCount_self {f st sq : Fld} {i v j bit : Nat} (hinv : s.Inv) (hi : i < 2 ^ 20) (hj : j < 2 ^ 20)
    (hst : f.id ≠ st.id) (hsq : f.id ≠ sq.id) : (s.wrapCount f i v st sq j bit).rg f i = (s.rg f i + v) % 2 ^ f.w := by
  have hcount : (s.incRg f i v).rg f i = (s.rg f i + v) % 2 ^ f.w := State.rg_setRg_self _ _ _ _ hinv.2
  have hinc : (s.incRg f i v).Inv := hinv.setRg
  unfold State.wrapCount
  split
  · exact hcount
  · refine Eq.trans ?_ hcount
    refine (State.rg_setRg_other _ _ _ _ _ _ hinc.setRg.2 hj hi (.inl hsq)).trans ?_
    exact State.rg_setRg_other _ _ _ _ _ _ hinc.2 hj hi (.inl hst)

theorem foldl_detect {α : Type} (f : α → Detection) (l : List α) (s : State) :
    (l.foldl (fun s x => s.detect (f x)) s).regs = s.regs ∧ (l.foldl (fun s x => s.detect (f x)) s).dv = s.dv ∧
      (s.Inv → (l.foldl (fun s x => s.detect (f x)) s).Inv) := by
  induction l generalizing s with
  | nil => exact ⟨rfl, rfl, id⟩
  | cons x l ih => exact ih (s.detect (f x))

/-- The codewords that a flit's corrections lie in. -/
theorem length_codewords : ([inWord fixed 0, inWord fixed 1].filter (fun w => !w.isEmpty)).length =
    (if inWord fixed 0 = [] then 0 else 1) + (if inWord fixed 1 = [] then 0 else 1) := by
  cases inWord fixed 0 <;> cases inWord fixed 1 <;> rfl

/-- The corrections have been counted in the registers. -/
def State.fecCounted (s : State) (d : Nat) (fixed : List (Nat × Byte)) : State :=
  s.wrapCount Rg.dvport_FEC_CORR d ([inWord fixed 0, inWord fixed 1].filter (fun w => !w.isEmpty)).length
    Rg.dvport_WRAP Rg.dvport_WRAP_SEQ d 2

theorem State.countFec_regs (s : State) (d : Nat) (fixed : List (Nat × Byte)) :
    (s.countFec d fixed).regs = (s.fecCounted d fixed).regs :=
  (foldl_detect (fun l => .fecCorrected d l) _ _).1

theorem State.rg_countFec (hinv : s.Inv) (hd : d < 24) : (s.countFec d fixed).rg Rg.dvport_FEC_CORR d =
    (s.rg Rg.dvport_FEC_CORR d + (if inWord fixed 0 = [] then 0 else 1) + (if inWord fixed 1 = [] then 0 else 1)) %
      2 ^ Rg.dvport_FEC_CORR.w := by
  have hregs : (s.countFec d fixed).rg Rg.dvport_FEC_CORR d = (s.fecCounted d fixed).rg Rg.dvport_FEC_CORR d := by
    simp only [State.rg, State.copyOf, State.countFec_regs]
  rw [hregs, State.fecCounted, State.rg_wrapCount_self hinv (by omega) (by omega) (by decide) (by decide), length_codewords,
    Nat.add_assoc]

/-! ### From the corrected flit on -/

/-- Bytes [3:0] of a flit. -/
def flitHead (bs : List Byte) : Nat := leNat (bs.take 4)

/-- The control symbol of a flit. -/
def flitSymbol (bs : List Byte) : Nat := leNat ((bs.drop 4).take 8)

/-- The body of a flit. -/
def flitBody (bs : List Byte) : List Byte := (bs.drop 12).take 232

/-- The CRC of a flit is right. -/
def CrcRight (bs : List Byte) : Prop := crc32c (bs.take 244) = leNat ((bs.drop 244).take 4)

/-- The flit's slot has passed. -/
def State.slotPassed (u : State) (d : Nat) : State := u.setPort d (u.port d).nextSlot

/-- A flit whose CRC is wrong has been reported and counted. -/
def State.flitBad (u : State) (d : Nat) (bs : List Byte) : State :=
  let v := u.slotPassed d
  ((if bits (flitHead bs) 3 2 = 0 then v.detect (.linkRetry d) else v).satRg Rg.dvport_CRC_ERRS d 1).setPort d
    { v.port d with badRun := (v.port d).badRun + 1 }

/-- What a flit whose CRC is right acknowledges has left the replay buffer, and its symbol has been acted on. -/
def State.flitHeard (u : State) (d : Nat) (bs : List Byte) : State :=
  let v := u.slotPassed d
  (v.setPort d { v.port d with badRun := 0, replay := unacked (v.port d).replay (flitHead bs) }).actSym d (flitSymbol bs)

/-- A data flit in sequence has been counted, and the next one is expected. -/
def State.flitNext (w : State) (d : Nat) : State :=
  (w.setPort d { w.port d with rxNext := ((w.port d).rxNext + 1) % 1024, rxAny := true, nakOpen := false }).wrapCount
    Rg.dvport_FLITS_RX d 1 Rg.dvport_WRAP Rg.dvport_WRAP_SEQ d 1

/-- The rest of the command, in the state in which the corrections have been counted. -/
def State.rxSlot (u : State) (d : Nat) (bs : List Byte) : State :=
  let bad := u.flitBad d bs
  let w := u.flitHeard d bs
  if crc32c (bs.take 244) ≠ leNat ((bs.drop 244).take 4) then
    if 4 ≤ ((u.slotPassed d).port d).badRun + 1 then bad.retrainNeg d 3
    else (if bits (flitHead bs) 3 2 = 0 then bad.sendNak d else bad).run d
  else if w.linkUp d = false then w
  else if bits (flitHead bs) 3 2 = 0 then
    if bits (flitHead bs) 5 10 = (w.port d).rxNext then
      ((w.flitNext d).takeBody d (bits (flitHead bs) 0 3) (bits (flitHead bs) 15 5) (flitBody bs)).run d
    else (if (w.port d).nakOpen then w else w.sendNak d).run d
  else w.run d

theorem exec_flitRx_of_down (hup : s.linkUp d = false) : exec (.flitRx d bs fixed) s = .next s :=
  if_pos (by simp [hup])

theorem exec_flitRx_of_up (hup : s.linkUp d = true) : exec (.flitRx d bs fixed) s =
    .next ((if (fecCorrect bs fixed).isSome then s.countFec d fixed else s).rxSlot d ((fecCorrect bs fixed).getD bs)) := by
  change execFlitRx d bs fixed s = _
  unfold execFlitRx
  simp only [hup, Bool.not_true, Bool.false_eq_true, if_false, beq_iff_eq, Bool.not_eq_true']
  simp only [State.rxSlot, apply_ite Host.Outcome.next]
  rfl

theorem exec_flitRx_of_mends (hup : s.linkUp d = true) (h : Mends bs fixed) :
    exec (.flitRx d bs fixed) s = .next ((s.countFec d fixed).rxSlot d (mended bs fixed)) := by
  rw [exec_flitRx_of_up hup, fecCorrect_of_mends h]
  rfl

theorem exec_flitRx_of_not_mends (hup : s.linkUp d = true) (h : ¬Mends bs fixed) :
    exec (.flitRx d bs fixed) s = .next (s.rxSlot d bs) := by
  rw [exec_flitRx_of_up hup, fecCorrect_of_not_mends h]
  rfl

/-! ### The ways in which it ends -/

section
variable (hwrong : crc32c (bs.take 244) ≠ leNat ((bs.drop 244).take 4))
include hwrong

theorem State.rxSlot_of_fourth_wrong (hrun : 3 ≤ ((u.slotPassed d).port d).badRun) :
    u.rxSlot d bs = (u.flitBad d bs).retrainNeg d 3 :=
  (if_pos hwrong).trans (if_pos (by omega))

theorem State.rxSlot_of_wrong (hrun : ((u.slotPassed d).port d).badRun < 3) :
    u.rxSlot d bs = (if bits (flitHead bs) 3 2 = 0 then (u.flitBad d bs).sendNak d else u.flitBad d bs).run d :=
  (if_pos hwrong).trans (if_neg (by omega))

end

section
variable (hright : crc32c (bs.take 244) = leNat ((bs.drop 244).take 4))
include hright

theorem State.rxSlot_of_down (hup : (u.flitHeard d bs).linkUp d = false) : u.rxSlot d bs = u.flitHeard d bs :=
  (if_neg (not_not_intro hright)).trans (if_pos hup)

theorem State.rxSlot_of_up (hup : (u.flitHeard d bs).linkUp d = true) : u.rxSlot d bs =
    if bits (flitHead bs) 3 2 = 0 then
      if bits (flitHead bs) 5 10 = ((u.flitHeard d bs).port d).rxNext then
        (((u.flitHeard d bs).flitNext d).takeBody d (bits (flitHead bs) 0 3) (bits (flitHead bs) 15 5) (flitBody bs)).run d
      else (if ((u.flitHeard d bs).port d).nakOpen then u.flitHeard d bs else (u.flitHeard d bs).sendNak d).run d
    else (u.flitHeard d bs).run d :=
  (if_neg (not_not_intro hright)).trans (if_neg (by simp [hup]))

end

/-! ### The body of a data flit -/

section
variable {s₀ : State} {vc first : Nat} {body : List Byte}

theorem SameLinks.refl : SameLinks s s := fun hwf => ⟨hwf, fun _ => rfl⟩

theorem SameLinks.ite {c : Prop} [Decidable c] {x y : State} (hx : SameLinks s₀ x) (hy : SameLinks s₀ y) :
    SameLinks s₀ (if c then x else y) := by
  split
  · exact hx
  · exact hy

theorem SameLinks.ite_fst {α : Type} {c : Prop} [Decidable c] {x y : State × α} (hx : SameLinks s₀ x.1)
    (hy : SameLinks s₀ y.1) : SameLinks s₀ (if c then x else y).1 := by
  split
  · exact hx
  · exact hy

theorem SameLinks.setPass {l : Cells (Nat × Nat)} (h : SameLinks s₀ s) :
    SameLinks s₀ (s.setPort d { s.port d with pass := l }) := h.setPort rfl

theorem SameLinks.setAsm {l : Cells (List Byte)} (h : SameLinks s₀ s) :
    SameLinks s₀ (s.setPort d { s.port d with asm := l }) := h.setPort rfl

theorem SameLinks.setQueue {l : List TxPkt} (h : SameLinks s₀ s) :
    SameLinks s₀ (s.setPort d { s.port d with queue := l }) := h.setPort rfl

theorem SameLinks.cutPass (h : SameLinks s₀ s) : SameLinks s₀ (s.cutPass d vc) := by
  unfold State.cutPass
  split
  · exact h
  · exact .ite h.setPass h.setPass.setQueue

theorem SameLinks.passOn {p : DvPkt} {toCome : Nat} (h : SameLinks s₀ s) : SameLinks s₀ (s.passOn d vc p bs toCome) :=
  SameLinks.trans (.ite h h.setPass) Sends.refl.enqueue.links

theorem SameLinks.satRg {f : Fld} {i v : Nat} (h : SameLinks s₀ s) : SameLinks s₀ (s.satRg f i v) :=
  h.of_ports (by rw [State.satRg_dv])

theorem SameLinks.unpack {n : Nat} (h : SameLinks s₀ s) : SameLinks s₀ (s.unpack d vc n bs).1 := by
  induction n generalizing s bs with
  | zero => exact h
  | succ n ih =>
    unfold State.unpack
    refine .ite_fst h (.ite_fst h (.ite_fst (.ite_fst h (ih (h.of_ports rfl))) (.ite_fst ?_ (ih ?_))))
    all_goals exact .ite h.passOn (.ite h.satRg.setPass h.satRg)

theorem SameLinks.passMore {e n : Nat} (h : SameLinks s₀ s) : SameLinks s₀ (s.passMore d vc e n bs) :=
  .ite h.setPass (SameLinks.trans (h.setPass.setQueue) Sends.refl.run.links)

/-- A header that starts too early cuts the packet that was coming in. -/
def State.bodyBegun (s : State) (d vc first : Nat) : State :=
  if first ≠ 31 ∧ 8 * first < (s.port d).expects vc then
    (s.cutPass d vc).setPort d { (s.cutPass d vc).port d with asm := ((s.cutPass d vc).port d).asm.del vc }
  else s

/-- The packets of a body have been taken; what is left of it waits for the next body. -/
def State.bodyTaken (s : State) (d vc first : Nat) (body : List Byte) : State × List Byte :=
  match (s.port d).pass.get? vc with
  | some (e, n) => (s.passMore d vc e n (body.take n)).unpack d vc 9 (body.drop n)
  | none =>
    let old := (s.port d).asm.getD [] vc
    s.unpack d vc 9 (if old.isEmpty then (if first = 31 then [] else body.drop (8 * first)) else old ++ body)

/-- The buffer of a flit is freed. -/
def State.bodyFreed (x : State × List Byte) (d vc : Nat) : State :=
  let k := x.1.port d
  let cum := (k.freed.getD 0 vc + 1) % 4096
  (x.1.setPort d { k with asm := k.asm.set [] vc x.2, freed := k.freed.set 0 vc cum }).due d 1 (vc * 2 ^ 6 + cum * 2 ^ 9)

theorem State.takeBody_eq (s : State) (d vc first : Nat) (body : List Byte) :
    s.takeBody d vc first body = State.bodyFreed ((s.bodyBegun d vc first).bodyTaken d vc first body) d vc := by
  unfold State.takeBody State.bodyTaken
  rfl

theorem SameLinks.bodyTaken (h : SameLinks s₀ s) : SameLinks s₀ (s.bodyTaken d vc first body).1 := by
  unfold State.bodyTaken
  split
  · exact h.passMore.unpack
  · exact h.unpack

/-- Of the link, a body frees a buffer, and nothing else of it changes. -/
theorem State.port_takeBody (hwf : Cells.wf s.dv.ports = true) :
    Cells.wf (s.takeBody d vc first body).dv.ports = true ∧
    ((s.takeBody d vc first body).port d).link = { (s.port d).link with
      freed := (s.port d).freed.set 0 vc (((s.port d).freed.getD 0 vc + 1) % 4096) } := by
  rw [State.takeBody_eq]
  obtain ⟨x, hx⟩ : ∃ x, x = (s.bodyBegun d vc first).bodyTaken d vc first body := ⟨_, rfl⟩
  have hbegun : SameLinks s (s.bodyBegun d vc first) := .ite SameLinks.refl.cutPass.setAsm .refl
  have hsame : SameLinks s x.1 := hx ▸ hbegun.bodyTaken
  obtain ⟨hxwf, hlinks⟩ := hsame hwf
  have hlink := hlinks d
  have hfreed : (x.1.port d).freed = (s.port d).freed := (congrArg LinkPort.freed hlink :)
  obtain ⟨hdwf, hdue⟩ := (Sends.refl.due : Sends _ (State.bodyFreed x d vc)).links (State.wf_setPort hxwf)
  rw [← hx]
  refine ⟨hdwf, (hdue d).trans ?_⟩
  rw [State.port_setPort_self hxwf, ← hlink, ← hfreed]
  rfl

/-! ### A packet alone in a body -/

theorem leNat_of_zeros {l : List Byte} (h : ∀ b ∈ l, b = 0) : leNat l = 0 := by
  induction l with
  | nil => rfl
  | cons b l ih =>
    obtain ⟨rfl, hl⟩ := List.forall_mem_cons.mp h
    rw [leNat, ih hl]
    rfl

theorem State.unpack_of_zeros {n : Nat} (h : ∀ b ∈ bs, b = 0) : s.unpack d vc (n + 1) bs = (s, []) :=
  if_pos (by simpa using h)

/-- The packet whose bytes begin a body. -/
def pktAt (body : List Byte) : DvPkt :=
  let h := leNat (body.take 32)
  pktOf h ((body.drop 32).take (if pktCarries (bits h 0 8) then bits h 80 13 else 0))

/-- A body with one whole packet for this module, and zeros behind it. -/
structure OneWhole (s : State) (body : List Byte) : Prop where
  length : body.length = 232
  ok : pktOk (leNat (body.take 32)) = true
  fits : pktLen (leNat (body.take 32)) ≤ 232
  mine : s.forMe (pktOf (leNat (body.take 32)) []) = true
  zeros : ∀ b ∈ body.drop (pktLen (leNat (body.take 32))), b = 0

theorem State.unpack_of_oneWhole {n : Nat} (h : OneWhole s body) :
    s.unpack d vc (n + 2) body = (s.deliver (pktAt body), []) := by
  have hsome : ¬body.all (fun b => b == 0) = true := by
    intro hall
    have hzero : leNat (body.take 32) = 0 := leNat_of_zeros fun b hb => by
      simpa using List.all_eq_true.mp hall b (List.mem_of_mem_take hb)
    have hok := h.ok
    rw [hzero] at hok
    exact absurd hok (by decide)
  have hlen : ¬body.length < pktLen (leNat (body.take 32)) := by rw [h.length]; exact Nat.not_lt.mpr h.fits
  unfold State.unpack
  rw [if_neg hsome, if_neg (by rw [h.length]; decide)]
  simp only [h.ok, h.mine, Bool.true_or, Bool.and_self, if_true, if_neg hlen]
  exact State.unpack_of_zeros h.zeros

theorem State.takeBody_inbox (h : OneWhole s body) (hpass : (s.port d).pass.get? vc = none)
    (hasm : (s.port d).asm.getD [] vc = []) : (s.takeBody d vc 0 body).dv.inbox = s.dv.inbox ++ [pktAt body] := by
  have hexpects : (s.port d).expects vc = 0 := by simp [LinkPort.expects, hpass, hasm]
  have hbegun : s.bodyBegun d vc 0 = s := if_neg (by simp [hexpects])
  have htaken : s.bodyTaken d vc 0 body = (s.deliver (pktAt body), []) := by
    simp only [State.bodyTaken, hpass, hasm]
    exact State.unpack_of_oneWhole h
  rw [State.takeBody_eq, hbegun, htaken]
  exact (Sends.refl.due : Sends _ (State.bodyFreed (s.deliver (pktAt body), []) d vc)).inbox

end

/-! ### A data flit in sequence -/

/-- The numbers of the fields of the link ports. -/
def Fld.ofPort (f : Fld) : Prop := Rg.dvport_EN.id ≤ f.id ∧ f.id ≤ Rg.dvport_LANE_CE.id

theorem State.rg_wrapCount_other {f st sq g : Fld} {i j x v bit : Nat} (hinv : s.Inv) (hi : i < 2 ^ 20) (hj : j < 2 ^ 20)
    (hx : x < 2 ^ 20) (hf : g.id ≠ f.id) (hst : g.id ≠ st.id) (hsq : g.id ≠ sq.id) :
    (s.wrapCount f i v st sq j bit).rg g x = s.rg g x := by
  have hinc : (s.incRg f i v).Inv := hinv.setRg
  have hcount : (s.incRg f i v).rg g x = s.rg g x := State.rg_setRg_other _ _ _ _ _ _ hinv.2 hi hx (.inl hf)
  unfold State.wrapCount
  split
  · exact hcount
  · refine Eq.trans ?_ hcount
    refine (State.rg_setRg_other _ _ _ _ _ _ hinc.setRg.2 hj hx (.inl hsq)).trans ?_
    exact State.rg_setRg_other _ _ _ _ _ _ hinc.2 hj hx (.inl hst)

/-- Whether a packet is for this module does not depend on the counters of the ports. -/
theorem State.forMe_wrapCount {f st sq : Fld} {v bit : Nat} (hinv : s.Inv) (hd : d < 24) (hf : f.ofPort) (hst : st.ofPort)
    (hsq : sq.ofPort) (p : DvPkt) : (s.wrapCount f d v st sq d bit).forMe p = s.forMe p := by
  have hrg (g : Fld) (hg : ¬g.ofPort) : (s.wrapCount f d v st sq d bit).rg g = s.rg g :=
    State.rg_wrapCount_other hinv (by omega) (by omega) (by decide) (fun h => hg (by unfold Fld.ofPort; rwa [h]))
      (fun h => hg (by unfold Fld.ofPort; rwa [h])) (fun h => hg (by unfold Fld.ofPort; rwa [h]))
  simp only [State.forMe, State.flag, hrg Rg.beat_MID (by unfold Fld.ofPort; decide),
    hrg Rg.dvorar_ALIAS_EN (by unfold Fld.ofPort; decide), hrg Rg.dvorar_ALIAS_MID (by unfold Fld.ofPort; decide)]

theorem State.forMe_of_regs {t : State} (hregs : t.regs = s.regs) (p : DvPkt) : t.forMe p = s.forMe p := by
  simp only [State.forMe, State.flag, State.rg, State.copyOf, hregs]

/-- Of what a data flit needs, the count of corrections changes nothing but the windows of the lanes. -/
structure Corrected (s u : State) (d : Nat) : Prop where
  inv : u.Inv
  wf : Cells.wf u.dv.ports = true
  up : u.linkUp d = s.linkUp d
  port : ∃ ce, u.port d = { s.port d with ce := ce }
  inbox : u.dv.inbox = s.dv.inbox
  forMe : ∀ p, u.forMe p = s.forMe p

theorem Corrected.refl (hinv : s.Inv) (hwf : Cells.wf s.dv.ports = true) : Corrected s s d :=
  ⟨hinv, hwf, rfl, ⟨_, rfl⟩, rfl, fun _ => rfl⟩

theorem corrected_countFec (hinv : s.Inv) (hwf : Cells.wf s.dv.ports = true) (hd : d < 24) :
    Corrected s (s.countFec d fixed) d := by
  have hregs := State.countFec_regs s d fixed
  have hcounted : Shown s (s.fecCounted d fixed) := Shown.refl.wrapCount (.inl (by decide)) (.inl (by decide)) (.inl (by decide))
  have hinv' : (s.countFec d fixed).Inv := Keeps.refl.countFec.inv hinv
  have hshown : Shown s (s.countFec d fixed) := hcounted.of_regs hregs fun _ => hinv'
  obtain ⟨v, hv, hdv⟩ : ∃ v : State, s.countFec d fixed = v.setPort d { v.port d with ce := _ } ∧ v.dv = s.dv :=
    ⟨_, rfl, (foldl_detect (fun l => .fecCorrected d l) _ _).2.1.trans (State.wrapCount_dv ..)⟩
  have hvwf : Cells.wf v.dv.ports = true := hdv ▸ hwf
  have hvport : v.port d = s.port d := by rw [State.port, hdv, State.port]
  have hfor (p : DvPkt) : (s.fecCounted d fixed).forMe p = s.forMe p :=
    State.forMe_wrapCount hinv hd ⟨by decide, by decide⟩ ⟨by decide, by decide⟩ ⟨by decide, by decide⟩ p
  refine ⟨hinv', ?_, hshown.linkUp hinv hd, ?_, ?_, fun p => (State.forMe_of_regs hregs p).trans (hfor p)⟩
  · exact hv ▸ State.wf_setPort hvwf
  · exact ⟨_, by rw [hv, State.port_setPort_self hvwf, hvport]⟩
  · rw [hv, ← hdv]
    rfl

theorem State.actSym_of_none {w : Nat} (h : bits w 0 6 = 0) : s.actSym d w = s := by
  simp [State.actSym, h, fourTimes]

/-- A flit without a symbol only acknowledges. -/
theorem State.flitHeard_of_no_symbol (hsym : bits (flitSymbol bs) 0 6 = 0) (hwf : Cells.wf u.dv.ports = true) :
    Cells.wf (u.flitHeard d bs).dv.ports = true ∧ (u.flitHeard d bs).regs = u.regs ∧
    (u.flitHeard d bs).mem = u.mem ∧ (u.flitHeard d bs).dv.inbox = u.dv.inbox ∧
    (u.flitHeard d bs).port d = { (u.port d).nextSlot with
      badRun := 0, replay := unacked (u.port d).nextSlot.replay (flitHead bs) } := by
  have hpassed : Cells.wf (u.slotPassed d).dv.ports = true := State.wf_setPort hwf
  have hslot : (u.slotPassed d).port d = (u.port d).nextSlot := State.port_setPort_self hwf
  rw [State.flitHeard, State.actSym_of_none hsym]
  refine ⟨State.wf_setPort hpassed, rfl, rfl, rfl, ?_⟩
  rw [hslot]
  exact State.port_setPort_self hpassed

theorem State.port_flitNext (hwf : Cells.wf s.dv.ports = true) : Cells.wf (s.flitNext d).dv.ports = true ∧
    (s.flitNext d).port d =
      { s.port d with rxNext := ((s.port d).rxNext + 1) % 1024, rxAny := true, nakOpen := false } := by
  constructor
  · rw [State.flitNext, State.wrapCount_dv]
    exact State.wf_setPort hwf
  · rw [State.flitNext, State.port, State.wrapCount_dv]
    exact State.port_setPort_self hwf

/-- What a data flit in sequence without a symbol leaves. -/
theorem State.rxSlot_of_next (h : Corrected s u d) (hd : d < 24) (hup : s.linkUp d = true)
    (hright : crc32c (bs.take 244) = leNat ((bs.drop 244).take 4)) (hdata : bits (flitHead bs) 3 2 = 0)
    (hsym : bits (flitSymbol bs) 0 6 = 0) (hseq : bits (flitHead bs) 5 10 = (s.port d).rxNext)
    (hfreed : Cells.wf (s.port d).freed = true) :
    let t := u.rxSlot d bs
    let vc := bits (flitHead bs) 0 3
    (t.port d).rxNext = ((s.port d).rxNext + 1) % 1024 ∧ (t.port d).badRun = 0 ∧ (t.port d).nakOpen = false ∧
    (t.port d).freed.getD 0 vc = ((s.port d).freed.getD 0 vc + 1) % 4096 ∧
    (bits (flitHead bs) 15 5 = 0 → (s.port d).pass.get? vc = none → (s.port d).asm.getD [] vc = [] →
      OneWhole s (flitBody bs) → t.dv.inbox = s.dv.inbox ++ [pktAt (flitBody bs)]) := by
  intro t vc
  obtain ⟨ce, hport⟩ := h.port
  obtain ⟨hwwf, hwregs, hwmem, hwinbox, hwport⟩ := State.flitHeard_of_no_symbol (d := d) hsym h.wf
  obtain ⟨hnwf, hnport⟩ := State.port_flitNext (d := d) hwwf
  rw [hwport, hport] at hnport
  have hwup : (u.flitHeard d bs).linkUp d = true := by
    rw [← hup, ← h.up]
    simp only [State.linkUp, State.rg, State.copyOf, hwregs]
  have hwinv : (u.flitHeard d bs).Inv := by
    unfold State.Inv
    rw [hwmem, hwregs]
    exact h.inv
  have ht : t = (((u.flitHeard d bs).flitNext d).takeBody d vc (bits (flitHead bs) 15 5) (flitBody bs)).run d :=
    (State.rxSlot_of_up hright hwup).trans ((if_pos hdata).trans (if_pos (by rw [hwport, hport, hseq]; rfl)))
  obtain ⟨htwf, htake⟩ := State.port_takeBody (d := d) (vc := vc) (first := bits (flitHead bs) 15 5) (body := flitBody bs) hnwf
  have hrun : (t.port d).link = _ := ht ▸ ((Sends.refl.run.links htwf).2 d).trans htake
  rw [hnport] at hrun
  refine ⟨(congrArg LinkPort.rxNext hrun :), (congrArg LinkPort.badRun hrun :), (congrArg LinkPort.nakOpen hrun :), ?_, ?_⟩
  · have hf : (t.port d).freed = (s.port d).freed.set 0 vc (((s.port d).freed.getD 0 vc + 1) % 4096) :=
      (congrArg LinkPort.freed hrun :)
    rw [hf, Cells.getD_set_self _ _ _ _ hfreed]
  · intro hfirst hpass hasm hone
    have hmine : OneWhole ((u.flitHeard d bs).flitNext d) (flitBody bs) := by
      refine ⟨hone.length, hone.ok, hone.fits, ?_, hone.zeros⟩
      rw [← hone.mine, ← h.forMe, ← State.forMe_of_regs hwregs]
      exact State.forMe_wrapCount (s := (u.flitHeard d bs).setPort d _) hwinv hd ⟨by decide, by decide⟩
        ⟨by decide, by decide⟩ ⟨by decide, by decide⟩ _
    rw [ht, Sends.refl.run.inbox, hfirst, State.takeBody_inbox hmine (by rw [hnport]; exact hpass)
      (by rw [hnport]; exact hasm), State.flitNext, State.wrapCount_dv, ← h.inbox, ← hwinbox]
    rfl

theorem flitReceive : Clauses.FlitReceive := by
  intro s port bytes fixed hinv hport hwf k hfreed even odd mended' mends
  refine ⟨exec_flitRx_of_down, State.rg_countFec hinv hport, ?_⟩
  intro hup u bs hmends hkeep head good v bad w vc body next
  obtain ⟨hexec, hcorrected⟩ : exec (.flitRx port bytes fixed) s = .next (u.rxSlot port bs) ∧ Corrected s u port := by
    by_cases h : Mends bytes fixed
    · obtain ⟨rfl, rfl⟩ := hmends h
      exact ⟨exec_flitRx_of_mends hup h, corrected_countFec hinv hwf hport⟩
    · obtain ⟨rfl, rfl⟩ := hkeep h
      exact ⟨exec_flitRx_of_not_mends hup h, .refl hinv hwf⟩
  rw [hexec]
  refine ⟨fun hwrong hrun => congrArg Host.Outcome.next (State.rxSlot_of_fourth_wrong hwrong hrun),
    fun hwrong hrun => ?wrong, fun hright hdown => congrArg Host.Outcome.next (State.rxSlot_of_down hright hdown),
    fun hright hstays => ?right, fun hright hdata hsym hseq => ?sequence⟩
  case wrong =>
    rw [State.rxSlot_of_wrong hwrong hrun]
    exact ⟨fun hdata => congrArg (fun s : State => Host.Outcome.next (s.run port)) (if_pos hdata),
      fun hother => congrArg (fun s : State => Host.Outcome.next (s.run port)) (if_neg hother)⟩
  case right =>
    rw [State.rxSlot_of_up hright hstays]
    refine ⟨fun hother => congrArg Host.Outcome.next (if_neg hother), fun hdata hseq => ?_, fun hdata hseq => ?_⟩
    · exact congrArg Host.Outcome.next ((if_pos hdata).trans (if_neg hseq))
    · exact congrArg Host.Outcome.next ((if_pos hdata).trans (if_pos hseq))
  case sequence =>
    obtain ⟨hnext, hbad, hnak, hcum, hdelivers⟩ := State.rxSlot_of_next hcorrected hport hup hright hdata hsym hseq hfreed
    refine ⟨_, rfl, hnext, hbad, hnak, hcum, fun hfirst hpass hasm hlength hok hfits hmine hzeros => ?_⟩
    refine hdelivers hfirst hpass hasm ⟨?_, hok, hfits, hmine, hzeros⟩
    simp [flitBody, hlength]

/-- Settles O32: the two parts above. -/
theorem linkRetryAndCredits : Obligations.LinkRetryAndCredits := ⟨flitReceive, retryAndCredits⟩

end
end Sys2Proof.Machine
end

section

/-!
## Training and lanes of a link

STATE and what a link has agreed on are set in few places, and everything else that a command of a link does leaves them as
they are (`Shown`). Each command has a lemma for each way in which it can end.
-/

namespace Sys2Proof.Machine

section
variable {s₀ s t : State} {d idx word delay code : Nat}

/-! ### What leaves the link as it is shown -/

theorem Shown.symbol {e ty pay : Nat} (h : Shown s₀ s) : Shown s₀ (s.symbol e ty pay) := h.trans Sends.refl.symbol.shown

theorem Shown.run {e : Nat} (h : Shown s₀ s) : Shown s₀ (s.run e) := h.trans Sends.refl.run.shown

theorem Shown.enqueue {e : TxPkt} (h : Shown s₀ s) : Shown s₀ (s.enqueue e) := h.trans Sends.refl.enqueue.shown

theorem Shown.event {ty pay about : Nat} (h : Shown s₀ s) : Shown s₀ (s.event ty pay about) :=
  h.trans Reports.refl.event.shown

theorem Shown.unitRetired {unit i sub : Nat} (h : Shown s₀ s) : Shown s₀ (s.unitRetired unit i sub) :=
  h.trans Reports.refl.unitRetired.shown

theorem State.Inv.setPort {k : LinkPort} (h : s.Inv) : (s.setPort d k).Inv := h

theorem Shown.dv {x : Dvorar} (h : Shown s₀ s) : Shown s₀ { s with dv := x } := h.of_regs rfl id

theorem Shown.cutPass {e vc : Nat} (h : Shown s₀ s) : Shown s₀ (s.cutPass e vc) := by
  unfold State.cutPass
  split
  · exact h
  · exact .ite h.setPort h.setPort.setPort

theorem Shown.lstate {e : Nat} {up : Bool} (h : Shown s₀ s) : Shown s₀ (s.lstate e up) :=
  h.setPort.dv.foldl fun _ _ h => h.symbol

theorem Shown.newRoute {bank : Fld} {m : Nat} (h : Shown s₀ s) (hbank : bank.apart m) : Shown s₀ (s.newRoute bank m) := by
  unfold State.newRoute
  split
  · exact h.setRg hbank
  · exact .ite h (h.setRg hbank).event

theorem Shown.reroute (h : Shown s₀ s) : Shown s₀ s.reroute := by
  unfold State.reroute
  extract_lets bad a bank
  have hbank (m : Nat) : bank.apart m := by
    simp only [bank]
    split <;> exact .inl (by decide)
  exact .ite h (.dv (h.foldl fun _ m h => .ite (h.newRoute (hbank m)) (h.setRg (hbank m))))

theorem Shown.askJoinAt {e : Nat} (h : Shown s₀ s) : Shown s₀ (s.askJoinAt e) := .ite h.symbol h

/-- Of what the links have come to, a change of STATE and LANES shows those two fields. -/
theorem Shown.linkSet {st lanes : Nat} (h : Shown s₀ ((s.setRg Rg.dvport_STATE d st).setRg Rg.dvport_LANES d lanes)) :
    Shown s₀ (s.linkSet d st lanes) := by
  unfold State.linkSet
  extract_lets s1 _ _ _ s2
  have hworking : Rg.identity_LINK_WORKING.apart 0 := .inr ⟨by decide, by decide⟩
  have hchanged : Rg.identity_MAP_CHANGED.apart 0 := .inr ⟨by decide, by decide⟩
  have hseq : Rg.identity_MAP_SEQ.apart 0 := .inr ⟨by decide, by decide⟩
  have h2 : Shown s₀ s2 := .ite h ((h.setRg hworking).sqRaise hchanged hseq)
  exact .ite h2 (h2.sqRaise (.inl (by decide)) (.inl (by decide)))

theorem State.rg_linkSet (hinv : s.Inv) (hd : d < 24) (st lanes : Nat) :
    (s.linkSet d st lanes).rg Rg.dvport_STATE d = st % 8 ∧ (s.linkSet d st lanes).rg Rg.dvport_LANES d = lanes % 256 := by
  have hd' : d < 2 ^ 20 := by omega
  have hset : (s.setRg Rg.dvport_STATE d st).Inv := hinv.setRg
  have h : Shown _ (s.linkSet d st lanes) := .linkSet .refl
  constructor
  · rw [h.rg hset.setRg _ ⟨by decide, by decide⟩ d hd', State.rg_setRg_other _ _ _ _ _ _ hset.2 hd' hd' (.inl (by decide)),
      State.rg_setRg_self _ _ _ _ hinv.2]
    rfl
  · rw [h.rg hset.setRg _ ⟨by decide, by decide⟩ d hd', State.rg_setRg_self _ _ _ _ hset.2]
    rfl

theorem State.rg_linkSet_other {f : Fld} (hinv : s.Inv) (hd : d < 24) (hf : f.ofLink) (hstate : f.id ≠ Rg.dvport_STATE.id)
    (hlanes : f.id ≠ Rg.dvport_LANES.id) (st lanes : Nat) : (s.linkSet d st lanes).rg f d = s.rg f d := by
  have hd' : d < 2 ^ 20 := by omega
  have hset : (s.setRg Rg.dvport_STATE d st).Inv := hinv.setRg
  have h : Shown _ (s.linkSet d st lanes) := .linkSet .refl
  rw [h.rg hset.setRg _ hf d hd', State.rg_setRg_other _ _ _ _ _ _ hset.2 hd' hd' (.inl hlanes),
    State.rg_setRg_other _ _ _ _ _ _ hinv.2 hd' hd' (.inl hstate)]

/-! ### Leaving UP -/

theorem State.rg_linkLeave (hinv : s.Inv) (hd : d < 24) (st lanes : Nat) :
    (s.linkLeave d st lanes).rg Rg.dvport_STATE d = st % 8 := by
  unfold State.linkLeave
  extract_lets was s1 k move k' s2 f s3
  have h1 : Shown s s1 := Shown.refl.foldl fun _ _ h => h.cutPass
  have hinv1 : (s1.setPort d k').Inv := (h1.inv hinv).setPort
  have h3 : Shown s2 s3 := Shown.refl.dv
  have hmoved : Shown s2 (move.foldl (fun s e => s.enqueue e) s3) := h3.foldl fun _ _ h => h.enqueue
  have hleft : Shown s2 (if was then ((move.foldl (fun s e => s.enqueue e) s3).lstate d false).reroute else s3) :=
    .ite hmoved.lstate.reroute h3
  rw [hleft.rg (Keeps.refl.linkSet.inv hinv1) _ ⟨by decide, by decide⟩ d (by omega)]
  exact (State.rg_linkSet hinv1 hd st lanes).1

theorem State.rg_retireLink (hinv : s.Inv) (hd : d < 24) (cause : Nat) :
    (s.retireLink d cause).rg Rg.dvport_STATE d = 6 := by
  unfold State.retireLink
  split
  · assumption
  · have hleave : (s.linkLeave d 6 0).Inv := Keeps.refl.linkLeave.inv hinv
    rw [Shown.refl.event.unitRetired.rg hleave _ ⟨by decide, by decide⟩ d (by omega)]
    exact State.rg_linkLeave hinv hd 6 0

theorem State.rg_retrain (hinv : s.Inv) (hd : d < 24) (hup : s.linkUp d = true) (cause : Nat) :
    (s.retrain d cause).rg Rg.dvport_STATE d = 4 := by
  have hleave : (s.linkLeave d 4 (s.rg Rg.dvport_LANES d)).Inv := Keeps.refl.linkLeave.inv hinv
  have h : Shown (s.linkLeave d 4 (s.rg Rg.dvport_LANES d)) (s.retrain d cause) := by
    unfold State.retrain
    rw [if_pos hup]
    exact (Shown.refl.satRg (.inl (by decide))).event
  rw [h.rg hleave _ ⟨by decide, by decide⟩ d (by omega)]
  exact State.rg_linkLeave hinv hd 4 _

theorem State.retrainNeg_of_up {cause : Nat} (hup : s.linkUp d = true) : s.retrainNeg d cause = (s.retrain d cause).sendNeg d :=
  if_pos hup

theorem State.retrainNeg_of_down {cause : Nat} (hup : s.linkUp d = false) : s.retrainNeg d cause = s :=
  if_neg (by simp [hup])

theorem exec_linkTimeout (d : Nat) (s : State) : exec (.linkTimeout d) s = .next (s.retrainNeg d 0) := rfl

theorem exec_retrain (d : Nat) (s : State) : exec (.retrain d) s = .next (s.retrainNeg d 2) := rfl

/-- A retrain has failed. -/
def State.retrainFailed (s : State) (d : Nat) : State :=
  s.setPort d { s.port d with fails := (s.port d).fails + 1, neg := [] }

theorem exec_retrainTimeout_of_first (hst : s.rg Rg.dvport_STATE d = 4) (hfails : (s.port d).fails < 2) :
    exec (.retrainTimeout d) s = .next (((s.retrainFailed d).satRg Rg.dvport_RETRAINS d 1).sendNeg d) :=
  (if_pos hst).trans (if_neg (by omega))

theorem exec_retrainTimeout_of_third (hst : s.rg Rg.dvport_STATE d = 4) (hfails : 2 ≤ (s.port d).fails) :
    let r : FaultRec := { cls := 2, unit := 5, index := d, check := 10, beat := s.rg Rg.beat_BEATNO }
    exec (.retrainTimeout d) s = .next ((((s.retrainFailed d).countReport r).logPair r 4 0).retireLink d 0) :=
  (if_pos hst).trans (if_pos (by omega))

theorem exec_retrainTimeout_of_other (hst : s.rg Rg.dvport_STATE d ≠ 4) : exec (.retrainTimeout d) s = .next s := if_neg hst

/-! ### Signal and NEG words -/

section
variable (hen : s.flag Rg.dvport_EN d = true) (hhalf : s.halfUp (d / 12) = true) (hheld : s.power.held = false)
include hen hhalf hheld

theorem exec_linkSignalDetect_of_untrained (hst : s.rg Rg.dvport_STATE d = 0 ∨ s.rg Rg.dvport_STATE d = 5) :
    exec (.linkSignalDetect d) s = .next ((s.setPort d { s.port d with neg := [] }).linkSet d 1 0) :=
  (if_pos (by simp [hen, hhalf, hheld])).trans (if_pos hst)

theorem exec_linkSignalDetect_of_training (hst : s.rg Rg.dvport_STATE d = 1) :
    exec (.linkSignalDetect d) s = .next ((s.linkSet d 2 0).sendNeg d) :=
  (if_pos (by simp [hen, hhalf, hheld])).trans ((if_neg (by simp [hst])).trans (if_pos hst))

end

theorem exec_linkSignalDetect_of_idle (h : s.flag Rg.dvport_EN d = false ∨ s.halfUp (d / 12) = false ∨ s.power.held = true ∨
    (s.rg Rg.dvport_STATE d ≠ 0 ∧ s.rg Rg.dvport_STATE d ≠ 1 ∧ s.rg Rg.dvport_STATE d ≠ 5)) :
    exec (.linkSignalDetect d) s = .next s := by
  change execLinkSignalDetect d s = _
  unfold execLinkSignalDetect
  rcases h with hen | hhalf | hheld | ⟨hdown, htraining, hnomatch⟩
  · exact if_neg (by simp [hen])
  · exact if_neg (by simp [hhalf])
  · exact if_neg (by simp [hheld])
  · simp [hdown, htraining, hnomatch]

theorem exec_negSymbol (d idx word : Nat) (s : State) : exec (.negSymbol d idx word) s = .next (s.negSym d idx word) := rfl

/-- A NEG word has been noted. -/
def State.negNoted (s : State) (d idx word : Nat) : State :=
  s.setPort d { s.port d with neg := (s.port d).neg.put idx word }

theorem State.negSym_of_training (hst : s.rg Rg.dvport_STATE d = 1) :
    s.negSym d idx word = ((s.negNoted d idx word).linkSet d 2 (s.rg Rg.dvport_LANES d)).sendNeg d :=
  (if_pos (.inl hst)).trans (if_pos hst)

theorem State.negSym_of_negotiating (hst : s.rg Rg.dvport_STATE d = 2 ∨ s.rg Rg.dvport_STATE d = 4) :
    s.negSym d idx word = s.negNoted d idx word :=
  (if_pos (.inr hst)).trans (if_neg (by omega))

theorem State.negSym_of_other (hst : s.rg Rg.dvport_STATE d ≠ 1 ∧ s.rg Rg.dvport_STATE d ≠ 2 ∧ s.rg Rg.dvport_STATE d ≠ 4) :
    s.negSym d idx word = s :=
  if_neg (by omega)

/-! ### The end of a negotiation -/

/-- The lanes that both ends have. -/
def State.lanesAgreed (s : State) (d : Nat) : Nat := bits ((s.port d).neg.getD 0 0) 16 8 &&& (s.port d).lanes

section
variable (hst : s.rg Rg.dvport_STATE d = 2 ∨ s.rg Rg.dvport_STATE d = 4)
include hst

theorem exec_negotiationComplete_of_negotiating : exec (.negotiationComplete d delay) s =
    if !bitN ((s.port d).neg.getD 0 0) 1 then .next (s.negFail d 1)
    else if popCount 8 (s.lanesAgreed d) < 4 then .next (s.negFail d 2)
    else if 800 < delay then .next (s.negFail d 3)
    else .next (s.linkComesUp d delay (s.lanesAgreed d)) :=
  if_pos hst

theorem exec_negotiationComplete_of_version (hversion : bitN ((s.port d).neg.getD 0 0) 1 = false) :
    exec (.negotiationComplete d delay) s = .next (s.negFail d 1) :=
  (exec_negotiationComplete_of_negotiating hst).trans (if_pos (by simp [hversion]))

variable (hversion : bitN ((s.port d).neg.getD 0 0) 1 = true)
include hversion

theorem exec_negotiationComplete_of_lanes (hfew : popCount 8 (s.lanesAgreed d) < 4) :
    exec (.negotiationComplete d delay) s = .next (s.negFail d 2) :=
  (exec_negotiationComplete_of_negotiating hst).trans ((if_neg (by simp [hversion])).trans (if_pos hfew))

variable (hlanes : 4 ≤ popCount 8 (s.lanesAgreed d))
include hlanes

theorem exec_negotiationComplete_of_delay (hdelay : 800 < delay) :
    exec (.negotiationComplete d delay) s = .next (s.negFail d 3) :=
  (exec_negotiationComplete_of_negotiating hst).trans
    ((if_neg (by simp [hversion])).trans ((if_neg (by omega)).trans (if_pos hdelay)))

theorem exec_negotiationComplete_of_agreed (hdelay : delay ≤ 800) :
    exec (.negotiationComplete d delay) s = .next (s.linkComesUp d delay (s.lanesAgreed d)) :=
  (exec_negotiationComplete_of_negotiating hst).trans
    ((if_neg (by simp [hversion])).trans ((if_neg (by omega)).trans (if_neg (by omega))))

end

theorem exec_negotiationComplete_of_other (hst : s.rg Rg.dvport_STATE d ≠ 2 ∧ s.rg Rg.dvport_STATE d ≠ 4) :
    exec (.negotiationComplete d delay) s = .next s :=
  if_neg (by omega)

theorem State.rg_negFail (hinv : s.Inv) (hd : d < 24) (hcode : code < 4) :
    (s.negFail d code).rg Rg.dvport_STATE d = 5 ∧ (s.negFail d code).rg Rg.dvport_NEG_ERR d = code := by
  obtain ⟨u, hu⟩ : ∃ u, u = (s.setPort d { s.port d with neg := [] }).setRg Rg.dvport_NEG_ERR d code := ⟨_, rfl⟩
  have huinv : u.Inv := by
    rw [hu]
    exact State.Inv.setRg (s := s.setPort d _) hinv
  have hshown : Shown (u.linkSet d 5 0) (s.negFail d code) := by
    rw [hu]
    exact Shown.refl.event
  have hset : (u.linkSet d 5 0).Inv := Keeps.refl.linkSet.inv huinv
  rw [hshown.rg hset _ ⟨by decide, by decide⟩ d (by omega), hshown.rg hset _ ⟨by decide, by decide⟩ d (by omega),
    (State.rg_linkSet huinv hd 5 0).1, State.rg_linkSet_other huinv hd ⟨by decide, by decide⟩ (by decide) (by decide), hu]
  exact ⟨rfl, (State.rg_setRg_self (s.setPort d _) _ _ _ hinv.2).trans (Nat.mod_eq_of_lt hcode)⟩

/-- The fields that a link which comes up sets. -/
def upWrites (d lanes feat peer pport delay bad : Nat) : List (Fld × Nat × Nat) :=
  [(Rg.dvport_VERSION, d, 1), (Rg.dvport_FEATURES, d, feat), (Rg.dvport_PEER_MID, d, peer), (Rg.dvport_PEER_PORT, d, pport),
   (Rg.dvport_LINK_DELAY, d, delay), (Rg.dvport_CRED_ERR, d, bad), (Rg.dvport_NEG_ERR, d, 0), (Rg.dvport_STATE, d, 3),
   (Rg.dvport_LANES, d, lanes)]

theorem State.linkComesUp_shown (s : State) (d delay lanes : Nat) : ∃ u : State, (s.Inv → u.Inv) ∧ ∃ peer pport bad,
    Shown (u.setRgs (upWrites d lanes ((s.port d).neg.getD 0 1 &&& 0x1F) peer pport delay bad)) (s.linkComesUp d delay lanes) := by
  unfold State.linkComesUp
  extract_lets k w peer pport feat bad credit s1 s2 s3 s4 s5 s6 s7
  refine ⟨s1, id, peer, pport, ofBool bad, ?_⟩
  have h3 : Shown _ s3 := (Shown.linkSet .refl).event
  have h5 : Shown _ s5 := (h3.foldl fun _ _ h => h.symbol).foldl fun _ _ h => h.symbol
  exact (Shown.ite h5.lstate.askJoinAt h5.lstate).run

theorem State.rg_linkComesUp {f : Fld} {v : Nat} (hinv : s.Inv) (hd : d < 24) (hf : f.ofLink) {lanes : Nat}
    (hw : ∀ peer pport bad, (f, d, v) ∈ upWrites d lanes ((s.port d).neg.getD 0 1 &&& 0x1F) peer pport delay bad) :
    (s.linkComesUp d delay lanes).rg f d = v % 2 ^ f.w := by
  obtain ⟨u, hu, peer, pport, bad, hshown⟩ := s.linkComesUp_shown d delay lanes
  have hidx : ∀ p ∈ (upWrites d lanes ((s.port d).neg.getD 0 1 &&& 0x1F) peer pport delay bad).map writeKey, p.2 < 2 ^ 20 := by
    simp [upWrites, writeKey]
    omega
  have hnodup : ((upWrites d lanes ((s.port d).neg.getD 0 1 &&& 0x1F) peer pport delay bad).map writeKey).Nodup := by
    refine List.Nodup.of_map Prod.fst ?_
    change [Rg.dvport_VERSION.id, Rg.dvport_FEATURES.id, Rg.dvport_PEER_MID.id, Rg.dvport_PEER_PORT.id,
      Rg.dvport_LINK_DELAY.id, Rg.dvport_CRED_ERR.id, Rg.dvport_NEG_ERR.id, Rg.dvport_STATE.id, Rg.dvport_LANES.id].Nodup
    decide
  have hset (l : List (Fld × Nat × Nat)) : (u.setRgs l).Inv := (Keeps.refl.foldl fun _ _ h => h.setRg).inv (hu hinv)
  rw [hshown.rg (hset _) f hf d (by omega), State.rg_setRgs_of_mem (hu hinv) hidx hnodup (hw peer pport bad)]

theorem bits_and_lt (w lo m : Nat) : bits w lo 8 &&& m < 256 :=
  Nat.lt_of_le_of_lt Nat.and_le_left (bits_lt w lo 8)

theorem linkTraining : Clauses.LinkTraining := by
  intro s d idx word delay hinv hd hwf k st w0 lanes noted failed
  refine ⟨exec_linkSignalDetect_of_untrained, exec_linkSignalDetect_of_training, exec_linkSignalDetect_of_idle,
    fun h => congrArg Host.Outcome.next (State.negSym_of_training h),
    fun h => congrArg Host.Outcome.next (State.negSym_of_negotiating h),
    fun h => congrArg Host.Outcome.next (State.negSym_of_other h),
    fun h => ⟨exec_negotiationComplete_of_version h, exec_negotiationComplete_of_lanes h,
      exec_negotiationComplete_of_delay h, fun hversion hlanes hdelay => ?up⟩,
    fun code => State.rg_negFail hinv hd, exec_negotiationComplete_of_other,
    fun hup => ⟨congrArg Host.Outcome.next (State.retrainNeg_of_up hup), congrArg Host.Outcome.next (State.retrainNeg_of_up hup),
      State.rg_retrain hinv hd hup 2⟩,
    fun hup => ⟨congrArg Host.Outcome.next (State.retrainNeg_of_down hup),
      congrArg Host.Outcome.next (State.retrainNeg_of_down hup)⟩,
    exec_retrainTimeout_of_first, exec_retrainTimeout_of_third, exec_retrainTimeout_of_other⟩
  case up =>
    have hmem (f : Fld) (v : Nat) (hf : f.ofLink) (hw : ∀ peer pport bad, (f, d, v) ∈
        upWrites d lanes (k.neg.getD 0 1 &&& 0x1F) peer pport delay bad) := State.rg_linkComesUp hinv hd hf hw
    refine ⟨_, exec_negotiationComplete_of_agreed h hversion hlanes hdelay,
      hmem Rg.dvport_STATE 3 ⟨by decide, by decide⟩ (by simp [upWrites]),
      (hmem Rg.dvport_LANES lanes ⟨by decide, by decide⟩ (by simp [upWrites])).trans (Nat.mod_eq_of_lt (bits_and_lt ..)),
      hmem Rg.dvport_VERSION 1 ⟨by decide, by decide⟩ (by simp [upWrites]),
      hmem Rg.dvport_FEATURES _ ⟨by decide, by decide⟩ (by simp [upWrites]),
      hmem Rg.dvport_NEG_ERR 0 ⟨by decide, by decide⟩ (by simp [upWrites])⟩

/-! ### Lanes -/

section
variable {lane mask check : Nat}

/-- A lane of a port that fails a check, as the fault log has it. -/
def State.laneReport (s : State) (d lane check : Nat) : FaultRec :=
  { cls := 2, unit := 4, index := d, sub := lane, check := check, beat := s.rg Rg.beat_BEATNO }

/-- No lane of the port is being dropped. -/
def LinkPort.laneFree (k : LinkPort) : Prop := k.asked = none ∧ k.drop = none

theorem LinkPort.laneFree_iff (k : LinkPort) : k.laneFree ↔ (k.asked.isSome || k.drop.isSome) = false := by
  simp [LinkPort.laneFree]

theorem State.laneOut_of_free (hup : s.linkUp d = true) (hfree : (s.port d).laneFree)
    (huse : bitN (s.rg Rg.dvport_LANES d) lane = true) : s.laneOut d lane check =
      ((s.countReport (s.laneReport d lane check)).logPair (s.laneReport d lane check) 4 0).retireLane d lane :=
  if_pos (by simp [hup, huse, hfree.1, hfree.2])

theorem State.laneOut_of_not (h : s.linkUp d = false ∨ ¬(s.port d).laneFree ∨ bitN (s.rg Rg.dvport_LANES d) lane = false) :
    s.laneOut d lane check = s := by
  refine if_neg ?_
  rcases h with hup | hbusy | huse
  · simp [hup]
  · simp only [Bool.and_eq_true, Option.isNone_iff_eq_none]
    exact fun ⟨⟨_, hasked⟩, hdrop⟩ => hbusy ⟨hasked, hdrop⟩
  · simp [huse]

theorem exec_laneLockLost_of_down (hup : s.linkUp d = false) : exec (.laneLockLost d lane) s =
    .next (s.setPort d { s.port d with lanes := setBits (s.port d).lanes lane 1 0 }) :=
  if_pos (by simp [hup])

theorem exec_laneLockLost_of_busy (hup : s.linkUp d = true) (hbusy : ¬(s.port d).laneFree) :
    exec (.laneLockLost d lane) s = .next (s.setPort d { s.port d with unlocked := insertNat lane (s.port d).unlocked }) :=
  (if_neg (by simp [hup])).trans (if_pos (Bool.eq_true_of_not_eq_false (mt (LinkPort.laneFree_iff _).mpr hbusy)))

theorem exec_laneLockLost_of_free (hup : s.linkUp d = true) (hfree : (s.port d).laneFree) :
    exec (.laneLockLost d lane) s = .next (s.laneOut d lane 10) :=
  (if_neg (by simp [hup])).trans (if_neg (by simp [(LinkPort.laneFree_iff _).mp hfree]))

/-- A lane has left those that work, which is an event and a change of the working sets. -/
def State.laneGone (s : State) (d lane : Nat) : State :=
  ((s.setPort d { s.port d with lanes := setBits (s.port d).lanes lane 1 0 }).event 0x0303
    (d + lane * 2 ^ 8 + (s.rg Rg.dvport_LANES d - 2 ^ lane) * 2 ^ 16)).unitRetired 4 d lane

theorem State.laneGone_reports (s : State) (d lane : Nat) :
    Reports (s.setPort d { s.port d with lanes := setBits (s.port d).lanes lane 1 0 }) (s.laneGone d lane) :=
  Reports.refl.event.unitRetired

theorem State.bitN_laneGone_features (hinv : s.Inv) (hd : d < 24) :
    bitN ((s.laneGone d lane).rg Rg.dvport_FEATURES d) 0 = (s.rg Rg.dvport_FEATURES d % 2 == 1) := by
  have h := (s.laneGone_reports d lane).shown.rg hinv.setPort Rg.dvport_FEATURES ⟨by decide, by decide⟩ d (by omega)
  rw [h, bitN, Nat.pow_zero, Nat.div_one]
  rfl

/-- A port that has asked for a lane to be dropped has still asked when its symbol has left. -/
theorem State.asked_symbol {ty pay : Nat} {o : Option Nat} (hwf : Cells.wf s.dv.ports = true) :
    (((s.setPort d { s.port d with asked := o }).symbol d ty pay).port d).asked = o := by
  have hsends : Sends (s.setPort d { s.port d with asked := o }) ((s.setPort d { s.port d with asked := o }).symbol d ty pay) :=
    Sends.refl.symbol
  have hlink := (hsends.links (State.wf_setPort hwf)).2 d
  rw [State.port_setPort_self hwf] at hlink
  exact (congrArg LinkPort.asked hlink :)

section
variable (hup : s.linkUp d = true) (hfree : (s.port d).laneFree) (huse : bitN (s.rg Rg.dvport_LANES d) lane = true)
include hup hfree huse

theorem State.retireLane_of_inUse : s.retireLane d lane =
    let left := s.rg Rg.dvport_LANES d - 2 ^ lane
    let u := s.laneGone d lane
    if popCount 8 left < 4 then u.retireLink d 1
    else if !bitN (u.rg Rg.dvport_FEATURES d) 0 then u.retireLink d 2
    else (u.setPort d { u.port d with asked := some left }).symbol d 11 (dropWord left false) :=
  if_neg (by simp [hup, huse, hfree.1, hfree.2])

variable (hinv : s.Inv) (hd : d < 24)
include hinv hd

theorem State.retireLane_retires_link (h : popCount 8 (s.rg Rg.dvport_LANES d - 2 ^ lane) < 4 ∨ s.rg Rg.dvport_FEATURES d % 2 = 0) :
    (s.retireLane d lane).rg Rg.dvport_STATE d = 6 := by
  have hgone : (s.laneGone d lane).Inv := (s.laneGone_reports d lane).shown.inv hinv.setPort
  rw [State.retireLane_of_inUse hup hfree huse]
  by_cases hfew : popCount 8 (s.rg Rg.dvport_LANES d - 2 ^ lane) < 4
  · simp only [if_pos hfew]
    exact State.rg_retireLink hgone hd 1
  · have hfeat := h.resolve_left hfew
    simp only [if_neg hfew, State.bitN_laneGone_features hinv hd, hfeat]
    exact State.rg_retireLink hgone hd 2

theorem State.retireLane_asks (hwf : Cells.wf s.dv.ports = true) (hleft : 4 ≤ popCount 8 (s.rg Rg.dvport_LANES d - 2 ^ lane))
    (hfeat : s.rg Rg.dvport_FEATURES d % 2 = 1) :
    ((s.retireLane d lane).port d).asked = some (s.rg Rg.dvport_LANES d - 2 ^ lane) := by
  have hgone : Cells.wf (s.laneGone d lane).dv.ports = true := by
    rw [(s.laneGone_reports d lane).dv]
    exact State.wf_setPort hwf
  have hasks := (State.retireLane_of_inUse hup hfree huse).trans ((if_neg (Nat.not_lt.mpr hleft)).trans (if_neg
    (by rw [State.bitN_laneGone_features hinv hd, hfeat]; decide)))
  rw [hasks]
  exact State.asked_symbol hgone

end

/-- The window of a port's lanes shows its counts and starts again. -/
def State.ceShown (s : State) (d : Nat) : State :=
  ((List.range 8).foldl (fun t l => t.setRg Rg.dvport_LANE_CE (8 * d + l) ((s.port d).ce.getD 0 l)) s).setPort d
    { s.port d with ce := [] }

theorem exec_laneCeWindow (d : Nat) (s : State) : exec (.laneCeWindow d) s =
    match (List.range 8).find? (fun l => decide (s.rg Rg.dvport_LANE_CE_LIMIT d < (s.port d).ce.getD 0 l)) with
    | some l => .next ((s.ceShown d).laneOut d l 5)
    | none => .next (s.ceShown d) := rfl

theorem exec_laneCeWindow_of_within (h : ∀ l, l < 8 → (s.port d).ce.getD 0 l ≤ s.rg Rg.dvport_LANE_CE_LIMIT d) :
    exec (.laneCeWindow d) s = .next (s.ceShown d) := by
  have hnone : (List.range 8).find? (fun l => decide (s.rg Rg.dvport_LANE_CE_LIMIT d < (s.port d).ce.getD 0 l)) = none :=
    List.find?_eq_none.mpr fun l hl => by simpa using h l (List.mem_range.mp hl)
  rw [exec_laneCeWindow, hnone]

theorem exec_laneCeWindow_of_over (hlane : lane < 8) (hover : s.rg Rg.dvport_LANE_CE_LIMIT d < (s.port d).ce.getD 0 lane)
    (hlow : ∀ l, l < lane → (s.port d).ce.getD 0 l ≤ s.rg Rg.dvport_LANE_CE_LIMIT d) :
    exec (.laneCeWindow d) s = .next ((s.ceShown d).laneOut d lane 5) := by
  have hsome : (List.range 8).find? (fun l => decide (s.rg Rg.dvport_LANE_CE_LIMIT d < (s.port d).ce.getD 0 l)) = some lane :=
    List.find?_range_eq_some.mpr ⟨by simpa using hover, by simpa using hlane, fun l hl => by simpa using hlow l hl⟩
  rw [exec_laneCeWindow, hsome]

theorem State.rg_ceShown (hinv : s.Inv) (hd : d < 24) (hlane : lane < 8) :
    (s.ceShown d).rg Rg.dvport_LANE_CE (8 * d + lane) = (s.port d).ce.getD 0 lane % 2 ^ Rg.dvport_LANE_CE.w := by
  obtain ⟨ws, hws⟩ : ∃ ws : List (Fld × Nat × Nat),
      ws = (List.range 8).map (fun l => (Rg.dvport_LANE_CE, 8 * d + l, (s.port d).ce.getD 0 l)) := ⟨_, rfl⟩
  have hshown : (s.ceShown d).regs = (s.setRgs ws).regs := by
    rw [hws, State.setRgs, List.foldl_map]
    rfl
  have hidx : ∀ p ∈ ws.map writeKey, p.2 < 2 ^ 20 := by
    simp only [hws, List.map_map, List.forall_mem_map, List.mem_range]
    intro l hl
    change 8 * d + l < 2 ^ 20
    omega
  have hnodup : (ws.map writeKey).Nodup := by
    rw [hws, List.map_map]
    refine List.Nodup.map (fun a b hab => ?_) List.nodup_range
    have : 8 * d + a = 8 * d + b := congrArg Prod.snd hab
    omega
  have hmem : (Rg.dvport_LANE_CE, 8 * d + lane, (s.port d).ce.getD 0 lane) ∈ ws :=
    hws ▸ List.mem_map.mpr ⟨lane, List.mem_range.mpr hlane, rfl⟩
  rw [← State.rg_setRgs_of_mem hinv hidx hnodup hmem]
  simp only [State.rg, State.copyOf, hshown]

/-! ### LANE_DROP -/

theorem exec_laneDropSymbol (d mask : Nat) (b : Bool) (s : State) :
    exec (.laneDropSymbol d mask b) s = .next (s.dropSym d mask b) := rfl

/-- The port drops all lanes but those of a mask. -/
def State.dropping (s : State) (d m : Nat) : State :=
  s.setPort d { s.port d with asked := none, drop := some m, lanes := (s.port d).lanes &&& m }

theorem State.dropSym_of_down {b : Bool} (hup : s.linkUp d = false) : s.dropSym d mask b = s := if_pos (by simp [hup])

theorem State.dropSym_of_confirm (hup : s.linkUp d = true) : s.dropSym d mask true =
    let m := mask &&& s.rg Rg.dvport_LANES d
    if popCount 8 m < 4 then (s.dropping d m).retireLink d 1 else (s.dropping d m).linkSet d 3 m :=
  if_neg (by simp [hup])

theorem State.dropSym_of_request (hup : s.linkUp d = true) : s.dropSym d mask false =
    let m := mask &&& s.rg Rg.dvport_LANES d
    let u := s.symbol d 11 (dropWord mask true)
    if popCount 8 m < 4 then (u.dropping d m).retireLink d 1 else (u.dropping d m).linkSet d 3 m := by
  rw [← State.rg_symbol s d 11 (dropWord mask true) Rg.dvport_LANES d]
  exact if_neg (by simp [hup])

/-! ### The end of a deskew -/

/-- Both ends have deskewed: every flit not acknowledged is sent again, and flits resume. -/
def State.deskewed (s : State) (d : Nat) : State :=
  ((s.setPort d { s.port d with drop := none, slot := 0, unlocked := (s.port d).unlocked.tail }).resendFlits d
    (s.port d).replay).run d

theorem exec_laneDeskewDone_of_dropping (hup : s.linkUp d = true) (hdrop : (s.port d).drop ≠ none) :
    exec (.laneDeskewDone d) s = match (s.port d).unlocked with
      | [] => .next (s.deskewed d)
      | l :: _ => .next ((s.deskewed d).laneOut d l 10) :=
  if_pos (by simp [hup, Option.isSome_iff_ne_none, hdrop])

theorem exec_laneDeskewDone_of_not (h : s.linkUp d = false ∨ (s.port d).drop = none) :
    exec (.laneDeskewDone d) s = .next s := by
  refine if_neg ?_
  rcases h with hup | hdrop
  · simp [hup]
  · simp [hdrop]

end

theorem linkLanes : Clauses.LinkLanes := by
  intro s d lane mask check hinv hd hwf k r inUse free m asked confirmed counts again
  refine ⟨exec_laneLockLost_of_down, exec_laneLockLost_of_busy,
    fun hup hfree huse => (exec_laneLockLost_of_free hup hfree).trans
      (congrArg Host.Outcome.next (State.laneOut_of_free hup hfree huse)),
    fun hup hfree huse => (exec_laneLockLost_of_free hup hfree).trans
      (congrArg Host.Outcome.next (State.laneOut_of_not (.inr (.inr huse)))),
    fun hup hfree huse => ⟨State.laneOut_of_free hup hfree huse, State.retireLane_retires_link hup hfree huse hinv hd,
      State.retireLane_asks hup hfree huse hinv hd hwf⟩,
    State.laneOut_of_not, exec_laneCeWindow_of_within, exec_laneCeWindow_of_over, fun l => State.rg_ceShown hinv hd,
    fun hup b => congrArg Host.Outcome.next (State.dropSym_of_down hup),
    fun hup hleft => ⟨?confirm, ?request⟩, fun hup hfew => ⟨?lastConfirm, ?lastRequest⟩,
    fun hup hdrop => ⟨fun hnone => ?resume, fun l t hwaits => ?turn⟩, exec_laneDeskewDone_of_not⟩
  case confirm => exact congrArg Host.Outcome.next ((State.dropSym_of_confirm hup).trans (if_neg (Nat.not_lt.mpr hleft)))
  case request => exact congrArg Host.Outcome.next ((State.dropSym_of_request hup).trans (if_neg (Nat.not_lt.mpr hleft)))
  case lastConfirm => exact congrArg Host.Outcome.next ((State.dropSym_of_confirm hup).trans (if_pos hfew))
  case lastRequest => exact congrArg Host.Outcome.next ((State.dropSym_of_request hup).trans (if_pos hfew))
  case resume => rw [exec_laneDeskewDone_of_dropping hup hdrop, hnone]; rfl
  case turn => rw [exec_laneDeskewDone_of_dropping hup hdrop, hwaits]; rfl

/-- Settles O33: the two parts above. -/
theorem linkTrainingAndLanes : Obligations.LinkTrainingAndLanes := ⟨linkTraining, linkLanes⟩

end
end Sys2Proof.Machine
end

section

/-!
## Transport: requests and responses

A packet that arrives leaves the inbox and is answered; what each function of the transport engines does is said once, with a
lemma for each way in which it can end. A receiver answers with a packet, which leaves memory and the receivers as they are.
-/

namespace Sys2Proof.Machine

section
variable {s u v t : State} {n op k c : Nat} {p q : DvPkt} {r : RecvConn} {i : Instr}

/-! ### The inbox -/

/-- The n-th packet has left the inbox. -/
def State.unboxed (s : State) (n : Nat) : State := { s with dv := { s.dv with inbox := s.dv.inbox.eraseIdx n } }

theorem State.fromInbox_of_none (h : s.dv.inbox[n]? = none) : s.fromInbox n op = none := by
  rw [State.fromInbox, h]

theorem State.fromInbox_of_op (h : s.dv.inbox[n]? = some p) (hop : p.op ≠ op) : s.fromInbox n op = none := by
  rw [State.fromInbox, h]
  exact if_neg hop

theorem State.fromInbox_of_some (h : s.dv.inbox[n]? = some p) (hop : p.op = op) : s.fromInbox n op = some (p, s.unboxed n) := by
  rw [State.fromInbox, h]
  exact if_pos hop

theorem State.takeRequest_of_none (h : s.fromInbox n op = none) : s.takeRequest n op = s := by
  rw [State.takeRequest, h]

theorem State.takeRequest_of_some (h : s.fromInbox n op = some (p, u)) : s.takeRequest n op = u.request p := by
  rw [State.takeRequest, h]

/-- The commands of the request packets differ only in the opcode. -/
theorem exec_takeRequest (hi : (op, i) ∈ [(1, Instr.dvWrite n), (2, .dvExch n), (3, .combineAnchor n), (4, .combineValue n),
    (5, .dvRead n)]) : exec i s = .next (s.takeRequest n op) := by
  simp only [List.mem_cons, Prod.mk.injEq, List.not_mem_nil, or_false] at hi
  obtain ⟨rfl, rfl⟩ | ⟨rfl, rfl⟩ | ⟨rfl, rfl⟩ | ⟨rfl, rfl⟩ | ⟨rfl, rfl⟩ := hi <;> rfl

/-! ### A request -/

/-- A packet is a beat connection's of this attempt, or a programmed connection's. -/
def State.live (s : State) (p : DvPkt) : Prop := p.origin = 2 ∨ p.epoch = s.dom.attempt

/-- The receiver of a request. -/
def requestKey (p : DvPkt) : Nat := recvKey p.src p.origin p.cn

theorem State.not_live_iff : ¬s.live p ↔ p.origin ≠ 2 ∧ p.epoch ≠ s.dom.attempt := not_or

theorem State.request_of_not_live (h : ¬s.live p) : s.request p = s := if_pos (State.not_live_iff.mp h)

theorem State.request_of_live (h : s.live p) : s.request p = match (s.recv (requestKey p)).refused with
    | some (o, c) =>
      if p.op = 5 ∨ o ≠ p.opid then s.accept (requestKey p) p
      else if p.psn = (s.recv (requestKey p)).next then s.respond (requestKey p) 0x13 p.psn c p.opid 0 [] p.last
      else s
    | none => s.accept (requestKey p) p :=
  if_neg (mt State.not_live_iff.mpr (not_not_intro h))

section
variable (hlive : s.live p)
include hlive

theorem State.request_of_refused_next (hop : p.op ≠ 5) (href : (s.recv (requestKey p)).refused = some (p.opid, c))
    (hpsn : p.psn = (s.recv (requestKey p)).next) : s.request p = s.respond (requestKey p) 0x13 p.psn c p.opid 0 [] p.last := by
  rw [State.request_of_live hlive, href]
  exact (if_neg (by simp [hop])).trans (if_pos hpsn)

theorem State.request_of_refused_other (hop : p.op ≠ 5) (href : (s.recv (requestKey p)).refused = some (p.opid, c))
    (hpsn : p.psn ≠ (s.recv (requestKey p)).next) : s.request p = s := by
  rw [State.request_of_live hlive, href]
  exact (if_neg (by simp [hop])).trans (if_neg hpsn)

theorem State.request_of_not_refused (h : p.op = 5 ∨ ∀ c, (s.recv (requestKey p)).refused ≠ some (p.opid, c)) :
    s.request p = s.accept (requestKey p) p := by
  rw [State.request_of_live hlive]
  split
  · rename_i o c href
    exact if_pos (h.imp_right fun h ho => h c (href.trans (by rw [ho])))
  · rfl

end

/-- A packet has been seen before: it has been applied, or is held. -/
def RecvConn.dup (r : RecvConn) (p : DvPkt) : Bool := !psnGe p.psn r.next || r.held.any (fun q => q.psn == p.psn)

/-- The receiver holds a packet. -/
def RecvConn.holding (r : RecvConn) (p : DvPkt) : RecvConn := { r with held := r.held ++ [p] }

theorem State.accept_of_dup (h : (s.recv k).dup p = true) : s.accept k p = s.ack k := if_pos h

section
variable (hdup : (s.recv k).dup p = false)
include hdup

theorem State.accept_of_next (hpsn : p.psn = (s.recv k).next) :
    s.accept k p = (s.setRecv k ((s.recv k).holding p)).advance k ((s.recv k).held.length + 1) :=
  (if_neg (ne_true_of_eq_false hdup)).trans ((if_neg (by simp [hpsn])).trans (if_pos hpsn))

theorem State.accept_of_full (hpsn : p.psn ≠ (s.recv k).next)
    (hfull : 2 * 2 ^ 20 < s.reorderUsed (dvEngine p) + p.data.length) : s.accept k p = s :=
  (if_neg (ne_true_of_eq_false hdup)).trans (if_pos ⟨hpsn, hfull⟩)

theorem State.accept_of_ahead (hpsn : p.psn ≠ (s.recv k).next)
    (hroom : s.reorderUsed (dvEngine p) + p.data.length ≤ 2 * 2 ^ 20) :
    s.accept k p = (s.setRecv k ((s.recv k).holding p)).ack k :=
  (if_neg (ne_true_of_eq_false hdup)).trans ((if_neg fun h => Nat.not_lt.mpr hroom h.2).trans (if_neg hpsn))

end

/-! ### Receivers -/

theorem State.recv_setRecv (hwf : Cells.wf s.dv.recv = true) : (s.setRecv k r).recv k = r :=
  Cells.getD_set_self s.dv.recv {} k r hwf

/-- A receiver that is not as at reset is listed, whatever the list was. -/
theorem State.recv_setRecv_of_ne (h : r ≠ {}) : (s.setRecv k r).recv k = r := by
  change ((s.dv.recv.set {} k r).get? k).getD {} = r
  rw [Cells.set, if_neg h, Cells.get?_put_self]
  rfl

theorem State.wf_setRecv (hwf : Cells.wf s.dv.recv = true) : Cells.wf (s.setRecv k r).dv.recv = true :=
  Cells.wf_set s.dv.recv {} k r hwf

theorem State.respond_mem (s : State) (k op psn aux opid addr : Nat) (data : List Byte) (last : Bool) :
    (s.respond k op psn aux opid addr data last).mem = s.mem := State.sendPkt_mem ..

theorem State.respond_recv (s : State) (k op psn aux opid addr : Nat) (data : List Byte) (last : Bool) :
    (s.respond k op psn aux opid addr data last).dv.recv = s.dv.recv := State.sendPkt_recv ..

theorem State.ack_mem (s : State) (k : Nat) : (s.ack k).mem = s.mem := State.respond_mem ..

theorem State.recv_ack (hwf : Cells.wf s.dv.recv = true) : (s.ack k).recv k = { s.recv k with since := 0 } := by
  rw [State.recv, State.ack, State.respond_recv]
  exact State.recv_setRecv hwf

/-- A packet has been passed by its receiver, which expects the next one. -/
def RecvConn.passed (r : RecvConn) (p : DvPkt) : RecvConn :=
  { r with
    next := (r.next + 1) % 2 ^ 24, held := r.held.filter (fun q => q.psn != p.psn), since := r.since + 1, stall := none,
    stallTick := false }

/-- A packet is passed, and an ACK goes out when it is the last of its operation or the eighth since one. -/
def State.passPkt (s : State) (k : Nat) (p : DvPkt) : State :=
  let u := s.setRecv k ((s.recv k).passed p)
  if p.last || decide (8 ≤ (u.recv k).since) then u.ack k else u

theorem State.passPkt_cases (s : State) (k : Nat) (p : DvPkt) :
    s.passPkt k p = (s.setRecv k ((s.recv k).passed p)).ack k ∨
    (p.last = false ∧ s.passPkt k p = s.setRecv k ((s.recv k).passed p)) := by
  by_cases h : (p.last || decide (8 ≤ ((s.setRecv k ((s.recv k).passed p)).recv k).since)) = true
  · exact .inl (if_pos h)
  · exact .inr ⟨(Bool.or_eq_false_iff.mp (Bool.eq_false_iff.mpr h)).1, if_neg h⟩

theorem State.passPkt_mem (s : State) (k : Nat) (p : DvPkt) : (s.passPkt k p).mem = s.mem := by
  rcases s.passPkt_cases k p with h | ⟨_, h⟩ <;> rw [h]
  · exact State.ack_mem ..
  · rfl

theorem State.recv_passPkt (hwf : Cells.wf s.dv.recv = true) :
    ∃ since, (s.passPkt k p).recv k = { (s.recv k).passed p with since := since } ∧ (p.last = true → since = 0) := by
  rcases s.passPkt_cases k p with h | ⟨hmore, h⟩ <;> rw [h]
  · exact ⟨0, by rw [State.recv_ack (State.wf_setRecv hwf), State.recv_setRecv hwf], fun _ => rfl⟩
  · exact ⟨_, State.recv_setRecv hwf, fun hlast => absurd (hmore.symm.trans hlast) Bool.false_ne_true⟩

theorem State.advance_succ (s : State) (k n : Nat) : s.advance k (n + 1) =
    match (s.recv k).held.find? (fun q => q.psn == (s.recv k).next) with
    | none => s
    | some p =>
      match s.applyPkt k p with
      | .ok s1 => (s1.passPkt k p).advance k n
      | .refuse c =>
        if p.op = 5 then ((s.respond k 6 p.psn (1 + 2 * c) p.opid p.addr [] p.last).passPkt k p).advance k n
        else (s.setRecv k { s.recv k with
          held := (s.recv k).held.filter (fun q => q.opid != p.opid), refused := some (p.opid, c), stall := none,
          stallTick := false }).respond k 0x13 p.psn c p.opid 0 [] p.last
      | .miss => ((s.setRecv k { s.recv k with stall := some p.psn }).respond k 0x11 p.psn 0 p.opid 0 [] false).emit
        (.paging p.src p.cn p.addr)
      | .waitTick => s.setRecv k { s.recv k with stall := some p.psn, stallTick := true } := rfl

theorem State.advance_of_none (h : (s.recv k).held.find? (fun q => q.psn == (s.recv k).next) = none) (n : Nat) :
    s.advance k n = s := by
  cases n with
  | zero => rfl
  | succ n => rw [State.advance_succ, h]

theorem State.advance_of_ok (h : (s.recv k).held.find? (fun q => q.psn == (s.recv k).next) = some p)
    (happ : s.applyPkt k p = .ok v) (n : Nat) : s.advance k (n + 1) = (v.passPkt k p).advance k n := by
  rw [State.advance_succ, h]
  simp only [happ]

theorem dvRequests : Clauses.DvRequests := by
  intro s n op i p hi u k r live dup engine held taken
  have hexec : exec i s = .next (s.takeRequest n op) := exec_takeRequest hi
  have htake (hp : s.dv.inbox[n]? = some p) (hop : p.op = op) : exec i s = .next (u.request p) :=
    hexec.trans (congrArg Host.Outcome.next (State.takeRequest_of_some (State.fromInbox_of_some hp hop)))
  have haccept (h : taken) : exec i s = .next (u.accept k p) := by
    obtain ⟨hp, hop, hlive, hfresh⟩ := h
    exact (htake hp hop).trans (congrArg Host.Outcome.next
      (State.request_of_not_refused (s := u) hlive (hfresh.imp_left fun h => hop.trans h)))
  have hnext (h : taken) (hdup : dup = false) (hpsn : p.psn = r.next) :
      exec i s = .next (held.advance k (r.held.length + 1)) :=
    (haccept h).trans (congrArg Host.Outcome.next (State.accept_of_next (s := u) hdup hpsn))
  refine ⟨fun h => hexec.trans (congrArg Host.Outcome.next (State.takeRequest_of_none (State.fromInbox_of_none h))),
    fun h hop => hexec.trans (congrArg Host.Outcome.next (State.takeRequest_of_none (State.fromInbox_of_op h hop))),
    fun h hop hlive => (htake h hop).trans (congrArg Host.Outcome.next (State.request_of_not_live (s := u) hlive)),
    fun h hop hlive hop5 c href => ⟨fun hpsn => ?again, fun hpsn => ?early⟩,
    fun h hdup => (haccept h).trans (congrArg Host.Outcome.next (State.accept_of_dup (s := u) hdup)),
    fun h hdup hpsn => ⟨fun hfull => ?full, fun hroom => ?room⟩,
    fun h hdup hpsn => ⟨hnext h hdup hpsn, fun v hnil hlast happ hv hwf => ?pass⟩⟩
  case again => exact (htake h hop).trans (congrArg Host.Outcome.next
    (State.request_of_refused_next (s := u) hlive (hop ▸ hop5) href hpsn))
  case early => exact (htake h hop).trans (congrArg Host.Outcome.next
    (State.request_of_refused_other (s := u) hlive (hop ▸ hop5) href hpsn))
  case full => exact (haccept h).trans (congrArg Host.Outcome.next (State.accept_of_full (s := u) hdup hpsn hfull))
  case room => exact (haccept h).trans (congrArg Host.Outcome.next (State.accept_of_ahead (s := u) hdup hpsn hroom))
  case pass =>
    have hheld : held.recv k = { r with held := [p] } := by
      have hne : r.holding p ≠ {} := fun h => by simpa [RecvConn.holding] using congrArg RecvConn.held h
      exact (State.recv_setRecv_of_ne (s := u) (k := k) hne).trans (by rw [RecvConn.holding, hnil, List.nil_append])
    have hfind : (held.recv k).held.find? (fun q => q.psn == (held.recv k).next) = some p := by
      rw [hheld]
      exact List.find?_cons_of_pos (by simpa using hpsn)
    obtain ⟨since, hpassed, hsince⟩ := State.recv_passPkt (k := k) (p := p) hwf
    refine ⟨v.passPkt k p, ?_, ?_, ?_, ?_, State.passPkt_mem ..⟩
    · rw [hnext h hdup hpsn, hnil]
      exact congrArg Host.Outcome.next (State.advance_of_ok hfind happ 0)
    · rw [hpassed, hv]
      rfl
    · rw [hpassed, hv]
      simp [RecvConn.passed]
    · rw [hpassed]
      exact hsince hlast

end
end Sys2Proof.Machine
end

section

/-!
## What a packet in turn does

A WRITE and a READ name bytes of a slice, of HBM or of hub SRAM; there is a lemma for each place, which says what the packet
finds there. The next packets of a connection are applied one by one (`State.advance`).
-/

namespace Sys2Proof.Machine

section
variable {s : State} {k a n c : Nat} {p q : DvPkt} {bs : List Byte} {wr : Bool}

/-! ### Hub SRAM -/

theorem State.putHub_of_none (h : s.sieveBank a = none) (b : Byte) : s.putHub a b = { s with mem := s.mem.put (kHub a) b } := by
  rw [show State.putHub = _ by delta State.putHub; rfl]
  simp only [h]

/-- What an address is to Sieve is in registers. -/
theorem State.sieveBank_put (s : State) (x a : Nat) (b : Byte) :
    State.sieveBank { s with mem := s.mem.put x b } a = s.sieveBank a := rfl

theorem State.writeHub_of_none (h : ∀ j, j < bs.length → s.sieveBank (a + j) = none) :
    s.writeHub a bs = s.writeB (kHub a) bs := by
  induction bs generalizing s a with
  | nil => rfl
  | cons b t ih =>
    have hfirst : s.sieveBank a = none := h 0 (by simp)
    rw [State.writeHub, State.putHub_of_none hfirst, ih]
    · rfl
    · intro j hj
      rw [State.sieveBank_put, Nat.add_right_comm, Nat.add_assoc]
      exact h (j + 1) (by simpa using hj)

/-! ### Slices -/

theorem State.sliceCause_of_down (hdown : s.tileUp (p.addr / 2 ^ 24) = false) : s.sliceCause p = 5 :=
  if_pos (by rw [hdown]; decide)

section
variable (hup : s.tileUp (p.addr / 2 ^ 24) = true)
include hup

theorem State.sliceCause_of_long (h : 32 * s.sliceLines (p.addr / 2 ^ 24) < p.addr % 2 ^ 24 + p.len) : s.sliceCause p = 4 :=
  (if_neg (by rw [hup]; decide)).trans (if_pos h)

theorem State.sliceCause_of_inside (h : p.addr % 2 ^ 24 + p.len ≤ 32 * s.sliceLines (p.addr / 2 ^ 24)) : s.sliceCause p = 0 :=
  (if_neg (by rw [hup]; decide)).trans (if_neg (by omega))

end

theorem State.readSlice_of_window {t : Nat} (h : ∃ l ∈ linesOf a n, s.winWaits t (.slice t l) = true) :
    s.readSlice t a n = none :=
  if_pos (List.any_eq_true.mpr h)

theorem State.readSlice_of_clear {t : Nat} (h : ∀ l ∈ linesOf a n, s.winWaits t (.slice t l) = false ∧
    s.inScratch t (.slice t l) = false ∧ s.inLog t (.slice t l) = false) :
    s.readSlice t a n = some (s.committedSlice t a n) := by
  refine (if_neg ?_).trans (if_neg ?_) <;> rw [Bool.not_eq_true, List.any_eq_false] <;> intro l hl <;>
    obtain ⟨hwin, hscratch, hlog⟩ := h l hl
  · simp [hwin]
  · simp [hscratch, hlog]

/-! ### HBM -/

theorem pageSpans_of_page (h : a % 2 ^ 21 + n ≤ 2 ^ 21) : pageSpans a n = [(a, n)] :=
  if_pos (Nat.min_eq_left (by omega))

theorem State.pktSpans_of_plain (h : p.xlate = false ∨ s.flag Rg.dvorar_XLATE_EN = false) :
    s.pktSpans p wr = some (some [(p.addr, p.len)]) :=
  if_neg (by rcases h with h | h <;> simp [h])

/-- The place in HBM of a remote address. -/
def State.pageAddr (s : State) (a : Nat) : Nat := s.rattEntry a % 2 ^ 18 * 2 ^ 21 + a % 2 ^ 21

section
variable (hx : p.xlate = true) (hen : s.flag Rg.dvorar_XLATE_EN = true) (hend : p.addr + p.len ≤ 2 ^ 39)
  (hpage : p.addr % 2 ^ 21 + p.len ≤ 2 ^ 21)
include hx hen hend hpage

/-- A packet within one page is translated by that page's entry. -/
theorem State.pktSpans_of_page : s.pktSpans p wr =
    if bitN (s.rattEntry p.addr) 18 = false then none
    else if wr = true ∧ bitN (s.rattEntry p.addr) 19 = false then some none
    else some (some [(s.pageAddr p.addr, p.len)]) := by
  refine (if_pos (by simp [hx, hen])).trans ?_
  unfold State.xlate
  simp only [pageSpans_of_page hpage, if_neg (Nat.not_lt.mpr hend), List.any_cons, List.any_nil, Bool.or_false,
    Bool.not_eq_true', Bool.and_eq_true, List.map_cons, List.map_nil]
  rfl

theorem State.pktSpans_of_miss (hvalid : bitN (s.rattEntry p.addr) 18 = false) : s.pktSpans p wr = none := by
  rw [State.pktSpans_of_page hx hen hend hpage, if_pos hvalid]

variable (hvalid : bitN (s.rattEntry p.addr) 18 = true)
include hvalid

theorem State.pktSpans_of_readOnly (hro : bitN (s.rattEntry p.addr) 19 = false) : s.pktSpans p true = some none := by
  rw [State.pktSpans_of_page hx hen hend hpage, if_neg (by simp [hvalid]), if_pos ⟨rfl, hro⟩]

theorem State.pktSpans_of_valid (h : wr = true → bitN (s.rattEntry p.addr) 19 = true) :
    s.pktSpans p wr = some (some [(s.pageAddr p.addr, p.len)]) := by
  rw [State.pktSpans_of_page hx hen hend hpage, if_neg (by simp [hvalid]), if_neg fun hw => by simp [h hw.1] at hw]

end

/-! ### A WRITE -/

theorem State.applyWrite_slice (hsp : p.space = 0) : s.applyWrite p =
    if s.sliceCause p ≠ 0 then .refuse (s.sliceCause p)
    else .ok (s.writeB (kSlice (p.addr / 2 ^ 24) (p.addr % 2 ^ 24)) p.data) := by
  simp only [State.applyWrite, hsp]

theorem State.applyWrite_hub (hsp : p.space = 2) : s.applyWrite p =
    if p.addr + p.len ≤ 96 * 2 ^ 20 then .ok (s.writeHub p.addr p.data) else .refuse 4 := by
  simp only [State.applyWrite, hsp]

theorem State.applyWrite_none (hsp : p.space = 3) : s.applyWrite p = .refuse 4 := by
  simp only [State.applyWrite, hsp]

section
variable (hsp : p.space = 1)
include hsp

theorem State.applyWrite_miss (hspans : s.pktSpans p true = none) : s.applyWrite p = .miss := by
  simp only [State.applyWrite, hsp, hspans]

theorem State.applyWrite_readOnly (hspans : s.pktSpans p true = some none) : s.applyWrite p = .refuse 6 := by
  simp only [State.applyWrite, hsp, hspans]

variable (hspans : s.pktSpans p true = some (some [(a, n)]))
include hspans

theorem State.applyWrite_hbm : s.applyWrite p =
    if s.cowHeld a n = true then .waitTick
    else if s.hbmOk a n = true then .ok (s.writeHbm a (p.data.take n)) else .refuse 4 := by
  simp only [State.applyWrite, hsp, hspans, List.any_cons, List.any_nil, Bool.or_false, List.all_cons, List.all_nil, Bool.and_true]
  rfl

theorem State.applyWrite_of_cutting (hheld : s.cowHeld a n = true) : s.applyWrite p = .waitTick := by
  rw [State.applyWrite_hbm hsp hspans, if_pos hheld]

variable (hfree : s.cowHeld a n = false)
include hfree

theorem State.applyWrite_of_hbm (hok : s.hbmOk a n = true) : s.applyWrite p = .ok (s.writeHbm a (p.data.take n)) := by
  rw [State.applyWrite_hbm hsp hspans, if_neg (by simp [hfree]), if_pos hok]

theorem State.applyWrite_of_outside (hok : s.hbmOk a n = false) : s.applyWrite p = .refuse 4 := by
  rw [State.applyWrite_hbm hsp hspans, if_neg (by simp [hfree]), if_neg (by simp [hok])]

end

/-! ### A READ -/

/-- The answer of a READ that has found its bytes. -/
def State.readAnswer (s : State) (k : Nat) (p : DvPkt) (bs : List Byte) : Applied :=
  .ok ((s.respond k 6 p.psn 0 p.opid p.addr bs p.last).drawn)

theorem State.applyRead_of_bytes (h : s.remoteRead p = .inr bs) : s.applyRead k p = s.readAnswer k p bs := by
  rw [State.applyRead, h]
  rfl

theorem State.applyRead_of_failed {x : Applied} (h : s.remoteRead p = .inl x) : s.applyRead k p = x := by
  rw [State.applyRead, h]

theorem State.remoteRead_hub (hsp : p.space = 2) : s.remoteRead p =
    if p.addr + p.len ≤ 96 * 2 ^ 20 then .inr (s.readB (kHub p.addr) p.len) else .inl (.refuse 4) := by
  simp only [State.remoteRead, hsp]

theorem State.remoteRead_none (hsp : p.space = 3) : s.remoteRead p = .inl (.refuse 4) := by
  simp only [State.remoteRead, hsp]

section
variable (hsp : p.space = 0)
include hsp

theorem State.remoteRead_of_cause (h : s.sliceCause p ≠ 0) : s.remoteRead p = .inl (.refuse (s.sliceCause p)) := by
  simp only [State.remoteRead, hsp]
  exact if_pos h

theorem State.remoteRead_slice (h : s.sliceCause p = 0) : s.remoteRead p =
    match s.readSlice (p.addr / 2 ^ 24) (p.addr % 2 ^ 24) p.len with
    | none => .inl .waitTick
    | some bs => .inr bs := by
  simp only [State.remoteRead, hsp]
  exact if_neg (not_not_intro h)

end

section
variable (hsp : p.space = 1)
include hsp

theorem State.remoteRead_miss (hspans : s.pktSpans p false = none) : s.remoteRead p = .inl .miss := by
  simp only [State.remoteRead, hsp, hspans]

variable (hspans : s.pktSpans p false = some (some [(a, n)]))
include hspans

theorem State.remoteRead_hbm (hbytes : s.committedHbm a n = some bs) : s.remoteRead p = .inr bs := by
  simp only [State.remoteRead, hsp, hspans, List.append_nil, State.readSpans, hbytes]

theorem State.remoteRead_outside (hbytes : s.committedHbm a n = none) : s.remoteRead p = .inl (.refuse 4) := by
  simp only [State.remoteRead, hsp, hspans, State.readSpans, hbytes]

end

/-! ### A packet -/

theorem State.applyPkt_of_moving (hop : p.op = 1 ∨ p.op = 5) (hsp : p.space = 0) (hmove : s.moving (p.addr / 2 ^ 24) = true) :
    s.applyPkt k p = .waitTick :=
  if_pos ⟨hsp, hop, hmove⟩

section
variable (hstill : p.space = 0 → s.moving (p.addr / 2 ^ 24) = false)
include hstill

theorem State.not_moving : ¬(p.space = 0 ∧ (p.op = 1 ∨ p.op = 5) ∧ s.moving (p.addr / 2 ^ 24) = true) :=
  fun ⟨hsp, _, hmove⟩ => Bool.false_ne_true ((hstill hsp).symm.trans hmove)

theorem State.applyPkt_write (hop : p.op = 1) : s.applyPkt k p = s.applyWrite p := by
  refine (if_neg (State.not_moving hstill)).trans ?_
  simp only [hop]

theorem State.applyPkt_read (hop : p.op = 5) : s.applyPkt k p = s.applyRead k p := by
  refine (if_neg (State.not_moving hstill)).trans ?_
  simp only [hop]

/-- A WRITE and a READ are refused for the same causes, but for a read-only page. -/
theorem State.applyPkt_of_refused (hop : p.op = 1 ∨ p.op = 5) (hwrite : s.applyWrite p = .refuse c)
    (hread : s.remoteRead p = .inl (.refuse c)) : s.applyPkt k p = .refuse c := by
  rcases hop with hop | hop
  · rw [State.applyPkt_write hstill hop, hwrite]
  · rw [State.applyPkt_read hstill hop, State.applyRead_of_failed hread]

theorem State.applyPkt_of_sliceCause (hop : p.op = 1 ∨ p.op = 5) (hsp : p.space = 0) (hcause : s.sliceCause p = c)
    (hne : c ≠ 0) : s.applyPkt k p = .refuse c := by
  subst hcause
  exact State.applyPkt_of_refused hstill hop ((State.applyWrite_slice hsp).trans (if_pos hne)) (State.remoteRead_of_cause hsp hne)

end

section
variable (hmin : 2 ≤ p.op) (hmax : p.op ≤ 4)
include hmin hmax

theorem State.applyPkt_exch : s.applyPkt k p =
    if p.space ≠ 0 then .refuse 4
    else if !s.tileUp (p.addr / 2 ^ 24) then .refuse 5
    else
      let r := s.recv k
      let s1 := s.takePacket (xpktOf p r.entry)
      .ok (s1.setRecv k { s1.recv k with entry := if p.last then 0 else r.entry + pktEntries p }) := by
  obtain hop | hop | hop : p.op = 2 ∨ p.op = 3 ∨ p.op = 4 := by omega
  all_goals
    refine (if_neg fun ⟨_, hrw, _⟩ => by omega).trans ?_
    simp only [hop]

end

end
end Sys2Proof.Machine
end

section

/-!
## Packets that are applied

The three places that a WRITE and a READ name, the exchange of a tile, and what a connection does with a packet that is
refused, misses or waits.
-/

namespace Sys2Proof.Machine

section
variable {s : State} {k c : Nat} {p : DvPkt}

theorem State.advance_of_refused (h : (s.recv k).held.find? (fun q => q.psn == (s.recv k).next) = some p)
    (happ : s.applyPkt k p = .refuse c) (hop : p.op ≠ 5) (n : Nat) : s.advance k (n + 1) = (s.setRecv k { s.recv k with
      held := (s.recv k).held.filter (fun q => q.opid != p.opid), refused := some (p.opid, c), stall := none,
      stallTick := false }).respond k 0x13 p.psn c p.opid 0 [] p.last := by
  rw [State.advance_succ, h]
  simp only [happ, if_neg hop]

theorem State.advance_of_refused_read (h : (s.recv k).held.find? (fun q => q.psn == (s.recv k).next) = some p)
    (happ : s.applyPkt k p = .refuse c) (hop : p.op = 5) (n : Nat) : s.advance k (n + 1) =
      ((s.respond k 6 p.psn (1 + 2 * c) p.opid p.addr [] p.last).passPkt k p).advance k n := by
  rw [State.advance_succ, h]
  simp only [happ, if_pos hop]

theorem State.advance_of_miss (h : (s.recv k).held.find? (fun q => q.psn == (s.recv k).next) = some p)
    (happ : s.applyPkt k p = .miss) (n : Nat) : s.advance k (n + 1) = ((s.setRecv k { s.recv k with
      stall := some p.psn }).respond k 0x11 p.psn 0 p.opid 0 [] false).emit (.paging p.src p.cn p.addr) := by
  rw [State.advance_succ, h]
  simp only [happ]

theorem State.advance_of_wait (h : (s.recv k).held.find? (fun q => q.psn == (s.recv k).next) = some p)
    (happ : s.applyPkt k p = .waitTick) (n : Nat) :
    s.advance k (n + 1) = s.setRecv k { s.recv k with stall := some p.psn, stallTick := true } := by
  rw [State.advance_succ, h]
  simp only [happ]

theorem State.next_passPkt_respond {op psn aux opid addr : Nat} {bs : List Byte} {last : Bool}
    (hwf : Cells.wf s.dv.recv = true) : (((s.respond k op psn aux opid addr bs last).passPkt k p).recv k).next =
      ((s.recv k).next + 1) % 2 ^ 24 := by
  have hrecv := s.respond_recv k op psn aux opid addr bs last
  obtain ⟨_, hpassed, _⟩ := State.recv_passPkt (k := k) (p := p) (by rw [hrecv]; exact hwf)
  rw [hpassed, State.recv, hrecv]
  rfl

theorem applied_hub (s : State) (k : Nat) (p : DvPkt) (hsp : p.space = 2) (hend : p.addr + p.len ≤ 96 * 2 ^ 20) :
    (p.op = 1 → s.applyPkt k p = .ok (s.writeHub p.addr p.data) ∧
      ((∀ j, j < p.data.length → s.sieveBank (p.addr + j) = none) →
        s.writeHub p.addr p.data = s.writeB (kHub p.addr) p.data)) ∧
    (p.op = 5 → s.applyPkt k p = s.readAnswer k p (s.readB (kHub p.addr) p.len)) := by
  have hstill : p.space = 0 → s.moving (p.addr / 2 ^ 24) = false := fun h => by omega
  exact ⟨fun hop => ⟨(State.applyPkt_write hstill hop).trans ((State.applyWrite_hub hsp).trans (if_pos hend)),
      State.writeHub_of_none⟩,
    fun hop => (State.applyPkt_read hstill hop).trans
      (State.applyRead_of_bytes ((State.remoteRead_hub hsp).trans (if_pos hend)))⟩

theorem applied_nowhere (s : State) (k : Nat) (p : DvPkt) (hop : p.op = 1 ∨ p.op = 5)
    (h : (p.space = 2 ∧ 96 * 2 ^ 20 < p.addr + p.len) ∨ p.space = 3) : s.applyPkt k p = .refuse 4 := by
  have hstill : p.space = 0 → s.moving (p.addr / 2 ^ 24) = false := fun h => by omega
  rcases h with ⟨hsp, hend⟩ | hsp
  · exact State.applyPkt_of_refused hstill hop ((State.applyWrite_hub hsp).trans (if_neg (Nat.not_le.mpr hend)))
      ((State.remoteRead_hub hsp).trans (if_neg (Nat.not_le.mpr hend)))
  · exact State.applyPkt_of_refused hstill hop (State.applyWrite_none hsp) (State.remoteRead_none hsp)

/-- Where a slice is in service and the range lies in it, a WRITE writes it and a READ finds it, unless a window is open. -/
theorem applied_slice (s : State) (k : Nat) (p : DvPkt) (hsp : p.space = 0) (hmove : s.moving (p.addr / 2 ^ 24) = false)
    (hup : s.tileUp (p.addr / 2 ^ 24) = true) (hend : p.addr % 2 ^ 24 + p.len ≤ 32 * s.sliceLines (p.addr / 2 ^ 24)) :
    (p.op = 1 → s.applyPkt k p = .ok (s.writeB (kSlice (p.addr / 2 ^ 24) (p.addr % 2 ^ 24)) p.data)) ∧
    (p.op = 5 → (∃ l ∈ linesOf (p.addr % 2 ^ 24) p.len,
      s.winWaits (p.addr / 2 ^ 24) (.slice (p.addr / 2 ^ 24) l) = true) → s.applyPkt k p = .waitTick) ∧
    (p.op = 5 → (∀ l ∈ linesOf (p.addr % 2 ^ 24) p.len, s.winWaits (p.addr / 2 ^ 24) (.slice (p.addr / 2 ^ 24) l) = false ∧
      s.inScratch (p.addr / 2 ^ 24) (.slice (p.addr / 2 ^ 24) l) = false ∧
      s.inLog (p.addr / 2 ^ 24) (.slice (p.addr / 2 ^ 24) l) = false) →
        s.applyPkt k p = s.readAnswer k p (s.committedSlice (p.addr / 2 ^ 24) (p.addr % 2 ^ 24) p.len)) := by
  have hstill : p.space = 0 → s.moving (p.addr / 2 ^ 24) = false := fun _ => hmove
  have hcause := State.sliceCause_of_inside hup hend
  refine ⟨fun hop => ?_, fun hop hwin => ?_, fun hop hclear => ?_⟩
  · exact (State.applyPkt_write hstill hop).trans ((State.applyWrite_slice hsp).trans (if_neg (not_not_intro hcause)))
  · refine (State.applyPkt_read hstill hop).trans (State.applyRead_of_failed ?_)
    rw [State.remoteRead_slice hsp hcause, State.readSlice_of_window hwin]
  · refine (State.applyPkt_read hstill hop).trans (State.applyRead_of_bytes ?_)
    rw [State.remoteRead_slice hsp hcause, State.readSlice_of_clear hclear]

theorem dvApplied : Clauses.DvApplied := by
  intro s k n p r t o answer plain
  refine ⟨applied_hub s k p, applied_nowhere s k p, fun hop hsp => ⟨State.applyPkt_of_moving hop hsp, fun hmove hdown => ?down,
      fun hmove hup hend => ?long, applied_slice s k p hsp⟩,
    fun hsp hplain => ?hbm, fun hop hsp hx hen hend hpage => ?page, fun hmin hmax => ?exch,
    fun hnone => State.advance_of_none hnone n,
    fun hfind => ⟨fun c happ hop => State.advance_of_refused hfind happ hop n,
      fun c happ hop => ⟨_, State.advance_of_refused_read hfind happ hop n, State.passPkt_mem .., State.next_passPkt_respond⟩,
      fun happ => State.advance_of_miss hfind happ n, fun happ => State.advance_of_wait hfind happ n⟩⟩
  case down => exact State.applyPkt_of_sliceCause (fun _ => hmove) hop hsp (State.sliceCause_of_down hdown) (by decide)
  case long => exact State.applyPkt_of_sliceCause (fun _ => hmove) hop hsp (State.sliceCause_of_long hup hend) (by decide)
  case hbm =>
    have hstill : p.space = 0 → s.moving t = false := fun h => by omega
    have hspans {wr : Bool} := State.pktSpans_of_plain (s := s) (p := p) (wr := wr) hplain
    exact ⟨fun hop => ⟨fun hheld => (State.applyPkt_write hstill hop).trans (State.applyWrite_of_cutting hsp hspans hheld),
        fun hfree hok => (State.applyPkt_write hstill hop).trans (State.applyWrite_of_hbm hsp hspans hfree hok),
        fun hfree hok => (State.applyPkt_write hstill hop).trans (State.applyWrite_of_outside hsp hspans hfree hok)⟩,
      fun hop => ⟨fun bs hbytes => (State.applyPkt_read hstill hop).trans
          (State.applyRead_of_bytes (State.remoteRead_hbm hsp hspans hbytes)),
        fun hbytes => (State.applyPkt_read hstill hop).trans
          (State.applyRead_of_failed (State.remoteRead_outside hsp hspans hbytes))⟩⟩
  case page =>
    have hstill : p.space = 0 → s.moving t = false := fun h => by omega
    refine ⟨fun hinv => ?miss, fun hvalid hro hwrite => ?readOnly, fun hvalid hrw hwrite hfree hok => ?write,
      fun hvalid hread bs hbytes => ?read⟩
    case miss =>
      rcases hop with hop | hop
      · exact (State.applyPkt_write hstill hop).trans
          (State.applyWrite_miss hsp (State.pktSpans_of_miss hx hen hend hpage hinv))
      · exact (State.applyPkt_read hstill hop).trans
          (State.applyRead_of_failed (State.remoteRead_miss hsp (State.pktSpans_of_miss hx hen hend hpage hinv)))
    case readOnly =>
      exact (State.applyPkt_write hstill hwrite).trans
        (State.applyWrite_readOnly hsp (State.pktSpans_of_readOnly hx hen hend hpage hvalid hro))
    case write =>
      exact (State.applyPkt_write hstill hwrite).trans
        (State.applyWrite_of_hbm hsp (State.pktSpans_of_valid hx hen hend hpage hvalid fun _ => hrw) hfree hok)
    case read =>
      exact (State.applyPkt_read hstill hread).trans
        (State.applyRead_of_bytes (State.remoteRead_hbm hsp
          (State.pktSpans_of_valid hx hen hend hpage hvalid fun hw => absurd hw Bool.false_ne_true) hbytes))
  case exch =>
    rw [State.applyPkt_exch hmin hmax]
    exact ⟨fun hsp => if_pos hsp, fun hsp hdown => (if_neg (not_not_intro hsp)).trans (if_pos (by rw [hdown]; decide)),
      fun hsp hup => (if_neg (not_not_intro hsp)).trans (if_neg (by rw [hup]; decide))⟩

end
end Sys2Proof.Machine
end

section

/-!
## Responses

An ACK takes packets from the window and may end operations; the other responses concern one operation of their connection.
-/

namespace Sys2Proof.Machine

section
variable {s u : State} {n op k c done cause : Nat} {p q : DvPkt} {i : Instr} {o : DvOp} {α : Type}

/-! ### Senders and their operations -/

theorem State.conn_setConn {x : SendConn} (hwf : Cells.wf s.dv.send = true) : (s.setConn k x).conn k = x :=
  Cells.getD_set_self s.dv.send {} k x hwf

theorem State.wf_setConn {x : SendConn} (hwf : Cells.wf s.dv.send = true) : Cells.wf (s.setConn k x).dv.send = true :=
  Cells.wf_set s.dv.send {} k x hwf

/-- An operation is not a stream's request for a chunk, so that it ends with a record. -/
def DvOp.recorded (o : DvOp) : Prop := ∀ t j b c, o.owner ≠ .chunk t j b c

theorem State.opFail_of_recorded (hown : o.recorded) : s.opFail k o cause done = s.opEndAt k o cause done := by
  unfold State.opFail
  split
  · rename_i t j b c howner
    exact absurd howner (hown t j b c)
  · rfl

theorem State.opStep_of_recorded (hown : o.recorded) (hwhole : o.whole = true) :
    s.opStep k o = (s.setOp k o).opEnd k o 0 := by
  refine (if_pos hwhole).trans ?_
  split
  · rename_i t j b c howner
    exact absurd howner (hown t j b c)
  · rfl

theorem State.ended_opEndAt (s : State) (k : Nat) (o : DvOp) (cause done : Nat) :
    (s.opEndAt k o cause done).dv.ended = s.dv.ended ++ [o.ended cause done] := rfl

theorem State.conn_opEndAt (hwf : Cells.wf s.dv.send = true) : (s.opEndAt k o cause done).conn k =
    { s.conn k with ops := (s.conn k).ops.filter (fun x => x.opid != o.opid) } :=
  State.conn_setConn hwf

theorem State.conn_setOp (hwf : Cells.wf s.dv.send = true) : (s.setOp k o).conn k =
    { s.conn k with ops := (s.conn k).ops.map (fun x => if x.opid = o.opid then o else x) } :=
  State.conn_setConn hwf

theorem State.wf_setOp (hwf : Cells.wf s.dv.send = true) : Cells.wf (s.setOp k o).dv.send = true := State.wf_setConn hwf

theorem DvOp.ended_of_open (h : o.left ≠ [] ∨ o.uncovered ≠ []) (cause done : Nat) : o.ended cause done =
    { owner := o.owner, opid := o.opid, state := if done = 0 then 2 else 1, cause := cause, bytes := done } :=
  if_neg (by rcases h with h | h <;> simp [DvOp.whole, h])

theorem DvOp.ended_of_whole (h : o.whole = true) (cause done : Nat) : o.ended cause done =
    { owner := o.owner, opid := o.opid, state := 0, cause := 0, bytes := o.len } :=
  if_pos h

/-! ### An ACK -/

theorem foldl_eq_self {f : State → α → State} {l : List α} (h : ∀ x ∈ l, f s x = s) : l.foldl f s = s := by
  induction l with
  | nil => rfl
  | cons x l ih =>
    rw [List.foldl_cons, h x (by simp)]
    exact ih fun y hy => h y (by simp [hy])

/-- The sender once the whole window is acknowledged. -/
def SendConn.emptied (c : SendConn) (psn rto : Nat) : SendConn :=
  { c with sent := [], una := (psn + 1) % 2 ^ 24, rto := rto, expiries := 0, pageWait := none }

/-- An ACK of the whole window: what it covers comes on, and the window goes on. -/
theorem State.takeAck_of_all (hne : (s.conn k).sent ≠ []) (hall : ∀ q ∈ (s.conn k).sent, psnGe p.psn q.psn = true) :
    s.takeAck k p =
      let u := (s.conn k).sent.foldl (fun s q => s.covered k q)
        (s.setConn k ((s.conn k).emptied p.psn (s.rg Rg.dvorar_RTO_INIT)))
      u.window k (u.conn k).wait.length := by
  have hnew : (s.conn k).sent.filter (fun q => psnGe p.psn q.psn) = (s.conn k).sent := List.filter_eq_self.mpr hall
  have hrest : (s.conn k).sent.filter (fun q => !psnGe p.psn q.psn) = [] :=
    List.filter_eq_nil_iff.mpr fun q hq => by simp [hall q hq]
  have hprogress : (!(s.conn k).sent.isEmpty) = true := by simpa using hne
  unfold State.takeAck
  simp only [hnew, hrest, hprogress, if_true, List.filter_nil, List.map_nil, List.append_nil, List.foldl_nil]
  rfl

theorem State.covered_of_read (hop : q.op = 5) (h : ∀ o ∈ (s.conn k).ops, q.psn ∉ o.uncovered) : s.covered k q = s := by
  have hnone : (s.conn k).ops.find? (fun o => o.uncovered.contains q.psn) = none :=
    List.find?_eq_none.mpr fun o ho => by simpa using h o ho
  simp only [State.covered, hop, hnone]

theorem State.covered_of_write (hop : q.op = 1) (ho : s.opOf k q.psn false = some o) :
    s.covered k q = s.opStep k { o with left := o.left.filter (fun x => x.1 != q.psn) } := by
  simp only [State.covered, hop, ho]

section
variable (hwait : (s.conn k).wait = []) (hwf : Cells.wf s.dv.send = true)
include hwait hwf

theorem State.takeAck_of_reads (hne : (s.conn k).sent ≠ []) (hall : ∀ q ∈ (s.conn k).sent, psnGe p.psn q.psn = true ∧
    q.op = 5 ∧ ∀ o ∈ (s.conn k).ops, q.psn ∉ o.uncovered) :
    s.takeAck k p = s.setConn k ((s.conn k).emptied p.psn (s.rg Rg.dvorar_RTO_INIT)) := by
  rw [State.takeAck_of_all hne fun q hq => (hall q hq).1]
  obtain ⟨u, hu⟩ : ∃ u, u = s.setConn k ((s.conn k).emptied p.psn (s.rg Rg.dvorar_RTO_INIT)) := ⟨_, rfl⟩
  have hconn : u.conn k = (s.conn k).emptied p.psn (s.rg Rg.dvorar_RTO_INIT) := hu ▸ State.conn_setConn hwf
  have hfold : (s.conn k).sent.foldl (fun s q => s.covered k q) u = u :=
    foldl_eq_self fun q hq => State.covered_of_read (hall q hq).2.1 (hconn ▸ (hall q hq).2.2)
  have hnowait : (u.conn k).wait = [] := by
    rw [hconn]
    exact hwait
  simp only [← hu, hfold, hnowait]
  rfl

/-- An ACK of the last open packet of a WRITE, alone in its window, ends the operation with a full record. -/
theorem State.takeAck_of_write {x : Nat × Nat} (hsent : (s.conn k).sent = [q]) (hpsn : psnGe p.psn q.psn = true)
    (hop : q.op = 1) (hops : (s.conn k).ops = [o]) (hread : o.read = false) (hleft : o.left = [(q.psn, x)])
    (huncov : o.uncovered = []) (hown : o.recorded) :
    (s.takeAck k p).dv.ended = s.dv.ended ++ [{ owner := o.owner, opid := o.opid, state := 0, cause := 0, bytes := o.len }] ∧
    ((s.takeAck k p).conn k).ops = [] ∧ ((s.takeAck k p).conn k).sent = [] := by
  obtain ⟨u, hu⟩ : ∃ u, u = s.setConn k ((s.conn k).emptied p.psn (s.rg Rg.dvorar_RTO_INIT)) := ⟨_, rfl⟩
  have huwf : Cells.wf u.dv.send = true := hu ▸ State.wf_setConn hwf
  have hconn : u.conn k = (s.conn k).emptied p.psn (s.rg Rg.dvorar_RTO_INIT) := hu ▸ State.conn_setConn hwf
  obtain ⟨d, hd⟩ : ∃ d : DvOp, d = { o with left := [] } := ⟨_, rfl⟩
  have hdwhole : d.whole = true := by simp [hd, DvOp.whole, huncov]
  have hdown : d.recorded := hd ▸ hown
  have hopOf : u.opOf k q.psn false = some o := by
    rw [State.opOf, hconn]
    change (s.conn k).ops.find? _ = _
    simp [hops, hread, hleft]
  have hcov : u.covered k q = (u.setOp k d).opEnd k d 0 := by
    rw [State.covered_of_write hop hopOf, ← State.opStep_of_recorded hdown hdwhole, hd]
    simp [hleft]
  obtain ⟨v, hv⟩ : ∃ v, v = (u.setOp k d).opEnd k d 0 := ⟨_, rfl⟩
  have hvconn : v.conn k = { u.conn k with ops := [] } := by
    rw [hv, State.opEnd, State.conn_opEndAt (State.wf_setOp huwf), State.conn_setOp huwf, hconn]
    simp [SendConn.emptied, hops, hd]
  have hnowait : (v.conn k).wait = [] := by
    rw [hvconn, hconn]
    exact hwait
  have htake : s.takeAck k p = v := by
    rw [State.takeAck_of_all (by simp [hsent]) (by simpa [hsent] using hpsn), hsent]
    simp only [List.foldl_cons, List.foldl_nil, ← hu, hcov, ← hv, hnowait]
    rfl
  rw [htake]
  refine ⟨?_, by rw [hvconn], by rw [hvconn, hconn]; rfl⟩
  rw [hv, State.opEnd, State.ended_opEndAt, DvOp.ended_of_whole hdwhole, hd]
  exact congrArg (fun e => e ++ _) (congrArg (fun t => t.dv.ended) hu)

end

/-! ### The commands of the response packets -/

/-- The sender that a response names. -/
def responseKey (p : DvPkt) : Nat := connKey p.origin p.cn

theorem State.respKey_of_live (h : s.live p) : s.respKey p = some (responseKey p) :=
  if_neg (mt State.not_live_iff.mpr (not_not_intro h))

theorem State.respKey_of_not_live (h : ¬s.live p) : s.respKey p = none := if_pos (State.not_live_iff.mp h)

/-- The commands of the response packets, by opcode. -/
def responses (n : Nat) : List (Nat × Instr) :=
  [(0x10, Instr.dvAck n), (6, .dvReadResp n), (0x11, .dvPageWait n), (0x12, .dvPageRetry n), (0x13, .dvNackErr n)]

theorem responses_cases (hi : (op, i) ∈ responses n) : (op = 0x10 ∧ i = .dvAck n) ∨ (op = 6 ∧ i = .dvReadResp n) ∨
    (op = 0x11 ∧ i = .dvPageWait n) ∨ (op = 0x12 ∧ i = .dvPageRetry n) ∨ (op = 0x13 ∧ i = .dvNackErr n) := by
  simpa [responses] using hi

theorem exec_response_of_none (hi : (op, i) ∈ responses n) (h : s.fromInbox n op = none) : exec i s = .next s := by
  obtain ⟨rfl, rfl⟩ | ⟨rfl, rfl⟩ | ⟨rfl, rfl⟩ | ⟨rfl, rfl⟩ | ⟨rfl, rfl⟩ := responses_cases hi
  · change execDvAck n s = _
    rw [execDvAck, h]
  · change execDvReadResp n s = _
    rw [execDvReadResp, h]
  · change execDvPageWait n s = _
    rw [execDvPageWait, h]
  · change execDvPageRetry n s = _
    rw [execDvPageRetry, h]
  · change execDvNackErr n s = _
    rw [execDvNackErr, h]

theorem exec_response_of_not_live (hi : (op, i) ∈ responses n) (h : s.fromInbox n op = some (p, u)) (hlive : ¬u.live p) :
    exec i s = .next u := by
  have hkey := State.respKey_of_not_live hlive
  obtain ⟨rfl, rfl⟩ | ⟨rfl, rfl⟩ | ⟨rfl, rfl⟩ | ⟨rfl, rfl⟩ | ⟨rfl, rfl⟩ := responses_cases hi
  · change execDvAck n s = _
    simp only [execDvAck, h, hkey]
  · change execDvReadResp n s = _
    simp only [execDvReadResp, h, hkey]
  · change execDvPageWait n s = _
    simp only [execDvPageWait, h, hkey]
  · change execDvPageRetry n s = _
    simp only [execDvPageRetry, h, hkey]
  · change execDvNackErr n s = _
    simp only [execDvNackErr, h, hkey]

section
variable (hlive : u.live p)
include hlive

theorem exec_dvAck (h : s.fromInbox n 0x10 = some (p, u)) : exec (.dvAck n) s = .next (u.takeAck (responseKey p) p) := by
  change execDvAck n s = _
  simp only [execDvAck, h, State.respKey_of_live hlive]

theorem exec_dvPageWait (h : s.fromInbox n 0x11 = some (p, u)) : exec (.dvPageWait n) s =
    .next (u.setConn (responseKey p) { u.conn (responseKey p) with pageWait := some p.psn }) := by
  change execDvPageWait n s = _
  simp only [execDvPageWait, h, State.respKey_of_live hlive]

end

/-! ### READ_RESP -/

/-- One packet of an operation has been answered. -/
def DvOp.answered (o : DvOp) (psn : Nat) : DvOp := { o with left := o.left.filter (fun x => x.1 != psn) }

section
variable (hlive : u.live p) (h : s.fromInbox n 6 = some (p, u))
include hlive h

theorem exec_dvReadResp_of_none (ho : u.opOf (responseKey p) p.psn true = none) : exec (.dvReadResp n) s = .next u := by
  change execDvReadResp n s = _
  simp only [execDvReadResp, h, State.respKey_of_live hlive, ho]

variable (ho : u.opOf (responseKey p) p.psn true = some o)
include ho

theorem exec_dvReadResp_of_error (herr : p.aux % 2 = 1) : exec (.dvReadResp n) s =
    .next (u.opFail (responseKey p) o (bits p.aux 1 6) o.prefixBytes) := by
  change execDvReadResp n s = _
  simp only [execDvReadResp, h, State.respKey_of_live hlive, ho, if_pos herr]

variable (hgood : p.aux % 2 = 0)
include hgood

theorem exec_dvReadResp_of_bytes : exec (.dvReadResp n) s =
    let v := match o.owner, o.sink with
      | .chunk t j b c, _ => u.chunkLines t j b c (p.addr - o.addr) p.data
      | _, some x => u.storeSink x (p.addr - o.addr) p.data
      | _, none => u
    .next (v.opStep (responseKey p) (o.answered p.psn)) := by
  change execDvReadResp n s = _
  simp only [execDvReadResp, h, State.respKey_of_live hlive, ho, if_neg (show ¬p.aux % 2 = 1 by omega)]
  rfl

theorem exec_dvReadResp_of_sink {x : Sink} (hown : o.recorded) (hx : o.sink = some x) : exec (.dvReadResp n) s =
    .next ((u.storeSink x (p.addr - o.addr) p.data).opStep (responseKey p) (o.answered p.psn)) := by
  rw [exec_dvReadResp_of_bytes hlive h ho hgood, hx]
  split
  · rename_i t j b c howner
    exact absurd howner (hown t j b c)
  · rename_i hx' _
    cases hx'
    rfl
  · contradiction

theorem exec_dvReadResp_of_no_sink (hown : o.recorded) (hx : o.sink = none) : exec (.dvReadResp n) s =
    .next (u.opStep (responseKey p) (o.answered p.psn)) := by
  rw [exec_dvReadResp_of_bytes hlive h ho hgood, hx]
  split
  · rename_i t j b c howner
    exact absurd howner (hown t j b c)
  · contradiction
  · rfl

theorem exec_dvReadResp_of_chunk {t j b c : Nat} (howner : o.owner = .chunk t j b c) : exec (.dvReadResp n) s =
    .next ((u.chunkLines t j b c (p.addr - o.addr) p.data).opStep (responseKey p) (o.answered p.psn)) := by
  rw [exec_dvReadResp_of_bytes hlive h ho hgood, howner]

end

/-! ### NACK_ERR -/

section
variable (hlive : u.live p) (h : s.fromInbox n 0x13 = some (p, u))
include hlive h

theorem exec_dvNackErr_of_op (ho : u.opOf (responseKey p) p.psn false = some o) : exec (.dvNackErr n) s = .next
    (((u.opFail (responseKey p) o (p.aux % 64) (o.offsetOf p.psn)).voidOp (responseKey p) o.opid).againFrom (responseKey p)
      p.psn) := by
  change execDvNackErr n s = _
  simp only [execDvNackErr, h, State.respKey_of_live hlive, ho]

variable (ho : u.opOf (responseKey p) p.psn false = none)
include ho

theorem exec_dvNackErr_of_nothing (hq : (u.conn (responseKey p)).sent.find? (fun q => q.psn == p.psn) = none) :
    exec (.dvNackErr n) s = .next u := by
  change execDvNackErr n s = _
  simp only [execDvNackErr, h, State.respKey_of_live hlive, ho, hq]

variable (hq : (u.conn (responseKey p)).sent.find? (fun q => q.psn == p.psn) = some q)
include hq

theorem exec_dvNackErr_of_beat (hk : responseKey p < 2 ^ 13) (hmin : 2 ≤ q.op) (hmax : q.op ≤ 4) :
    exec (.dvNackErr n) s = .next (u.tableErr (q.opid / 4096) 10 (q.opid % 4096) none) := by
  change execDvNackErr n s = _
  simp only [execDvNackErr, h, State.respKey_of_live hlive, ho, hq]
  exact if_pos ⟨hk, hmin, hmax⟩

theorem exec_dvNackErr_of_other (hother : 2 ^ 13 ≤ responseKey p ∨ q.op < 2 ∨ 4 < q.op) :
    exec (.dvNackErr n) s = .next u := by
  change execDvNackErr n s = _
  simp only [execDvNackErr, h, State.respKey_of_live hlive, ho, hq]
  exact if_neg (by omega)

end

/-! ### PAGE_RETRY -/

/-- The PAGE_RETRY packets in a row for one PSN, with this one. -/
def SendConn.tries (c : SendConn) (psn : Nat) : Nat := if c.pageTry.1 = psn then c.pageTry.2 + 1 else 1

/-- A PAGE_RETRY is noted: everything from its PSN on is to be sent again. -/
def State.retryNoted (s : State) (k psn : Nat) : State :=
  s.setConn k { s.conn k with
    pageTry := (psn, (s.conn k).tries psn), resend := some psn, pageWait := some psn }

section
variable (hlive : u.live p) (h : s.fromInbox n 0x12 = some (p, u))
include hlive h

theorem exec_dvPageRetry_of_first (hfew : (u.conn (responseKey p)).tries p.psn < u.rg Rg.dvorar_PAGE_RETRIES) :
    exec (.dvPageRetry n) s = .next (u.retryNoted (responseKey p) p.psn) := by
  change execDvPageRetry n s = _
  simp only [execDvPageRetry, h, State.respKey_of_live hlive]
  exact if_pos hfew

variable (hmany : u.rg Rg.dvorar_PAGE_RETRIES ≤ (u.conn (responseKey p)).tries p.psn)
include hmany

theorem exec_dvPageRetry_of_last : exec (.dvPageRetry n) s =
    match (u.conn (responseKey p)).sent.find? (fun q => q.psn == p.psn),
      (u.conn (responseKey p)).ops.find? (fun o => o.left.any (fun x => x.1 == p.psn)) with
    | some q, some o =>
      let v := ((u.retryNoted (responseKey p) p.psn).opFail (responseKey p) o 3
        (if o.read then o.prefixBytes else o.offsetOf p.psn)).voidOp (responseKey p) o.opid
      let w := v.setConn (responseKey p) { v.conn (responseKey p) with pageTry := (0, 0), resend := none, pageWait := none }
      .next ((w.againFrom (responseKey p) p.psn).event 0x0307
        ((u.conn (responseKey p)).peer + q.cn * 2 ^ 8 + q.addr * 2 ^ 64) (s.connFunc (responseKey p)))
    | _, _ => .next (u.retryNoted (responseKey p) p.psn) := by
  change execDvPageRetry n s = _
  simp only [execDvPageRetry, h, State.respKey_of_live hlive]
  exact if_neg (Nat.not_lt.mpr hmany)

theorem exec_dvPageRetry_of_op (hq : (u.conn (responseKey p)).sent.find? (fun q => q.psn == p.psn) = some q)
    (ho : (u.conn (responseKey p)).ops.find? (fun o => o.left.any (fun x => x.1 == p.psn)) = some o) :
    exec (.dvPageRetry n) s =
      let v := ((u.retryNoted (responseKey p) p.psn).opFail (responseKey p) o 3
        (if o.read then o.prefixBytes else o.offsetOf p.psn)).voidOp (responseKey p) o.opid
      let w := v.setConn (responseKey p) { v.conn (responseKey p) with pageTry := (0, 0), resend := none, pageWait := none }
      .next ((w.againFrom (responseKey p) p.psn).event 0x0307
        ((u.conn (responseKey p)).peer + q.cn * 2 ^ 8 + q.addr * 2 ^ 64) (s.connFunc (responseKey p))) := by
  rw [exec_dvPageRetry_of_last hlive h hmany, hq, ho]

theorem exec_dvPageRetry_of_nothing (hnone : (u.conn (responseKey p)).sent.find? (fun q => q.psn == p.psn) = none ∨
      (u.conn (responseKey p)).ops.find? (fun o => o.left.any (fun x => x.1 == p.psn)) = none) :
    exec (.dvPageRetry n) s = .next (u.retryNoted (responseKey p) p.psn) := by
  rw [exec_dvPageRetry_of_last hlive h hmany]
  rcases hnone with hq | ho
  · rw [hq]
  · rw [ho]
    cases (u.conn (responseKey p)).sent.find? (fun q => q.psn == p.psn) <;> rfl

end

theorem dvResponses : Clauses.DvResponses := by
  intro s u n op i p hi k c live tries again answered
  refine ⟨exec_response_of_none hi, exec_response_of_not_live hi, fun h hlive => ?live, fun o key cause done hown hopen => ?_⟩
  case live =>
    refine ⟨?ack, ?wait, ?retry, ?last, ?answerless, ?answer, ?nack, ?lost⟩
    case ack =>
      rintro rfl
      obtain rfl : i = .dvAck n := by simpa using hi
      exact ⟨exec_dvAck hlive h, fun hwait hne hall hwf => State.takeAck_of_reads hwait hwf hne hall,
        fun q o x hwait hsent hpsn hop hops hread hleft huncov hown hwf =>
          State.takeAck_of_write hwait hwf hsent hpsn hop hops hread hleft huncov hown⟩
    case wait =>
      rintro rfl
      obtain rfl : i = .dvPageWait n := by simpa using hi
      exact exec_dvPageWait hlive h
    case retry =>
      rintro rfl
      obtain rfl : i = .dvPageRetry n := by simpa using hi
      exact exec_dvPageRetry_of_first hlive h
    case last =>
      rintro rfl hmany
      obtain rfl : i = .dvPageRetry n := by simpa using hi
      exact ⟨exec_dvPageRetry_of_nothing hlive h hmany, fun q o => exec_dvPageRetry_of_op hlive h hmany⟩
    case answerless =>
      rintro rfl
      obtain rfl : i = .dvReadResp n := by simpa using hi
      exact exec_dvReadResp_of_none hlive h
    case answer =>
      rintro rfl o ho
      obtain rfl : i = .dvReadResp n := by simpa using hi
      exact ⟨exec_dvReadResp_of_error hlive h ho,
        fun hgood hown => ⟨fun x => exec_dvReadResp_of_sink hlive h ho hgood hown,
          exec_dvReadResp_of_no_sink hlive h ho hgood hown⟩,
        fun hgood t j b c => exec_dvReadResp_of_chunk hlive h ho hgood⟩
    case nack =>
      rintro rfl o ho
      obtain rfl : i = .dvNackErr n := by simpa using hi
      exact exec_dvNackErr_of_op hlive h ho
    case lost =>
      rintro rfl ho
      obtain rfl : i = .dvNackErr n := by simpa using hi
      exact ⟨fun q hq => ⟨exec_dvNackErr_of_beat hlive h ho hq, exec_dvNackErr_of_other hlive h ho hq⟩,
        exec_dvNackErr_of_nothing hlive h ho⟩
  rw [State.opFail_of_recorded hown, State.ended_opEndAt, DvOp.ended_of_open hopen]

end
end Sys2Proof.Machine
end

section

/-!
## Timers of connections

Each timer looks at what it was set for: where that has gone, nothing happens. ORIGIN 3 names an Ethernet context, whose timers
are the same ones.
-/

namespace Sys2Proof.Machine

section
variable {s : State} {src origin cn psn k : Nat} {q : DvPkt} {o : DvOp}

/-! ### Receivers -/

/-- The stalled packet of a receiver is there, and its page has an entry. -/
def State.stallValid (s : State) (r : RecvConn) (psn : Nat) : Prop :=
  ∃ p, r.held.find? (fun p => p.psn == psn) = some p ∧ s.pktSpans p (p.op == 1) ≠ none

theorem State.dvAckTimer_of_acked (h : (s.recv (recvKey src origin cn)).since = 0) : s.dvAckTimer src origin cn = s := if_pos h

theorem State.dvAckTimer_of_applied (h : (s.recv (recvKey src origin cn)).since ≠ 0) :
    s.dvAckTimer src origin cn = s.ack (recvKey src origin cn) :=
  if_neg h

theorem State.dvPageResolved_of_none (h : (s.recv (recvKey src origin cn)).stall = none) :
    s.dvPageResolved src origin cn = s :=
  if_neg (by simp [h])

theorem State.dvPageResolved_of_tick (h : (s.recv (recvKey src origin cn)).stallTick = true) :
    s.dvPageResolved src origin cn = s :=
  if_neg (by simp [h])

theorem State.dvPageTimeout_of_none (h : (s.recv (recvKey src origin cn)).stall = none) :
    s.dvPageTimeout src origin cn = s := by
  simp only [State.dvPageTimeout, h]

theorem State.dvPageTimeout_of_tick (h : (s.recv (recvKey src origin cn)).stallTick = true) :
    s.dvPageTimeout src origin cn = s := by
  simp only [State.dvPageTimeout, h, if_true]
  split <;> rfl

section
variable (hstall : (s.recv (recvKey src origin cn)).stall = some psn)
  (hquiet : (s.recv (recvKey src origin cn)).stallTick = false)
include hstall hquiet

theorem State.dvPageResolved_of_stall : s.dvPageResolved src origin cn =
    s.advance (recvKey src origin cn) ((s.recv (recvKey src origin cn)).held.length + 1) :=
  if_pos (by simp [hstall, hquiet])

theorem State.dvPageTimeout_of_valid (hvalid : s.stallValid (s.recv (recvKey src origin cn)) psn) :
    s.dvPageTimeout src origin cn =
      s.advance (recvKey src origin cn) ((s.recv (recvKey src origin cn)).held.length + 1) := by
  obtain ⟨p, hfind, hspans⟩ := hvalid
  simp [State.dvPageTimeout, hstall, hquiet, hfind, Option.isSome_iff_ne_none, hspans]

theorem State.dvPageTimeout_of_invalid (hvalid : ¬s.stallValid (s.recv (recvKey src origin cn)) psn) :
    s.dvPageTimeout src origin cn = ((s.setRecv (recvKey src origin cn) { s.recv (recvKey src origin cn) with
      held := [], stall := none }).respond (recvKey src origin cn) 0x12 psn 0 0 0 [] false).incRg Rg.dvorar_PAGE_STALLS 0 1 := by
  simp only [State.dvPageTimeout, hstall, hquiet, Bool.false_eq_true, if_false]
  refine if_neg ?_
  split
  · rename_i p hfind
    rw [Option.isSome_iff_ne_none]
    exact fun hspans => hvalid ⟨p, hfind, hspans⟩
  · exact Bool.false_ne_true

end

/-! ### Senders -/

/-- The packets from a PSN on are to be sent again after a delay, which has passed. -/
def State.resendTaken (s : State) (k : Nat) : State := s.setConn k { s.conn k with resend := none, pageWait := none }

theorem State.dvResend_of_none (h : (s.conn (connKey origin cn)).resend = none) : s.dvResend origin cn = s := by
  simp only [State.dvResend, h]

theorem State.dvResend_of_some (h : (s.conn (connKey origin cn)).resend = some psn) : s.dvResend origin cn =
    let v := (s.resendTaken (connKey origin cn)).againFrom (connKey origin cn) psn
    v.window (connKey origin cn) (v.conn (connKey origin cn)).wait.length := by
  simp only [State.dvResend, h]
  rfl

theorem State.dvResend_of_nothing (h : (s.conn (connKey origin cn)).resend = some psn)
    (hsent : (s.conn (connKey origin cn)).sent = []) (hwait : (s.conn (connKey origin cn)).wait = [])
    (hwf : Cells.wf s.dv.send = true) : s.dvResend origin cn = s.resendTaken (connKey origin cn) := by
  obtain ⟨u, hu⟩ : ∃ u, u = s.resendTaken (connKey origin cn) := ⟨_, rfl⟩
  have hconn : u.conn (connKey origin cn) = { s.conn (connKey origin cn) with resend := none, pageWait := none } :=
    hu ▸ State.conn_setConn hwf
  have hagain : u.againFrom (connKey origin cn) psn = u := by
    rw [State.againFrom, hconn]
    simp only [hsent]
    rfl
  simp only [State.dvResend_of_some h, ← hu, hagain, hconn, hwait]
  rfl

/-- A packet with a PSN is open or waits: it is no READ whose response is late. -/
theorem pending_iff (sent wait : List DvPkt) (psn : Nat) :
    (sent.any (fun q => q.psn == psn) || wait.any (fun q => q.psn == psn)) = true ↔ ∃ q ∈ sent ++ wait, q.psn = psn := by
  rw [← List.any_append, List.any_eq_true]
  simp only [beq_iff_eq]

theorem State.dvReadAgain_of_pending (h : ∃ q ∈ (s.conn (connKey origin cn)).sent ++ (s.conn (connKey origin cn)).wait,
    q.psn = psn) : s.dvReadAgain origin cn psn = s :=
  if_pos ((pending_iff ..).mpr h)

section
variable (h : ∀ q ∈ (s.conn (connKey origin cn)).sent ++ (s.conn (connKey origin cn)).wait, q.psn ≠ psn)
include h

theorem State.dvReadAgain_of_none (ho : s.opOf (connKey origin cn) psn true = none) : s.dvReadAgain origin cn psn = s := by
  refine (if_neg fun hp => ?_).trans ?_
  · obtain ⟨q, hq, hpsn⟩ := (pending_iff ..).mp hp
    exact h q hq hpsn
  · simp only [ho]

theorem State.dvReadAgain_of_late {x : Nat × Nat × Nat} (ho : s.opOf (connKey origin cn) psn true = some o)
    (hx : o.left.find? (fun x => x.1 == psn) = some x) : s.dvReadAgain origin cn psn =
      (s.setOp (connKey origin cn) { o with
        left := o.left.map (fun y => if y.1 = psn then ((s.conn (connKey origin cn)).psn, y.2) else y),
        uncovered := (s.conn (connKey origin cn)).psn :: o.uncovered }).connSend (connKey origin cn)
        [{ blankPkt with
           op := 5, last := x.2.1 + x.2.2 == o.len, xlate := o.xlate, cn := cn, origin := origin, len := x.2.2,
           addr := o.addr + x.2.1, space := o.space, opid := o.opid }] := by
  refine (if_neg fun hp => ?_).trans ?_
  · obtain ⟨q, hq, hpsn⟩ := (pending_iff ..).mp hp
    exact h q hq hpsn
  · simp only [ho, hx]

end

theorem exec_rtoExpire_of_idle (h : (s.conn (connKey origin cn)).sent = [] ∨ (s.conn (connKey origin cn)).pageWait ≠ none ∨
    (s.conn (connKey origin cn)).failed = true) : exec (.rtoExpire origin cn) s = .next s := by
  change execRtoExpire origin cn s = _
  cases hsent : (s.conn (connKey origin cn)).sent with
  | nil => simp only [execRtoExpire, hsent]
  | cons q t =>
    simp only [execRtoExpire, hsent]
    refine if_pos ?_
    rcases h with h | h | h
    · exact absurd (hsent.symm.trans h) (List.cons_ne_nil q t)
    · simp [Option.isSome_iff_ne_none, h]
    · simp [h]

section
variable {t : List DvPkt} (hsent : (s.conn (connKey origin cn)).sent = q :: t)
  (hwait : (s.conn (connKey origin cn)).pageWait = none) (hworks : (s.conn (connKey origin cn)).failed = false)
include hsent hwait hworks

theorem exec_rtoExpire_of_open : exec (.rtoExpire origin cn) s =
    if s.rg Rg.dvorar_RETRY_LIMIT ≤ (s.conn (connKey origin cn)).expiries + 1 then
      let f := s.setConn (connKey origin cn) { s.conn (connKey origin cn) with
        expiries := (s.conn (connKey origin cn)).expiries + 1, failed := true }
      let v := (f.event 0x0306 (origin + cn * 2 ^ 16 + (s.conn (connKey origin cn)).peer * 2 ^ 32)
        (f.connFunc (connKey origin cn))).detect (.connError origin cn (s.conn (connKey origin cn)).peer)
      .next (if origin = 2 then v.connEnd (connKey origin cn) 2 else v)
    else .next ((s.setConn (connKey origin cn) { s.conn (connKey origin cn) with
      expiries := (s.conn (connKey origin cn)).expiries + 1, rto := min 256 (2 * (s.conn (connKey origin cn)).rto),
      fast := [] }).again q) := by
  change execRtoExpire origin cn s = _
  simp only [execRtoExpire, hsent, hwait, hworks, Option.isSome_none, Bool.or_false, Bool.false_eq_true, if_false]

theorem exec_rtoExpire_of_again (h : (s.conn (connKey origin cn)).expiries + 1 < s.rg Rg.dvorar_RETRY_LIMIT) :
    exec (.rtoExpire origin cn) s = .next ((s.setConn (connKey origin cn) { s.conn (connKey origin cn) with
      expiries := (s.conn (connKey origin cn)).expiries + 1, rto := min 256 (2 * (s.conn (connKey origin cn)).rto),
      fast := [] }).again q) := by
  rw [exec_rtoExpire_of_open hsent hwait hworks, if_neg (Nat.not_le.mpr h)]

theorem exec_rtoExpire_of_limit (h : s.rg Rg.dvorar_RETRY_LIMIT ≤ (s.conn (connKey origin cn)).expiries + 1) :
    exec (.rtoExpire origin cn) s =
      let f := s.setConn (connKey origin cn) { s.conn (connKey origin cn) with
        expiries := (s.conn (connKey origin cn)).expiries + 1, failed := true }
      let v := (f.event 0x0306 (origin + cn * 2 ^ 16 + (s.conn (connKey origin cn)).peer * 2 ^ 32)
        (f.connFunc (connKey origin cn))).detect (.connError origin cn (s.conn (connKey origin cn)).peer)
      .next (if origin = 2 then v.connEnd (connKey origin cn) 2 else v) := by
  rw [exec_rtoExpire_of_open hsent hwait hworks, if_pos h]

end

/-! ### Which end a timer is of -/

section
variable (horigin : origin ≠ 3)
include horigin

theorem exec_ackTimer (src cn : Nat) (s : State) : exec (.ackTimer src origin cn) s = .next (s.dvAckTimer src origin cn) :=
  if_neg horigin

theorem exec_pageResolved (src cn : Nat) (s : State) :
    exec (.pageResolved src origin cn) s = .next (s.dvPageResolved src origin cn) :=
  if_neg horigin

theorem exec_pageWaitTimeout (src cn : Nat) (s : State) :
    exec (.pageWaitTimeout src origin cn) s = .next (s.dvPageTimeout src origin cn) :=
  if_neg horigin

theorem exec_resendDelayExpire (cn : Nat) (s : State) : exec (.resendDelayExpire origin cn) s = .next (s.dvResend origin cn) :=
  if_neg horigin

theorem exec_readRespTimeout (cn psn : Nat) (s : State) :
    exec (.readRespTimeout origin cn psn) s = .next (s.dvReadAgain origin cn psn) :=
  if_neg horigin

end

/-! ### Ethernet contexts -/

theorem exec_ackTimer_eth_of_acked (h : (s.econn cn).since = 0) : exec (.ackTimer src 3 cn) s = .next s :=
  congrArg Host.Outcome.next (if_pos h)

theorem exec_ackTimer_eth_of_applied (h : (s.econn cn).since ≠ 0) : exec (.ackTimer src 3 cn) s = .next (s.eack cn) :=
  congrArg Host.Outcome.next (if_neg h)

theorem exec_pageResolved_eth_of_not (h : (s.econn cn).stall = none ∨ (s.econn cn).stallTick = true ∨ (s.econn cn).roce = true) :
    exec (.pageResolved src 3 cn) s = .next s :=
  congrArg Host.Outcome.next (if_neg (by rcases h with h | h | h <;> simp [h]))

theorem exec_pageWaitTimeout_eth_of_none (h : (s.econn cn).stall = none) : exec (.pageWaitTimeout src 3 cn) s = .next s := by
  change execPageWaitTimeout src 3 cn s = _
  simp only [execPageWaitTimeout, if_true, h]

theorem exec_pageWaitTimeout_eth_of_other (h : (s.econn cn).stallTick = true ∨ (s.econn cn).roce = true) :
    exec (.pageWaitTimeout src 3 cn) s = .next s := by
  change execPageWaitTimeout src 3 cn s = _
  simp only [execPageWaitTimeout, if_true]
  split
  · rfl
  · exact if_pos (by simpa using h)

section
variable (hstall : (s.econn cn).stall = some psn) (hquiet : (s.econn cn).stallTick = false) (hroce : (s.econn cn).roce = false)
include hstall hquiet hroce

theorem exec_pageResolved_eth_of_stall : exec (.pageResolved src 3 cn) s =
    .next (s.eadvance cn ((s.econn cn).held.length + 1)) :=
  congrArg Host.Outcome.next (if_pos (by simp [hstall, hquiet, hroce]))

theorem exec_pageWaitTimeout_eth_of_stall : exec (.pageWaitTimeout src 3 cn) s =
    if ((s.econn cn).held.find? (fun p => p.psn == psn)).any (fun p => !s.emiss cn p) = true then
      .next (s.eadvance cn ((s.econn cn).held.length + 1))
    else .next (((s.setEconn cn { s.econn cn with held := [], stall := none }).udpSend cn { op := 0x12, psn := psn }).incRg
      Rg.dvorar_PAGE_STALLS 0 1) := by
  change execPageWaitTimeout src 3 cn s = _
  simp only [execPageWaitTimeout, if_true, hstall, hquiet, hroce, Bool.or_false, Bool.false_eq_true, if_false]

theorem exec_pageWaitTimeout_eth_of_valid
    (hvalid : ∃ p, (s.econn cn).held.find? (fun p => p.psn == psn) = some p ∧ s.emiss cn p = false) :
    exec (.pageWaitTimeout src 3 cn) s = .next (s.eadvance cn ((s.econn cn).held.length + 1)) := by
  obtain ⟨p, hfind, hmiss⟩ := hvalid
  rw [exec_pageWaitTimeout_eth_of_stall hstall hquiet hroce, if_pos (by simp [hfind, hmiss])]

theorem exec_pageWaitTimeout_eth_of_invalid
    (hvalid : ¬∃ p, (s.econn cn).held.find? (fun p => p.psn == psn) = some p ∧ s.emiss cn p = false) :
    exec (.pageWaitTimeout src 3 cn) s = .next (((s.setEconn cn { s.econn cn with held := [], stall := none }).udpSend cn
      { op := 0x12, psn := psn }).incRg Rg.dvorar_PAGE_STALLS 0 1) := by
  rw [exec_pageWaitTimeout_eth_of_stall hstall hquiet hroce, if_neg]
  rw [Option.any_eq_true]
  rintro ⟨p, hfind, hmiss⟩
  exact hvalid ⟨p, hfind, by simpa using hmiss⟩

end

theorem exec_resendDelayExpire_eth_of_none (h : (s.econn cn).resend = none) : exec (.resendDelayExpire 3 cn) s = .next s := by
  change execResendDelayExpire 3 cn s = _
  simp only [execResendDelayExpire, if_true, h]

theorem exec_resendDelayExpire_eth_of_some (h : (s.econn cn).resend = some psn) : exec (.resendDelayExpire 3 cn) s =
    let v := (s.setEconn cn { s.econn cn with resend := none, pageWait := none }).eagainFrom cn psn
    .next (v.ewindow cn (v.econn cn).wait.length) := by
  change execResendDelayExpire 3 cn s = _
  simp only [execResendDelayExpire, if_true, h]

theorem exec_readRespTimeout_eth_of_pending (h : ∃ q ∈ (s.econn cn).sent ++ (s.econn cn).wait, q.psn = psn) :
    exec (.readRespTimeout 3 cn psn) s = .next s := by
  refine congrArg Host.Outcome.next (if_pos ?_)
  rw [← List.any_append, List.any_eq_true]
  simpa using h

theorem exec_readRespTimeout_eth_of_late (h : ∀ q ∈ (s.econn cn).sent ++ (s.econn cn).wait, q.psn ≠ psn) :
    exec (.readRespTimeout 3 cn psn) s = .next (s.eread cn psn) := by
  refine congrArg Host.Outcome.next (if_neg ?_)
  rw [← List.any_append, List.any_eq_true]
  simpa using h

theorem connectionTimers : Clauses.ConnectionTimers := by
  intro s src origin cn psn k c rk r e
  refine ⟨fun horigin => ?transport, exec_rtoExpire_of_idle, fun q t hsent hwait hworks =>
    ⟨exec_rtoExpire_of_again hsent hwait hworks, exec_rtoExpire_of_limit hsent hwait hworks⟩, fun horigin => ?ethernet⟩
  case transport =>
    have hack := exec_ackTimer horigin src cn s
    have hresolved := exec_pageResolved horigin src cn s
    have htimeout := exec_pageWaitTimeout horigin src cn s
    have hresend := exec_resendDelayExpire horigin cn s
    have hread := exec_readRespTimeout horigin cn psn s
    exact ⟨fun h => hack.trans (congrArg Host.Outcome.next (State.dvAckTimer_of_acked h)),
      fun h => hack.trans (congrArg Host.Outcome.next (State.dvAckTimer_of_applied h)),
      fun h => ⟨htimeout.trans (congrArg Host.Outcome.next (State.dvPageTimeout_of_none h)),
        hresolved.trans (congrArg Host.Outcome.next (State.dvPageResolved_of_none h))⟩,
      fun q hstall hquiet => ⟨hresolved.trans (congrArg Host.Outcome.next (State.dvPageResolved_of_stall hstall hquiet)),
        fun hvalid => htimeout.trans (congrArg Host.Outcome.next (State.dvPageTimeout_of_valid hstall hquiet hvalid)),
        fun hvalid => htimeout.trans (congrArg Host.Outcome.next (State.dvPageTimeout_of_invalid hstall hquiet hvalid))⟩,
      fun h => ⟨hresolved.trans (congrArg Host.Outcome.next (State.dvPageResolved_of_tick h)),
        htimeout.trans (congrArg Host.Outcome.next (State.dvPageTimeout_of_tick h))⟩,
      fun h => hresend.trans (congrArg Host.Outcome.next (State.dvResend_of_none h)),
      fun q h => hresend.trans (congrArg Host.Outcome.next (State.dvResend_of_some h)),
      fun q h hsent hwait hwf => hresend.trans (congrArg Host.Outcome.next (State.dvResend_of_nothing h hsent hwait hwf)),
      fun h => hread.trans (congrArg Host.Outcome.next (State.dvReadAgain_of_pending h)),
      fun h ho => hread.trans (congrArg Host.Outcome.next (State.dvReadAgain_of_none h ho)),
      fun o x h ho hx => hread.trans (congrArg Host.Outcome.next (State.dvReadAgain_of_late h ho hx))⟩
  case ethernet =>
    subst horigin
    exact ⟨exec_ackTimer_eth_of_acked, exec_ackTimer_eth_of_applied,
      fun h => ⟨exec_pageResolved_eth_of_not (.inl h), exec_pageWaitTimeout_eth_of_none h⟩,
      fun h => ⟨exec_pageResolved_eth_of_not (.inr h), exec_pageWaitTimeout_eth_of_other h⟩,
      fun q hstall hquiet hroce => ⟨exec_pageResolved_eth_of_stall hstall hquiet hroce,
        exec_pageWaitTimeout_eth_of_valid hstall hquiet hroce, exec_pageWaitTimeout_eth_of_invalid hstall hquiet hroce⟩,
      exec_resendDelayExpire_eth_of_none, fun q => exec_resendDelayExpire_eth_of_some,
      exec_readRespTimeout_eth_of_pending, exec_readRespTimeout_eth_of_late⟩

/-- Settles O35: requests, what they do, responses and timers, the four parts above. -/
theorem dvorarTransport : Obligations.DvorarTransport := ⟨dvRequests, dvApplied, dvResponses, connectionTimers⟩

end
end Sys2Proof.Machine
end

section

/-!
## Ethernet contexts

A connection that is set reads back. OPEN, CLOSE and CLEAR have a lemma for each way in which they can end.
-/

namespace Sys2Proof

/-- A field that is set reads as the low bits of the value. -/
theorem bits_setBits (w lo n v : Nat) : bits (setBits w lo n v) lo n = v % 2 ^ n := by
  have hrest : w / 2 ^ lo - bits w lo n = 2 ^ n * (w / 2 ^ lo / 2 ^ n) :=
    Nat.sub_eq_of_eq_add (Nat.div_add_mod ..).symm
  change (w - bits w lo n * 2 ^ lo + v % 2 ^ n * 2 ^ lo) / 2 ^ lo % 2 ^ n = _
  rw [Nat.add_mul_div_right _ _ (by positivity), Nat.mul_comm (bits w lo n), Nat.sub_mul_div, hrest,
    Nat.mul_add_mod, Nat.mod_mod]

section
variable {α : Type}

theorem Cells.put_put (m : Cells α) (a : Nat) (x y : α) : (m.put a x).put a y = m.put a y := by
  induction m with
  | nil => simp [Cells.put]
  | cons e t ih =>
    obtain ⟨b, v⟩ := e
    rcases Nat.lt_trichotomy a b with hlt | heq | hgt
    · simp [Cells.put, hlt, hlt.ne]
    · simp [Cells.put, heq]
    · simp [Cells.put, hgt.ne', hgt.not_gt, ih]

theorem Cells.del_of_get?_eq_none (m : Cells α) (a : Nat) (h : m.get? a = none) : m.del a = m := by
  induction m with
  | nil => rfl
  | cons e t ih =>
    obtain ⟨b, v⟩ := e
    rcases Nat.lt_trichotomy a b with hlt | heq | hgt
    · simp [Cells.del, hlt, hlt.ne]
    · simp [Cells.get?, heq] at h
    · simp only [Cells.get?, hgt.ne', hgt.not_gt, if_false] at h
      simp [Cells.del, hgt.ne', hgt.not_gt, ih h]

/-- Setting a key to the same value again changes nothing. -/
theorem Cells.set_set_self [DecidableEq α] (m : Cells α) (d : α) (a : Nat) (x : α) (hwf : Cells.wf m = true) :
    (m.set d a x).set d a x = m.set d a x := by
  by_cases hx : x = d
  · simp only [Cells.set, hx, if_true]
    exact Cells.del_of_get?_eq_none _ a (Cells.get?_del_self m a hwf)
  · simp only [Cells.set, hx, if_false]
    exact Cells.put_put m a x x

end
end Sys2Proof

namespace Sys2Proof.Machine

section
variable {s t : State} {k st a v syndrome psn : Nat} {c : EthConn} {p : EPkt} {ctrl : Bool} {f : List Byte}

/-! ### Connections -/

@[simp] theorem State.setEconn_regs (s : State) (k : Nat) (c : EthConn) : (s.setEconn k c).regs = s.regs := rfl

theorem State.econn_setEconn (hwf : Cells.wf s.eth.conns = true) : (s.setEconn k c).econn k = c :=
  Cells.getD_set_self s.eth.conns {} k c hwf

theorem State.wf_setEconn (hwf : Cells.wf s.eth.conns = true) : Cells.wf (s.setEconn k c).eth.conns = true :=
  Cells.wf_set s.eth.conns {} k c hwf

theorem State.setEconn_setEconn_self (hwf : Cells.wf s.eth.conns = true) :
    (s.setEconn k c).setEconn k c = s.setEconn k c :=
  congrArg (fun m => { s with eth := { s.eth with conns := m } }) (Cells.set_set_self s.eth.conns {} k c hwf)

theorem State.econn_congr (h : t.eth.conns = s.eth.conns) (k : Nat) : t.econn k = s.econn k :=
  congrArg (fun m : Cells EthConn => m.getD {} k) h

theorem State.ecnt_conns (s : State) (j : Nat) : (s.ecnt j).eth.conns = s.eth.conns :=
  congrArg Eth.conns (State.incRg_eth ..)

theorem State.egressPkt_conns (s : State) (c : EthConn) (ctrl : Bool) (f : List Byte) :
    (s.egressPkt c ctrl f).eth.conns = s.eth.conns := State.ecnt_conns s 1

theorem State.udpSend_conns (s : State) (k : Nat) (p : EPkt) : (s.udpSend k p).eth.conns = s.eth.conns :=
  State.egressPkt_conns ..

theorem State.roceAck_conns (s : State) (k syndrome psn : Nat) : (s.roceAck k syndrome psn).eth.conns = s.eth.conns :=
  State.egressPkt_conns ..

/-! ### STATE of a context -/

theorem State.ctxAt_of_regs (h : t.regs = s.regs) (k : Nat) : t.ctxAt k = s.ctxAt k := by
  simp only [State.ctxAt, State.rg, State.copyOf, h]

theorem State.econn_ctxState (hwf : Cells.wf s.eth.conns = true) :
    (s.ctxState k st).econn k = { s.econn k with word := setBits (s.econn k).word 0 2 st } :=
  Cells.getD_set_self s.eth.conns {} k _ hwf

theorem State.st_ctxState (hwf : Cells.wf s.eth.conns = true) : ((s.ctxState k st).econn k).st = st % 4 := by
  rw [State.econn_ctxState hwf]
  exact bits_setBits ..

theorem State.readN_writeN_byte (s : State) (a v : Nat) : (s.writeN a 1 v).readN a 1 = v % 256 := by
  have hread : (s.writeN a 1 v).readN a 1 = leNat (leBytes 1 v) := congrArg leNat (Memory.read_write_self s.mem a (leBytes 1 v))
  simp [hread, leBytes, leNat]

theorem State.readN_ctxState (s : State) (k st : Nat) : (s.ctxState k st).readN (s.ctxAt k) 1 % 4 = st % 4 := by
  have hbyte : (s.ctxState k st).readN (s.ctxAt k) 1 = setBits (s.readN (s.ctxAt k) 1) 0 2 st % 256 :=
    State.readN_writeN_byte ..
  have hbits := bits_setBits (s.readN (s.ctxAt k) 1) 0 2 st
  simp only [bits, Nat.pow_zero, Nat.div_one] at hbits
  omega

/-! ### OPEN, CLOSE and CLEAR -/

/-- What OPEN loads from the context. -/
def State.loadedCtx (s : State) (k : Nat) : EthConn :=
  let w := s.readN (s.ctxAt k) 64
  { word := w, psn := bits w 88 24, next := bits w 112 24, rto := s.rg Rg.eth_RTO_INIT_E,
    frozen := [2, 3, 4].contains (s.plotState (bits w 4 7)) }

theorem State.ctxOpen_of_not_closed (h : (s.econn k).st ≠ 0) : s.ctxOpen k = (s, 1) := if_pos h

section
variable (hclosed : (s.econn k).st = 0)
include hclosed

theorem State.ctxOpen_of_not_ok (h : s.ctxOk (s.readN (s.ctxAt k) 64) = false) : s.ctxOpen k = (s, 2) :=
  (if_neg (not_not_intro hclosed)).trans (if_pos (by rw [h]; rfl))

theorem State.ctxOpen_of_ok (h : s.ctxOk (s.readN (s.ctxAt k) 64) = true) :
    s.ctxOpen k = (((s.setEconn k (s.loadedCtx k)).writeN (s.ctxAt k + 26) 4 0).ctxState k 1, 0) :=
  (if_neg (not_not_intro hclosed)).trans (if_neg (by rw [h]; decide))

end

theorem State.ctxClose_of_not_open (h : (s.econn k).st ≠ 1) : s.ctxClose k = (s, 3) := if_pos h

theorem State.ctxClear_of_not_failed (h : (s.econn k).st ≠ 2) : s.ctxClear k = (s, 3) := if_pos h

section
variable (hrun : s.hubMainReset = false)
include hrun

theorem exec_ctxOpen_reg (k : Nat) : exec (.ctxOpen k false) s = .next (s.ctxReg 1 k) :=
  (if_neg (by simp [hrun])).trans (if_neg Bool.false_ne_true)

theorem exec_ctxClose_reg (k : Nat) : exec (.ctxClose k false) s = .next (s.ctxReg 2 k) :=
  (if_neg (by simp [hrun])).trans (if_neg Bool.false_ne_true)

theorem exec_ctxClear_reg (k : Nat) : exec (.ctxClear k false) s = .next (s.ctxReg 3 k) :=
  (if_neg (by simp [hrun])).trans (if_neg Bool.false_ne_true)

end

theorem ethContexts : Clauses.EthContexts := by
  intro s k hinv hk reg
  refine ⟨fun hrun => ⟨exec_ctxOpen_reg hrun k, exec_ctxClose_reg hrun k, exec_ctxClear_reg hrun k⟩,
    State.ctxOpen_of_not_closed, State.ctxOpen_of_not_ok, fun hclosed hok hwf => ?opened,
    State.ctxClose_of_not_open, State.ctxClear_of_not_failed⟩
  obtain ⟨u, hu⟩ : ∃ u, u = (s.setEconn k (s.loadedCtx k)).writeN (s.ctxAt k + 26) 4 0 := ⟨_, rfl⟩
  have huwf : Cells.wf u.eth.conns = true := by
    rw [hu, State.writeN_eth]
    exact State.wf_setEconn hwf
  have hat : u.ctxAt k = s.ctxAt k := 
    State.ctxAt_of_regs (by rw [hu, State.writeN_regs, State.setEconn_regs]) k
  rw [State.ctxOpen_of_ok hclosed hok, ← hu]
  exact ⟨rfl, State.st_ctxState huwf, hat ▸ State.readN_ctxState u k 1⟩

end
end Sys2Proof.Machine
end

section

/-!
## Requests of the UDP transport

What a context does with a request, in lemmas for each way in which it can end: taking it, performing it in its turn, and the
regions and buffers that it acts on.
-/

namespace Sys2Proof.Machine

section
variable {s v : State} {k n e fn key off len : Nat} {ce done : Bool} {c : EthConn} {p : EPkt} {a : Applied} {bs : List Byte}

/-! ### Taking a request -/

/-- A packet has been seen before: it has been applied, or is held. -/
def EthConn.dup (c : EthConn) (p : EPkt) : Bool := !psnGe p.psn c.next || c.held.any (fun q => q.psn == p.psn)

/-- The context holds a packet. -/
def EthConn.holding (c : EthConn) (p : EPkt) : EthConn := { c with held := c.held ++ [p] }

theorem State.eaccept_of_dup (h : (s.econn k).dup p = true) : s.eaccept k p = (s.ecnt 3).eack k := if_pos h

section
variable (hdup : (s.econn k).dup p = false)
include hdup

theorem State.eaccept_of_full (hpsn : p.psn ≠ (s.econn k).next)
    (hfull : 2 * 2 ^ 20 < s.reorderUsed 2 + p.data.length) : s.eaccept k p = s :=
  (if_neg (ne_true_of_eq_false hdup)).trans (if_pos ⟨hpsn, hfull⟩)

theorem State.eaccept_of_ahead (hpsn : p.psn ≠ (s.econn k).next)
    (hroom : s.reorderUsed 2 + p.data.length ≤ 2 * 2 ^ 20) :
    s.eaccept k p = (s.setEconn k ((s.econn k).holding p)).eack k :=
  (if_neg (ne_true_of_eq_false hdup)).trans ((if_neg fun h => Nat.not_lt.mpr hroom h.2).trans (if_neg hpsn))

theorem State.eaccept_of_next (hpsn : p.psn = (s.econn k).next) :
    s.eaccept k p = (s.setEconn k ((s.econn k).holding p)).eadvance k ((s.econn k).held.length + 1) :=
  (if_neg (ne_true_of_eq_false hdup)).trans ((if_neg (by simp [hpsn])).trans (if_pos hpsn))

end

theorem State.erequest_of_frozen (h : (s.econn k).frozen = true) : s.erequest k ce p = s := if_pos h

section
variable (hrun : (s.econn k).frozen = false)
include hrun

theorem State.erequest_of_running : s.erequest k ce p = match (s.econn k).refused with
    | some (o, e) =>
      if p.op = 5 ∨ o ≠ p.opid then s.eaccept k { p with ce := ce }
      else if p.psn = (s.econn k).next then s.udpSend k { op := 0x13, psn := p.psn, opid := p.opid, aux := e }
      else s
    | none => s.eaccept k { p with ce := ce } :=
  if_neg (ne_true_of_eq_false hrun)

theorem State.erequest_of_not_refused (h : p.op = 5 ∨ ∀ e, (s.econn k).refused ≠ some (p.opid, e)) :
    s.erequest k ce p = s.eaccept k { p with ce := ce } := by
  rw [State.erequest_of_running hrun]
  split
  · rename_i o e href
    exact if_pos (h.imp_right fun h ho => h e (href.trans (by rw [ho])))
  · rfl

variable (hop : p.op ≠ 5) (href : (s.econn k).refused = some (p.opid, e))
include hop href

theorem State.erequest_of_refused_next (hpsn : p.psn = (s.econn k).next) :
    s.erequest k ce p = s.udpSend k { op := 0x13, psn := p.psn, opid := p.opid, aux := e } := by
  rw [State.erequest_of_running hrun, href]
  exact (if_neg (by simp [hop])).trans (if_pos hpsn)

theorem State.erequest_of_refused_other (hpsn : p.psn ≠ (s.econn k).next) : s.erequest k ce p = s := by
  rw [State.erequest_of_running hrun, href]
  exact (if_neg (by simp [hop])).trans (if_neg hpsn)

end

/-! ### Performing a request -/

theorem State.regionWrite_of_none (h : s.region fn key off bs.length true = none) :
    s.regionWrite fn key off bs = .refuse 8 := by
  rw [State.regionWrite, h]

theorem State.regionRead_of_none (h : s.region fn key off len false = none) :
    s.regionRead fn key off len = .inl (.refuse 8) := by
  rw [State.regionRead, h]

theorem State.eapply_of_empty (h : p.len = 0) : s.eapply k p = .ok s := if_pos h

section
variable (hlen : p.len ≠ 0)
include hlen

theorem State.eapply_of_write (hop : p.op = 1) :
    s.eapply k p = s.regionWrite (s.econn k).fn p.rkey p.off p.data := by
  simp only [State.eapply, if_neg hlen, hop]

section
variable (hop : p.op = 5)
include hop

theorem State.eapply_of_read_refused (h : s.region (s.econn k).fn p.rkey p.off p.len false = none) :
    s.eapply k p = .refuse 8 := by
  simp only [State.eapply, if_neg hlen, hop, State.regionRead_of_none h]

theorem State.eapply_of_read (h : s.regionRead (s.econn k).fn p.rkey p.off p.len = .inr bs) :
    s.eapply k p = .ok ((s.readResp k p bs).drawn) := by
  simp only [State.eapply, if_neg hlen, hop, h]

end

section
variable (hop : p.op = 7)
include hop

theorem State.eapply_of_send_unposted (h : s.sendPiece k p.isFirst p.isLast p.data = none) : s.eapply k p = .waitTick := by
  simp only [State.eapply, if_neg hlen, hop, h]

theorem State.eapply_of_send (h : s.sendPiece k p.isFirst p.isLast p.data = some a) : s.eapply k p = a := by
  simp only [State.eapply, if_neg hlen, hop, h]

end
end

/-! ### Passing a packet -/

/-- An ACK changes its context by what it reports: the packets since the last one, and CE. -/
theorem State.econn_eack (hwf : Cells.wf s.eth.conns = true) :
    ∃ ce, (s.eack k).econn k = { s.econn k with since := 0, ce := ce } := by
  by_cases hroce : (s.econn k).roce = true
  · refine ⟨(s.econn k).ce, ?_⟩
    rw [show s.eack k = _ from if_pos hroce, State.econn_congr (State.roceAck_conns ..), State.econn_setEconn hwf]
  · refine ⟨false, ?_⟩
    rw [show s.eack k = _ from if_neg hroce, State.econn_congr (State.udpSend_conns ..), State.econn_setEconn hwf]

/-- A packet has been passed by its context, which expects the next one. -/
def EthConn.passed (c : EthConn) (p : EPkt) (done : Bool) : EthConn :=
  { c with
    next := (c.next + 1) % 2 ^ 24, held := c.held.filter (fun q => q.psn != p.psn), since := c.since + 1, stall := none,
    stallTick := false, ce := c.ce || (done && p.ce) }

/-- A packet is passed, counted if it was applied, and acknowledged when it is the last of its operation or the eighth since
an ACK. -/
def State.passEth (s : State) (k : Nat) (p : EPkt) (done : Bool) : State :=
  let u := s.setEconn k ((s.econn k).passed p done)
  let w := if done then u.ecnt 0 else u
  if p.isLast || decide (8 ≤ (w.econn k).since) then w.eack k else w

theorem State.econn_passEth (hwf : Cells.wf s.eth.conns = true) (done : Bool) : ∃ since ce,
    (s.passEth k p done).econn k = { (s.econn k).passed p done with since := since, ce := ce } := by
  obtain ⟨u, hu⟩ : ∃ u, u = s.setEconn k ((s.econn k).passed p done) := ⟨_, rfl⟩
  obtain ⟨w, hw⟩ : ∃ w, w = if done then u.ecnt 0 else u := ⟨_, rfl⟩
  have hconns : w.eth.conns = u.eth.conns := by
    rw [hw]
    split
    · exact State.ecnt_conns u 0
    · rfl
  have hwconn : w.econn k = (s.econn k).passed p done := by
    rw [State.econn_congr hconns, hu, State.econn_setEconn hwf]
  have hwwf : Cells.wf w.eth.conns = true := by
    rw [hconns, hu]
    exact State.wf_setEconn hwf
  have hpass : s.passEth k p done = if p.isLast || decide (8 ≤ (w.econn k).since) then w.eack k else w := by
    rw [hw, hu]
    rfl
  rw [hpass]
  split
  · obtain ⟨ce, hack⟩ := State.econn_eack (k := k) hwwf
    exact ⟨0, ce, by rw [hack, hwconn]⟩
  · exact ⟨_, _, hwconn⟩

theorem State.eadvance_succ (s : State) (k n : Nat) : s.eadvance k (n + 1) =
    match (s.econn k).held.find? (fun q => q.psn == (s.econn k).next) with
    | none => s
    | some p =>
      match s.eapply k p with
      | .ok s1 => (s1.passEth k p true).eadvance k n
      | .refuse e =>
        if p.op = 5 then
          ((s.udpSend k { op := 6, psn := p.psn, isFirst := true, isLast := true, opid := p.opid, aux := 1 + 2 * e }).passEth
            k p false).eadvance k n
        else
          ((s.dropBuf k).setEconn k { (s.dropBuf k).econn k with
            held := ((s.dropBuf k).econn k).held.filter (fun q => q.opid != p.opid), refused := some (p.opid, e),
            stall := none, stallTick := false }).udpSend k { op := 0x13, psn := p.psn, opid := p.opid, aux := e }
      | .miss => ((s.setEconn k { s.econn k with stall := some p.psn }).udpSend k
        { op := 0x11, psn := p.psn, opid := p.opid }).emit (.paging 256 k p.off)
      | .waitTick =>
        if p.op = 7 then
          (s.setEconn k { s.econn k with held := (s.econn k).held.filter (fun q => q.psn != p.psn) }).ecnt 8
        else s.setEconn k { s.econn k with stall := some p.psn, stallTick := true } := rfl

theorem State.eadvance_of_none (h : (s.econn k).held.find? (fun q => q.psn == (s.econn k).next) = none) (n : Nat) :
    s.eadvance k n = s := by
  cases n with
  | zero => rfl
  | succ n => rw [State.eadvance_succ, h]

section
variable (h : (s.econn k).held.find? (fun q => q.psn == (s.econn k).next) = some p)
include h

theorem State.eadvance_of_ok (happ : s.eapply k p = .ok v) (n : Nat) :
    s.eadvance k (n + 1) = (v.passEth k p true).eadvance k n := by
  rw [State.eadvance_succ, h]
  simp only [happ]

theorem State.eadvance_of_miss (happ : s.eapply k p = .miss) (n : Nat) :
    s.eadvance k (n + 1) = ((s.setEconn k { s.econn k with stall := some p.psn }).udpSend k
      { op := 0x11, psn := p.psn, opid := p.opid }).emit (.paging 256 k p.off) := by
  rw [State.eadvance_succ, h]
  simp only [happ]

section
variable (happ : s.eapply k p = .waitTick)
include happ

theorem State.eadvance_of_unposted (hop : p.op = 7) (n : Nat) : s.eadvance k (n + 1) =
    (s.setEconn k { s.econn k with held := (s.econn k).held.filter (fun q => q.psn != p.psn) }).ecnt 8 := by
  rw [State.eadvance_succ, h]
  simp only [happ, if_pos hop]

theorem State.eadvance_of_wait (hop : p.op ≠ 7) (n : Nat) : s.eadvance k (n + 1) =
    s.setEconn k { s.econn k with stall := some p.psn, stallTick := true } := by
  rw [State.eadvance_succ, h]
  simp only [happ, if_neg hop]

end

/-- The only packet held is applied: the context expects the one after it, and holds none. -/
theorem State.econn_eadvance_of_last (happ : s.eapply k p = .ok v) (hwf : Cells.wf v.eth.conns = true)
    (hheld : (v.econn k).held = [p]) (n : Nat) :
    ((s.eadvance k (n + 1)).econn k).next = ((v.econn k).next + 1) % 2 ^ 24 ∧ ((s.eadvance k (n + 1)).econn k).held = [] := by
  obtain ⟨since, ce, hpassed⟩ := State.econn_passEth (k := k) (p := p) hwf true
  have hnext : ((v.passEth k p true).econn k).next = ((v.econn k).next + 1) % 2 ^ 24 := by
    rw [hpassed]
    rfl
  have hnone : ((v.passEth k p true).econn k).held = [] := by
    rw [hpassed]
    simp [EthConn.passed, hheld]
  have hstop : (v.passEth k p true).eadvance k n = v.passEth k p true :=
    State.eadvance_of_none (by rw [hnone]; rfl) n
  rw [State.eadvance_of_ok h happ, hstop]
  exact ⟨hnext, hnone⟩

end

theorem ethRequests : Clauses.EthRequests := by
  intro s k n ce p c q dup held taken
  have haccept (h : taken) : s.erequest k ce p = s.eaccept k q := State.erequest_of_not_refused h.1 h.2
  refine ⟨State.erequest_of_frozen, fun hrun hop e href => ⟨State.erequest_of_refused_next hrun hop href,
      State.erequest_of_refused_other hrun hop href⟩,
    fun h hdup => (haccept h).trans (State.eaccept_of_dup hdup),
    fun h hdup hpsn => ⟨fun hfull => (haccept h).trans (State.eaccept_of_full (p := q) hdup hpsn hfull),
      fun hroom => (haccept h).trans (State.eaccept_of_ahead (p := q) hdup hpsn hroom)⟩,
    fun h hdup hpsn => (haccept h).trans (State.eaccept_of_next (p := q) hdup hpsn),
    State.eapply_of_empty, fun hlen hop => ⟨State.eapply_of_write hlen hop, fun h => ?refusedWrite⟩,
    fun hlen hop => ⟨State.eapply_of_read_refused hlen hop, fun bs => State.eapply_of_read hlen hop⟩,
    fun hlen hop => ⟨State.eapply_of_send_unposted hlen hop, fun a => State.eapply_of_send hlen hop⟩,
    fun h => State.eadvance_of_none h n, fun h => ⟨fun happ hop => State.eadvance_of_unposted h happ hop n,
      fun happ hop => State.eadvance_of_wait h happ hop n, fun happ => State.eadvance_of_miss h happ n,
      fun v happ hwf hheld hnext => ?passed⟩⟩
  case refusedWrite => exact (State.eapply_of_write hlen hop).trans (State.regionWrite_of_none h)
  case passed => exact hnext ▸ State.econn_eadvance_of_last h happ hwf hheld n

end
end Sys2Proof.Machine
end

section

/-!
## Packets of the UDP transport

A queue without a packet of the right kind at its head gives nothing, whatever the command. A packet that is there goes to its
context: a request is taken, any other packet concerns what the context has sent.
-/

namespace Sys2Proof.Machine

section
variable {s u : State} {q k op cause done : Nat} {ce roce : Bool} {ops : List Nat} {p : EPkt} {o : EOp} {i : Instr}

/-! ### The head of a receive queue -/

/-- The commands that take a packet from a receive queue, each with its transport and the opcodes that it takes. -/
def takers (q : Nat) : List (Bool × List Nat × Instr) :=
  [(false, [1], .udpWrite q), (false, [5], .udpRead q), (false, [7], .udpSend q), (false, [6], .udpReadResp q),
   (false, [0x10], .udpAck q), (false, [0x11], .udpPageWait q), (false, [0x12], .udpPageRetry q), (false, [0x13], .udpNackErr q),
   (true, [0x00, 0x01, 0x02, 0x04], .roceSend q), (true, [0x06, 0x07, 0x08, 0x0A], .roceRdmaWrite q),
   (true, [0x0C], .roceRdmaReadRequest q), (true, [0x0D, 0x0E, 0x0F, 0x10], .roceReadResponse q), (true, [0x11], .roceAcknowledge q),
   (true, [0x81], .roceCnp q)]

theorem State.takeUdp_of_none (h : s.fromTq q false [op] = (u, none)) : s.takeUdp q op = u := by
  rw [State.takeUdp, h]

theorem State.takeUdp_of_some (h : s.fromTq q false [op] = (u, some (k, ce, p))) : s.takeUdp q op = u.erequest k ce p := by
  rw [State.takeUdp, h]

/-- The commands of the request packets differ only in the opcode. -/
theorem exec_takeUdp (hi : (op, i) ∈ [(1, Instr.udpWrite q), (5, .udpRead q), (7, .udpSend q)]) :
    exec i s = .next (s.takeUdp q op) := by
  simp only [List.mem_cons, Prod.mk.injEq, List.not_mem_nil, or_false] at hi
  obtain ⟨rfl, rfl⟩ | ⟨rfl, rfl⟩ | ⟨rfl, rfl⟩ := hi <;> rfl

theorem exec_request_of_none (hi : (op, i) ∈ [(1, Instr.udpWrite q), (5, .udpRead q), (7, .udpSend q)])
    (h : s.fromTq q false [op] = (u, none)) : exec i s = .next u :=
  (exec_takeUdp hi).trans (congrArg Host.Outcome.next (State.takeUdp_of_none h))

theorem exec_request_of_some (hi : (op, i) ∈ [(1, Instr.udpWrite q), (5, .udpRead q), (7, .udpSend q)])
    (h : s.fromTq q false [op] = (u, some (k, ce, p))) : exec i s = .next (u.erequest k ce p) :=
  (exec_takeUdp hi).trans (congrArg Host.Outcome.next (State.takeUdp_of_some h))

theorem exec_taker_of_none (hi : (roce, ops, i) ∈ takers q) (h : s.fromTq q roce ops = (u, none)) : exec i s = .next u := by
  simp only [takers, List.mem_cons, Prod.mk.injEq, List.not_mem_nil, or_false] at hi
  obtain ⟨rfl, rfl, rfl⟩ | ⟨rfl, rfl, rfl⟩ | ⟨rfl, rfl, rfl⟩ | ⟨rfl, rfl, rfl⟩ | ⟨rfl, rfl, rfl⟩ | ⟨rfl, rfl, rfl⟩ |
    ⟨rfl, rfl, rfl⟩ | ⟨rfl, rfl, rfl⟩ | ⟨rfl, rfl, rfl⟩ | ⟨rfl, rfl, rfl⟩ | ⟨rfl, rfl, rfl⟩ | ⟨rfl, rfl, rfl⟩ |
    ⟨rfl, rfl, rfl⟩ | ⟨rfl, rfl, rfl⟩ := hi
  · exact exec_request_of_none (by simp) h
  · exact exec_request_of_none (by simp) h
  · exact exec_request_of_none (by simp) h
  · change execUdpReadResp q s = _
    rw [execUdpReadResp, h]
  · change execUdpAck q s = _
    rw [execUdpAck, h]
  · change execUdpPageWait q s = _
    rw [execUdpPageWait, h]
  · change execUdpPageRetry q s = _
    rw [execUdpPageRetry, h]
  · change execUdpNackErr q s = _
    rw [execUdpNackErr, h]
  · change execRoceSend q s = _
    rw [execRoceSend, h]
  · change execRoceRdmaWrite q s = _
    rw [execRoceRdmaWrite, h]
  · change execRoceRdmaReadRequest q s = _
    rw [execRoceRdmaReadRequest, h]
  · change execRoceReadResponse q s = _
    rw [execRoceReadResponse, h]
  · change execRoceAcknowledge q s = _
    rw [execRoceAcknowledge, h]
  · change execRoceCnp q s = _
    rw [execRoceCnp, h]

/-! ### Operations that end -/

theorem State.ended_eopEndAt (s : State) (k : Nat) (o : EOp) (cause done : Nat) :
    (s.eopEndAt k o cause done).dv.ended = s.dv.ended ++ [o.ended cause done] := rfl

theorem EOp.ended_of_open (h : o.left ≠ [] ∨ o.uncovered ≠ []) (cause done : Nat) : o.ended cause done =
    { owner := o.owner, opid := o.opid, state := if done = 0 then 2 else 1, cause := cause, bytes := done } :=
  if_neg (by rcases h with h | h <;> simp [EOp.whole, h])

/-! ### PAGE_WAIT, NACK_ERR -/

theorem exec_udpPageWait (h : s.fromTq q false [0x11] = (u, some (k, ce, p))) :
    exec (.udpPageWait q) s = .next (u.setEconn k { u.econn k with pageWait := some p.psn }) := by
  change execUdpPageWait q s = _
  simp only [execUdpPageWait, h]

section
variable (h : s.fromTq q false [0x13] = (u, some (k, ce, p)))
include h

theorem exec_udpNackErr_of_none
    (ho : (u.econn k).ops.find? (fun o => o.kind != 5 && o.left.any (fun x => x.1 == p.psn)) = none) :
    exec (.udpNackErr q) s = .next u := by
  change execUdpNackErr q s = _
  simp only [execUdpNackErr, h, ho]

theorem exec_udpNackErr_of_op
    (ho : (u.econn k).ops.find? (fun o => o.kind != 5 && o.left.any (fun x => x.1 == p.psn)) = some o) :
    exec (.udpNackErr q) s =
      .next (((u.eopEndAt k o (p.aux % 64) (o.offsetOf p.psn)).evoid k o.opid).eagainFrom k p.psn) := by
  change execUdpNackErr q s = _
  simp only [execUdpNackErr, h, ho]

end

/-! ### PAGE_RETRY -/

/-- The PAGE_RETRY packets in a row for one PSN, with this one. -/
def EthConn.tries (c : EthConn) (psn : Nat) : Nat := if c.pageTry.1 = psn then c.pageTry.2 + 1 else 1

/-- A PAGE_RETRY is noted: everything from its PSN on is to be sent again. -/
def State.eretryNoted (s : State) (k psn : Nat) : State :=
  s.setEconn k { s.econn k with pageTry := (psn, (s.econn k).tries psn), resend := some psn, pageWait := some psn }

section
variable (h : s.fromTq q false [0x12] = (u, some (k, ce, p)))
include h

theorem exec_udpPageRetry_of_first (hfew : (u.econn k).tries p.psn < u.rg Rg.dvorar_PAGE_RETRIES) :
    exec (.udpPageRetry q) s = .next (u.eretryNoted k p.psn) := by
  change execUdpPageRetry q s = _
  simp only [execUdpPageRetry, h]
  exact if_pos hfew

variable (hmany : u.rg Rg.dvorar_PAGE_RETRIES ≤ (u.econn k).tries p.psn)
include hmany

theorem exec_udpPageRetry_of_last : exec (.udpPageRetry q) s =
    match (u.econn k).ops.find? (fun o => o.left.any (fun x => x.1 == p.psn)) with
    | some o =>
      let v := ((u.eretryNoted k p.psn).eopEndAt k o 3 (if o.kind = 5 then o.prefixBytes else o.offsetOf p.psn)).evoid k o.opid
      .next ((v.setEconn k { v.econn k with pageTry := (0, 0), resend := none, pageWait := none }).eagainFrom k p.psn)
    | none => .next (u.eretryNoted k p.psn) := by
  change execUdpPageRetry q s = _
  simp only [execUdpPageRetry, h]
  exact if_neg (Nat.not_lt.mpr hmany)

theorem exec_udpPageRetry_of_none (ho : (u.econn k).ops.find? (fun o => o.left.any (fun x => x.1 == p.psn)) = none) :
    exec (.udpPageRetry q) s = .next (u.eretryNoted k p.psn) := by
  rw [exec_udpPageRetry_of_last h hmany, ho]

theorem exec_udpPageRetry_of_op (ho : (u.econn k).ops.find? (fun o => o.left.any (fun x => x.1 == p.psn)) = some o) :
    exec (.udpPageRetry q) s =
      let v := ((u.eretryNoted k p.psn).eopEndAt k o 3 (if o.kind = 5 then o.prefixBytes else o.offsetOf p.psn)).evoid k o.opid
      .next ((v.setEconn k { v.econn k with pageTry := (0, 0), resend := none, pageWait := none }).eagainFrom k p.psn) := by
  rw [exec_udpPageRetry_of_last h hmany, ho]

end

/-! ### READ_RESP -/

section
variable (h : s.fromTq q false [6] = (u, some (k, ce, p)))
include h

theorem exec_udpReadResp_of_none
    (ho : (u.econn k).ops.find? (fun o => o.kind == 5 && o.left.any (fun x => x.1 == p.psn)) = none) :
    exec (.udpReadResp q) s = .next u := by
  change execUdpReadResp q s = _
  simp only [execUdpReadResp, h, ho]

variable (ho : (u.econn k).ops.find? (fun o => o.kind == 5 && o.left.any (fun x => x.1 == p.psn)) = some o)
include ho

theorem exec_udpReadResp_of_error (herr : p.aux % 2 = 1) :
    exec (.udpReadResp q) s = .next (u.eopEnd k o (bits p.aux 1 6)) := by
  change execUdpReadResp q s = _
  simp only [execUdpReadResp, h, ho, if_pos herr]

theorem exec_udpReadResp_of_bytes {x : Nat × Nat × Nat} (hgood : p.aux % 2 = 0)
    (hx : o.left.find? (fun x => x.1 == p.psn) = some x) : exec (.udpReadResp q) s =
      let lo := x.2.1 / max 64 (u.econn k).pmtu * max 64 (u.econn k).pmtu + p.off
      let v := match o.sink with
        | some d => u.storeSink d lo (p.data.take (o.len - lo))
        | none => u
      .next (v.eopStep k { o with
        left := o.left.flatMap (fun x => if x.1 = p.psn then cutLeft lo (lo + p.data.length) [x] else [x]) }) := by
  change execUdpReadResp q s = _
  cases hsink : o.sink <;>
    simp only [execUdpReadResp, h, ho, if_neg (show ¬p.aux % 2 = 1 by omega), hx, Option.map_some, Option.getD_some, hsink]

end

/-! ### ACK -/

theorem State.ewindow_of_nothing (h : (s.econn k).wait = []) (n : Nat) : s.ewindow k n = s := by
  cases n with
  | zero => rfl
  | succ n => simp only [State.ewindow, h]

theorem State.ecovered_of_none {psn : Nat}
    (h : ∀ o ∈ (s.econn k).ops, (∀ y ∈ o.left, y.1 ≠ psn) ∧ psn ∉ o.uncovered) : s.ecovered k psn = s := by
  have hnone : (s.econn k).ops.find? (fun o =>
      (o.kind != 5 && o.left.any (fun x => x.1 == psn)) || o.uncovered.contains psn) = none :=
    List.find?_eq_none.mpr fun o ho => by
      obtain ⟨hleft, huncov⟩ := h o ho
      have hany : o.left.any (fun x => x.1 == psn) = false := by simpa using fun a b c hy => hleft (a, b, c) hy
      simp [hany, huncov]
  simp only [State.ecovered, hnone]

/-- The context once everything that it has sent is acknowledged. -/
def EthConn.emptied (c : EthConn) (rto : Nat) : EthConn :=
  { c with sent := [], rto := rto, expiries := 0, pageWait := none, rnr := 0 }

section
variable (h : s.fromTq q false [0x10] = (u, some (k, ce, p))) (haux : p.aux % 2 = 0)
include h haux

/-- An ACK of everything sent, without CE_SEEN: the operations come on, nothing is sent again, and the window goes on. -/
theorem exec_udpAck_of_all (hall : ∀ x ∈ (u.econn k).sent, psnGe p.psn x.psn = true) : exec (.udpAck q) s =
    let v := u.eprogress k (u.econn k).sent []
    let w := v.setEconn k { v.econn k with fast := (u.econn k).fast }
    .next (w.ewindow k (w.econn k).wait.length) := by
  have hnew : (u.econn k).sent.filter (fun x => psnGe p.psn x.psn) = (u.econn k).sent := List.filter_eq_self.mpr hall
  have hrest : (u.econn k).sent.filter (fun x => !psnGe p.psn x.psn) = [] :=
    List.filter_eq_nil_iff.mpr fun x hx => by simp [hall x hx]
  change execUdpAck q s = _
  simp only [execUdpAck, h, if_neg (show ¬p.aux % 2 = 1 by omega), hnew, hrest, List.filter_nil, List.map_nil,
    List.append_nil, List.foldl_nil]

variable (hwait : (u.econn k).wait = []) (hwf : Cells.wf u.eth.conns = true)
include hwait hwf

theorem exec_udpAck_of_idle (hsent : (u.econn k).sent = []) : exec (.udpAck q) s = .next (u.setEconn k (u.econn k)) := by
  have hnowait : ((u.setEconn k (u.econn k)).econn k).wait = (u.econn k).wait := by rw [State.econn_setEconn hwf]
  rw [exec_udpAck_of_all h haux (by simp [hsent]), hsent]
  exact congrArg Host.Outcome.next (State.ewindow_of_nothing (hnowait.trans hwait) _)

theorem exec_udpAck_of_last {x : EPkt} (hsent : (u.econn k).sent = [x]) (hpsn : psnGe p.psn x.psn = true)
    (hops : ∀ o ∈ (u.econn k).ops, (∀ y ∈ o.left, y.1 ≠ x.psn) ∧ x.psn ∉ o.uncovered) :
    exec (.udpAck q) s = .next (u.setEconn k ((u.econn k).emptied (u.rg Rg.eth_RTO_INIT_E))) := by
  obtain ⟨v, hv⟩ : ∃ v, v = u.setEconn k ((u.econn k).emptied (u.rg Rg.eth_RTO_INIT_E)) := ⟨_, rfl⟩
  have hconn : v.econn k = (u.econn k).emptied (u.rg Rg.eth_RTO_INIT_E) := hv ▸ State.econn_setEconn hwf
  have hprogress : u.eprogress k (u.econn k).sent [] = v := by
    rw [hsent]
    change (u.setEconn k ((u.econn k).emptied (u.rg Rg.eth_RTO_INIT_E))).ecovered k x.psn = v
    rw [← hv]
    exact State.ecovered_of_none (hconn ▸ hops)
  have hfast : v.setEconn k { v.econn k with fast := (u.econn k).fast } = v := by
    rw [hconn]
    change v.setEconn k ((u.econn k).emptied (u.rg Rg.eth_RTO_INIT_E)) = v
    rw [hv, State.setEconn_setEconn_self hwf]
  rw [exec_udpAck_of_all h haux (by simpa [hsent] using hpsn)]
  simp only [hprogress, hfast]
  rw [State.ewindow_of_nothing (hconn ▸ hwait), hv]

end

end
end Sys2Proof.Machine
end

section

/-!
## RoCEv2 packets

A request that is not in its turn is answered by its queue pair (`State.roceTurn`); one that is in turn is performed, refused,
or waits. Responses and acknowledgements concern what the queue pair has sent.
-/

namespace Sys2Proof.Machine

section
variable {s u v : State} {q k e : Nat} {ce : Bool} {p : EPkt} {o : EOp} {bs : List Byte}

/-! ### SEND -/

section
variable (h : s.fromTq q true [0x00, 0x01, 0x02, 0x04] = (u, some (k, ce, p)))
include h

theorem exec_roceSend_of_answered (hturn : u.roceTurn k p = some v) : exec (.roceSend q) s = .next v := by
  change execRoceSend q s = _
  simp only [execRoceSend, h, hturn]

variable (hturn : u.roceTurn k p = none)
include hturn

theorem exec_roceSend_of_stray (hfirst : p.isFirst = false) (hbuf : (u.econn k).buf = none) :
    exec (.roceSend q) s = .next (u.roceRefuse k 1) := by
  change execRoceSend q s = _
  simp only [execRoceSend, h, hturn]
  exact if_pos ⟨hfirst, by rw [hbuf]; rfl⟩

variable (hplace : p.isFirst = true ∨ (u.econn k).buf ≠ none)
include hplace

theorem exec_roceSend_of_placed : exec (.roceSend q) s = match u.sendPiece k p.isFirst p.isLast p.data with
    | none => .next (((u.setEconn k { u.econn k with stall := some (u.econn k).next }).roceAck k
      (0x20 + (u.econn k).fd 152 5) (u.econn k).next).ecnt 8)
    | some (.ok s1) => .next ((s1.rocePass k ce p.isLast 1).roceSoon k p.isLast)
    | some _ => .next (u.roceRefuse k 1) := by
  change execRoceSend q s = _
  simp only [execRoceSend, h, hturn]
  refine if_neg ?_
  rintro ⟨hfirst, hbuf⟩
  rcases hplace with hp | hp
  · exact Bool.false_ne_true (hfirst.symm.trans hp)
  · exact hp (Option.isNone_iff_eq_none.mp hbuf)

theorem exec_roceSend_of_posted (hpiece : u.sendPiece k p.isFirst p.isLast p.data = some (.ok v)) :
    exec (.roceSend q) s = .next ((v.rocePass k ce p.isLast 1).roceSoon k p.isLast) := by
  rw [exec_roceSend_of_placed h hturn hplace, hpiece]

theorem exec_roceSend_of_unposted (hpiece : u.sendPiece k p.isFirst p.isLast p.data = none) :
    exec (.roceSend q) s = .next (((u.setEconn k { u.econn k with stall := some (u.econn k).next }).roceAck k
      (0x20 + (u.econn k).fd 152 5) (u.econn k).next).ecnt 8) := by
  rw [exec_roceSend_of_placed h hturn hplace, hpiece]

end

/-! ### RDMA WRITE -/

/-- The region key of a WRITE packet: the first packet names it, and it holds for the message. -/
def EthConn.writeKey (c : EthConn) (p : EPkt) : Nat := if p.isFirst then p.rkey else c.dest.1

/-- Where the bytes of a WRITE packet go in their region. -/
def EthConn.writeOff (c : EthConn) (p : EPkt) : Nat := if p.isFirst then p.off else c.dest.2

/-- The bytes of a WRITE's message that are still to come, with this packet's. -/
def EthConn.writeLeft (c : EthConn) (p : EPkt) : Nat := if p.isFirst then p.len else c.msg

/-- A WRITE packet fits the rest of its message, and the last one ends it. -/
def EthConn.writeFits (c : EthConn) (p : EPkt) : Prop :=
  p.data.length ≤ c.writeLeft p ∧ (p.isLast = true → c.writeLeft p = p.data.length)

/-- The region of a WRITE's message exists: its first packet checks it. -/
def State.writeNamed (s : State) (k : Nat) (p : EPkt) : Prop :=
  p.isFirst = true → s.region (s.econn k).fn ((s.econn k).writeKey p) ((s.econn k).writeOff p) p.len true ≠ none

/-- A WRITE packet has been performed: the message goes on behind it, and it is passed. -/
def State.writePassed (v : State) (k : Nat) (ce : Bool) (p : EPkt) (key off left : Nat) : State :=
  ((v.setEconn k { v.econn k with
    dest := (key, off + p.data.length), msg := left - p.data.length }).rocePass k ce p.isLast 1).roceSoon k p.isLast

section
variable (h : s.fromTq q true [0x06, 0x07, 0x08, 0x0A] = (u, some (k, ce, p)))
include h

theorem exec_roceRdmaWrite_of_answered (hturn : u.roceTurn k p = some v) : exec (.roceRdmaWrite q) s = .next v := by
  change execRoceRdmaWrite q s = _
  simp only [execRoceRdmaWrite, h, hturn]

variable (hturn : u.roceTurn k p = none)
include hturn

theorem exec_roceRdmaWrite_of_misfit (hfits : ¬(u.econn k).writeFits p) :
    exec (.roceRdmaWrite q) s = .next (u.roceRefuse k 1) := by
  change execRoceRdmaWrite q s = _
  simp only [execRoceRdmaWrite, h, hturn]
  refine if_pos (Classical.byContradiction fun hnot => hfits ?_)
  obtain ⟨hlong, hlast⟩ := not_or.mp hnot
  exact ⟨Nat.not_lt.mp hlong, fun hl => Classical.byContradiction fun hne => hlast ⟨hl, hne⟩⟩

variable (hfits : (u.econn k).writeFits p)
include hfits

theorem exec_roceRdmaWrite_of_fits : exec (.roceRdmaWrite q) s =
    if !(!p.isFirst || (u.region (u.econn k).fn ((u.econn k).writeKey p) ((u.econn k).writeOff p) p.len true).isSome) then
      .next (u.roceRefuse k 2)
    else match (if p.data.isEmpty then Applied.ok u
        else u.regionWrite (u.econn k).fn ((u.econn k).writeKey p) ((u.econn k).writeOff p) p.data) with
      | .ok s1 => .next (s1.writePassed k ce p ((u.econn k).writeKey p) ((u.econn k).writeOff p) ((u.econn k).writeLeft p))
      | .refuse _ => .next (u.roceRefuse k 2)
      | .miss => .next (u.emit (.paging 256 k ((u.econn k).writeOff p)))
      | .waitTick => .next s := by
  obtain ⟨hroom, hend⟩ := hfits
  change execRoceRdmaWrite q s = _
  simp only [execRoceRdmaWrite, h, hturn]
  refine if_neg ?_
  rintro (hlong | ⟨hlast, hne⟩)
  · exact Nat.not_lt.mpr hroom hlong
  · exact hne (hend hlast)

theorem exec_roceRdmaWrite_of_unnamed (hnamed : ¬u.writeNamed k p) :
    exec (.roceRdmaWrite q) s = .next (u.roceRefuse k 2) := by
  rw [exec_roceRdmaWrite_of_fits h hturn hfits]
  refine if_pos ?_
  simpa [State.writeNamed] using hnamed

variable (hnamed : u.writeNamed k p)
include hnamed

theorem exec_roceRdmaWrite_of_named : exec (.roceRdmaWrite q) s =
    match (if p.data.isEmpty then Applied.ok u
        else u.regionWrite (u.econn k).fn ((u.econn k).writeKey p) ((u.econn k).writeOff p) p.data) with
      | .ok s1 => .next (s1.writePassed k ce p ((u.econn k).writeKey p) ((u.econn k).writeOff p) ((u.econn k).writeLeft p))
      | .refuse _ => .next (u.roceRefuse k 2)
      | .miss => .next (u.emit (.paging 256 k ((u.econn k).writeOff p)))
      | .waitTick => .next s := by
  rw [exec_roceRdmaWrite_of_fits h hturn hfits]
  refine if_neg ?_
  cases hfirst : p.isFirst with
  | false => simp
  | true => simpa [Option.isSome_iff_ne_none] using hnamed hfirst

theorem exec_roceRdmaWrite_of_empty (hdata : p.data = []) : exec (.roceRdmaWrite q) s =
    .next (u.writePassed k ce p ((u.econn k).writeKey p) ((u.econn k).writeOff p) ((u.econn k).writeLeft p)) := by
  rw [exec_roceRdmaWrite_of_named h hturn hfits hnamed, if_pos (by rw [hdata]; rfl)]

variable (hdata : p.data ≠ [])
include hdata

theorem exec_roceRdmaWrite_of_data : exec (.roceRdmaWrite q) s =
    match u.regionWrite (u.econn k).fn ((u.econn k).writeKey p) ((u.econn k).writeOff p) p.data with
      | .ok s1 => .next (s1.writePassed k ce p ((u.econn k).writeKey p) ((u.econn k).writeOff p) ((u.econn k).writeLeft p))
      | .refuse _ => .next (u.roceRefuse k 2)
      | .miss => .next (u.emit (.paging 256 k ((u.econn k).writeOff p)))
      | .waitTick => .next s := by
  rw [exec_roceRdmaWrite_of_named h hturn hfits hnamed, if_neg (mt List.isEmpty_iff.mp hdata)]

theorem exec_roceRdmaWrite_of_written
    (hwrite : u.regionWrite (u.econn k).fn ((u.econn k).writeKey p) ((u.econn k).writeOff p) p.data = .ok v) :
    exec (.roceRdmaWrite q) s =
      .next (v.writePassed k ce p ((u.econn k).writeKey p) ((u.econn k).writeOff p) ((u.econn k).writeLeft p)) := by
  rw [exec_roceRdmaWrite_of_data h hturn hfits hnamed hdata, hwrite]

theorem exec_roceRdmaWrite_of_refused
    (hwrite : u.regionWrite (u.econn k).fn ((u.econn k).writeKey p) ((u.econn k).writeOff p) p.data = .refuse e) :
    exec (.roceRdmaWrite q) s = .next (u.roceRefuse k 2) := by
  rw [exec_roceRdmaWrite_of_data h hturn hfits hnamed hdata, hwrite]

theorem exec_roceRdmaWrite_of_miss
    (hwrite : u.regionWrite (u.econn k).fn ((u.econn k).writeKey p) ((u.econn k).writeOff p) p.data = .miss) :
    exec (.roceRdmaWrite q) s = .next (u.emit (.paging 256 k ((u.econn k).writeOff p))) := by
  rw [exec_roceRdmaWrite_of_data h hturn hfits hnamed hdata, hwrite]

theorem exec_roceRdmaWrite_of_wait
    (hwrite : u.regionWrite (u.econn k).fn ((u.econn k).writeKey p) ((u.econn k).writeOff p) p.data = .waitTick) :
    exec (.roceRdmaWrite q) s = .next s := by
  rw [exec_roceRdmaWrite_of_data h hturn hfits hnamed hdata, hwrite]

end

/-! ### RDMA READ Request -/

/-- What a READ Request draws before it is performed: one that has been answered before is performed again. -/
def State.readTurn (s : State) (k : Nat) (p : EPkt) : Option State :=
  if !psnGe p.psn (s.econn k).next && !(s.econn k).frozen then none else s.roceTurn k p

/-- A READ Request is passed, or counted where it has been answered before. -/
def State.readPassed (s : State) (k : Nat) (ce : Bool) (p : EPkt) : State :=
  if !psnGe p.psn (s.econn k).next then s.ecnt 3 else s.rocePass k ce true ((s.econn k).span p)

section
variable (h : s.fromTq q true [0x0C] = (u, some (k, ce, p)))
include h

/-- Comparisons of PSNs and the read of a region stay closed in this proof: the kernel would compute with them. -/
theorem exec_roceRdmaReadRequest : exec (.roceRdmaReadRequest q) s = match u.readTurn k p with
    | some v => .next v
    | none => match u.regionRead (u.econn k).fn p.rkey p.off p.len with
      | .inr bs => .next (((u.readPassed k ce p).roceResp k p.psn bs).drawn)
      | .inl .miss => .next (u.emit (.paging 256 k p.off))
      | .inl .waitTick => .next s
      | .inl _ => .next (u.roceRefuse k 2) := by
  change execRoceRdmaReadRequest q s = _
  obtain ⟨turn, hturn⟩ : ∃ turn, u.readTurn k p = turn := ⟨_, rfl⟩
  obtain ⟨passed, hpassed⟩ : ∃ passed, u.readPassed k ce p = passed := ⟨_, rfl⟩
  rw [hturn, hpassed]
  unfold State.readTurn at hturn
  unfold State.readPassed at hpassed
  unfold execRoceRdmaReadRequest
  obtain ⟨ge, hge⟩ : ∃ ge, psnGe = ge := ⟨_, rfl⟩
  obtain ⟨read, hread⟩ : ∃ read, State.regionRead = read := ⟨_, rfl⟩
  rw [hge] at hturn hpassed
  rw [hge, hread, h]
  dsimp only
  rewrite [hturn, hpassed]
  rfl

theorem exec_roceRdmaReadRequest_of_answered (hturn : u.readTurn k p = some v) :
    exec (.roceRdmaReadRequest q) s = .next v := by
  rw [exec_roceRdmaReadRequest h, hturn]

variable (hturn : u.readTurn k p = none)
include hturn

theorem exec_roceRdmaReadRequest_of_bytes (hread : u.regionRead (u.econn k).fn p.rkey p.off p.len = .inr bs) :
    exec (.roceRdmaReadRequest q) s = .next (((u.readPassed k ce p).roceResp k p.psn bs).drawn) := by
  rw [exec_roceRdmaReadRequest h, hturn, hread]

theorem exec_roceRdmaReadRequest_of_wait (hread : u.regionRead (u.econn k).fn p.rkey p.off p.len = .inl .waitTick) :
    exec (.roceRdmaReadRequest q) s = .next s := by
  rw [exec_roceRdmaReadRequest h, hturn, hread]

theorem exec_roceRdmaReadRequest_of_miss (hread : u.regionRead (u.econn k).fn p.rkey p.off p.len = .inl .miss) :
    exec (.roceRdmaReadRequest q) s = .next (u.emit (.paging 256 k p.off)) := by
  rw [exec_roceRdmaReadRequest h, hturn, hread]

theorem exec_roceRdmaReadRequest_of_refused (hread : u.regionRead (u.econn k).fn p.rkey p.off p.len = .inl (.refuse e)) :
    exec (.roceRdmaReadRequest q) s = .next (u.roceRefuse k 2) := by
  rw [exec_roceRdmaReadRequest h, hturn, hread]

end

/-! ### READ Response -/

section
variable (h : s.fromTq q true [0x0D, 0x0E, 0x0F, 0x10] = (u, some (k, ce, p)))
include h

theorem exec_roceReadResponse_of_none
    (ho : (u.econn k).ops.find? (fun o => o.kind == 5 && ((o.left.head?).map (fun x => x.1)) == some p.psn) = none) :
    exec (.roceReadResponse q) s = .next u := by
  change execRoceReadResponse q s = _
  simp only [execRoceReadResponse, h, ho]

variable {x : Nat × Nat × Nat} {rest : List (Nat × Nat × Nat)}
  (ho : (u.econn k).ops.find? (fun o => o.kind == 5 && ((o.left.head?).map (fun x => x.1)) == some p.psn) = some o)
  (hleft : o.left = x :: rest)
include ho hleft

theorem exec_roceReadResponse_of_other_length (hlen : x.2.2 ≠ p.data.length) : exec (.roceReadResponse q) s = .next u := by
  change execRoceReadResponse q s = _
  simp only [execRoceReadResponse, h, ho, hleft]
  exact if_pos hlen

theorem exec_roceReadResponse_of_bytes (hlen : x.2.2 = p.data.length) : exec (.roceReadResponse q) s =
    let v := match o.sink with
      | some d => u.storeSink d x.2.1 p.data
      | none => u
    .next ((v.eopStep k { o with left := rest }).roceAcked k p.psn) := by
  change execRoceReadResponse q s = _
  simp only [execRoceReadResponse, h, ho, hleft]
  exact if_neg (not_not_intro hlen)

end

/-! ### Acknowledge, CNP -/

/-- Requests are sent again, each READ from the first byte that is missing. -/
def State.requestsAgain (v : State) (k : Nat) (l : List EPkt) : State :=
  l.foldl (fun s q => if q.op = 0x0C then s.eread k q.psn else s.eagain k q) v

section
variable (h : s.fromTq q true [0x11] = (u, some (k, ce, p)))
include h

theorem exec_roceAcknowledge_of_ack (hsyn : p.aux / 2 ^ 24 < 0x20) : exec (.roceAcknowledge q) s = .next (u.roceAcked k p.psn) := by
  change execRoceAcknowledge q s = _
  simp only [execRoceAcknowledge, h]
  exact if_pos hsyn

variable {b : State} (hb : b = u.roceAcked k (psnPred p.psn))
include hb

theorem exec_roceAcknowledge_of_nak (hsyn : 0x20 ≤ p.aux / 2 ^ 24) : exec (.roceAcknowledge q) s =
    if p.aux / 2 ^ 24 < 0x40 then
      (if (b.econn k).fd 149 3 ≠ 7 ∧ (b.econn k).fd 149 3 < (b.econn k).rnr + 1 then .next (b.ectxFail k 9)
       else .next (b.setEconn k { b.econn k with rnr := (b.econn k).rnr + 1, rnrWait := true }))
    else if p.aux / 2 ^ 24 = 0x60 then .next (b.requestsAgain k (b.econn k).sent)
    else .next (b.ectxFail k 10) := by
  subst hb
  change execRoceAcknowledge q s = _
  rw [execRoceAcknowledge, h]
  exact if_neg (Nat.not_lt.mpr hsyn)

section
variable (hmin : 0x20 ≤ p.aux / 2 ^ 24) (hmax : p.aux / 2 ^ 24 < 0x40)
include hmin hmax

theorem exec_roceAcknowledge_of_rnr (htries : (b.econn k).fd 149 3 = 7 ∨ (b.econn k).rnr + 1 ≤ (b.econn k).fd 149 3) :
    exec (.roceAcknowledge q) s = .next (b.setEconn k { b.econn k with rnr := (b.econn k).rnr + 1, rnrWait := true }) := by
  rw [exec_roceAcknowledge_of_nak h hb hmin, if_pos hmax, if_neg (by omega)]

theorem exec_roceAcknowledge_of_rnr_limit (hseven : (b.econn k).fd 149 3 ≠ 7)
    (htries : (b.econn k).fd 149 3 < (b.econn k).rnr + 1) : exec (.roceAcknowledge q) s = .next (b.ectxFail k 9) := by
  rw [exec_roceAcknowledge_of_nak h hb hmin, if_pos hmax, if_pos ⟨hseven, htries⟩]

end

theorem exec_roceAcknowledge_of_sequence (hsyn : p.aux / 2 ^ 24 = 0x60) :
    exec (.roceAcknowledge q) s = .next (b.requestsAgain k (b.econn k).sent) := by
  rw [exec_roceAcknowledge_of_nak h hb (by omega), if_neg (by omega), if_pos hsyn]

theorem exec_roceAcknowledge_of_error (hsyn : 0x60 < p.aux / 2 ^ 24) : exec (.roceAcknowledge q) s = .next (b.ectxFail k 10) := by
  rw [exec_roceAcknowledge_of_nak h hb (by omega), if_neg (by omega), if_neg (by omega)]

end

theorem exec_roceCnp (h : s.fromTq q true [0x81] = (u, some (k, ce, p))) :
    exec (.roceCnp q) s = .next ((u.ceEcho k).ecnt 11) := by
  change execRoceCnp q s = _
  simp only [execRoceCnp, h]

end
end Sys2Proof.Machine
end

section

/-!
## Timers of Ethernet contexts

The RNR timer sends every open request again. The RTO sends the oldest packet again, or all of a queue pair's, until the limit.
-/

namespace Sys2Proof.Machine

section
variable {s : State} {k : Nat} {x : EPkt} {t : List EPkt}

/-! ### The RNR timer -/

theorem exec_roceRnrTimer_of_idle (h : (s.econn k).rnrWait = false) : exec (.roceRnrTimer k) s = .next s :=
  if_pos (by rw [h]; rfl)

theorem exec_roceRnrTimer_of_wait (h : (s.econn k).rnrWait = true) : exec (.roceRnrTimer k) s =
    let v := (s.setEconn k { s.econn k with rnrWait := false }).requestsAgain k (s.econn k).sent
    .next (v.ewindow k (v.econn k).wait.length) :=
  if_neg (by rw [h]; decide)

/-! ### The RTO -/

/-- The expiries without progress that fail a context; a queue pair tries at most seven times. -/
def State.ertoLimit (s : State) (k : Nat) : Nat :=
  if (s.econn k).roce then min 7 (s.rg Rg.eth_RETRY_LIMIT_E) else s.rg Rg.eth_RETRY_LIMIT_E

/-- An expiry is counted, and the next one takes twice as long, up to RTO_MAX_E. -/
def State.ertoCounted (s : State) (k : Nat) : State :=
  s.setEconn k { s.econn k with
    expiries := (s.econn k).expiries + 1, rto := min (1000 * s.rg Rg.eth_RTO_MAX_E) (2 * (s.econn k).rto), fast := [] }

/-- The pieces of READs whose responses have not come. -/
def EthConn.readsLeft (c : EthConn) : List (Nat × Nat × Nat) :=
  (c.ops.filter (fun o => o.kind == 5)).flatMap (fun o => o.left)

theorem exec_rtoExpireE_of_idle (h : (s.econn k).st ≠ 1 ∨ (s.econn k).pageWait ≠ none ∨ (s.econn k).rnrWait = true) :
    exec (.rtoExpireE k) s = .next s :=
  if_pos (h.imp_right fun h => h.imp_left Option.isSome_iff_ne_none.mpr)

section
variable (hopen : (s.econn k).st = 1) (hpage : (s.econn k).pageWait = none) (hrnr : (s.econn k).rnrWait = false)
include hopen hpage hrnr

theorem exec_rtoExpireE_of_running : exec (.rtoExpireE k) s = match (s.econn k).sent with
    | [] => (match (s.econn k).readsLeft with
      | [] => .next s
      | x :: _ =>
        if s.ertoLimit k ≤ (s.econn k).expiries + 1 then .next (s.ectxFail k 2) else .next ((s.ertoCounted k).eread k x.1))
    | p :: _ =>
      if s.ertoLimit k ≤ (s.econn k).expiries + 1 then .next (s.ectxFail k 2)
      else if (s.econn k).roce then .next ((s.ertoCounted k).requestsAgain k (s.econn k).sent)
      else .next ((s.ertoCounted k).eagain k p) :=
  if_neg (by simp [hopen, hpage, hrnr])

section
variable (hsent : (s.econn k).sent = x :: t)
include hsent

theorem exec_rtoExpireE_of_sent_limit (h : s.ertoLimit k ≤ (s.econn k).expiries + 1) :
    exec (.rtoExpireE k) s = .next (s.ectxFail k 2) := by
  rw [exec_rtoExpireE_of_running hopen hpage hrnr, hsent]
  exact if_pos h

variable (h : (s.econn k).expiries + 1 < s.ertoLimit k)
include h

theorem exec_rtoExpireE_of_sent_udp (hudp : (s.econn k).roce = false) :
    exec (.rtoExpireE k) s = .next ((s.ertoCounted k).eagain k x) := by
  rw [exec_rtoExpireE_of_running hopen hpage hrnr, hsent]
  exact (if_neg (Nat.not_le.mpr h)).trans (if_neg (ne_true_of_eq_false hudp))

theorem exec_rtoExpireE_of_sent_roce (hroce : (s.econn k).roce = true) :
    exec (.rtoExpireE k) s = .next ((s.ertoCounted k).requestsAgain k (s.econn k).sent) := by
  rw [exec_rtoExpireE_of_running hopen hpage hrnr, hsent]
  exact (if_neg (Nat.not_le.mpr h)).trans (if_pos hroce)

end

section
variable (hsent : (s.econn k).sent = [])
include hsent

theorem exec_rtoExpireE_of_nothing (hreads : (s.econn k).readsLeft = []) : exec (.rtoExpireE k) s = .next s := by
  rw [exec_rtoExpireE_of_running hopen hpage hrnr, hsent, hreads]

variable {y : Nat × Nat × Nat} {l : List (Nat × Nat × Nat)} (hreads : (s.econn k).readsLeft = y :: l)
include hreads

theorem exec_rtoExpireE_of_read_limit (h : s.ertoLimit k ≤ (s.econn k).expiries + 1) :
    exec (.rtoExpireE k) s = .next (s.ectxFail k 2) := by
  rw [exec_rtoExpireE_of_running hopen hpage hrnr, hsent, hreads]
  exact if_pos h

theorem exec_rtoExpireE_of_read (h : (s.econn k).expiries + 1 < s.ertoLimit k) :
    exec (.rtoExpireE k) s = .next ((s.ertoCounted k).eread k y.1) := by
  rw [exec_rtoExpireE_of_running hopen hpage hrnr, hsent, hreads]
  exact if_neg (Nat.not_le.mpr h)

end
end
end

theorem ethPackets : Clauses.EthPackets := by
  intro s u q k ce p hinv hk c none? got op? any? rd? tries retry again
  have hnone {roce : Bool} {ops : List Nat} {i : Instr} (hi : (roce, ops, i) ∈ takers q) : none? roce ops i :=
    exec_taker_of_none hi
  refine ⟨hnone (by simp [takers]), hnone (by simp [takers]), hnone (by simp [takers]), hnone (by simp [takers]),
    hnone (by simp [takers]), hnone (by simp [takers]), hnone (by simp [takers]), hnone (by simp [takers]),
    hnone (by simp [takers]), hnone (by simp [takers]), hnone (by simp [takers]), hnone (by simp [takers]),
    hnone (by simp [takers]), hnone (by simp [takers]),
    exec_request_of_some (by simp), exec_request_of_some (by simp), exec_request_of_some (by simp), exec_udpPageWait,
    fun h => ⟨exec_udpNackErr_of_none h, fun o => exec_udpNackErr_of_op h⟩, exec_udpPageRetry_of_first,
    fun h hmany => ⟨exec_udpPageRetry_of_none h hmany, fun o => exec_udpPageRetry_of_op h hmany⟩,
    fun o cause done hopen => ?ended,
    fun h => ⟨exec_udpReadResp_of_none h, fun o ho => ⟨exec_udpReadResp_of_error h ho, fun x => exec_udpReadResp_of_bytes h ho⟩⟩,
    fun h haux hsent hwait hwf => exec_udpAck_of_idle h haux hwait hwf hsent,
    fun x h haux hsent hwait hpsn hwf hops => exec_udpAck_of_last h haux hwait hwf hsent hpsn hops,
    fun h => ⟨fun v => exec_roceSend_of_answered h, exec_roceSend_of_stray h,
      fun hturn hplace v => exec_roceSend_of_posted h hturn hplace, exec_roceSend_of_unposted h⟩,
    fun h => ⟨fun v => exec_roceRdmaWrite_of_answered h, fun hturn => ⟨exec_roceRdmaWrite_of_misfit h hturn,
      exec_roceRdmaWrite_of_unnamed h hturn, exec_roceRdmaWrite_of_empty h hturn, fun hfits hnamed hdata =>
        ⟨fun v => exec_roceRdmaWrite_of_written h hturn hfits hnamed hdata,
          fun e => exec_roceRdmaWrite_of_refused h hturn hfits hnamed hdata,
          exec_roceRdmaWrite_of_miss h hturn hfits hnamed hdata, exec_roceRdmaWrite_of_wait h hturn hfits hnamed hdata⟩⟩⟩,
    fun h => ⟨fun v => exec_roceRdmaReadRequest_of_answered h, fun hturn =>
      ⟨fun bs => exec_roceRdmaReadRequest_of_bytes h hturn, exec_roceRdmaReadRequest_of_wait h hturn,
        exec_roceRdmaReadRequest_of_miss h hturn, fun e => exec_roceRdmaReadRequest_of_refused h hturn⟩⟩,
    fun h => ⟨exec_roceReadResponse_of_none h, fun o x rest ho hleft =>
      ⟨exec_roceReadResponse_of_other_length h ho hleft, exec_roceReadResponse_of_bytes h ho hleft⟩⟩,
    fun h => ⟨exec_roceAcknowledge_of_ack h, exec_roceAcknowledge_of_rnr h rfl, exec_roceAcknowledge_of_rnr_limit h rfl,
      exec_roceAcknowledge_of_sequence h rfl, exec_roceAcknowledge_of_error h rfl⟩,
    exec_roceCnp, exec_roceRnrTimer_of_idle, exec_roceRnrTimer_of_wait, exec_rtoExpireE_of_idle,
    fun hopen hpage hrnr => ⟨fun x t hsent => ⟨exec_rtoExpireE_of_sent_limit hopen hpage hrnr hsent,
        exec_rtoExpireE_of_sent_udp hopen hpage hrnr hsent, exec_rtoExpireE_of_sent_roce hopen hpage hrnr hsent⟩,
      fun hsent => ⟨exec_rtoExpireE_of_nothing hopen hpage hrnr hsent, fun x t hreads =>
        ⟨exec_rtoExpireE_of_read_limit hopen hpage hrnr hsent hreads, exec_rtoExpireE_of_read hopen hpage hrnr hsent hreads⟩⟩⟩⟩
  rw [State.ended_eopEndAt, EOp.ended_of_open hopen]

/-- Settles O38: contexts, requests and packets, the three parts above. -/
theorem ethernetConnections : Obligations.EthernetConnections := ⟨ethContexts, ethRequests, ethPackets⟩

end Sys2Proof.Machine
end

section

/-!
## The management ring

`TakesFront` says what a command of the ring does with the front request before it looks at the fields: nothing without
one or with one of another OP, and STATUS 1 where a byte outside the fields is set. An answer ends in a record of a type
that is never dropped, which leaves registers and memory as they are.
-/

namespace Sys2Proof.Machine

section
variable {s₀ s t : State} {op slot st : Nat} {i : Instr} {fields : List (Nat × Nat)} {q res : List Byte}

/-! ### The front request -/

theorem State.mrFront_eq_none (h : s.host.mrPending = 0 ∨ s.host.mrBusy = true ∨ s.hostServed = false) :
    s.mrFront = none :=
  if_pos h

theorem State.mrFront_eq_some (hwaits : s.host.mrPending ≠ 0) (hidle : s.host.mrBusy = false)
    (hserved : s.hostServed = true) :
    s.mrFront = some (s.rg Rg.host_MR_CI, s.readB (kMgmt (256 * s.rg Rg.host_MR_CI)) 192) :=
  if_neg (by simp [hwaits, hidle, hserved])

/-- What a command of the ring does without a front request of its OP, and with one that has a byte outside the fields. -/
structure TakesFront (s : State) (op : Nat) (i : Instr) (fields : List (Nat × Nat)) : Prop where
  none : s.mrFront = none → exec i s = .next s
  other : ∀ {slot q}, s.mrFront = some (slot, q) → fieldAt q 0 1 ≠ op → exec i s = .next s
  outside : ∀ {slot q}, s.mrFront = some (slot, q) → fieldAt q 0 1 = op → reqZero q fields = false →
    Answers i s s slot 1 []

theorem TakesFront.of_manage {f : State → List Byte → Nat × State × List Byte}
    (hexec : exec i s = .next (s.manage op fields f)) : TakesFront s op i fields where
  none h := by simp [hexec, State.manage, h]
  other h hop := by simp [hexec, State.manage, h, hop]
  outside h hop hzero := by simp [Answers, hexec, State.manage, h, hop, hzero]

theorem TakesFront.of_manageLong {f : Nat → List Byte → Nat ⊕ State}
    (hexec : exec i s = .next (s.manageLong op fields f)) : TakesFront s op i fields where
  none h := by simp [hexec, State.manageLong, h]
  other h hop := by simp [hexec, State.manageLong, h, hop]
  outside h hop hzero := by simp [Answers, hexec, State.manageLong, h, hop, hzero]

theorem TakesFront.liveUpdate (s : State) : TakesFront s 0x52 .liveUpdate [(8, 1)] := by
  have hexec : exec .liveUpdate s = execLiveUpdate s := rfl
  constructor
  · intro h
    simp [hexec, execLiveUpdate, h]
  · intro slot q h hop
    simp [hexec, execLiveUpdate, h, hop]
  · intro slot q h hop hzero
    simp [Answers, hexec, execLiveUpdate, h, hop, hzero]

/-- A command that stands in a list of such commands is one of them. -/
theorem TakesFront.of_mem {l : List (Nat × Instr × List (Nat × Nat))} (hmem : (op, i, fields) ∈ l)
    (hl : ∀ c ∈ l, TakesFront s c.1 c.2.1 c.2.2) : TakesFront s op i fields :=
  hl _ hmem

/-! ### Records that are never dropped -/

/-- A record has gone to a queue: registers, memory and the requests that wait are as they were. -/
structure Queued (s t : State) : Prop where
  regs : t.regs = s.regs
  mem : t.mem = s.mem
  pending : t.host.mrPending = s.host.mrPending

theorem Queued.refl : Queued s s := ⟨rfl, rfl, rfl⟩

theorem Queued.rg (h : Queued s t) (f : Fld) (j : Nat) : t.rg f j = s.rg f j := by
  simp only [State.rg, State.copyOf, h.regs]

theorem Queued.sendMsix (h : Queued s₀ s) (fn v : Nat) : Queued s₀ (s.sendMsix fn v) := by
  unfold State.sendMsix
  split
  · exact ⟨h.regs, h.mem, h.pending⟩
  · exact ⟨h.regs, h.mem, h.pending⟩

theorem Queued.eqs (h : Queued s₀ s) {m : Cells EvQueue} : Queued s₀ { s with host := { s.host with eqs := m } } :=
  ⟨h.regs, h.mem, h.pending⟩

/-- While the interface is up a write to host memory is only sent. -/
theorem Queued.hostWrite (hup : s.hostUp = true) {fn a : Nat} {bs : List Byte} : Queued s (s.hostWrite fn a bs) := by
  rw [State.hostWrite, if_pos hup]
  exact ⟨rfl, rfl, rfl⟩

theorem Queued.writeRec (hup : s.hostUp = true) (fn q : Nat) (r : Rec) : Queued s (s.writeRec fn q r) := by
  unfold State.writeRec
  split
  · exact .refl
  · split
    · exact .refl
    · dsimp only
      split
      · exact (Queued.hostWrite hup).eqs.sendMsix _ _
      · exact (Queued.hostWrite hup).eqs

theorem Queued.toQueue {r : Rec} (hup : s.hostUp = true) (hkept : recKept r.2.1 = true) (fn q : Nat) :
    Queued s (s.toQueue fn q r) := by
  unfold State.toQueue
  split
  · exact .refl
  · split
    · exact .writeRec hup _ _ _
    · rw [hkept, Bool.or_true, if_pos rfl]
      exact ⟨rfl, rfl, rfl⟩

theorem Queued.record {ty : Nat} (hkept : recKept ty = true) (fn q about pay : Nat) :
    Queued s (s.record fn q about ty pay) := by
  unfold State.record
  split
  case isTrue hup => exact .toQueue hup hkept _ _
  case isFalse => exact .refl

/-! ### Answers -/

/-- The bytes that an answer puts behind a request. -/
def State.mrBytes (s : State) (slot st : Nat) (res : List Byte) : List Byte :=
  let req := s.readN (kMgmt (256 * slot)) 4
  ((leBytes 1 req ++ leBytes 1 st ++ leBytes 2 (bits req 16 16) ++ leBytes 4 0 ++ res) ++ List.replicate 64 0).take 64

theorem State.length_mrBytes (s : State) (slot st : Nat) (res : List Byte) : (s.mrBytes slot st res).length = 64 := by
  simp only [State.mrBytes, List.length_take, List.length_append, List.length_replicate]
  omega

/-- An answer is its bytes in the slot and MR_CI behind it, and then a record. -/
theorem State.mrAnswer_queued (s : State) (slot st : Nat) (res : List Byte) :
    Queued (({ s.writeB (kMgmt (256 * slot + 192)) (s.mrBytes slot st res) with
      host := { s.host with mrPending := s.host.mrPending - 1 } } : State).setRg Rg.host_MR_CI 0 (slot + 1))
      (s.mrAnswer slot st res) :=
  .record rfl ..

theorem State.mrAnswer_mem (s : State) (slot st : Nat) (res : List Byte) :
    (s.mrAnswer slot st res).mem = s.mem.write (kMgmt (256 * slot + 192)) (s.mrBytes slot st res) := by
  rw [(s.mrAnswer_queued slot st res).mem, State.setRg_mem]
  rfl

theorem State.mrAnswer_pending (s : State) (slot st : Nat) (res : List Byte) :
    (s.mrAnswer slot st res).host.mrPending = s.host.mrPending - 1 := by
  rw [(s.mrAnswer_queued slot st res).pending, State.setRg_host]

theorem State.mrAnswer_ci (hinv : s.Inv) (slot st : Nat) (res : List Byte) :
    (s.mrAnswer slot st res).rg Rg.host_MR_CI = (slot + 1) % 256 := by
  rw [(s.mrAnswer_queued slot st res).rg]
  exact State.rg_setRg_self _ _ _ _ hinv.2

/-- STATUS is byte 1 of an answer. -/
theorem State.mrBytes_status (s : State) (slot st : Nat) (res : List Byte) :
    (s.mrBytes slot st res)[1]'(by simp [State.length_mrBytes]) = BitVec.ofNat 8 st := by
  simp [State.mrBytes, leBytes]

theorem State.mrAnswer_status (s : State) (slot st : Nat) (res : List Byte) :
    (s.mrAnswer slot st res).mem.byte (kMgmt (256 * slot + 193)) = BitVec.ofNat 8 st := by
  rw [s.mrAnswer_mem, ← s.mrBytes_status slot st res]
  exact Memory.byte_write_at _ (kMgmt (256 * slot + 192)) 1 _ _

theorem State.mrAnswer_byte_other (s : State) (slot st : Nat) (res : List Byte) {y : Nat}
    (hy : y < kMgmt (256 * slot + 192) ∨ kMgmt (256 * slot + 256) ≤ y) :
    (s.mrAnswer slot st res).mem.byte y = s.mem.byte y := by
  rw [s.mrAnswer_mem]
  refine Memory.byte_write_other _ _ _ _ ?_
  rw [s.length_mrBytes]
  unfold kMgmt at hy ⊢
  omega

/-- A read finds, from some byte of a write on, the bytes that were written there. -/
theorem Memory.read_write_drop (m : Memory) (k n : Nat) (bs : List Byte) {o : Nat} (h : o + n ≤ bs.length) :
    (m.write k bs).read (k + o) n = (bs.drop o).take n := by
  induction n generalizing o with
  | zero => simp [Memory.read]
  | succ n ih =>
    have ho : o < bs.length := by omega
    rw [Memory.read, Memory.byte_write_at m k o bs ho, Nat.add_assoc, ih (by omega), List.drop_eq_getElem_cons ho,
      List.take_succ_cons]

theorem State.mrAnswer_response (s : State) (slot st : Nat) {res : List Byte} (hres : res.length ≤ 56) :
    (s.mrAnswer slot st res).readB (kMgmt (256 * slot + 200)) res.length = res := by
  have hread := Memory.read_write_drop s.mem (kMgmt (256 * slot + 192)) res.length (s.mrBytes slot st res) (o := 8)
    (by rw [s.length_mrBytes]; omega)
  have hres : ((s.mrBytes slot st res).drop 8).take res.length = res := by
    simp [State.mrBytes, leBytes, List.take_take, hres]
  rw [hres] at hread
  rw [State.readB, s.mrAnswer_mem]
  exact hread

/-! ### MR_DB -/

theorem exec_mrDb_of_unserved (hserved : s.hostServed = false) (count : Nat) (ws : List (Nat × List Byte)) :
    exec (.mrDb count ws) s = .next s :=
  if_pos (by simp [hserved])

theorem exec_mrDb_of_served (hserved : s.hostServed = true) (count : Nat) (ws : List (Nat × List Byte)) :
    let u := ws.foldl (fun s w => s.bar4 w.1 w.2) s
    let n := (count + 256 - u.rg Rg.host_MR_CI) % 256
    exec (.mrDb count ws) s = .next (({ u with host := { u.host with mrPending := n } } : State).mrSkip n) :=
  if_neg (by simp [hserved])

end

/-- Settles O40: the front request, what every command of the ring does with it, answers, and MR_DB. -/
theorem managementRing : Obligations.ManagementRing := by
  intro s op i fields dma x bad ds slot st count q res ws hinv
  refine ⟨State.mrFront_eq_none, State.mrFront_eq_some, fun hmem => ?front,
    fun _ _ hres => ⟨State.mrAnswer_ci hinv slot st res, s.mrAnswer_pending slot st res, s.mrAnswer_status slot st res,
      s.mrAnswer_response slot st hres, fun _ => s.mrAnswer_byte_other slot st res⟩,
    fun h => exec_mrDb_of_unserved h count ws, fun h => exec_mrDb_of_served h count ws⟩
  have htakes : TakesFront s op i fields := by
    refine .of_mem hmem ?_
    simp only [List.forall_mem_cons]
    exact ⟨.of_manage rfl, .of_manage rfl, .of_manage rfl, .of_manage rfl, .of_manage rfl, .of_manage rfl, .of_manage rfl,
      .of_manage rfl, .of_manage rfl, .of_manage rfl, .of_manage rfl, .of_manage rfl, .of_manage rfl,
      .of_manageLong rfl, .of_manage rfl, .of_manage rfl, .of_manage rfl, .of_manage rfl, .of_manage rfl,
      .of_manage rfl, .of_manage rfl, .of_manage rfl, .of_manage rfl, .of_manage rfl, .of_manage rfl, .of_manage rfl,
      .of_manage rfl, .of_manage rfl, .of_manageLong rfl, .of_manage rfl, .of_manage rfl, .of_manage rfl,
      .of_manage rfl, .liveUpdate s, .of_manage rfl, .of_manage rfl, .of_manage rfl, nofun⟩
  exact ⟨htakes.none, htakes.other, htakes.outside⟩

end Sys2Proof.Machine
end

section

/-!
## The life of a plot

Each request on a plot has one lemma with its refusals and its effect. What a request says of the state of the plot
afterwards rests on one fact: PLOT_STATE reads as it was set, also after the rings have been shown again.
-/

namespace Sys2Proof.Machine

section
variable {s₀ s t : State} {p st n slot : Nat} {q dma : List Byte}

/-! ### PLOT_STATE -/

/-- The rings of a function have been shown: the states of the plots, memory and the host interface are as they were. -/
structure RingsShown (s t : State) : Prop where
  inv : s.Inv → t.Inv
  state : s.Inv → ∀ p < 128, t.plotState p = s.plotState p
  mem : t.mem = s.mem
  host : t.host = s.host

theorem RingsShown.refl : RingsShown s s := ⟨id, fun _ _ _ => rfl, rfl, rfl⟩

theorem RingsShown.trans (h : RingsShown s₀ s) (h' : RingsShown s t) : RingsShown s₀ t :=
  ⟨fun hinv => h'.inv (h.inv hinv), fun hinv p hp => (h'.state (h.inv hinv) p hp).trans (h.state hinv p hp),
    h'.mem.trans h.mem, h'.host.trans h.host⟩

theorem RingsShown.setRg {f : Fld} {i v : Nat} (h : RingsShown s₀ s) (hf : f.id ≠ Rg.host_PLOT_STATE.id) (hi : i < 2 ^ 20) :
    RingsShown s₀ (s.setRg f i v) :=
  h.trans ⟨State.Inv.setRg, fun hinv p hp =>
    State.rg_setRg_other s f Rg.host_PLOT_STATE i p v hinv.2 hi (by omega) (.inl hf.symm),
    State.setRg_mem .., State.setRg_host ..⟩

theorem RingsShown.setFn {f g : Fld} {fn r v : Nat} (h : RingsShown s₀ s) (hf : f.id ≠ Rg.host_PLOT_STATE.id)
    (hg : g.id ≠ Rg.host_PLOT_STATE.id) (hfn : fn < 128) (hr : r < 64) : RingsShown s₀ (s.setFn f g fn r 32 v) := by
  unfold State.setFn
  split
  · exact h.setRg hf (by omega)
  · exact h.setRg hg (by omega)

theorem RingsShown.showRing {fn r : Nat} (h : RingsShown s₀ s) (hfn : fn < 128) (hr : r < 64) :
    RingsShown s₀ (s.showRing fn r) :=
  (((h.setFn (by decide) (by decide) hfn hr).setFn (by decide) (by decide) hfn hr).setFn (by decide) (by decide) hfn
    hr).setFn (by decide) (by decide) hfn hr

theorem ringCount_le (fn : Nat) : ringCount fn ≤ 64 := by
  unfold ringCount
  split <;> decide

theorem RingsShown.showRings {fn : Nat} (h : RingsShown s₀ s) (hfn : fn < 128) : RingsShown s₀ (s.showRings fn) :=
  List.foldlRecOn _ _ h fun _ h _ hr => h.showRing hfn (Nat.lt_of_lt_of_le (List.mem_range.mp hr) (ringCount_le fn))

theorem State.plotState_setPlot (hinv : s.Inv) (hlo : 1 ≤ p) (hhi : p < 128) (hst : st < 8) :
    (s.setPlot p st).plotState p = st := by
  have hset : s.setPlot p st = (s.setRg Rg.host_PLOT_STATE p st).setRg Rg.plotStat_PLOT_STATE p st := if_neg (by omega)
  rw [State.plotState, hset, State.rg_setRg_other _ _ _ _ _ _ hinv.setRg.2 (by omega) (by omega) (.inl (by decide)),
    State.rg_setRg_self _ _ _ _ hinv.2]
  exact Nat.mod_eq_of_lt hst

/-- A plot's state is what it was set to, once its rings have been shown. -/
theorem State.plotState_setPlot_showRings (hinv : s.Inv) (hlo : 1 ≤ p) (hhi : p < 128) (hst : st < 8) :
    ((s.setPlot p st).showRings p).plotState p = st := by
  rw [(RingsShown.refl.showRings hhi).state (Keeps.refl.setPlot.inv hinv) p hhi, State.plotState_setPlot hinv hlo hhi hst]

theorem State.setPlot_mem (s : State) (p st : Nat) : (s.setPlot p st).mem = s.mem := by
  unfold State.setPlot
  split
  · rfl
  · simp only [State.setRg_mem]

theorem State.setPlot_host (s : State) (p st : Nat) : (s.setPlot p st).host = s.host := by
  unfold State.setPlot
  split
  · rfl
  · simp only [State.setRg_host]

/-! ### Quiesce -/

theorem State.manageLong_of_status {op : Nat} {fields : List (Nat × Nat)} {f : Nat → List Byte → Nat ⊕ State}
    (hask : Asked s op fields slot q) (hf : f slot q = .inl st) : s.manageLong op fields f = s.mrReply slot st [] := by
  obtain ⟨hfront, hop, hzero⟩ := hask
  simp [State.manageLong, hfront, hop, hzero, hf]

theorem State.manageLong_of_started {op : Nat} {fields : List (Nat × Nat)} {f : Nat → List Byte → Nat ⊕ State}
    (hask : Asked s op fields slot q) (hf : f slot q = .inr t) :
    s.manageLong op fields f = { t with host := { t.host with mrBusy := true } } := by
  obtain ⟨hfront, hop, hzero⟩ := hask
  simp [State.manageLong, hfront, hop, hzero, hf]

theorem plotQuiesce_answers (hask : Asked s 0x10 [(8, 1), (10, 2)] slot q)
    (hplot : 1 ≤ fieldAt q 8 1 ∧ fieldAt q 8 1 < 128) (hlo : fieldAt q 10 2 ≠ 0) (hhi : fieldAt q 10 2 ≤ 1000) :
    (s.plotState (fieldAt q 8 1) = 1 →
      exec .plotQuiesce s = .next (let t := s.startQuiesce (fieldAt q 8 1) { slot := some slot }
        { t with host := { t.host with mrBusy := true } })) ∧
    (s.plotState (fieldAt q 8 1) ≠ 1 → Answers .plotQuiesce s s slot 4 []) := by
  have hrange : ¬(!isPlot (fieldAt q 8 1) || fieldAt q 10 2 == 0 || decide (1000 < fieldAt q 10 2)) = true := by
    simp [isPlot_of_range hplot.1 hplot.2, hlo, hhi]
  constructor
  · intro hready
    exact congrArg Host.Outcome.next
      (State.manageLong_of_started hask ((if_neg hrange).trans (if_neg (not_not.mpr hready))))
  · intro hother
    exact congrArg Host.Outcome.next (State.manageLong_of_status hask ((if_neg hrange).trans (if_pos hother)))

theorem exec_quiesceTimeout_of_none (h : s.host.quiesce.get? p = none) : exec (.quiesceTimeout p) s = .next s := by
  change execQuiesceTimeout p s = _
  unfold execQuiesceTimeout
  rw [h]

theorem exec_quiesceTimeout_of_some {z : Quiesce} (h : s.host.quiesce.get? p = some z) :
    (z.timed = true → exec (.quiesceTimeout p) s = .next s) ∧
    (z.timed = false → exec (.quiesceTimeout p) s = .next (({ s with host := { s.host with
      quiesce := s.host.quiesce.put p { z with timed := true } } } : State).cutAll p)) := by
  change (_ → execQuiesceTimeout p s = _) ∧ (_ → execQuiesceTimeout p s = _)
  unfold execQuiesceTimeout
  rw [h]
  exact ⟨fun ht => if_pos ht, fun ht => if_neg (by simp [ht])⟩

/-! ### Freeze, resume and removal -/

/-- A range test that a request on a plot passes. -/
theorem not_isPlot_false (hplot : 1 ≤ p ∧ p < 128) : ¬(!isPlot p) = true := by simp [isPlot_of_range hplot.1 hplot.2]

theorem plotFreeze_answers (hinv : s.Inv) (hask : Asked s 0x11 [(8, 1)] slot q)
    (hplot : 1 ≤ fieldAt q 8 1 ∧ fieldAt q 8 1 < 128) :
    (s.plotState (fieldAt q 8 1) ≠ 3 → Answers .plotFreeze s s slot 4 []) ∧
    (s.plotState (fieldAt q 8 1) = 3 → ∃ t, Answers .plotFreeze s t slot 0 [] ∧ t.plotState (fieldAt q 8 1) = 4 ∧
      t.mem = s.mem ∧ t.host = s.host) := by
  constructor
  · intro hother
    exact .of_refuse rfl hask ((if_neg (not_isPlot_false hplot)).trans (if_pos hother))
  · intro hquiesced
    refine ⟨_, .of_effect rfl hask ((if_neg (not_isPlot_false hplot)).trans (if_neg (not_not.mpr hquiesced))),
      State.plotState_setPlot_showRings (Keeps.refl.update.inv hinv) hplot.1 hplot.2 (by decide), ?_, ?_⟩
    · rw [(RingsShown.refl.showRings hplot.2).mem, State.setPlot_mem]
    · rw [(RingsShown.refl.showRings hplot.2).host, State.setPlot_host]

/-- The frozen stream entries of a plot are open again. -/
def State.openStreams (s : State) (p : Nat) : State :=
  s.gate.streams.foldl (fun s (e : Nat × StreamEnt) =>
    if e.2.plot = p ∧ e.2.state = 2 then s.setEnt e.1 { e.2 with state := 1 } else s) s

theorem State.openStreams_mem (s : State) (p : Nat) : (s.openStreams p).mem = s.mem :=
  List.foldlRecOn (motive := fun t : State => t.mem = s.mem) _ _ rfl fun t h e _ => by
    split
    · exact (State.setRg_mem ..).trans h
    · exact h

theorem Keeps.openStreams (h : Keeps s₀ s) : Keeps s₀ (s.openStreams p) := h.foldl fun _ _ h => .ite h.setEnt h

theorem plotResume_answers (hinv : s.Inv) (hask : Asked s 0x14 [(8, 1)] slot q)
    (hplot : 1 ≤ fieldAt q 8 1 ∧ fieldAt q 8 1 < 128) :
    (s.plotState (fieldAt q 8 1) ≠ 3 ∧ s.plotState (fieldAt q 8 1) ≠ 4 → Answers .plotResume s s slot 4 []) ∧
    (s.plotState (fieldAt q 8 1) = 3 ∨ s.plotState (fieldAt q 8 1) = 4 → ∃ t, Answers .plotResume s t slot 0 [] ∧
      t.plotState (fieldAt q 8 1) = 1 ∧ t.mem = s.mem) := by
  constructor
  · intro hother
    exact .of_refuse rfl hask ((if_neg (not_isPlot_false hplot)).trans (if_pos hother))
  · intro hstopped
    refine ⟨_, .of_effect rfl hask ((if_neg (not_isPlot_false hplot)).trans (if_neg (by omega))),
      State.plotState_setPlot_showRings (Keeps.refl.openStreams.update.inv hinv) hplot.1 hplot.2 (by decide), ?_⟩
    rw [(RingsShown.refl.showRings hplot.2).mem, State.setPlot_mem]
    exact s.openStreams_mem _

theorem State.plotState_removePlot (hinv : s.Inv) (hlo : 1 ≤ p) (hhi : p < 128) : (s.removePlot p).plotState p = 0 :=
  State.plotState_setPlot_showRings ((Keeps.refl.discardDeliveries.closeConns.foldl fun _ _ h =>
    h.delRing).closeStreams.closeRegions.update.update.inv hinv) hlo hhi (by decide)

theorem plotRemove_answers (hinv : s.Inv) (hask : Asked s 0x15 [(8, 1)] slot q)
    (hplot : 1 ≤ fieldAt q 8 1 ∧ fieldAt q 8 1 < 128) :
    (s.plotState (fieldAt q 8 1) ≠ 3 ∧ s.plotState (fieldAt q 8 1) ≠ 4 → Answers .plotRemove s s slot 4 []) ∧
    (s.plotState (fieldAt q 8 1) = 3 ∨ s.plotState (fieldAt q 8 1) = 4 →
      Answers .plotRemove s (s.removePlot (fieldAt q 8 1)) slot 0 [] ∧
      (s.removePlot (fieldAt q 8 1)).plotState (fieldAt q 8 1) = 0) :=
  ⟨fun hother => .of_refuse rfl hask ((if_neg (not_isPlot_false hplot)).trans (if_pos hother)),
    fun hstopped => ⟨.of_effect rfl hask ((if_neg (not_isPlot_false hplot)).trans (if_neg (by omega))),
      State.plotState_removePlot hinv hplot.1 hplot.2⟩⟩

/-! ### Save -/

/-- The space that PLOT_SAVE and PLOT_RESTORE name: host memory, or a range of the data area. -/
theorem image_space_ok {room : Nat} (hplot : 1 ≤ fieldAt q 8 1 ∧ fieldAt q 8 1 < 128)
    (hspace : fieldAt q 9 1 = 0 ∨ (fieldAt q 9 1 = 3 ∧ fieldAt q 16 8 + room ≤ 0x3C0000)) :
    ¬(!isPlot (fieldAt q 8 1) || (fieldAt q 9 1 != 0 && fieldAt q 9 1 != 3) ||
      (fieldAt q 9 1 == 3 && decide (0x3C0000 < fieldAt q 16 8 + room))) = true := by
  rw [isPlot_of_range hplot.1 hplot.2]
  rcases hspace with hhost | ⟨harea, hroom⟩
  · simp [hhost]
  · simp [harea, hroom]

section
variable (hask : Asked s 0x12 [(8, 1), (9, 1), (16, 8), (24, 8)] slot q)
  (hplot : 1 ≤ fieldAt q 8 1 ∧ fieldAt q 8 1 < 128)
  (hspace : fieldAt q 9 1 = 0 ∨ (fieldAt q 9 1 = 3 ∧ fieldAt q 16 8 + fieldAt q 24 8 ≤ 0x3C0000))
include hask hplot hspace

theorem plotSave_of_other (hother : s.plotState (fieldAt q 8 1) ≠ 4) : Answers .plotSave s s slot 4 [] :=
  .of_refuse rfl hask ((if_neg (image_space_ok hplot hspace)).trans (if_pos hother))

theorem plotSave_of_no_room (hfrozen : s.plotState (fieldAt q 8 1) = 4)
    (hroom : fieldAt q 24 8 < (s.plotImage (fieldAt q 8 1)).length) : Answers .plotSave s s slot 6 [] :=
  .of_refuse rfl hask
    ((if_neg (image_space_ok hplot hspace)).trans ((if_neg (not_not.mpr hfrozen)).trans (if_pos hroom)))

theorem plotSave_of_room (hfrozen : s.plotState (fieldAt q 8 1) = 4)
    (hroom : (s.plotImage (fieldAt q 8 1)).length ≤ fieldAt q 24 8) :
    Answers .plotSave s
      (if fieldAt q 9 1 = 0 then
        ({ s with host := { s.host with saved := insertNat (fieldAt q 8 1) s.host.saved } } : State).hostWrite 0
          (fieldAt q 16 8) (s.plotImage (fieldAt q 8 1))
      else ({ s with host := { s.host with saved := insertNat (fieldAt q 8 1) s.host.saved } } : State).writeB
        (kMgmt (0x40000 + fieldAt q 16 8)) (s.plotImage (fieldAt q 8 1)))
      slot 0 (leBytes 8 (s.plotImage (fieldAt q 8 1)).length) :=
  .of_effect rfl hask ((if_neg (image_space_ok hplot hspace)).trans
    ((if_neg (not_not.mpr hfrozen)).trans (if_neg (Nat.not_lt.mpr hroom))))

end

/-! ### Restore -/

/-- The image that PLOT_RESTORE names. -/
def State.imageAsked (s : State) (q dma : List Byte) : List Byte :=
  if fieldAt q 9 1 = 0 then dma.take (fieldAt q 24 8) else s.readB (kMgmt (0x40000 + fieldAt q 16 8)) (fieldAt q 24 8)

/-- The sections of an image. -/
def imageBody (img : List Byte) : List (Nat × Nat × List Byte) :=
  imageParts (fieldAt img 32 2) ((img.drop 64).take (img.length - 96))

/-- An image is whole: its header is that of an image of its length, and its digest agrees. -/
def ImageWhole (img : List Byte) : Prop :=
  96 ≤ img.length ∧ fieldAt img 0 4 = 0x544F4C50 ∧ fieldAt img 4 2 = 1 ∧ fieldAt img 8 8 = img.length ∧
    sha3_256 (img.take (img.length - 32)) = img.drop (img.length - 32)

/-- The place in HBM that PLOT_RESTORE names for a grant. -/
def baseAsked (q : List Byte) (i : Nat) : Nat := if i < 8 then fieldAt q (32 + 8 * i) 8 else 0

/-- The objects of an image are absent, and its grants find their place. -/
def State.ImageFits (s : State) (q : List Byte) (ps : List (Nat × Nat × List Byte)) : Prop :=
  s.imageClash ps = false ∧ (∀ i, i < 8 → baseAsked q i % 2 ^ 21 = 0) ∧
    ∀ e ∈ partEntries ps 4 16, baseAsked q (fieldAt e 0 8) + fieldAt e 8 8 ≤ s.hbmBytes

theorem not_imageWhole_iff (img : List Byte) : ¬ImageWhole img ↔
    (img.length < 96 ∨ fieldAt img 0 4 ≠ 0x544F4C50 ∨ fieldAt img 4 2 ≠ 1 ∨ fieldAt img 8 8 ≠ img.length ∨
      sha3_256 (img.take (img.length - 32)) ≠ img.drop (img.length - 32)) := by
  simp only [ImageWhole, not_and_or, Nat.not_le, ne_eq]

/-- The bases of a request as PLOT_RESTORE lists them. -/
def basesAsked (q : List Byte) : List Nat := (List.range 8).map (fun i => fieldAt q (32 + 8 * i) 8)

theorem getD_basesAsked (q : List Byte) (i : Nat) : (basesAsked q).getD i 0 = baseAsked q i := by
  unfold basesAsked baseAsked
  split
  case isTrue hi => simp [List.getD_eq_getElem?_getD, hi]
  case isFalse hi => simp [List.getD_eq_getElem?_getD, Nat.not_lt.mp hi]

theorem any_basesAsked_eq_false_iff (q : List Byte) :
    ¬(basesAsked q).any (fun b => b % 2 ^ 21 != 0) = true ↔ ∀ i, i < 8 → baseAsked q i % 2 ^ 21 = 0 := by
  simp only [basesAsked, List.any_map, List.any_eq_true, List.mem_range, Function.comp, bne_iff_ne, not_exists, not_and,
    not_not]
  exact forall₂_congr fun i hi => by rw [baseAsked, if_pos hi]

theorem any_grants_eq_false_iff (q : List Byte) (es : List (List Byte)) (size : Nat) :
    ¬(es.map (fun e => ((basesAsked q).getD (fieldAt e 0 8) 0, fieldAt e 8 8))).any
      (fun g => decide (size < g.1 + g.2)) = true ↔
    ∀ e ∈ es, baseAsked q (fieldAt e 0 8) + fieldAt e 8 8 ≤ size := by
  simp only [List.any_map, List.any_eq_true, Function.comp, decide_eq_true_eq, getD_basesAsked, not_exists, not_and,
    Nat.not_lt]

theorem State.not_imageFits_iff (s : State) (q : List Byte) (ps : List (Nat × Nat × List Byte)) : ¬s.ImageFits q ps ↔
    (s.imageClash ps = true ∨ (basesAsked q).any (fun b => b % 2 ^ 21 != 0) = true ∨
      ((partEntries ps 4 16).map (fun e => ((basesAsked q).getD (fieldAt e 0 8) 0, fieldAt e 8 8))).any
        (fun g => decide (s.hbmBytes < g.1 + g.2)) = true) := by
  rw [State.ImageFits, ← any_basesAsked_eq_false_iff, ← any_grants_eq_false_iff, not_and_or, not_and_or, not_not, not_not,
    Bool.not_eq_false]

section
variable (hask : Asked s 0x13 [(8, 1), (9, 1), (16, 8), (24, 8), (32, 64)] slot q)
  (hplot : 1 ≤ fieldAt q 8 1 ∧ fieldAt q 8 1 < 128)
  (hspace : fieldAt q 9 1 = 0 ∨ (fieldAt q 9 1 = 3 ∧ fieldAt q 16 8 + fieldAt q 24 8 ≤ 0x3C0000))
include hask hplot hspace

theorem plotRestore_of_present (hpresent : s.plotState (fieldAt q 8 1) ≠ 0) :
    Answers (.plotRestore dma) s s slot 4 [] :=
  .of_refuse rfl hask ((if_neg (image_space_ok hplot hspace)).trans (if_pos hpresent))

variable (habsent : s.plotState (fieldAt q 8 1) = 0)
include habsent

theorem plotRestore_of_not_whole (hwhole : ¬ImageWhole (s.imageAsked q dma)) :
    Answers (.plotRestore dma) s s slot 5 [] :=
  .of_refuse rfl hask ((if_neg (image_space_ok hplot hspace)).trans ((if_neg (not_not.mpr habsent)).trans
    (if_pos ((not_imageWhole_iff _).mp hwhole))))

variable (hwhole : ImageWhole (s.imageAsked q dma))
include hwhole

theorem plotRestore_of_other_number (hother : fieldAt (s.imageAsked q dma) 6 1 ≠ fieldAt q 8 1) :
    Answers (.plotRestore dma) s s slot 2 [] :=
  .of_refuse rfl hask ((if_neg (image_space_ok hplot hspace)).trans ((if_neg (not_not.mpr habsent)).trans
    ((if_neg (mt (not_imageWhole_iff _).mpr (not_not.mpr hwhole))).trans (if_pos hother))))

variable (hnumber : fieldAt (s.imageAsked q dma) 6 1 = fieldAt q 8 1)
include hnumber

theorem plotRestore_of_not_fits (hfits : ¬s.ImageFits q (imageBody (s.imageAsked q dma))) :
    Answers (.plotRestore dma) s s slot 5 [] :=
  .of_refuse rfl hask ((if_neg (image_space_ok hplot hspace)).trans ((if_neg (not_not.mpr habsent)).trans
    ((if_neg (mt (not_imageWhole_iff _).mpr (not_not.mpr hwhole))).trans ((if_neg (not_not.mpr hnumber)).trans
      (if_pos ((s.not_imageFits_iff _ _).mp hfits))))))

theorem plotRestore_of_fits (hinv : s.Inv) (hfits : s.ImageFits q (imageBody (s.imageAsked q dma))) :
    ∃ t, Answers (.plotRestore dma) s t slot 0 [] ∧ t.plotState (fieldAt q 8 1) = 4 :=
  ⟨_, .of_effect rfl hask ((if_neg (image_space_ok hplot hspace)).trans ((if_neg (not_not.mpr habsent)).trans
    ((if_neg (mt (not_imageWhole_iff _).mpr (not_not.mpr hwhole))).trans ((if_neg (not_not.mpr hnumber)).trans
      (if_neg (mt (s.not_imageFits_iff _ _).mpr (not_not.mpr hfits))))))),
    State.plotState_setPlot_showRings (Keeps.refl.plotClear.restoreHost.restoreRest.update.inv hinv) hplot.1 hplot.2
      (by decide)⟩

end

/-! ### Mailboxes -/

/-- The commands that ring a mailbox do nothing for a plot that is not there, or an interface that is not served. -/
theorem mailbox_guard : (!s.hostServed || !isPlot p || s.plotState p == 0) = true ↔
    ¬(s.hostServed = true ∧ 1 ≤ p ∧ p < 128 ∧ s.plotState p ≠ 0) := by
  rw [← not_iff_not, not_not]
  simp [isPlot, and_assoc, Nat.one_le_iff_ne_zero]

theorem State.rg_incRg_self (hinv : s.Inv) (f : Fld) (i d : Nat) : (s.incRg f i d).rg f i = (s.rg f i + d) % 2 ^ f.w :=
  State.rg_setRg_self s f i _ hinv.2

theorem mailbox_answers (hinv : s.Inv) :
    let on : Prop := s.hostServed = true ∧ 1 ≤ p ∧ p < 128 ∧ s.plotState p ≠ 0
    (¬on → exec (.mbDb p) s = .next s ∧ exec (.mbReplyDb p) s = .next s) ∧
    (on → ∃ t, exec (.mbDb p) s = .next t ∧
      t.rg Rg.plotStat_MB_REQ_COUNT p = (s.rg Rg.plotStat_MB_REQ_COUNT p + 1) % 2 ^ 16) ∧
    (on → ∃ t, exec (.mbReplyDb p) s = .next t ∧
      t.rg Rg.plotStat_MB_REPLY_COUNT p = (s.rg Rg.plotStat_MB_REPLY_COUNT p + 1) % 2 ^ 16) := by
  refine ⟨fun hoff => ⟨if_pos (mailbox_guard.mpr hoff), if_pos (mailbox_guard.mpr hoff)⟩,
    fun hon => ⟨_, if_neg (mt mailbox_guard.mp (not_not.mpr hon)), ?_⟩,
    fun hon => ⟨_, if_neg (mt mailbox_guard.mp (not_not.mpr hon)), ?_⟩⟩
  · exact ((Queued.record rfl ..).rg ..).trans (State.rg_incRg_self hinv ..)
  · exact ((Queued.record rfl ..).rg ..).trans (State.rg_incRg_self hinv ..)

/-! ### Function-level resets -/

theorem State.flrPlot_of_absent (h : s.plotState p = 0 ∨ p = 0 ∨ 128 ≤ p) : s.flrPlot p = s := by
  refine if_pos ?_
  simp only [isPlot, Bool.or_eq_true, Bool.not_eq_true', beq_iff_eq, Bool.and_eq_false_iff, decide_eq_false_iff_not]
  omega

theorem State.flrPlot_of_present (hlo : 1 ≤ p) (hhi : p < 128) (hst : s.plotState p ≠ 0) : s.flrPlot p =
    if s.plotState p = 1 then (s.overtake p).startQuiesce p { flr := true }
    else if s.plotState p = 2 then
      let t := s.overtake p
      { t with host := { t.host with
        quiesce := t.host.quiesce.put p { t.host.quiesce.getD {} p with flr := true, slot := none, old := 2 } } }
    else (((s.overtake p).removePlot p).maskAll p).plotEvent p (s.plotState p) 0 { flr := true } :=
  if_neg (by simp [isPlot_of_range hlo hhi, hst])

theorem exec_flrPlot_of_up (hup : s.hostUp = true) : exec (.flrPlot p) s = .next (s.flrPlot p) := if_pos hup

theorem exec_flrPlot_answers (hup : s.hostUp = true) :
    (s.plotState p = 0 ∨ p = 0 ∨ 128 ≤ p → exec (.flrPlot p) s = .next s) ∧
    (1 ≤ p → p < 128 → s.plotState p = 2 → exec (.flrPlot p) s = .next (let t := s.overtake p
      { t with host := { t.host with
        quiesce := t.host.quiesce.put p { t.host.quiesce.getD {} p with flr := true, slot := none, old := 2 } } })) ∧
    (1 ≤ p → p < 128 → s.plotState p = 1 →
      exec (.flrPlot p) s = .next ((s.overtake p).startQuiesce p { flr := true })) ∧
    (1 ≤ p → p < 128 → 3 ≤ s.plotState p → exec (.flrPlot p) s =
      .next ((((s.overtake p).removePlot p).maskAll p).plotEvent p (s.plotState p) 0 { flr := true })) := by
  rw [exec_flrPlot_of_up hup]
  refine ⟨fun h => by rw [State.flrPlot_of_absent h], fun hlo hhi hst => ?_, fun hlo hhi hst => ?_, fun hlo hhi hst => ?_⟩
  · rw [State.flrPlot_of_present hlo hhi (by omega), if_neg (by omega), if_pos hst]
  · rw [State.flrPlot_of_present hlo hhi (by omega), if_pos hst]
  · rw [State.flrPlot_of_present hlo hhi (by omega), if_neg (by omega), if_neg (by omega)]

/-! ### Virtual functions and configuration headers -/

theorem State.srIov_totalVfs_of_fused (h : s.rg Rg.system_FUSE_HOLD = 0) :
    s.srIov.totalVfs = 127 ∧ s.srIov.initialVfs = 127 := by
  simp [State.srIov, State.flag, h]

theorem State.srIov_totalVfs_of_held (h : s.rg Rg.system_FUSE_HOLD ≠ 0) : s.srIov.totalVfs = 0 := by
  simp [State.srIov, State.flag, h]

/-- In fuse-hold none may enumerate, so that a write changes nothing. -/
theorem vfEnable_answers (hup : s.hostUp = true) :
    (s.host.linkUp = true → s.rg Rg.system_FUSE_HOLD = 0 → n ≤ 127 → s.host.numVfs ≤ n →
      exec (.vfEnable n) s = .next { s with host := { s.host with numVfs := n } }) ∧
    (s.host.linkUp = false ∨ s.rg Rg.system_FUSE_HOLD ≠ 0 ∨ 127 < n ∨ n < s.host.numVfs →
      exec (.vfEnable n) s = .next s) := by
  constructor
  · intro hlink hfused hn hmore
    exact if_pos ⟨hup, hlink, by rw [(State.srIov_totalVfs_of_fused hfused).1]; exact hn, hmore⟩
  · intro hoff
    refine ite_eq_right_iff.mpr ?_
    rintro ⟨-, hlink, hn, hmore⟩
    have hsame : n = s.host.numVfs := by
      by_cases hfused : s.rg Rg.system_FUSE_HOLD = 0
      · rw [(State.srIov_totalVfs_of_fused hfused).1] at hn
        simp only [hlink, hfused, Bool.true_eq_false, ne_eq, not_true, false_or] at hoff
        omega
      · rw [State.srIov_totalVfs_of_held hfused] at hn
        omega
    subst hsame
    rfl

theorem vfDisable_answers (hup : s.hostUp = true) :
    (s.host.numVfs ≤ n → exec (.vfDisable n) s = .next s) ∧
    (n < s.host.numVfs → exec (.vfDisable n) s =
      .next (let t := (List.range (s.host.numVfs - n)).foldl (fun s i => s.flrPlot (n + 1 + i)) s
        { t with host := { t.host with numVfs := n } })) :=
  ⟨fun h => if_pos (.inr h), fun h => if_neg (by simp [hup, h])⟩

theorem pciHeader_answers (s : State) (vf : Bool) :
    let h := s.pciHeader vf
    h.vendor = 0x1F7E ∧ h.device = (if vf then 0x5291 else 0x5290) ∧ h.revision = s.rg Rg.identity_STEPPING ∧
    (s.rg Rg.system_FUSE_HOLD = 0 → h.classCode = 0x120000 ∧ s.srIov.totalVfs = 127 ∧ s.srIov.initialVfs = 127) ∧
    (s.rg Rg.system_FUSE_HOLD ≠ 0 →
      h.classCode = 0xFF0000 ∧ h.subVendor = 0 ∧ h.subsystem = 0 ∧ s.srIov.totalVfs = 0) := by
  refine ⟨rfl, rfl, rfl, fun hfused => ⟨?_, State.srIov_totalVfs_of_fused hfused⟩, fun hheld =>
    ⟨?_, ?_, ?_, State.srIov_totalVfs_of_held hheld⟩⟩
  · simp [State.pciHeader, State.flag, hfused]
  · simp [State.pciHeader, State.flag, hheld]
  · simp [State.pciHeader, State.flag, hheld, bits]
  · simp [State.pciHeader, State.flag, hheld, bits]

end

/-- Settles O42: requests on plots, mailboxes, resets of functions, and what the functions show. -/
theorem plotLifecycle : Obligations.PlotLifecycle := by
  intro s slot p n q dma vf hinv f plot st x
  refine ⟨plotQuiesce_answers, exec_quiesceTimeout_of_none, fun z => exec_quiesceTimeout_of_some, plotFreeze_answers hinv,
    fun hask hplot hfrozen hspace hroom => ?saveHost, fun hask hplot harea hfits => ?saveArea,
    fun hask hplot hspace => ⟨plotRestore_of_present hask hplot hspace, fun habsent =>
      ⟨plotRestore_of_not_whole hask hplot hspace habsent, plotRestore_of_other_number hask hplot hspace habsent,
        plotRestore_of_not_fits hask hplot hspace habsent,
        fun hwhole hnumber => plotRestore_of_fits hask hplot hspace habsent hwhole hnumber hinv⟩⟩,
    plotResume_answers hinv, plotRemove_answers hinv, mailbox_answers hinv,
    fun hdown => ?down, fun hup => ?up, pciHeader_answers s vf⟩
  case saveHost =>
    have h := plotSave_of_room hask hplot (.inl hspace) hfrozen hroom
    rwa [if_pos hspace] at h
  case saveArea =>
    have hspace : f 9 1 = 0 ∨ (f 9 1 = 3 ∧ f 16 8 + f 24 8 ≤ 0x3C0000) := .inr ⟨harea, hfits⟩
    refine ⟨plotSave_of_other hask hplot hspace, plotSave_of_no_room hask hplot hspace, fun hfrozen hroom => ?_⟩
    have h := plotSave_of_room hask hplot hspace hfrozen hroom
    rwa [if_neg (harea.trans_ne (by decide))] at h
  case down =>
    have hnot : ¬s.hostUp = true := by simp [hdown]
    exact ⟨if_neg hnot, if_neg hnot, if_neg fun h => hnot h.1, if_pos (.inl hdown)⟩
  case up =>
    obtain ⟨habsent, hquiescing, hready, hstopped⟩ := exec_flrPlot_answers (p := p) hup
    obtain ⟨hraise, hkeep⟩ := vfEnable_answers (n := n) hup
    obtain ⟨hnone, hlower⟩ := vfDisable_answers (n := n) hup
    exact ⟨habsent, hquiescing, hready, hstopped, if_pos hup, hraise, hkeep, hnone, hlower⟩

end Sys2Proof.Machine
end

section

/-!
## Doorbells, descriptors and export deliveries

A command on a ring that does not exist does nothing. One that starts a descriptor goes through `beginDesc`, which has a
lemma for each way in which it can end; the command's own tests then have a lemma for each outcome.
-/

namespace Sys2Proof.Machine

section
variable {s t : State} {fn r n v : Nat} {g : Ring} {e : EvQueue} {i : Instr}

/-! ### Ring doorbells and their samples -/

theorem exec_ringDoorbell_of_none (h : s.ring fn r = none) : exec (.ringDoorbell fn r v) s = .next s := by
  change execRingDoorbell fn r v s = _
  unfold execRingDoorbell
  rw [h]

theorem exec_doorbellSample_of_none (h : s.ring fn r = none) : exec (.doorbellSample fn r) s = .next s := by
  change execDoorbellSample fn r s = _
  unfold execDoorbellSample
  rw [h]

theorem exec_descriptorFetch_of_none (h : s.ring fn r = none) (ds : Option (List (List Byte))) :
    exec (.descriptorFetch fn r ds) s = .next s := by
  change execDescriptorFetch fn r ds s = _
  unfold execDescriptorFetch
  rw [h]

section
variable (hring : s.ring fn r = some g)
include hring

theorem exec_ringDoorbell_of_some : exec (.ringDoorbell fn r v) s =
    if s.rings? fn = true ∧ g.err = 0 then .next (s.setRing fn r { g with bell := some (v % 2 ^ 16) }) else .next s := by
  change execRingDoorbell fn r v s = _
  unfold execRingDoorbell
  rw [hring]

theorem exec_doorbellSample_of_idle (h : g.bell = none ∨ s.fnReady fn = false ∨ g.err ≠ 0) :
    exec (.doorbellSample fn r) s = .next s := by
  change execDoorbellSample fn r s = _
  unfold execDoorbellSample
  rw [hring]
  cases hbell : g.bell with
  | none => simp [hbell]
  | some pi =>
    have hrest : s.fnReady fn = false ∨ g.err ≠ 0 := by simpa [hbell] using h
    simp only [hbell]
    exact if_pos (by simpa using hrest)

theorem exec_doorbellSample_of_bell {pi : Nat} (hbell : g.bell = some pi) (hready : s.fnReady fn = true)
    (herr : g.err = 0) :
    let u : State := s.setRing fn r { g with bell := none }
    exec (.doorbellSample fn r) s =
      if idxDiff pi g.f < 0 then .next (u.satRg Rg.host_DB_STALE 0 1)
      else if idxDiff pi g.f = 0 then .next u
      else if 2 ^ g.log2 < (pi + 2 ^ 16 - g.u) % 2 ^ 16 then .next (u.ringError fn r 1 pi)
      else .next (u.setRing fn r { g with bell := none, p := pi }) := by
  change execDoorbellSample fn r s = _
  unfold execDoorbellSample
  rw [hring]
  simp only [hbell]
  exact if_neg (by simp [hready, herr])

end

/-! ### Fetching -/

/-- A ring fetches: its function is in service, it is not in error, descriptors wait, and its event queue has room. -/
def State.Fetches (s : State) (fn : Nat) (g : Ring) : Prop :=
  s.fnReady fn = true ∧ g.err = 0 ∧ min 16 ((g.p + 2 ^ 16 - g.f) % 2 ^ 16) ≠ 0 ∧
    ∃ q, s.host.eqs.get? (fnKey fn g.eq) = some q ∧ q.hold.length < 64

/-- The event queue of a ring can hold no further record, or is not there. -/
def State.queueFull (s : State) (fn q : Nat) : Bool :=
  match s.host.eqs.get? (fnKey fn q) with
  | some e => decide (64 ≤ e.hold.length)
  | none => true

theorem State.queueFull_eq_false_iff (s : State) (fn q : Nat) :
    s.queueFull fn q = false ↔ ∃ e, s.host.eqs.get? (fnKey fn q) = some e ∧ e.hold.length < 64 := by
  unfold State.queueFull
  cases s.host.eqs.get? (fnKey fn q) with
  | none => simp
  | some e => simp

theorem State.fetch_guard : (!s.fnReady fn || g.err != 0 || s.queueFull fn g.eq
    || min 16 ((g.p + 2 ^ 16 - g.f) % 2 ^ 16) == 0) = true ↔ ¬s.Fetches fn g := by
  rw [← not_iff_not, not_not, State.Fetches, ← s.queueFull_eq_false_iff]
  simp only [Bool.or_eq_true, Bool.not_eq_true', bne_iff_ne, beq_iff_eq, not_or, Bool.not_eq_false, Bool.not_eq_true,
    ne_eq, not_not, and_assoc]
  exact and_congr_right' (and_congr_right' And.comm)

theorem exec_descriptorFetch_of_not (hring : s.ring fn r = some g) (h : ¬s.Fetches fn g)
    (ds : Option (List (List Byte))) : exec (.descriptorFetch fn r ds) s = .next s := by
  change execDescriptorFetch fn r ds s = _
  unfold execDescriptorFetch
  rw [hring]
  exact if_pos (State.fetch_guard.mpr h)

/-- Descriptors that the host holds whole are taken as they are. -/
theorem fetched_eq_self {l : List (List Byte)} (hlen : l.length = n) (hwhole : ∀ b ∈ l, b.length = 64) :
    (l.take n).map (fun b => (b ++ List.replicate 64 0).take 64) = l := by
  rw [List.take_of_length_le hlen.le]
  refine (List.map_congr_left fun b hb => ?_).trans (List.map_id l)
  rw [← hwhole b hb]
  exact List.take_left ..

theorem exec_descriptorFetch_of_fetches (hring : s.ring fn r = some g) (h : s.Fetches fn g) :
    let n := min 16 ((g.p + 2 ^ 16 - g.f) % 2 ^ 16)
    exec (.descriptorFetch fn r none) s = .next (s.ringError fn r 2 g.p) ∧
      ∀ l, l.length = n → (∀ b ∈ l, b.length = 64) → exec (.descriptorFetch fn r (some l)) s = .next (s.setRing fn r { g with
        f := (g.f + n) % 2 ^ 16,
        descs := g.descs ++ l.mapIdx (fun i b => ({ idx := (g.f + i) % 2 ^ 16, bytes := b } : Desc)) }) := by
  intro n
  have hguard := mt State.fetch_guard.mp (not_not.mpr h)
  constructor
  · change execDescriptorFetch fn r none s = _
    unfold execDescriptorFetch
    rw [hring]
    exact if_neg hguard
  · intro l hlen hwhole
    change execDescriptorFetch fn r (some l) s = _
    unfold execDescriptorFetch
    rw [hring]
    refine (if_neg hguard).trans ?_
    dsimp only
    rw [fetched_eq_self hlen hwhole, hlen]

/-! ### Event queues -/

theorem exec_eqDoorbell_of_none (h : s.host.eqs.get? (fnKey fn r) = none) : exec (.eqDoorbell fn r v) s = .next s := by
  change execEqDoorbell fn r v s = _
  unfold execEqDoorbell
  rw [h]

theorem exec_msixModTimer_of_none (h : s.host.eqs.get? (fnKey fn r) = none) : exec (.msixModTimer fn r) s = .next s := by
  change execMsixModTimer fn r s = _
  unfold execMsixModTimer
  rw [h]

section
variable (hqueue : s.host.eqs.get? (fnKey fn r) = some e)
include hqueue

theorem exec_eqDoorbell_of_some : exec (.eqDoorbell fn r v) s =
    if s.rings? fn = true ∧ 0 < idxDiff (v % 2 ^ 16) e.ci then
      .next ((({ s with host := { s.host with eqs := s.host.eqs.put (fnKey fn r) { e with ci := v % 2 ^ 16 } } } :
        State).setFn Rg.host_EQ_CI Rg.plotStat_EQ_CI fn r 4 (v % 2 ^ 16)).drainQueue fn r e.hold.length)
    else .next s := by
  change execEqDoorbell fn r v s = _
  unfold execEqDoorbell
  rw [hqueue]

theorem exec_msixModTimer_of_some : exec (.msixModTimer fn r) s =
    if e.since = 0 ∨ e.modTime = 0 ∨ s.hostUp = false then .next s
    else .next (({ s with host := { s.host with eqs := s.host.eqs.put (fnKey fn r) { e with since := 0 } } } :
      State).sendMsix fn e.vector) := by
  change execMsixModTimer fn r s = _
  unfold execMsixModTimer
  rw [hqueue]

end

/-! ### Starting a descriptor -/

section
variable {kind op : Nat} {ops : List Nat} {d : Desc}

theorem State.beginDesc_of_ring_none (h : s.ring fn r = none) : s.beginDesc fn r kind op ops = .inl s := by
  unfold State.beginDesc
  rw [h]

theorem State.beginDesc_of_idle (hring : s.ring fn r = some g)
    (h : g.nextDesc = none ∨ g.kind ≠ kind ∨ s.hostUp = false) : s.beginDesc fn r kind op ops = .inl s := by
  unfold State.beginDesc
  rw [hring]
  cases hnext : g.nextDesc with
  | none => simp [hnext]
  | some d =>
    simp only [hnext]
    exact if_pos (h.resolve_left (by simp [hnext]))

section
variable (hring : s.ring fn r = some g) (hnext : g.nextDesc = some d) (hkind : g.kind = kind) (hup : s.hostUp = true)
include hring hnext hkind hup

theorem State.beginDesc_of_next : s.beginDesc fn r kind op ops =
    if (!ops.contains (fieldAt d.bytes 0 1)) = true then .inl (s.endDesc fn r d.idx 2 14 0)
    else if fieldAt d.bytes 0 1 ≠ op then .inl s
    else .inr (s.started fn r g d, g.setDesc { d with started := true }, { d with started := true }) := by
  unfold State.beginDesc
  rw [hring]
  simp only [hnext]
  exact if_neg (by simp [hkind, hup])

theorem State.beginDesc_of_unknown (hop : fieldAt d.bytes 0 1 ∉ ops) :
    s.beginDesc fn r kind op ops = .inl (s.endDesc fn r d.idx 2 14 0) := by
  rw [State.beginDesc_of_next hring hnext hkind hup, if_pos (by simp [hop])]

theorem State.beginDesc_of_other (hop : fieldAt d.bytes 0 1 ∈ ops) (hother : fieldAt d.bytes 0 1 ≠ op) :
    s.beginDesc fn r kind op ops = .inl s := by
  rw [State.beginDesc_of_next hring hnext hkind hup, if_neg (by simp [hop]), if_pos hother]

end

theorem State.beginDesc_of_begins (h : Begins s fn r kind op g d) (hops : op ∈ ops) : s.beginDesc fn r kind op ops =
    .inr (s.started fn r g d, g.setDesc { d with started := true }, { d with started := true }) := by
  obtain ⟨hring, hnext, hkind, hup, hop⟩ := h
  rw [State.beginDesc_of_next hring hnext hkind hup, if_neg (by simp [hop, hops]), if_neg (by simp [hop])]

/-- A command that starts descriptors ends as their start does where none begins under its OP. -/
def EndsAsBegun (s : State) (fn r kind op : Nat) (ops : List Nat) (i : Instr) : Prop :=
  ∀ t, s.beginDesc fn r kind op ops = .inl t → exec i s = .next t

theorem EndsAsBegun.of_ring_none (h : EndsAsBegun s fn r kind op ops i) (hnone : s.ring fn r = none) :
    exec i s = .next s :=
  h _ (State.beginDesc_of_ring_none hnone)

/-- What such a command does on a ring that has no descriptor of its OP to start. -/
theorem EndsAsBegun.of_ring (h : EndsAsBegun s fn r kind op ops i) (hring : s.ring fn r = some g) :
    (g.nextDesc = none ∨ g.kind ≠ kind ∨ s.hostUp = false → exec i s = .next s) ∧
    (g.nextDesc = some d → g.kind = kind → s.hostUp = true → fieldAt d.bytes 0 1 ∉ ops →
      exec i s = .next (s.endDesc fn r d.idx 2 14 0)) ∧
    (g.nextDesc = some d → g.kind = kind → s.hostUp = true → fieldAt d.bytes 0 1 ∈ ops → fieldAt d.bytes 0 1 ≠ op →
      exec i s = .next s) :=
  ⟨fun hidle => h _ (State.beginDesc_of_idle hring hidle),
    fun hnext hkind hup hop => h _ (State.beginDesc_of_unknown hring hnext hkind hup hop),
    fun hnext hkind hup hop hother => h _ (State.beginDesc_of_other hring hnext hkind hup hop hother)⟩

end

/-! ### Frames and buffers -/

section
variable {d : Desc} {dma bs : List Byte}

theorem endsAsBegun_sendFrame : EndsAsBegun s fn r 0 0x01 [0x01] (.sendFrame fn r dma) := by
  intro t h
  change execSendFrame fn r dma s = _
  unfold execSendFrame
  rw [h]

theorem endsAsBegun_postBuf : EndsAsBegun s fn r 1 0x02 [0x02] (.postBuf fn r) := by
  intro t h
  change execPostBuf fn r s = _
  unfold execPostBuf
  rw [h]

/-- The fields of a descriptor of a frame or a buffer keep the rules: its length lies between the bounds. -/
def SpanOk (b : List Byte) (lo hi : Nat) : Prop :=
  zeroBytes b [(8, 1), (16, 8), (24, 4)] = true ∧ fieldAt b 8 1 ≤ 3 ∧ lo ≤ fieldAt b 24 4 ∧ fieldAt b 24 4 ≤ hi

theorem not_spanOk_iff (b : List Byte) (lo hi : Nat) : ¬SpanOk b lo hi ↔
    (!zeroBytes b [(8, 1), (16, 8), (24, 4)] || decide (3 < fieldAt b 8 1) || decide (fieldAt b 24 4 < lo)
      || decide (hi < fieldAt b 24 4)) = true := by
  simp only [SpanOk, not_and_or, Bool.not_eq_true, Nat.not_le, Bool.or_eq_true, Bool.not_eq_true', decide_eq_true_eq,
    or_assoc]

section
variable (hb : Begins s fn r 0 1 g d)
include hb

theorem exec_sendFrame_of_misfit (h : ¬SpanOk d.bytes 60 ((s.started fn r g d).rg Rg.sieve_MAX_FRAME - 4)) :
    exec (.sendFrame fn r dma) s = .next ((s.started fn r g d).endDesc fn r d.idx 2 14 0) := by
  change execSendFrame fn r dma s = _
  unfold execSendFrame
  rw [State.beginDesc_of_begins hb (by decide)]
  exact if_pos ((not_spanOk_iff ..).mp h)

variable (hok : SpanOk d.bytes 60 ((s.started fn r g d).rg Rg.sieve_MAX_FRAME - 4))
include hok

theorem exec_sendFrame_of_read
    (h : (s.started fn r g d).localRead fn (fieldAt d.bytes 8 1) (fieldAt d.bytes 16 8) (fieldAt d.bytes 24 4) dma = some bs) :
    exec (.sendFrame fn r dma) s = .next ((s.started fn r g d).toEgress
      { key := 128 * g.port + g.queue, bytes := bs, src := 3, desc := some (fn, r, d.idx) }) := by
  change execSendFrame fn r dma s = _
  unfold execSendFrame
  rw [State.beginDesc_of_begins hb (by decide)]
  exact (if_neg (mt (not_spanOk_iff ..).mpr (not_not.mpr hok))).trans (by rw [h]; rfl)

theorem exec_sendFrame_of_unreadable
    (h : (s.started fn r g d).localRead fn (fieldAt d.bytes 8 1) (fieldAt d.bytes 16 8) (fieldAt d.bytes 24 4) dma = none) :
    exec (.sendFrame fn r dma) s = .next ((s.started fn r g d).endDesc fn r d.idx 2 12 0) := by
  change execSendFrame fn r dma s = _
  unfold execSendFrame
  rw [State.beginDesc_of_begins hb (by decide)]
  exact (if_neg (mt (not_spanOk_iff ..).mpr (not_not.mpr hok))).trans (by rw [h])

end

theorem exec_postBuf_of_begins (hb : Begins s fn r 1 2 g d) :
    let u := s.started fn r g d
    let spans := u.localSpans fn (fieldAt d.bytes 8 1) (fieldAt d.bytes 16 8) (fieldAt d.bytes 24 4)
    (SpanOk d.bytes 64 (2 ^ 30) → spans.isSome = true → exec (.postBuf fn r) s = .next u) ∧
    (SpanOk d.bytes 64 (2 ^ 30) → spans = none → exec (.postBuf fn r) s = .next (u.endDesc fn r d.idx 2 12 0)) ∧
    (¬SpanOk d.bytes 64 (2 ^ 30) → exec (.postBuf fn r) s = .next (u.endDesc fn r d.idx 2 14 0)) := by
  intro u spans
  change (_ → _ → execPostBuf fn r s = _) ∧ (_ → _ → execPostBuf fn r s = _) ∧ (_ → execPostBuf fn r s = _)
  unfold execPostBuf
  rw [State.beginDesc_of_begins hb (by decide)]
  have hguard := fun hok => mt (not_spanOk_iff d.bytes 64 (2 ^ 30)).mpr (not_not.mpr hok)
  exact ⟨fun hok hspans => (if_neg (hguard hok)).trans (if_neg (Bool.eq_false_iff.mp (Option.isNone_eq_false_iff.mpr hspans))),
    fun hok hspans => (if_neg (hguard hok)).trans (if_pos (Option.isNone_iff_eq_none.mpr hspans)),
    fun hok => if_pos ((not_spanOk_iff ..).mp hok)⟩

end

/-! ### Transfers -/

section
variable {kind op : Nat} {d : Desc} {dma bs : List Byte} {b : List Byte}

/-- The fields of a transfer: of an Ethernet context, or of a programmed connection. -/
def xferFields (kind : Nat) (eth : Bool) : List (Nat × Nat) :=
  [(8, 1), (9, 1), (10, 2), (16, 8), (24, 4)] ++ (if kind = 7 then [] else if eth then [(28, 4), (32, 8)] else [(32, 8)])

/-- A transfer goes over an Ethernet context. -/
def xferEth (b : List Byte) : Bool := fieldAt b 9 1 == 0

/-- The fields of a transfer break a rule. -/
def xferMisfit (kind : Nat) (b : List Byte) : Bool :=
  !zeroBytes b (xferFields kind (xferEth b)) || decide (3 < fieldAt b 8 1) || decide (1 < fieldAt b 9 1)
    || (!xferEth b && kind == 7)

/-- The connection that a transfer names is open, and is the function's. -/
def State.xferMine (s : State) (fn : Nat) (b : List Byte) : Bool :=
  let cn := fieldAt b 10 2
  let c := s.conn (connKey 2 cn)
  let e := s.econn cn
  if xferEth b then decide (cn < 8192) && e.st == 1 && e.fn == fn
  else decide (cn < 4096) && c.isOpen && !c.failed && c.func == fn

/-- The connection does not take a transfer of the length. -/
def State.xferLenBad (s : State) (b : List Byte) : Bool :=
  if xferEth b then !(s.econn (fieldAt b 10 2)).lenOk (fieldAt b 24 4) else fieldAt b 24 4 == 0

/-- The range in the function's memory that a transfer names. -/
def State.xferSpans (s : State) (fn : Nat) (b : List Byte) : Option (List (Nat × Nat)) :=
  s.localSpans fn (fieldAt b 8 1) (fieldAt b 16 8) (fieldAt b 24 4)

/-- The bytes that a transfer carries: none for a READ. -/
def State.xferData (s : State) (fn kind : Nat) (dma b : List Byte) : Option (List Byte) :=
  if kind == 5 then some [] else s.localRead fn (fieldAt b 8 1) (fieldAt b 16 8) (fieldAt b 24 4) dma

/-- A transfer starts on its connection. -/
def State.xferStart (s : State) (fn r kind : Nat) (d : Desc) (bs : List Byte) : State :=
  let b := d.bytes
  let cn := fieldAt b 10 2
  let sink : Option Sink := if kind == 5 then some { aspace := fieldAt b 8 1, fn := fn, addr := fieldAt b 16 8 } else none
  let owner : Owner := .desc fn r d.idx
  if xferEth b then s.ethStart cn kind (fieldAt b 32 8) (fieldAt b 24 4) (fieldAt b 28 4) bs sink owner
  else s.dvStart 2 cn (kind == 5) true 1 (fieldAt b 32 8) (fieldAt b 24 4) bs sink owner

section
variable (hb : Begins s fn r 2 op g d) (hop : op ∈ [0x10, 0x11, 0x12])
include hb hop

/-- A transfer that begins: its fields, its connection, its length and its memory are judged in this order. -/
theorem State.xfer_of_begins : s.xfer fn r op kind dma =
    let u := s.started fn r g d
    if xferMisfit kind d.bytes = true then u.endDesc fn r d.idx 2 14 0
    else if (!u.xferMine fn d.bytes) = true then u.endDesc fn r d.idx 2 13 0
    else if u.xferLenBad d.bytes = true then u.endDesc fn r d.idx 2 14 0
    else if (u.xferSpans fn d.bytes).isNone = true then u.endDesc fn r d.idx 2 12 0
    else match u.xferData fn kind dma d.bytes with
      | none => u.endDesc fn r d.idx 2 12 0
      | some bs => u.xferStart fn r kind d bs := by
  unfold State.xfer
  rw [State.beginDesc_of_begins hb hop]
  rfl

theorem State.xfer_of_misfit (hmisfit : xferMisfit kind d.bytes = true) :
    s.xfer fn r op kind dma = (s.started fn r g d).endDesc fn r d.idx 2 14 0 := by
  rw [State.xfer_of_begins hb hop]
  exact if_pos hmisfit

variable (hfits : xferMisfit kind d.bytes = false)
include hfits

theorem State.xfer_of_not_mine (hmine : (s.started fn r g d).xferMine fn d.bytes = false) :
    s.xfer fn r op kind dma = (s.started fn r g d).endDesc fn r d.idx 2 13 0 := by
  rw [State.xfer_of_begins hb hop]
  exact (if_neg (by simp [hfits])).trans (if_pos (by simp [hmine]))

variable (hmine : (s.started fn r g d).xferMine fn d.bytes = true)
include hmine

theorem State.xfer_of_length (hlen : (s.started fn r g d).xferLenBad d.bytes = true) :
    s.xfer fn r op kind dma = (s.started fn r g d).endDesc fn r d.idx 2 14 0 := by
  rw [State.xfer_of_begins hb hop]
  exact (if_neg (by simp [hfits])).trans ((if_neg (by simp [hmine])).trans (if_pos hlen))

variable (hlen : (s.started fn r g d).xferLenBad d.bytes = false)
include hlen

theorem State.xfer_of_no_spans (hspans : (s.started fn r g d).xferSpans fn d.bytes = none) :
    s.xfer fn r op kind dma = (s.started fn r g d).endDesc fn r d.idx 2 12 0 := by
  rw [State.xfer_of_begins hb hop]
  exact (if_neg (by simp [hfits])).trans ((if_neg (by simp [hmine])).trans ((if_neg (by simp [hlen])).trans
    (if_pos (Option.isNone_iff_eq_none.mpr hspans))))

theorem State.xfer_of_data (hspans : ((s.started fn r g d).xferSpans fn d.bytes).isSome = true)
    (hdata : (s.started fn r g d).xferData fn kind dma d.bytes = some bs) :
    s.xfer fn r op kind dma = (s.started fn r g d).xferStart fn r kind d bs := by
  rw [State.xfer_of_begins hb hop]
  exact (if_neg (by simp [hfits])).trans ((if_neg (by simp [hmine])).trans ((if_neg (by simp [hlen])).trans
    ((if_neg (Bool.eq_false_iff.mp (Option.isNone_eq_false_iff.mpr hspans))).trans (by rw [hdata]))))

end

/-- A command starts transfers of a kind, under an OP. -/
def XferCommand (fn r : Nat) (dma : List Byte) (kind op : Nat) (i : Instr) : Prop :=
  (kind, op, i) ∈ [(1, 0x10, Instr.xferWrite fn r dma), (5, 0x11, .xferRead fn r), (7, 0x12, .xferSend fn r dma)]

theorem exec_xferCommand (hi : XferCommand fn r dma kind op i) :
    op ∈ [0x10, 0x11, 0x12] ∧ exec i s = .next (s.xfer fn r op kind (if kind = 5 then [] else dma)) := by
  simp only [XferCommand, List.mem_cons, Prod.mk.injEq, List.not_mem_nil, or_false] at hi
  rcases hi with ⟨rfl, rfl, rfl⟩ | ⟨rfl, rfl, rfl⟩ | ⟨rfl, rfl, rfl⟩
  · exact ⟨by decide, rfl⟩
  · exact ⟨by decide, rfl⟩
  · exact ⟨by decide, rfl⟩

theorem endsAsBegun_xferCommand (hi : XferCommand fn r dma kind op i) :
    EndsAsBegun s fn r 2 op [0x10, 0x11, 0x12] i := by
  intro t h
  rw [(exec_xferCommand hi).2]
  unfold State.xfer
  rw [h]

theorem State.xferData_eq_some (hread : kind = 5 → bs = [])
    (hother : kind ≠ 5 → s.localRead fn (fieldAt b 8 1) (fieldAt b 16 8) (fieldAt b 24 4) dma = some bs) :
    s.xferData fn kind (if kind = 5 then [] else dma) b = some bs := by
  by_cases hkind : kind = 5
  · rw [hread hkind]
    exact if_pos (beq_iff_eq.mpr hkind)
  · rw [if_neg hkind, ← hother hkind]
    exact if_neg (mt beq_iff_eq.mp hkind)

/-! ### Transfers over a programmed connection -/

section
variable (heth : fieldAt b 9 1 = 1)
include heth

theorem xferEth_of_one : xferEth b = false := by simp [xferEth, heth]

theorem xferMisfit_of_send : xferMisfit 7 b = true := by simp [xferMisfit, xferEth_of_one heth]

theorem xferMisfit_conn_eq_false_iff (hkind : kind ≠ 7) : xferMisfit kind b = false ↔
    zeroBytes b [(8, 1), (9, 1), (10, 2), (16, 8), (24, 4), (32, 8)] = true ∧ fieldAt b 8 1 ≤ 3 := by
  simp [xferMisfit, xferFields, xferEth_of_one heth, hkind, heth]

theorem State.xferMine_conn_iff (s : State) (fn : Nat) : s.xferMine fn b = true ↔
    let c := s.conn (connKey 2 (fieldAt b 10 2))
    fieldAt b 10 2 < 4096 ∧ c.isOpen = true ∧ c.failed = false ∧ c.func = fn := by
  simp [State.xferMine, xferEth_of_one heth, and_assoc]

theorem State.xferLenBad_conn (s : State) : s.xferLenBad b = (fieldAt b 24 4 == 0) := by
  simp [State.xferLenBad, xferEth_of_one heth]

end

theorem State.xferStart_conn (s : State) (heth : fieldAt d.bytes 9 1 = 1) : s.xferStart fn r kind d bs =
    s.dvStart 2 (fieldAt d.bytes 10 2) (kind == 5) true 1 (fieldAt d.bytes 32 8) (fieldAt d.bytes 24 4) bs
      (if kind = 5 then some { aspace := fieldAt d.bytes 8 1, fn := fn, addr := fieldAt d.bytes 16 8 } else none)
      (.desc fn r d.idx) := by
  simp [State.xferStart, xferEth_of_one heth]

theorem exec_xferCommand_conn (hi : XferCommand fn r dma kind op i) (hkind : kind ≠ 7)
    (hb : Begins s fn r 2 op g d) (heth : fieldAt d.bytes 9 1 = 1) :
    let b := d.bytes
    let u := s.started fn r g d
    let len := fieldAt b 24 4
    let cn := fieldAt b 10 2
    let c := u.conn (connKey 2 cn)
    let ok : Prop := zeroBytes b [(8, 1), (9, 1), (10, 2), (16, 8), (24, 4), (32, 8)] = true ∧ fieldAt b 8 1 ≤ 3
    let mine : Prop := cn < 4096 ∧ c.isOpen = true ∧ c.failed = false ∧ c.func = fn
    (¬ok → exec i s = .next (u.endDesc fn r d.idx 2 14 0)) ∧
    (ok → ¬mine → exec i s = .next (u.endDesc fn r d.idx 2 13 0)) ∧
    (ok → mine → len = 0 → exec i s = .next (u.endDesc fn r d.idx 2 14 0)) ∧
    (ok → mine → len ≠ 0 → u.localSpans fn (fieldAt b 8 1) (fieldAt b 16 8) len = none →
      exec i s = .next (u.endDesc fn r d.idx 2 12 0)) ∧
    (ok → mine → len ≠ 0 → (u.localSpans fn (fieldAt b 8 1) (fieldAt b 16 8) len).isSome = true →
      (kind = 5 → bs = []) → (kind ≠ 5 → u.localRead fn (fieldAt b 8 1) (fieldAt b 16 8) len dma = some bs) →
      exec i s = .next (u.dvStart 2 cn (kind == 5) true 1 (fieldAt b 32 8) len bs
        (if kind = 5 then some { aspace := fieldAt b 8 1, fn := fn, addr := fieldAt b 16 8 } else none) (.desc fn r d.idx))) := by
  intro b u len cn c ok mine
  obtain ⟨hop, hexec⟩ := exec_xferCommand (s := s) hi
  have hok : xferMisfit kind b = false ↔ ok := xferMisfit_conn_eq_false_iff heth hkind
  have hmine : u.xferMine fn b = true ↔ mine := u.xferMine_conn_iff heth fn
  have hlen : u.xferLenBad b = (len == 0) := u.xferLenBad_conn heth
  rw [hexec]
  refine ⟨fun h => ?_, fun h h1 => ?_, fun h h1 h2 => ?_, fun h h1 h2 h3 => ?_, fun h h1 h2 h3 hread hother => ?_⟩
  · rw [State.xfer_of_misfit hb hop (by simpa using mt hok.mp h)]
  · rw [State.xfer_of_not_mine hb hop (hok.mpr h) (by simpa using mt hmine.mp h1)]
  · rw [State.xfer_of_length hb hop (hok.mpr h) (hmine.mpr h1) (hlen.trans (by simp [h2]))]
  · rw [State.xfer_of_no_spans hb hop (hok.mpr h) (hmine.mpr h1) (hlen.trans (by simp [h2])) h3]
  · rw [State.xfer_of_data hb hop (hok.mpr h) (hmine.mpr h1) (hlen.trans (by simp [h2])) h3
      (State.xferData_eq_some hread hother), State.xferStart_conn _ heth]

/-- A SEND has no programmed connection to go over. -/
theorem exec_xferSend_conn (hb : Begins s fn r 2 0x12 g d) (heth : fieldAt d.bytes 9 1 = 1) :
    exec (.xferSend fn r dma) s = .next ((s.started fn r g d).endDesc fn r d.idx 2 14 0) := by
  have hexec : exec (.xferSend fn r dma) s = .next (s.xfer fn r 0x12 7 dma) := rfl
  rw [hexec, State.xfer_of_misfit hb (by decide) (xferMisfit_of_send heth)]

/-! ### Transfers over an Ethernet context -/

section
variable (heth : fieldAt b 9 1 = 0)
include heth

theorem xferEth_of_zero : xferEth b = true := by simp [xferEth, heth]

theorem xferMisfit_eth_iff (kind : Nat) : xferMisfit kind b = true ↔
    zeroBytes b ([(8, 1), (9, 1), (10, 2), (16, 8), (24, 4)] ++ (if kind = 7 then [] else [(28, 4), (32, 8)])) = false ∨
      3 < fieldAt b 8 1 := by
  simp [xferMisfit, xferFields, xferEth_of_zero heth, heth]

theorem State.xferMine_eth_iff (s : State) (fn : Nat) : s.xferMine fn b = true ↔
    fieldAt b 10 2 < 8192 ∧ (s.econn (fieldAt b 10 2)).st = 1 ∧ (s.econn (fieldAt b 10 2)).fn = fn := by
  simp [State.xferMine, xferEth_of_zero heth, and_assoc]

theorem State.xferLenBad_eth (s : State) : s.xferLenBad b = !(s.econn (fieldAt b 10 2)).lenOk (fieldAt b 24 4) := by
  simp [State.xferLenBad, xferEth_of_zero heth]

end

theorem State.xferStart_eth (s : State) (heth : fieldAt d.bytes 9 1 = 0) : s.xferStart fn r kind d bs =
    s.ethStart (fieldAt d.bytes 10 2) kind (fieldAt d.bytes 32 8) (fieldAt d.bytes 24 4) (fieldAt d.bytes 28 4) bs
      (if kind = 5 then some { aspace := fieldAt d.bytes 8 1, fn := fn, addr := fieldAt d.bytes 16 8 } else none)
      (.desc fn r d.idx) := by
  simp [State.xferStart, xferEth_of_zero heth]

theorem exec_xferCommand_eth (hi : XferCommand fn r dma kind op i) (hb : Begins s fn r 2 op g d)
    (heth : fieldAt d.bytes 9 1 = 0) :
    let b := d.bytes
    let u := s.started fn r g d
    let len := fieldAt b 24 4
    let cn := fieldAt b 10 2
    let e := u.econn cn
    let fields := [(8, 1), (9, 1), (10, 2), (16, 8), (24, 4)] ++ (if kind = 7 then [] else [(28, 4), (32, 8)])
    (zeroBytes b fields = false ∨ 3 < fieldAt b 8 1 → exec i s = .next (u.endDesc fn r d.idx 2 14 0)) ∧
    (zeroBytes b fields = true → fieldAt b 8 1 ≤ 3 →
      (8192 ≤ cn ∨ e.st ≠ 1 ∨ e.fn ≠ fn → exec i s = .next (u.endDesc fn r d.idx 2 13 0)) ∧
      (cn < 8192 → e.st = 1 → e.fn = fn → e.lenOk len = false → exec i s = .next (u.endDesc fn r d.idx 2 14 0)) ∧
      (cn < 8192 → e.st = 1 → e.fn = fn → e.lenOk len = true →
        (u.localSpans fn (fieldAt b 8 1) (fieldAt b 16 8) len).isSome = true →
        (kind = 5 → bs = []) → (kind ≠ 5 → u.localRead fn (fieldAt b 8 1) (fieldAt b 16 8) len dma = some bs) →
        exec i s = .next (u.ethStart cn kind (fieldAt b 32 8) len (fieldAt b 28 4) bs
          (if kind = 5 then some { aspace := fieldAt b 8 1, fn := fn, addr := fieldAt b 16 8 } else none)
          (.desc fn r d.idx)))) := by
  intro b u len cn e fields
  obtain ⟨hop, hexec⟩ := exec_xferCommand (s := s) hi
  have hmisfit : xferMisfit kind b = true ↔ zeroBytes b fields = false ∨ 3 < fieldAt b 8 1 := xferMisfit_eth_iff heth kind
  have hmine : u.xferMine fn b = true ↔ cn < 8192 ∧ e.st = 1 ∧ e.fn = fn := u.xferMine_eth_iff heth fn
  have hlen : u.xferLenBad b = !e.lenOk len := u.xferLenBad_eth heth
  rw [hexec]
  refine ⟨fun h => by rw [State.xfer_of_misfit hb hop (hmisfit.mpr h)], fun hzero hspace => ?_⟩
  have hfits : xferMisfit kind b = false :=
    Bool.eq_false_iff.mpr fun h => (hmisfit.mp h).elim (by simp [hzero]) (Nat.not_lt.mpr hspace)
  refine ⟨fun h => ?_, fun hcn hst hfn h => ?_, fun hcn hst hfn h hspans hread hother => ?_⟩
  · have hnot : ¬(cn < 8192 ∧ e.st = 1 ∧ e.fn = fn) := by
      rintro ⟨hcn, hst, hfn⟩
      exact h.elim (Nat.not_le.mpr hcn) fun h => h.elim (· hst) (· hfn)
    rw [State.xfer_of_not_mine hb hop hfits (by simpa using mt hmine.mp hnot)]
  · rw [State.xfer_of_length hb hop hfits (hmine.mpr ⟨hcn, hst, hfn⟩) (hlen.trans (by simp [h]))]
  · rw [State.xfer_of_data hb hop hfits (hmine.mpr ⟨hcn, hst, hfn⟩) (hlen.trans (by simp [h])) hspans
      (State.xferData_eq_some hread hother), State.xferStart_eth _ heth]

end

/-! ### Copies -/

section
variable {u : State} {d : Desc} {dma bs : List Byte}

/-- The copy under way on a ring. -/
def State.copyRuns (s : State) (fn r : Nat) : Option Desc :=
  (s.ring fn r).bind (fun g => if g.kind = 3 then g.descs.find? (fun d => d.started && d.fin.isNone) else none)

theorem State.copyRuns_of_find (hring : s.ring fn r = some g) (hkind : g.kind = 3) :
    s.copyRuns fn r = g.descs.find? (fun d => d.started && d.fin.isNone) := by
  rw [State.copyRuns, hring, Option.bind_some, if_pos hkind]

theorem State.copyRuns_of_ring_none (h : s.ring fn r = none) : s.copyRuns fn r = none := by
  rw [State.copyRuns, h, Option.bind_none]

theorem State.copyRuns_of_ended (hring : s.ring fn r = some g)
    (hended : g.kind = 3 → ∀ x ∈ g.descs, x.started = true → x.fin ≠ none) : s.copyRuns fn r = none := by
  by_cases hkind : g.kind = 3
  · rw [State.copyRuns_of_find hring hkind, List.find?_eq_none]
    intro x hx
    simpa using hended hkind x hx
  · rw [State.copyRuns, hring, Option.bind_some, if_neg hkind]

theorem State.copyDesc_of_runs (h : s.copyRuns fn r = some d) : s.copyDesc fn r = .inr (s, d) := by
  unfold State.copyRuns at h
  unfold State.copyDesc
  rw [h]

/-- A COPY keeps the rules of its fields. -/
def CopyOk (b : List Byte) : Prop :=
  zeroBytes b [(8, 1), (9, 1), (16, 8), (24, 8), (32, 4)] = true ∧ fieldAt b 8 1 ≤ 3 ∧ fieldAt b 9 1 ≤ 3 ∧
    1 ≤ fieldAt b 32 4 ∧ fieldAt b 32 4 ≤ 2 ^ 30

theorem not_copyOk_iff (b : List Byte) : ¬CopyOk b ↔
    (!zeroBytes b [(8, 1), (9, 1), (16, 8), (24, 8), (32, 4)] || decide (3 < fieldAt b 8 1) || decide (3 < fieldAt b 9 1)
      || fieldAt b 32 4 == 0 || decide (2 ^ 30 < fieldAt b 32 4)) = true := by
  simp only [CopyOk, not_and_or, Bool.not_eq_true, Nat.not_le, Bool.or_eq_true, Bool.not_eq_true', decide_eq_true_eq,
    beq_iff_eq, Nat.lt_one_iff, or_assoc]

/-- Both ranges that a COPY names are the function's. -/
def State.CopyMine (s : State) (fn : Nat) (b : List Byte) : Prop :=
  s.localSpans fn (fieldAt b 8 1) (fieldAt b 16 8) (fieldAt b 32 4) ≠ none ∧
    s.localSpans fn (fieldAt b 9 1) (fieldAt b 24 8) (fieldAt b 32 4) ≠ none

theorem State.not_copyMine_iff (s : State) (fn : Nat) (b : List Byte) : ¬s.CopyMine fn b ↔
    ((s.localSpans fn (fieldAt b 8 1) (fieldAt b 16 8) (fieldAt b 32 4)).isNone ||
      (s.localSpans fn (fieldAt b 9 1) (fieldAt b 24 8) (fieldAt b 32 4)).isNone) = true := by
  simp only [State.CopyMine, not_and_or, not_not, Bool.or_eq_true, Option.isNone_iff_eq_none]

section
variable (hidle : s.copyRuns fn r = none)
include hidle

theorem State.copyDesc_of_stop (h : s.beginDesc fn r 3 0x20 [0x20] = .inl t) : s.copyDesc fn r = .inl t := by
  unfold State.copyRuns at hidle
  unfold State.copyDesc
  rw [hidle, h]

variable (hb : Begins s fn r 3 0x20 g d)
include hb

theorem State.copyDesc_of_begins : s.copyDesc fn r =
    let u := s.started fn r g d
    if (!zeroBytes d.bytes [(8, 1), (9, 1), (16, 8), (24, 8), (32, 4)] || decide (3 < fieldAt d.bytes 8 1)
        || decide (3 < fieldAt d.bytes 9 1) || fieldAt d.bytes 32 4 == 0 || decide (2 ^ 30 < fieldAt d.bytes 32 4)) = true then
      .inl (u.endDesc fn r d.idx 2 14 0)
    else if ((u.localSpans fn (fieldAt d.bytes 8 1) (fieldAt d.bytes 16 8) (fieldAt d.bytes 32 4)).isNone ||
        (u.localSpans fn (fieldAt d.bytes 9 1) (fieldAt d.bytes 24 8) (fieldAt d.bytes 32 4)).isNone) = true then
      .inl (u.endDesc fn r d.idx 2 12 0)
    else .inr (u, { d with started := true }) := by
  unfold State.copyRuns at hidle
  unfold State.copyDesc
  rw [hidle, State.beginDesc_of_begins hb (by decide)]

theorem State.copyDesc_of_misfit (hok : ¬CopyOk d.bytes) :
    s.copyDesc fn r = .inl ((s.started fn r g d).endDesc fn r d.idx 2 14 0) := by
  rw [State.copyDesc_of_begins hidle hb]
  exact if_pos ((not_copyOk_iff _).mp hok)

variable (hok : CopyOk d.bytes)
include hok

theorem State.copyDesc_of_not_mine (hmine : ¬(s.started fn r g d).CopyMine fn d.bytes) :
    s.copyDesc fn r = .inl ((s.started fn r g d).endDesc fn r d.idx 2 12 0) := by
  rw [State.copyDesc_of_begins hidle hb]
  exact (if_neg (mt (not_copyOk_iff _).mpr (not_not.mpr hok))).trans (if_pos ((State.not_copyMine_iff ..).mp hmine))

theorem State.copyDesc_of_mine (hmine : (s.started fn r g d).CopyMine fn d.bytes) :
    s.copyDesc fn r = .inr (s.started fn r g d, { d with started := true }) := by
  rw [State.copyDesc_of_begins hidle hb]
  exact (if_neg (mt (not_copyOk_iff _).mpr (not_not.mpr hok))).trans
    (if_neg (mt (State.not_copyMine_iff ..).mpr (not_not.mpr hmine)))

end

theorem exec_copy_of_inl (h : s.copyDesc fn r = .inl t) : exec (.copy fn r n dma) s = .next t := by
  change execCopy fn r n dma s = _
  unfold execCopy
  rw [h]

theorem endsAsBegun_copy (hidle : s.copyRuns fn r = none) : EndsAsBegun s fn r 3 0x20 [0x20] (.copy fn r n dma) :=
  fun _ h => exec_copy_of_inl (State.copyDesc_of_stop hidle h)

section
variable (h : s.copyDesc fn r = .inr (u, d))
include h

theorem exec_copy_of_wait (hwait : u.writeWaits fn (fieldAt d.bytes 9 1) (fieldAt d.bytes 24 8 + d.done)
    (min n (fieldAt d.bytes 32 4 - d.done)) = true) : exec (.copy fn r n dma) s = .next u := by
  change execCopy fn r n dma s = _
  unfold execCopy
  rw [h]
  exact if_pos hwait

variable (hfree : u.writeWaits fn (fieldAt d.bytes 9 1) (fieldAt d.bytes 24 8 + d.done)
  (min n (fieldAt d.bytes 32 4 - d.done)) = false)
include hfree

theorem exec_copy_of_unreadable (hread : u.localRead fn (fieldAt d.bytes 8 1) (fieldAt d.bytes 16 8 + d.done)
    (min n (fieldAt d.bytes 32 4 - d.done)) dma = none) :
    exec (.copy fn r n dma) s = .next (u.endDesc fn r d.idx (if d.done = 0 then 2 else 1) 12 d.done) := by
  change execCopy fn r n dma s = _
  unfold execCopy
  rw [h]
  exact (if_neg (by simp [hfree])).trans (by rw [hread])

theorem exec_copy_of_read (hread : u.localRead fn (fieldAt d.bytes 8 1) (fieldAt d.bytes 16 8 + d.done)
    (min n (fieldAt d.bytes 32 4 - d.done)) dma = some bs) :
    let m := min n (fieldAt d.bytes 32 4 - d.done)
    let w : State := (u.localWrite fn (fieldAt d.bytes 9 1) (fieldAt d.bytes 24 8 + d.done) bs).setDesc fn r
      { d with done := d.done + m }
    (d.done + m ≠ fieldAt d.bytes 32 4 → exec (.copy fn r n dma) s = .next w) ∧
    (d.done + m = fieldAt d.bytes 32 4 →
      exec (.copy fn r n dma) s = .next (w.endDesc fn r d.idx 0 0 (fieldAt d.bytes 32 4))) := by
  intro m w
  have hmoved : exec (.copy fn r n dma) s =
      .next (if d.done + m = fieldAt d.bytes 32 4 then w.endDesc fn r d.idx 0 0 (fieldAt d.bytes 32 4) else w) := by
    change execCopy fn r n dma s = _
    unfold execCopy
    rw [h]
    exact (if_neg (by simp [hfree])).trans (by rw [hread])
  rw [hmoved]
  exact ⟨fun hmore => by rw [if_neg hmore], fun hlast => by rw [if_pos hlast]⟩

end

end

/-! ### Completion -/

section
variable {d h : Desc} {l : List Desc} {ty pay : Nat}

theorem State.absorb_of_ended {x : Ended} (hfind : s.dv.ended.find? (fun e => e.owner == .desc fn r n) = some x) :
    s.absorb (.desc fn r n) =
      ({ s with dv := { s.dv with ended := removeFirst (fun e => decide (e.owner = .desc fn r n)) s.dv.ended } } :
        State).endDesc fn r n x.state x.cause x.bytes := by
  unfold State.absorb
  rw [hfind]

theorem State.absorb_of_none (hnone : ∀ e ∈ s.dv.ended, e.owner ≠ .desc fn r n) : s.absorb (.desc fn r n) = s := by
  have hfind : s.dv.ended.find? (fun e => e.owner == .desc fn r n) = none :=
    List.find?_eq_none.mpr fun e he => by simpa using hnone e he
  unfold State.absorb
  rw [hfind]

theorem State.complete_of_ring_none (hring : s.ring fn r = none) : s.complete fn r n = s := by
  unfold State.complete
  rw [hring]

section
variable (hring : s.ring fn r = some g)
include hring

theorem State.complete_of_open (hopen : g.desc n = none ∨ ∃ x, g.desc n = some x ∧ x.fin = none) :
    s.complete fn r n = s := by
  unfold State.complete
  rw [hring]
  rcases hopen with hnone | ⟨x, hdesc, hfin⟩
  · simp only [hnone]
  · simp only [hdesc, hfin]

variable (hdesc : g.desc n = some d) (hfin : d.fin = some (ty, pay)) (hdescs : g.descs = h :: l)
include hdesc hfin hdescs

/-- The descriptors of frames, buffers and copies complete in ring order. -/
theorem State.complete_of_fin : s.complete fn r n =
    if (g.kind = 0 ∨ g.kind = 1 ∨ g.kind = 3) ∧ h.idx ≠ n then s
    else ((if ty = 0 then s else s.record fn g.eq fn ty pay).countEnd fn pay).setRing fn r
      (({ g with descs := g.descs.filter (fun y => y.idx != n), doneIdx := insertNat n g.doneIdx } : Ring).passU
        (insertNat n g.doneIdx).length) := by
  have hguard : ((g.kind == 0 || g.kind == 1 || g.kind == 3) && (g.descs.head?).any (fun h => h.idx != n)) = true ↔
      (g.kind = 0 ∨ g.kind = 1 ∨ g.kind = 3) ∧ h.idx ≠ n := by
    simp [hdescs, or_assoc]
  unfold State.complete
  rw [hring]
  simp only [hdesc, hfin, hguard]

end

/-! ### MSI-X -/

theorem mem_insertNat_self (k : Nat) (l : List Nat) : k ∈ insertNat k l := by
  unfold insertNat
  split
  case isTrue hmem => exact List.contains_iff_mem.mp hmem
  case isFalse => simp

theorem exec_msixUnmask_of_off {addr data : Nat} {masked : Bool} (hoff : s.hostUp = false ∨ vecCount fn ≤ v) :
    exec (.msixUnmask fn v masked addr data) s = .next s :=
  if_pos (by simpa using hoff)

section
variable {addr data : Nat} (hup : s.hostUp = true) (hv : v < vecCount fn)
include hup hv

/-- A vector that is unmasked with its pending bit set sends its message. -/
theorem exec_msixUnmask_of_unmasked : ∃ t, exec (.msixUnmask fn v false addr data) s = .next t ∧
    t.host.msix = s.host.msix.put (fnKey fn v) (addr, data) ∧ (fnKey fn v) ∈ t.host.unmasked ∧
    t.out = (if s.host.pba.contains (fnKey fn v) = true then .msix fn v :: s.out else s.out) := by
  refine ⟨_, (if_neg (by simp [hup, hv])).trans (if_neg Bool.false_ne_true), ?_⟩
  dsimp only
  split
  · exact ⟨rfl, mem_insertNat_self .., rfl⟩
  · exact ⟨rfl, mem_insertNat_self .., rfl⟩

theorem exec_msixUnmask_of_masked : ∃ t, exec (.msixUnmask fn v true addr data) s = .next t ∧
    (fnKey fn v) ∉ t.host.unmasked ∧ t.out = s.out :=
  ⟨_, (if_neg (by simp [hup, hv])).trans (if_pos rfl), by simp, rfl⟩

end

end

/-! ### Export deliveries -/

section
variable {ch : Nat} {d : Delivery}

theorem exec_exportDeliver_of_none (h : s.host.deliveries.find? (fun d => d.channel == ch) = none) :
    exec (.exportDeliver ch) s = .next s := by
  change execExportDeliver ch s = _
  unfold execExportDeliver
  rw [h]

section
variable (holdest : s.host.deliveries.find? (fun d => d.channel == ch) = some d)
include holdest

theorem exec_exportDeliver_of_held
    (h : s.heldOk d = false ∨ s.fnReady (bits (s.host.channels.getD 0 ch) 2 7) = false) :
    exec (.exportDeliver ch) s = .next s := by
  change execExportDeliver ch s = _
  unfold execExportDeliver
  rw [holdest]
  exact if_pos (by simpa using h)

variable (hok : s.heldOk d = true) (hready : s.fnReady (bits (s.host.channels.getD 0 ch) 2 7) = true)
include hok hready

theorem exec_exportDeliver_of_other
    (hkind : bits (s.host.channels.getD 0 ch) 0 2 = 0 ∨ bits (s.host.channels.getD 0 ch) 0 2 = 3) :
    exec (.exportDeliver ch) s = .next s := by
  change execExportDeliver ch s = _
  unfold execExportDeliver
  rw [holdest]
  refine (if_neg (by simp [hok, hready])).trans ?_
  rcases hkind with hkind | hkind
  · simp only [hkind]
  · simp only [hkind]

theorem exec_exportDeliver_of_context (hkind : bits (s.host.channels.getD 0 ch) 0 2 = 2) : exec (.exportDeliver ch) s =
    let e := s.host.channels.getD 0 ch
    let c := s.econn (bits e 15 13)
    if c.st = 1 ∧ c.fn = bits e 2 7 ∧ c.lenOk d.bytes.length = true then
      .next ((s.ethStart (bits e 15 13) 7 0 d.bytes.length 0 d.bytes none (.agent 0)).dropDelivery d)
    else .next s := by
  change execExportDeliver ch s = _
  unfold execExportDeliver
  rw [holdest]
  refine (if_neg (by simp [hok, hready])).trans ?_
  simp only [hkind]

section
variable (hkind : bits (s.host.channels.getD 0 ch) 0 2 = 1)
include hkind

theorem exec_exportDeliver_of_no_buffer
    (hroom : s.bufferRoom (bits (s.host.channels.getD 0 ch) 2 7) (bits (s.host.channels.getD 0 ch) 9 6) = none) :
    exec (.exportDeliver ch) s = .next s := by
  change execExportDeliver ch s = _
  unfold execExportDeliver
  rw [holdest]
  refine (if_neg (by simp [hok, hready])).trans ?_
  simp only [hkind, hroom]

theorem exec_exportDeliver_of_buffer
    (hroom : s.bufferRoom (bits (s.host.channels.getD 0 ch) 2 7) (bits (s.host.channels.getD 0 ch) 9 6) = some n)
    (hfill : s.fillBuffer (bits (s.host.channels.getD 0 ch) 2 7) (bits (s.host.channels.getD 0 ch) 9 6)
      ((d.bytes.drop d.sent).take (min n (d.bytes.length - d.sent))) 2 ch
      (ofBool (decide (d.sent + min n (d.bytes.length - d.sent) < d.bytes.length)) * 2 ^ 107) = some t) :
    let m := min n (d.bytes.length - d.sent)
    (d.sent + m < d.bytes.length →
      exec (.exportDeliver ch) s = .next (t.setDelivery d { d with sent := d.sent + m })) ∧
    (d.bytes.length ≤ d.sent + m → exec (.exportDeliver ch) s = .next (t.dropDelivery d)) := by
  intro m
  have hmoved : exec (.exportDeliver ch) s = .next (if decide (d.sent + m < d.bytes.length) then
      t.setDelivery d { d with sent := d.sent + m } else t.dropDelivery d) := by
    change execExportDeliver ch s = _
    unfold execExportDeliver
    rw [holdest]
    refine (if_neg (by simp [hok, hready])).trans ?_
    simp only [hkind, hroom]
    rw [hfill]
  rw [hmoved]
  exact ⟨fun hmore => by rw [if_pos (decide_eq_true hmore)], fun hlast => by rw [if_neg (by simpa using hlast)]⟩

end
end

/-- METER_HOLD holds a delivery of token records until the Cloche has acknowledged its beat in this EPOCH. -/
theorem State.heldOk_iff (htokens : d.tokens = true) (hhold : d.hold = true) {ep b : Nat}
    (hacked : s.records.acked = some (ep, b)) : s.heldOk d = true ↔ ep = s.rg Rg.cloche_EPOCH ∧ d.beat ≤ b := by
  simp [State.heldOk, htokens, hhold, hacked]

theorem State.heldOk_of_unacked (htokens : d.tokens = true) (hhold : d.hold = true) (hacked : s.records.acked = none) :
    s.heldOk d = false := by
  simp [State.heldOk, htokens, hhold, hacked]

end

end

/-! ### The statements -/

theorem doorbells : Clauses.Doorbells := by
  intro s fn r v g l e ahead served n fetch
  refine ⟨fun hnone => ⟨exec_ringDoorbell_of_none hnone, exec_doorbellSample_of_none hnone,
      exec_descriptorFetch_of_none hnone _, endsAsBegun_postBuf.of_ring_none hnone,
      (endsAsBegun_xferCommand (dma := []) (kind := 5) (op := 0x11) (by simp [XferCommand])).of_ring_none hnone⟩,
    fun hring => ⟨fun h => ?latched, fun h => ?ignored, exec_doorbellSample_of_idle hring, fun hbell hready herr => ?sample,
      exec_descriptorFetch_of_not hring, fun h => ?fetched⟩,
    fun hnone => ⟨exec_eqDoorbell_of_none hnone, exec_msixModTimer_of_none hnone⟩,
    fun hqueue => ⟨fun hrings hahead => ?taken, fun h => ?stale, fun hsince hmod hup => ?fires, fun h => ?quiet⟩⟩
  case latched => rw [exec_ringDoorbell_of_some hring, if_pos h]
  case ignored => rw [exec_ringDoorbell_of_some hring, if_neg h]
  case sample =>
    intro u
    rw [exec_doorbellSample_of_bell hring hbell hready herr]
    refine ⟨fun h => if_pos h, fun h => ?_, fun h hbeyond => ?_, fun h hwithin => ?_⟩
    · exact (if_neg (by omega)).trans (if_pos h)
    · exact (if_neg (by omega)).trans ((if_neg (by omega)).trans (if_pos hbeyond))
    · exact (if_neg (by omega)).trans ((if_neg (by omega)).trans (if_neg (Nat.not_lt.mpr hwithin)))
  case fetched =>
    obtain ⟨hfailed, hread⟩ := exec_descriptorFetch_of_fetches hring h
    exact ⟨hfailed, hread l⟩
  case taken => rw [exec_eqDoorbell_of_some hqueue, if_pos ⟨hrings, hahead⟩]
  case stale =>
    rw [exec_eqDoorbell_of_some hqueue, if_neg]
    rintro ⟨hrings, hahead⟩
    exact h.elim (by simp [hrings]) (Int.not_le.mpr hahead)
  case fires => rw [exec_msixModTimer_of_some hqueue, if_neg (by simp [hsince, hmod, hup])]
  case quiet => rw [exec_msixModTimer_of_some hqueue, if_pos h]

/-- The commands that start descriptors, each under the OPs of its ring's kind. -/
theorem startCommand_answers {s : State} {fn r n kind op : Nat} {ops : List Nat} {i : Instr} {dma : List Byte}
    (hi : (kind, op, ops, i) ∈ [(0, 0x01, [0x01], Instr.sendFrame fn r dma), (1, 0x02, [0x02], .postBuf fn r),
      (2, 0x10, [0x10, 0x11, 0x12], .xferWrite fn r dma), (2, 0x11, [0x10, 0x11, 0x12], .xferRead fn r),
      (2, 0x12, [0x10, 0x11, 0x12], .xferSend fn r dma), (3, 0x20, [0x20], .copy fn r n dma)])
    (hcopy : kind = 3 → s.copyRuns fn r = none) : EndsAsBegun s fn r kind op ops i := by
  simp only [List.mem_cons, Prod.mk.injEq, List.not_mem_nil, or_false] at hi
  rcases hi with ⟨rfl, rfl, rfl, rfl⟩ | ⟨rfl, rfl, rfl, rfl⟩ | ⟨rfl, rfl, rfl, rfl⟩ | ⟨rfl, rfl, rfl, rfl⟩
    | ⟨rfl, rfl, rfl, rfl⟩ | ⟨rfl, rfl, rfl, rfl⟩
  · exact endsAsBegun_sendFrame
  · exact endsAsBegun_postBuf
  · exact endsAsBegun_xferCommand (kind := 1) (dma := dma) (by simp [XferCommand])
  · exact endsAsBegun_xferCommand (kind := 5) (dma := dma) (by simp [XferCommand])
  · exact endsAsBegun_xferCommand (kind := 7) (dma := dma) (by simp [XferCommand])
  · exact endsAsBegun_copy (hcopy rfl)

theorem descriptors : Clauses.Descriptors := by
  intro s fn r n v addr data dma bs g d b u len frameOk bufOk
  refine ⟨fun hb => ⟨exec_sendFrame_of_misfit hb, exec_sendFrame_of_read hb, exec_sendFrame_of_unreadable hb⟩,
    exec_postBuf_of_begins, fun kind op ops i hi => ?start, fun kind op i hi hb heth => ?conn, exec_xferSend_conn,
    fun kind op i hi hb => ?eth,
    fun hb hended => ?copy, fun hring hkind hfind hfree hread => ?unreadable,
    fun hring hkind hfind => ?copying, fun x hfind => ?ended, fun hnone hring => ?gone,
    fun hring hnone => ⟨fun hopen => ?running, fun x h t ty pay hdesc hfin hdescs => ?done⟩,
    fun hoff mk => exec_msixUnmask_of_off hoff, fun hup hv => exec_msixUnmask_of_unmasked hup hv,
    fun hup hv => exec_msixUnmask_of_masked hup hv⟩
  case start =>
    refine ⟨fun hnone => ?_, fun hring hended => ?_⟩
    · exact (startCommand_answers hi fun _ => State.copyRuns_of_ring_none hnone).of_ring_none hnone
    · exact (startCommand_answers hi fun hkind =>
        State.copyRuns_of_ended hring fun _ => hended hkind).of_ring hring
  case conn =>
    have hxfer : XferCommand fn r dma kind op i := List.mem_append_left [(7, 0x12, Instr.xferSend fn r dma)] hi
    refine exec_xferCommand_conn hxfer ?_ hb heth
    rintro rfl
    simp at hi
  case eth =>
    intro cn e fields heth
    exact exec_xferCommand_eth hi hb heth
  case copy =>
    intro total ok mine m dst x
    have hidle : s.copyRuns fn r = none := State.copyRuns_of_ended hb.1 fun _ => hended
    refine ⟨fun hok => exec_copy_of_inl (State.copyDesc_of_misfit hidle hb hok),
      fun hok hmine => exec_copy_of_inl (State.copyDesc_of_not_mine hidle hb hok hmine),
      fun hok hmine hwait => exec_copy_of_wait (State.copyDesc_of_mine hidle hb hok hmine) hwait,
      fun hok hmine hfree hread => exec_copy_of_read (State.copyDesc_of_mine hidle hb hok hmine) hfree hread⟩
  case unreadable =>
    exact exec_copy_of_unreadable (State.copyDesc_of_runs ((State.copyRuns_of_find hring hkind).trans hfind)) hfree hread
  case copying =>
    intro m dst
    have hruns := State.copyDesc_of_runs ((State.copyRuns_of_find hring hkind).trans hfind)
    refine ⟨exec_copy_of_wait hruns, fun hfree hread => ?_⟩
    obtain ⟨hmore, hlast⟩ := exec_copy_of_read hruns hfree hread
    exact ⟨fun hless => hmore (Nat.ne_of_lt hless), hlast⟩
  case ended =>
    change Host.Outcome.next ((s.absorb (.desc fn r n)).complete fn r n) = _
    rw [State.absorb_of_ended hfind]
  case gone =>
    change Host.Outcome.next ((s.absorb (.desc fn r n)).complete fn r n) = _
    rw [State.absorb_of_none hnone, State.complete_of_ring_none hring]
  case running =>
    change Host.Outcome.next ((s.absorb (.desc fn r n)).complete fn r n) = _
    rw [State.absorb_of_none hnone, State.complete_of_open hring hopen]
  case done =>
    change (_ → _ → Host.Outcome.next ((s.absorb (.desc fn r n)).complete fn r n) = _) ∧
      (_ → Host.Outcome.next ((s.absorb (.desc fn r n)).complete fn r n) = _)
    rw [State.absorb_of_none hnone, State.complete_of_fin hring hdesc hfin hdescs]
    refine ⟨fun hordered hother => by rw [if_pos ⟨hordered, hother⟩], fun hturn => ?_⟩
    rw [if_neg fun hwaits => hturn.elim (· hwaits.1) hwaits.2]

theorem exportDeliveries : Clauses.ExportDeliveries := by
  intro s ch n d e fn c m
  refine ⟨exec_exportDeliver_of_none, fun holdest => ⟨exec_exportDeliver_of_held holdest, fun hok hready =>
      ⟨fun hkind hst hfn hlen => ?sent, fun hkind h => ?unsent, exec_exportDeliver_of_other holdest hok hready,
        exec_exportDeliver_of_no_buffer holdest hok hready,
        fun hkind hroom t => exec_exportDeliver_of_buffer holdest hok hready hkind hroom⟩⟩,
    fun htokens hhold ep b => State.heldOk_iff htokens hhold, State.heldOk_of_unacked⟩
  case sent => exact (exec_exportDeliver_of_context holdest hok hready hkind).trans (if_pos ⟨hst, hfn, hlen⟩)
  case unsent =>
    refine (exec_exportDeliver_of_context holdest hok hready hkind).trans (if_neg ?_)
    rintro ⟨hst, hfn, hlen⟩
    exact h.elim (· hst) fun h => h.elim (· hfn) (Bool.eq_false_iff.mp · hlen)

/-- Settles O39: doorbells, descriptors and deliveries, the three parts above. -/
theorem ringsAndDescriptors : Obligations.RingsAndDescriptors := ⟨doorbells, descriptors, exportDeliveries⟩

end Sys2Proof.Machine
end
